-- ==== Sys2Proof/Word.lean ====
section
/-! DEFINITION. The word types of the KAZ-1664 and the names of its numbered parts (00_scope.md R11, R23). -/
namespace Sys2Proof

abbrev Byte := BitVec 8
abbrev W16 := BitVec 16
abbrev W32 := BitVec 32
abbrev W64 := BitVec 64
abbrev W128 := BitVec 128

/-- A station number, S0 to S17 (R11). -/
abbrev St := Fin 18
/-- A partition, 0 to 3 (Terms of 00_scope.md). -/
abbrev Part := Fin 4
/-- A link port, P00 to P27 (R11). -/
abbrev PortId := Fin 28
/-- A tower, T0 to T7 (R11). -/
abbrev Twr := Fin 8
/-- A PCIe function, PF0 to PF4 (R512). -/
abbrev Pf := Fin 5
/-- A clock island, 00h to 48h (Table 10-1). -/
abbrev Island := Fin 73
/-- A quarter-package engine: routing engine G0 to G3 or reduction engine RE0 to RE3. -/
abbrev Eng := Fin 4
/-- A vat number (R192). -/
abbrev VatNo := Fin 32

/-- A half of the compute die (R20). -/
inductive Half where
  | west | east
  deriving DecidableEq, Repr

/-- A ring lane (R32). -/
inductive Lane where
  | cw | ccw
  deriving DecidableEq, Repr

/-- Little-endian value of a byte string (R12). -/
def leNat : List Byte → Nat
  | [] => 0
  | b :: bs => b.toNat + 256 * leNat bs

/-- The `n` bytes of a value, least significant first (R12). -/
def leBytes : Nat → Nat → List Byte
  | 0, _ => []
  | n + 1, v => BitVec.ofNat 8 v :: leBytes n (v / 256)

end Sys2Proof
end

