-- ==== Sys2Proof/Syntax.lean ====
section
/-!
DEFINITION. The commands of the KAZ-1664: one constructor of `Instr` for each row of spec/opcode_table.json, and the
types of their operands. An operand names the place the event strikes (a station, a port, a partition) and whatever
the package itself does not compute (what an ECC decoder finds, what a partner sends, what a sensor reads).
-/
namespace Sys2Proof

/-- What the SECDED check finds on a ring flit (R34): words corrected, words with a double-bit error, and the same
for the sideband. -/
structure FlitEcc where
  corrected : Nat
  dead : List Nat
  sbCorrected : Bool
  sbDead : Bool
  deriving DecidableEq, Repr

/-- What the checks of a command's reads of memory find: the corrected units and those with more errors than the check corrects. A unit is a 64 B sector of a tower by its device address
divided by 64 (R166), or a 64-bit word of a stash by its device address divided by 8 (R213); the two ranges of numbers do not meet. Units that the command does not read are passed over. `transit` numbers, in the same way for stash and tower alike by the
device address divided by 8, the 64-bit words of the data it moves in which a mesh flit's check met a double-bit error on the way (R394). -/
structure MemEcc where
  corrected : List Nat
  dead : List Nat
  transit : List Nat
  deriving DecidableEq, Repr

/-- An array fault as it shows on one product row: the columns whose output differs, with the bits they take; the same for one of the three sub-rows of a three-term row (R106, R393); and
the bands whose sum-witness and magnitude-witness outputs differ, with the bits they take (R391). -/
structure ArrayError where
  cols : List (Nat × W32)
  subs : List (Fin 3 × Nat × W32)
  wit : List (Nat × W32 × W32)
  deriving DecidableEq, Repr

def ArrayError.none : ArrayError := ⟨[], [], []⟩

/-- What the array and the lanes give in a test slice (R155, R158): the bits of every test product row and of every vector kernel result, in order, and whether every test row cleared its
witness check. -/
structure SliceBits where
  rows : List Byte
  results : List Byte
  clear : Bool
  deriving DecidableEq, Repr

/-- A word of a station's SRAM that has taken a double-bit error: 64-bit words of local store, which holds the program region and the spill space, elements of a tile, and scalar
registers (R217, R411). -/
inductive SramWord where
  | none | localStore (w : Nat) | tile (i : Fin 64) (el : Nat) | scalar (r : Fin 32)
  deriving DecidableEq, Repr

/-- A unit queue of a station (Table 08-1). -/
inductive UnitQ where
  | vat (v : VatNo) | ring (l : Lane) | array | acc | vec | eng | net | mor | chk
  deriving DecidableEq, Repr

/-- An access that reaches a retired or lost tower (R26): the k-th fetch or memory write in flight, or the descriptor
at the head of those on their way to the tower. -/
inductive TowerAccess where
  | read (k : Nat) | write (k : Nat) | transpose (t : Twr) | madder (t : Twr)
  deriving DecidableEq, Repr

/-- A mesh direction: an input or an outgoing edge of a router (R22), or the attached unit. -/
inductive Dir where
  | north | south | east | west | unit
  deriving DecidableEq, Repr

/-- The path by which a dictionary request reaches the steward: a function's mailbox (R479), or a management session (R468) with the SEQ of the
message (R478). -/
inductive Via where
  | pf (f : Pf) | session (n : Fin 8) (seq : W16)
  deriving DecidableEq, Repr

/-- A flit as it reaches a router input (R226, R394): the calendar frame and slot of its launch, the vertical and
horizontal edges it has crossed, its outgoing edge, the frame and slot in which it arrives, the partition that owns its slot, and what the
check of its routing fields finds. -/
structure MeshFlit where
  frame : W64
  slot : Nat
  vert : Nat
  horiz : Nat
  out : Dir
  atFrame : W64
  atSlot : Nat
  owner : Part
  routeDead : Bool
  deriving DecidableEq, Repr

/-- A clock-island crossing, by the islands of its write end and of its read end (R289); 49h names the host port domain. -/
structure Crossing where
  a : Fin 74
  b : Fin 74
  deriving DecidableEq, Repr

/-- Body of a HELLO (Table 11-10). -/
structure HelloBody where
  version : Byte
  device : W16
  port : Byte
  owner : Byte
  nonce : BitVec 384
  deriving DecidableEq, Repr

/-- MID and AMID of a link control message of the partner (R325). -/
structure MsgIds where
  mid : Byte
  amid : Byte
  deriving DecidableEq, Repr

/-- Double-bit errors that the SECDED of the retry buffer finds in the copy of a block that goes out (R311): in a payload word, in a header word. -/
structure BufferEcc where
  payload : Bool
  header : Bool
  deriving DecidableEq, Repr

/-- A hard failure of the physical lane that serves a logical one (R329): loss of signal, or with `lock` loss of lock while the signal is there. -/
structure LaneLoss where
  lane : Fin 16
  lock : Bool
  deriving DecidableEq, Repr

/-- What the decoder of a lane counted in a window (R310, R329): corrected symbols, codewords corrected and codewords it could not correct; and whether it was a whole window of 1 ms in UP, or
one that a change of the port's state has cut short. -/
structure LaneWindow where
  symbols : Nat
  corrected : Nat
  dead : Nat
  full : Bool
  deriving DecidableEq, Repr

/-- Where a reduce block comes from (R344, R368): a block at the head of a port's delivered queue, or the k-th reduce
transfer of the device's own stations. -/
inductive ReduceSrc where
  | port (p : PortId) | own (k : Nat)
  deriving DecidableEq, Repr

/-- What tests find at a job restart: a failing row of a group with the result of the repair sequence (R88, R416), another failing part of a station, a failing compare
self-test (R406), a rotation by direct slices that fails (R402, R495), a failing calibration of a spare (R417). A station that is not named has passed. -/
inductive RestartFinding where
  | row (st : St) (g : Fin 8) (r : Fin 65) (calOk : Bool) | other (st : St) | compare (st : St) | rotation (st : St) | spareCal (st : St)
  deriving DecidableEq, Repr

/-- An image of a step on a tier (0 partner, 1 Sepia, 2 shared store): its header, job record, and the CRC-32C of each 64 KiB block in
drain order (R423), what marks it (R426, R438), whether it is complete and clean (R432, R433, R436, R439), whether an event has kept it from ever becoming clean, and whether a fault-free pass
has met the rest of R439. -/
structure Image where
  tier : Nat
  step : W64
  opened : W64
  device : W16
  ranges : List Byte
  finger : W32
  recd : List Byte
  crcs : List (Nat × W32)
  inconsistent : Bool
  poisoned : Bool
  complete : Bool
  clean : Bool
  spoiled : Bool
  passOk : Bool
  deriving DecidableEq, Repr

/-- What the flash controller reads of one chip enable at discovery (R527): channel and chip enable, whether its ONFI signature and the CRC of its parameter page are valid, whether it
reports ONFI 5.0 or later with NV-LPDDR4, its pSLC page and spare bytes, its geometry, and its pSLC MiB. -/
structure NandTarget where
  ch : Fin 8
  ce : Fin 4
  signature : Bool
  crc : Bool
  onfi5 : Bool
  page : Nat
  spare : Nat
  geometry : W64
  mib : W32
  deriving DecidableEq, Repr

/-- What the boot ROM and the boot code find in the steps of Table 15-3 (R449, R450): the compare self-test, the factory set, the signatures of slots A and B of the boot code and of
the runtime, entries with a double-bit error in non-volatile memory (index × 256 + sub-index, R407), places of the fault log whose record does not match its CHK, with the bytes stored there (R415), the chip enables that answer the flash discovery (R527), the program rate
(OD 617Eh), its spare blocks and the blocks in use, and images on the NAND that the steward finds complete and does not hold yet, by partition (R510). -/
structure BootResult where
  selfTest : Bool
  factory : Bool
  sigs : Vector Bool 4
  bad : List Nat
  badRecs : List (Fin 4096 × List Byte)
  nand : List NandTarget
  rate : W32
  spares : Nat
  blocks : Nat
  images : List (Part × Image)
  deriving DecidableEq, Repr

/-- Firmware kinds (Table 15-5). -/
inductive FwKind where
  | bootcode | runtime
  deriving DecidableEq, Repr

/-- Transport of a management session: MGA or MGB, or tunnel messages of another device (R468). -/
inductive SessTransport where
  | mgmt (m : Fin 2) | tunnel (dev : W16)
  deriving DecidableEq, Repr

/-- A client's certificate (R469): its chain verifies to an anchor of OD 1100h, or to the Eloafold root with a runtime alias leaf; SHA-384 of the leaf key. -/
structure ClientCert where
  anchored : Bool
  alias_ : Bool
  key : BitVec 384
  deriving DecidableEq, Repr

/-- Header of a dictionary request (Table 15-12) but for SEQ and LENGTH of a write: VER, KIND, COMMIT, a reserved bit that is set, INDEX, SUB, OFFSET, and the bytes wanted of a
read. -/
structure DictReq where
  ver : Byte
  kind : Byte
  commit : Bool
  resv : Bool
  index : W16
  sub : Byte
  off : W32
  len : W16
  deriving DecidableEq, Repr

/-- Path of an SPDM request (Table 15-8): DOE of a function, or a management session. -/
inductive SpdmVia where
  | doe (f : Pf) | session (n : Fin 8)
  deriving DecidableEq, Repr

/-- What the host configures in a function (Table 17-1): the size of BAR2 in GiB, Bus Master Enable, Max_Payload_Size in bytes, PTM enabled. -/
structure PciCfg where
  bar2 : Nat
  bme : Bool
  mps : Nat
  ptm : Bool
  deriving DecidableEq, Repr

/-- A power rail: its number in Table 17-6, less 1. -/
abbrev Rail := Fin 14

/-- The commands (opcode_table.json), in the table's order. -/
inductive Instr where
  /-- CTL_NOP: Issue of CTL.NOP, which completes at issue and does nothing. (R253) -/
  | ctlNop (st : St) (bad : SramWord)
  /-- CTL_LI: Issue of CTL.LI, which writes IMM64 to scalar register KD at issue. (R253) -/
  | ctlLi (st : St)
  /-- CTL_ADD: Issue of CTL.ADD, which writes the sum of two registers and a signed immediate to KD at issue. (R253) -/
  | ctlAdd (st : St)
  /-- CTL_BR: Issue of CTL.BR, which checks the target against the program region and branches on its condition. (R253) -/
  | ctlBr (st : St)
  /-- CTL_BASE: Issue of CTL.BASE, which adds an unsigned immediate to the station's calendar base. (R222) -/
  | ctlBase (st : St)
  /-- CTL_END: Issue of CTL.END, which stops further issue on the station. (R253) -/
  | ctlEnd (st : St)
  /-- CTL_END_FIRE: CTL.END fires once every other queue is empty, faults if a vat or tile is open, and reports the station done. (R253) -/
  | ctlEndFire (st : St)
  /-- UNLISTED_OPCODE: Issue of an instruction whose opcode Table 09-1 does not list raises fault 01h at issue. (R247) -/
  | unlistedOpcode (st : St)
  /-- VAT_OPEN: Issue of VAT.OPEN, checking the vat number, extent, overlap and field ranges. (R192) -/
  | vatOpen (st : St)
  /-- VAT_OPEN_FIRE: VAT.OPEN fires, after any overlapping closing vat has closed, and sets every slot Free. (R192) -/
  | vatOpenFire (st : St) (v : VatNo)
  /-- VAT_FETCH: Issue of VAT.FETCH, checking the vat, byte count, overflow and the source extent against the windows. (R256) -/
  | vatFetch (st : St)
  /-- VAT_FETCH_FIRE: VAT.FETCH fires when its tail slot is Free and, for a device source, at its start frame, and claims the slot and sends its requests. (R256) -/
  | vatFetchFire (st : St) (v : VatNo)
  /-- VAT_SLOT_FULL: The last byte of a fetch is written to its slot and checked, and the slot becomes Full. (R194) -/
  | vatSlotFull (st : St) (v : VatNo) (slot : Nat)
  /-- VAT_PUT: Issue of VAT.PUT, checking the vat, destination, accumulating-write alignment and the completion mordant. (R256) -/
  | vatPut (st : St)
  /-- VAT_PUT_FIRE: VAT.PUT fires at its start frame with its head slot Full and sends the slot's bytes to the destination. (R256) -/
  | vatPutFire (st : St) (v : VatNo)
  /-- PUT_WRITE_COMPLETE: The last byte of a put is written at its destination and the named mordant receives an add of 1. (R204) -/
  | putWriteComplete (k : Nat)
  /-- SLOT_RELEASE: A consumer releases a taken slot, which becomes Free. (R195) -/
  | slotRelease (st : St) (v : VatNo) (slot : Nat)
  /-- VAT_CANCEL: Issue of VAT.CANCEL, which splits the vat's stream and resets the issue-time book-keeping counts. (R205) -/
  | vatCancel (st : St)
  /-- VAT_CANCEL_FIRE: VAT.CANCEL fires once the old stream is done, freeing Full slots, making Claimed slots Dropping and setting the head to the tail. (R205) -/
  | vatCancelFire (st : St) (v : VatNo)
  /-- DROPPED_FETCH_END: The fetch of a Dropping slot ends, its bytes are not written, and the slot becomes Free without any fault. (R206) -/
  | droppedFetchEnd (st : St) (v : VatNo) (slot : Nat)
  /-- VAT_CLOSE: Issue of VAT.CLOSE, which faults when the vat is not open. (R197) -/
  | vatClose (st : St)
  /-- VAT_CLOSE_FIRE: VAT.CLOSE fires when every earlier instruction on the vat has finished, faults if fewer than the stream length were taken, and frees the vat number. (R197) -/
  | vatCloseFire (st : St) (v : VatNo)
  /-- RING_FEED: Issue of RING.FEED, checking HOPS against the sub-ring and the row range. (R259) -/
  | ringFeed (st : St)
  /-- RING_FEED_FIRE: RING.FEED fires with its head slot Full and injects the rows as flits on its lanes when no arriving flit is to be forwarded. (R260) -/
  | ringFeedFire (st : St) (l : Lane)
  /-- RING_TAKE: Issue of RING.TAKE, which becomes pending for its tag range on its lane. (R259) -/
  | ringTake (st : St)
  /-- RING_TAKE_FIRE: RING.TAKE takes matching flits from the head of its lane queue and writes whole rows with TAG, ROW and POISON to its vat. (R260) -/
  | ringTakeFire (st : St) (l : Lane)
  /-- RING_ADD: Issue of RING.ADD, checking shape, HOPS, row count parity and the tile lease. (R262) -/
  | ringAdd (st : St)
  /-- RING_ADD_FIRE: RING.ADD injects, adds and forwards partial-sum flits of its circuit, and at the last station adds the result into its tile. (R262) -/
  | ringAddFire (st : St) (l : Lane)
  /-- RING_FLIT_ARRIVAL: A flit arrives at a station's ring receive queue, is checked by SECDED, decremented and forwarded or passed to a pending instruction. (R34) -/
  | ringFlitArrival (st : St) (l : Lane) (e : FlitEcc)
  /-- RING_CREDIT_RETURN: A credit returns over a ring hop and lets the sender use a freed receive-queue entry. (R37) -/
  | ringCreditReturn (st : St) (l : Lane)
  /-- RING_HEAD_STALL: A flit has stood at the head of a receive queue for 10 µs and fault 0Ah is recorded for the lane's job. (R40) -/
  | ringHeadStall (st : St) (l : Lane)
  /-- ARR_SHAPE: Issue of ARR.SHAPE. (R76) -/
  | arrShape (st : St)
  /-- ARR_SHAPE_FIRE: ARR.SHAPE fires when the pipeline is empty and every verdict is ready, discards both weight sets and sets the new shape after 4 sc. (R76) -/
  | arrShapeFire (st : St)
  /-- ARR_LOAD: Issue of ARR.LOAD, checking k, n and the pending-load book-keeping. (R78) -/
  | arrLoad (st : St)
  /-- ARR_LOAD_FIRE: ARR.LOAD fires when the shadow registers are free, compares the copy version tag and starts shifting the block into the chains. (R264) -/
  | arrLoadFire (st : St)
  /-- ARR_LOAD_COMPLETE: The last weight row and its witness weights are in the chains and the load is complete. (R67) -/
  | arrLoadComplete (st : St)
  /-- ARR_MMA: Issue of ARR.MMA, checking formats, shape, tile limits, the swap book-keeping and the tile lease. (R265) -/
  | arrMma (st : St)
  /-- ARR_MMA_FIRE: ARR.MMA fires, after its load when it swaps, and feeds operand rows into the array at the row rate. (R265) -/
  | arrMmaFire (st : St)
  /-- SHADOW_REGISTERS_FREE: The shadow registers become free 16 sc after the swap row enters the feeder. (R68) -/
  | shadowRegistersFree (st : St)
  /-- PRODUCT_ROW_LEAVES_TREE: A product row leaves the column tree and is added to its tile or passed to the ring add stage. (R62) -/
  | productRowLeavesTree (st : St) (err : Option ArrayError)
  /-- WITNESS_VERDICT: The witness verdict on a product row is ready and the row clears or mismatches. (R85) -/
  | witnessVerdict (st : St)
  /-- K_PASS_END: The last product row of a K-pass leaves the tree and the pass ends into its tile or carry stack. (R65) -/
  | kPassEnd (st : St)
  /-- MERGE_COMPLETE: The carry-stack merges or spill of a pass complete on the merge path. (R114) -/
  | mergeComplete (st : St) (tile : Fin 64)
  /-- ACC_OPEN: Issue of ACC.OPEN, checking room, tile number, pass count and spill area. (R80) -/
  | accOpen (st : St)
  /-- ACC_OPEN_FIRE: ACC.OPEN fires and sets every element empty and the flags clear. (R266) -/
  | accOpenFire (st : St)
  /-- ACC_DRAIN: Issue of ACC.DRAIN, checking declared passes and ending the tile's lease. (R82) -/
  | accDrain (st : St)
  /-- ACC_DRAIN_FIRE: ACC.DRAIN fires once verdicts, retries and merges are done and drains the tile through the epilogue into its vat. (R82) -/
  | accDrainFire (st : St)
  /-- DRAIN_COMPLETE: The last element of a drain is written, the flags register is written and the tile numbers are freed. (R266) -/
  | drainComplete (st : St)
  /-- VEC_SPLIT: Issue of VEC.SPLIT. (R129) -/
  | vecSplit (st : St)
  /-- VEC_SPLIT_FIRE: VEC.SPLIT fires when no element is in the paths it changes and divides the lanes between the pools. (R133) -/
  | vecSplitFire (st : St)
  /-- VEC_PRO: Issue of VEC.PRO. (R267) -/
  | vecPro (st : St)
  /-- VEC_PRO_FIRE: VEC.PRO fires when the prologue path is empty and arms its micro-op list. (R267) -/
  | vecProFire (st : St)
  /-- VEC_EPI: Issue of VEC.EPI. (R267) -/
  | vecEpi (st : St)
  /-- VEC_EPI_FIRE: VEC.EPI fires when the epilogue path is empty and arms its micro-op list. (R267) -/
  | vecEpiFire (st : St)
  /-- VEC_OP: Issue of VEC.OP. (R270) -/
  | vecOp (st : St)
  /-- VEC_OP_FIRE: VEC.OP fires when the epilogue pool is free and runs its program over the input rows. (R270) -/
  | vecOpFire (st : St)
  /-- VEC_NCOMB: Issue of VEC.NCOMB. (R135) -/
  | vecNcomb (st : St)
  /-- VEC_NCOMB_FIRE: VEC.NCOMB fires and combines statistics records into row factors. (R135) -/
  | vecNcombFire (st : St)
  /-- VEC_SMINIT: Issue of VEC.SMINIT. (R138) -/
  | vecSminit (st : St)
  /-- VEC_SMINIT_FIRE: VEC.SMINIT fires and sets the named soft-maximum entries to (−∞, +0). (R138) -/
  | vecSminitFire (st : St)
  /-- VEC_ROPE_LOAD: Issue of VEC.ROPE.LOAD. (R142) -/
  | vecRopeLoad (st : St)
  /-- VEC_ROPE_LOAD_FIRE: VEC.ROPE.LOAD fires, loads the rotary table and faults on a reserved bit. (R142) -/
  | vecRopeLoadFire (st : St)
  /-- ENG_ROUTE: Issue of ENG.ROUTE. (R271) -/
  | engRoute (st : St)
  /-- ENG_ROUTE_FIRE: ENG.ROUTE fires with queue credit at its start frame and sends its descriptor to the named routing engine. (R271) -/
  | engRouteFire (st : St)
  /-- ENG_XPOSE: Issue of ENG.XPOSE. (R271) -/
  | engXpose (st : St)
  /-- ENG_XPOSE_FIRE: ENG.XPOSE fires with queue credit at its start frame and sends its descriptor to the source tower. (R271) -/
  | engXposeFire (st : St)
  /-- ENG_MADDER: Issue of ENG.MADDER. (R271) -/
  | engMadder (st : St)
  /-- ENG_MADDER_FIRE: ENG.MADDER fires with queue credit at its start frame and sends its descriptor to the tower of W. (R271) -/
  | engMadderFire (st : St)
  /-- NET_SEND: Issue of NET.SEND, checking route, kind and mordant use. (R272) -/
  | netSend (st : St)
  /-- NET_SEND_FIRE: NET.SEND fires at its start frame with its head slot Full and sends the slot as write, reduce or multicast blocks. (R341) -/
  | netSendFire (st : St)
  /-- MOR_WAIT: Issue of MOR.WAIT. (R273) -/
  | morWait (st : St)
  /-- MOR_WAIT_FIRE: MOR.WAIT fires when the mordant counter reaches its threshold. (R273) -/
  | morWaitFire (st : St)
  /-- MOR_ADD: Issue of MOR.ADD, checking CAL and the mordant range. (R273) -/
  | morAdd (st : St)
  /-- MOR_ADD_FIRE: MOR.ADD fires and sends its add to the holding station or remote device. (R273) -/
  | morAddFire (st : St)
  /-- MOR_SET: Issue of MOR.SET, checking CAL and the mordant range. (R273) -/
  | morSet (st : St)
  /-- MOR_SET_FIRE: MOR.SET fires and sends its value to the holding station or remote device. (R273) -/
  | morSetFire (st : St)
  /-- MOR_READ: Issue of MOR.READ, making its destination register pending. (R273) -/
  | morRead (st : St)
  /-- MOR_READ_FIRE: MOR.READ fires, reads the counter and writes the register 16 sc later. (R273) -/
  | morReadFire (st : St)
  /-- MORDANT_OPERATION_ARRIVAL: An add or set reaches the holding station and is applied to the counter, saturating at the top. (R360) -/
  | mordantOperationArrival (k : Nat)
  /-- MORDANT_TIMEOUT: A wait or gate exceeds its mordant's timeout in unheld time and raises fault 05h. (R362) -/
  | mordantTimeout (st : St) (u : UnitQ)
  /-- CHK_KAT: Issue of CHK.KAT, faulting when a load is in progress or unswapped. (R274) -/
  | chkKat (st : St)
  /-- CHK_KAT_FIRE: CHK.KAT fires when the array is empty, no path is in flight and HOLD is not raised, and starts a test slice. (R156) -/
  | chkKatFire (st : St)
  /-- TEST_SLICE_END: A test slice ends, its signatures are compared, and a failure raises fault 03h. (R158) -/
  | testSliceEnd (st : St) (b : SliceBits)
  /-- DIRECT_TEST_SLICE: The steward runs a direct slice on a station active in no loaded job. (R155) -/
  | directTestSlice (st : St)
  /-- KAT_QUEUE_FILL: The steward fills a station's known-answer kernel queue in rotation or observation order. (R399) -/
  | katQueueFill (st : St) (count : Nat)
  /-- IDLE_STATION_ROTATION: Once in every 24 h the steward runs a full rotation pass by direct slices on each idle station. (R402) -/
  | idleStationRotation (st : St) (fail : Option (Nat × SliceBits))
  /-- ROUTE_DESCRIPTOR_ARRIVAL: A routing descriptor arrives at an engine and enters the partition's queue. (R150) -/
  | routeDescriptorArrival (g : Eng)
  /-- ROUTE_GATHER: A gather descriptor starts, is checked and fills the expert buffers, slot map and count vector. (R151) -/
  | routeGather (g : Eng) (p : Part) (e : MemEcc)
  /-- ROUTE_COMBINE: A combine descriptor starts, is checked and writes one weighted row per token. (R152) -/
  | routeCombine (g : Eng) (p : Part) (e : MemEcc)
  /-- ROUTE_DESCRIPTOR_COMPLETE: A routing descriptor completes and its mordant receives an add of 1. (R154) -/
  | routeDescriptorComplete (g : Eng) (p : Part)
  /-- TRANSPOSE_DESCRIPTOR_ARRIVAL: A transpose descriptor arrives at a tower and enters the partition's queue. (R175) -/
  | transposeDescriptorArrival (t : Twr)
  /-- TRANSPOSE_RUN: A transpose descriptor starts, is checked, and moves its elements. (R176) -/
  | transposeRun (t : Twr) (p : Part) (e : MemEcc)
  /-- TRANSPOSE_COMPLETE: The last destination byte is written and the transpose's mordant receives an add of 1. (R176) -/
  | transposeComplete (t : Twr) (p : Part)
  /-- MADDER_DESCRIPTOR_ARRIVAL: A Madder descriptor arrives at a tower and enters the partition's queue. (R179) -/
  | madderDescriptorArrival (t : Twr)
  /-- MADDER_ADAPTIVE_UPDATE: An adaptive-moment Madder descriptor starts, is checked, reads κ and updates weights, moments and copies. (R182) -/
  | madderAdaptiveUpdate (t : Twr) (p : Part) (e : MemEcc)
  /-- MADDER_MOMENTUM_UPDATE: A momentum Madder descriptor starts, is checked, reads κ and updates weights, moment and copies. (R182) -/
  | madderMomentumUpdate (t : Twr) (p : Part) (e : MemEcc)
  /-- MADDER_COMPLETE: The last state element and header of a Madder descriptor are written and its mordant receives an add of 1. (R185) -/
  | madderComplete (t : Twr) (p : Part)
  /-- TOWER_READ: A tower channel serves a read with ECC correction, poison marking and counting. (R166) -/
  | towerRead (k i : Nat) (e : MemEcc)
  /-- TOWER_WRITE: A tower channel serves a plain write, merging partial sectors and writing carried poison. (R167) -/
  | towerWrite (k i : Nat) (e : MemEcc)
  /-- ACCUMULATING_WRITE: A tower channel adds each incoming FP32 word to the stored word. (R170) -/
  | accumulatingWrite (k i : Nat) (e : MemEcc)
  /-- MAINTENANCE_WINDOW: The first 16 ns of a frame give each channel refresh and up to 1,024 B of scrub or bank copy. (R164) -/
  | maintenanceWindow (t : Twr) (c : Fin 16) (e : MemEcc)
  /-- BANK_COPY_COMPLETE: The last 512 B of a bank copy are moved, the spare bank takes over and the bank map is saved. (R172) -/
  | bankCopyComplete (t : Twr) (c : Fin 16)
  /-- TOWER_LOSS: A tower answers nothing for 2 µs or has a power fault, and is faulted, abandoned and retired. (R174) -/
  | towerLoss (t : Twr)
  /-- RETIRED_TOWER_ACCESS: An access reaches a node of a retired or lost tower and is completed with poison, discarded or faulted. (R26) -/
  | retiredTowerAccess (a : TowerAccess)
  /-- STASH_READ: A stash node serves a read with SECDED correction or poisoning. (R213) -/
  | stashRead (k i : Nat) (e : MemEcc)
  /-- STASH_WRITE: A stash node serves a plain write, replacing words and poison. (R213) -/
  | stashWrite (k i : Nat)
  /-- SECURED_BLOCK_WRITE: A Madder write into a secured block takes or uses a pool slot and moves the block through its states. (R187) -/
  | securedBlockWrite (t : Twr) (p : Part) (e : MemEcc)
  /-- DRAIN_READ: A drain read of a secured block returns the image as it stood at the epoch's open. (R187) -/
  | drainRead (t : Twr) (p : Part) (blk : Nat) (e : MemEcc)
  /-- BLOCK_DRAIN_COMPLETE: The drain of a secured block completes and the block goes to Out or Returning. (R187) -/
  | blockDrainComplete (t : Twr) (p : Part) (blk : Nat)
  /-- COPY_BACK_GRANULE: A marked granule is copied from its slot to home and its mark cleared. (R187) -/
  | copyBackGranule (t : Twr) (p : Part) (blk : Nat) (g : Fin 16) (e : MemEcc)
  /-- FLIT_ARRIVAL_AT_ROUTER: A mesh flit reaches a router and is sent on in its scheduled slot or late. (R226) -/
  | flitArrivalAtRouter (node : Fin 192) (inp : Dir) (f : MeshFlit)
  /-- FRAME_MARK: A frame mark reaches the islands, resets slot counts and advances the calendar frame counter of unheld partitions. (R287) -/
  | frameMark 
  /-- TRANSFER_START: A ready calendar transfer starts sending in its slot run in frame b + 16 or later. (R224) -/
  | transferStart (st : St) (u : UnitQ)
  /-- WINDOW_MARK: At a hold window boundary each member samples HOLD, checks its hold links and decides whether the next window is held. (R229) -/
  | windowMark 
  /-- SIGHT_GAP_DEFERRED_CHECK: A hold link in a sight gap at the sampling point is checked at the gap's end or 1 µs later. (R383) -/
  | sightGapDeferredCheck (port : PortId)
  /-- HOLD_STALL_LIMIT: The group stays held beyond the hold stall limit and each outstanding raiser records fault 06h. (R232) -/
  | holdStallLimit (p : Part)
  /-- TEST_SHARE_SPAN_END: A span of 1,048,576 calendar frames ends and its measured test share is reported, logging 0Dh if short. (R235) -/
  | testShareSpanEnd (p : Part)
  /-- STATION_CLOCK_SETTING_WRITE: A write of OD 4100h schedules a station clock change at a frame boundary at least two frames later. (R279) -/
  | stationClockSettingWrite (via : Via) (p : Part) (mhz : W16)
  /-- CLOCK_SETTING_CHANGE: Every active station of the partition changes frequency at the chosen frame boundary. (R279) -/
  | clockSettingChange (p : Part)
  /-- REPLICA_TRIGGER: An island's replica margin reaches the trigger level and it stretches its next cycle. (R283) -/
  | replicaTrigger (i : Island)
  /-- HANG_DETECTED: A crossing's head item waits 10 µs, fault 0Ah is recorded and the write end is fenced. (R290) -/
  | hangDetected (x : Crossing)
  /-- CROSSING_RECALIBRATED: A jointly reset crossing finishes recalibration and accepts items again. (R292) -/
  | crossingRecalibrated (x : Crossing) (pass : Bool)
  /-- TIME_SET: A write of OD 4401h requests a set of the time counter, refused while any job is loaded. (R295) -/
  | timeSet (via : Via) (value : W64)
  /-- TIME_SET_APPLIED: The counter takes the set value at the next frame boundary. (R295) -/
  | timeSetApplied 
  /-- REFERENCE_LOSS: The reference is declared lost and the time domain switches to holdover or last resort. (R297) -/
  | referenceLoss 
  /-- REFERENCE_LOCK: The reference has been present and within ±100 ppm for 100 ms and the time domain locks to it. (R296) -/
  | referenceLock 
  /-- HOLDOVER_CROSS_CHECK: Each millisecond the steward compares the holdover oscillator with its own and marks it failed or good. (R298) -/
  | holdoverCrossCheck (ok : Bool)
  /-- BLOCK_SLOT: In each block slot a port sends the first block that the precedence table finds. (R313) -/
  | blockSlot (port : PortId) (slot : Fin 752) (e : BufferEcc)
  /-- BLOCK_ARRIVAL: A block arrives at a port, is CRC-checked, its ACK, NAK and HOLD are used and it is delivered or discarded. (R314) -/
  | blockArrival (port : PortId) (b : BitVec 2048)
  /-- PORT_ACCEPTS_BLOCK: A port accepts a block from its mesh node into the retry buffer and assigns its SEQ, retraining when the buffer is full. (R316) -/
  | portAcceptsBlock (port : PortId) (e : MemEcc)
  /-- ACK_TIMEOUT: The ack timer expires, the sender replays from the oldest block and retrains after 8 timeouts. (R315) -/
  | ackTimeout (port : PortId)
  /-- RECEIVE_SILENCE: A port in UP receives no CRC-good block for 9.6 µs with no loss of signal and retrains. (R332) -/
  | receiveSilence (port : PortId)
  /-- HOLD_SIGHT_GAP: A port in UP receives no CRC-good block for 32 ns and reports a sight gap to its hold relay. (R320) -/
  | holdSightGap (port : PortId)
  /-- LOSS_OF_SIGNAL: Loss of signal is declared on a lane and the receiver asks for a swap. (R329) -/
  | lossOfSignal (port : PortId) (lane : LaneLoss)
  /-- LOSS_PERSISTS: Loss of signal persists 2 µs on lanes the spare cannot cover and the port declares its partner lost. (R333) -/
  | lossPersists (port : PortId)
  /-- LANE_DEGRADE_WINDOW: A lane exceeds the corrected-symbol threshold in a 1 ms window and a swap is asked for. (R329) -/
  | laneDegradeWindow (port : PortId) (lane : Fin 16) (w : LaneWindow)
  /-- SPARE_LOCK_LOSS: A receiver loses lock on an unused spare and sends SPARE BAD. (R328) -/
  | spareLockLoss (port : PortId)
  /-- SPARE_CODEWORD_DECODE: Codewords decode on the spare and the receiver takes the lane from it and sends SWAP DONE. (R330) -/
  | spareCodewordDecode (port : PortId) (lane : Fin 16)
  /-- TRAINING_SETS_DETECTED: Good training sets arrive on at least 16 lanes and the port enters EQUALISE. (R321) -/
  | trainingSetsDetected (port : PortId) (sets : List (Fin 17 × BitVec 256))
  /-- EQUALISE_COMPLETE: Both ends show RXOK on 16 lanes and the port enters ALIGN. (R321) -/
  | equaliseComplete (port : PortId) (rxOut txOut : Option (Fin 17))
  /-- EQUALISE_TIMEOUT: EQUALISE exceeds 200 ms and the port falls back in rate or fails training. (R322) -/
  | equaliseTimeout (port : PortId)
  /-- ALIGN_COMPLETE: Both ends show ALLOK, D is measured and the port enters AUTH. (R324) -/
  | alignComplete (port : PortId)
  /-- ALIGN_TIMEOUT: ALIGN exceeds 2 ms and the port falls back in rate or fails training. (R322) -/
  | alignTimeout (port : PortId)
  /-- AUTH_TIMEOUT: AUTH exceeds 100 ms and the link is refused with code 08h. (R327) -/
  | authTimeout (port : PortId)
  /-- TRAINING_RETRY: A port that failed training returns to DETECT after 1 s, entering HELD after three failures. (R322) -/
  | trainingRetry (port : PortId) (rxFail txFail : Nat)
  /-- LINK_CONTROL_REPEAT: An unanswered link control message is repeated every 1 µs and abandoned after 64 sends. (R325) -/
  | linkControlRepeat (port : PortId)
  /-- LINK_CONTROL_ACK: Receipt of a link control ACK message, whose AMID covers sent messages. (R325) -/
  | linkControlAck (port : PortId) (amid : Byte)
  /-- HELLO: Receipt of HELLO, giving the partner's version, device ID, port and nonce. (R327) -/
  | hello (port : PortId) (ids : MsgIds) (h : HelloBody)
  /-- CHAIN: Receipt of the partner's certificate chain, verified to the Eloafold root. (R327) -/
  | chain (port : PortId) (ids : MsgIds) (ok : Bool)
  /-- PROOF: Receipt of PROOF, verified under the chain's alias key, after which the end sends its VERDICT. (R326) -/
  | proof (port : PortId) (ids : MsgIds) (ok : Bool)
  /-- VERDICT: Receipt of VERDICT, admitting the link to UP or returning both ends to DOWN. (R327) -/
  | verdict (port : PortId) (ids : MsgIds) (code : Byte)
  /-- SWAP: Receipt of SWAP, after which the transmitter also sends the lane's words on the spare. (R330) -/
  | swap (port : PortId) (ids : MsgIds) (lane : Fin 16)
  /-- SWAP_DONE: Receipt of SWAP DONE, after which the transmitter stops the failed lane and saves the map. (R330) -/
  | swapDone (port : PortId) (ids : MsgIds) (lane : Fin 16)
  /-- SPARE_BAD: Receipt of SPARE BAD, marking the spare gone. (R328) -/
  | spareBad (port : PortId) (ids : MsgIds)
  /-- RETRAIN: Receipt of RETRAIN, after which the port retrains. (R332) -/
  | retrain (port : PortId) (ids : MsgIds)
  /-- GOODBYE: Receipt of GOODBYE, treated as a port loss with a return to DETECT. (R335) -/
  | goodbye (port : PortId) (ids : MsgIds)
  /-- PORT_COMMAND_RETRAIN: Command 01h of OD 5005h makes the port retrain. (R332) -/
  | portCommandRetrain (via : Via) (port : PortId)
  /-- PORT_COMMAND_ORDERLY_DOWN: Command 02h of OD 5005h sends GOODBYE and takes the port DOWN. (R335) -/
  | portCommandOrderlyDown (via : Via) (port : PortId)
  /-- PORT_COMMAND_RELEASE_HELD: Command 03h of OD 5005h releases the port from HELD to DOWN. (R321) -/
  | portCommandReleaseHeld (via : Via) (port : PortId)
  /-- PORT_ENABLE_WRITE: A write of OD 5000h enables training or disables the port, causing a loss. (R321) -/
  | portEnableWrite (via : Via) (port : PortId) (v : Byte)
  /-- TIME_SYNC: A sync time block from a child arrives and the device answers with a reply. (R376) -/
  | timeSync (port : PortId)
  /-- TIME_REPLY: A reply time block arrives and the follower updates its offset, slew and alignment. (R377) -/
  | timeReply (port : PortId)
  /-- WRITE: A scheduled write block is delivered and its data written at its address. (R341) -/
  | write (port : PortId) (e : MemEcc)
  /-- READ_REQUEST: A scheduled read request arrives, is checked, and the responder sends its response on the return route. (R342) -/
  | readRequest (port : PortId) (e : MemEcc)
  /-- READ_RESPONSE: A read response block arrives and fills the requesting station's vat slot. (R341) -/
  | readResponse (port : PortId)
  /-- MORDANT_ADD: A scheduled mordant add block is applied to a mordant of the receiving partition. (R361) -/
  | mordantAdd (port : PortId)
  /-- MORDANT_SET: A scheduled mordant set block is applied to a mordant of the receiving partition. (R361) -/
  | mordantSet (port : PortId)
  /-- REDUCE: A reduce block reaches its group's engine, is checked and held until its partners arrive. (R368) -/
  | reduce (src : ReduceSrc) (e : MemEcc)
  /-- MULTICAST_WRITE: A multicast block is written locally and sent on each branch of its tree. (R364) -/
  | multicastWrite (port : PortId) (e : MemEcc)
  /-- FENCE: A fence block arrives, sets FMOR failed, records fault 08h and is forwarded. (R366) -/
  | fence (port : PortId)
  /-- OPEN_WRITE: An open write is delivered into the partition's landing window. (R354) -/
  | openWrite (port : PortId) (e : MemEcc)
  /-- OPEN_READ_REQUEST: An open read request is checked and answered with open responses. (R342) -/
  | openReadRequest (port : PortId) (e : MemEcc)
  /-- OPEN_READ_RESPONSE: An open read response reaches the requester and fills its slot. (R351) -/
  | openReadResponse (port : PortId)
  /-- OPEN_MORDANT_ADD: An open mordant add is applied in the named partition. (R361) -/
  | openMordantAdd (port : PortId)
  /-- OPEN_MORDANT_SET: An open mordant set is applied in the named partition. (R361) -/
  | openMordantSet (port : PortId)
  /-- CREDIT: A credit block returns open-traffic credits for each virtual channel. (R353) -/
  | credit (port : PortId)
  /-- MANAGEMENT_TUNNEL: A management tunnel fragment arrives and the steward reassembles its datagram. (R480) -/
  | managementTunnel (port : PortId) (answers : Option W16)
  /-- SCHEDULED_BLOCK_TRANSIT: A scheduled block on a transit route is launched on the mesh and sent on its departure port. (R347) -/
  | scheduledBlockTransit (port : PortId)
  /-- OPEN_BLOCK_FORWARD: An open block for another device leaves on its route-table port or is discarded. (R351) -/
  | openBlockForward (port : PortId)
  /-- COMMIT_RECORD_ARRIVAL: A partner image's commit record reaches the holder, which marks the slot complete and sends a completion. (R432) -/
  | commitRecordArrival (port : PortId) (p : Part) (step : W64)
  /-- PARTNER_COMPLETION: The holder's completion message reaches the source steward and the partner image becomes complete. (R432) -/
  | partnerCompletion (p : Part)
  /-- COMMIT_TIMEOUT: No completion arrives within 100 ms of the last block and the epoch is aborted. (R432) -/
  | commitTimeout (p : Part)
  /-- SECURING_MORDANT_CHANGE: The securing mordant changes and the device secures, skips or ignores the named step. (R424) -/
  | securingMordantChange (p : Part) (e : MemEcc)
  /-- NAND_PROGRAM_COMPLETE: A NAND program unit completes, a failure is rewritten at the next unit and a commit unit completes the image. (R433) -/
  | nandProgramComplete (p : Part) (ok : Bool)
  /-- NAND_ERASE_COMPLETE: A NAND block erase completes, a failing block is retired and the tier may be retired at its rated count. (R433) -/
  | nandEraseComplete (p : Part) (ok : Bool)
  /-- NAND_READ_COMPLETE: A NAND read completes and its data is LDPC-corrected or delivered with its CRC failed. (R528) -/
  | nandReadComplete (p : Part) (blk : Nat) (ok : Bool)
  /-- SHARED_STORE_COMMIT: The host driver writes the stored step to OD 617Fh and the shared-store image becomes complete. (R436) -/
  | sharedStoreCommit (via : Via) (p : Part) (step : W64)
  /-- RESTORE_ARM: A write of OD 6179h arms a restore for the next load. (R440) -/
  | restoreArm (via : Via) (p : Part) (req : BitVec 256)
  /-- RESTORE_BLOCK_LANDS: A restored block lands in the ranges and its CRC-32C is checked. (R441) -/
  | restoreBlockLands (p : Part) (blk : Nat) (data : List Byte)
  /-- RESTORE_COMPLETE: The restore completes and the job starts with s_c at the image's step. (R442) -/
  | restoreComplete (p : Part)
  /-- PARTNER_TARGET_WRITE: A write of OD 6176h makes the source steward obtain the holder's reserve addresses over a tunnelled session. (R431) -/
  | partnerTargetWrite (via : Via) (p : Part) (v : W64) (answer : Option (List (List W64)))
  /-- SEQUENCER_COMPARE_MISMATCH: The two sequencer copies disagree, issue stops and fault 03h is recorded. (R404) -/
  | sequencerCompareMismatch (st : St)
  /-- STEWARD_LOCKSTEP_MISMATCH: The management cores disagree, a record is written and the steward restarts. (R405) -/
  | stewardLockstepMismatch 
  /-- OBSERVATION_EXPIRY: A station under observation has 72 h with no event and leaves observation. (R408) -/
  | observationExpiry (st : St)
  /-- RISK_ESTIMATE_UPDATE: Once per second the health monitor recomputes each partition's risk estimate. (R409) -/
  | riskEstimateUpdate 
  /-- CLEAN_HOUR_TICK: An hour ends and the clean-hour count advances, resets or holds, and is saved. (R502) -/
  | cleanHourTick
  /-- LOG_ACKNOWLEDGE: A write of OD 7002h acknowledges the named record and every older record. (R415) -/
  | logAcknowledge (via : Via) (seq : W16)
  /-- JOB_LOAD: A write of OD 6001h makes the loader check, bind, optionally restore and start a job. (R483) -/
  | jobLoad (via : Via) (p : Part) (req : W128) (iso : List RestartFinding) (e : MemEcc)
  /-- JOB_END: A write of OD 6002h ends the partition's job without a fault record. (R485) -/
  | jobEnd (via : Via) (p : Part)
  /-- JOB_UNLOAD: A write of OD 6003h unloads an ended job and stops its HOLD assertion. (R485) -/
  | jobUnload (via : Via) (p : Part)
  /-- STEWARD_RESTART: A write of OD 1031h restarts the management cores and repeats the boot. (R455) -/
  | stewardRestart (via : Via)
  /-- WATCHDOG_EXPIRY: The steward's hardware watchdog expires and the steward restarts. (R455) -/
  | watchdogExpiry 
  /-- RUNTIME_READY: The runtime firmware reaches step 6, writes held records and makes the dictionary available. (R455) -/
  | runtimeReady (boot : BootResult)
  /-- RUNTIME_START_TIMEOUT: A runtime image does not reach step 6 within 2 s, is marked failed and the previous slot boots. (R462) -/
  | runtimeStartTimeout 
  /-- IMAGE_STAGING_WRITE: A segmented write of OD 1F01h writes an image into the inactive slot. (R461) -/
  | imageStagingWrite (via : Via) (kind : FwKind) (off : Nat) (data : List Byte) (commit : Bool)
  /-- FIRMWARE_VERIFY: Command 01h of OD 1F02h verifies the inactive slot. (R461) -/
  | firmwareVerify (via : Via) (bootSig runSig : Bool)
  /-- FIRMWARE_ACTIVATE: Command 02h of OD 1F02h activates verified slots and restarts the steward. (R462) -/
  | firmwareActivate (via : Via)
  /-- RAISE_ROLLBACK_FLOOR: Command 04h of OD 1F02h raises the OTP rollback floor. (R463) -/
  | raiseRollbackFloor (via : Via)
  /-- FIRMWARE_REVERT: Command 05h of OD 1F02h reverts to the previous images. (R462) -/
  | firmwareRevert (via : Via)
  /-- MANAGEMENT_SESSION_HANDSHAKE: A DTLS handshake opens a management session and grants it a role. (R468) -/
  | managementSessionHandshake (t : SessTransport) (c : ClientCert)
  /-- SESSION_IDLE_TIMEOUT: A session idle for 60 s is closed. (R468) -/
  | sessionIdleTimeout (n : Fin 8)
  /-- DICTIONARY_READ: A read request returns an entry's value or a DOMAIN segment. (R477) -/
  | dictionaryRead (via : Via) (r : DictReq)
  /-- DICTIONARY_WRITE: A write request to an entry with no row of its own is checked by role, access code, value and state and applied. (R550) -/
  | dictionaryWrite (via : Via) (r : DictReq) (data : List Byte)
  /-- DOMAIN_WRITE_SEGMENT: A DOMAIN write segment is placed in the session's staging copy. (R477) -/
  | domainWriteSegment (via : Via) (r : DictReq) (data : List Byte)
  /-- DOMAIN_WRITE_COMMIT: A DOMAIN write with COMMIT checks and applies the whole staged value. (R477) -/
  | domainWriteCommit (via : Via) (r : DictReq) (data : List Byte) (iso : List RestartFinding) (e : MemEcc)
  /-- GET_VERSION: The SPDM GET_VERSION request is answered. (R467) -/
  | getVersion (via : SpdmVia)
  /-- GET_CAPABILITIES: The SPDM GET_CAPABILITIES request is answered. (R467) -/
  | getCapabilities (via : SpdmVia)
  /-- NEGOTIATE_ALGORITHMS: The SPDM NEGOTIATE_ALGORITHMS request is answered. (R467) -/
  | negotiateAlgorithms (via : SpdmVia)
  /-- GET_DIGESTS: The SPDM GET_DIGESTS request is answered. (R467) -/
  | getDigests (via : SpdmVia)
  /-- GET_CERTIFICATE: The SPDM GET_CERTIFICATE request returns the slot 0 chain. (R466) -/
  | getCertificate (via : SpdmVia) (slot : Byte) (off len : Nat)
  /-- CHALLENGE: The SPDM CHALLENGE request is answered with a signature. (R467) -/
  | challenge (via : SpdmVia) (nonce : BitVec 256)
  /-- GET_MEASUREMENTS: The SPDM GET_MEASUREMENTS request returns the measurement blocks. (R467) -/
  | getMeasurements (via : SpdmVia) (index : Byte) (signed : Bool) (nonce : BitVec 256)
  /-- KEY_EXCHANGE: The SPDM KEY_EXCHANGE request starts a secured session. (R467) -/
  | keyExchange (via : SpdmVia)
  /-- FINISH: The SPDM FINISH request completes a secured session. (R467) -/
  | finish (via : SpdmVia) (ok : Bool)
  /-- HEARTBEAT: The SPDM HEARTBEAT request is answered. (R467) -/
  | heartbeat (via : SpdmVia)
  /-- KEY_UPDATE: The SPDM KEY_UPDATE request updates the session keys. (R467) -/
  | keyUpdate (via : SpdmVia)
  /-- END_SESSION: The SPDM END_SESSION request ends a secured session. (R467) -/
  | endSession (via : SpdmVia)
  /-- MAILBOX_DOORBELL: A write of a function's mailbox doorbell submits the request, or sets LOST when busy. (R479) -/
  | mailboxDoorbell (pf : Pf) (req : List Byte) (w1c : Byte)
  /-- TUNNEL_REASSEMBLY_TIMEOUT: A tunnel message not complete within 100 ms is discarded. (R480) -/
  | tunnelReassemblyTimeout (src : W16) (msg : W16)
  /-- TUNNEL_RESEND: An unanswered tunnel message is sent again every 200 ms, up to 16 sends. (R480) -/
  | tunnelResend (k : Nat)
  /-- SAVE_CONFIGURATION: Command 01h of OD 1050h saves every class S entry. (R482) -/
  | saveConfiguration (via : Via)
  /-- DISCARD_UNSAVED: Command 02h of OD 1050h returns unsaved class S entries to their saved values. (R482) -/
  | discardUnsaved (via : Via)
  /-- RESTORE_FACTORY: A write of OD 3F00h zeroes and saves every user calibration entry. (R473) -/
  | restoreFactory (via : Via)
  /-- RESTORE_FACTORY_REPAIR_MAPS: A write of OD 8F00h restores the factory station states and row maps. (R474) -/
  | restoreFactoryRepairMaps (via : Via)
  /-- POWER_ON: The rails rise from OFF and a cold reset begins. (R487) -/
  | powerOn 
  /-- COLD_RESET_INPUT: COLD_RST_N held low for 1 µs starts a cold reset. (R537) -/
  | coldResetInput 
  /-- COLD_RESET: Command 02h of OD 4000h resets the steward, compute die, towers, ports and time counter. (R487) -/
  | coldReset (via : Via)
  /-- WARM_RESET: Command 01h of OD 4000h sends GOODBYE, ends jobs, resets the compute die and restarts the steward. (R487) -/
  | warmReset (via : Via)
  /-- SEAM_RESET: Command 03h of OD 4000h resets the seam crossings jointly. (R487) -/
  | seamReset (via : Via)
  /-- PARTITION_RESET: A write of OD 4001h ends and unloads the job and resets the partition's stations, queues, mordants and ports. (R487) -/
  | partitionReset (via : Via) (p : Part)
  /-- JOB_RESET: A write of OD 4002h ends and unloads the partition's job. (R487) -/
  | jobReset (via : Via) (p : Part)
  /-- PORT_RESET: A write of OD 4003h resets a port after GOODBYE, then it trains. (R487) -/
  | portReset (via : Via) (port : PortId)
  /-- POWER_REQUEST_HALF_PARK: A request for HALF-PARK checks jobs, ends them if forced and starts parking the half. (R492) -/
  | powerRequestHalfPark (via : Via) (h : Half) (force : Bool)
  /-- PARK_TOWERS_IDLE: No epoch or descriptor remains in the half's towers and the park closes ports and drains the seam. (R492) -/
  | parkTowersIdle 
  /-- PARK_TOWER_TIMEOUT: The towers stay busy for 60 s and the park is abandoned. (R492) -/
  | parkTowerTimeout 
  /-- SEAM_DRAINED: The seam crossings are empty and fenced and the half's memories, clocks and rails are parked. (R492) -/
  | seamDrained 
  /-- SEAM_DRAIN_TIMEOUT: A seam crossing is not empty within 100 µs and the park is abandoned. (R492) -/
  | seamDrainTimeout 
  /-- POWER_REQUEST_RUN: A request for RUN unparks a half, leaves DEEP-PARK or leaves STEWARD-ONLY. (R494) -/
  | powerRequestRun (via : Via) (force : Bool)
  /-- POWER_REQUEST_DEEP_PARK: A request for DEEP-PARK parks both halves, or raises rails from STEWARD-ONLY. (R496) -/
  | powerRequestDeepPark (via : Via) (force : Bool)
  /-- POWER_REQUEST_STEWARD_ONLY: A request for STEWARD-ONLY lowers every non-steward rail except VDD_PCIE and VIO_FLASH. (R497) -/
  | powerRequestStewardOnly (via : Via) (force : Bool)
  /-- PG_ASSERT: A power-good input asserts and the next stage starts 1 ms after the stage's last one. (R538) -/
  | pgAssert (r : Rail)
  /-- PG_TIMEOUT: A power-good input fails to assert within 10 ms and the steward drops its enables and enters STEWARD-ONLY. (R504) -/
  | pgTimeout (r : Rail)
  /-- RAIL_DECAYED: A lowered rail reads below 10 % of nominal, or 10 ms pass, and the next enable drops. (R539) -/
  | railDecayed (r : Rail)
  /-- FABRIC_ADMISSION: A write of OD 4031h admits the unit to the spare pool. (R505) -/
  | fabricAdmission (via : Via) (v : Byte)
  /-- ORDERLY_REMOVAL: A write of OD 4032h refuses loads and starts draining jobs for removal. (R507) -/
  | orderlyRemoval (via : Via) (force : Bool)
  /-- REMOVAL_DRAIN_COMPLETE: No job and no epoch remain and removal quiesces ports and powers down to ready. (R507) -/
  | removalDrainComplete 
  /-- REMOVAL_NOTICE: A removal notice reaches a partner image's source, which retires its partner tier. (R508) -/
  | removalNotice (dev : W16)
  /-- BAR2_MEMORY_READ: A host read of the memory aperture is served and split into completions. (R518) -/
  | bar2MemoryRead (pf : Pf) (off : Nat) (len : Nat) (e : MemEcc)
  /-- BAR2_MEMORY_WRITE: A host write of the memory aperture is written, discarded or refused. (R518) -/
  | bar2MemoryWrite (pf : Pf) (off : Nat) (data : List Byte) (ep : Bool) (e : MemEcc)
  /-- ATOMICOP_FETCHADD: A FetchAdd AtomicOp is done as one read and one write at the tower channel. (R518) -/
  | atomicopFetchadd (pf : Pf) (off : Nat) (wide : Bool) (v : W64) (e : MemEcc)
  /-- ATOMICOP_SWAP: A Swap AtomicOp is done as one read and one write at the tower channel. (R518) -/
  | atomicopSwap (pf : Pf) (off : Nat) (wide : Bool) (v : W64) (e : MemEcc)
  /-- ATOMICOP_CAS: A CAS AtomicOp is done as one read and one write at the tower channel. (R518) -/
  | atomicopCas (pf : Pf) (off : Nat) (wide : Bool) (cmp v : W64) (e : MemEcc)
  /-- IMAGE_APERTURE_READ: A host read of the image aperture is a drain read of the shared-store epoch. (R519) -/
  | imageApertureRead (pf : Pf) (off : Nat) (len : Nat) (e : MemEcc)
  /-- IMAGE_APERTURE_WRITE: A host write of the image aperture supplies a restore's header, commit record or blocks. (R519) -/
  | imageApertureWrite (pf : Pf) (off : Nat) (data : List Byte) (e : MemEcc)
  /-- MORDANT_DOORBELL_WRITE: A U64 write of a mordant doorbell adds its value to the mordant after earlier BAR2 writes. (R515) -/
  | mordantDoorbellWrite (pf : Pf) (off : Nat) (size : Nat) (v : W64)
  /-- MORDANT_DOORBELL_READ: A U64 read of a mordant doorbell returns the counter. (R515) -/
  | mordantDoorbellRead (pf : Pf) (off : Nat) (size : Nat)
  /-- WATCH_ARM: Setting EN in a watch register arms it at the holding station. (R516) -/
  | watchArm (pf : Pf) (i : Fin 432) (thr : W64) (mor : W16) (w1c : Bool)
  /-- WATCH_FIRE: A watched counter reaches its threshold and the watch signals its vector and sets FIRED. (R516) -/
  | watchFire (pf : Pf) (i : Fin 432)
  /-- PERST_N_ASSERT: PERST_N asserted resets the PCIe controller and every function's host-side state. (R520) -/
  | perstNAssert 
  /-- HOT_RESET: A PCIe hot reset resets the PCIe controller and every function's host-side state. (R520) -/
  | hotReset 
  /-- PCIE_LINK_DOWN: PCIe link down resets the PCIe controller and every function's host-side state. (R520) -/
  | pcieLinkDown 
  /-- FUNCTION_LEVEL_RESET: An FLR resets one function's configuration space, mailbox, watches and image aperture. (R520) -/
  | functionLevelReset (pf : Pf) (cfg : PciCfg)
  /-- D3HOT_ENTRY: A function enters D3hot and its BAR accesses complete with Unsupported Request until D0. (R520) -/
  | d3hotEntry (pf : Pf)
  /-- PTM_REQUEST: Every 10 ms with PTM enabled the device requests PTM and records host and Krytno times. (R521) -/
  | ptmRequest (hostTime : W64)
  /-- MANAGEMENT_MODE_WRITE: A write of OD 1130h changes a management port's mode, restarting its link and ending its sessions. (R523) -/
  | managementModeWrite (via : Via) (m : Fin 2) (v : Byte)
  /-- SMBUS_READ_INSERTION_STATE: SMBus command 00h returns OD 4030h. (R524) -/
  | smbusReadInsertionState 
  /-- SMBUS_READ_POWER_STATE: SMBus command 01h returns OD 4020h. (R524) -/
  | smbusReadPowerState 
  /-- SMBUS_READ_STATUS: SMBus command 02h returns the throttle, emergency and readiness bits. (R524) -/
  | smbusReadStatus 
  /-- SMBUS_READ_DIE_SENSOR: SMBus command 03h returns the highest die sensor. (R524) -/
  | smbusReadDieSensor 
  /-- SMBUS_READ_DRAM_SENSOR: SMBus command 04h returns the highest tower DRAM sensor. (R524) -/
  | smbusReadDramSensor 
  /-- SMBUS_READ_PACKAGE_POWER: SMBus command 05h returns the package power. (R524) -/
  | smbusReadPackagePower 
  /-- SMBUS_READ_DEVICE_ID: SMBus command 06h returns the device ID. (R524) -/
  | smbusReadDeviceId 
  /-- SMBUS_READ_SERIAL: SMBus command 07h returns the unit serial as a block read. (R524) -/
  | smbusReadSerial 
  /-- ALERT_RESPONSE_ADDRESS_READ: An Alert Response Address read releases SMB_ALERT_N. (R524) -/
  | alertResponseAddressRead 
  /-- SMBUS_WRITE: An SMBus write to the sideband is NACKed. (R524) -/
  | smbusWrite 
  /-- PPS_OUT_PULSE: The time counter passes a multiple of 10^9 and PPS_OUT rises for 100 ms. (R530) -/
  | ppsOutPulse 
  /-- PPS_IN_EDGE: A rising edge on PPS_IN is stamped in OD 4410h. (R530) -/
  | ppsInEdge 
  /-- TEST_EN_RISE: TEST_EN rises and the steward holds the compute die and towers in reset. (R531) -/
  | testEnRise 
  /-- TEST_EN_FALL: TEST_EN falls and a cold reset starts. (R531) -/
  | testEnFall 
  /-- BYPASS: The IEEE 1149.1 BYPASS instruction is accepted. (R531) -/
  | bypass 
  /-- IDCODE: The IEEE 1149.1 IDCODE instruction returns OD 1202h. (R531) -/
  | idcode 
  /-- SAMPLE_PRELOAD: The IEEE 1149.1 SAMPLE/PRELOAD instruction is accepted. (R531) -/
  | samplePreload 
  /-- EXTEST: The EXTEST instruction is accepted only while TEST_EN is high. (R531) -/
  | extest 
  /-- CLAMP: The CLAMP instruction is accepted only while TEST_EN is high. (R531) -/
  | clamp 
  /-- HIGHZ: The HIGHZ instruction is accepted only while TEST_EN is high. (R531) -/
  | highz 
  /-- PRIVATE_INSTRUCTION: A private instruction is accepted only with TEST_EN high and OD 2200h bit 0 set. (R531) -/
  | privateInstruction 
  /-- POWER_LIMIT_CHECK: Every 10 ms the averaged package power lowers or raises station clock settings against the limit. (R533) -/
  | powerLimitCheck (watts : W16)
  /-- CORE_RAIL_STEP_DECAY: After 24 h without a warning frame a core rail step is removed. (R536) -/
  | coreRailStepDecay (h : Half)
  /-- SENSOR_SAMPLE: Every 100 µs the thermal sensors are read and compared with the thermal limits. (R540) -/
  | sensorSample (reading : List W16)
  /-- THROTTLE_STEP: Every 1 ms under a throttle condition the half's partition settings drop by 50 MHz. (R541) -/
  | throttleStep (h : Half)
  /-- THROTTLE_RECOVERY_STEP: Every 100 ms after cooling the settings rise by 25 MHz until the throttle ends. (R541) -/
  | throttleRecoveryStep (h : Half)
  /-- RAIL_OUT_OF_RANGE: A non-steward rail is outside its range for 10 µs, or above its peak current, and a power emergency follows. (R543) -/
  | railOutOfRange (r : Rail) (mv : W16) (amps : W16)
  /-- PG_DEASSERT: A power-good input deasserts while its enable is asserted, causing a power emergency. (R543) -/
  | pgDeassert (r : Rail)
  /-- PMBUS_COMMAND_FAILURE: A core regulator fails a PMBus command, and three in a row cause a power emergency. (R543) -/
  | pmbusCommandFailure (h : Half)
  /-- STEWARD_RAIL_FAILURE: A steward rail fails, the steward stops and the device is in OFF. (R543) -/
  | stewardRailFailure 
  /-- STW_RESET_N_RELEASE: The sled releases STW_RESET_N and the steward's boot of Table 15-3 begins at its t0. (R537) -/
  | stwResetNRelease (boot : BootResult)
  /-- PERST_N_DEASSERT: PERST_N is deasserted and the host port leaves reset, its reset timing counted from this edge. (R522) -/
  | perstNDeassert 
  /-- D0_ENTRY: A function returns from D3hot to D0 and its BAR accesses are served again. (R520) -/
  | d0Entry (pf : Pf)
  /-- PCIE_LINK_UP: The PCIe link trains to a rate and width, reported in OD 1200h, and the host port serves requests. (R512) -/
  | pcieLinkUp (rate : BitVec 4) (width : BitVec 5) (cfg : Vector PciCfg 5)
  /-- MANAGEMENT_LINK_UP: MGA or MGB gains its Ethernet link, shown in OD 1132h, and can carry sessions. (R523) -/
  | managementLinkUp (m : Fin 2) (tenG : Bool)
  /-- MANAGEMENT_LINK_DOWN: MGA or MGB loses its Ethernet link, shown in OD 1132h. (R523) -/
  | managementLinkDown (m : Fin 2)
  /-- MANAGEMENT_SESSION_CLOSE: A requester closes its DTLS session, freeing a session place and ending its staging copies. (R468) -/
  | managementSessionClose (n : Fin 8)
  /-- NOTIFICATION_RING_TAIL_WRITE: The host driver writes the ring tail, freeing notification ring entries so later notifications are not dropped. (R479) -/
  | notificationRingTailWrite (pf : Pf) (v : W32) (w1c : Byte)
  /-- COMPUTE_DIE_READY: The compute die and towers finish coming up after reset or power-up, memories zeroed, and OD 4030h moves to 03h. (R487) -/
  | computeDieReady (failed : List Crossing)
  /-- REPLICA_WARNING_LEVEL: An island's smallest replica margin reaches the warning level and a margin sample goes to the health monitor. (R283) -/
  | replicaWarningLevel (i : Island)
  /-- CORE_RAIL_VOUT_COMMAND: At least 1 ms after its last command the steward sends the next VOUT_COMMAND of at most 10 mV toward the core rail target, and a pending clock raise proceeds once reached. (R534) -/
  | coreRailVoutCommand (h : Half)
  /-- MOR_READ_REGISTER_WRITTEN: 16 sc after MOR.READ fires its register is written, no longer pending, and issue and look-ahead resume. (R218) -/
  | morReadRegisterWritten (st : St)
  /-- VEC_OP_COMPLETE: A VEC.OP finishes its rows and frees the epilogue pool for a waiting ACC.DRAIN. (R129) -/
  | vecOpComplete (st : St)
  /-- COEFFICIENT_REQUEST: A training set with a coefficient request arrives in EQUALISE and the transmitter adjusts the tap and answers in CSTS. (R321) -/
  | coefficientRequest (port : PortId) (lane : Fin 17) (set : BitVec 256)
  deriving DecidableEq, Repr

end Sys2Proof
end

