-- ==== Sys2Proof/Decode.lean ====
section
/-!
DEFINITION. The table gives none of its rows a word: commands reach the package as events, not as encoded words.
-/
namespace Sys2Proof

/-- The command that a word spells by the opcode table's bits. Every row of the table has an empty field list and no pattern, so no word spells a
command. -/
def decodeTableWord (_nbits _w : Nat) : Option Instr := none

end Sys2Proof
end

