-- ==== Sys2Proof/Config.lean ====
section
/-!
DEFINITION. What the spec leaves open, as constants without a body: nothing can be proved of their values. A statement that mentions one holds
whatever it is.
-/
namespace Sys2Proof.Config

/-- Byte `i` of the data that the `n`-th free draw gives: words that a node completes with poison for a tower that does not answer (R26, R174), and other
data the spec does not give (assumption log 14). -/
opaque freeByte : Nat → Nat → Byte

/-- A value of the `n`-th free draw (assumption log 14). -/
opaque freeWord : Nat → W64

/-- SHA-384 of a byte string (R423, R458), least significant byte first. The spec names the function and does not restate it (assumption log 15). -/
opaque sha384 : List Byte → BitVec 384

/-- Signature over a byte string by a private key (R464 to R467): the spec names the algorithm and does not restate it (assumption log 15). -/
opaque sign : List Byte → List Byte → List Byte

/-- The code of the boot ROM, and the Eloafold root certificate (R466, Table 15-9): the unit's, which the spec does not give (assumption log 15). -/
opaque bootRom : List Byte
opaque rootCert : List Byte

/-- What is fused into the OTP of a unit: the Eloafold root public key and the unique device secret (R447, R464); and the Eloafold signature that its factory calibration set carries
(R448). The spec gives the value of none (assumption log 15). -/
opaque otpRoot : List Byte
opaque otpSecret : List Byte
opaque factorySig : List Byte

/-- HMAC-SHA-384 of a message under a key, and HKDF-SHA-384 with what follows it up to a key pair (R464): the spec names the functions and does not restate them (assumption log 15). -/
opaque hmac384 : List Byte → List Byte → List Byte
opaque keyPair : List Byte → List Byte

/-- The number by which a record names an edge of a mesh node (Table 13-6, LKIND 1h): the spec numbers no edge (assumption log 17). -/
opaque edgeCode : Nat → Nat

/-- How far the calibrated latency of a ring hop lies above the nominal one of its class (R36, Table 02-2), by the station it ends at and its lane: the spec
gives the largest value alone (assumption log 21). -/
opaque hopOver : Nat → Nat → Nat

/-- The 64 KiB header granule that the steward writes for an image of a partition, and what it reads in one: the spec names the header's contents and gives no layout
(R423, assumption log 23). -/
opaque imageHeader : Nat → Image → List Byte
opaque readHeader : Nat → List Byte → Option Image

/-- The factory calibration set of the known-answer kernels (R158, R398): the seed of a kernel, and its expected product and vector signatures in a shape code (assumption log 121). -/
opaque kernelSeed : Nat → W64
opaque kernelSigs : Nat → Nat → W64 × W64

/-- Which of the 65,536 kernels the observation set holds (R398), the format of a kernel, and the TID and index from which mix() gives a word of its weights: the spec states none of the three
(assumption log 121). -/
opaque observed : Nat → Fin 65536
opaque kernelFmt : Nat → Nat
opaque kernelPlace : Nat → Nat → Nat × Nat

/-- The target, among those in use, that holds a program unit or a block of a partition's share of the NAND: the spec leaves the placement to the steward (R433, assumption log 135). -/
opaque flashPlace : Nat → Nat → Nat

/-- The fixed transmit and receive pipeline latencies of a link port in 1/256 ns, which R324 adds to the wire delay: the spec does not give the figure (assumption log 123). -/
opaque portPipe : Nat

end Sys2Proof.Config
end

