-- ==== Sys2Proof/Machine/Numerics.lean ====
section
/-!
DEFINITION. The arithmetic of chapter 04: formats, exact values, rounding helpers, segments, trees, carry stack and
double-FP32 spill. Values are exact rationals; every helper answers the value together with its clamp indication (R97).
-/
namespace Sys2Proof.Machine

/-- The element formats of Table 04-1 and Table 04-2. -/
inductive Fmt where
  | bf16 | fp16 | fp32 | e4m3 | e5m2 | e2m3 | e3m2 | e2m1
  deriving DecidableEq, Repr

/-- A value with its sign of zero kept (R92, R94): `num neg mag` is (−1)^neg × mag. -/
inductive Val where
  | nan
  | inf (neg : Bool)
  | num (neg : Bool) (mag : Rat)
  deriving DecidableEq, Repr

/-- Format of a 4-bit code (R91). -/
def Fmt.ofCode : Nat → Option Fmt
  | 0 => some .bf16
  | 1 => some .fp16
  | 2 => some .fp32
  | 3 => some .e4m3
  | 4 => some .e5m2
  | 5 => some .e2m3
  | 6 => some .e3m2
  | 7 => some .e2m1
  | _ => none

def Fmt.code : Fmt → Nat
  | .bf16 => 0
  | .fp16 => 1
  | .fp32 => 2
  | .e4m3 => 3
  | .e5m2 => 4
  | .e2m3 => 5
  | .e3m2 => 6
  | .e2m1 => 7

/-- Element width in bits (Table 04-1). -/
def Fmt.width : Fmt → Nat
  | .bf16 | .fp16 => 16
  | .fp32 => 32
  | .e4m3 | .e5m2 => 8
  | .e2m3 | .e3m2 => 6
  | .e2m1 => 4

/-- Exponent field width (Table 04-2). -/
def Fmt.ebits : Fmt → Nat
  | .bf16 | .fp32 => 8
  | .fp16 | .e5m2 => 5
  | .e4m3 => 4
  | .e2m3 | .e2m1 => 2
  | .e3m2 => 3

/-- Significand field width (Table 04-2). -/
def Fmt.mbits : Fmt → Nat
  | .fp32 => 23
  | .bf16 => 7
  | .fp16 => 10
  | .e4m3 | .e2m3 => 3
  | .e5m2 | .e3m2 => 2
  | .e2m1 => 1

/-- Exponent bias (Table 04-2). -/
def Fmt.bias : Fmt → Nat
  | .bf16 | .fp32 => 127
  | .fp16 | .e5m2 => 15
  | .e4m3 => 7
  | .e2m3 | .e2m1 => 1
  | .e3m2 => 3

def Fmt.isMx : Fmt → Bool
  | .e2m3 | .e3m2 | .e2m1 => true
  | _ => false

def Fmt.isFp8 : Fmt → Bool
  | .e4m3 | .e5m2 => true
  | _ => false

/-- 2 to an integer power. -/
def pow2 (e : Int) : Rat :=
  if 0 ≤ e then ((2 ^ e.toNat : Nat) : Rat) else 1 / ((2 ^ (-e).toNat : Nat) : Rat)

/-- Largest finite value (Table 04-2). -/
def Fmt.maxf : Fmt → Rat
  | .fp32 => (2 - pow2 (-23)) * pow2 127
  | .bf16 => (2 - pow2 (-7)) * pow2 127
  | .fp16 => 65504
  | .e4m3 => 448
  | .e5m2 => 57344
  | .e2m3 => 15 / 2
  | .e3m2 => 28
  | .e2m1 => 6

/-- floor(log2 q) for q > 0. -/
def floorLog2 (q : Rat) : Int :=
  let k : Int := (Nat.log2 q.num.natAbs : Int) - (Nat.log2 q.den : Int)
  if pow2 k ≤ q then k else k - 1

/-- Nearest integer to q ≥ 0, ties to even. -/
def roundEven (q : Rat) : Nat :=
  let n := q.num.natAbs
  let f := n / q.den
  let r := n % q.den
  if 2 * r < q.den then f
  else if q.den < 2 * r then f + 1
  else if f % 2 = 0 then f else f + 1

/-- The unit in the last place of format `f` at magnitude `q` > 0, with the exponent unbounded above (R97). -/
def Fmt.ulpAt (f : Fmt) (q : Rat) : Rat :=
  pow2 (max (floorLog2 q) (1 - (f.bias : Int)) - (f.mbits : Int))

/-- Magnitude part of round_rne() (R97). -/
def Fmt.roundMag (f : Fmt) (q : Rat) : Rat :=
  if q = 0 then 0 else (roundEven (q / f.ulpAt q) : Rat) * f.ulpAt q

/-- The signed rational of a finite value. -/
def signed (neg : Bool) (m : Rat) : Rat := if neg then -m else m

/-- A rational as a value; an exact zero takes the sign given. -/
def Val.ofRat (q : Rat) (zneg : Bool) : Val :=
  if q = 0 then .num zneg 0 else if q < 0 then .num true (-q) else .num false q

/-- round_rne() on a value (R97). -/
def Val.rne (v : Val) (f : Fmt) : Val :=
  match v with
  | .num n m => .num n (f.roundMag m)
  | v => v

/-- sat() (R97): the value and the clamp indication. -/
def Val.sat (v : Val) (f : Fmt) : Val × Bool :=
  match v with
  | .num n m => if f.maxf < m then (.num n f.maxf, true) else (.num n m, false)
  | v => (v, false)

/-- rnd(v, f) := sat(round_rne(v, f), f) (R97). -/
def Val.rnd (v : Val) (f : Fmt) : Val × Bool := (v.rne f).sat f

def Val.isNaN : Val → Bool
  | .nan => true
  | _ => false

def Val.finite : Val → Bool
  | .num _ _ => true
  | _ => false

def Val.isZero : Val → Bool
  | .num _ m => m = 0
  | _ => false

def Val.neg : Val → Val
  | .nan => .nan
  | .inf n => .inf (!n)
  | .num n m => .num (!n) m

def Val.abs : Val → Val
  | .nan => .nan
  | .inf _ => .inf false
  | .num _ m => .num false m

/-- Rational of a finite value, 0 for a non-finite one. -/
def Val.rat : Val → Rat
  | .num n m => signed n m
  | _ => 0

/-- Exact sum under the non-finite rules of R95 and the zero sign of add() (R97), unrounded. -/
def Val.addX (a b : Val) : Val :=
  match a, b with
  | .nan, _ => .nan
  | _, .nan => .nan
  | .inf x, .inf y => if x = y then .inf x else .nan
  | .inf x, .num _ _ => .inf x
  | .num _ _, .inf y => .inf y
  | .num x p, .num y q => Val.ofRat (signed x p + signed y q) (x && y)

/-- Exact product (R95, R98). -/
def Val.mulX (a b : Val) : Val :=
  match a, b with
  | .nan, _ => .nan
  | _, .nan => .nan
  | .inf x, .inf y => .inf (x != y)
  | .inf x, .num y q => if q = 0 then .nan else .inf (x != y)
  | .num x p, .inf y => if p = 0 then .nan else .inf (x != y)
  | .num x p, .num y q => .num (x != y) (p * q)

/-- Exact quotient with the IEEE 754 special cases. -/
def Val.divX (a b : Val) : Val :=
  match a, b with
  | .nan, _ => .nan
  | _, .nan => .nan
  | .inf _, .inf _ => .nan
  | .inf x, .num y _ => .inf (x != y)
  | .num x _, .inf y => .num (x != y) 0
  | .num x p, .num y q => if q = 0 then (if p = 0 then .nan else .inf (x != y)) else .num (x != y) (p / q)

/-- add(a, b, f) on written elements (R97): the sum and the clamp indication. -/
def addV (f : Fmt) (a b : Val) : Val × Bool := (a.addX b).rnd f

/-- add(a, b, f) with `none` for empty (R97). -/
def addE (f : Fmt) (a b : Option Val) : Option Val × Bool :=
  match a, b with
  | none, b => (b, false)
  | some a, none => (some a, false)
  | some a, some b => ((addV f a b).1, (addV f a b).2)

def mulV (f : Fmt) (a b : Val) : Val × Bool := (a.mulX b).rnd f

/-- Value of an encoded element (R92, R95). -/
def Fmt.decode (f : Fmt) (bits : Nat) : Val :=
  let neg := (bits / 2 ^ (f.width - 1)) % 2 = 1
  let e := (bits / 2 ^ f.mbits) % 2 ^ f.ebits
  let m := bits % 2 ^ f.mbits
  let top := 2 ^ f.ebits - 1
  let fin : Val :=
    if e = 0 then .num neg ((m : Rat) * pow2 (1 - (f.bias : Int) - (f.mbits : Int)))
    else .num neg (((2 ^ f.mbits + m : Nat) : Rat) * pow2 ((e : Int) - (f.bias : Int) - (f.mbits : Int)))
  match f with
  | .fp32 | .bf16 | .fp16 | .e5m2 => if e = top then (if m = 0 then .inf neg else .nan) else fin
  | .e4m3 => if e = top ∧ m = 7 then .nan else fin
  | _ => fin

/-- Canonical NaN (R95). -/
def Fmt.qnan : Fmt → Nat
  | .fp32 => 0x7FC00000
  | .bf16 => 0x7FC0
  | .fp16 => 0x7E00
  | .e4m3 => 0x7F
  | .e5m2 => 0x7F
  | _ => 0

/-- Encoding of a value that format `f` represents (R92); a NaN is canonical, an infinity takes the format's own
encoding. Formats without one never meet it. -/
def Fmt.encode (f : Fmt) (v : Val) : Nat :=
  let s (n : Bool) : Nat := if n then 2 ^ (f.width - 1) else 0
  match v with
  | .nan => f.qnan
  | .inf n => s n + (2 ^ f.ebits - 1) * 2 ^ f.mbits
  | .num n m =>
    if m = 0 then s n
    else if m < pow2 (1 - (f.bias : Int)) then
      s n + (m / pow2 (1 - (f.bias : Int) - (f.mbits : Int))).num.natAbs
    else
      let e := floorLog2 m
      s n + (e + (f.bias : Int)).toNat * 2 ^ f.mbits + ((m / pow2 (e - (f.mbits : Int))).num.natAbs - 2 ^ f.mbits)

/-- Conversion to a narrower output format (R123): bits, clamp (sets OVF) and whether the value is non-finite. -/
def convOut (f : Fmt) (v : Val) : Nat × Bool :=
  match v with
  | .inf n => if f = .e4m3 then (if n then 0xFE else 0x7E, true) else (f.encode (.inf n), false)
  | v => (f.encode (v.rnd f).1, (v.rnd f).2)

/-- trunc_window() (R97): the integer and its lsb exponent, from the exact products of one FP8 segment. -/
def truncWindow (q : List Rat) : Int × Int :=
  let nz := q.filter (· ≠ 0)
  match nz with
  | [] => (0, 0)
  | x :: xs =>
    let em := xs.foldl (fun m y => max m (floorLog2 (if y < 0 then -y else y))) (floorLog2 (if x < 0 then -x else x))
    let lsb := em - 35
    (q.foldl (fun w y => w + (if y < 0 then -((-y) / pow2 lsb).floor else (y / pow2 lsb).floor)) 0, lsb)

/-- segment16() (R99): eight products summed serially in FP32, with the clamp indication. -/
def segment16 (p : List Val) : Val × Bool :=
  match p with
  | [] => (.num false 0, false)
  | x :: xs => xs.foldl (fun s y => ((addV .fp32 s.1 y).1, s.2 || (addV .fp32 s.1 y).2)) (x.rnd .fp32)

/-- An FP8 segment before conversion (R100, R102). -/
def segment8 (p : List Val) : Val × Bool :=
  if p.all Val.finite then
    let (w, lsb) := truncWindow (p.map Val.rat)
    let allNeg := p.all fun v => match v with
      | .num n m => n && m = 0
      | _ => false
    (Val.ofRat ((w : Rat) * pow2 lsb) allNeg, false)
  else segment16 (p.filter fun v => !v.finite)

/-- Sum of one 32-element MX block (R101, R102); `none` for a NaN scale. -/
def mxBlock (p : List Val) (sx sw : Nat) : Val × Bool :=
  if sx = 255 ∨ sw = 255 then (.nan, false)
  else
    let allNeg := p.all fun v => match v with
      | .num n m => n && m = 0
      | _ => false
    (Val.ofRat ((p.map Val.rat).foldl (· + ·) 0 * pow2 ((sx : Int) - 127 + (sw : Int) - 127)) allNeg).rnd .fp32

/-- tree() (R104) over 2^levels leaves. -/
def tree (f : Fmt) : Nat → List (Val × Bool) → Val × Bool
  | 0, l => l.headD (.num false 0, false)
  | n + 1, l =>
    let a := tree f n (l.take (2 ^ n))
    let b := tree f n (l.drop (2 ^ n))
    let r := addV f a.1 b.1
    (r.1, a.2 || b.2 || r.2)

/-- Chunks of `n` elements, at most `fuel` of them. -/
def chunks {α : Type} (n : Nat) : Nat → List α → List (List α)
  | 0, _ => []
  | fuel + 1, l => l.take n :: chunks n fuel (l.drop n)

/-- Conversion of a segment value to the tree format (R103). -/
def toTree (f : Fmt) (v : Val × Bool) : Val × Bool := ((v.1.rnd f).1, v.2 || (v.1.rnd f).2)

/-- column_output() for the non-MX formats (R104), over the exact products of one band. -/
def columnOutput (f8 : Bool) (ft : Fmt) (k : Nat) (p : List Val) : Val × Bool :=
  let segs := chunks 8 (k / 8) p
  let leaf := segs.map fun q => toTree ft (if f8 then segment8 q else segment16 q)
  tree ft (Nat.log2 (k / 8)) leaf

/-- column_output() for the MX formats (R104). -/
def columnOutputMx (k : Nat) (p : List Val) (sx sw : List Nat) : Val × Bool :=
  let leaf := (chunks 32 (k / 32) p).zipIdx.map fun (q, b) => mxBlock q (sx.getD b 0) (sw.getD b 0)
  tree .fp32 (Nat.log2 (k / 32)) leaf

/-- split() (R106): hi and lo BF16 parts of an FP32 value. A zero x − hi is x + (−hi), so +0 (R97). -/
def splitBf (x : Val) : Val × Val :=
  match x with
  | .num n m =>
    let hi := ((Val.num n m).rnd .bf16).1
    (hi, (Val.ofRat (signed n m - hi.rat) false).rne .bf16)
  | x => (x, .num false 0)

/-- Balanced pairwise FP32 sum of 2^levels values (R83, R390). -/
def sumTree (levels : Nat) (l : List Val) : Val × Bool := tree .fp32 levels (l.map (·, false))

/-- A double-FP32 pair (R116). -/
structure DD where
  hi : Val
  lo : Val
  deriving DecidableEq, Repr

def DD.zero : DD := ⟨.num false 0, .num false 0⟩

/-- dd_add() (R116) for finite operands, with the clamp indication; a non-finite operand follows the last
paragraph of R116. Where round_rne() meets a sum beyond the largest finite value, R95 clamps it (assumption log 113). -/
def ddAdd (d : DD) (t : Val) : DD × Bool :=
  if d.hi.finite && d.lo.finite && t.finite then
    let s := addV .fp32 d.hi t
    let z := addV .fp32 s.1 d.hi.neg
    let e := ((d.hi.addX (s.1.addX z.1.neg).neg).addX (t.addX z.1.neg)).rnd .fp32
    let e2 := addV .fp32 e.1 d.lo
    let s2 := addV .fp32 s.1 e2.1
    let lo := (e2.1.addX (s2.1.addX s.1.neg).neg).rnd .fp32
    (⟨s2.1, lo.1⟩, s.2 || z.2 || e.2 || e2.2 || s2.2 || lo.2)
  else (⟨(addV .fp32 d.hi t).1, .num false 0⟩, false)

/-- The carry stack's on_pass_end() loop (R112) on one element: levels lowest first, `last` for the final pass. Answers the
levels, the result when the pass is the last, and the clamp indication. -/
def carryIn (f : Fmt) : List (Option Val) → Option Val → List (Option Val) × Option Val × Bool
  | [], v => ([], v, false)
  | none :: rest, v => (v :: rest, none, false)
  | some x :: rest, v =>
    let r := addE f (some x) v
    let t := carryIn f rest r.1
    (none :: t.1, t.2.1, r.2 || t.2.2)

/-- The final combine of R112: every filled level, lowest first. -/
def carryOut (f : Fmt) : List (Option Val) → Option Val → Option Val × Bool
  | [], v => (v, false)
  | none :: rest, v => carryOut f rest v
  | some x :: rest, v =>
    let r := addE f (some x) v
    let t := carryOut f rest r.1
    (t.1, r.2 || t.2)

/-- One pass end of R112: the levels after it, the result when the pass is the last, and the clamp indication. -/
def passEnd (f : Fmt) (lv : List (Option Val)) (v : Option Val) (last : Bool) :
    List (Option Val) × Option Val × Bool :=
  if last then (lv.map fun _ => none, (carryOut f lv v).1, (carryOut f lv v).2) else carryIn f lv v

/-- floor of the square root of a rational times 4^k, as an integer, and whether it is exact. -/
def sqrtScaled (q : Rat) (k : Nat) : Nat × Bool :=
  let n := q.num.natAbs * 4 ^ k / q.den
  let r := Nat.sqrt n
  (r, r * r = n ∧ (q.num.natAbs * 4 ^ k) % q.den = 0)

/-- round_rne(√q, FP32) for q > 0: 1 + 2·160 fraction bits with a sticky bit decide the rounding, since an irrational
root never lies on a tie. -/
def sqrtRne (f : Fmt) (q : Rat) : Rat :=
  let (r, ex) := sqrtScaled q 320
  let v : Rat := ((2 * r + (if ex then 0 else 1) : Nat) : Rat) / ((2 * 2 ^ 320 : Nat) : Rat)
  f.roundMag v

/-- ln 2 in units of 2^-256. -/
def ln2Fix : Nat :=
  80260960185991308862233904206310070533990667611589946606122867505419956976171

/-- π in units of 2^-256. -/
def piFix : Nat :=
  363771576891766324280234942777729862653393377328392429958772151117938894466185

/-- Taylor sum of x^i/i! from term `t` on, in units of 2^-256, `fuel` terms. -/
def expSeries (x : Nat) : Nat → Nat → Nat → Nat
  | 0, _, _ => 0
  | fuel + 1, i, t => t + expSeries x fuel (i + 1) (t * x / 2 ^ 256 / (i + 1))

/-- Alternating Taylor sum: every second term of the exponential series, with alternating sign. -/
def altSeries (x : Nat) : Nat → Nat → Int → Int
  | 0, _, _ => 0
  | fuel + 1, i, t => t + altSeries x fuel (i + 2) (-(t * x * x / ((2 ^ 512 : Nat) : Int) / (((i + 1) * (i + 2) : Nat) : Int)))

/-- rnd(2^a, FP32) for finite a (Table 05-1). A whole exponent is exact; any other power is irrational, so 256 fraction
bits with a sticky bit decide the rounding (assumption log 12). -/
def exp2V (a : Rat) : Val × Bool :=
  if 200 ≤ a then (.num false Fmt.fp32.maxf, true)
  else if a ≤ -200 then (.num false 0, false)
  else
    let i := a.floor
    let f := a - (i : Rat)
    if f = 0 then (Val.num false (pow2 i)).rnd .fp32
    else
      let x := (f * (ln2Fix : Rat)).floor.toNat
      let s := expSeries x 90 0 (2 ^ 256)
      (Val.num false (((2 * s + 1 : Nat) : Rat) / ((2 ^ 257 : Nat) : Rat) * pow2 i)).rnd .fp32

/-- cos and sin of 2π·r/2^48 for 0 ≤ r < 2^46, each exact or with a sticky bit (R144). -/
def quadrant (r : Nat) : Rat × Rat :=
  if r = 0 then (1, 0)
  else
    let x := 2 * piFix * r / 2 ^ 48
    let fix (v : Int) : Rat := ((2 * v + 1 : Int) : Rat) / ((2 ^ 257 : Nat) : Rat)
    (fix (altSeries x 40 0 (2 ^ 256 : Nat)), fix (altSeries x 40 1 (x : Int)))

/-- c and s of R144 before the inverse flag: round_rne of cos and sin of the phase. -/
def cosSin (ph : Nat) : Val × Val :=
  let q := quadrant (ph % 2 ^ 46)
  let cs : Rat × Rat := match ph / 2 ^ 46 % 4 with
    | 0 => (q.1, q.2)
    | 1 => (-q.2, q.1)
    | 2 => (-q.1, -q.2)
    | _ => (q.2, -q.1)
  ((Val.ofRat cs.1 false).rne .fp32, (Val.ofRat cs.2 false).rne .fp32)

end Sys2Proof.Machine
end

