-- ==== Sys2Proof/Machine/State.lean ====
section
/-!
DEFINITION. State of the KAZ-1664: every register, queue, store and mode that the spec gives the package, the commands that wait, and the
machine right after a cold reset has begun (R487). Memories are sparse canonical lists; a key that is not listed reads as the
default that the reader of the map names (0 for a byte).
-/
namespace Sys2Proof.Machine

/-- Faults of the model itself. -/
inductive Fault where
  /-- An access names a device address that no tower and no stash holds. No meaning raises it: every rule that checks an address gives the access an outcome of its own
  (a fault record, a completion without data, a discard), and the meanings take that. Safe: a model that stopped here would claim nothing of what follows. -/
  | noSuchAddress
  deriving DecidableEq, Repr

/-- Refusals of the model. -/
inductive Refusal where
  /-- The row has no meaning yet. Raised by an arm of `exec` only; no arm is left that raises it. Safe: the model stops. -/
  | notModelled (mnemonic : String)
  deriving DecidableEq, Repr

/-! ### Data in transit -/

/-- A byte with the poison mark of the 64-bit word that carries it (R207). -/
structure PByte where
  b : Byte
  p : Bool
  deriving DecidableEq, Repr

/-- A sparse map in canonical form: keys strictly rising, no entry equal to the default. -/
abbrev Sparse (α : Type) := List (Nat × α)

/-- A ring flit (Table 02-1). POISON is the mark of any payload byte; SBCHK is checked on arrival. -/
structure Flit where
  tag : W16
  mode : Nat
  origin : Nat
  hops : Nat
  row : Nat
  last : Bool
  half : Bool
  fmt : Nat
  data : List PByte
  deriving DecidableEq, Repr

/-- An entry of a ring receive queue (R37): the flit after its HOPS decrement, and whether the instruction that names it
has taken it. A taken entry with HOPS above zero still waits to be forwarded. -/
structure RxEntry where
  f : Flit
  taken : Bool
  deriving DecidableEq, Repr

/-- An issued instruction in a unit queue (R219): issue number, program counter, word, the registers as read at issue (R218), its
beat frame (R223), whether it was ready at or after its beat (R224) and whether its transfer has started, and the unheld frames for which it has waited at the head of its queue on a
mordant (R233). -/
structure Entry where
  seq : Nat
  pc : Nat
  word : W128
  k : Vector W64 32
  beat : W64
  started : Bool
  waited : Nat
  deriving DecidableEq, Repr

/-- Bytes of a row that ends in a later flit, for one lane, origin, tag and half (R260). -/
structure RowCarry where
  lane : Lane
  origin : Nat
  tag : W16
  half : Bool
  row : Nat
  data : List PByte
  deriving DecidableEq, Repr

/-- A fired RING.FEED, RING.TAKE or RING.ADD that is not done: rows done, byte-string remainder of each lane, the parts of rows and
the halves that wait for the rest, and for a RING.ADD the rows whose flits have entered the add stage (R262). -/
structure RingOp where
  e : Entry
  rows : Nat
  restCw : List PByte
  restCcw : List PByte
  carry : List RowCarry
  halves : List RowCarry
  got : Nat
  deriving DecidableEq, Repr

/-- A product row half in the ring add stage (R262), with the witness verdict it waits for (R54) and the OVF and NV that its path brought (R108). -/
structure AddRow where
  tag : W16
  i : Nat
  bits : List W32
  cleared : Bool
  seq : Nat
  ovf : Bool
  nv : Bool
  deriving DecidableEq, Repr

/-- One ring lane at a station: flits on the wire towards it, receive queue, flits its instructions inject, credits for the next
station's queue, freed entries whose credit has not yet travelled back (R37), lane stopped by R34, instruction queue (Table 08-1), the
product rows of its add stage, the flits there that wait for their partners with the issue number of their RING.ADD (R262), and the sums that the
add stage forwards. -/
structure LaneSt where
  wire : List Flit
  rxq : List RxEntry
  outq : List Flit
  credits : Nat
  owed : Nat
  stopped : Bool
  queue : List Entry
  adds : List AddRow
  held : List (Nat × Flit)
  fwd : List Flit
  deriving DecidableEq, Repr

/-! ### Vats -/

/-- Slot states (Table 07-2). -/
inductive SlotState where
  | free | claimed | full | taken | dropping
  deriving DecidableEq, Repr

/-- Sideband of one row in a slot (R258), and the row itself where a RING.FEED with LOCAL = 1 has passed it through the
prologue (R261). -/
structure SlotRow where
  tag : W16
  row : Nat
  poison : Bool
  data : List PByte
  deriving DecidableEq, Repr

/-- A slot of a vat (R194): its state, its byte count (R198), its header granule and row sidebands, whether each of its two readers has done with it (R261), and the
flags of the part that a drain has written into it, NV and OVF as FLG of Table 12-1 has them (R118, assumption log 112). -/
structure Slot where
  st : SlotState
  count : Nat
  header : Option (List PByte)
  rows : List SlotRow
  laneDone : Bool
  feedDone : Bool
  flg : Nat
  deriving DecidableEq, Repr

/-- Producer and consumer kinds of Table 07-1. -/
inductive VatKind where
  | fetch | take | drain | vecOp | load | mma | feed | feedLocal | aside | put | send
  deriving DecidableEq, Repr

/-- A fired vat (R192, R194): the issue number of its VAT.OPEN, parameters, head, tail, stream counts, slots, and how far its consumer has read: row within the slot at
the head, and for the array beside a RING.FEED the slot it reads (R261). -/
structure Vat where
  base : Nat
  size : Nat
  outbound : Bool
  len : Nat
  head : Nat
  tail : Nat
  claimed : Nat
  taken : Nat
  slots : List Slot
  rd : Nat
  rdRow : Nat
  wrRow : Nat
  id : Nat
  deriving DecidableEq, Repr

/-- What the checks at issue see of a vat (R192, R193, R197, R205). -/
structure VatBook where
  base : Nat
  slots : Nat
  size : Nat
  outbound : Bool
  len : Nat
  prod : Option VatKind
  cons : Option VatKind
  prods : Nat
  conss : Nat
  id : Nat
  deriving DecidableEq, Repr

/-! ### Array and tiles -/

/-- A block in the array's weight registers: format, k, n and shape of its ARR.LOAD, its bytes as the vat delivered them, and
the poison mark of R71. -/
structure Weights where
  fmt : Nat
  k : Nat
  n : Nat
  shape : Fin 4
  data : List PByte
  deriving DecidableEq, Repr

/-- An ARR.LOAD in progress (R66): the instruction, its slot, the block. -/
structure LoadRec where
  e : Entry
  slot : Nat
  w : Weights
  deriving DecidableEq, Repr

/-- Witness side of one band of a product row (R84, R390): W, the magnitude output, and whether a clamp or a non-finite value of the band or of its witness
columns keeps the row from being compared (R110). -/
structure BandWit where
  w : W32
  a : W32
  ovf : Bool
  nv : Bool
  deriving DecidableEq, Repr

/-- A row in the array pipeline: its ARR.MMA, target tile and row (`none`: the ring add stage), columns written, formats, the fault-free
product row and its sub-rows, the columns an array fault changed as the row left the tree, the tile row before the add, which the
retention buffer keeps (R395), the flags that the row brings once it clears (R108, R109), and the state of its retry: `again` marks a row that mismatched and was fed again, `rerun` a row
that a retry fed again. -/
structure FlightRow where
  seq : Nat
  pc : Nat
  tile : Option (Fin 64)
  row : Nat
  tag : W16
  n : Nat
  fx : Fmt
  fw : Fmt
  fa : Fmt
  prod : List W32
  terms : List (List W32)
  err : ArrayError
  wit : List BandWit
  clamp : Bool
  old : List (Nat × Option W32)
  fovf : Bool
  fnv : Bool
  left : Bool
  void : Bool
  again : Bool
  rerun : Bool
  deriving DecidableEq, Repr

/-- A fired ARR.MMA until its last verdict (R265): rows fed, tile rows met, accumulation format, whether its pass has been retried
(R396). -/
structure MmaRec where
  e : Entry
  fed : Nat
  met : List (Nat × Nat)
  fa : Fmt
  retried : Bool
  deriving DecidableEq, Repr

/-- A pass result that waits for the merge path (R114), and which of its elements are poisoned (R411). -/
structure MergeRec where
  seq : Nat
  els : Sparse (Option W32)
  poison : List Nat
  deriving DecidableEq, Repr

/-- One pass into one tile: rows that have not yet left the tree, and whether it has ended (R65). -/
structure PassRec where
  seq : Nat
  tile : Fin 64
  rows : Nat
  remaining : Nat
  ended : Bool
  deriving DecidableEq, Repr

/-- Writer kind of a tile lease (R82). -/
inductive Lease where
  | mma | ring
  deriving DecidableEq, Repr

/-- What the checks at issue see of a tile (R80, R82). -/
structure TileBook where
  height : Nat
  fmt : Nat
  shape : Fin 4
  faithful : Bool
  depth : Nat
  serving : Bool
  interval : Nat
  passes : Nat
  issued : Nat
  lease : Option Lease
  spoff : Nat
  drained : Bool
  deriving DecidableEq, Repr

/-- A fired tile: elements (absent = empty, R107), poisoned elements (R411), OVF and NV (R108), passes ended, elements held in each carry-stack level, whose values lie in the spill space (R81, R112), pass
results that wait for the merge path (R114), and whether a spill has occurred (R116). -/
structure Tile where
  bk : TileBook
  els : Sparse (Option W32)
  poison : List Nat
  ovf : Bool
  nv : Bool
  ended : Nat
  levels : List (List Nat)
  mergeQ : List MergeRec
  merged : Nat
  spilled : Bool
  deriving DecidableEq, Repr

/-- A fired ACC.DRAIN and the next row it drains. -/
structure DrainRec where
  e : Entry
  row : Nat
  deriving DecidableEq, Repr

/-! ### Vector unit -/

/-- An armed program (R267): its micro-op words and the instruction that armed it. -/
structure VecProg where
  e : Entry
  uops : List W128
  deriving DecidableEq, Repr

/-- A VEC.OP in progress: its list and the next row. -/
structure VecRec where
  e : Entry
  uops : List W128
  row : Nat
  deriving DecidableEq, Repr

/-- A test slice in progress (R155, R157, R158): the number of its kernel (R398), the seed and the shape that the steward sends with it, the program counter of its CHK.KAT, and whether it is a
direct slice. -/
structure Slice where
  kern : Nat
  seed : W64
  shape : Fin 4
  pc : Nat
  direct : Bool
  deriving DecidableEq, Repr

/-- The vector unit (R126 to R148): prologue lanes in units of 128, armed programs, vector registers and the four test registers, each of one value per lane,
soft-maximum and rotary stores, the VEC.OP in progress, and the last VEC.EPI issued, for the checks at issue (R258). -/
structure VecUnit where
  split : Nat
  pro : Option VecProg
  epi : Option VecProg
  vregs : Sparse W32
  testRegs : Sparse W32
  softmax : Sparse W32
  rope : Sparse W64
  op : Option VecRec
  queue : List Entry
  bkEpi : Option W128
  deriving DecidableEq, Repr

/-- The array of a station: shape in force (R76), weight registers, load in progress or complete, shadow registers busy after a
swap (R68), rows in the pipeline, passes, rows to be fed again by a retry (R395), and the issue-time books of R69 and R78. -/
structure ArrayUnit where
  shape : Fin 4
  active : Option Weights
  shadow : Option Weights
  load : Option LoadRec
  swapWait : Bool
  flight : List FlightRow
  mmas : List MmaRec
  passes : List PassRec
  refeed : List FlightRow
  queue : List Entry
  bkShape : Fin 4
  bkLoad : Option (Nat × Nat × Nat)
  bkActive : Option (Nat × Nat × Nat)
  signature : W64 × W64
  slice : Option Slice
  deriving DecidableEq, Repr

/-- The sequencer (R216 to R225): pc, scalar registers with poison (R411) and pending marks (R218), calendar base, beat frame of
the last calendar instruction issued, instructions since it (R225), issue number, issue stopped (CTL.END, R217 or a fault), done (R254), and
the raises it has outstanding (by issue number and pc), with that of the look-ahead (R252). -/
structure Seqr where
  pc : Nat
  k : Vector W64 32
  kPoison : List Nat
  kPending : List (Nat × Nat)
  base : W64
  lastBeat : Option W64
  dist : Nat
  nextSeq : Nat
  stopped : Bool
  endPending : Option Nat
  done : Bool
  raises : List (Nat × Nat)
  laRaise : Bool
  deriving DecidableEq, Repr

/-- A MOR.READ whose register is not yet written (R272). -/
structure MorRead where
  reg : Nat
  value : W64
  seq : Nat
  deriving DecidableEq, Repr

/-- A station. -/
structure Station where
  sq : Seqr
  cw : LaneSt
  ccw : LaneSt
  ringOps : List RingOp
  vats : Vector (Option Vat) 32
  books : Vector (Option VatBook) 32
  localVats : List Nat
  takeVats : List Nat
  vatQ : Vector (List Entry) 32
  arr : ArrayUnit
  tiles : Vector (Option Tile) 64
  tbooks : Vector (Option TileBook) 64
  accQ : List Entry
  drain : Option DrainRec
  vec : VecUnit
  engQ : List Entry
  netQ : List Entry
  morQ : List Entry
  chkQ : List Entry
  morReads : List MorRead
  ls : Sparse Byte
  lsPoison : List Nat
  ovf : Bool
  nv : Bool
  deriving DecidableEq, Repr
/-! ### Transfers in flight -/

/-- A part of a fetch, at most one granule (R163): address, bytes, and what was read once its node has served it. -/
structure ReqPart where
  addr : Nat
  len : Nat
  data : Option (List PByte)
  deriving DecidableEq, Repr

/-- A VAT.FETCH in flight (R194, R201, R257): vat slot, source, byte count and header flag, the bytes once its source has answered, whether it was cancelled (R205), the
response run of k[KD], the ports of its routes so far as the device knows them (R208), the slot run of its requests as first slot and count, and its parts in address order. Of a header granule only the first 64 B are read (R180); `data` holds them
before the body. `got` holds what a remote source has sent. -/
structure Fetch where
  st : St
  vat : VatNo
  slot : Nat
  pc : Nat
  addr : Nat
  bytes : Nat
  hdr : Bool
  remote : Bool
  ports : List Nat
  reqId : Nat
  got : List PByte
  data : Option (List PByte)
  dropped : Bool
  run : Nat
  slots : Nat × Nat
  parts : List ReqPart
  deriving DecidableEq, Repr

/-- A memory write on its way to a tower or stash (R204, R170): partition, destination, bytes, accumulating mark, the mordant that
receives an add of 1 once the last byte is written, whether that has happened, and the granule parts still to be written (R163). -/
structure MemWrite where
  who : St
  part : Part
  pc : Nat
  vat : Nat
  addr : Nat
  data : List PByte
  acc : Bool
  mordant : Option W16
  written : Bool
  parts : List (Nat × Nat)
  deriving DecidableEq, Repr

/-- A mordant add or set on its way to its counter (R359); `poison` marks a poisoned operand block (R344). -/
structure MorOp where
  st : Option St
  part : Part
  mor : W16
  set : Bool
  value : W64
  poison : Bool
  deriving DecidableEq, Repr

/-- Where an engine descriptor goes (R271). -/
inductive DescTo where
  | route (g : Eng) | transpose (t : Twr) | madder (t : Twr)
  deriving DecidableEq, Repr

/-- An engine descriptor on its way (R271). -/
structure DescFlight where
  dst : DescTo
  st : St
  part : Part
  pc : Nat
  bits : BitVec 1024
  poison : Bool
  deriving DecidableEq, Repr

/-! ### Towers and engines -/

/-- States of a secured block (Table 06-6). -/
inductive BlockState where
  | pending | shadowed | returning | out
  deriving DecidableEq, Repr

/-- A secured block of an open epoch: base address, state, pool slot, marked granules, and spans of bytes its drain has read (R187, R436). -/
structure SecBlock where
  addr : Nat
  st : BlockState
  slot : Option Nat
  marks : List Nat
  reads : List (Nat × Nat)
  deriving DecidableEq, Repr

/-- An open epoch in a tower (R186). -/
structure TowerEpoch where
  blocks : List SecBlock
  aborted : Bool
  deriving DecidableEq, Repr

/-- A descriptor in a tower's or engine's queue: who commanded it, its bits, whether it has passed its checks, how far it has run, and what it keeps
while it runs: the gather counts, the drop count, the slot of the row under copy, κ, the skip decision, a raise of HOLD, and the writes of the Madder group in progress that are still to be made. -/
structure DescRec where
  st : St
  pc : Nat
  bits : BitVec 1024
  poison : Bool
  checked : Bool
  done : Nat
  counts : Sparse Nat
  drops : Nat
  kappa : W32
  skip : Bool
  hold : Bool
  slot : Nat
  wq : List (Nat × List Byte)
  deriving DecidableEq, Repr

/-- A live bank copy of one channel (Table 06-1): retiring bank, spare taken, 512 B pieces copied. -/
structure BankCopy where
  bank : Nat
  spare : Nat
  pieces : Nat
  deriving DecidableEq, Repr

/-- A tower (R161 to R190): lost mark, the partitions for which a restart has retired it (R173), transpose and Madder queues per partition, epochs per partition, spare banks used and live
copy per channel, banks that wait for the copy ahead of them, the spare that serves a bank, times of the corrected and uncorrectable sectors of each bank in the last 24 h, scrub position per channel
in KiB, the time at which its pass began, the frame of its last maintenance window, and the settled step of each partition with the highest STEP started (R421). -/
structure Tower where
  lost : Bool
  gone : Vector Bool 4
  xq : Vector (List DescRec) 4
  mq : Vector (List DescRec) 4
  epochs : Vector (Option TowerEpoch) 4
  sparesUsed : Vector Nat 16
  copies : Vector (Option BankCopy) 16
  retire : List Nat
  bankMap : Sparse Nat
  bankCor : List (Nat × W64)
  bankUnc : List (Nat × W64)
  scrub : Vector Nat 16
  scrubFrom : Vector (Option W64) 16
  maint : Vector (Option Nat) 16
  settled : Vector (Option Nat) 4
  maxStep : Vector (Option Nat) 4
  deriving DecidableEq, Repr

/-- A token-routing engine: a queue of descriptors per partition (R150). -/
structure RouteEngine where
  q : Vector (List DescRec) 4
  deriving DecidableEq, Repr

/-- Kinds of transfers that leave in blocks (Table 12-1). -/
inductive XferKind where
  | write | readReq | readResp | reduce | multicast | morAdd | morSet
  deriving DecidableEq, Repr

/-- A transfer that leaves in blocks (R346, R351): the unit and instruction behind it (`vat` is 33 for a transfer of a reduction engine and 34 for one of a tower that drains; `st` is then the number of the engine or tower, and `rpart` the node of the tower by which it drains), route index (3FFh for open traffic), tree ID for a multicast, destination device,
byte address or mordant offset, bytes, next block, the part and format of a reduction, and the fields of a read request (R342). `slot` is the vat slot that
frees when the last flit has left, `value` a mordant operand, `flg` the flags of a reduce part, `base` the number of its first block, `ridx` the place of that block in its route's run, `start` the Krytno frame in which the transfer starts, `dpart` the partition that an open block names, `got` of a fetch what has arrived, `last` a completion mordant block that follows (R343). -/
structure Xfer where
  kind : XferKind
  st : St
  part : Part
  pc : Nat
  vat : Nat
  slot : Nat
  route : Nat
  dest : W16
  addr : Nat
  data : List PByte
  bytes : Nat
  blk : Nat
  rpart : Nat
  fmt : Nat
  hdr : Bool
  ftag : Nat
  dpart : Nat
  start : Nat
  flg : Nat
  base : Nat
  ridx : Nat
  value : W64
  last : Option W16
  deriving DecidableEq, Repr
/-! ### Securing (R423 to R445) -/

/-- A running restore: its image, the blocks that have landed, the blocks that NAND has read with whether LDPC could correct them (R528), and for the shared
store the spans of each 64 KiB unit that the host has written, the header granule, and whether header and commit record are there (R441, R519). -/
structure Restore where
  img : Image
  landed : List Nat
  read : List (Nat × Bool)
  got : Sparse (List (Nat × Nat))
  hdr : Sparse Byte
  hdrOk : Bool
  recOk : Bool
  deriving DecidableEq, Repr

/-- An image whose epoch every tower has closed while its completion is still to come, and whose place a later epoch has taken (R424): its commit record has been sent, at `commitAt`, and
the program units of it that NAND holds. -/
structure LateImage where
  img : Image
  commit : Bool
  commitAt : W64
  nandPos : Nat
  deriving DecidableEq, Repr

/-- Securing state of a partition: epochs opened in the job (j), highest counter value handled (R424), s_c (R428), the epoch in progress and the closed ones before it, oldest first, that are still to be completed, the images the tiers hold, newest
first, the restore, the clean-required flag (R439), the reserve addresses the holder gave (R431), slot by slot and tower by tower, with the drains it has begun into them, whether its
drain has yielded to another partition's (R444), and as a holder the next mirror slot and
the steps its slots hold. `commit` says that the commit record has been sent, at `commitAt`; `breach` is the time of the last event 0Dh (R439); `req` and `arm` are the request
of OD 6179h and the ARM that it reads: 0 idle, 1 armed, 2 running, 3 refused (Table 14-4). -/
structure Secure where
  j : Nat
  high : W64
  sc : Option Int
  epoch : Option Image
  commit : Bool
  commitAt : W64
  late : List LateImage
  images : List Image
  restore : Option Restore
  cleanReq : Bool
  reserve : Option (List (List W64))
  slotTurn : Nat
  yielded : Bool
  mirror : List (Option W64)
  mirrorNext : Nat
  nandPos : Nat
  breach : Option W64
  req : BitVec 256
  arm : Nat
  deriving DecidableEq, Repr
/-! ### Clocks, mesh and ports -/

/-- A scheduled use of an outgoing edge (R226, R228): node, input, edge, slot counted over all frames, partition. -/
structure MeshUse where
  node : Nat
  inp : Dir
  out : Dir
  slot : Nat
  owner : Part
  deriving DecidableEq, Repr

/-- A late flit at a router (R226, R227): node, input, outgoing edge, the slot in which it came into the late buffer of its input, the slot in which it is sent, and its owner. -/
structure LateFlit where
  node : Nat
  inp : Dir
  out : Dir
  enter : Nat
  send : Nat
  owner : Part
  deriving DecidableEq, Repr

/-- A flit that waits in a crossing whose read side takes nothing (R289), or before one that accepts nothing (R292): the islands of its write and read end, the partition that owns it, `none`
for steward traffic, and whether it has entered. -/
structure MeshItem where
  a : Nat
  b : Nat
  owner : Option Part
  entered : Bool
  deriving DecidableEq, Repr

/-- A fenced crossing (R290) by the islands of its write and read end, the partitions already recorded, and whether the items of no job have been logged. -/
structure Fenced where
  a : Nat
  b : Nat
  reported : List Part
  logged : Bool
  deriving DecidableEq, Repr

/-- Clocks and time (R277 to R299): stretched cycles of each island in the frame, a pending clock setting per partition with its boundary, a pending time set with its boundary,
the reference input, consecutive good cross-checks of a failed holdover oscillator, fenced crossings, flits that wait in a crossing, crossings that a joint reset left to be recalibrated, stashes
out of service, a failed horizontal crossing, the time-counter values of the last frame and window mark taken, the uses of mesh edges and the late flits. `goodX`
and `badX` count exchanges with the time parent (R378), `alt` is set while the alternate parent is followed. -/
structure Clocks where
  stretch : Vector Nat 73
  pend : Vector (Option (Nat × W64)) 4
  timeSet : Option (W64 × W64)
  refOk : Bool
  crossGood : Nat
  fenced : List Fenced
  items : List MeshItem
  recal : List (Nat × Nat)
  stashBad : Vector Bool 2
  meshBad : Bool
  frameMark : Option W64
  windowMark : Option W64
  mesh : List MeshUse
  late : List LateFlit
  goodX : Nat
  badX : Nat
  alt : Bool
  deriving DecidableEq, Repr

/-- A transaction block (R308, R340): NET field, scheduled slot (3FFh for none) and the Krytno frame of that slot, POISON and the 240 payload
bytes. -/
structure Block where
  net : Nat
  slot : Nat
  frame : Nat
  poison : Bool
  data : List Byte
  deriving DecidableEq, Repr

/-- A link control message that is not yet answered (R325): MID, MSG, body, the part that goes out next, times sent, and whether it is due. -/
structure LinkMsg where
  mid : Nat
  msg : Nat
  body : List Byte
  part : Nat
  sends : Nat
  due : Bool
  deriving DecidableEq, Repr

/-- AUTH at a port (R326, R327): the body of its own HELLO, what it has seen of its partner, whether it has decided and whether the partner has admitted, and
whether its decision is a refusal that the partner has still to acknowledge. -/
structure Auth where
  own : List Byte
  refused : Bool
  hello : Option HelloBody
  chainOk : Option Bool
  sent : Bool
  got : Bool
  deriving DecidableEq, Repr

/-- A swap that the receiver of a direction runs (R329, R330): its logical lane, whether a degradation began it, and the codewords in a row that have decoded on the spare. -/
structure RxSwap where
  lane : Nat
  degraded : Bool
  good : Nat
  deriving DecidableEq, Repr

/-- A link port (R301 to R335): retry buffer with oldest, snd, the SEQ after the last block ever sent, and tmo (R315); e and nak (R314); time of the last NAK
replay; its raise (R317); sight gap and the window whose check waits for its end (R320, R383); windows in which HOLD was seen (R318); the partner's hold group
ID; link control messages, the last MID given and the MID to acknowledge (R325); time blocks waiting; credits held and owed, receive queues and waiting blocks of
each virtual channel and the channel whose turn it is (R350, R353); fence blocks; scheduled blocks waiting to enter the buffer, and delivered ones the transaction
layer has not yet handled; next block slot of the frame; logical receive lanes without signal; swaps in progress; AUTH; refusals and training failures in a
row, a failed training that waits for its retry, a training that a retraining began, the time source that the partner showed (R380), the transmitter's tap settings
against their starting points, the electrical mode in force (R302), the physical lane of each logical lane in either direction (R301), the measured wire delay in 1/256 ns
(R324), time blocks received with their receive stamps (R312), the frame and slot that order late blocks after a failure (R313), and whether a message of the partner is
still to be acknowledged (R325). `replayAt` holds the SEQ and the start of the last replay. The state code, partner, delay and lane map live in OD 5001h to 5004h. -/
structure Port where
  buf : List Block
  oldest : Nat
  snd : Nat
  hi : Nat
  tmo : Nat
  e : Nat
  nak : Bool
  replayAt : Option (Nat × W64)
  hold : Bool
  gap : Bool
  gapCheck : Option Nat
  seen : List Nat
  group : Option W16
  msgs : List LinkMsg
  mid : Nat
  amid : Nat
  timeQ : List (List Byte)
  credits : Vector Nat 4
  owed : Vector Nat 4
  inOpen : Vector (List Block) 4
  outOpen : Vector (List Block) 4
  turn : Nat
  fences : List Block
  outSched : List Block
  inSched : List Block
  slot : Nat
  los : List Nat
  rxSwap : Option RxSwap
  txSwap : Option Nat
  auth : Auth
  refusals : Nat
  failures : Nat
  failed : Bool
  again : Bool
  source : Nat
  taps : Sparse Int
  mode : Nat
  rxMap : List Nat
  txMap : List Nat
  wire : Option Nat
  timeIn : List (List Byte × BitVec 72)
  behind : Option (Bool × Nat × Nat)
  ackDue : Bool
  deriving DecidableEq, Repr

/-- A reduce group at work (R368): partition, group, blocks that wait by part and BLK, the blocks combined in the round, and the frame in which its first block was, from which the run of its
results counts (R346, R370). -/
structure RedGroup where
  part : Part
  grp : Nat
  waiting : List (Nat × Nat × Block)
  combined : Nat
  start : Nat
  deriving DecidableEq, Repr

/-- A norm accumulator of an engine (R374). -/
structure NormAcc where
  part : Part
  eng : Eng
  idx : Nat
  hi : W32
  lo : W32
  deriving DecidableEq, Repr

/-- A branch of a multicast tree at this device (R365, R366): blocks kept for it, and whether it is fenced. `port` is `none` for a tree that a fence block
has reached. -/
structure BranchBuf where
  part : Part
  tree : Nat
  port : Option PortId
  blocks : List Block
  fenced : Bool
  deriving DecidableEq, Repr

/-- The fabric services: reduce groups, norm accumulators, branches, and the engines that raise HOLD (R372). -/
structure Fabric where
  groups : List RedGroup
  norms : List NormAcc
  branches : List BranchBuf
  raises : List (Part × Eng)
  deriving DecidableEq, Repr
/-! ### Partitions, faults, dictionary -/

/-- One mordant whose state is not counter 0, failed 0 (R358). -/
structure Mordant where
  count : W64
  failed : Bool
  deriving DecidableEq, Repr

/-- A partition's sub-ring as it was last formed (R36, R42, R46, R48): its form, its active stations in CW order, and whether the hop between the ends of a half runs over the chord. -/
structure SubRing where
  form : Nat
  row : List St
  chord : Bool
  deriving DecidableEq, Repr

/-- A partition's job and calendar: job state (OD 6000h), ring binding (R41, R46), what the binary declared and what it was bound to (R240), calendar
frame counter (R222), whether it runs and whether the frame in progress is held, whether the current window is held, whether the device asserts HOLD in it,
the windows the group has been held in a row, ring mode of its sub-ring while a half is parked (R48), the end time, the first fault and the outstanding raise of
R384, the stash MiB that the binary declares, the mordant timeout in µs that its start took (R358), the binary's place, the start of the partition's rotation pass, the frame of the last span end (R235), the hold links that its job start fixed (R506), and the windows for which HOLD was seen on a link that was a hold link then (R382). -/
structure Partition where
  jobState : Byte
  form : Nat
  pos : List St
  contract : Byte
  prog : Nat
  spill : Nat
  share : Nat
  towers : List Twr
  ports : List PortId
  frame : W64
  frameOn : Bool
  frameHeld : Bool
  held : Bool
  asserted : Bool
  heldRun : Nat
  parkForm : Bool
  ring : Option SubRing
  endTime : W64
  firstFault : W16
  faultRaise : Bool
  stashW : Nat
  stashE : Nat
  morTimeout : Nat
  loadAddr : W64
  loadLen : W64
  passFrom : W64
  spanAt : W64
  links : List PortId
  heard : List Nat
  sec : Secure
  deriving DecidableEq, Repr

/-- A fault record before it is laid out (Table 13-6). -/
structure FaultRec where
  cls : Byte
  part : Part
  lost : Bool
  after : Bool
  nojob : Bool
  lkind : Nat
  loc : Byte
  loc2 : W16
  detail : W16
  pc : W32
  beat : W64
  time : W64
  seq : W16
  deriving DecidableEq, Repr

/-- Known-answer testing and observation of a station (R399, R401, R408): the queue of kernels, the next kernels of the rotation and of the observation set
and which comes next, the numbers of the kernels passed in the rotation pass in progress and its start, start and end of the last complete pass, the kernel to run again, the
last failing kernel with its time, times of masked mismatches in the last 24 h, frames in a row above OD 7040h, time of the last event that keeps the station
under observation, sc of slices in the span of R235 and sc in all, times of its faults 02h and 03h, whether such a fault waits for isolation at the next job restart (R416), and whether its half has been unparked since its last rotation pass (R495), and whether it was retired while in service since
the last job restart of its partition, which owes it a spare (R30). -/
structure Health where
  queue : List Nat
  next : Nat
  obsNext : Nat
  obsTurn : Bool
  passed : List Nat
  passFrom : W64
  lastPass : Option (W64 × W64)
  again : Option Nat
  failed : Option (Nat × W64)
  masked : List W64
  marginRun : Nat
  lastEvent : W64
  katSc : Nat
  spanSc : Nat
  faults : List W64
  isolate : Bool
  due : Bool
  vacant : Bool
  deriving DecidableEq, Repr

/-- Status of a completion on the host port. -/
inductive Completion where
  | done | unsupported | abort
  deriving DecidableEq, Repr

/-- ONFI commands that the flash controller issues (R525), and the prefix byte of R526. -/
inductive FlashCmd where
  | reset | readId | readParameterPage | getFeatures | setFeatures | readStatusEnhanced | zqCalibrationLong | read | changeReadColumnEnhanced | pageProgram | blockErase
  | prefixByte (b : Byte)
  deriving DecidableEq, Repr

/-- What the latest command sent out of the package or to a requester: the model's own field (assumption log 6). -/
inductive Output where
  | record (r : FaultRec)
  | notify (index : W16) (sub : Byte) (value : List Byte)
  | done (st : St)
  | block (p : PortId) (b : List Byte)
  | response (v : Via) (b : List Byte)
  | spdm (v : SpdmVia) (code : Byte) (body : List Byte)
  | tunnel (dest : W16) (frag : List Byte)
  | msix (f : Pf) (vec : Nat)
  | completion (f : Pf) (c : Completion) (parts : List (List Byte × Bool))
  | smbus (b : Option (List Byte))
  | scan (v : Option W32)
  | vout (h : Half) (mv : Nat)
  | flash (ch ce : Nat) (c : FlashCmd)
  | wpN (high : Bool)
  | training (p : PortId) (lane : Fin 17) (set : BitVec 256)
  deriving DecidableEq, Repr
/-! ### Power (R490 to R497, R507, R532 to R543) -/

/-- Instructions of the test port (R531). -/
inductive JtagInstr where
  | bypass | idcode | samplePreload | extest | clamp | highz | own
  deriving DecidableEq, Repr

/-- Where a power transition stands: waiting for towers (R492 step 4), draining the seam (step 8), lowering rails, raising rails, or the compute
die coming up. -/
inductive Phase where
  | towers | seam | lowering | raising | bringUp
  deriving DecidableEq, Repr

/-- A power transition: the code of OD 4020h that it reaches, the halves it parks or unparks, its phase, and the time at
which that began. -/
structure Trans where
  target : Nat
  halves : List Half
  phase : Phase
  since : W64
  deriving DecidableEq, Repr

/-- Throttling of a half (R541): the setting it leaves each partition, the time since which its sensors have been cool, and the time since which a die sensor has
been at 110 °C or above. -/
structure Throttle where
  caps : Vector (Option Nat) 4
  cool : Option W64
  hot : Option W64
  stepAt : W64
  deriving DecidableEq, Repr

/-- Rails and clock voltage of a half (R534 to R536): the last VOUT_COMMAND in mV with its time, PMBus failures in a row, and the times of the last rail step
and of the last warning frame. -/
structure CoreRail where
  mv : Nat
  at_ : W64
  fails : Nat
  stepAt : Option W64
  warnAt : W64
  deriving DecidableEq, Repr

/-- Power of the package: OFF; the pins STW_RESET_N and TEST_EN; the cause that OD 4004h is still to record; the compute die out of reset and calibrated; halves whose
clocks are stopped; halves parked or being parked (R493); the enables and power-good inputs by rail number less 1; groups of rails still to be raised, rails
whose power-good is awaited, rails still to be lowered and the one whose decay is awaited (R538, R539); the transition; a removal and its force bit, and
whether it waits for a transition; THERM_TRIP_N and SMB_ALERT_N; throttles; the power limit's settings (R533); core rails; clock raises that wait for their voltage; the time since which every
die sensor has been below 90 °C (R542); PPS_OUT high since; the instruction of the test port. -/
structure Power where
  off : Bool
  stwHeld : Bool
  testEn : Bool
  cause : Nat
  dieUp : Bool
  stopped : Vector Bool 2
  parking : Vector Bool 2
  en : Vector Bool 14
  pg : Vector Bool 14
  up : List (List (Fin 14))
  await : List (Fin 14)
  down : List (Fin 14)
  decay : Option (Fin 14)
  trans : Option Trans
  removal : Option Bool
  removalWaits : Bool
  trip : Bool
  alert : Bool
  thr : Vector Throttle 2
  lim : Vector (Option Nat) 4
  core : Vector CoreRail 2
  raiseTo : Vector (Option Nat) 4
  coldSince : Option W64
  pps : Option W64
  jtag : JtagInstr
  deriving DecidableEq, Repr
/-! ### The steward (R447 to R486) -/

/-- Roles of Table 15-10. -/
inductive Role where
  | operator | partition (p : Part) | observer | peer | none
  deriving DecidableEq, Repr

/-- A management session (R468, R469): its transport, role, time of the last message, staging copies by entry (R477) and the responses to the last 16
SEQ values (R478). -/
structure Session where
  via : SessTransport
  role : Role
  seen : W64
  staging : List (Nat × List Byte)
  kept : List (W16 × List Byte)
  deriving DecidableEq, Repr

/-- What a tunnel message says (R431, R432, R508). -/
inductive TunnelBody where
  | completion (p : Part) (step : W64) | removal | reserve (p : Part)
  deriving DecidableEq, Repr

/-- A tunnel message that needs an answer (R432, R480, R508): destination, message number, what it says, how often it has been sent, and when last. -/
structure TunnelMsg where
  dest : W16
  id : W16
  body : TunnelBody
  sends : Nat
  at_ : W64
  deriving DecidableEq, Repr

/-- A tunnel message being reassembled (R480): source, number, fragment count, fragments, and when the first one came. -/
structure Reassembly where
  src : W16
  id : W16
  count : Nat
  parts : Sparse (List Byte)
  since : W64
  deriving DecidableEq, Repr

/-- An SPDM secured session (R467): its path, whether FINISH has completed it, and key updates. -/
structure SpdmSession where
  via : SpdmVia
  open_ : Bool
  keys : Nat
  deriving DecidableEq, Repr

/-- The steward: a failed self-test holds it in its boot ROM (R458); a boot after a reset of the compute die seals the set-up (`fresh`); when the restart that runs began, and when the boot code started the runtime (R456, R462); firmware slots A and B of the boot code and
the runtime as stored, whose states are those of OD 1F00h, the slot of each kind that was active before the last activation, and whether the signature of each slot's image has verified, where that has been looked at (R450, R460); the set-up as it was recorded at the seal
(R453); sessions; staging copies of the functions; tunnel messages out and in and the next MSGID; SPDM sessions; entries poisoned in
non-volatile memory (R407), and places of the fault log whose CHK does not match, with the 32 B that are stored there (R415); NAND blocks left as spares, the sum of erase counts and the blocks in use (R435), the targets in use as 4 × channel + chip enable and the pSLC prefix byte of the last discovery (R526, R527); the partition whose program unit was the last (R434); the Eloafold root key and the unique device secret of the OTP with the lock of the latter, and the private keys of the root of trust: device, boot alias and runtime alias (R447, R464); the Eloafold signature of the
factory calibration set (R448, R471); the last clean-hour tick, and whether the hour since is broken (R409); and for the risk estimate (R409) the counters
of Table 13-3 as last seen, and by how much each rose, with its time; and the entries whose changes wait to be notified while it restarts (R481). -/
structure Steward where
  romHold : Bool
  fresh : Bool
  downAt : W64
  runAt : W64
  fw : Vector (Sparse Byte) 4
  slot : Vector Byte 4
  prev : Vector (Fin 2) 2
  sigs : Vector (Option Bool) 4
  sealed : Option (List Byte)
  sessions : Vector (Option Session) 8
  staging : Vector (List (Nat × List Byte)) 5
  outbox : List TunnelMsg
  inbox : List Reassembly
  msgId : W16
  spdm : List SpdmSession
  poisoned : List Nat
  badRecs : List (Nat × List Byte)
  nandSpare : Nat
  nandErases : Nat
  nandBlocks : Nat
  nandTargets : List Nat
  nandPrefix : Byte
  nandTurn : Part
  otpRoot : List Byte
  otpSecret : List Byte
  secretLocked : Bool
  devKey : Option (List Byte)
  bootKey : Option (List Byte)
  runKey : Option (List Byte)
  factorySig : List Byte
  hourAt : W64
  hourBad : Bool
  seen : Sparse Nat
  signals : List (W64 × Nat × Nat)
  unsent : List (Nat × Nat)
  deriving DecidableEq, Repr

/-! ### The host port (R512 to R522) -/

/-- A watch (R516). -/
structure Watch where
  thr : W64
  en : Bool
  fired : Bool
  mor : W16
  deriving DecidableEq, Repr

/-- A PCIe function (R512 to R520): configuration, D3hot, AER status, mailbox with its status word, notification ring by entry with head and tail, watches, and requests that resets of
the function have left behind: they are carried out, and their responses are discarded (R520). -/
structure HostFn where
  cfg : PciCfg
  d3 : Bool
  aer : Bool
  req : List Byte
  resp : List Byte
  done : Bool
  busy : Bool
  lost : Bool
  ovf : Bool
  head : Nat
  tail : Nat
  ring : Sparse (List Byte)
  watches : Sparse Watch
  orphans : List (List Byte)
  deriving DecidableEq, Repr

/-- A request of the host port as it came (R515 to R519): a read or write of the memory aperture, an AtomicOp, a read or write of the image aperture, a write or read of a mordant doorbell. -/
inductive HostReq where
  | read (off len : Nat) (e : MemEcc)
  | write (off : Nat) (data : List Byte) (ep : Bool) (e : MemEcc)
  | fetchAdd (off : Nat) (wide : Bool) (v : W64) (e : MemEcc)
  | swap (off : Nat) (wide : Bool) (v : W64) (e : MemEcc)
  | cas (off : Nat) (wide : Bool) (cmp v : W64) (e : MemEcc)
  | imageRead (off len : Nat) (e : MemEcc)
  | imageWrite (off : Nat) (data : List Byte) (e : MemEcc)
  | ring (off size : Nat) (v : W64)
  | look (off size : Nat)
  deriving DecidableEq, Repr

/-- A request of the host port that waits (R164, R289, R292): the function it came on, the crossings of its way in their order, and the request. -/
structure HostItem where
  fn : Pf
  way : List (Nat × Nat)
  req : HostReq
  deriving DecidableEq, Repr
/-- The package. -/
structure State where
  time : W64
  stations : Vector Station 18
  parts : Vector Partition 4
  mordants : Sparse Mordant
  mem : Sparse Byte
  poison : Sparse Byte
  stashPoison : List Nat
  fetches : List Fetch
  writes : List MemWrite
  morOps : List MorOp
  descs : List DescFlight
  xfers : List Xfer
  towers : Vector Tower 8
  route : Vector RouteEngine 4
  clk : Clocks
  pwr : Power
  stw : Steward
  host : Vector HostFn 5
  hostHeld : List HostItem
  perst : Bool
  ports : Vector Port 28
  fab : Fabric
  health : Vector Health 18
  dict : Sparse W64
  saved : Sparse W64
  doms : List (Nat × List Byte)
  savedDoms : List (Nat × List Byte)
  beat : List FaultRec
  faults : List FaultRec
  faultHold : List FaultRec
  faultLost : Bool
  acked : Nat
  seqNext : W16
  draws : Nat
  out : List Output
  pending : List Instr
  deriving DecidableEq, Repr

/-! ### Reset (R487, R488) -/

def Seqr.reset : Seqr := ⟨0, Vector.replicate 32 0, [], [], 0, none, 0, 0, true, none, false, [], false⟩
def LaneSt.reset : LaneSt := ⟨[], [], [], 96, 0, false, [], [], [], []⟩
def ArrayUnit.reset : ArrayUnit := ⟨0, none, none, none, false, [], [], [], [], [], 0, none, none, (0, 0), none⟩
def VecUnit.reset : VecUnit := ⟨4, none, none, [], [], [], [], none, [], none⟩

/-- A station with nothing loaded. -/
def Station.reset : Station := {
  sq := Seqr.reset, cw := LaneSt.reset, ccw := LaneSt.reset, ringOps := []
  vats := Vector.replicate 32 none, books := Vector.replicate 32 none, localVats := [], takeVats := [], vatQ := Vector.replicate 32 []
  arr := ArrayUnit.reset, tiles := Vector.replicate 64 none, tbooks := Vector.replicate 64 none, accQ := [], drain := none
  vec := VecUnit.reset, engQ := [], netQ := [], morQ := [], chkQ := [], morReads := [], ls := [], lsPoison := []
  ovf := false, nv := false }

def Tower.reset : Tower := {
  lost := false, gone := Vector.replicate 4 false, xq := Vector.replicate 4 [], mq := Vector.replicate 4 [], epochs := Vector.replicate 4 none
  sparesUsed := Vector.replicate 16 0, copies := Vector.replicate 16 none, retire := [], bankMap := [], bankCor := [], bankUnc := []
  scrub := Vector.replicate 16 0, scrubFrom := Vector.replicate 16 none, maint := Vector.replicate 16 none, settled := Vector.replicate 4 none, maxStep := Vector.replicate 4 none }

def Secure.reset : Secure := {
  j := 0, high := 0, sc := none, epoch := none, commit := false, commitAt := 0, late := [], images := [], restore := none, cleanReq := false, reserve := none
  slotTurn := 0, yielded := false, mirror := [], mirrorNext := 0, nandPos := 0, breach := none, req := 0, arm := 0 }

/-- A partition without a job. -/
def Partition.reset : Partition := {
  jobState := 0, form := 0, pos := [], contract := 0, prog := 0, spill := 0, share := 0, towers := [], ports := [], frame := 0, frameOn := false, frameHeld := false
  held := false, asserted := false, heldRun := 0, parkForm := false, ring := none, endTime := 0, firstFault := 0
  faultRaise := false, stashW := 0, stashE := 0, morTimeout := 0, loadAddr := 0, loadLen := 0, passFrom := 0, spanAt := 0, links := [], heard := [], sec := Secure.reset }

def Clocks.reset : Clocks := {
  stretch := Vector.replicate 73 0, pend := Vector.replicate 4 none, timeSet := none, refOk := true, crossGood := 0, fenced := [], items := [], recal := []
  stashBad := Vector.replicate 2 false, meshBad := false, frameMark := none, windowMark := none, mesh := [], late := [], goodX := 0
  badX := 0, alt := false }

/-- A port in DOWN. -/
def Port.reset : Port := {
  buf := [], oldest := 0, snd := 0, hi := 0, tmo := 0, e := 0, nak := false, replayAt := none, hold := false, gap := false, gapCheck := none
  seen := [], group := none, msgs := [], mid := 0, amid := 0, timeQ := [], credits := Vector.replicate 4 16, owed := Vector.replicate 4 0
  inOpen := Vector.replicate 4 [], outOpen := Vector.replicate 4 [], turn := 0, fences := [], outSched := [], inSched := [], slot := 0
  los := [], rxSwap := none, txSwap := none, auth := ⟨[], false, none, none, false, false⟩, refusals := 0, failures := 0, failed := false, again := false, source := 0, taps := []
  mode := 0, rxMap := List.range 16, txMap := List.range 16, wire := none, timeIn := [], behind := none, ackDue := false }

def Health.reset : Health := ⟨[], 0, 0, false, [], 0, none, none, none, [], 0, 0, 0, 0, [], false, false, false⟩

def Throttle.reset : Throttle := ⟨Vector.replicate 4 none, none, none, 0⟩

/-- Power just after the steward rails rise: STW_RESET_N low, every other enable inactive, the rails still to be raised in the stages of R538. -/
def Power.reset : Power := {
  off := false, stwHeld := true, testEn := false, cause := 1, dieUp := false, stopped := Vector.replicate 2 false, parking := Vector.replicate 2 false
  en := Vector.ofFn fun i => decide (i.val < 3), pg := Vector.ofFn fun i => decide (i.val < 3), up := [], await := [], down := [], decay := none
  trans := none, removal := none, removalWaits := false, trip := false, alert := false, thr := Vector.replicate 2 Throttle.reset
  lim := Vector.replicate 4 none, core := Vector.replicate 2 ⟨750, 0, 0, none, 0⟩, raiseTo := Vector.replicate 4 none, coldSince := none
  pps := none, jtag := .bypass }

/-- Header of a release image that both steppings accept (Table 15-5): KIND, REL and COMPAT (assumption log 3). -/
def factoryImage (kind : Byte) : Sparse Byte := [(0, kind), (1, 8), (2, 3)]

/-- The steward in its boot ROM, firmware slots A active as the unit left the factory (assumption log 3). -/
def Steward.reset : Steward := {
  romHold := false, fresh := true, downAt := 0, runAt := 0, fw := #v[factoryImage 1, [], factoryImage 2, []], slot := #v[3, 0, 3, 0], prev := Vector.replicate 2 0, sigs := Vector.replicate 4 none
  sealed := none, sessions := Vector.replicate 8 none, staging := Vector.replicate 5 [], outbox := [], inbox := [], msgId := 0, spdm := []
  poisoned := [], badRecs := [], nandSpare := 0, nandErases := 0, nandBlocks := 0, nandTargets := [], nandPrefix := 0, nandTurn := 0
  otpRoot := Config.otpRoot, otpSecret := Config.otpSecret, secretLocked := false, devKey := none, bootKey := none, runKey := none, factorySig := Config.factorySig, hourAt := 0, hourBad := false, seen := [], signals := [], unsent := [] }

/-- A function that the host has not configured (assumption log 20). -/
def PciCfg.reset : PciCfg := ⟨128, false, 128, false⟩
def HostFn.reset : HostFn := ⟨PciCfg.reset, false, false, [], [], false, false, false, false, 0, 0, [], [], []⟩

/-- The package right after a cold reset has begun (R487, R488): no job, every dictionary entry at its default, the time at 0, the steward in its boot
ROM. -/
def State.reset : State := {
  time := 0, stations := Vector.replicate 18 Station.reset, parts := Vector.replicate 4 Partition.reset, mordants := []
  mem := [], poison := [], stashPoison := [], fetches := [], writes := [], morOps := [], descs := [], xfers := []
  towers := Vector.replicate 8 Tower.reset, route := Vector.replicate 4 ⟨Vector.replicate 4 []⟩, clk := Clocks.reset, pwr := Power.reset, stw := Steward.reset
  host := Vector.replicate 5 HostFn.reset, hostHeld := [], perst := true
  ports := Vector.replicate 28 Port.reset, fab := ⟨[], [], [], []⟩
  health := Vector.replicate 18 Health.reset, dict := [], saved := [], doms := [], savedDoms := [], beat := [], faults := [], faultHold := [], faultLost := false, acked := 0, seqNext := 0
  draws := 0, out := [], pending := [] }

end Sys2Proof.Machine
end

