-- ==== Sys2Proof/Machine/Lib.lean ====
section
/-!
DEFINITION. Plain operations on the containers of State: bit fields, vectors indexed by a number of their own range, sparse maps
in canonical form, and the check codes of R548 and R309.
-/
namespace Sys2Proof.Machine

/-- Field [hi:lo] of a value. -/
def bits (v hi lo : Nat) : Nat := v / 2 ^ lo % 2 ^ (hi + 1 - lo)

/-- Bit i of a value. -/
def bit (v i : Nat) : Bool := v / 2 ^ i % 2 = 1

/-- Field [hi:lo] of an instruction word. -/
def fld (w : W128) (hi lo : Nat) : Nat := bits w.toNat hi lo

/-- Bit i of an instruction word. -/
def fbit (w : W128) (i : Nat) : Bool := bit w.toNat i

/-- A number as an index of a non-empty range. -/
def fin {n : Nat} [NeZero n] (i : Nat) : Fin n := Fin.ofNat n i

/-- Sign extension of a 32-bit immediate to 64 bits. -/
def sext32 (v : Nat) : W64 := (BitVec.ofNat 32 v).signExtend 64

def vget {α : Type} {n : Nat} (v : Vector α n) (i : Fin n) : α := v[i.val]'i.isLt
def vset {α : Type} {n : Nat} (v : Vector α n) (i : Fin n) (x : α) : Vector α n := v.set i.val x i.isLt
def vmod {α : Type} {n : Nat} (v : Vector α n) (i : Fin n) (f : α → α) : Vector α n := vset v i (f (vget v i))

/-- Value at a key, the default where it is not listed. -/
def sget {α : Type} (d : α) : Sparse α → Nat → α
  | [], _ => d
  | (k, v) :: m, a => if a = k then v else sget d m a

/-- Write that keeps the canonical form: a default value leaves no entry. -/
def sput {α : Type} [DecidableEq α] (d : α) : Sparse α → Nat → α → Sparse α
  | [], a, x => if x = d then [] else [(a, x)]
  | (k, v) :: m, a, x =>
    if a < k then (if x = d then (k, v) :: m else (a, x) :: (k, v) :: m)
    else if a = k then (if x = d then m else (a, x) :: m)
    else (k, v) :: sput d m a x

/-- Canonical form: keys strictly rising from `lo`, no entry equal to the default. -/
def swfFrom {α : Type} [DecidableEq α] (d : α) : Nat → Sparse α → Bool
  | _, [] => true
  | lo, (k, v) :: m => decide (lo ≤ k) && decide (v ≠ d) && swfFrom d (k + 1) m

def swf {α : Type} [DecidableEq α] (d : α) (m : Sparse α) : Bool := swfFrom d 0 m

/-- Set membership kept as a strictly rising list. -/
def setAdd : List Nat → Nat → List Nat
  | [], a => [a]
  | k :: m, a => if a < k then a :: k :: m else if a = k then k :: m else k :: setAdd m a

def setDel (m : List Nat) (a : Nat) : List Nat := m.filter (· ≠ a)

/-- List element at a position, replaced. -/
def lset {α : Type} (l : List α) (i : Nat) (x : α) : List α := l.set i x

/-- Removal of the element at a position. -/
def ldel {α : Type} (l : List α) (i : Nat) : List α := l.eraseIdx i

/-- A list padded or cut to a length. -/
def fit {α : Type} (d : α) (n : Nat) (l : List α) : List α := l.take n ++ List.replicate (n - l.length) d

/-- Spans [a, b) of places seen so far, with one more; spans that meet are joined. -/
def spanAdd (l : List (Nat × Nat)) (a b : Nat) : List (Nat × Nat) :=
  let near := l.filter fun r => r.1 ≤ b && a ≤ r.2
  (l.filter fun r => !(r.1 ≤ b && a ≤ r.2)) ++ [((near.map (·.1)).foldl min a, (near.map (·.2)).foldl max b)]

/-- Every place from 0 to n is in one span. -/
def spansFull (l : List (Nat × Nat)) (n : Nat) : Bool := n = 0 || l.any fun r => r.1 = 0 && n ≤ r.2

/-- One byte into the CRC-16 of R548, most significant bit first. -/
def crc16Byte (c : Nat) (b : Byte) : Nat :=
  (List.range 8).foldl (fun c i =>
    let top := bit c 15 != bit b.toNat (7 - i)
    let c := c * 2 % 65536
    if top then c ^^^ 0x1021 else c) c

/-- The CRC-16 of R548. -/
def crc16 (l : List Byte) : Nat := l.foldl crc16Byte 0xFFFF

/-- One byte into the CRC-64, most significant bit first. -/
def crc64Byte (c : BitVec 64) (b : Byte) : BitVec 64 :=
  (List.range 8).foldl (fun c _ => if c.msb then (c <<< 1) ^^^ 0x42F0E1EBA9EA3693#64 else c <<< 1) (c ^^^ (b.setWidth 64 <<< 56))

/-- ECMA-182 CRC-64 (R158). -/
def crc64 (l : List Byte) : BitVec 64 := l.foldl crc64Byte 0

end Sys2Proof.Machine
end

