-- ==== Sys2Proof/Machine/OdTable.lean ====
section
/-!
DEFINITION. The object dictionary's entries (Tables 02-3 to 17-13 and OD 1008h of R6): index, first sub-index, count, bytes of a
numeric entry or greatest length of a DOMAIN, access code (Table 00-4), retention class (Table 00-5) and default. Values marked
per unit are those of assumption log 3.
-/
namespace Sys2Proof.Machine

/-- Access codes (R15). -/
inductive Access where
  | ro | rw | rwb | wcmd | rw1c
  deriving DecidableEq, Repr

/-- Retention classes (R16). -/
inductive Keeps where
  | f | p | u | s | c | j
  deriving DecidableEq, Repr

structure OdRow where
  idx : Nat
  first : Nat
  count : Nat
  bytes : Nat
  dom : Nat
  acc : Access
  keeps : Keeps
  dflt : Nat
  deriving DecidableEq, Repr

/-- Entries 1xxxh. -/
def odRows1xxx : List OdRow := [
  -- Device type
  ⟨0x1000, 0, 1, 4, 0, .ro, .f, 0x4B411664⟩,
  -- Unit serial
  ⟨0x1001, 0, 1, 8, 0, .ro, .f, 0x0⟩,
  -- Stepping
  ⟨0x1002, 0, 1, 1, 0, .ro, .f, 0x0⟩,
  -- Grade
  ⟨0x1008, 0, 1, 1, 0, .ro, .f, 0x41⟩,
  -- Factory certificates
  ⟨0x1010, 1, 2, 0, 2048, .ro, .f, 0x0⟩,
  -- Alias certificates
  ⟨0x1010, 3, 2, 0, 2048, .ro, .c, 0x0⟩,
  -- Measurements
  ⟨0x1011, 0, 1, 0, 336, .ro, .c, 0x0⟩,
  -- Device ID
  ⟨0x1020, 0, 1, 2, 0, .rw, .s, 0x0⟩,
  -- Steward state
  ⟨0x1030, 0, 1, 1, 0, .ro, .c, 0x0⟩,
  -- Steward restart
  ⟨0x1031, 0, 1, 1, 0, .wcmd, .c, 0x0⟩,
  -- Save configuration
  ⟨0x1050, 0, 1, 1, 0, .wcmd, .c, 0x0⟩,
  -- Operator trust anchors
  ⟨0x1100, 1, 4, 0, 2048, .rw, .s, 0x0⟩,
  -- Role bindings
  ⟨0x1101, 0, 1, 0, 1024, .rw, .s, 0x0⟩,
  -- Static IPv6 address
  ⟨0x1110, 1, 2, 0, 17, .rw, .s, 0x0⟩,
  -- Sessions open
  ⟨0x1120, 0, 1, 1, 0, .ro, .c, 0x0⟩,
  -- Management mode
  ⟨0x1130, 1, 2, 1, 0, .rw, .s, 0x0⟩,
  -- Management MAC address
  ⟨0x1131, 1, 2, 8, 0, .ro, .f, 0x0⟩,
  -- Management link
  ⟨0x1132, 1, 2, 1, 0, .ro, .c, 0x0⟩,
  -- PCIe link
  ⟨0x1200, 0, 1, 2, 0, .ro, .c, 0x0⟩,
  -- PCI identifiers
  ⟨0x1201, 0, 1, 8, 0, .ro, .f, 0x16640000⟩,
  -- IDCODE
  ⟨0x1202, 0, 1, 4, 0, .ro, .f, 0x0⟩,
  -- NAND pSLC prefix
  ⟨0x1210, 0, 1, 2, 0, .rw, .s, 0x0⟩,
  -- NAND found
  ⟨0x1211, 0, 1, 8, 0, .ro, .c, 0x0⟩,
  -- SMBus address
  ⟨0x1220, 0, 1, 1, 0, .ro, .c, 0x58⟩,
  -- Firmware slots
  ⟨0x1F00, 1, 4, 0, 16, .ro, .s, 0x0⟩,
  -- Image staging
  ⟨0x1F01, 1, 2, 0, 3145728, .rw, .s, 0x0⟩,
  -- Firmware command
  ⟨0x1F02, 0, 1, 1, 0, .wcmd, .c, 0x0⟩,
  -- Rollback floor
  ⟨0x1F03, 0, 1, 2, 0, .ro, .f, 0x0⟩,
  -- Firmware supported
  ⟨0x1F04, 0, 1, 1, 0, .ro, .c, 0x0⟩]

/-- Entries 2xxxh. -/
def odRows2xxx : List OdRow := [
  -- Partition station range
  ⟨0x2100, 1, 4, 2, 0, .rwb, .p, 0x0⟩,
  -- West stash window
  ⟨0x2110, 1, 4, 2, 0, .rwb, .p, 0x0⟩,
  -- East stash window
  ⟨0x2111, 1, 4, 2, 0, .rwb, .p, 0x0⟩,
  -- Port admission
  ⟨0x2120, 1, 28, 8, 0, .rwb, .p, 0x0⟩,
  -- Mordant range
  ⟨0x2130, 1, 4, 8, 0, .rwb, .p, 0x0⟩,
  -- Tower windows
  ⟨0x2140, 1, 4, 0, 32, .rwb, .p, 0x0⟩,
  -- Debug and access gating
  ⟨0x2200, 0, 1, 4, 0, .rwb, .p, 0x0⟩,
  -- Set-up status
  ⟨0x2FFE, 0, 1, 1, 0, .ro, .c, 0x0⟩,
  -- Seal
  ⟨0x2FFF, 0, 1, 1, 0, .rwb, .p, 0x0⟩]

/-- Entries 3xxxh. -/
def odRows3xxx : List OdRow := [
  -- Factory set header
  ⟨0x3000, 0, 1, 0, 64, .ro, .f, 0x0⟩,
  -- Equaliser starting points
  ⟨0x3010, 1, 28, 0, 170, .ro, .f, 0x0⟩,
  -- Sensor trims
  ⟨0x3020, 1, 64, 2, 0, .ro, .f, 0x0⟩,
  -- Replica baselines
  ⟨0x3030, 1, 72, 4, 0, .ro, .f, 0x0⟩,
  -- Tower timing
  ⟨0x3040, 1, 8, 0, 256, .ro, .f, 0x0⟩,
  -- Voltage-frequency curves
  ⟨0x3050, 1, 20, 0, 64, .ro, .f, 0x0⟩,
  -- Equaliser offsets
  ⟨0x3810, 1, 28, 0, 170, .rw, .u, 0x0⟩,
  -- Sensor offsets
  ⟨0x3820, 1, 64, 2, 0, .rw, .u, 0x0⟩,
  -- Voltage offset
  ⟨0x3830, 0, 1, 2, 0, .rw, .u, 0x0⟩,
  -- Restore factory
  ⟨0x3F00, 0, 1, 1, 0, .wcmd, .c, 0x0⟩]

/-- Entries 4xxxh. -/
def odRows4xxx : List OdRow := [
  -- Device reset
  ⟨0x4000, 0, 1, 1, 0, .wcmd, .c, 0x0⟩,
  -- Partition reset
  ⟨0x4001, 1, 4, 1, 0, .wcmd, .c, 0x0⟩,
  -- Job reset
  ⟨0x4002, 1, 4, 1, 0, .wcmd, .c, 0x0⟩,
  -- Port reset
  ⟨0x4003, 1, 28, 1, 0, .wcmd, .c, 0x0⟩,
  -- Last reset
  ⟨0x4004, 0, 1, 1, 0, .ro, .s, 0x0⟩,
  -- Power state
  ⟨0x4020, 0, 1, 1, 0, .ro, .c, 0x0⟩,
  -- Power state request
  ⟨0x4021, 0, 1, 1, 0, .wcmd, .c, 0x0⟩,
  -- Power state after reset
  ⟨0x4022, 0, 1, 1, 0, .rw, .s, 0x0⟩,
  -- Insertion state
  ⟨0x4030, 0, 1, 1, 0, .ro, .c, 0x0⟩,
  -- Fabric admission
  ⟨0x4031, 0, 1, 1, 0, .rw, .c, 0x0⟩,
  -- Removal request
  ⟨0x4032, 0, 1, 1, 0, .wcmd, .c, 0x0⟩,
  -- Station clock setting
  ⟨0x4100, 1, 4, 2, 0, .rw, .s, 0x44C⟩,
  -- Station clock in force
  ⟨0x4101, 1, 18, 2, 0, .ro, .c, 0x0⟩,
  -- Crossing calibration status
  ⟨0x4110, 0, 1, 1, 0, .ro, .c, 0x0⟩,
  -- Sensor temperature
  ⟨0x4200, 1, 64, 2, 0, .ro, .c, 0x0⟩,
  -- Thermal state
  ⟨0x4201, 0, 1, 1, 0, .ro, .c, 0x0⟩,
  -- Rail reading
  ⟨0x4220, 1, 14, 4, 0, .ro, .c, 0xFFFFFFFF⟩,
  -- Core rail steps
  ⟨0x4221, 1, 2, 1, 0, .ro, .s, 0x0⟩,
  -- Core rail target
  ⟨0x4222, 1, 2, 2, 0, .ro, .c, 0x0⟩,
  -- Package power limit
  ⟨0x4230, 0, 1, 2, 0, .rw, .s, 0xC80⟩,
  -- Package power
  ⟨0x4231, 0, 1, 2, 0, .ro, .c, 0x0⟩,
  -- Krytno time
  ⟨0x4400, 0, 1, 8, 0, .ro, .c, 0x0⟩,
  -- Time set
  ⟨0x4401, 0, 1, 8, 0, .wcmd, .c, 0x0⟩,
  -- Time source
  ⟨0x4402, 0, 1, 1, 0, .ro, .c, 0x1⟩,
  -- Holdover oscillator state
  ⟨0x4403, 0, 1, 1, 0, .ro, .c, 0x0⟩,
  -- Last PPS_IN
  ⟨0x4410, 0, 1, 8, 0, .ro, .c, 0x0⟩,
  -- PPS_OUT enable
  ⟨0x4411, 0, 1, 1, 0, .rw, .s, 0x1⟩,
  -- PTM sample
  ⟨0x4420, 0, 1, 0, 16, .ro, .c, 0x0⟩,
  -- CW hop latency
  ⟨0x4600, 1, 18, 1, 0, .ro, .c, 0x0⟩,
  -- CCW hop latency
  ⟨0x4601, 1, 18, 1, 0, .ro, .c, 0x0⟩,
  -- Sub-ring form
  ⟨0x4602, 1, 4, 1, 0, .ro, .c, 0x0⟩]

/-- Entries 5xxxh. -/
def odRows5xxx : List OdRow := [
  -- Port enable
  ⟨0x5000, 1, 28, 1, 0, .rw, .s, 0x1⟩,
  -- Port state
  ⟨0x5001, 1, 28, 1, 0, .ro, .c, 0x0⟩,
  -- Partner
  ⟨0x5002, 1, 28, 4, 0, .ro, .c, 0x0⟩,
  -- One-way delay D
  ⟨0x5003, 1, 28, 2, 0, .ro, .c, 0x0⟩,
  -- Lane map in force
  ⟨0x5004, 1, 28, 2, 0, .ro, .c, 0x0⟩,
  -- Port command
  ⟨0x5005, 1, 28, 1, 0, .wcmd, .c, 0x0⟩,
  -- Lane degrade threshold
  ⟨0x5006, 0, 1, 4, 0, .rw, .s, 0x2710⟩,
  -- Electrical mode
  ⟨0x5007, 1, 28, 1, 0, .rw, .s, 0x0⟩,
  -- Last refusal
  ⟨0x5008, 1, 28, 1, 0, .ro, .c, 0x0⟩,
  -- Scheduled route table
  ⟨0x5100, 1, 4, 0, 16368, .rw, .c, 0x0⟩,
  -- Multicast tree table
  ⟨0x5101, 1, 4, 0, 32768, .rw, .c, 0x0⟩,
  -- Reduce group table
  ⟨0x5102, 1, 4, 0, 8192, .rw, .c, 0x0⟩,
  -- Open route table
  ⟨0x5200, 0, 1, 0, 65536, .rw, .s, 0x0⟩,
  -- Open landing window
  ⟨0x5201, 1, 4, 8, 0, .rw, .c, 0x0⟩,
  -- Open mesh run
  ⟨0x5202, 0, 1, 4, 0, .rw, .s, 0x2003A0⟩,
  -- Time role
  ⟨0x5400, 0, 1, 2, 0, .rw, .s, 0x1F1F⟩,
  -- Time status
  ⟨0x5401, 0, 1, 4, 0, .ro, .c, 0x0⟩,
  -- Hold group
  ⟨0x5500, 1, 4, 8, 0, .rw, .c, 0x0⟩]

/-- Entries 6xxxh. -/
def odRows6xxx : List OdRow := [
  -- Job state
  ⟨0x6000, 1, 4, 1, 0, .ro, .c, 0x0⟩,
  -- Job load
  ⟨0x6001, 1, 4, 0, 16, .wcmd, .c, 0x0⟩,
  -- Job end
  ⟨0x6002, 1, 4, 1, 0, .wcmd, .c, 0x0⟩,
  -- Job unload
  ⟨0x6003, 1, 4, 1, 0, .wcmd, .c, 0x0⟩,
  -- Job end time
  ⟨0x6004, 1, 4, 8, 0, .ro, .j, 0x0⟩,
  -- First fault
  ⟨0x6005, 1, 4, 2, 0, .ro, .j, 0x0⟩,
  -- Protection plan
  ⟨0x6010, 0, 1, 0, 512, .rw, .s, 0x0⟩,
  -- Array shape in force
  ⟨0x6120, 1, 18, 1, 0, .ro, .j, 0x0⟩,
  -- Job numeric status
  ⟨0x6121, 1, 18, 1, 0, .ro, .j, 0x0⟩,
  -- Lane split in force
  ⟨0x6122, 1, 18, 1, 0, .ro, .j, 0x4⟩,
  -- Job random key
  ⟨0x6130, 1, 4, 8, 0, .rw, .j, 0x0⟩,
  -- Shadow pool slots
  ⟨0x6140, 1, 4, 4, 0, .rw, .s, 0x0⟩,
  -- Epoch state
  ⟨0x6141, 1, 4, 1, 0, .ro, .c, 0x0⟩,
  -- Load status
  ⟨0x6150, 1, 4, 1, 0, .ro, .c, 0x0⟩,
  -- Hold stall limit
  ⟨0x6151, 1, 4, 4, 0, .rw, .s, 0x3E8⟩,
  -- Contract in force
  ⟨0x6152, 1, 4, 1, 0, .ro, .j, 0x0⟩,
  -- Calendar frame counter
  ⟨0x6153, 1, 4, 8, 0, .ro, .j, 0x0⟩,
  -- Mordant timeout
  ⟨0x6160, 1, 4, 4, 0, .rw, .s, 0xF4240⟩,
  -- Reduction status
  ⟨0x6161, 1, 4, 1, 0, .ro, .j, 0x0⟩,
  -- Lost-step bound
  ⟨0x6170, 1, 4, 2, 0, .rw, .s, 0x10⟩,
  -- Securing mordant
  ⟨0x6171, 1, 4, 2, 0, .rw, .c, 0xFFFF⟩,
  -- Job record address
  ⟨0x6172, 1, 4, 8, 0, .rw, .c, 0x0⟩,
  -- Secured ranges
  ⟨0x6173, 1, 4, 0, 1024, .rw, .c, 0x0⟩,
  -- Securing runs
  ⟨0x6174, 1, 4, 0, 192, .rw, .c, 0x0⟩,
  -- Tier plan
  ⟨0x6175, 1, 4, 2, 0, .rw, .s, 0x0⟩,
  -- Partner target
  ⟨0x6176, 1, 4, 8, 0, .rw, .c, 0x0⟩,
  -- Mirror reserve
  ⟨0x6177, 1, 4, 8, 0, .rw, .s, 0x0⟩,
  -- Sepia share
  ⟨0x6178, 1, 4, 4, 0, .rw, .s, 0x0⟩,
  -- Restore request
  ⟨0x6179, 1, 4, 0, 32, .wcmd, .c, 0x0⟩,
  -- Images held
  ⟨0x617A, 1, 4, 0, 97, .ro, .c, 0x0⟩,
  -- Settled steps
  ⟨0x617B, 1, 4, 0, 64, .ro, .c, 0x0⟩,
  -- Sepia tier state
  ⟨0x617C, 0, 1, 4, 0, .ro, .s, 0x2000000⟩,
  -- Sepia rated cycles
  ⟨0x617D, 0, 1, 4, 0, .rw, .s, 0xC350⟩,
  -- Sepia program rate
  ⟨0x617E, 0, 1, 4, 0, .ro, .c, 0x0⟩,
  -- Shared-store commit
  ⟨0x617F, 1, 4, 8, 0, .wcmd, .c, 0x0⟩]

/-- Entries 7xxxh. -/
def odRows7xxx : List OdRow := [
  -- Fault log
  ⟨0x7000, 0, 1, 0, 131072, .ro, .s, 0x0⟩,
  -- Log head
  ⟨0x7001, 0, 1, 4, 0, .ro, .s, 0x0⟩,
  -- Log acknowledge
  ⟨0x7002, 0, 1, 2, 0, .wcmd, .c, 0x0⟩,
  -- Station health
  ⟨0x7010, 1, 18, 1, 0, .ro, .s, 0x0⟩,
  -- Last pass complete
  ⟨0x7011, 1, 4, 8, 0, .ro, .c, 0xFFFFFFFFFFFFFFFF⟩,
  -- Risk estimate
  ⟨0x7013, 1, 4, 1, 0, .ro, .c, 0xFF⟩,
  -- Masked mismatch threshold
  ⟨0x7014, 0, 1, 2, 0, .rw, .s, 0x8⟩,
  -- Clean history
  ⟨0x7015, 0, 1, 4, 0, .ro, .s, 0x0⟩,
  -- Breach events
  ⟨0x7016, 1, 4, 4, 0, .ro, .c, 0x0⟩,
  -- Patrol scrub period
  ⟨0x7030, 0, 1, 2, 0, .rw, .s, 0x18⟩,
  -- Stretch warning level
  ⟨0x7040, 0, 1, 1, 0, .rw, .s, 0x30⟩]

/-- Entries 8xxxh. -/
def odRows8xxx : List OdRow := [
  -- Station state
  ⟨0x8000, 1, 18, 1, 0, .ro, .s, 0x0⟩,
  -- Good stations
  ⟨0x8001, 0, 1, 1, 0, .ro, .s, 0x12⟩,
  -- Row map in force
  ⟨0x8010, 1, 18, 8, 0, .ro, .s, 0x0⟩,
  -- Factory row map
  ⟨0x8011, 1, 18, 8, 0, .ro, .f, 0x0⟩,
  -- Tower state
  ⟨0x8030, 1, 8, 1, 0, .ro, .s, 0x0⟩,
  -- Spare banks left
  ⟨0x8031, 1, 8, 1, 0, .ro, .s, 0x20⟩,
  -- Bank retirement threshold
  ⟨0x8032, 0, 1, 2, 0, .rw, .s, 0x100⟩,
  -- Spares left
  ⟨0x8040, 1, 28, 1, 0, .ro, .s, 0x3⟩,
  -- Port repair state
  ⟨0x8041, 1, 28, 1, 0, .ro, .s, 0x0⟩,
  -- Restore factory repair maps
  ⟨0x8F00, 0, 1, 1, 0, .wcmd, .c, 0x0⟩]

/-- Entries 9xxxh. -/
def odRows9xxx : List OdRow := [
  -- Isolation runs
  ⟨0x9000, 1, 18, 4, 0, .ro, .c, 0x0⟩,
  -- Witness mismatches masked
  ⟨0x9010, 1, 18, 4, 0, .ro, .c, 0x0⟩,
  -- Witness checks skipped
  ⟨0x9011, 1, 18, 4, 0, .ro, .c, 0x0⟩,
  -- Test slices run
  ⟨0x9020, 1, 18, 4, 0, .ro, .c, 0x0⟩,
  -- Routing drops
  ⟨0x9021, 1, 4, 4, 0, .ro, .c, 0x0⟩,
  -- Corrected sectors
  ⟨0x9030, 1, 8, 4, 0, .ro, .c, 0x0⟩,
  -- Uncorrectable sectors
  ⟨0x9031, 1, 8, 4, 0, .ro, .c, 0x0⟩,
  -- Madder steps skipped
  ⟨0x9032, 1, 4, 4, 0, .ro, .c, 0x0⟩,
  -- Fetches dropped by cancel
  ⟨0x9040, 1, 18, 4, 0, .ro, .c, 0x0⟩,
  -- Stash words corrected
  ⟨0x9041, 1, 2, 4, 0, .ro, .c, 0x0⟩,
  -- Stash words poisoned
  ⟨0x9042, 1, 2, 4, 0, .ro, .c, 0x0⟩,
  -- Held windows
  ⟨0x9050, 1, 4, 4, 0, .ro, .c, 0x0⟩,
  -- Raises
  ⟨0x9051, 1, 18, 4, 0, .ro, .c, 0x0⟩,
  -- Measured test share
  ⟨0x9052, 1, 18, 2, 0, .ro, .j, 0x0⟩,
  -- Late flits
  ⟨0x9053, 1, 16, 4, 0, .ro, .c, 0x0⟩,
  -- Stretched cycles
  ⟨0x9060, 1, 73, 4, 0, .ro, .c, 0x0⟩,
  -- Margin warning frames
  ⟨0x9061, 1, 73, 4, 0, .ro, .c, 0x0⟩,
  -- Hangs detected
  ⟨0x9062, 1, 73, 4, 0, .ro, .c, 0x0⟩,
  -- Reference losses
  ⟨0x9063, 0, 1, 4, 0, .ro, .c, 0x0⟩,
  -- Codewords corrected
  ⟨0x9070, 1, 28, 4, 0, .ro, .c, 0x0⟩,
  -- Codewords uncorrectable
  ⟨0x9071, 1, 28, 4, 0, .ro, .c, 0x0⟩,
  -- Block errors
  ⟨0x9072, 1, 28, 4, 0, .ro, .c, 0x0⟩,
  -- Replays
  ⟨0x9073, 1, 28, 4, 0, .ro, .c, 0x0⟩,
  -- Ack timeouts
  ⟨0x9074, 1, 28, 4, 0, .ro, .c, 0x0⟩,
  -- HOLD sight gaps
  ⟨0x9075, 1, 28, 4, 0, .ro, .c, 0x0⟩,
  -- Port losses
  ⟨0x9076, 1, 28, 4, 0, .ro, .c, 0x0⟩,
  -- Open blocks unroutable
  ⟨0x9080, 1, 28, 4, 0, .ro, .c, 0x0⟩,
  -- Mordant saturations
  ⟨0x9081, 1, 4, 4, 0, .ro, .c, 0x0⟩,
  -- Blocks discarded without a job
  ⟨0x9082, 1, 4, 4, 0, .ro, .c, 0x0⟩,
  -- Hold links refused
  ⟨0x9083, 1, 28, 4, 0, .ro, .c, 0x0⟩,
  -- Group faults
  ⟨0x9084, 1, 4, 4, 0, .ro, .c, 0x0⟩,
  -- Secures skipped
  ⟨0x9090, 1, 4, 4, 0, .ro, .c, 0x0⟩,
  -- Lost-step holds
  ⟨0x9091, 1, 4, 4, 0, .ro, .c, 0x0⟩,
  -- Epochs aborted
  ⟨0x9092, 1, 4, 4, 0, .ro, .c, 0x0⟩,
  -- Host requests refused
  ⟨0x90A0, 1, 5, 4, 0, .ro, .c, 0x0⟩,
  -- Throttle episodes
  ⟨0x90A1, 0, 1, 4, 0, .ro, .c, 0x0⟩]

/-- Every entry of the dictionary. -/
def odRows : List OdRow :=
  odRows1xxx ++ odRows2xxx ++ odRows3xxx ++ odRows4xxx ++ odRows5xxx ++ odRows6xxx ++ odRows7xxx ++ odRows8xxx ++ odRows9xxx

/-- The row of an entry; `none` for an index and sub-index that the dictionary does not hold. -/
def odRow (idx sub : Nat) : Option OdRow :=
  odRows.find? fun r => r.idx = idx && decide (r.first ≤ sub) && decide (sub < r.first + r.count)

/-- Default of a numeric entry. The factory spares of a grade A unit are S4 and S13 (R8, assumption log 3). -/
def odDflt (idx sub : Nat) : Nat :=
  if idx = 0x8000 ∧ (sub = 5 ∨ sub = 14) then 1
  else match odRow idx sub with
    | some r => r.dflt
    | none => 0

end Sys2Proof.Machine
end

