-- ==== Sys2Proof/Machine/Ops.lean ====
section
/-!
DEFINITION. The operations that every family shares: stations and partitions by number, dictionary registers, memory with poison,
windows, mordants, fault records and the end of a job.
-/
namespace Sys2Proof.Machine

/-! ### Parts of the state -/

def State.stn (s : State) (st : St) : Station := vget s.stations st
def State.modSt (s : State) (st : St) (f : Station → Station) : State := { s with stations := vmod s.stations st f }
def State.prt (s : State) (p : Part) : Partition := vget s.parts p
def State.modPart (s : State) (p : Part) (f : Partition → Partition) : State := { s with parts := vmod s.parts p f }
def State.twr (s : State) (t : Twr) : Tower := vget s.towers t
def State.modTwr (s : State) (t : Twr) (f : Tower → Tower) : State := { s with towers := vmod s.towers t f }
def State.emit (s : State) (o : Output) : State := { s with out := s.out ++ [o] }

/-- The outcome of a command that takes place. -/
def next (s : State) : Host.Outcome State Fault Refusal := .next s

def Station.lane (x : Station) : Lane → LaneSt
  | .cw => x.cw
  | .ccw => x.ccw

def Station.modLane (x : Station) (l : Lane) (f : LaneSt → LaneSt) : Station :=
  match l with
  | .cw => { x with cw := f x.cw }
  | .ccw => { x with ccw := f x.ccw }

/-! ### Dictionary registers -/

def odKey (idx sub : Nat) : Nat := idx * 256 + sub

/-- Value of a numeric entry that has no other home (R16). The map lists values only where they differ from the
default, as a difference coded by its presence. -/
def State.reg (s : State) (idx sub : Nat) : Nat :=
  match s.dict.find? fun e => e.1 = odKey idx sub with
  | some e => e.2.toNat
  | none => odDflt idx sub

/-- Write that keeps the list sorted and drops an entry equal to its default. -/
def dictPut (d : W64) : Sparse W64 → Nat → W64 → Sparse W64 := fun m a x => sput d m a x

def State.setReg (s : State) (idx sub v : Nat) : State :=
  { s with dict := dictPut (BitVec.ofNat 64 (odDflt idx sub)) s.dict (odKey idx sub) (BitVec.ofNat 64 v) }

/-- A counter that saturates at FFFF_FFFFh. -/
def State.count (s : State) (idx sub : Nat) (n : Nat := 1) : State :=
  s.setReg idx sub (min (s.reg idx sub + n) 0xFFFFFFFF)

/-- A class S entry that the device itself changes is saved as it changes (R171, R413, R418). -/
def State.saveReg (s : State) (idx sub v : Nat) : State :=
  let s := s.setReg idx sub v
  { s with saved := dictPut (BitVec.ofNat 64 (odDflt idx sub)) s.saved (odKey idx sub) (BitVec.ofNat 64 v) }

/-- Bytes of a DOMAIN entry; an entry not listed is at its default, all zero. -/
def domGet : List (Nat × List Byte) → Nat → List Byte
  | [], _ => []
  | (k, v) :: m, a => if a = k then v else domGet m a

/-- Write of a DOMAIN entry; an empty or all-zero value leaves no entry. -/
def domPut : List (Nat × List Byte) → Nat → List Byte → List (Nat × List Byte)
  | [], a, x => if x.all (· = 0) then [] else [(a, x)]
  | (k, v) :: m, a, x =>
    if a < k then (if x.all (· = 0) then (k, v) :: m else (a, x) :: (k, v) :: m)
    else if a = k then (if x.all (· = 0) then m else (a, x) :: m)
    else (k, v) :: domPut m a x

def State.dom (s : State) (idx sub : Nat) : List Byte := domGet s.doms (odKey idx sub)
def State.setDom (s : State) (idx sub : Nat) (v : List Byte) : State := { s with doms := domPut s.doms (odKey idx sub) v }

/-- The n-byte little-endian value at byte offset `off` of a DOMAIN entry (R12). -/
def domNat (d : List Byte) (off n : Nat) : Nat := leNat ((d.drop off).take n)

/-! ### Partitions, ranges and windows -/

/-- Station range of a partition (OD 2100h, Table 02-3): enabled, first and last station. -/
def State.rangeOf (s : State) (p : Part) : Option (Nat × Nat) :=
  let v := s.reg 0x2100 (p.val + 1)
  if bit v 15 then some (bits v 4 0, bits v 12 8) else none

/-- Stations of a range in CW order (R45). -/
def rangeStations (first last : Nat) : List St :=
  (List.range ((last + 18 - first) % 18 + 1)).map fun i => fin ((first + i) % 18)

def State.inRange (s : State) (p : Part) (st : St) : Bool :=
  match s.rangeOf p with
  | some (a, b) => (rangeStations a b).contains st
  | none => false

/-- The partition whose range holds a station (R45). -/
def State.ownerOf (s : State) (st : St) : Option Part := (List.finRange 4).find? fun p => s.inRange p st

/-- The partition whose running job the station is active in. -/
def State.jobAt (s : State) (st : St) : Option Part :=
  (List.finRange 4).find? fun p => (s.prt p).jobState = 3 && (s.prt p).pos.contains st

/-- Job loaded in a partition (R549). -/
def State.loaded (s : State) (p : Part) : Bool := (s.prt p).jobState ≠ 0

/-- Active station count n of a bound job. -/
def Partition.n (x : Partition) : Nat := x.pos.length

/-- Ring position of a station (R41). -/
def Partition.posOf (x : Partition) (st : St) : Nat := x.pos.idxOf st

/-- Tower window of a partition (OD 2140h): byte base and end within the tower. -/
def State.towerWindow (s : State) (p : Part) (t : Twr) : Option (Nat × Nat) :=
  let v := domNat (s.dom 0x2140 (p.val + 1)) (4 * t.val) 4
  if bit v 31 then some (bits v 8 0 * 2 ^ 24, (bits v 8 0 + bits v 25 16) * 2 ^ 24) else none

/-- Stash window of a partition (OD 2110h, 2111h): byte base and end within the stash. -/
def State.stashWindow (s : State) (p : Part) (east : Bool) : Option (Nat × Nat) :=
  let v := s.reg (if east then 0x2111 else 0x2110) (p.val + 1)
  if bit v 15 then some (bits v 14 8 * 2 ^ 20, (bits v 14 8 + bits v 6 0) * 2 ^ 20) else none

/-- Where a device address lies (R161, R211). -/
inductive Place where
  | tower (t : Twr) (off : Nat)
  | stash (east : Bool) (off : Nat)
  | nowhere
  deriving DecidableEq, Repr

def place (a : Nat) : Place :=
  if a < 2 ^ 36 then .tower (fin (a / 2 ^ 33)) (a % 2 ^ 33)
  else if 0x1000000000 ≤ a ∧ a < 0x1006000000 then .stash false (a - 0x1000000000)
  else if 0x1010000000 ≤ a ∧ a < 0x1016000000 then .stash true (a - 0x1010000000)
  else .nowhere

/-- An extent lies wholly within the partition's windows (R199, R214): every byte of it in a tower lies in that tower's window, so an extent may run on from the end of one
tower into the next; an extent in a stash lies in the window of that stash. -/
def State.inWin (s : State) (p : Part) (a n : Nat) : Bool :=
  match place a with
  | .tower _ _ => a + n ≤ 2 ^ 36 && (List.finRange 8).all fun t =>
      let b := t.val * 2 ^ 33
      a + max n 1 ≤ b || b + 2 ^ 33 ≤ a || match s.towerWindow p t with
        | some (lo, hi) => lo ≤ a - b && a + n ≤ b + hi
        | none => false
  | .stash e off => match s.stashWindow p e with
    | some (lo, hi) => lo ≤ off && off + n ≤ hi
    | none => false
  | .nowhere => false

/-- As `inWin`, within one named tower only. -/
def State.inTowerWin (s : State) (p : Part) (t : Twr) (a n : Nat) : Bool :=
  match place a with
  | .tower u off => u = t && off + n ≤ 2 ^ 33 && s.inWin p a n
  | _ => false

/-- Mordant range of a partition (OD 2130h). -/
def State.morRange (s : State) (p : Part) : Option (Nat × Nat) :=
  let v := s.reg 0x2130 (p.val + 1)
  if bit v 63 then some (bits v 31 16, bits v 15 0) else none

def State.inMorRange (s : State) (p : Part) (m : Nat) : Bool :=
  match s.morRange p with
  | some (a, b) => a ≤ m && m ≤ b
  | none => false

/-- The station that holds a mordant of the partition (R357). -/
def State.morHolder (s : State) (p : Part) (m : Nat) : Option St :=
  match s.morRange p with
  | some (a, _) => if (s.prt p).pos = [] then none else (s.prt p).pos[(m - a) % (s.prt p).n]?
  | none => none

/-- A tower serves accesses: neither retired nor lost (R26, R174). -/
def State.towerUp (s : State) (t : Twr) : Bool := s.reg 0x8030 (t.val + 1) < 2 && !(s.twr t).lost

/-- The partition in whose tower window a tower address lies. -/
def State.windowOwner (s : State) (a : Nat) : Option Part :=
  match place a with
  | .tower t off => (List.finRange 4).find? fun p => match s.towerWindow p t with
    | some (lo, hi) => lo ≤ off && off < hi
    | none => false
  | _ => none

/-- The tower serves an access to an address: a restart of the partition that holds the address has not retired it for that partition (R173). -/
def State.towerServes (s : State) (t : Twr) (a : Nat) : Bool :=
  s.towerUp t && match s.windowOwner a with
    | some p => !vget (s.twr t).gone p
    | none => true

def halfNo : Half → Fin 2
  | .west => 0
  | .east => 1

/-- The islands of a half of the compute die run (R490, R492). -/
def State.halfUp (s : State) (h : Half) : Bool := s.pwr.dieUp && !s.pwr.off && !vget s.pwr.stopped (halfNo h)

/-! ### Mordants (R358 to R360) -/

def mordant0 : Mordant := ⟨0, false⟩

def State.mor (s : State) (m : Nat) : Mordant := sget mordant0 s.mordants m
def State.setMor (s : State) (m : Nat) (x : Mordant) : State := { s with mordants := sput mordant0 s.mordants m x }

/-- An add, saturating at the top and counted in OD 9081h (R359). -/
def State.morAdd (s : State) (p : Part) (m : Nat) (v : Nat) : State :=
  let c := (s.mor m).count.toNat + v
  if c < 2 ^ 64 then s.setMor m { s.mor m with count := BitVec.ofNat 64 c }
  else (s.setMor m { s.mor m with count := BitVec.allOnes 64 }).count 0x9081 (p.val + 1)

/-! ### Memory (R161, R166, R167, R211, R213) -/

/-- Poison kinds of a tower sector (R167). -/
def towerPoison : Byte := 1
def carriedPoison : Byte := 2

def State.byte (s : State) (a : Nat) : Byte := sget 0 s.mem a

/-- Check state of the sector that holds a tower address: 0 clean. -/
def State.sector (s : State) (a : Nat) : Byte := sget 0 s.poison (a / 64)

/-- A byte of the current state, marked when its sector or stash word is poisoned. -/
def State.pbyte (s : State) (a : Nat) : PByte :=
  match place a with
  | .tower _ _ => ⟨s.byte a, s.sector a ≠ 0⟩
  | .stash _ _ => ⟨s.byte a, s.stashPoison.contains (a / 8)⟩
  | .nowhere => ⟨0, true⟩

def State.memRead (s : State) (a n : Nat) : List PByte := (List.range n).map fun i => s.pbyte (a + i)

def State.putByte (s : State) (a : Nat) (b : Byte) : State := { s with mem := sput 0 s.mem a b }

def State.putBytes (s : State) (a : Nat) : List Byte → State
  | [] => s
  | b :: l => (s.putByte a b).putBytes (a + 1) l

def State.setSector (s : State) (sec : Nat) (k : Byte) : State := { s with poison := sput 0 s.poison sec k }

/-- Units of `u` bytes that an extent touches. -/
def unitsOf (u a n : Nat) : List Nat :=
  if n = 0 then [] else (List.range ((a + n - 1) / u + 1 - a / u)).map fun i => a / u + i

/-- Poisoned bytes of a write that fall into unit `k` of `u` bytes. -/
def unitPoisoned (u k a : Nat) (l : List PByte) : Bool :=
  l.zipIdx.any fun (x, i) => x.p && (a + i) / u = k

/-- A plain write to a tower (R167): a sector that takes poison carries it; a part of a poisoned sector leaves it as it is; a whole sector
replaces the pattern. -/
def State.towerWrite (s : State) (a : Nat) (l : List PByte) : State :=
  let s1 := (unitsOf 64 a l.length).foldl (fun s k =>
    let whole := a ≤ 64 * k && 64 * k + 64 ≤ a + l.length
    let old := sget 0 s.poison k
    if unitPoisoned 64 k a l then (if whole || old = 0 then s.setSector k carriedPoison else s)
    else if whole then s.setSector k 0 else s) s
  s1.putBytes a (l.map (·.b))

/-- A write to a stash (R213): it replaces each word it covers and its poison. A write that covers part of a poisoned word leaves the word poisoned:
DESIGN CHOICE, the rule speaks of whole words (assumption log 142). -/
def State.stashWrite (s : State) (a : Nat) (l : List PByte) : State :=
  let s1 := (unitsOf 8 a l.length).foldl (fun s k =>
    let whole := a ≤ 8 * k && 8 * k + 8 ≤ a + l.length
    if unitPoisoned 8 k a l then { s with stashPoison := setAdd s.stashPoison k }
    else if whole then { s with stashPoison := setDel s.stashPoison k } else s) s
  s1.putBytes a (l.map (·.b))

/-- A write to wherever the address lies. -/
def State.memWrite (s : State) (a : Nat) (l : List PByte) : State :=
  match place a with
  | .tower _ _ => s.towerWrite a l
  | .stash _ _ => s.stashWrite a l
  | .nowhere => s

def clean (l : List Byte) : List PByte := l.map fun b => ⟨b, false⟩
def anyPoison (l : List PByte) : Bool := l.any (·.p)
def rawBytes (l : List PByte) : List Byte := l.map (·.b)

/-- Little-endian value of marked bytes. -/
def leP (l : List PByte) : Nat := leNat (rawBytes l)

/-! ### Local store (R207, R216) -/

def lsSize : Nat := 2 ^ 25

/-- A byte of local store. An offset past its end wraps (assumption log 13). -/
def Station.lsByte (x : Station) (a : Nat) : PByte := ⟨sget 0 x.ls (a % lsSize), x.lsPoison.contains (a % lsSize / 8)⟩
def Station.lsRead (x : Station) (a n : Nat) : List PByte := (List.range n).map fun i => x.lsByte (a + i)

def lsPutBytes : Sparse Byte → Nat → List Byte → Sparse Byte
  | m, _, [] => m
  | m, a, b :: l => lsPutBytes (sput 0 m (a % lsSize) b) (a + 1) l

/-- A write into local store; it poisons the words that take poison and clears the words it covers whole (R207). -/
def Station.lsWrite (x : Station) (a : Nat) (l : List PByte) : Station :=
  { x with
    ls := lsPutBytes x.ls a (rawBytes l)
    lsPoison := (unitsOf 8 a l.length).foldl (fun m k =>
      if unitPoisoned 8 k a l then setAdd m (k % (lsSize / 8))
      else if a ≤ 8 * k && 8 * k + 8 ≤ a + l.length then setDel m (k % (lsSize / 8)) else m) x.lsPoison }

/-! ### Fault records (R17, R18, R413, R414) -/

/-- Where a record is located: LKIND, LOC, LOC2 and the program counter (Table 13-6). -/
structure Site where
  lkind : Nat
  loc : Nat
  loc2 : Nat
  pc : Nat
  deriving DecidableEq, Repr

def noPc : Nat := 0xFFFFFFFF

def siteStation (st : St) (loc2 pc : Nat) : Site := ⟨0, st.val, loc2, pc⟩

/-- Bytes 0 to 29 of a record, as bits [239:0] of Table 13-6. -/
def FaultRec.body (r : FaultRec) : Nat :=
  r.cls.toNat + r.part.val * 2 ^ 8 + (if r.lost then 2 ^ 13 else 0) + (if r.after then 2 ^ 14 else 0) +
  (if r.nojob then 2 ^ 15 else 0) + r.lkind * 2 ^ 20 + r.loc.toNat * 2 ^ 24 + r.loc2.toNat * 2 ^ 32 +
  r.detail.toNat * 2 ^ 48 + r.pc.toNat * 2 ^ 64 + r.beat.toNat * 2 ^ 96 + r.time.toNat * 2 ^ 160 + r.seq.toNat * 2 ^ 224

/-- The 32 bytes of a record, CHK included (R413, R548). -/
def FaultRec.bytes (r : FaultRec) : List Byte :=
  leBytes 30 r.body ++ leBytes 2 (crc16 (leBytes 30 r.body))

/-- The dictionary is available (OD 1030h.00 = 02h or 03h, Table 15-3). -/
def State.stewardUp (s : State) : Bool := s.reg 0x1030 0 = 2 || s.reg 0x1030 0 = 3

/-! ### Functions, sessions and messages (R476, R479) -/

def State.fn (s : State) (f : Pf) : HostFn := vget s.host f
def State.modFn (s : State) (f : Pf) (g : HostFn → HostFn) : State := { s with host := vmod s.host f g }
def State.modStw (s : State) (g : Steward → Steward) : State := { s with stw := g s.stw }
def State.modPwr (s : State) (g : Power → Power) : State := { s with pwr := g s.pwr }
def State.modSess (s : State) (n : Fin 8) (g : Session → Session) : State :=
  s.modStw fun x => { x with sessions := vmod x.sessions n fun y => y.map g }

/-- A vector of a function, gated by Bus Master Enable alone (R513, R514). -/
def State.vector (s : State) (f : Pf) (vec : Nat) : State := if (s.fn f).cfg.bme then s.emit (.msix f vec) else s

/-- The 16 B header and value of a message (Table 15-12); `flags` are bits [23:16]. -/
def message (kind flags status seq idx sub off : Nat) (data : List Byte) : List Byte :=
  leBytes 4 (1 + kind * 2 ^ 8 + flags * 2 ^ 16 + status * 2 ^ 24) ++ leBytes 2 seq ++ leBytes 2 idx ++ leBytes 2 sub ++
  leBytes 2 data.length ++ leBytes 4 off ++ data

/-- The partition that owns a port (OD 2120h). -/
def State.portOwner (s : State) (p : PortId) : Option Part :=
  let v := s.reg 0x2120 (p.val + 1)
  if bit v 63 && bit v 55 then some (fin (bits v 57 56)) else none

/-! ### Roles (R469, R470, R501) -/

/-- No trust anchor and no binding (R501). -/
def State.unprovisioned (s : State) : Bool :=
  ((List.range 4).all fun i => s.dom 0x1100 (i + 1) = []) && (s.dom 0x1101 0).all (· = 0)

/-- Role of a path. -/
def State.roleOf (s : State) : Via → Role
  | .pf f =>
    if f.val = 0 then
      if s.unprovisioned then .operator
      else match bits (s.reg 0x2200 0) 5 4 with
        | 1 => .operator
        | 2 => .observer
        | _ => .none
    else .partition (fin (f.val - 1))
  | .session n _ => match vget s.stw.sessions n with
    | some x => x.role
    | none => .none

/-- What the sub-indices of an entry number. -/
inductive Per where
  | partition | station | port | tower | other
  deriving DecidableEq, Repr

def OdRow.per (r : OdRow) : Per :=
  if r.first = 0 || r.idx < 0x2000 then .other
  else match r.count with
    | 4 => .partition
    | 18 => .station
    | 28 => .port
    | 8 => .tower
    | _ => .other

/-- Sub-index 00h of an index with entries from 01h upward: the highest sub-index (R475). -/
def highestSub (idx : Nat) : Option Nat :=
  match odRows.filter fun r => r.idx = idx && decide (0 < r.first) with
  | [] => none
  | l => some ((l.map fun r => r.first + r.count - 1).foldl max 0)

/-- A partition reads what Table 15-10 gives it. -/
def State.partReads (s : State) (p : Part) (idx sub : Nat) : Bool :=
  (0x1000 ≤ idx && idx ≤ 0x1FFF) || idx = 0x7000 ||
  match odRow idx sub with
  | none => false
  | some r => match r.per with
    | .partition => sub = p.val + 1
    | .station => (List.finRange 18).any fun st => st.val + 1 = sub && s.inRange p st
    | .port => (List.finRange 28).any fun q => q.val + 1 = sub && s.portOwner q = some p
    | .tower => (List.finRange 8).any fun t => t.val + 1 = sub && (s.towerWindow p t).isSome
    | .other => false

def State.mayRead (s : State) (role : Role) (idx sub : Nat) : Bool :=
  match role with
  | .operator => true
  | .observer => true
  | .partition p => s.partReads p idx sub
  | .peer => (0x1000 ≤ idx && idx ≤ 0x1FFF) || idx = 0x6177
  | .none => false

def State.mayWrite (s : State) (role : Role) (idx sub : Nat) : Bool :=
  match role with
  | .operator => true
  | .partition p => match odRow idx sub with
    | none => false
    | some r => match r.per with
      | .partition => 0x5000 ≤ idx && idx ≤ 0x6FFF && sub = p.val + 1
      | .port => 0x5000 ≤ idx && idx ≤ 0x5FFF && (List.finRange 28).any fun q => q.val + 1 = sub && s.portOwner q = some p
      | _ => false
  | _ => false

/-- A role may read a value that changed; of the fault records a partition reads its own (R470, R481). -/
def State.mayHear (s : State) (role : Role) (idx sub : Nat) (v : List Byte) : Bool :=
  s.mayRead role idx sub && match role with
    | .partition p => idx ≠ 0x7000 || bits (leNat (v.take 2)) 9 8 = p.val
    | _ => true

/-- A notification to one function: its ring, or the overflow flag when the ring is full (R479). -/
def State.notifyFn (s : State) (idx sub : Nat) (v : List Byte) (f : Pf) : State :=
  if !s.mayHear (s.roleOf (.pf f)) idx sub v then s
  else
    let x := s.fn f
    if (x.head + 1) % 64 = x.tail then s.modFn f fun x => { x with ovf := true }
    else (s.modFn f fun x => { x with
      ring := sput [] x.ring x.head (fit 0 64 (message 4 0 0 0 idx sub 0 v)), head := (x.head + 1) % 64 }).vector f 1

/-- A notification to every function and session whose role may read the value (R481). One that falls into a restart of the steward waits for its step 6 (Table 15-6). -/
def State.notify (s : State) (idx sub : Nat) (v : List Byte) : State :=
  if !s.stewardUp then s.modStw fun x => { x with unsent := x.unsent.filter (· ≠ (idx, sub)) ++ [(idx, sub)] }
  else
  let s := (List.finRange 5).foldl (fun s f => s.notifyFn idx sub v f) s
  if s.stw.sessions.toList.any (fun x => match x with
      | some y => s.mayHear y.role idx sub v
      | none => false)
  then s.emit (.notify (BitVec.ofNat 16 idx) (BitVec.ofNat 8 sub) v) else s

/-! ### The fault log -/

/-- Oldest record of a full log not yet acknowledged: it is about to be overwritten (R415). `acked` counts acknowledged records. -/
def logLost (s : State) : Bool := 4096 ≤ s.faults.length && s.acked = 0

/-- A record written to the fault log: it takes SEQ, is counted in OD 7001h and posted (R413, R415, R481). -/
def State.logRec (s : State) (r : FaultRec) : State :=
  let r := { r with seq := s.seqNext, lost := r.lost || s.faultLost || logLost s }
  let full := decide (4096 ≤ s.faults.length)
  let s := { s with
    stw := { s.stw with badRecs := s.stw.badRecs.filter fun e => e.1 ≠ r.seq.toNat % 4096 }
    faults := (if full then s.faults.drop 1 else s.faults) ++ [r]
    acked := if full then s.acked - 1 else s.acked
    seqNext := s.seqNext + 1
    faultLost := false }
  ((s.saveReg 0x7001 0 (min (s.reg 0x7001 0 + 1) 0xFFFFFFFF)).emit (.record r)).notify 0x7000 0 r.bytes

/-- A record, written at once or held on the control spine while the steward restarts (Table 15-4). -/
def State.record (s : State) (r : FaultRec) : State :=
  if s.stewardUp then s.logRec r
  else if s.faultHold.length < 1024 then { s with faultHold := s.faultHold ++ [r] }
  else { s with faultHold := s.faultHold.drop 1 ++ [r], faultLost := true }

def emptyLaneQueues (l : LaneSt) : LaneSt := { l with queue := [] }

/-- What the end of its job does to a station (R206, R208, R276, R397): nothing more issues, unfired instructions are discarded, vats
close, a retry is abandoned. A test slice runs on (R159). -/
def Station.jobEnd (x : Station) : Station :=
  { x with
    sq := { x.sq with stopped := true, endPending := none, raises := [], laRaise := false, kPending := [] }
    cw := emptyLaneQueues x.cw
    ccw := emptyLaneQueues x.ccw
    ringOps := []
    vats := Vector.replicate 32 none
    books := Vector.replicate 32 none
    vatQ := Vector.replicate 32 []
    accQ := []
    drain := none
    vec := { x.vec with queue := [], op := none }
    engQ := []
    netQ := []
    morQ := []
    chkQ := []
    morReads := []
    arr := { x.arr with queue := [], refeed := [], mmas := [], load := none } }

/-- Fetches of a job's stations end dropped, each counted once in OD 9040h (R206, R208). -/
def State.dropFetches (s : State) (sts : List St) : State :=
  let gone := s.fetches.filter fun f => sts.contains f.st && !f.dropped
  let s := gone.foldl (fun s f => s.count 0x9040 (f.st.val + 1)) s
  { s with fetches := s.fetches.filter fun f => !sts.contains f.st }

def DescRec.ofJob (p : Part) (sts : List St) (d : DescRec) : Bool := sts.contains d.st && p.val < 4

/-- Queued and running routing and Madder descriptors of a partition are abandoned (R153, R185). -/
def State.abandonEngines (s : State) (p : Part) : State :=
  { s with
    towers := s.towers.map fun t => { t with mq := vset t.mq p [], settled := if vget t.mq p = [] then t.settled else vset t.settled p none }
    route := s.route.map fun g => { g with q := vset g.q p [] } }

/-- OD 6000h of a partition changes, with its notification (R481). -/
def State.setJobState (s : State) (p : Part) (v : Byte) : State :=
  (s.modPart p fun x => { x with jobState := v }).notify 0x6000 (p.val + 1) [v]

def watch0 : Watch := ⟨0, false, false, 0⟩

/-- A job's end clears every EN of the partition's watches, which do not fire (R516). -/
def State.clearWatches (s : State) (p : Part) : State :=
  s.modFn (fin (p.val + 1)) fun x => { x with
    watches := (x.watches.map fun e => (e.1, { e.2 with en := false })).filter fun e => e.2 ≠ watch0 }

/-- A partition's job ends on this device in state `v` (R18, R208, R276, R484, R485). -/
def State.endJob (s : State) (p : Part) (v : Byte) : State :=
  let sts := (s.prt p).pos
  let s := sts.foldl (fun s st => s.modSt st Station.jobEnd) s
  let s := s.dropFetches sts
  let s := s.clearWatches p
  (s.modPart p fun x => { x with
    endTime := s.time, sec := { x.sec with restore := none, arm := if x.sec.restore.isSome then 0 else x.sec.arm } }).setJobState p v

/-- The job of the partition is still running, loading or restoring. -/
def jobLive (x : Partition) : Bool := x.jobState = 1 || x.jobState = 2 || x.jobState = 3

def State.hlt (s : State) (st : St) : Health := vget s.health st
def State.modHealth (s : State) (st : St) (f : Health → Health) : State := { s with health := vmod s.health st f }

def dayNs : Nat := 86400000000000

/-- Times within the last `n` ns. -/
def within (now : W64) (n : Nat) (l : List W64) : List W64 := l.filter fun t => now.toNat < t.toNat + n

/-- `n` ns have passed since a time. A counter that has been set back counts as past it. -/
def State.passed (s : State) (at_ : W64) (n : Nat) : Bool := decide (s.time < at_) || decide (at_.toNat + n ≤ s.time.toNat)

/-- An event that breaks a clean hour sets the clean history back to 0 (R409). -/
def State.breakHour (s : State) : State := (s.modStw fun x => { x with hourBad := true }).saveReg 0x7015 0 0

/-- A station becomes suspect, or stays under observation from now (R408); the clean history breaks (R409). -/
def State.suspect (s : State) (st : St) : State :=
  let s := if s.reg 0x7010 (st.val + 1) = 0 then s.saveReg 0x7010 (st.val + 1) 1 else s
  (s.modHealth st fun h => { h with lastEvent := s.time }).breakHour

/-- A masked mismatch (R395): counted, and above OD 7014h in 24 h the station becomes suspect (R408). -/
def State.maskedMismatch (s : State) (st : St) : State :=
  let s := (s.count 0x9010 (st.val + 1)).modHealth st fun h => { h with masked := within s.time dayNs h.masked ++ [s.time] }
  if s.reg 0x7014 0 < (s.hlt st).masked.length then s.suspect st else s

/-- An event that R439 excludes falls between the opening of an image and the end of its fault-free pass; one after that pass does nothing. -/
def spoilImage (i : Image) : Image := { i with spoiled := i.spoiled || !(i.clean || i.passOk) }

/-- What a record of fault 03h or 0Ch, or of an event 0Dh, means for the clean points of its partition (R439): images that have not yet met the rest of R439 never become clean, and the
clean-required flag is set when a job ends with 03h or 0Ch, or with any fault after an event that no clean image is newer than. -/
def Secure.onFault (x : Secure) (cls detail : Nat) (now : W64) (ends : Bool) : Secure :=
  let spoils := cls = 3 || cls = 0x0C || (cls = 0x0D && detail ≤ 0x0D02)
  let dirty := match x.breach with
    | some t => !(x.images.any fun i => i.clean && t.toNat < i.opened.toNat)
    | none => false
  { x with
    images := if spoils then x.images.map spoilImage else x.images
    epoch := if spoils then x.epoch.map spoilImage else x.epoch
    late := if spoils then x.late.map fun l => { l with img := spoilImage l.img } else x.late
    breach := if cls = 0x0D then some now else x.breach
    cleanReq := x.cleanReq || (ends && (cls = 3 || cls = 0x0C || dirty)) }

/-- Place of a record in the order of R18: class code, then station number; a record that no station is the place of comes after them. -/
def FaultRec.rank (r : FaultRec) : Nat := r.cls.toNat * 64 + (if r.lkind = 0 then r.loc.toNat % 32 else 63)

/-- The same fault, found again in its beat: what an instruction met stands until the beat is over, and meeting it again is no other fault (assumption log 111). Two faults without an instruction
are two: each flit or block brings its own. -/
def FaultRec.same (r q : FaultRec) : Bool :=
  r.pc.toNat ≠ noPc && r.cls = q.cls && r.part = q.part && r.nojob = q.nojob && r.lkind = q.lkind && r.loc = q.loc && r.loc2 = q.loc2 && r.detail = q.detail && r.pc = q.pc

/-- A record takes its place among those of the beat (R18). -/
def beatAdd : List FaultRec → FaultRec → List FaultRec
  | [], r => [r]
  | q :: l, r => if r.rank < q.rank then r :: q :: l else q :: beatAdd l r

/-- The record of a fault or event of a class for a partition, as it is detected. -/
def State.faultRec (s : State) (p : Option Part) (cls detail : Nat) (site : Site) : FaultRec :=
  let q : Part := p.getD 0
  let x := s.prt q
  let nojob := p.isNone || x.jobState = 0
  { cls := BitVec.ofNat 8 cls, part := q, lost := false
    after := !nojob && !jobLive x, nojob := nojob
    lkind := site.lkind, loc := BitVec.ofNat 8 site.loc, loc2 := BitVec.ofNat 16 site.loc2
    detail := BitVec.ofNat 16 detail, pc := BitVec.ofNat 32 site.pc
    beat := if nojob then 0 else x.frame, time := s.time, seq := s.seqNext }

/-- What a fault or event leaves beside its record: a raise of HOLD where it ends a job, what it means for clean points, the count of breaches, and the suspect station (R384, R408, R409,
R439). -/
def State.noteFault (s : State) (p : Option Part) (cls detail : Nat) (site : Site) (ends : Bool) : State :=
  let q : Part := p.getD 0
  let s := if ends then s.modPart q fun x => { x with faultRaise := true } else s
  let s := if p.isSome then s.modPart q fun x => { x with sec := x.sec.onFault cls detail s.time ends } else s
  let s := if cls = 0x0D then s.count 0x7016 (q.val + 1) else s
  if (cls = 2 || cls = 3) && site.lkind = 0 then
    (s.suspect (fin site.loc)).modHealth (fin site.loc) fun h => { h with
      faults := within s.time (30 * dayNs) h.faults ++ [s.time], isolate := true }
  else if cls = 2 || cls = 3 then s.breakHour else s

/-- Raises a fault or event of a class for a partition (R17, R18, R384). A fault of a job that still lives is kept until its beat is over, when the beat's records are
written in the order of R18 and the job ends once (assumption log 111); a fault that ends jobs is a raise of HOLD from its detection on. Any other record is written at once. -/
def State.raise (s : State) (p : Option Part) (cls detail : Nat) (site : Site) : State :=
  let q : Part := p.getD 0
  let r := s.faultRec p cls detail site
  let live := !r.nojob && jobLive (s.prt q)
  if live && s.beat.any r.same then s
  else
    let s := s.noteFault p cls detail site (live && cls ≠ 0x0D)
    if live then { s with beat := beatAdd s.beat r } else s.record r

/-- A record of the beat is written; the first of its job that ends jobs is the job's first fault and ends it (R18, R484). OD 9084h counts it whether or not the hold group of OD 5500h is
enabled: DESIGN CHOICE, R384 says each group fault (assumption log 142). -/
def State.writeRec (s : State) (r : FaultRec) : State :=
  if r.cls ≠ 0x0D && jobLive (s.prt r.part) then
    let first : W16 := s.seqNext + BitVec.ofNat 16 (if s.stewardUp then 0 else s.faultHold.length)
    let s := (s.modPart r.part fun x => { x with firstFault := first }).record r
    ((s.endJob r.part 6).abandonEngines r.part).count 0x9084 (r.part.val + 1)
  else s.record r

/-- The beat is over: its records are written, and the jobs that they end end (R18). -/
def State.beatEnd (s : State) : State := s.beat.foldl State.writeRec { s with beat := [] }

/-- A fault of the partition's job that ends it has been detected in this beat. -/
def State.struck (s : State) (p : Part) : Bool := s.beat.any fun r => r.part = p && r.cls ≠ 0x0D

/-- A fault located at a station and charged to the partition that owns it. -/
def State.faultAt (s : State) (st : St) (cls detail loc2 pc : Nat) : State :=
  s.raise (s.ownerOf st) cls detail (siteStation st loc2 pc)

/-- Fault 01h at issue (R250). -/
def State.faultIssue (s : State) (st : St) (loc2 pc : Nat) : State := s.faultAt st 1 0x0100 loc2 pc

/-- Fault 01h at firing (R250). -/
def State.faultFire (s : State) (st : St) (loc2 pc : Nat) : State := s.faultAt st 1 0x0101 loc2 pc

/-- Fault 04h for poison consumed in a station (Table 13-7). -/
def State.faultPoison (s : State) (st : St) (loc2 pc : Nat) : State := s.faultAt st 4 0x0400 loc2 pc

def noLoc2 : Nat := 0xFFFF

/-- A command whose event cannot occur in this state changes nothing (assumption log 5). -/
def noEvent (s : State) : Host.Outcome State Fault Refusal := .next s

/-- Sets the sticky numeric status of a station (R109). -/
def State.orStatus (s : State) (st : St) (ovf nv : Bool) : State :=
  s.modSt st fun x => { x with ovf := x.ovf || ovf, nv := x.nv || nv }

end Sys2Proof.Machine
end

