-- ==== Sys2Proof/Machine/Operands.lean ====
section
/-!
DEFINITION. The instruction word of a station (R246 to R274): opcodes, the fields each field map names, reserved bits, the registers an
instruction reads and writes, row lengths, and the calendar block.
-/
namespace Sys2Proof.Machine

/-- Opcode field (R246). -/
def opc (w : W128) : Nat := fld w 7 0

/-- The opcodes of Table 09-1. -/
def listedOpcodes : List Nat :=
  [0x00, 0x01, 0x02, 0x03, 0x04, 0x05, 0x10, 0x11, 0x12, 0x13, 0x14, 0x20, 0x21, 0x22, 0x30, 0x31, 0x32, 0x40, 0x41,
   0x50, 0x51, 0x52, 0x53, 0x54, 0x55, 0x56, 0x60, 0x61, 0x62, 0x70, 0x80, 0x81, 0x82, 0x83, 0x90]

/-- VAT.FETCH from own local store is not a calendar instruction (R256); MOR.ADD and MOR.SET are when CAL = 1 (R273). -/
def isCalendar (w : W128) : Bool :=
  match opc w with
  | 0x11 => fld w 42 41 ≠ 2
  | 0x12 | 0x60 | 0x61 | 0x62 | 0x70 => true
  | 0x81 | 0x82 => fbit w 45
  | _ => false

def calFields (w : W128) : List (Nat × Nat) :=
  if isCalendar w then (if fbit w 111 then [(127, 64)] else [(111, 111), (105, 64)]) else []

/-- The bits that the field map of an instruction names, for the values its other fields hold (R246, R248 to R274). -/
def namedFields (w : W128) : List (Nat × Nat) :=
  (7, 0) :: match opc w with
  | 0x01 => [(127, 64), (12, 8)]
  | 0x02 => [(63, 32), (22, 8)]
  | 0x03 => [(63, 32), (25, 13)]
  | 0x04 => [(63, 32)]
  | 0x10 => [(63, 8)]
  | 0x11 => [(42, 8)] ++ (if fld w 42 41 = 1 then [(57, 43)] else []) ++ (if fld w 42 41 = 0 then [(47, 43)] else []) ++ calFields w
  | 0x12 => [(58, 58), (47, 8)] ++ (if fbit w 58 then [(63, 59)] else []) ++ calFields w
  | 0x13 => [(12, 8)]
  | 0x14 => [(12, 8)]
  | 0x20 => [(127, 112), (53, 27), (21, 8)] ++ (if fld w 14 13 = 2 then [(26, 22)] else [])
  | 0x21 => [(127, 112), (51, 36), (19, 8)]
  | 0x22 => [(127, 112), (44, 32), (17, 14)] ++ (if fld w 16 15 = 2 then [(31, 23), (13, 8)] else []) ++
      (if fld w 16 15 = 0 then [(22, 18)] else [])
  | 0x30 => [(9, 8)]
  | 0x31 => [(44, 8)]
  | 0x32 => [(80, 23), (16, 14)] ++ (if fbit w 24 then [(84, 81)] else [(13, 8)]) ++
      (if fbit w 24 || fbit w 36 then [(127, 112)] else [])
  | 0x40 => [(57, 8)] ++ (if fbit w 20 || (!fbit w 25 && fld w 33 26 + 1 < fld w 57 34) then [(76, 64)] else [])
  | 0x41 => [(38, 16), (13, 8)]
  | 0x50 => [(11, 8)]
  | 0x51 => [(100, 96), (53, 8)]
  | 0x52 => [(101, 96), (53, 8)] ++ (if fbit w 101 then [(105, 102)] else [])
  | 0x53 => [(93, 64), (49, 28), (26, 8)]
  | 0x54 => [(127, 96), (87, 64), (60, 8)]
  | 0x55 => [(35, 8)]
  | 0x56 => [(12, 8)]
  | 0x60 => [(14, 8)] ++ calFields w
  | 0x61 => [(12, 8)] ++ calFields w
  | 0x62 => [(12, 8)] ++ calFields w
  | 0x70 => [(56, 41), (24, 8)] ++ (if fld w 24 23 = 1 then [(40, 25)] else []) ++ calFields w
  | 0x80 | 0x83 => [(34, 30), (28, 8)]
  | 0x81 | 0x82 => [(45, 45), (34, 8)] ++ (if fbit w 29 then [(44, 35)] else []) ++ calFields w
  | _ => []

def fieldMask (l : List (Nat × Nat)) : Nat := l.foldl (fun m f => m ||| (2 ^ (f.1 + 1) - 2 ^ f.2)) 0

/-- No reserved bit is set (R14, R246). -/
def reservedClear (w : W128) : Bool := w.toNat ||| fieldMask (namedFields w) = fieldMask (namedFields w)

/-- Registers that an instruction reads at issue (R218, R248). -/
def regsRead (w : W128) : List Nat :=
  (if isCalendar w && fbit w 111 then [fld w 110 106] else []) ++
  match opc w with
  | 0x02 => [fld w 17 13, fld w 22 18]
  | 0x03 => [fld w 17 13, fld w 22 18]
  | 0x11 => fld w 17 13 :: (if fld w 42 41 = 2 then [] else [fld w 47 43])
  | 0x12 => [fld w 47 43, fld w 17 13] ++ (if fbit w 58 then [fld w 63 59] else [])
  | 0x31 => [fld w 43 39]
  | 0x51 => [fld w 31 27, fld w 26 22, fld w 21 17, fld w 12 8]
  | 0x52 => [fld w 31 27, fld w 26 22, fld w 21 17, fld w 12 8]
  | 0x53 => [fld w 12 8]
  | 0x54 => [fld w 22 18, fld w 17 13, fld w 12 8]
  | 0x56 => [fld w 12 8]
  | 0x60 => [fld w 12 8]
  | 0x61 => [fld w 12 8]
  | 0x62 => [fld w 12 8]
  | 0x70 => [fld w 22 18, fld w 17 13, fld w 56 52]
  | 0x80 | 0x81 | 0x82 => [fld w 28 24, fld w 34 30]
  | 0x83 => [fld w 34 30]
  | _ => []

/-- The register that an instruction writes, at issue or at firing. -/
def regWritten (w : W128) : Option Nat :=
  match opc w with
  | 0x01 | 0x02 => some (fld w 12 8)
  | 0x41 => some (fld w 38 34)
  | 0x83 => some (fld w 28 24)
  | _ => none

/-- The write waits for the firing: the register is pending from issue (R218). -/
def writesAtFire (w : W128) : Bool := opc w = 0x41 || opc w = 0x83

/-- A scalar register as an instruction reads it; k0 is zero (R218). -/
def kr (k : Vector W64 32) (i : Nat) : W64 := if i % 32 = 0 then 0 else vget k (fin i)

/-- A write to a scalar register; a write to k0 is discarded (R218). -/
def kw (k : Vector W64 32) (i : Nat) (v : W64) : Vector W64 32 := if i % 32 = 0 then k else vset k (fin i) v

/-! ### Calendar block (Table 09-2) -/

def calBeat (w : W128) : Nat := fld w 85 64
def calSlotS (w : W128) : Nat := fld w 95 86
def calSlotC (w : W128) : Nat := fld w 105 96
def calGK (w : W128) : Nat := fld w 110 106
def calGate (w : W128) : Bool := fbit w 111
def calGMor (w : W128) : Nat := fld w 127 112

/-- The gate is met (R249, R362): the counter is at or above the threshold, and the mordant has not failed. -/
def gateMet (s : State) (e : Entry) : Bool :=
  !calGate e.word || (!(s.mor (calGMor e.word)).failed && decide ((kr e.k (calGK e.word)).toNat ≤ (s.mor (calGMor e.word)).count.toNat))

/-! ### Row lengths (R96, R258, R264) -/

/-- Bytes of one row of `n` elements of a format code (R96, R258); 0 for a reserved code. -/
def rowBytes (fmt n : Nat) : Nat :=
  match fmt with
  | 0 | 1 => 2 * n
  | 2 => 4 * n
  | 3 | 4 => n
  | 5 | 6 => 6 * n / 8 + n / 32
  | 7 => 4 * n / 8 + n / 32
  | _ => 0

/-- Band depth K of a shape (Table 03-5). -/
def shapeK (sh : Fin 4) : Nat := 512 / 2 ^ sh.val

/-- Output columns N of a shape (Table 03-5). -/
def shapeN (sh : Fin 4) : Nat := 512 * 2 ^ sh.val

/-- Height code of ACC.OPEN (Table 09-9). -/
def heightOf (ht : Nat) : Nat := 64 * 2 ^ ht

/-- Bytes of an accumulation format: 2 for FP16, 4 for FP32. -/
def accBytes (fmt : Nat) : Nat := if fmt = 1 then 2 else 4

end Sys2Proof.Machine
end

