-- ==== Sys2Proof/Machine/Flags.lean ====
section
/-!
DEFINITION. Status flags of the numerics: OVF and NV of tiles (R108), of a station (R109), and the indications that a value brings (R128).
-/
namespace Sys2Proof.Machine

/-- OVF and NV together. -/
structure Fl where
  ovf : Bool
  nv : Bool
  deriving DecidableEq, Repr

def Fl.none : Fl := ⟨false, false⟩
def Fl.or (a b : Fl) : Fl := ⟨a.ovf || b.ovf, a.nv || b.nv⟩

/-- Flags of one result: a clamp sets OVF, a NaN or an infinity sets NV (R108, R128). -/
def flagsOf (v : Val) (clamp : Bool) : Fl := ⟨clamp, !v.finite⟩

/-- Flags into a tile (R108). -/
def Tile.flag (t : Tile) (f : Fl) : Tile := { t with ovf := t.ovf || f.ovf, nv := t.nv || f.nv }

/-- Flags into a station's job numeric status (R109). -/
def Station.flag (x : Station) (f : Fl) : Station := { x with ovf := x.ovf || f.ovf, nv := x.nv || f.nv }

/-- The register image of a tile's flags (Table 09-9, KF). -/
def flagWord (ovf nv : Bool) : W64 := BitVec.ofNat 64 ((if nv then 2 else 0) + (if ovf then 1 else 0))

/-- The job numeric status byte (OD 6121h). -/
def statusByte (x : Station) : Nat := (if x.nv then 2 else 0) + (if x.ovf then 1 else 0)

end Sys2Proof.Machine
end

