-- ==== Sys2Proof/Machine/Sequencer.lean ====
section
/-!
DEFINITION. The station sequencer (R216 to R225, R250 to R253): instruction fetch from the program region, the order of checks at issue, unit
queues, readiness of calendar instructions, and the look-ahead.
-/
namespace Sys2Proof.Machine

/-! ### Unit queues (Table 08-1) -/

def Station.queue (x : Station) : UnitQ → List Entry
  | .vat v => vget x.vatQ v
  | .ring l => (x.lane l).queue
  | .array => x.arr.queue
  | .acc => x.accQ
  | .vec => x.vec.queue
  | .eng => x.engQ
  | .net => x.netQ
  | .mor => x.morQ
  | .chk => x.chkQ

def Station.setQueue (x : Station) (u : UnitQ) (q : List Entry) : Station :=
  match u with
  | .vat v => { x with vatQ := vset x.vatQ v q }
  | .ring l => x.modLane l fun y => { y with queue := q }
  | .array => { x with arr := { x.arr with queue := q } }
  | .acc => { x with accQ := q }
  | .vec => { x with vec := { x.vec with queue := q } }
  | .eng => { x with engQ := q }
  | .net => { x with netQ := q }
  | .mor => { x with morQ := q }
  | .chk => { x with chkQ := q }

def queueDepth : UnitQ → Nat
  | .array => 16
  | .chk => 1
  | _ => 8

/-- Every unit queue of a station. -/
def allUnits : List UnitQ :=
  (List.finRange 32).map .vat ++ [.ring .cw, .ring .ccw, .array, .acc, .vec, .eng, .net, .mor, .chk]

/-- The queues an instruction enters: a ring instruction that names both lanes takes one entry in each (R259). -/
def unitsFor (w : W128) : List UnitQ :=
  match opc w / 16 with
  | 1 => [.vat (fin (fld w 12 8))]
  | 2 => if opc w = 0x22 then [if fbit w 14 then .ring .ccw else .ring .cw]
    else match fld w 14 13 with
      | 0 => [.ring .cw]
      | 1 => [.ring .ccw]
      | _ => [.ring .cw, .ring .ccw]
  | 3 => [.array]
  | 4 => [.acc]
  | 5 => [.vec]
  | 6 => [.eng]
  | 7 => [.net]
  | 8 => [.mor]
  | 9 => [.chk]
  | _ => []

def Station.full (x : Station) (us : List UnitQ) : Bool := us.any fun u => queueDepth u ≤ (x.queue u).length

def Station.push (x : Station) (us : List UnitQ) (e : Entry) : Station :=
  us.foldl (fun x u => x.setQueue u (x.queue u ++ [e])) x

def Station.pop (x : Station) (u : UnitQ) : Station := x.setQueue u ((x.queue u).drop 1)

/-! ### Instruction fetch (R216, R217) -/

/-- Byte offset of the program region in local store. -/
def progBase (prog : Nat) : Nat := lsSize - prog * 4096

/-- The instruction word at a pc of the program region, and whether it holds poison. -/
def Station.instrAt (x : Station) (prog pc : Nat) : W128 × Bool :=
  let l := x.lsRead (progBase prog + 16 * pc) 16
  (BitVec.ofNat 128 (leP l), anyPoison l)

/-- What the checks of one instruction answer: a fault located at the station with its LOC2, a wait, or the state after issue with the
next pc. -/
inductive Chk where
  | fault (loc2 : Nat)
  | wait
  | ok (s : State) (npc : Nat)

/-- Beat frame of a calendar instruction (R249). -/
def beatOf (sq : Seqr) (w : W128) : W64 := sq.base + BitVec.ofNat 64 (calBeat w)

/-- Two runs of slots, each by first slot and count, share a slot; an empty run shares none. -/
def slotsMeet (a n b m : Nat) : Bool := decide (0 < n) && decide (0 < m) && decide (a < b + m) && decide (b < a + n)

/-- A calendar run that names a slot of the open mesh run (R355). -/
def State.openRunMeets (s : State) (a n : Nat) : Bool := slotsMeet a n (bits (s.reg 0x5202 0) 9 0) (bits (s.reg 0x5202 0) 25 16)

def State.openRunHit (s : State) (w : W128) : Bool := s.openRunMeets (calSlotS w) (calSlotC w)

/-- The calendar checks at issue (R221, R223, R225, R249, R355): true for fault 01h. -/
def calFault (s : State) (p : Part) (sq : Seqr) (w : W128) : Bool :=
  isCalendar w && (
    calSlotC w = 0 || 960 < calSlotS w + calSlotC w
    || (calGate w && !s.inMorRange p (calGMor w)) || s.openRunHit w
    || (match sq.lastBeat with
        | some b => decide ((beatOf sq w).toNat < b.toNat) || decide (256 < sq.dist + 1)
        | none => decide (256 < sq.dist)))

/-- Book-keeping of the sequencer after an instruction has issued. -/
def Seqr.issued (sq : Seqr) (w : W128) (npc : Nat) : Seqr :=
  { sq with
    pc := npc
    nextSeq := sq.nextSeq + 1
    lastBeat := if isCalendar w then some (beatOf sq w) else sq.lastBeat
    dist := if isCalendar w then 0 else sq.dist + 1
    kPending := match regWritten w with
      | some r => if writesAtFire w && r ≠ 0 then sq.kPending ++ [(r, sq.nextSeq)] else sq.kPending
      | none => sq.kPending }

/-- A register of the instruction is pending (R218, R276). -/
def waitsPending (sq : Seqr) (w : W128) : Bool :=
  (regsRead w ++ (regWritten w).toList).any fun r => sq.kPending.any fun e => e.1 = r

/-- A control instruction reads a poisoned scalar register, which consumes it (R411). -/
def readsPoison (sq : Seqr) (w : W128) : Bool := decide (opc w < 16) && (regsRead w).any fun r => sq.kPoison.contains r

/-- The read of an instruction word consumes poison or a double-bit error: fault 04h, and the station issues nothing further (R217). -/
def State.faultWord (s : State) (st : St) : State :=
  (s.faultPoison st noLoc2 (s.stn st).sq.pc).modSt st fun x => { x with sq := { x.sq with stopped := true } }

/-- The next instruction of the station, if the station issues at all (R216, R217, R230, R253). -/
def State.issuing (s : State) (st : St) : Option Part :=
  match s.jobAt st with
  | some p => if (s.stn st).sq.stopped || (s.prt p).held || (s.stn st).sq.endPending.isSome then none else some p
  | none => none

/-- Issue of one instruction of opcode `op` (R219, R250): nothing happens while another instruction is next. The order is program region,
poisoned word, opcode, waits, reserved bits, and then the instruction's own checks. -/
def issue (op : Nat) (body : State → Part → St → Entry → Chk) (s : State) (st : St) :
    Host.Outcome State Fault Refusal :=
  match s.issuing st with
  | none => noEvent s
  | some p =>
    let x := s.stn st
    let sq := x.sq
    let prog := (s.prt p).prog
    if prog * 256 ≤ sq.pc then next (s.faultIssue st noLoc2 sq.pc)
    else
      let iw := x.instrAt prog sq.pc
      let w := iw.1
      if iw.2 then next (s.faultWord st)
      else if opc w ≠ op then noEvent s
      else if waitsPending sq w || x.full (unitsFor w) then noEvent s
      else if !reservedClear w then next (s.faultIssue st noLoc2 sq.pc)
      else if readsPoison sq w then next (s.faultPoison st noLoc2 sq.pc)
      else
        let e : Entry := ⟨sq.nextSeq, sq.pc, w, sq.k, beatOf sq w, false, 0⟩
        if calFault s p sq w then next (s.faultIssue st noLoc2 sq.pc)
        else match body s p st e with
          | .fault l => next (s.faultIssue st l sq.pc)
          | .wait => noEvent s
          | .ok s' npc => next (s'.modSt st fun y => { y with sq := y.sq.issued w npc })

/-- Entry into the instruction's queues, the next pc following (R219). -/
def enqueue (s : State) (st : St) (e : Entry) : Chk :=
  .ok (s.modSt st fun x => x.push (unitsFor e.word) e) (e.pc + 1)

/-! ### Firing -/

/-- The head of a unit queue when it is an instruction of opcode `op` and the station's job runs. -/
def State.headOp (s : State) (st : St) (u : UnitQ) (op : Nat) : Option Entry :=
  match (s.stn st).queue u with
  | e :: _ => if opc e.word = op && (s.jobAt st).isSome then some e else none
  | [] => none

/-- A transfer that a NET.SEND of the station feeds (R201); the request of a remote fetch is the fetch's own, and engines and responders send others. -/
def Xfer.sentBy (x : Xfer) (st : St) : Bool := x.st = st && x.vat < 32 && x.kind ≠ .readReq

/-- Fetches and puts of a station in flight (R201). -/
def State.inFlight (s : State) (st : St) : Nat :=
  (s.fetches.filter fun f => f.st = st).length +
  (s.writes.filter fun w => w.who = st && !w.written).length +
  (s.xfers.filter fun x => x.sentBy st).length

def headFull (v : Vat) : Bool :=
  match v.slots[v.head % v.slots.length]? with
  | some sl => sl.st = .full
  | none => false

def tailFree (v : Vat) : Bool :=
  match v.slots[v.tail % v.slots.length]? with
  | some sl => sl.st = .free
  | none => false

/-- Descriptors in an engine's queue for the partition, and on their way to it, take credits (R150, R175, R179, R271). -/
def State.descCredit (s : State) (p : Part) (d : DescTo) : Bool :=
  let fly := (s.descs.filter fun x => x.dst = d && x.part = p).length
  match d with
  | .route g => (vget (vget s.route g).q p).length + fly < 8
  | .transpose t => (vget (s.twr t).xq p).length + fly < 8
  | .madder t => (vget (s.twr t).mq p).length + fly < 8

/-- Where the descriptor of an engine instruction goes (R271); `none` when SRC or W is no tower address. -/
def descDest (x : Station) (e : Entry) : Option DescTo :=
  let a := (kr e.k (fld e.word 12 8)).toNat
  match opc e.word with
  | 0x60 => some (.route (fin (fld e.word 14 13)))
  | 0x61 =>
    let src := leP (x.lsRead (a + 56) 8)
    if src < 2 ^ 36 then some (.transpose (fin (src / 2 ^ 33))) else none
  | _ =>
    let w := leP (x.lsRead (a + 112) 8)
    if w < 2 ^ 36 then some (.madder (fin (w / 2 ^ 33))) else none

/-- Tokens and spaces of a calendar instruction (Table 08-2). An engine instruction whose descriptor names no tower has nothing to wait for:
it fires and faults. -/
def tokensFor (s : State) (p : Part) (st : St) (e : Entry) : Bool :=
  let x := s.stn st
  match opc e.word with
  | 0x11 => match vget x.vats (fin (fld e.word 12 8)) with
    | some v => tailFree v && s.inFlight st < 32
    | none => false
  | 0x12 | 0x70 => match vget x.vats (fin (fld e.word 12 8)) with
    | some v => headFull v && s.inFlight st < 32
    | none => false
  | 0x60 | 0x61 | 0x62 => match descDest x e with
    | some d => s.descCredit p d
    | none => true
  | _ => true

/-- A calendar instruction is ready (R224): the firing rule lets it fire and its gate is met. -/
def State.calReady (s : State) (p : Part) (st : St) (u : UnitQ) (e : Entry) : Bool :=
  (match (s.stn st).queue u with
   | h :: _ => h.seq = e.seq
   | [] => false) && gateMet s e && tokensFor s p st e

/-- Frame b + 16 has come (R224). -/
def leadOver (frame beat : W64) : Bool := beat.toNat + 16 ≤ frame.toNat

/-! ### Look-ahead (R225, R252) -/

/-- What the look-ahead carries: pc, its copy of the registers and base, registers pending on its path, issue number. -/
structure Look where
  pc : Nat
  k : Vector W64 32
  base : W64
  pend : List Nat
  seq : Nat
  deriving DecidableEq, Repr

def brCond (c : Nat) (a b : W64) : Bool :=
  match c with
  | 0 => true
  | 1 => a = b
  | 2 => a ≠ b
  | 3 => a.toNat < b.toNat
  | 4 => b.toNat ≤ a.toNat
  | 5 => a.toInt < b.toInt
  | _ => b.toInt ≤ a.toInt

/-- The look-ahead over at most `fuel` instructions: the calendar instructions it sees with issue number, pc and beat frame, and where it has stopped at a
control instruction that reads a pending register. -/
def lookFrom (x : Station) (prog : Nat) : Nat → Look → List (Nat × Nat × W64) × Option Nat
  | 0, _ => ([], none)
  | fuel + 1, l =>
    if prog * 256 ≤ l.pc then ([], none)
    else
      let iw := x.instrAt prog l.pc
      let w := iw.1
      if iw.2 then ([], none)
      else if (opc w = 2 || opc w = 3) && (regsRead w).any (l.pend.contains ·) then ([], some l.pc)
      else match opc w with
        | 0x01 => lookFrom x prog fuel { l with
            pc := l.pc + 1, seq := l.seq + 1, k := kw l.k (fld w 12 8) (BitVec.ofNat 64 (fld w 127 64))
            pend := l.pend.filter (· ≠ fld w 12 8) }
        | 0x02 => lookFrom x prog fuel { l with
            pc := l.pc + 1, seq := l.seq + 1
            k := kw l.k (fld w 12 8) (kr l.k (fld w 17 13) + kr l.k (fld w 22 18) + sext32 (fld w 63 32))
            pend := l.pend.filter (· ≠ fld w 12 8) }
        | 0x03 => lookFrom x prog fuel { l with
            seq := l.seq + 1
            pc := if brCond (fld w 25 23) (kr l.k (fld w 17 13)) (kr l.k (fld w 22 18)) then fld w 63 32 else l.pc + 1 }
        | 0x04 => lookFrom x prog fuel { l with
            pc := l.pc + 1, seq := l.seq + 1, base := l.base + BitVec.ofNat 64 (fld w 63 32) }
        | 0x05 => ([], none)
        | _ =>
          let l' := { l with
            pc := l.pc + 1, seq := l.seq + 1
            pend := match regWritten w with
              | some r => if writesAtFire w && r ≠ 0 then r :: l.pend else l.pend
              | none => l.pend }
          let rest := lookFrom x prog fuel l'
          if isCalendar w then ((l.seq, l.pc, l.base + BitVec.ofNat 64 (calBeat w)) :: rest.1, rest.2) else rest

/-- The look-ahead of a station from its next instruction. -/
def lookAhead (x : Station) (prog : Nat) : List (Nat × Nat × W64) × Option Nat :=
  if x.sq.stopped || x.sq.endPending.isSome then ([], none)
  else lookFrom x prog 256 ⟨x.sq.pc, x.sq.k, x.sq.base, x.sq.kPending.map (·.1), x.sq.nextSeq⟩

/-- Calendar instructions in a station's queues with their units. -/
def calQueued (x : Station) : List (UnitQ × Entry) :=
  allUnits.flatMap fun u => ((x.queue u).filter fun e => isCalendar e.word).map fun e => (u, e)

/-- The raise of an instruction is outstanding until it becomes ready (R229): it has not issued, or it waits and is not ready. -/
def State.raiseStands (s : State) (p : Part) (st : St) (seq : Nat) : Bool :=
  let x := s.stn st
  decide (x.sq.nextSeq ≤ seq) ||
  (calQueued x).any fun ue => ue.2.seq = seq && !ue.2.started && !s.calReady p st ue.1 ue.2

/-- The raises made at the start of calendar frame `f` (R224, R252): by issued calendar instructions that are not ready, and by those within the decode
window that have not issued. -/
def State.beatRaises (s : State) (p : Part) (st : St) (f : W64) : List (Nat × Nat) :=
  let x := s.stn st
  ((calQueued x).filter fun ue => ue.2.beat = f && !ue.2.started && !s.calReady p st ue.1 ue.2).map (fun ue => (ue.2.seq, ue.2.pc)) ++
  ((lookAhead x (s.prt p).prog).1.filter fun t => t.2.2 = f).map (fun t => (t.1, t.2.1))

end Sys2Proof.Machine
end

