-- ==== Sys2Proof/Machine/Routes.lean ====
section
/-!
DEFINITION. Scheduled routes, trees and open routes as a sender sees them (R345, R351, R363), and the transfers that leave in
blocks.
-/
namespace Sys2Proof.Machine

/-- Route index of open traffic (R272). -/
def openRoute : Nat := 0x3FF

/-- Entry RIDX of a partition's scheduled route table (Table 12-3). -/
def State.routeEntry (s : State) (p : Part) (r : Nat) : Nat := domNat (s.dom 0x5100 (p.val + 1)) (16 * r) 16

/-- Entry of a partition's multicast tree table (Table 12-4). -/
def State.treeEntry (s : State) (p : Part) (t : Nat) : Nat := domNat (s.dom 0x5101 (p.val + 1)) (16 * t) 16

/-- Entry of a partition's reduce group table (Table 12-5). -/
def State.groupEntry (s : State) (p : Part) (g : Nat) : Nat := domNat (s.dom 0x5102 (p.val + 1)) (32 * g) 32

/-- The entry is valid with ROLE 00b or 11b, as a source must find it (R345). -/
def routeSource (e : Nat) : Bool := bit e 127 && (bits e 126 125 = 0 || bits e 126 125 = 3)

/-- A ROUTE that an instruction may not name (R345); open traffic is routed by device ID (R351). -/
def State.routeFault (s : State) (p : Part) (r : Nat) : Bool := r ≠ openRoute && !routeSource (s.routeEntry p r)

/-- The route ends in the device where it begins: role 11b (R345). -/
def State.ownRoute (s : State) (p : Part) (r : Nat) : Bool := r ≠ openRoute && bits (s.routeEntry p r) 126 125 = 3

/-- A block of the wrong kind for a route of role 11b: a reduce block on one to memory, any other on one to a reduce group (R349, R367; assumption log 141). -/
def State.ownKindFault (s : State) (p : Part) (r : Nat) (reduce : Bool) : Bool := s.ownRoute p r && (bits (s.routeEntry p r) 48 45 = 1) != reduce

/-- The checks at issue of a remote VAT.FETCH (R345). -/
def State.remoteReadFault (s : State) (p : Part) (r _dev : Nat) : Bool := s.routeFault p r

/-- Output port of a transfer: its route's port, or the open route table's port for its destination. -/
def State.wayPort (s : State) (p : Part) (route : Nat) (dest : W16) : Option PortId :=
  if route = openRoute then
    let e := domNat (s.dom 0x5200 0) dest.toNat 1
    if bit e 7 && bits e 4 0 < 28 then some (fin (bits e 4 0)) else none
  else
    let q := bits (s.routeEntry p route) 115 111
    if q < 28 then some (fin q) else none

def State.xferPort (s : State) (x : Xfer) : Option PortId := if x.kind = .multicast then none else s.wayPort x.part x.route x.dest

/-- Output ports of a tree entry. -/
def treePorts (t : Nat) : List PortId := (List.finRange 28).filter fun q => bit t (92 + q.val)

/-- Every port by which blocks of a transfer leave. -/
def State.xferPorts (s : State) (x : Xfer) : List PortId :=
  if x.kind = .multicast then treePorts (s.treeEntry x.part x.route) else (s.xferPort x).toList

/-- Offset of a mordant of the partition's range, as a block carries it (R361). -/
def State.morOffset (s : State) (p : Part) (m : Nat) : W16 :=
  BitVec.ofNat 16 m - BitVec.ofNat 16 ((s.morRange p).map (·.1) |>.getD 0)

/-- The mordant at an offset of the partition's range (R361); `none` at or beyond the range's size. -/
def State.morAt (s : State) (p : Part) (off : Nat) : Option W16 :=
  match s.morRange p with
  | some (a, z) => if z - a < off then none else some (BitVec.ofNat 16 (a + off))
  | none => none

/-- The Krytno frame in which a transfer of a calendar instruction starts (R224, R346): its calendar frame b + 16, counted back from the frame in progress. -/
def State.startFrame (s : State) (p : Part) (e : Entry) : Nat :=
  s.time.toNat / 512 - ((s.prt p).frame.toNat - (e.beat.toNat + 16))

/-- The lowest fetch number that no fetch of the station uses (R342, FTAG). -/
def State.freeTag (s : State) (st : St) : Nat :=
  ((List.range 32).find? fun i => s.fetches.all fun f => !(f.st = st && f.remote && f.reqId = i)).getD 0

/-- A remote fetch leaves as one read request (R356). The port of its route is known from the start, that of the response with its first block (R208). -/
def State.remoteRead (s : State) (p : Part) (e : Entry) (f : Fetch) : State :=
  let tag := s.freeTag f.st
  let kd := (kr e.k (fld e.word 47 43)).setWidth 16
  { s with
    fetches := s.fetches ++ [{ f with reqId := tag, ports := ((s.wayPort p (fld e.word 57 48) kd).map (·.val)).toList }]
    xfers := s.xfers ++ [{
      kind := .readReq, st := f.st, part := p, pc := e.pc, vat := f.vat.val, slot := f.slot
      route := fld e.word 57 48, dest := kd, addr := f.addr, data := [], bytes := f.bytes, blk := 0
      rpart := 0, fmt := 0, hdr := f.hdr, ftag := tag, dpart := p.val, start := s.startFrame p e, flg := 0, base := 0, ridx := 0, value := 0, last := none }] }

end Sys2Proof.Machine
end

