-- ==== Sys2Proof/Machine/Vat.lean ====
section
/-!
DEFINITION. Vats (R192 to R209, R255 to R258): opening, fetching, putting, cancelling and closing, and the release of slots.
-/
namespace Sys2Proof.Machine

/-! ### Helpers over one vat -/

def Station.vat (x : Station) (v : VatNo) : Option Vat := vget x.vats v
def Station.setVat (x : Station) (v : VatNo) (y : Option Vat) : Station := { x with vats := vset x.vats v y }
def Station.book (x : Station) (v : VatNo) : Option VatBook := vget x.books v
def Station.setBook (x : Station) (v : VatNo) (b : Option VatBook) : Station := { x with books := vset x.books v b }

def slot0 : Slot := ⟨.free, 0, none, [], false, false, 0⟩

def Vat.slot (v : Vat) (i : Nat) : Slot := v.slots.getD i slot0
def Vat.setSlot (v : Vat) (i : Nat) (y : Slot) : Vat := { v with slots := lset v.slots i y }
def Vat.addr (v : Vat) (i : Nat) : Nat := v.base + i * v.size

/-- Bytes of a slot; those beyond its count read as zero (R198). -/
def Station.slotRead (x : Station) (v : Vat) (i off n : Nat) : List PByte :=
  (List.range n).map fun j => if off + j < (v.slot i).count then x.lsByte (v.addr i + off + j) else ⟨0, false⟩

/-- Two extents overlap. -/
def overlap (a n b m : Nat) : Bool := a < b + m && b < a + n

/-- Byte base of the spill space (R266). -/
def spillBase (x : Partition) : Nat := progBase x.prog - x.spill * 4096

/-- The aside vat of an epilogue's VEC.EPI (R132). -/
def asideVat (w : W128) : List Nat := if fbit w 101 then [fld w 100 96] else []

/-- Vats that an instruction names (R197). A drain that runs an epilogue names the aside vat of the armed one and of each VEC.EPI that is still queued
ahead of it: which of them it will run is not yet settled (R132, R219). -/
def vatsNamed (x : Station) (e : Entry) : List Nat :=
  let w := e.word
  match opc w with
  | 0x11 | 0x12 | 0x20 | 0x21 | 0x31 | 0x70 => [fld w 12 8]
  | 0x32 => fld w 29 25 :: (if fbit w 35 then [fld w 34 30] else [])
  | 0x41 => fld w 20 16 :: (if !fbit w 32 then [] else
      (match x.vec.epi with
       | some p => asideVat p.e.word
       | none => []) ++ (x.vec.queue.filter fun q => opc q.word = 0x52 && q.seq < e.seq).flatMap fun q => asideVat q.word)
  | 0x52 => asideVat w
  | 0x53 => fld w 21 17 :: (if fbit w 93 then [fld w 92 88] else []) ++ (if fbit w 28 then [fld w 26 22] else [])
  | _ => []

/-- Fired instructions that are not done, with their words. -/
def activeEntries (x : Station) : List Entry :=
  x.ringOps.map (·.e) ++ (x.arr.load.map (·.e)).toList ++ x.arr.mmas.map (·.e) ++ (x.drain.map (·.e)).toList ++
  (x.vec.op.map (·.e)).toList

/-- An instruction that opens, cancels or closes the vat and was issued before `seq` has not fired: later instructions wait (R192, R205). -/
def Station.vatFenced (x : Station) (v seq : Nat) : Bool :=
  (vget x.vatQ (fin v)).any fun e => (opc e.word = 0x10 || opc e.word = 0x13 || opc e.word = 0x14) && e.seq < seq

/-- Instructions issued before `seq` that name the vat and are not done: in a queue other than the vat's own head, or fired and unfinished. -/
def Station.vatBusy (x : Station) (v : VatNo) (seq : Nat) : Bool :=
  (allUnits.any fun u => (x.queue u).any fun e => e.seq < seq && (vatsNamed x e).contains v.val) ||
  (activeEntries x).any fun e => e.seq < seq && (vatsNamed x e).contains v.val

/-- Book-keeping of one more claim on the producer side (R193, R197): `none` is a fault. -/
def VatBook.produce (b : VatBook) (k : VatKind) : Option VatBook :=
  if b.prod = none ∨ b.prod = some k then some { b with prod := some k, prods := b.prods + 1 } else none

def VatBook.consume (b : VatBook) (k : VatKind) : Option VatBook :=
  if b.cons = none ∨ b.cons = some k then some { b with cons := some k, conss := b.conss + 1 } else none

/-- Claims the tail slot (R194). -/
def Vat.claim (v : Vat) : Vat :=
  { v.setSlot v.tail { slot0 with st := .claimed } with tail := (v.tail + 1) % v.slots.length, claimed := v.claimed + 1 }

/-- Takes the head slot (R194); `lane` and `feed` say which of the two readers of R261 is already done with it. -/
def Vat.take (v : Vat) (lane feed : Bool) : Vat :=
  { v.setSlot v.head { v.slot v.head with st := .taken, laneDone := lane, feedDone := feed } with
    head := (v.head + 1) % v.slots.length, taken := v.taken + 1 }

/-! ### VAT.OPEN, VAT.CLOSE, VAT.CANCEL -/

def openBase (w : W128) : Nat := fld w 39 27 * 4096
def openSize (w : W128) : Nat := (fld w 26 18 + 1) * 4096
def openSlots (w : W128) : Nat := fld w 17 14 + 3

/-- An open vat's extent overlaps the extent given. -/
def bookOverlap (b : VatBook) (a n : Nat) : Bool := overlap b.base (b.slots * b.size) a n

/-- VAT.OPEN at issue (R192, R255). -/
def execVatOpen (st : St) (s : State) : Host.Outcome State Fault Refusal :=
  issue 0x10 (fun s p st e =>
    let w := e.word
    let v : VatNo := fin (fld w 12 8)
    let x := s.stn st
    let pt := s.prt p
    let a := openBase w
    let n := openSlots w * openSize w
    if fld w 63 40 = 0 || 13 < fld w 17 14 then .fault v.val
    else if (x.book v).isSome || progBase pt.prog < a + n
      || (x.books.toList.any fun b => match b with
          | some b => bookOverlap b a n
          | none => false)
      || overlap (spillBase pt) (pt.spill * 4096) a n then .fault v.val
    else
      let b : VatBook := ⟨a, openSlots w, openSize w, fbit w 13, fld w 63 40, none, none, 0, 0, e.seq⟩
      enqueue (s.modSt st fun x => x.setBook v (some b)) st e) s st

/-- An earlier VAT.OPEN of an overlapping extent has not fired: its vat closes first, as the check at issue has seen (R192). -/
def Station.openAhead (x : Station) (e : Entry) (a n : Nat) : Bool :=
  (List.finRange 32).any fun v => (vget x.vatQ v).any fun q =>
    opc q.word = 0x10 && q.seq < e.seq && overlap (openBase q.word) (openSlots q.word * openSize q.word) a n

/-- VAT.OPEN fires once no vat whose close has not fired overlaps it (R192). -/
def execVatOpenFire (st : St) (v : VatNo) (s : State) : Host.Outcome State Fault Refusal :=
  match s.headOp st (.vat v) 0x10 with
  | none => noEvent s
  | some e =>
    let x := s.stn st
    let w := e.word
    let a := openBase w
    let n := openSlots w * openSize w
    if x.openAhead e a n || x.vats.toList.any fun y => match y with
        | some y => overlap y.base (y.slots.length * y.size) a n
        | none => false
    then noEvent s
    else next (s.modSt st fun x => (x.pop (.vat v)).setVat v
      (some ⟨a, openSize w, fbit w 13, fld w 63 40, 0, 0, 0, 0, List.replicate (openSlots w) slot0, 0, 0, 0, e.seq⟩))

/-- VAT.CLOSE at issue (R255): the book of the vat closes. -/
def execVatClose (st : St) (s : State) : Host.Outcome State Fault Refusal :=
  issue 0x14 (fun s _ st e =>
    let v : VatNo := fin (fld e.word 12 8)
    if ((s.stn st).book v).isNone then .fault v.val
    else enqueue (s.modSt st fun x => x.setBook v none) st e) s st

/-- Transfers of a vat in flight, but for dropped fetches. -/
def State.vatFlying (s : State) (st : St) (v : VatNo) : Bool :=
  (s.fetches.any fun f => f.st = st && f.vat = v && !f.dropped) ||
  (s.writes.any fun w => w.who = st && w.vat = v.val && !w.written) || s.xfers.any fun x => x.sentBy st && x.vat = v.val

/-- VAT.CLOSE fires when every earlier instruction on the vat has fired and finished with its slots (R197). -/
def execVatCloseFire (st : St) (v : VatNo) (s : State) : Host.Outcome State Fault Refusal :=
  match s.headOp st (.vat v) 0x14, (s.stn st).vat v with
  | some e, some y =>
    if (s.stn st).vatBusy v e.seq || s.vatFlying st v || (y.slots.any fun sl => sl.st = .taken) then noEvent s
    else if y.taken < y.len then next (s.faultFire st v.val e.pc)
    else if y.slots.all fun sl => sl.st = .free then
      next (s.modSt st fun x => { (x.pop (.vat v)).setVat v none with localVats := setDel x.localVats y.id, takeVats := setDel x.takeVats y.id })
    else noEvent s
  | _, _ => noEvent s

/-- A RING.TAKE that names the vat is pending, queued or fired (R205). -/
def Station.takePending (x : Station) (v : VatNo) : Bool :=
  let names (e : Entry) : Bool := opc e.word = 0x21 && fld e.word 12 8 = v.val
  x.cw.queue.any names || x.ccw.queue.any names || x.ringOps.any fun o => names o.e

/-- VAT.CANCEL at issue (R205): the book-keeping counts return to 0. -/
def execVatCancel (st : St) (s : State) : Host.Outcome State Fault Refusal :=
  issue 0x13 (fun s _ st e =>
    let v : VatNo := fin (fld e.word 12 8)
    match (s.stn st).book v with
    | none => .fault v.val
    | some b =>
      if (s.stn st).takePending v then .fault v.val
      else enqueue (s.modSt st fun x => x.setBook v (some { b with prods := 0, conss := 0 })) st e) s st

/-- A slot as a cancel leaves it (R205). -/
def Slot.cancelled (sl : Slot) : Slot :=
  match sl.st with
  | .full => slot0
  | .claimed => { sl with st := .dropping }
  | _ => sl

/-- VAT.CANCEL fires when the old stream's consumers have released their slots and its producers have fired (R205, R206). -/
def execVatCancelFire (st : St) (v : VatNo) (s : State) : Host.Outcome State Fault Refusal :=
  match s.headOp st (.vat v) 0x13, (s.stn st).vat v with
  | some e, some y =>
    if (s.stn st).vatBusy v e.seq || (y.slots.any fun sl => sl.st = .taken) then noEvent s
    else
      let hit (f : Fetch) : Bool := f.st = st && f.vat = v && !f.dropped
      let n := (s.fetches.filter hit).length
      let s := { s with fetches := s.fetches.map fun f => if hit f then { f with dropped := true } else f }
      let s := if n = 0 then s else s.count 0x9040 (st.val + 1) n
      next (s.modSt st fun x => (x.pop (.vat v)).setVat v (some { y with
        slots := y.slots.map Slot.cancelled, head := y.tail, claimed := 0, taken := 0, rd := y.tail, rdRow := 0, wrRow := 0 }))
  | _, _ => noEvent s

/-- A dropped fetch ends: its slot becomes Free (R205, R206). -/
def execDroppedFetchEnd (st : St) (v : VatNo) (slot : Nat) (s : State) : Host.Outcome State Fault Refusal :=
  let hit (f : Fetch) : Bool := f.st = st && f.vat = v && f.slot = slot && f.dropped
  if s.fetches.any hit then
    let s := { s with fetches := s.fetches.filter fun f => !hit f }
    next (s.modSt st fun x => match x.vat v with
      | some y => x.setVat v (some (if (y.slot slot).st = .dropping then y.setSlot slot slot0 else y))
      | none => x)
  else noEvent s

/-! ### VAT.FETCH -/

/-- Granule parts of an extent: the requesting unit's mesh interface splits it at granule boundaries (R163). -/
def granuleParts : Nat → Nat → Nat → List (Nat × Nat)
  | 0, _, _ => []
  | fuel + 1, a, n => if n = 0 then [] else
    let m := min n (4096 - a % 4096)
    (a, m) :: granuleParts fuel (a + m) (n - m)

def partsOf (a n : Nat) : List (Nat × Nat) := granuleParts (n / 4096 + 2) a n

/-- Parts of a fetch of `n` bytes: with the header flag, the first 64 B of the header granule come first (R180, R198). -/
def fetchParts (a n : Nat) (hdr : Bool) : List ReqPart :=
  (if hdr then (a, 64) :: partsOf (a + 4096) n else partsOf a n).map fun x => ⟨x.1, x.2, none⟩

/-- The bytes of a fetch once every part has been served. -/
def gathered (l : List ReqPart) : Option (List PByte) :=
  if l.all fun x => x.data.isSome then some (l.flatMap fun x => x.data.getD []) else none

/-- The run of a response: launch slots a to a + n − 1, none above 959 (R257). -/
def runFault (v : Nat) : Bool := decide (2 ^ 20 ≤ v) || bits v 19 10 = 0 || decide (960 < bits v 9 0 + bits v 19 10)

def fetchSrc (w : W128) : Nat := fld w 42 41
def fetchBytes (w : W128) : Nat := fld w 39 18
def fetchHdr (w : W128) : Bool := fbit w 40

/-- VAT.FETCH at issue (R197, R199, R256, R257). -/
def execVatFetch (st : St) (s : State) : Host.Outcome State Fault Refusal :=
  issue 0x11 (fun s p st e =>
    let w := e.word
    let v : VatNo := fin (fld w 12 8)
    let a := (kr e.k (fld w 17 13)).toNat
    let n := fetchBytes w + (if fetchHdr w then 4096 else 0)
    let kd := (kr e.k (fld w 47 43)).toNat
    match (s.stn st).book v with
    | none => .fault v.val
    | some b =>
      if b.outbound || fetchSrc w = 3 || fetchBytes w = 0 || b.size < fetchBytes w || (fetchHdr w && fetchSrc w = 2) then .fault v.val
      else match b.produce .fetch with
        | none => .fault v.val
        | some b' =>
          if b.len ≤ b.prods then .fault v.val
          else if fetchSrc w = 0 && !s.inWin p a n then .fault v.val
          else if fetchSrc w = 2 && progBase (s.prt p).prog < a + n then .fault v.val
          else if fetchSrc w = 0 && (runFault kd || s.openRunMeets (bits kd 9 0) (bits kd 19 10)) then .fault v.val
          else if fetchSrc w = 1 && s.remoteReadFault p (fld w 57 48) (kd % 65536) then .fault v.val
          else enqueue (s.modSt st fun x => x.setBook v (some b')) st e) s st

/-- VAT.FETCH fires (R196, R224, R256): it claims the tail slot; a local-store source answers at once, a remote one by a read request. On a
route of role 11b the device itself is the responder, with the checks of R342 (R345, R356). -/
def execVatFetchFire (st : St) (v : VatNo) (s : State) : Host.Outcome State Fault Refusal :=
  match s.headOp st (.vat v) 0x11, (s.stn st).vat v, s.jobAt st with
  | some e, some y, some p =>
    let w := e.word
    if !tailFree y || 32 ≤ s.inFlight st || (isCalendar w && !e.started) then noEvent s
    else
      let a := (kr e.k (fld w 17 13)).toNat
      let n := fetchBytes w
      let x := s.stn st
      let f : Fetch := {
        st := st, vat := v, slot := y.tail, pc := e.pc, addr := a, bytes := n, hdr := fetchHdr w
        remote := fetchSrc w = 1, ports := [], reqId := 0, dropped := false, got := []
        data := if fetchSrc w = 2 then some (x.lsRead a n) else none
        run := (kr e.k (fld w 47 43)).toNat, slots := (calSlotS w, calSlotC w)
        parts := if fetchSrc w = 0 then fetchParts a n (fetchHdr w) else [] }
      let here := fetchSrc w = 1 && s.ownRoute p (fld w 57 48)
      if here && (s.ownKindFault p (fld w 57 48) false || s.reg 0x1020 0 ≠ (kr e.k (fld w 47 43)).toNat % 65536 || !s.inWin p a (n + if fetchHdr w then 4096 else 0)) then next (s.faultFire st v.val e.pc)
      else
      let s := s.modSt st fun x => (x.pop (.vat v)).setVat v (some y.claim)
      if here then next { s with fetches := s.fetches ++ [{ f with remote := false, parts := fetchParts a n (fetchHdr w) }] }
      else if fetchSrc w = 1 then next (s.remoteRead p e f)
      else next { s with fetches := s.fetches ++ [f] }
  | _, _, _ => noEvent s

/-- The last byte of a fetch is written and its slot becomes Full (R194, R198, R202). -/
def execVatSlotFull (st : St) (v : VatNo) (slot : Nat) (s : State) : Host.Outcome State Fault Refusal :=
  let hit (f : Fetch) : Bool := f.st = st && f.vat = v && f.slot = slot && !f.dropped && f.data.isSome
  match s.fetches.find? hit, (s.stn st).vat v with
  | some f, some y =>
    let all := f.data.getD []
    let hdr := if f.hdr then some (all.take 64) else none
    let body := (if f.hdr then all.drop 64 else all).take f.bytes
    let s := { s with fetches := s.fetches.filter fun g => !hit g }
    next (s.modSt st fun x => (x.lsWrite (y.addr slot) body).setVat v
      (some (y.setSlot slot { slot0 with st := .full, count := f.bytes, header := hdr })))
  | _, _ => noEvent s

/-! ### VAT.PUT -/

/-- VAT.PUT at issue (R170, R197, R204, R256). -/
def execVatPut (st : St) (s : State) : Host.Outcome State Fault Refusal :=
  issue 0x12 (fun s p st e =>
    let w := e.word
    let v : VatNo := fin (fld w 12 8)
    let a := (kr e.k (fld w 17 13)).toNat
    let n := fetchBytes w
    match (s.stn st).book v with
    | none => .fault v.val
    | some b =>
      if !b.outbound || fetchSrc w ≠ 0 || n = 0 || b.size < n then .fault v.val
      else match b.consume .put with
        | none => .fault v.val
        | some b' =>
          if b.len ≤ b.conss then .fault v.val
          else if !s.inWin p a n || 2 ^ 20 ≤ (kr e.k (fld w 47 43)).toNat then .fault v.val
          else if fbit w 40 && (n % 4 ≠ 0 || a % 4 ≠ 0 || decide (2 ^ 36 ≤ a)) then .fault v.val
          else if fbit w 58 && !s.inMorRange p ((kr e.k (fld w 63 59)).toNat % 65536) then .fault v.val
          else enqueue (s.modSt st fun x => x.setBook v (some b')) st e) s st

/-- VAT.PUT fires (R204, R224, R256): the head slot is taken and its first BYTES bytes leave for their destination. -/
def execVatPutFire (st : St) (v : VatNo) (s : State) : Host.Outcome State Fault Refusal :=
  match s.headOp st (.vat v) 0x12, (s.stn st).vat v, s.jobAt st with
  | some e, some y, some p =>
    let w := e.word
    if !headFull y || 32 ≤ s.inFlight st || !e.started then noEvent s
    else
      let wr : MemWrite := {
        who := st, part := p, pc := e.pc, vat := v.val
        addr := (kr e.k (fld w 17 13)).toNat
        data := (s.stn st).slotRead y y.head 0 (fetchBytes w)
        acc := fbit w 40
        mordant := if fbit w 58 then some ((kr e.k (fld w 63 59)).setWidth 16) else none
        written := false, parts := partsOf (kr e.k (fld w 17 13)).toNat (fetchBytes w) }
      let s := s.modSt st fun x => (x.pop (.vat v)).setVat v (some (y.take true true))
      next { s with writes := s.writes ++ [wr] }
  | _, _, _ => noEvent s

/-- The last byte of write `k` has been written at its destination; its mordant add is sent (R204). -/
def execPutWriteComplete (k : Nat) (s : State) : Host.Outcome State Fault Refusal :=
  match s.writes[k]? with
  | some w =>
    if !w.written then noEvent s
    else
      let s := { s with writes := ldel s.writes k }
      match w.mordant with
      | some m => next { s with morOps := s.morOps ++ [⟨some w.who, w.part, m, false, 1, false⟩] }
      | none => next s
  | none => noEvent s

/-- A consumer releases a slot it is done with (R195, R261). -/
def execSlotRelease (st : St) (v : VatNo) (slot : Nat) (s : State) : Host.Outcome State Fault Refusal :=
  match (s.stn st).vat v with
  | some y =>
    let sl := y.slot slot
    if slot < y.slots.length && sl.st = .taken && sl.laneDone && sl.feedDone then
      next (s.modSt st fun x => x.setVat v (some (y.setSlot slot slot0)))
    else noEvent s
  | none => noEvent s

end Sys2Proof.Machine
end

