-- ==== Sys2Proof/Machine/Mesh.lean ====
section
/-!
DEFINITION. Where the units of the package lie (R20 to R25, Table 01-3, Table 10-1): halves, clock islands, mesh nodes, the crossings between islands, the node that serves an
address (R163, R212), and the way of an access through the crossings (R289 to R292).
-/
namespace Sys2Proof.Machine

/-! ### Halves and islands (R20, Table 10-1) -/

def portHalf (q : PortId) : Half := if q.val < 14 then .west else .east
def stationHalf (st : St) : Half := if st.val < 9 then .west else .east
def towerHalf (t : Twr) : Half := if t.val < 4 then .west else .east

/-- Kinds of islands (Table 10-1). -/
inductive IslandKind where
  | station (st : St) | column (c : Nat) | port (q : PortId) | tower (t : Twr) | stash (east : Bool) | time
  deriving DecidableEq, Repr

def islandKind (i : Nat) : IslandKind :=
  if i < 0x12 then .station (fin i) else if i < 0x22 then .column (i - 0x12) else if i < 0x3E then .port (fin (i - 0x22))
  else if i < 0x46 then .tower (fin (i - 0x3E)) else if i < 0x48 then .stash (decide (i = 0x47)) else .time

def colHalf (c : Nat) : Half := if c < 8 then .west else .east

/-- Half of an island; the time domain has none. -/
def islandHalf (i : Nat) : Option Half :=
  match islandKind i with
  | .station st => some (stationHalf st)
  | .column c => some (colHalf c)
  | .port q => some (portHalf q)
  | .tower t => some (towerHalf t)
  | .stash e => some (if e then .east else .west)
  | .time => none

/-- MHz of a station; 0 while its island is stopped (OD 4101h). -/
def State.clockNow (s : State) (st : St) : Nat := if s.halfUp (stationHalf st) then s.reg 0x4101 (st.val + 1) else 0

/-- The island's clock runs (Table 10-1). -/
def State.islandRuns (s : State) (i : Nat) : Bool :=
  match islandHalf i with
  | none => !s.pwr.off
  | some h => s.halfUp h && match islandKind i with
    | .station st => 0 < s.clockNow st
    | .port q => s.reg 0x8041 (q.val + 1) = 0
    | .tower t => s.towerUp t
    | _ => true

/-! ### Nodes (R22 to R25, Table 01-3) -/

/-- Number of the node (x, y) (R23). -/
def nodeAt (x y : Nat) : Nat := 16 * y + x

/-- Column of a node. -/
def nodeCol (n : Nat) : Nat := n % 16

def stationNode (st : St) : Nat :=
  nodeAt ([7, 5, 3, 1, 1, 1, 3, 5, 7, 8, 10, 12, 14, 14, 14, 12, 10, 8].getD st.val 0) ([9, 9, 9, 9, 6, 2, 2, 2, 2, 2, 2, 2, 2, 6, 9, 9, 9, 9].getD st.val 0)

/-- The four nodes of a tower, in the order that Table 01-3 lists them. -/
def towerNode (t : Twr) (i : Nat) : Nat :=
  nodeAt ([0, 4, 0, 4, 8, 12, 8, 12].getD t.val 0 + i % 4) ([11, 11, 0, 0, 11, 11, 0, 0].getD t.val 0)

/-- The four nodes of a stash, in interleave order (Table 07-8). -/
def stashNode (east : Bool) (i : Nat) : Nat := nodeAt ((if east then 11 else 3) + i % 2) (5 + i / 2 % 2)

def portNode (q : PortId) : Nat :=
  let i := q.val % 7
  let x := [2, 3, 4, 5, 6, 3, 5].getD i 0
  let low := 7 ≤ q.val && q.val < 21
  let y := if i < 5 then (if low then 3 else 8) else if low then 4 else 7
  nodeAt (if q.val < 14 then x else 15 - x) y

/-- Nodes of RE0 to RE3. -/
def reduceNode (g : Eng) : Nat := [nodeAt 4 7, nodeAt 4 4, nodeAt 11 4, nodeAt 11 7].getD g.val 0

/-- Nodes of G0 to G3. -/
def routeNode (g : Eng) : Nat := [nodeAt 6 5, nodeAt 6 6, nodeAt 9 5, nodeAt 9 6].getD g.val 0

def hostNode : Nat := nodeAt 0 5
def stewardNode : Nat := nodeAt 15 6

/-- Every node with a unit (R25). -/
def unitNodes : List Nat :=
  (List.finRange 18).map stationNode ++ (List.finRange 8).flatMap (fun t => (List.range 4).map (towerNode t)) ++
  (List.range 4).map (stashNode false) ++ (List.range 4).map (stashNode true) ++ (List.finRange 28).map portNode ++
  (List.finRange 4).map reduceNode ++ (List.finRange 4).map routeNode ++ [hostNode, stewardNode]

/-- The node has an edge in a direction: to each neighbour that exists (R22), and to a unit where Table 01-3 lists one (R25). -/
def edgeExists (n : Nat) (d : Dir) : Bool :=
  match d with
  | .north => n / 16 < 11
  | .south => 0 < n / 16
  | .west => 0 < n % 16
  | .east => n % 16 < 15
  | .unit => unitNodes.contains n

/-- Island of the unit attached to a node; the engines and the steward bridge have none of their own (Table 10-1). -/
def unitIsland (n : Nat) : Option Nat :=
  match (List.finRange 18).find? fun st => stationNode st = n, (List.finRange 28).find? fun q => portNode q = n with
  | some st, _ => some st.val
  | _, some q => some (0x22 + q.val)
  | _, _ => match (List.finRange 8).find? fun t => (List.range 4).any fun i => towerNode t i = n with
    | some t => some (0x3E + t.val)
    | none =>
      if (List.range 4).any fun i => stashNode false i = n then some 0x46
      else if (List.range 4).any fun i => stashNode true i = n then some 0x47
      else if n = hostNode then some 73 else none

/-! ### Crossings (R289, R293, Table 10-3) -/

/-- Island of a mesh column. -/
def col (c : Nat) : Nat := 0x12 + c

def both (a b : Nat) : List (Nat × Nat) := [(a, b), (b, a)]

def stationColumn (st : Nat) : Nat := nodeCol (stationNode (fin st))

/-- Crossings between a station and its node, and its ring hops (Table 10-3). -/
def stationCrossings (st : St) : List (Nat × Nat) :=
  both st.val (col (nodeCol (stationNode st))) ++ both st.val ((st.val + 1) % 18) ++ both ((st.val + 17) % 18) st.val ++
  (if st.val = 8 || st.val = 0 then both 8 0 else []) ++ (if st.val = 17 || st.val = 9 then both 17 9 else [])

/-- Crossings between a tower interface and its four nodes. -/
def towerCrossings (t : Nat) : List (Nat × Nat) := (List.range 4).flatMap fun i => both (0x3E + t) (col (nodeCol (towerNode (fin t) i)))

/-- Crossings of a port with its node. -/
def portCrossings (q : PortId) : List (Nat × Nat) := both (0x22 + q.val) (col (nodeCol (portNode q)))

/-- The host port domain joins its node by one crossing in each direction (R277); 49h is its number. -/
def hostCrossings : List (Nat × Nat) := both 73 (col (nodeCol hostNode))

/-- Crossings of the seam: the mesh edges between columns 7 and 8 and the two ring crossings (R21, R43). -/
def seamCrossings : List (Nat × Nat) := both (col 7) (col 8) ++ both 8 9 ++ both 17 0

/-- Every crossing of the die. -/
def allCrossings : List (Nat × Nat) :=
  ((List.range 18).flatMap fun i => both i (col (stationColumn i)) ++ both i ((i + 1) % 18)) ++ both 8 0 ++ both 17 9 ++
  ((List.range 15).flatMap fun c => both (col c) (col (c + 1))) ++ ((List.finRange 28).flatMap portCrossings) ++
  ((List.range 8).flatMap towerCrossings) ++
  both 0x46 (col 3) ++ both 0x46 (col 4) ++ both 0x47 (col 11) ++ both 0x47 (col 12) ++ hostCrossings ++ (List.range 72).map fun i => (72, i)

/-- A crossing between two stations is a ring hop, which no hang detector watches (R48). -/
def ringCrossing (c : Nat × Nat) : Bool := c.1 < 18 && c.2 < 18

/-- The crossing that an outgoing edge of a node leads into; edges within a column are none (R280). -/
def edgeCrossing (n : Nat) (d : Dir) : Option (Nat × Nat) :=
  match d with
  | .west => some (col (nodeCol n), col (nodeCol n - 1))
  | .east => some (col (nodeCol n), col (nodeCol n + 1))
  | .unit => (unitIsland n).map fun i => (col (nodeCol n), i)
  | _ => none

/-- The crossing gives no item to its read side: it is fenced, it is being recalibrated, or the clock of its read side is stopped (R289, R291, R292). -/
def State.crossingHeld (s : State) (c : Nat × Nat) : Bool :=
  (s.clk.fenced.any fun f => f.a = c.1 && f.b = c.2) || s.clk.recal.contains c || (c.2 < 73 && !s.islandRuns c.2)

/-- While a park drains the seam, the routers of columns 7 and 8 accept no new flit for a seam edge (R492 step 8). -/
def State.seamShut (s : State) : Bool := match s.pwr.trans with
  | some t => t.phase = .seam
  | none => false

/-- A crossing accepts items: not while it is being recalibrated, nor a seam edge while a park drains the seam (R292, R492). -/
def State.crossingOpen (s : State) (c : Nat × Nat) : Bool := !s.clk.recal.contains c && !(s.seamShut && seamCrossings.contains c)

/-- Items before a crossing that has come to accept them go in, and through where nothing holds them. -/
def State.admitItems (s : State) : State :=
  { s with clk := { s.clk with items := s.clk.items.filterMap fun x =>
      if x.entered || !s.crossingOpen (x.a, x.b) then some x else if s.crossingHeld (x.a, x.b) then some { x with entered := true } else none } }

/-- An access does not go through a crossing now. -/
def State.blocked (s : State) (c : Nat × Nat) : Bool := s.crossingHeld c || (s.seamShut && seamCrossings.contains c)

/-! ### The node that serves an address (R162, R163, R212) -/

/-- Channel of a granule (R162). -/
def channelOf (g : Nat) : Nat :=
  let n (i : Nat) : Nat := g / 2 ^ (4 * i) % 16
  n 0 ^^^ n 1 ^^^ n 2 ^^^ n 3 ^^^ n 4 ^^^ (if bit g 20 then 1 else 0)

/-- The node that serves an address, and the island behind it. -/
def servingNode (a : Nat) : Option (Nat × Nat) :=
  match place a with
  | .tower t off => some (towerNode t (channelOf (off / 4096)), 0x3E + t.val)
  | .stash e off => some (stashNode e (off / 4096), if e then 0x47 else 0x46)
  | .nowhere => none

/-- The request flits of a fetch (R257): one for each serving node in each aligned 64 KiB of its extent, in ascending address order. -/
def requestFlits (a n : Nat) : List (Nat × Nat) :=
  ((partsOf a n).filterMap fun x => (servingNode x.1).map fun v => (x.1 / 65536, v.1)).foldl (fun l r => if l.contains r then l else l ++ [r]) []

/-- Horizontal crossings from one column to another. -/
def columnsBetween (c d : Nat) : List (Nat × Nat) :=
  if c ≤ d then (List.range (d - c)).map fun i => (col (c + i), col (c + i + 1)) else (List.range (c - d)).map fun i => (col (c - i), col (c - i - 1))

/-- The crossing from a unit's island into the column of its node; an engine has no island of its own. -/
def legIn (isl : Option Nat) (node : Nat) : List (Nat × Nat) := match isl with
  | some i => [(i, col (nodeCol node))]
  | none => []

def legOut (isl : Option Nat) (node : Nat) : List (Nat × Nat) := match isl with
  | some i => [(col (nodeCol node), i)]
  | none => []

/-- The crossings of an access from a unit at a node to the part at an address, and back when it reads. The nodes of a tower that does not answer complete the access
themselves (R26, R174). -/
def State.wayTo (s : State) (isl : Option Nat) (node a : Nat) (reads : Bool) : List (Nat × Nat) :=
  match servingNode a with
  | none => []
  | some (n, u) =>
    let ends : Bool := match place a with
      | .tower t _ => s.towerServes t a
      | _ => true
    let c := nodeCol node
    let d := nodeCol n
    legIn isl node ++ columnsBetween c d ++ (if ends then [(col d, u)] else []) ++
    (if reads then (if ends then [(u, col d)] else []) ++ columnsBetween d c ++ legOut isl node else [])

/-- The first crossing that holds an access of a unit back; an access over several granules goes to the node of each (R163). -/
def State.stuckAccess (s : State) (isl : Option Nat) (node a n : Nat) (reads : Bool) : Option (Nat × Nat) :=
  (partsOf a n).findSome? fun x => (s.wayTo isl node x.1 reads).find? s.blocked

/-- The same of one part of a station's access. -/
def State.stuckPart (s : State) (st : St) (a : Nat) (reads : Bool) : Option (Nat × Nat) :=
  (s.wayTo (some st.val) (stationNode st) a reads).find? s.blocked

/-- Where a fetch waits, if it does (R289). A remote one and one from local store uses no such way. -/
def State.stuckFetch (s : State) (f : Fetch) : Option (Nat × Nat) :=
  if f.remote || f.data.isSome then none else (f.parts.filter fun x => x.data.isNone).findSome? fun x => s.stuckPart f.st x.addr true

def State.stuckWrite (s : State) (w : MemWrite) : Option (Nat × Nat) :=
  if w.written then none else w.parts.findSome? fun x => s.stuckPart w.who x.1 false

/-- The crossings from the unit at a node to another node. -/
def wayOut (isl : Option Nat) (node dest : Nat) : List (Nat × Nat) := legIn isl node ++ columnsBetween (nodeCol node) (nodeCol dest)

/-- Where an engine descriptor waits (R289). -/
def State.stuckDesc (s : State) (d : DescFlight) : Option (Nat × Nat) :=
  (match d.dst with
   | .route g => wayOut (some d.st.val) (stationNode d.st) (routeNode g)
   | .transpose t | .madder t =>
     wayOut (some d.st.val) (stationNode d.st) (towerNode t 0) ++ (if s.towerUp t then [(col (nodeCol (towerNode t 0)), 0x3E + t.val)] else [])).find? s.blocked

/-- Where a mordant operation of a station waits on its way to the holding station (R289). -/
def State.stuckMor (s : State) (m : MorOp) : Option (Nat × Nat) :=
  match m.st, s.morHolder m.part m.mor.toNat with
  | some a, some b =>
    if a = b then none
    else (wayOut (some a.val) (stationNode a) (stationNode b) ++ [(col (nodeCol (stationNode b)), b.val)]).find? s.blocked
  | _, _ => none

/-- Island and node from which the blocks of a transfer come: a station's; those of an engine, which has no island of its own, for `vat` 33; those of a tower that drains, by the node that
its run names, for 34. -/
def xferIsl (x : Xfer) : Option Nat := if x.vat = 33 then none else if x.vat = 34 then some (0x3E + x.st.val) else some x.st.val
def xferNode (x : Xfer) : Nat := if x.vat = 33 then reduceNode (fin x.st.val) else if x.vat = 34 then towerNode (fin x.st.val) x.rpart else stationNode x.st

/-- Where a transfer waits on its way from its station or engine to the ports by which it leaves, or to its own device's engine (R289). The read of a response has brought its data to the
port already. -/
def State.stuckXfer (s : State) (x : Xfer) : Option (Nat × Nat) :=
  if x.kind = .readResp then none
  else
    let isl := xferIsl x
    let node := xferNode x
    let way := if x.kind = .reduce && s.ownRoute x.part x.route then
        wayOut isl node (reduceNode (fin (bits (s.groupEntry x.part (bits (s.routeEntry x.part x.route) 44 37)) 254 253)))
      else (s.xferPorts x).flatMap fun q => wayOut isl node (portNode q) ++ [(col (nodeCol (portNode q)), 0x22 + q.val)]
    way.find? s.blocked

/-- The memory access of a transaction block on its way from its arrival port: partition, address, bytes, and whether it reads (Table 12-1, R341, R342, R354). -/
def State.blockAccess (s : State) (q : PortId) (b : Block) : Option (Part × Nat × Nat × Bool) :=
  let own (a n : Nat) (rd : Bool) : Option (Part × Nat × Nat × Bool) := (s.portOwner q).map fun p => (p, a, n, rd)
  let len := if bit b.net 0 then max 1 (min 240 (leNat ((b.data.drop 238).take 2))) else 240
  let req := leNat (b.data.take 15)
  let wanted := min 2097152 (bits req 95 64) + if bit req 112 then 4096 else 0
  let p : Part := fin (bits b.net 27 26)
  match bits b.net 47 44 with
  | 0 => own (bits b.net 33 2 * 16) len false
  | 1 => own (bits req 63 0) wanted true
  | 6 => own (bits b.net 32 1 * 16) len false
  | 8 => some (p, (bits (s.reg 0x5201 (p.val + 1)) 31 0 + bits b.net 23 1) * 16, len, false)
  | 9 => some (p, bits req 63 0, wanted, true)
  | _ => none

/-- Where a delivered block waits on its way to memory (R289). -/
def State.stuckBlock (s : State) (q : PortId) (b : Block) : Option (Nat × Nat) :=
  (s.blockAccess q b).bind fun x => s.stuckAccess (some (0x22 + q.val)) (portNode q) x.2.1 x.2.2.1 x.2.2.2

/-- Blocks at the head of a port's queues, which wait where their way is blocked. -/
def State.headBlocks (s : State) (q : PortId) : List Block := (vget s.ports q).inSched.take 1 ++ (vget s.ports q).inOpen.toList.flatMap (·.take 1)

/-- Owners of the items that wait in a crossing: fetches, writes, descriptors, mordant operations, transfers to ports, blocks of ports, and flits and host requests that have been sent into it.
What a shut seam edge or a crossing under recalibration holds back waits before it. Dropped fetches raise no fault of any kind (R206). -/
def State.itemOwners (s : State) (c : Nat × Nat) : List (Option Part) :=
  if !s.crossingHeld c || s.clk.recal.contains c then [] else
  ((s.fetches.filter fun f => !f.dropped && s.stuckFetch f = some c).map fun f => s.jobAt f.st) ++
  ((s.writes.filter fun w => s.stuckWrite w = some c).map fun w => some w.part) ++
  ((s.descs.filter fun d => s.stuckDesc d = some c).map fun d => some d.part) ++
  ((s.morOps.filter fun m => s.stuckMor m = some c).map fun m => some m.part) ++
  ((List.finRange 28).flatMap fun q => ((s.headBlocks q).filter fun b => s.stuckBlock q b = some c).map fun b => (s.blockAccess q b).map (·.1)) ++
  ((s.xfers.filter fun x => s.stuckXfer x = some c).map fun x => some x.part) ++
  ((s.clk.items.filter fun x => x.entered && (x.a, x.b) = c).map fun x => x.owner)

/-- Crossings that a joint reset takes (R292): items and fence are gone, calibration is still to come. A fetch whose items are discarded is never answered. -/
def State.resetCrossings (s : State) (l : List (Nat × Nat)) : State :=
  let lost (c : Option (Nat × Nat)) : Bool := match c with
    | some c => l.contains c && !s.clk.recal.contains c
    | none => false
  { s with
    fetches := s.fetches.filter fun f => !lost (s.stuckFetch f)
    writes := s.writes.filter fun w => !lost (s.stuckWrite w)
    descs := s.descs.filter fun d => !lost (s.stuckDesc d)
    morOps := s.morOps.filter fun m => !lost (s.stuckMor m)
    xfers := s.xfers.filter fun x => !lost (s.stuckXfer x)
    hostHeld := s.hostHeld.filter fun x => !lost (x.way.find? s.blocked)
    ports := Vector.ofFn fun q =>
      let x := vget s.ports q
      let keep (l : List Block) : List Block := match l with
        | b :: r => if lost (s.stuckBlock q b) then r else l
        | [] => []
      { x with inSched := keep x.inSched, inOpen := x.inOpen.map keep }
    clk := { s.clk with
      items := s.clk.items.filter fun x => !(x.entered && l.contains (x.a, x.b))
      fenced := s.clk.fenced.filter fun f => !l.contains (f.a, f.b)
      recal := s.clk.recal.filter (fun c => !l.contains c) ++ l } }

/-! ### Slot counts (R287) -/

/-- Cycles that an island has started since the frame mark, `perUs` of them in each microsecond: a stretched cycle takes the time of two at the mesh rate. -/
def State.cyclesSince (s : State) (i : Island) (perUs : Nat) : Nat := s.time.toNat % 512 * perUs / 1000 - vget s.clk.stretch i

/-- The slot count of a mesh stretch group member; a cycle that would carry 1,024 or more starts no slot. -/
def State.meshSlot (s : State) (i : Island) : Option Nat := let n := s.cyclesSince i 2000; if n < 1024 then some n else none

/-- The sc count of a station between two frame marks. -/
def State.scCount (s : State) (st : St) : Nat := s.cyclesSince (fin st.val) (s.reg 0x4101 (st.val + 1))

end Sys2Proof.Machine
end

