-- ==== Sys2Proof/Machine/Lanes.lean ====
section
/-!
DEFINITION. Vector lanes (R126 to R148, R267 to R269): micro-ops, draws, and a program run on one row of a feed, a drain or a VEC.OP.
-/
namespace Sys2Proof.Machine

def f32 (w : Nat) : Val := Fmt.fp32.decode (w % 2 ^ 32)
def w32 (v : Val) : W32 := BitVec.ofNat 32 (Fmt.fp32.encode v)

/-- A word of a draw rotated left. -/
def rotl (x : W32) (n : Nat) : W32 := x.rotateLeft n

/-- One round of mix() (R145): registers a, b, c, d, k0. -/
def mixRound (k1 : W32) (r : W32 × W32 × W32 × W32 × W32) (i : Nat) : W32 × W32 × W32 × W32 × W32 :=
  match r with
  | (a, b, c, d, k0) =>
    let a := a + k0 + BitVec.ofNat 32 i
    let b := b ^^^ k1
    let a := a + b
    let d := rotl (d ^^^ a) 13
    let c := c + d
    let b := rotl (b ^^^ c) 9
    let a := a + b
    let d := rotl (d ^^^ a) 11
    let c := c + d
    let b := rotl (b ^^^ c) 5
    (a, b, c, d, rotl k0 3 + 0x7F4A3C61#32)

/-- mix() (R145). -/
def mix (key : W64) (step : W32) (purpose tid idx : Nat) : W32 :=
  let init : W32 × W32 × W32 × W32 × W32 :=
    (step, BitVec.ofNat 32 (tid + purpose * 2 ^ 22 + idx / 2 ^ 32 % 256 * 2 ^ 24), BitVec.ofNat 32 idx, 0x5C2EA71D#32, key.setWidth 32)
  match (List.range 6).foldl (mixRound ((key >>> 32).setWidth 32)) init with
  | (a, b, c, d, _) => a ^^^ b ^^^ c ^^^ d

/-- Neighbours of a magnitude in a format: nearer to zero and further from it (R148). -/
def Fmt.neighbours (f : Fmt) (m : Rat) : Rat × Rat :=
  if m = 0 then (0, 0)
  else
    let u := f.ulpAt m
    let lo := ((m / u).floor : Rat) * u
    if lo = m then (m, m) else (lo, lo + u)

/-- Stochastic CVT (R148) with draw `u`. -/
def stochastic (f : Fmt) (v : Val) (u : W32) : Val × Bool :=
  match v with
  | .num n m =>
    let nb := f.neighbours m
    if nb.1 = nb.2 then (Val.num n m).sat f
    else
      let t := ((m - nb.1) / (nb.2 - nb.1) * (2 ^ 32 : Nat)).floor.toNat
      (Val.num n (if u.toNat < t then nb.2 else nb.1)).sat f
  | v => (f.decode (convOut f v).1, (convOut f v).2)

/-- The three kinds of path (R269). -/
inductive Path where
  | pro | epi | op
  deriving DecidableEq, Repr

/-- Micro-op fields (Table 09-11). -/
def uCode (u : W128) : Nat := fld u 7 0
def uFlags (u : W128) : Nat := fld u 12 8
def uP1 (u : W128) : Nat := fld u 95 64
def uP2 (u : W128) : Nat := fld u 127 96
def uRf (u : W128) : Nat := fld u 61 40 * 8
def uVr (u : W128) : Nat := fld u 39 35
def uDst (u : W128) : Nat := fld u 34 32

/-- A path may run the micro-op (Table 09-12), and none of its reserved codes or bits is used. -/
def uopAllowed (p : Path) (u : W128) : Bool :=
  fld u 63 62 = 0 && fld u 22 13 = 0 &&
  (uDst u < 2 || (uDst u = 2 && p = .op)) &&
  (match uCode u with
   | 0x00 | 0x01 | 0x02 | 0x03 | 0x04 | 0x06 | 0x07 | 0x08 | 0x09 => true
   | 0x05 => bits (uFlags u) 2 0 < 6
   | 0x0A => bits (uFlags u) 3 0 ≤ 4 && (!bit (uFlags u) 4 || p ≠ .op)
   | 0x0B => p ≠ .op
   | 0x0C => p = .epi
   | 0x0D => p ≠ .op
   | 0x0E | 0x0F | 0x10 | 0x11 | 0x12 => p = .epi
   | 0x13 => p ≠ .op && bits (uP2 u) 18 10 + bits (uP2 u) 9 0 + 1 ≤ 512
   | _ => false)

/-- What a path takes from the job: the random key (R145) and the end of local store, where the program region begins (R216). -/
structure JobCtx where
  key : W64
  lim : Nat
  deriving DecidableEq, Repr

/-- One row on its way through a path: row number, the elements as they entered, the aside elements, whether NSTAT starts its entries and column
sums, the instruction that armed the program, the job. -/
structure RowIn where
  path : Path
  row : Nat
  first : Bool
  elems : List Val
  aside : List Val
  start : Bool
  e : Entry
  job : JobCtx
  deriving DecidableEq, Repr

/-- What a path changes as it runs: station, running values, temporary, mask, flags, consumption of poison, a fault 01h. -/
structure RowSt where
  x : Station
  run : List Val
  tmp : List Val
  mask : List Bool
  fl : Fl
  poison : Bool
  fault : Bool
  deriving DecidableEq, Repr

/-- A 32-bit word of local store as FP32, and whether it is poisoned. -/
def lsF32 (x : Station) (a : Nat) : Val × Bool := (f32 (leP (x.lsRead a 4)), anyPoison (x.lsRead a 4))

def lsPutF32 (x : Station) (a : Nat) (v : Val) : Station := x.lsWrite a (clean (leBytes 4 (w32 v).toNat))

/-- A column of a vector register: one value per lane (R126). -/
def vreg (x : Station) (r c : Nat) : Val := f32 (sget 0 x.vec.vregs (r % 32 * 1024 + c % 1024)).toNat

/-- Step, tensor identifier and element index of a draw (R145, R268). -/
def drawIdx (i : RowIn) (c : Nat) : Nat :=
  (kr i.e.k (fld i.e.word 26 22)).toNat % 2 ^ 40 + i.row * ((kr i.e.k (fld i.e.word 31 27)).toNat % 2 ^ 40) + c

def draw (i : RowIn) (purpose c : Nat) : W32 :=
  mix i.job.key ((kr i.e.k (fld i.e.word 21 17)).setWidth 32) purpose (fld i.e.word 53 32) (drawIdx i c)

/-- A source of a micro-op for every column (Table 09-11): the values and whether one of them is poisoned. Kind 101b without an aside stream or second tile has no values, and the row comes out
empty: DESIGN CHOICE, the spec gives it neither value nor fault (assumption log 142). -/
def source (i : RowIn) (r : RowSt) (u : W128) (kind : Nat) : List Val × Bool :=
  let n := i.elems.length
  match kind with
  | 0 => (r.run, false)
  | 1 => ((List.range n).map fun c => vreg r.x (uVr u) c, false)
  | 2 => (List.replicate n (lsF32 r.x (uRf u + 8 * i.row)).1, (lsF32 r.x (uRf u + 8 * i.row)).2)
  | 3 => (List.replicate n (lsF32 r.x (uRf u + 8 * i.row + 4)).1, (lsF32 r.x (uRf u + 8 * i.row + 4)).2)
  | 4 => (List.replicate n (f32 (uP1 u)), false)
  | 5 => (i.aside, false)
  | 6 => (r.tmp, false)
  | _ => (i.elems, false)

/-- Results of an elementwise micro-op, with their flags. -/
def each (l : List (Val × Bool)) : List Val × Fl :=
  (l.map (·.1), ⟨l.any (·.2), l.any fun v => !v.1.finite⟩)

/-- Column record write of DST 010b (VEC.OP). -/
def putVreg (x : Station) (r : Nat) (vs : List Val) : Station :=
  { x with vec := { x.vec with
      vregs := vs.zipIdx.foldl (fun m (v, c) => sput 0 m (r % 32 * 1024 + c % 1024) (w32 v)) x.vec.vregs } }

/-- The result of a micro-op goes to its destination (R268). -/
def putDst (r : RowSt) (u : W128) (vs : List Val) (fl : Fl) : RowSt :=
  let r := { r with fl := r.fl.or fl }
  match uDst u with
  | 0 => { r with run := vs }
  | 1 => { r with tmp := vs }
  | _ => { r with x := putVreg r.x (uVr u) vs }

/-- Ordered comparison of two values that are not NaN; infinities as the reals' ends. -/
def vlt (a b : Val) : Bool :=
  match a, b with
  | .nan, _ => false
  | _, .nan => false
  | .inf x, .inf y => x && !y
  | .inf x, .num _ _ => x
  | .num _ _, .inf y => !y
  | .num x p, .num y q => signed x p < signed y q

def veq (a b : Val) : Bool :=
  match a, b with
  | .inf x, .inf y => x = y
  | .num x p, .num y q => signed x p = signed y q
  | _, _ => false

/-- MAX and MIN (Table 05-1). -/
def vmax (a b : Val) : Val :=
  if a.isNaN || b.isNaN then .nan
  else if vlt a b then b else if vlt b a then a
  else match a with
    | .num true _ => b
    | _ => a

def vmin (a b : Val) : Val :=
  if a.isNaN || b.isNaN then .nan
  else if vlt a b then a else if vlt b a then b
  else match a with
    | .num true _ => a
    | _ => b

/-- The relations of CMP (Table 09-12). -/
def vcmp (rel : Nat) (a b : Val) : Bool :=
  match rel with
  | 0 => veq a b
  | 1 => !veq a b
  | 2 => vlt a b
  | 3 => vlt a b || veq a b
  | 4 => vlt b a
  | _ => vlt b a || veq a b

/-- EXP2 (Table 05-1). -/
def vexp2 (a : Val) : Val × Bool :=
  match a with
  | .nan => (.nan, false)
  | .inf true => (.num false 0, false)
  | .inf false => (.inf false, false)
  | .num n m => exp2V (signed n m)

/-- RCP and RSQRT (Table 05-1). RSQRT of −0 is −∞, as IEEE 754 has it: DESIGN CHOICE, the table gives the result for +0 alone (assumption log 114). -/
def vrcp (a : Val) : Val × Bool := ((Val.num false 1).divX a).rnd .fp32

def vrsqrt (a : Val) : Val × Bool :=
  match a with
  | .nan => (.nan, false)
  | .inf n => if n then (.nan, false) else (.num false 0, false)
  | .num n m =>
    if m = 0 then (.inf n, false)
    else if n then (.nan, false)
    else (Val.num false (sqrtRne .fp32 (1 / m))).sat .fp32

/-- Double-FP32 pair at a local-store offset, and poison. -/
def lsDD (x : Station) (a : Nat) : DD × Bool := (⟨(lsF32 x a).1, (lsF32 x (a + 4)).1⟩, (lsF32 x a).2 || (lsF32 x (a + 4)).2)

def lsPutDD (x : Station) (a : Nat) (d : DD) : Station := lsPutF32 (lsPutF32 x a d.hi) (a + 4) d.lo

/-- dd_add() over a list of terms. -/
def ddSum (d : DD) (ts : List Val) : DD × Bool :=
  ts.foldl (fun a t => ((ddAdd a.1 t).1, a.2 || (ddAdd a.1 t).2)) (d, false)

/-- Accumulates terms into the pair at an offset, from (+0, +0) when `start`. -/
def ddInto (r : RowSt) (a : Nat) (start : Bool) (ts : List Val) : RowSt :=
  let d0 := if start then (DD.zero, false) else lsDD r.x a
  let d := ddSum d0.1 ts
  { r with x := lsPutDD r.x a d.1, fl := r.fl.or ⟨d.2, !d.1.hi.finite⟩, poison := r.poison || d0.2 }

/-- x̂ and its parts: (x − μ) × rstd, exact (R136, R137). -/
def xhat (x mu rstd : Val) : Val := (x.addX mu.neg).mulX rstd

/-- Softmax entry of a row (R138). -/
def smGet (x : Station) (i : Nat) : Val × Val :=
  (f32 (sget 0 x.vec.softmax (2 * i)).toNat, f32 (sget 0 x.vec.softmax (2 * i + 1)).toNat)

def smPut (x : Station) (i : Nat) (m l : Val) : Station :=
  { x with vec := { x.vec with softmax := sput 0 (sput 0 x.vec.softmax (2 * i) (w32 m)) (2 * i + 1) (w32 l) } }

/-- SMAX on one row (R139). An entry past 16,383 wraps: DESIGN CHOICE, no rule bounds base + row (assumption log 114). -/
def smax (r : RowSt) (i : RowIn) (u : W128) (a : List Val) : RowSt :=
  let ix := (bits (uP1 u) 13 0 + i.row) % 16384
  let (m, l) := smGet r.x ix
  let putC (x : Station) (c : Val) : Station := lsPutF32 x (uP2 u + 8 * i.row) c
  if a.any Val.isNaN || m.isNaN then
    putDst { r with x := putC (smPut r.x ix .nan .nan) .nan } u (a.map fun _ => .nan) ⟨false, true⟩
  else
    let mn := a.foldl vmax m
    if mn = .inf true then putDst { r with x := putC r.x (.num false 1) } u (a.map fun _ => .num false 0) Fl.none
    else
      let c := if m = .inf true then (Val.num false 0, false) else vexp2 ((m.addX mn.neg))
      let p := a.map fun v => vexp2 (if v = .inf true then .inf true else v.addX mn.neg)
      let t := tree .fp32 (Nat.log2 a.length) p
      let lc := mulV .fp32 l c.1
      let ln := addV .fp32 lc.1 t.1
      putDst { r with x := putC (smPut r.x ix mn ln.1) c.1, fl := r.fl.or ⟨c.2 || lc.2 || t.2 || ln.2, !ln.1.finite⟩ } u
        (p.map (·.1)) (each p).2

/-- ROPE on one row (R142 to R144). The row number q is the tile row on a drain and the feed row on a prologue, and the absent partner of a last head that the row cuts off
reads as +0: DESIGN CHOICE both (assumption log 114). -/
def rope (r : RowSt) (i : RowIn) (u : W128) (a : List Val) : RowSt :=
  let half := bits (uP2 u) 9 0 + 1
  let first := bits (uP2 u) 18 10
  let w := leP (r.x.lsRead (uRf u + 8 * i.row) 4)
  let q := if bit (uFlags u) 2 then w else i.row
  let bad := bit (uFlags u) 2 && 2 ^ 24 ≤ w
  let pois := bit (uFlags u) 2 && anyPoison (r.x.lsRead (uRf u + 8 * i.row) 4)
  let pos := bits (uP1 u) 23 0 + q
  if bad || decide (2 ^ 24 ≤ pos) then { r with fault := true, poison := r.poison || pois }
  else
    let d := 2 * half
    let el (c : Nat) : Val := a.getD c (.num false 0)
    let out := (List.range a.length).map fun c =>
      let h := c / d * d
      let o := c % d
      let pr := if bit (uFlags u) 0 then o % half else o / 2
      let isA := if bit (uFlags u) 0 then decide (o < half) else decide (o % 2 = 0)
      let xa := if bit (uFlags u) 0 then el (h + pr) else el (h + 2 * pr)
      let xb := if bit (uFlags u) 0 then el (h + pr + half) else el (h + 2 * pr + 1)
      let cs := cosSin (pos * (sget 0 r.x.vec.rope (first + pr)).toNat % 2 ^ 48)
      let sn := if bit (uFlags u) 1 then cs.2.neg else cs.2
      if isA then (((xa.mulX cs.1).addX (xb.mulX sn).neg).rnd .fp32) else (((xa.mulX sn).addX (xb.mulX cs.1)).rnd .fp32)
    let o := each out
    putDst { r with poison := r.poison || pois } u o.1 o.2

/-- The sources that a micro-op reads (Table 05-1). -/
def uopKinds (u : W128) : List Nat :=
  match uCode u with
  | 0x02 => [fld u 25 23, fld u 28 26, fld u 31 29]
  | 0x00 | 0x01 | 0x03 | 0x04 | 0x05 | 0x06 => [fld u 25 23, fld u 28 26]
  | 0x12 => []
  | _ => [fld u 25 23]

/-- Ends of the extents of local store that a micro-op reads or writes for a row of `n` elements (Table 09-12). -/
def uopEnds (i : RowIn) (n : Nat) (u : W128) : List Nat :=
  let rf := [uRf u + 8 * i.row + 8]
  let rec2 := [uP2 u + (if bit (uFlags u) 0 then 16 else 8) * (i.row + 1)]
  let rows := [uP2 u + 4 * n * (i.row + 1)]
  (if (uopKinds u).any fun k => k = 2 || k = 3 then rf else []) ++
  match uCode u with
  | 0x0C => rec2
  | 0x0D => rf
  | 0x0E => rf ++ rec2 ++ [uP1 u + 16 * n]
  | 0x0F => rf ++ [uP2 u + 8 * (i.row + 1)]
  | 0x10 => [uP2 u + 8 * i.row + 4]
  | 0x11 => rf ++ rows
  | 0x12 => rows
  | 0x13 => if bit (uFlags u) 2 then [uRf u + 8 * i.row + 4] else []
  | _ => []

/-- One micro-op on a row (Table 05-1, Table 09-12). -/
def uop (i : RowIn) (u : W128) (r : RowSt) : RowSt :=
  let sa := source i r u (fld u 25 23)
  let sb := source i r u (fld u 28 26)
  let sc := source i r u (fld u 31 29)
  let a := sa.1
  let b := sb.1
  let z2 (f : Val → Val → Val × Bool) : RowSt :=
    let o := each (List.zipWith f a b)
    putDst { r with poison := r.poison || sa.2 || sb.2 } u o.1 o.2
  let z1 (f : Val → Val × Bool) : RowSt :=
    let o := each (a.map f)
    putDst { r with poison := r.poison || sa.2 } u o.1 o.2
  let rf := lsF32 r.x (uRf u + 8 * i.row)
  let rg := lsF32 r.x (uRf u + 8 * i.row + 4)
  let layer := bit (uFlags u) 0
  let rfp := rf.2 || rg.2
  match uCode u with
  | 0x00 => z2 (addV .fp32)
  | 0x01 => z2 (mulV .fp32)
  | 0x02 =>
    let o := each (List.zipWith (fun ab c => (ab.addX c).rnd .fp32) (List.zipWith Val.mulX a b) sc.1)
    putDst { r with poison := r.poison || sa.2 || sb.2 || sc.2 } u o.1 o.2
  | 0x03 => z2 fun p q => (vmax p q, false)
  | 0x04 => z2 fun p q => (vmin p q, false)
  | 0x05 => { r with mask := List.zipWith (vcmp (bits (uFlags u) 2 0)) a b, poison := r.poison || sa.2 || sb.2 }
  | 0x06 =>
    let o := each ((List.zipWith (fun (m : Bool) (p : Val × Val) => if m then p.1 else p.2) r.mask (a.zip b)).map (·, false))
    putDst { r with poison := r.poison || sa.2 || sb.2 } u o.1 o.2
  | 0x07 => z1 vexp2
  | 0x08 => z1 vrcp
  | 0x09 => z1 vrsqrt
  | 0x0A =>
    match Fmt.ofCode (bits (uFlags u) 3 0) with
    | none => r
    | some f =>
      let o := each (a.zipIdx.map fun (v, c) =>
        if bit (uFlags u) 4 then stochastic f v (draw i 1 c) else (f.decode (convOut f v).1, (convOut f v).2))
      putDst { r with
        poison := r.poison || sa.2
        fault := r.fault || (bit (uFlags u) 4 && decide (2 ^ 40 ≤ drawIdx i (a.length - 1))) } u o.1 o.2
  | 0x0B =>
    let o := each (a.zipIdx.map fun (v, c) => if (draw i 0 c).toNat < uP2 u then (.num false 0, false) else mulV .fp32 v (f32 (uP1 u)))
    putDst { r with
      poison := r.poison || sa.2
      fault := r.fault || decide (2 ^ 40 ≤ drawIdx i (a.length - 1)) } u o.1 o.2
  | 0x0C =>
    let sz := if layer then 16 else 8
    let at0 := uP2 u + sz * i.row
    let sqs := a.map fun v => mulV .fp32 v v
    let sq := sqs.map (·.1)
    let r := { r with poison := r.poison || sa.2, fl := r.fl.or ⟨sqs.any (·.2), false⟩ }
    let r := if layer then ddInto (ddInto r at0 i.start a) (at0 + 8) i.start sq else ddInto r at0 i.start sq
    putDst r u a Fl.none
  | 0x0D =>
    let n := a.length
    let o := each ((List.range n).map fun c =>
      let g := vreg r.x (uVr u) c
      let be := if layer then vreg r.x (uVr u + 1) c else .num false 0
      (((xhat (a.getD c (.num false 0)) rg.1 rf.1).mulX g).addX be).rnd .fp32)
    putDst { r with poison := r.poison || sa.2 || rfp } u o.1 o.2
  | 0x0E =>
    let sz := if layer then 16 else 8
    let at0 := uP2 u + sz * i.row
    let n := a.length
    let g (c : Nat) : Val := vreg r.x (uVr u) c
    let xh (c : Nat) : Val := xhat (i.aside.getD c (.num false 0)) rg.1 rf.1
    let dy (c : Nat) : Val := a.getD c (.num false 0)
    let t1s := (List.range n).map fun c => ((((g c).mulX (dy c)).mulX (xh c)).rnd .fp32)
    let t2s := (List.range n).map fun c => (((g c).mulX (dy c)).rnd .fp32)
    let t3s := (List.range n).map fun c => ((dy c).mulX (xh c)).rnd .fp32
    let t1 := t1s.map (·.1)
    let t2 := t2s.map (·.1)
    let r := { r with poison := r.poison || sa.2 || rfp, fl := r.fl.or ⟨t1s.any (·.2) || (layer && t2s.any (·.2)) || t3s.any (·.2), false⟩ }
    let r := if layer then ddInto (ddInto r at0 i.start t1) (at0 + 8) i.start t2 else ddInto r at0 i.start t1
    let r := (List.range n).foldl (fun r c =>
      ddInto (ddInto r (uP1 u + 16 * c) (i.start && i.first) [(t3s.getD c (.num false 0, false)).1])
        (uP1 u + 16 * c + 8) (i.start && i.first) [dy c]) r
    putDst r u a Fl.none
  | 0x0F =>
    let e1 := lsF32 r.x (uP2 u + 8 * i.row)
    let e2 := lsF32 r.x (uP2 u + 8 * i.row + 4)
    let o := each ((List.range a.length).map fun c =>
      let gdy := (vreg r.x (uVr u) c).mulX (a.getD c (.num false 0))
      let xh := xhat (i.aside.getD c (.num false 0)) rg.1 rf.1
      let inner := if layer then e2.1.addX (xh.mulX e1.1) else xh.mulX e1.1
      let d := gdy.addX inner.neg
      (rf.1.mulX d).rnd .fp32)
    putDst { r with poison := r.poison || sa.2 || rfp || e1.2 || e2.2 } u o.1 o.2
  | 0x10 => smax { r with poison := r.poison || sa.2 } i u a
  | 0x11 =>
    let n := a.length
    let at0 := uP2 u + 4 * n * i.row
    let old := (List.range n).map fun c => lsF32 r.x (at0 + 4 * c)
    let prod := old.map fun o => mulV .fp32 o.1 rf.1
    let o := each (List.zipWith (fun p b => ((addV .fp32 p.1 b).1, p.2 || (addV .fp32 p.1 b).2)) prod a)
    let x := o.1.zipIdx.foldl (fun x (v, c) => lsPutF32 x (at0 + 4 * c) v) r.x
    putDst { r with x := x, poison := r.poison || sa.2 || rf.2 || old.any (·.2) } u o.1 o.2
  | 0x12 =>
    let n := a.length
    let at0 := uP2 u + 4 * n * i.row
    let l := (smGet r.x ((bits (uP1 u) 13 0 + i.row) % 16384)).2
    let old := (List.range n).map fun c => lsF32 r.x (at0 + 4 * c)
    let o := each (old.map fun o => if l.isZero then (.num false 0, false) else (o.1.divX l).rnd .fp32)
    putDst { r with poison := r.poison || old.any (·.2) } u o.1 o.2
  | _ => rope { r with poison := r.poison || sa.2 } i u a

/-- A micro-op within local store, or fault 01h for one that reaches the program region (R216). -/
def uopIn (i : RowIn) (u : W128) (r : RowSt) : RowSt :=
  if (uopEnds i i.elems.length u).any fun a => i.job.lim < a then { r with fault := true } else uop i u r

/-- A program on one row (R268). The mask is all false before a CMP, and the temporary reads as +0 before it is written: DESIGN CHOICE (assumption log 114). -/
def runProg (x : Station) (us : List W128) (i : RowIn) : RowSt :=
  us.foldl (fun r u => uopIn i u r) ⟨x, i.elems, i.elems.map fun _ => .num false 0, i.elems.map fun _ => false, Fl.none, false, false⟩

/-- The micro-op list at a local-store offset, and whether a word of it is poisoned. -/
def readUops (x : Station) (a n : Nat) : List W128 × Bool :=
  ((List.range n).map fun j => BitVec.ofNat 128 (leP (x.lsRead (a + 16 * j) 16)), anyPoison (x.lsRead a (16 * n)))

/-- Elements of a row of bytes in a format of at least a byte (R127). -/
def rowVals (f : Fmt) (l : List PByte) : List Val :=
  let w := f.width / 8
  (chunks w (l.length / w) l).map fun c => f.decode (leP c)

/-- Row bytes of values in a format of at least a byte, with flags (R123). -/
def valsRow (f : Fmt) (vs : List Val) : List Byte × Fl :=
  let o := vs.map (convOut f)
  ((o.map fun b => leBytes (f.width / 8) b.1).flatten, ⟨o.any (·.2), vs.any fun v => !v.finite⟩)

end Sys2Proof.Machine
end

