-- ==== Sys2Proof/Machine/Products.lean ====
section
/-!
DEFINITION. Products of the array: weight blocks, operand rows, product rows, and the two sides of the witness check (R56 to R64, R74, R77 to
R79, R83 to R86, R96 to R106, R390, R393).
-/
namespace Sys2Proof.Machine

/-- Bytes of a weight block in its slot (R264). -/
def blockBytes (fmt k n : Nat) : Nat := if 5 ≤ fmt then n * rowBytes fmt k else k * n * (rowBytes fmt 1)

/-- A bit field of a byte string read as a little-endian bit string (R96). -/
def bitsAt (l : List PByte) (off w : Nat) : Nat := bits (leP ((l.drop (off / 8)).take 3)) (off % 8 + w - 1) (off % 8)

/-- Element (r, c) of a weight block without its scale; padded positions are +0 (R77, R264). -/
def Weights.el (w : Weights) (f : Fmt) (r c : Nat) : Val :=
  if w.k ≤ r ∨ w.n ≤ c then .num false 0
  else if f.isMx then f.decode (bitsAt (w.data.drop (c * rowBytes w.fmt w.k)) (f.width * r) f.width)
  else f.decode (leP ((w.data.drop ((r * w.n + c) * (f.width / 8))).take (f.width / 8)))

/-- Scale byte of block b of column c; 0 for a padded block. -/
def Weights.scale (w : Weights) (f : Fmt) (b c : Nat) : Nat :=
  if w.n ≤ c ∨ w.k ≤ 32 * b then 0
  else match w.data[c * rowBytes w.fmt w.k + f.width * w.k / 8 + b]? with
    | some x => x.b.toNat
    | none => 0

/-- An operand row: element values (padded with +0 from k on) and MX scales (R77, R96). -/
structure OpRow where
  els : List Val
  scales : List Nat
  deriving DecidableEq, Repr

def operandRow (f : Fmt) (kk k : Nat) (l : List PByte) : OpRow :=
  if f.isMx then
    ⟨(List.range kk).map fun i => if i < k then f.decode (bitsAt l (f.width * i) f.width) else .num false 0,
     (List.range (kk / 32)).map fun b => if 32 * b < k then (match l[f.width * kk / 8 + b]? with
       | some x => x.b.toNat
       | none => 0) else 0⟩
  else ⟨(List.range kk).map fun i => if i < k then f.decode (leP ((l.drop (i * (f.width / 8))).take (f.width / 8))) else .num false 0, []⟩

/-- Value of an MX element with its block scale, in FP32 for the witness, with the clamp indication (R84, R95, R96). -/
def scaled (v : Val) (sc : Nat) : Val × Bool := if sc = 255 then (.nan, false) else (v.mulX (.num false (pow2 ((sc : Int) - 127)))).rnd .fp32

/-- One column of a product row in accumulation format `fa` (R98 to R104). -/
def column (fx fw fa : Fmt) (kk : Nat) (x : OpRow) (w : Weights) (c : Nat) : Val × Bool :=
  let p := x.els.zipIdx.map fun (v, r) => v.mulX (w.el fw r c)
  if fx.isMx then columnOutputMx kk p x.scales ((List.range (kk / 32)).map fun b => w.scale fw b c)
  else columnOutput fx.isFp8 fa kk p

/-- The three tree outputs of an FP32 three-term column (R106). -/
def column3 (kk : Nat) (x : OpRow) (w : Weights) (c : Nat) : List (Val × Bool) :=
  let xs := x.els.map splitBf
  let ws := (List.range kk).map fun r => splitBf (w.el .fp32 r c)
  let t (a b : List Val) : Val × Bool := columnOutput false .fp32 kk (List.zipWith Val.mulX a b)
  [t (xs.map (·.2)) (ws.map (·.1)), t (xs.map (·.1)) (ws.map (·.2)), t (xs.map (·.1)) (ws.map (·.1))]

/-- r := add(add(T0, T1), T2) (R106). -/
def combine3 (t : List (Val × Bool)) : Val × Bool :=
  let a := t.getD 0 (.num false 0, false)
  let b := t.getD 1 (.num false 0, false)
  let c := t.getD 2 (.num false 0, false)
  let ab := addV .fp32 a.1 b.1
  let r := addV .fp32 ab.1 c.1
  (r.1, a.2 || b.2 || c.2 || ab.2 || r.2)

/-- Witness weights s_k and a_k of one row of a band (R83): balanced FP32 sums over its 512 weights. -/
def witWeight (w : Weights) (fw : Fmt) (band r : Nat) : (Val × Bool) × (Val × Bool) :=
  let l := (List.range 512).map fun i =>
    let c := 512 * band + i
    if fw.isMx then scaled (w.el fw r c) (w.scale fw (r / 32) c) else (w.el fw r c, false)
  (tree .fp32 9 l, tree .fp32 9 (l.map fun v => (v.1.abs, v.2)))

/-- The two witness outputs of a band (R84, R391): FP32 cells through segments and tree, and whether a clamp or a non-finite value arises on the way. A cell leaves its product
exact and rounds it in the serial add: DESIGN CHOICE, R84 gives no rounding of x_k × s_k (assumption log 116). -/
def witness (fx fw : Fmt) (kk : Nat) (x : OpRow) (w : Weights) (band : Nat) : BandWit :=
  let xs := x.els.zipIdx.map fun (v, r) => if fx.isMx then scaled v (x.scales.getD (r / 32) 0) else (v, false)
  let ws := (List.range kk).map fun r => witWeight w fw band r
  let wo := columnOutput false .fp32 kk (List.zipWith (fun v s => v.1.mulX s.1.1) xs ws)
  let ao := columnOutput false .fp32 kk (List.zipWith (fun v s => v.1.abs.mulX s.2.1) xs ws)
  ⟨w32 wo.1, w32 ao.1, wo.2 || ao.2 || (xs.any (·.2)) || (ws.any fun s => s.1.2 || s.2.2), !wo.1.finite || !ao.1.finite⟩

/-- A fault-free product row: the N outputs in accumulation format, the sub-row outputs of a three-term row, the witness side of each band, and
the clamp indication of the first `n` columns. -/
structure Product where
  out : List W32
  terms : List (List W32)
  wit : List BandWit
  clamp : Bool
  deriving DecidableEq, Repr

def encAcc (fa : Fmt) (v : Val) : W32 := BitVec.ofNat 32 (fa.encode v)

/-- Product of one operand row with the active weights (R77, R98 to R106). Columns beyond those of the loaded block meet only +0 weights: one padded
column stands for all of them. -/
def product (fx fw fa : Fmt) (sh : Fin 4) (k n : Nat) (row : List PByte) (w : Weights) : Product :=
  let kk := shapeK sh
  let nn := shapeN sh
  let x := operandRow fx kk k row
  let real := min w.n nn
  if fx = .fp32 then
    let cols := (List.range real).map fun c => column3 kk x w c
    let pad := column3 kk x w nn
    let all := cols ++ List.replicate (nn - real) pad
    let rs := all.map combine3
    ⟨rs.map fun r => encAcc .fp32 r.1,
     (List.range 3).map fun i => all.map fun t => w32 (t.getD i (.num false 0, false)).1,
     (List.range (nn / 512)).map fun b =>
       let bw := witness fx fw kk x w b
       { bw with ovf := bw.ovf || ((rs.drop (512 * b)).take 512).any (·.2) },
     (rs.take n).any (·.2)⟩
  else
    let cols := (List.range real).map fun c => column fx fw fa kk x w c
    let pad := column fx fw fa kk x w nn
    let all := cols ++ List.replicate (nn - real) pad
    ⟨all.map fun r => encAcc fa r.1, [],
     (List.range (nn / 512)).map fun b =>
       let bw := witness fx fw kk x w b
       { bw with ovf := bw.ovf || ((all.drop (512 * b)).take 512).any (·.2) },
     (all.take n).any (·.2)⟩

/-- Magnitude rounded toward +∞ in FP32 (R390). -/
def roundUp32 (q : Rat) : Rat := if q = 0 then 0 else ((q / Fmt.fp32.ulpAt q).ceil : Rat) * Fmt.fp32.ulpAt q

/-- c32 and c16 of Table 04-6. -/
def roundings (fx fa : Fmt) (sh : Fin 4) : Nat × Nat :=
  if fx = .fp32 then (15, 0)
  else if fx.isMx then (4 - sh.val, 0)
  else if fx.isFp8 then (if fa = .fp16 then (0, 7 - sh.val) else (7 - sh.val, 0))
  else if fa = .fp16 then (7, 7 - sh.val) else (13 - sh.val, 0)

/-- tau(Â) (R390). -/
def tau (fx fw fa : Fmt) (sh : Fin 4) (a : Val) : Rat :=
  let c := roundings fx fa sh
  let e8 : Rat := if fx = .e5m2 ∨ fw = .e5m2 then pow2 (-31) else 0
  let e3 : Rat := if fx = .fp32 then pow2 (-13) else 0
  let coef := roundUp32 (pow2 (-23) * ((c.1 + 32 : Nat) : Rat) + pow2 (-10) * (c.2 : Rat) + e8 + e3)
  roundUp32 (roundUp32 (a.rat * coef) + (if fa = .fp16 then pow2 (-12) else pow2 (-136)))

/-- S of a band: FP32 tree over its 512 outputs (R390). -/
def bandSum (fa : Fmt) (out : List W32) (b : Nat) : Val × Bool :=
  sumTree 9 (((out.drop (512 * b)).take 512).map fun v => fa.decode v.toNat)

def ratAbs (q : Rat) : Rat := if q < 0 then -q else q

/-- Verdict of one band (R85, R110, R390, R393): cleared, and whether it was cleared without a comparison. Only a clamp or a non-finite value of the band or of its witness columns keeps it
from being compared: a clamp in the tree that forms S does not. -/
def bandVerdict (fx fw fa : Fmt) (sh : Fin 4) (out : List W32) (terms : List (List W32)) (bw : BandWit) (b : Nat) : Bool × Bool :=
  let vals := ((out.drop (512 * b)).take 512).map fun v => fa.decode v.toNat
  if bw.ovf || bw.nv || vals.any (fun v => !v.finite) then (true, true)
  else
    let w := f32 bw.w.toNat
    let t := tau fx fw fa sh (f32 bw.a.toNat)
    if fx = .fp32 then
      let ss := (List.range 3).map fun i => bandSum .fp32 (terms.getD i []) b
      if ss.any fun x => !x.1.finite then (true, true)
      else
        let lim := roundUp32 (roundUp32 (pow2 (-7) * (f32 bw.a.toNat).rat) + t)
        let s0 := (ss.getD 0 (.nan, false)).1.rat
        let s1 := (ss.getD 1 (.nan, false)).1.rat
        let s2 := (ss.getD 2 (.nan, false)).1.rat
        (decide (ratAbs s0 ≤ lim) && decide (ratAbs s1 ≤ lim) && decide (ratAbs (s0 + s1 + s2 - w.rat) ≤ t), false)
    else (decide (ratAbs ((bandSum fa out b).1.rat - w.rat) ≤ t), false)

/-- What keeps a band from being compared, as the flags that record it (R109, R110): a clamp or a non-finite value of its outputs or its witness
columns, or a sub-row that is not finite. -/
def bandFlags (fx fa : Fmt) (out : List W32) (terms : List (List W32)) (bw : BandWit) (b : Nat) : Bool × Bool :=
  let vals := ((out.drop (512 * b)).take 512).map fun v => fa.decode v.toNat
  let ss := if fx = .fp32 then (List.range 3).map fun i => bandSum .fp32 (terms.getD i []) b else []
  (bw.ovf, bw.nv || vals.any (fun v => !v.finite) || ss.any fun s => !s.1.finite)

/-- Accepted combinations of operand, weight and accumulation format (R61, R93). -/
def formatsAccepted (fx fw fa : Fmt) (sh : Fin 4) : Bool :=
  if fa ≠ .fp32 ∧ fa ≠ .fp16 then false
  else if fx = .fp32 ∨ fw = .fp32 then fx = fw && fa = .fp32 && sh = 0
  else if fx.isMx ∨ fw.isMx then fx.isMx && fw.isMx && fa = .fp32
  else if fx.isFp8 ∨ fw.isFp8 then fx.isFp8 && fw.isFp8
  else fx = fw && (fa = .fp32 || fx = .bf16)

end Sys2Proof.Machine
end

