-- ==== Sys2Proof/Machine/Array.lean ====
section
/-!
DEFINITION. The array (R56 to R82, R263 to R265, R395 to R397): shape, shadow load and swap, operand rows, product rows, verdicts and
retry, the end of a pass, merges and spills.
-/
namespace Sys2Proof.Machine

/-! ### Rows of a vat (R195, R258, R261) -/

/-- What a consumer that reads in rows finds: nothing yet, the end of the stream (R197), or a row with its TAG and ROW; `raw` marks a
row of the station's own vat that has not passed the prologue (R131). -/
inductive Got where
  | wait
  | under
  | row (v : Vat) (data : List PByte) (tag : Option (W16 × Nat)) (raw : Bool)
  deriving DecidableEq, Repr

/-- The slot being read is done with. -/
def Vat.finishSlot (v : Vat) : Vat :=
  let sl := v.slot v.rd
  { v.setSlot v.rd { sl with laneDone := true, feedDone := true } with rd := (v.rd + 1) % v.slots.length, rdRow := 0 }

/-- One row on. -/
def Vat.stepRow (v : Vat) (last : Bool) : Vat := if last then v.finishSlot else { v with rdRow := v.rdRow + 1 }

/-- The next row of `w` bytes of a vat; `loc` when a RING.FEED with LOCAL = 1 takes the slots (R261). `fuel` bounds the slots that hold no
whole row. -/
def readRow (x : Station) (loc : Bool) (w : Nat) : Nat → Vat → Got
  | 0, _ => .wait
  | fuel + 1, v =>
    let sl := v.slot v.rd
    if loc then
      if sl.st ≠ .taken || sl.feedDone then (if v.len ≤ v.taken then .under else .wait)
      else match sl.rows[v.rdRow]? with
        | some r => .row (v.stepRow (sl.laneDone && v.rdRow + 1 = sl.rows.length)) r.data (some (r.tag, r.row)) false
        | none => if sl.laneDone then readRow x loc w fuel v.finishSlot else .wait
    else
      let open? : Option Vat :=
        if sl.st = .taken && !sl.feedDone then some v
        else if sl.st = .full && v.rd = v.head && v.taken < v.len then some (v.take false false)
        else none
      match open? with
      | none => if v.rd = v.head && v.len ≤ v.taken then .under else .wait
      | some v =>
        let n := sl.count / w
        if n ≤ v.rdRow then readRow x loc w fuel v.finishSlot
        else
          let tag := (sl.rows[v.rdRow]?).map fun r => (r.tag, r.row)
          .row (v.stepRow (v.rdRow + 1 = n)) (x.slotRead v v.rd (v.rdRow * w) w) tag tag.isNone

/-- The random key of a partition's job and the end of its local store (R145, R216). -/
def State.jobCtx (s : State) (p : Part) : JobCtx := ⟨BitVec.ofNat 64 (s.reg 0x6130 (p.val + 1)), progBase (s.prt p).prog⟩

/-- What a path has made of a row. -/
structure PathOut where
  x : Station
  data : List PByte
  fl : Fl
  poison : Bool
  fault : Bool

/-- The armed prologue on a row of the station's own vat (R131). MX elements do not enter a lane (R127). -/
def prologue (x : Station) (job : JobCtx) (code row : Nat) (data : List PByte) : PathOut :=
  match x.vec.pro, Fmt.ofCode code with
  | some p, some f =>
    if f.isMx then ⟨x, data, Fl.none, false, false⟩
    else
      let r := runProg x p.uops ⟨.pro, row, false, rowVals f data, [], false, p.e, job⟩
      let o := valsRow f r.run
      ⟨r.x, clean o.1, r.fl.or o.2, r.poison || anyPoison data, r.fault⟩
  | _, _ => ⟨x, data, Fl.none, false, false⟩

/-! ### ARR.SHAPE and ARR.LOAD -/

def Station.modArr (x : Station) (f : ArrayUnit → ArrayUnit) : Station := { x with arr := f x.arr }

/-- ARR.SHAPE at issue (R76, R78). -/
def execArrShape (st : St) (s : State) : Host.Outcome State Fault Refusal :=
  issue 0x30 (fun s _ st e =>
    enqueue (s.modSt st fun x => x.modArr fun a =>
      { a with bkShape := fin (fld e.word 9 8), bkLoad := none, bkActive := none }) st e) s st

/-- A slot that its consumer is done with becomes releasable (R195). -/
def Station.slotDone (x : Station) (v : VatNo) (i : Nat) : Station :=
  match x.vat v with
  | some y => x.setVat v (some (y.setSlot i { y.slot i with laneDone := true, feedDone := true }))
  | none => x

/-- No row is in the pipeline and every verdict is ready (R76). -/
def ArrayUnit.empty (a : ArrayUnit) : Bool := a.flight.isEmpty && a.refeed.isEmpty && a.mmas.isEmpty

/-- ARR.SHAPE fires: both weight sets are discarded (R76). -/
def execArrShapeFire (st : St) (s : State) : Host.Outcome State Fault Refusal :=
  match s.headOp st .array 0x30 with
  | none => noEvent s
  | some e =>
    let a := (s.stn st).arr
    if !a.empty || a.slice.isSome then noEvent s
    else next (s.modSt st fun x =>
      let x := match a.load with
        | some l => x.slotDone (fin (fld l.e.word 12 8)) l.slot
        | none => x
      (x.pop .array).modArr fun a =>
        { a with shape := fin (fld e.word 9 8), active := none, shadow := none, load := none, swapWait := false })

def loadK (w : W128) : Nat := fld w 21 13 + 1
def loadN (w : W128) : Nat := fld w 34 22 + 1
def loadFmt (w : W128) : Nat := fld w 38 35

/-- ARR.LOAD at issue (R69, R78, R197, R258). -/
def execArrLoad (st : St) (s : State) : Host.Outcome State Fault Refusal :=
  issue 0x31 (fun s _ st e =>
    let w := e.word
    let v : VatNo := fin (fld w 12 8)
    let x := s.stn st
    let sh := x.arr.bkShape
    match x.book v, Fmt.ofCode (loadFmt w) with
    | some b, some f =>
      if b.outbound || x.arr.bkLoad.isSome || shapeK sh < loadK w || shapeN sh < loadN w || (f.isMx && loadK w % 32 ≠ 0)
        || b.size < rowBytes (loadFmt w) (if f.isMx then loadK w else loadN w) then .fault v.val
      else match b.consume .load with
        | none => .fault v.val
        | some b' =>
          if b.len ≤ b.conss then .fault v.val
          else enqueue (s.modSt st fun x => (x.setBook v (some b')).modArr fun a =>
            { a with bkLoad := some (loadK w, loadN w, loadFmt w) }) st e
    | _, _ => .fault v.val) s st

/-- Copy version tag of a delivered header (Table 06-4). -/
def headerTag (h : List PByte) : Nat := leP (h.take 4)

/-- ARR.LOAD fires with the shadow registers free and its slot Full (R68, R70, R264); one issued behind a CHK.KAT leaves them to the slice first: DEDUCED, the slice empties them (R157,
assumption log 121). -/
def execArrLoadFire (st : St) (s : State) : Host.Outcome State Fault Refusal :=
  match s.headOp st .array 0x31 with
  | none => noEvent s
  | some e =>
    let w := e.word
    let v : VatNo := fin (fld w 12 8)
    let x := s.stn st
    match x.vat v with
    | none => noEvent s
    | some y =>
      if x.arr.load.isSome || x.arr.shadow.isSome || x.arr.swapWait || x.arr.slice.isSome || (x.chkQ.any fun q => q.seq < e.seq) || !headFull y || x.vatFenced v.val e.seq then noEvent s
      else
        let sl := y.slot y.head
        let bad := !fbit w 44 && (match sl.header with
          | none => true
          | some h => headerTag h ≠ (kr e.k (fld w 43 39)).toNat % 2 ^ 32)
        if bad then next (s.faultFire st v.val e.pc)
        else
          let wt : Weights := {
            fmt := loadFmt w, k := loadK w, n := loadN w, shape := x.arr.shape
            data := x.slotRead y y.head 0 (blockBytes (loadFmt w) (loadK w) (loadN w)) }
          next (s.modSt st fun x => ((x.pop .array).setVat v (some (y.take false false))).modArr fun a =>
            { a with load := some ⟨e, y.head, wt⟩ })

/-- The load is complete: the block waits in the shadow registers and its slot may be released (R67, R195). -/
def execArrLoadComplete (st : St) (s : State) : Host.Outcome State Fault Refusal :=
  match (s.stn st).arr.load with
  | none => noEvent s
  | some l => next (s.modSt st fun x => (x.slotDone (fin (fld l.e.word 12 8)) l.slot).modArr fun a =>
      { a with load := none, shadow := some l.w })

/-- The shadow registers are free 16 sc after the swap row entered (R68). -/
def execShadowRegistersFree (st : St) (s : State) : Host.Outcome State Fault Refusal :=
  if (s.stn st).arr.swapWait then next (s.modSt st fun x => x.modArr fun a => { a with swapWait := false }) else noEvent s

/-! ### ARR.MMA -/

def mmaM (w : W128) : Nat := fld w 45 37 + 1
def mmaK (w : W128) : Nat := fld w 63 55 + 1
def mmaN (w : W128) : Nat := fld w 76 64 + 1
def mmaTile0 (w : W128) : Nat := fld w 13 8
def mmaTiles (w : W128) : Nat := fld w 16 14 + 1
def mmaRow0 (w : W128) : Nat := fld w 54 46
def mmaFx (w : W128) : Nat := fld w 80 77
def mmaDest (w : W128) : Bool := fbit w 24
def mmaTagged (w : W128) : Bool := fbit w 36
def mmaVa (w : W128) : VatNo := fin (fld w 29 25)
def mmaVb (w : W128) : VatNo := fin (fld w 34 30)
def mmaRows (w : W128) : Nat := mmaTiles w * mmaM w

/-- Books of the tiles of a run; `none` when one is past tile 63 or not open, or its drain has issued (R82). -/
def tileRun (x : Station) (t0 n : Nat) : Option (List TileBook) :=
  (List.range n).mapM fun j =>
    if 63 < t0 + j then none
    else match vget x.tbooks (fin (t0 + j)) with
      | some b => if b.drained then none else some b
      | none => none

/-- One instruction of a writer kind more on each tile of a run (R82). -/
def leaseTiles (x : Station) (t0 n : Nat) (l : Lease) : Station :=
  { x with tbooks := (List.range n).foldl (fun v j => vmod v (fin (t0 + j)) fun b =>
      b.map fun b => { b with issued := b.issued + 1, lease := some l }) x.tbooks }

/-- A further consumer instruction of kind ARR.MMA on a vat; one that a RING.FEED with LOCAL = 1 reads too is of its kind (R261). -/
def VatBook.consumeMma (b : VatBook) : Option VatBook :=
  if b.cons = some .feedLocal then some { b with conss := b.conss + 1 } else b.consume .mma

/-- The vat of operand rows of `n` bytes: inbound, its consumer kind as R193 asks, a row within its slot (R258). -/
def operandVat (x : Station) (v : VatNo) (n : Nat) : Option Station :=
  match x.book v with
  | some b => if b.outbound || b.size < n then none else b.consumeMma.map fun b' => x.setBook v (some b')
  | none => none

/-- Accumulation format of an ARR.MMA: that of its tiles, or FMTA (R265). -/
def mmaAcc (x : Station) (w : W128) : Option Fmt :=
  if mmaDest w then (if fld w 84 81 = 1 || fld w 84 81 = 2 then Fmt.ofCode (fld w 84 81) else none)
  else match vget x.tbooks (fin (mmaTile0 w)) with
    | some b => Fmt.ofCode b.fmt
    | none => none

/-- The tile checks of an ARR.MMA into tiles (R76, R78, R82, R265). -/
def mmaTilesOk (x : Station) (w : W128) (sh : Fin 4) : Bool :=
  match tileRun x (mmaTile0 w) (mmaTiles w) with
  | none => false
  | some l => l.all fun b => b.shape = sh && b.fmt = (l.head?.map (·.fmt)).getD b.fmt && b.lease ≠ some .ring &&
      b.issued < b.passes && mmaRow0 w + mmaM w ≤ b.height

/-- ARR.MMA at issue (R61, R69, R76, R78, R82, R93, R258, R265). -/
def execArrMma (st : St) (s : State) : Host.Outcome State Fault Refusal :=
  issue 0x32 (fun s _ st e =>
    let w := e.word
    let x := s.stn st
    let sh := x.arr.bkShape
    let wt := if fbit w 23 then x.arr.bkLoad else x.arr.bkActive
    match wt, Fmt.ofCode (mmaFx w), mmaAcc x w with
    | some (wk, wn, wf), some fx, some fa =>
      match Fmt.ofCode wf with
      | none => .fault noLoc2
      | some fw =>
        if !formatsAccepted fx fw fa sh || wk ≠ mmaK w || shapeN sh < mmaN w || (fx.isMx && mmaK w % 32 ≠ 0) then .fault noLoc2
        else if mmaDest w && (mmaTagged w || mmaTiles w ≠ 1 || sh ≠ 0) then .fault noLoc2
        else if !mmaDest w && !mmaTilesOk x w sh then .fault noLoc2
        else if fbit w 35 && !mmaTagged w then .fault noLoc2
        else
          let rb := rowBytes (mmaFx w) (shapeK sh)
          match operandVat x (mmaVa w) rb with
          | none => .fault (mmaVa w).val
          | some x1 =>
            match (if fbit w 35 then operandVat x1 (mmaVb w) rb else some x1) with
            | none => .fault (mmaVb w).val
            | some x2 =>
              let x3 := if mmaDest w then x2 else leaseTiles x2 (mmaTile0 w) (mmaTiles w) .mma
              let x4 := x3.modArr fun a => if fbit w 23 then { a with bkActive := some (wk, wn, wf), bkLoad := none } else a
              enqueue (s.modSt st fun _ => x4) st e
    | _, _, _ => .fault noLoc2) s st

/-- A row taken by the feeder of an ARR.MMA goes to this tile (offset from TILE) and row; `none` is fault 01h at firing (R265). -/
def mmaTarget (w : W128) (m : MmaRec) (tag : Option (W16 × Nat)) : Option (Nat × Nat) :=
  if mmaTagged w then
    match tag with
    | none => none
    | some (t, r) =>
      let j := (t - BitVec.ofNat 16 (fld w 127 112)).toNat
      if j < mmaTiles w && mmaRow0 w ≤ r && r < mmaRow0 w + mmaM w && !m.met.contains (j, r) then some (j, r) else none
  else if mmaDest w then some (0, m.fed)
  else some (m.fed / mmaM w, mmaRow0 w + m.fed % mmaM w)

/-- The vat whose row the feeder takes next (R265): VA, or VB when VA has no row and VBEN is set. It is an underflow when neither can give one more (R197). -/
def nextRow (x : Station) (e : Entry) (w : Nat) : VatNo × Got :=
  let try1 (v : VatNo) : Got :=
    match x.vat v with
    | some y => if x.vatFenced v.val e.seq then .wait else readRow x (x.localVats.contains y.id) w (y.slots.length + 1) y
    | none => .wait
  let a := try1 (mmaVa e.word)
  if !fbit e.word 35 then (mmaVa e.word, a)
  else match a, try1 (mmaVb e.word) with
    | .row y d t r, _ => (mmaVa e.word, .row y d t r)
    | _, .row y d t r => (mmaVb e.word, .row y d t r)
    | .under, .under => (mmaVa e.word, .under)
    | _, _ => (mmaVa e.word, .wait)

def updMma (l : List MmaRec) (m : MmaRec) : List MmaRec := l.map fun y => if y.e.seq = m.e.seq then m else y

/-- The feeder takes one operand row of a fired ARR.MMA (R71, R131, R265). It takes the row whole: poison in the padded positions k to K − 1 is consumed too, DESIGN CHOICE
(assumption log 116). -/
def feedRow (s : State) (st : St) (p : Part) (x : Station) (m : MmaRec) (wt : Weights) : Host.Outcome State Fault Refusal :=
  let w := m.e.word
  let code := mmaFx w
  match nextRow x m.e (rowBytes code (shapeK x.arr.shape)) with
  | (_, .wait) => noEvent s
  | (v, .under) => next (s.faultFire st v.val m.e.pc)
  | (v, .row y data tag raw) =>
    let x := x.setVat v (some y)
    match mmaTarget w m tag, Fmt.ofCode code, Fmt.ofCode wt.fmt with
    | some (j, r), some fx, some fw =>
      let o := if raw then prologue x (s.jobCtx p) code r data else ⟨x, data, Fl.none, false, false⟩
      if o.fault then next (s.faultFire st noLoc2 m.e.pc)
      else if o.poison || anyPoison o.data then next (s.faultPoison st noLoc2 m.e.pc)
      else
        let pr := product fx fw m.fa o.x.arr.shape (mmaK w) (mmaN w) o.data wt
        let fr : FlightRow := {
          seq := m.e.seq, pc := m.e.pc
          tile := if mmaDest w then none else some (fin (mmaTile0 w + j))
          row := r, tag := BitVec.ofNat 16 (fld w 127 112), n := mmaN w, fx := fx, fw := fw, fa := m.fa
          prod := pr.out, terms := pr.terms, err := ArrayError.none, wit := pr.wit, clamp := pr.clamp
          old := [], fovf := false, fnv := false, left := false, void := false, again := false, rerun := false }
        let m' := { m with fed := m.fed + 1, met := if mmaTagged w then (j, r) :: m.met else m.met }
        next (s.modSt st fun _ => (o.x.flag o.fl).modArr fun a =>
          { a with flight := a.flight ++ [fr], mmas := updMma a.mmas m' })
    | _, _, _ => next (s.faultFire st noLoc2 m.e.pc)

/-- Every tile that an ARR.MMA names has been opened and not freed. -/
def tilesFired (x : Station) (w : W128) : Bool :=
  mmaDest w || (List.range (mmaTiles w)).all fun j => (vget x.tiles (fin (mmaTile0 w + j))).isSome

/-- The first row of the ARR.MMA at the head of the array queue (R68, R69, R71, R265). -/
def startMma (s : State) (st : St) (p : Part) : Host.Outcome State Fault Refusal :=
  match s.headOp st .array 0x32 with
  | none => noEvent s
  | some e =>
    let w := e.word
    let x := s.stn st
    let a := x.arr
    let swap := fbit w 23
    match (if swap then a.shadow else a.active), (if mmaDest w then mmaAcc x w else
        match vget x.tiles (fin (mmaTile0 w)) with
        | some t => Fmt.ofCode t.bk.fmt
        | none => none) with
    | some wt, some fa =>
      if !tilesFired x w then noEvent s
      else
        match (nextRow x e (rowBytes (mmaFx w) (shapeK a.shape))).2 with
        | .wait => noEvent s
        | _ =>
          if swap && anyPoison wt.data then next (s.faultPoison st noLoc2 e.pc)
          else
            let m : MmaRec := ⟨e, 0, [], fa, false⟩
            let ps : List PassRec := if mmaDest w then [] else
              (List.range (mmaTiles w)).map fun j => ⟨e.seq, fin (mmaTile0 w + j), mmaM w, mmaM w, false⟩
            let x := (x.pop .array).modArr fun a =>
              { a with
                mmas := a.mmas ++ [m], passes := a.passes ++ ps
                active := some wt, shadow := if swap then none else a.shadow, swapWait := a.swapWait || swap }
            feedRow s st p x m wt
    | _, _ => noEvent s

/-- One operand row enters the feeder (R265, R395): a row of a retry first, else the next row of the ARR.MMA in progress, else the first row of the
one at the head of the queue. -/
def execArrMmaFire (st : St) (s : State) : Host.Outcome State Fault Refusal :=
  let x := s.stn st
  match x.arr.slice, x.arr.refeed, s.jobAt st with
  | none, r :: rest, some _ =>
    next (s.modSt st fun x => x.modArr fun a => { a with refeed := rest, flight := a.flight ++ [r] })
  | none, [], some p =>
    match x.arr.mmas.getLast?, x.arr.active with
    | some m, some wt => if m.fed < mmaRows m.e.word then feedRow s st p x m wt else startMma s st p
    | _, _ => startMma s st p
  | _, _, _ => noEvent s

/-! ### Product rows, passes, merges -/

/-- One sub-row of a three-term row as it left the tree (R106, R393); an error that names no sub-row falls on sub-row 2. -/
def FlightRow.sub (r : FlightRow) (i : Fin 3) : List W32 :=
  let l := if i = 2 then r.err.cols.foldl (fun l e => l.set e.1 e.2) (r.terms.getD 2 []) else r.terms.getD i.val []
  (r.err.subs.filter fun e => e.1 = i).foldl (fun l e => l.set e.2.1 e.2.2) l

/-- The sub-rows of a three-term row; none for any other row. -/
def FlightRow.sums (r : FlightRow) : List (List W32) := if r.terms = [] then [] else [r.sub 0, r.sub 1, r.sub 2]

/-- The row of outputs as it left the tree; a three-term row's is combined again in the columns that an error touched. -/
def FlightRow.out (r : FlightRow) : List W32 :=
  if r.terms = [] then r.err.cols.foldl (fun l e => l.set e.1 e.2) r.prod
  else (r.err.cols.map (·.1) ++ r.err.subs.map (·.2.1)).foldl (fun l c =>
    let g (i : Fin 3) : Val × Bool := (f32 ((r.sub i).getD c 0).toNat, false)
    l.set c (w32 (combine3 [g 0, g 1, g 2]).1)) r.prod

/-- The witness side of every band as the check takes it: what an error in the witness path left of it (R391). -/
def FlightRow.wits (r : FlightRow) : List BandWit :=
  r.err.wit.foldl (fun l e => match l[e.1]? with
    | some b => l.set e.1 { b with w := e.2.1, a := e.2.2, nv := !(f32 e.2.1.toNat).finite || !(f32 e.2.2.toNat).finite }
    | none => l) r.wit

def setTile (x : Station) (t : Fin 64) (y : Tile) : Station := { x with tiles := vset x.tiles t (some y) }

/-- add() of one value into an element of a tile (R107), with the flags it brings (R108). -/
def tileAdd (t : Tile) (fa : Fmt) (key : Nat) (v : Val) : Tile :=
  let r := addE fa ((sget none t.els key).map fun b => fa.decode b.toNat) (some v)
  { (t.flag ⟨r.2, (r.1.map fun v => !v.finite).getD false⟩) with els := sput none t.els key (r.1.map (encAcc fa)) }

/-- Values added to consecutive elements of a tile row. -/
def tileAddRow (t : Tile) (fa : Fmt) (key0 : Nat) (vs : List Val) : Tile :=
  vs.zipIdx.foldl (fun t (v, c) => tileAdd t fa (key0 + c) v) t

/-- Poisoned elements among keys of a row. -/
def tilePoisonIn (t : Tile) (key0 n : Nat) : Bool := t.poison.any fun k => key0 ≤ k && k < key0 + n

/-- The row enters its tile, its former values into the retention buffer (R107, R395). The flags it brings stay with the row until it clears: the tile's elements are the only
state that a row reaches before its verdict (R85). -/
def rowToTile (x : Station) (ti : Fin 64) (t : Tile) (r : FlightRow) (sh : Fin 4) : Station × FlightRow :=
  let key0 := r.row * shapeN sh
  let old := (List.range r.n).map fun c => (key0 + c, sget none t.els (key0 + c))
  let vs := (r.out.take r.n).map fun b => r.fa.decode b.toNat
  let t' := tileAddRow { t with ovf := r.clamp, nv := vs.any fun v => !v.finite } r.fa key0 vs
  (setTile x ti { t' with ovf := t.ovf, nv := t.nv }, { r with old := old, fovf := t'.ovf, fnv := t'.nv, left := true })

/-- The row waits before its tile: an earlier pass into it has not ended, or the merge path has no room (R82, R114). -/
def tileHeld (a : ArrayUnit) (ti : Fin 64) (t : Tile) (r : FlightRow) : Bool :=
  (a.passes.any fun p => p.tile = ti && p.seq < r.seq && !p.ended) || decide (2 ≤ t.mergeQ.length)

/-- One row less to come of a pass into a tile. -/
def passRow (a : ArrayUnit) (ti : Fin 64) (r : FlightRow) : List PassRec :=
  a.passes.map fun p => if p.seq = r.seq && p.tile = ti then { p with remaining := p.remaining - 1 } else p

/-- A three-term row leaves the combine stage only after its verdict (R393): until then no tile holds it. -/
def FlightRow.held (r : FlightRow) : Bool := r.fx = .fp32 && r.tile.isSome

/-- Halves of a product row for the two lanes of the add stage (R53). -/
def toAddStage (x : Station) (r : FlightRow) : Station :=
  let push (l : LaneSt) (bits : List W32) : LaneSt := { l with adds := l.adds ++ [⟨r.tag, r.row, bits, false, r.seq, false, false⟩] }
  { x with cw := push x.cw (r.out.take 256), ccw := push x.ccw ((r.out.drop 256).take 256) }

/-- A product row leaves the column tree (R62, R82, R107, R262); `err` is what an array fault makes of it. -/
def execProductRowLeavesTree (st : St) (err : Option ArrayError) (s : State) : Host.Outcome State Fault Refusal :=
  let x := s.stn st
  let a := x.arr
  match a.flight.findIdx? fun r => !r.left with
  | none => noEvent s
  | some i =>
    match a.flight[i]? with
    | none => noEvent s
    | some r0 =>
      if r0.void then next (s.modSt st fun x => x.modArr fun a => { a with flight := ldel a.flight i })
      else
        let r := { r0 with err := err.getD ArrayError.none }
        match r.tile with
        | none =>
          if 32 ≤ x.cw.adds.length || 32 ≤ x.ccw.adds.length then noEvent s
          else
            let nv := r.out.any fun b => !(r.fa.decode b.toNat).finite
            next (s.modSt st fun x => (toAddStage x r).modArr fun a =>
              { a with flight := lset a.flight i { r with left := true, fovf := r.clamp, fnv := nv } })
        | some ti =>
          match vget x.tiles ti with
          | none => noEvent s
          | some t =>
            if r.held then next (s.modSt st fun x => x.modArr fun a => { a with flight := lset a.flight i { r with left := true } })
            else if tileHeld a ti t r then noEvent s
            else if tilePoisonIn t (r.row * shapeN a.shape) r.n then next (s.faultPoison st noLoc2 r.pc)
            else
              let o := rowToTile x ti t r a.shape
              next (s.modSt st fun _ => o.1.modArr fun a =>
                { a with flight := lset a.flight i o.2, passes := passRow a ti r })

/-- A pass of the tile is spilled or combined when it ends (R112, R116). -/
def toMerge (bk : TileBook) (j : Nat) : Bool :=
  bk.faithful || (!bk.serving && bk.interval < bk.passes && ((j + 1) % bk.interval = 0 || j + 1 = bk.passes))

/-- A pass ends into its tile (R65, R112, R116). -/
def Tile.passEnds (t : Tile) (seq : Nat) : Tile :=
  if toMerge t.bk t.ended then { t with ended := t.ended + 1, mergeQ := t.mergeQ ++ [⟨seq, t.els, t.poison⟩], els := [], poison := [] }
  else { t with ended := t.ended + 1 }

/-- Fired ARR.MMA instructions that are done: all rows fed, every verdict taken, every pass ended. -/
def ArrayUnit.settle (a : ArrayUnit) : ArrayUnit :=
  let done (m : MmaRec) : Bool :=
    m.fed = mmaRows m.e.word && (a.flight.all fun r => r.seq ≠ m.e.seq || r.void) && (a.refeed.all fun r => r.seq ≠ m.e.seq) &&
    (a.passes.all fun p => p.seq ≠ m.e.seq || p.ended)
  let gone := (a.mmas.filter done).map (·.e.seq)
  { a with mmas := a.mmas.filter fun m => !done m, passes := a.passes.filter fun p => !gone.contains p.seq }

/-- The last product row of a pass has left the tree: the pass ends (R65). -/
def execKPassEnd (st : St) (s : State) : Host.Outcome State Fault Refusal :=
  let x := s.stn st
  match x.arr.passes.find? fun p => p.remaining = 0 && !p.ended with
  | none => noEvent s
  | some p =>
    match vget x.tiles p.tile with
    | none => noEvent s
    | some t => next (s.modSt st fun x => (setTile x p.tile (t.passEnds p.seq)).modArr fun a =>
        ArrayUnit.settle { a with passes := a.passes.map fun q => if q.seq = p.seq && q.tile = p.tile then { q with ended := true } else q })

/-- Keys of several sparse maps. -/
def keysOf {α : Type} (ms : List (Sparse α)) : List Nat := (ms.flatMap fun m => m.map (·.1)).foldl setAdd []

/-- Clears an area of local store before the first spill into it (R116). -/
def lsClear (x : Station) (a n : Nat) : Station :=
  { x with
    ls := x.ls.filter fun e => !(a ≤ e.1 && e.1 < a + n)
    lsPoison := x.lsPoison.filter fun k => !(a ≤ 8 * k && 8 * k < a + n) }

/-- Bytes of the footprint F of a tile (R80). -/
def footprint (b : TileBook) : Nat := b.height * shapeN b.shape * accBytes b.fmt

/-- Offset of element `k` of level `l` of a carry stack whose spill area is at `base` (R81, assumption log 27). -/
def levelAt (b : TileBook) (base l k : Nat) : Nat := base + l * footprint b + k * accBytes b.fmt

/-- One pass result into the carry stack (R112), whose levels lie in the spill area at `base` (R81): the station, the tile, the flags, and whether a stored element was
poisoned (R411). -/
def carryPass (x : Station) (t : Tile) (fa : Fmt) (r : MergeRec) (base : Nat) : Station × Tile × Fl × Bool :=
  let last := t.merged + 1 = t.bk.passes
  let n := accBytes t.bk.fmt
  let lv0 := fit ([] : List Nat) t.bk.depth t.levels
  ((lv0 ++ [r.els.map (·.1)]).flatten.foldl setAdd []).foldl (fun (o : Station × Tile × Fl × Bool) k =>
    let x := o.1
    let t := o.2.1
    let lv := fit ([] : List Nat) t.bk.depth t.levels
    let held := lv.zipIdx.map fun (m, l) => if m.contains k then some (x.lsRead (levelAt t.bk base l k) n) else none
    let res := passEnd fa (held.map fun d => d.map fun d => fa.decode (leP d)) ((sget none r.els k).map fun b => fa.decode b.toNat) last
    let bad := (held.zip res.1).any fun (h, v) => match h with
      | some d => v.isNone && anyPoison d
      | none => false
    let x := (held.zip res.1).zipIdx.foldl (fun x ((h, v), l) => match h, v with
      | none, some v => x.lsWrite (levelAt t.bk base l k) (clean (leBytes n (encAcc fa v).toNat))
      | _, _ => x) x
    let lv' := List.zipWith (fun m v => if v.isSome then setAdd m k else setDel m k) lv res.1
    let nv := (res.2.1.map fun v => !v.finite).getD false || res.1.any fun v => (v.map fun v => !v.finite).getD false
    (x, { t with levels := lv', els := if last then sput none t.els k (res.2.1.map (encAcc fa)) else t.els }, o.2.2.1.or ⟨res.2.2, nv⟩, o.2.2.2 || bad))
    (x, t, Fl.none, false)

/-- A spill of the tile's values into its double-FP32 buffer, or the final add (R116, R117): element i has its pair at `base` + 8 i. -/
def spill (x : Station) (t : Tile) (fa : Fmt) (r : MergeRec) (base : Nat) : Station × Tile × Fl × Bool :=
  let size := t.bk.height * shapeN t.bk.shape
  let x := if t.spilled then x else lsClear x base (8 * size)
  let last := t.ended = t.bk.passes && t.mergeQ.length = 1
  let held := (x.ls.filter fun e => base ≤ e.1 && e.1 < base + 8 * size).map fun e => (e.1 - base) / 8
  let keys := if last then (keysOf [r.els] ++ held).foldl setAdd [] else keysOf [r.els]
  keys.foldl (fun (o : Station × Tile × Fl × Bool) k =>
    let x := o.1
    let t := o.2.1
    let d := lsDD x (base + 8 * k)
    let n : DD × Bool := match sget none r.els k with
      | some b => ddAdd d.1 (fa.decode b.toNat)
      | none => (d.1, false)
    let x := lsPutDD x (base + 8 * k) n.1
    let res := n.1.hi.rnd fa
    let t := if last then { t with els := sput none t.els k (some (encAcc fa res.1)) } else t
    (x, t, o.2.2.1.or ⟨n.2 || (last && res.2), !n.1.hi.finite⟩, o.2.2.2 || d.2)) (x, { t with spilled := true }, Fl.none, false)

/-- The merge path finishes the oldest pass result of a tile (R114, R116). -/
def execMergeComplete (st : St) (tile : Fin 64) (s : State) : Host.Outcome State Fault Refusal :=
  let x := s.stn st
  match vget x.tiles tile with
  | none => noEvent s
  | some t =>
    match t.mergeQ, Fmt.ofCode t.bk.fmt with
    | r :: rest, some fa =>
      let pending (f : FlightRow) : Bool := f.seq = r.seq && f.tile = some tile && !f.void
      if x.arr.flight.any pending || x.arr.refeed.any pending then noEvent s
      else if r.poison ≠ [] then next (s.faultPoison st noLoc2 noPc)
      else
        let base := match s.jobAt st with
          | some p => spillBase (s.prt p) + t.bk.spoff * 4096
          | none => 0
        let o := if t.bk.faithful then carryPass x t fa r base else spill x t fa r base
        if o.2.2.2 then next (s.faultPoison st noLoc2 noPc)
        else next (s.modSt st fun _ => (setTile o.1 tile ({ o.2.1 with mergeQ := rest, merged := t.merged + 1 }.flag o.2.2.1)).flag o.2.2.1)
    | _, _ => noEvent s

/-! ### Verdict and retry (R85, R390 to R397) -/

/-- One row of a retry goes back to what it was before its add (R395). -/
def unAdd (x : Station) (r : FlightRow) : Station :=
  match r.tile with
  | none =>
    let drop (l : LaneSt) : LaneSt := { l with adds := l.adds.filter fun y => !(y.seq = r.seq && y.i = r.row) }
    { x with cw := drop x.cw, ccw := drop x.ccw }
  | some ti =>
    match vget x.tiles ti with
    | none => x
    | some t =>
      let ended := x.arr.passes.any fun p => p.seq = r.seq && p.tile = ti && p.ended
      let t := if ended then
          { t with
            ended := t.ended - 1
            els := ((t.mergeQ.find? fun m => m.seq = r.seq).map (·.els)).getD t.els
            poison := ((t.mergeQ.find? fun m => m.seq = r.seq).map (·.poison)).getD [] ++ t.poison
            mergeQ := t.mergeQ.filter fun m => m.seq ≠ r.seq }
        else t
      let t := { t with els := r.old.foldl (fun m o => sput none m o.1 o.2) t.els }
      (setTile x ti t).modArr fun a =>
        { a with passes := a.passes.map fun p => if p.seq = r.seq && p.tile = ti then { p with remaining := p.remaining + 1, ended := false } else p }

/-- The retry of R395: rows restored, voided and fed again. The mismatching row heads the pipeline. -/
def retry (x : Station) (r : FlightRow) : Station :=
  let rows := x.arr.flight.filter fun f => !f.void
  let x := (rows.filter fun f => f.left && !f.held).foldr (fun f x => unAdd x f) x
  let fresh := rows.zipIdx.map fun (f, i) =>
    { f with left := false, err := ArrayError.none, rerun := true, again := if i = 0 then true else f.again, old := [] }
  x.modArr fun a =>
    { a with
      flight := (a.flight.filter fun f => !f.left || f.void).map fun f => { f with void := true }
      refeed := fresh ++ a.refeed
      mmas := a.mmas.map fun m => if m.e.seq = r.seq then { m with retried := true } else m }

/-- Verdicts of every band of a row: cleared, and without a comparison. -/
def rowVerdicts (r : FlightRow) (sh : Fin 4) : List (Bool × Bool) :=
  r.wits.zipIdx.map fun (bw, b) => bandVerdict r.fx r.fw r.fa sh r.out r.sums bw b

/-- The flags that a row brings as it clears, those of its path and of the bands that were not compared (R108 to R110). -/
def rowFlags (r : FlightRow) : Fl :=
  (r.wits.zipIdx.map fun (bw, b) => bandFlags r.fx r.fa r.out r.sums bw b).foldl (fun f b => f.or ⟨b.1, b.2⟩) ⟨r.fovf, r.fnv⟩

/-- A held row that clears enters its tile; `none` while it waits for it. -/
def enterTile (x : Station) (r : FlightRow) : Option (Station × FlightRow) :=
  if !r.held then some (x, r)
  else match r.tile with
    | none => some (x, r)
    | some ti => match vget x.tiles ti with
      | none => some (x, r)
      | some t =>
        if tileHeld x.arr ti t r then none
        else
          let o := rowToTile x ti t r x.arr.shape
          some (o.1.modArr fun a => { a with passes := passRow a ti r }, o.2)

/-- The row of a tile that a held row would add to is poisoned (R410). -/
def enterPoison (x : Station) (r : FlightRow) : Bool :=
  r.held && match r.tile.bind fun ti => vget x.tiles ti with
    | some t => tilePoisonIn t (r.row * shapeN x.arr.shape) r.n
    | none => false

/-- The row clears: its flags enter its tile and the station's status (R108, R109), and its add-stage halves may leave (R54). -/
def clearRow (x : Station) (r : FlightRow) : Station :=
  let fl := rowFlags r
  let mark (l : LaneSt) : LaneSt :=
    { l with adds := l.adds.map fun y => if y.seq = r.seq && y.i = r.row then { y with cleared := true, ovf := fl.ovf, nv := fl.nv } else y }
  let x := match r.tile with
    | none => { x with cw := mark x.cw, ccw := mark x.ccw }
    | some ti => match vget x.tiles ti with
      | some t => setTile x ti (t.flag fl)
      | none => x
  let x := x.flag fl
  x.modArr fun a => ArrayUnit.settle { a with flight := a.flight.drop 1 }

/-- The verdict on the oldest product row (R65, R85, R110, R393, R395, R396). OD 9011h counts a row once, as it clears with a band that was not compared (R110, R389). -/
def execWitnessVerdict (st : St) (s : State) : Host.Outcome State Fault Refusal :=
  let x := s.stn st
  match x.arr.flight with
  | r :: _ =>
    if !r.left || r.void then noEvent s
    else
      let vs := rowVerdicts r x.arr.shape
      match x.arr.mmas.find? fun m => m.e.seq = r.seq with
      | some m =>
        if vs.all (·.1) then
          match enterTile x r with
          | none => noEvent s
          | some o =>
            if enterPoison x r then next (s.faultPoison st noLoc2 r.pc)
            else
              let s := if vs.any (·.2) then s.count 0x9011 (st.val + 1) 1 else s
              let s := if r.again then s.maskedMismatch st else s
              next (s.modSt st fun _ => clearRow o.1 o.2)
        else if (if r.tile = none then r.again else m.retried || r.rerun) then next (s.faultAt st 2 0x0200 noLoc2 r.pc)
        else next (s.modSt st fun x => retry x r)
      | none => next (s.modSt st fun x => clearRow x r)
  | [] => noEvent s

end Sys2Proof.Machine
end

