-- ==== Sys2Proof/Machine/Acc.lean ====
section
/-!
DEFINITION. The accumulator store (R80 to R82, R107, R113, R117, R266): opening a tile and draining it through the epilogue into its vat; and how
a producer that fills several slots fills them (R194, R197, R258).
-/
namespace Sys2Proof.Machine

/-! ### Filling slots row by row -/

/-- A producer's row goes to the slot it fills: it needs a Free tail slot, or the stream is full, or the row is written. -/
inductive Put where
  | wait
  | over
  | done (x : Station) (v : Vat)

/-- Index of the slot being filled: the last one claimed. -/
def Vat.filling (v : Vat) : Nat := (v.tail + v.slots.length - 1) % v.slots.length

/-- The slot being filled becomes Full (R194). -/
def Vat.endFill (v : Vat) : Vat :=
  if v.wrRow = 0 then v else { v.setSlot v.filling { v.slot v.filling with st := .full } with wrRow := 0 }

/-- One row written to the slot being filled, or to a newly claimed tail slot; a slot with no room for another row becomes Full. `flg` are the flags of the tile it comes from (R118). -/
def putRow (x : Station) (v : Vat) (data : List PByte) (row : Option SlotRow) (flg : Nat := 0) : Put :=
  let w := data.length
  let open? : Option (Option Vat) :=
    if v.wrRow ≠ 0 then some (some v) else if v.len ≤ v.claimed then some none else if tailFree v then some (some v.claim) else none
  match open? with
  | none => .wait
  | some none => .over
  | some (some v) =>
    let i := v.filling
    let sl := v.slot i
    let x := x.lsWrite (v.addr i + v.wrRow * w) data
    let v := { v.setSlot i { sl with count := sl.count + w, rows := sl.rows ++ row.toList, flg := sl.flg ||| flg } with wrRow := v.wrRow + 1 }
    .done x (if v.size < (v.wrRow + 1) * w then v.endFill else v)

/-! ### ACC.OPEN -/

def openTile (w : W128) : Fin 64 := fin (fld w 13 8)
def openP (w : W128) : Nat := fld w 57 34
def openV (w : W128) : Nat := fld w 33 26 + 1
def openD (w : W128) : Nat := fld w 24 21 + 1

/-- Bytes of the accumulator store that a tile occupies (R80). -/
def occupancy (b : TileBook) : Nat := if b.faithful then 2 * footprint b else footprint b

/-- Bytes of spill area of a tile (R81, R117). -/
def spillBytes (b : TileBook) : Nat :=
  if b.faithful then b.depth * footprint b
  else if !b.serving && b.interval < b.passes then 8 * (b.height * shapeN b.shape)
  else 0

def accStore : Nat := 2 ^ 23

/-- The book that an ACC.OPEN makes. -/
def openBook (x : Station) (w : W128) : TileBook where
  height := heightOf (fld w 15 14)
  fmt := fld w 19 16
  shape := x.arr.bkShape
  faithful := fbit w 20
  depth := openD w
  serving := fbit w 25
  interval := openV w
  passes := openP w
  issued := 0
  lease := none
  spoff := fld w 76 64
  drained := false

/-- The spill area of a tile lies in the spill space and apart from those of the open tiles (R81, R117). -/
def spillOk (x : Station) (space : Nat) (b : TileBook) : Bool :=
  spillBytes b = 0 ||
  (b.spoff * 4096 + spillBytes b ≤ space &&
   x.tbooks.toList.all fun o => match o with
     | some o => spillBytes o = 0 || !overlap (o.spoff * 4096) (spillBytes o) (b.spoff * 4096) (spillBytes b)
     | none => true)

/-- Bytes of the accumulator store that open and draining tiles occupy. -/
def storeUsed (x : Station) : Nat := (x.tbooks.toList.map fun o => (o.map occupancy).getD 0).sum

/-- ACC.OPEN at issue (R80, R81, R113, R117, R266). -/
def execAccOpen (st : St) (s : State) : Host.Outcome State Fault Refusal :=
  issue 0x40 (fun s p st e =>
    let w := e.word
    let x := s.stn st
    let b := openBook x w
    if (b.fmt ≠ 1 && b.fmt ≠ 2) || b.passes = 0 || (b.faithful && 2 ^ b.depth < b.passes) then .fault noLoc2
    else if (vget x.tbooks (openTile w)).isSome || accStore < storeUsed x + occupancy b || !spillOk x ((s.prt p).spill * 4096) b
      then .fault noLoc2
    else enqueue (s.modSt st fun x => { x with tbooks := vset x.tbooks (openTile w) (some b) }) st e) s st

/-- A tile as ACC.OPEN leaves it: every element empty, the flags clear (R107, R108, R266). -/
def emptyTile (b : TileBook) : Tile where
  bk := b
  els := []
  poison := []
  ovf := false
  nv := false
  ended := 0
  levels := []
  mergeQ := []
  merged := 0
  spilled := false

/-- ACC.OPEN fires. -/
def execAccOpenFire (st : St) (s : State) : Host.Outcome State Fault Refusal :=
  match s.headOp st .acc 0x40 with
  | none => noEvent s
  | some e =>
    match vget (s.stn st).tbooks (openTile e.word) with
    | none => noEvent s
    | some b => next (s.modSt st fun x => setTile (x.pop .acc) (openTile e.word) (emptyTile b))

/-! ### ACC.DRAIN -/

def drainTile (w : W128) : Fin 64 := fin (fld w 13 8)
def drainTile2 (w : W128) : Fin 64 := fin (fld w 30 25)
def drainVat (w : W128) : VatNo := fin (fld w 20 16)
def drainFmt (w : W128) : Nat := fld w 24 21
def drainPair (w : W128) : Bool := fbit w 31
def drainEpi (w : W128) : Bool := fbit w 32

/-- The second tile of a paired drain is as R132 asks. -/
def pairOk (x : Station) (w : W128) (b : TileBook) : Bool :=
  !drainPair w || (drainEpi w && drainTile2 w ≠ drainTile w && match vget x.tbooks (drainTile2 w) with
    | some c => !c.drained && c.shape = b.shape && c.height = b.height && c.issued = c.passes
    | none => false)

/-- The aside row of the epilogue last issued is longer than a slot of its vat (R132, R258). The drain is the instruction at which its length is known: DEDUCED (assumption log 117). -/
def asideFault (x : Station) (w : W128) (b : TileBook) : Bool :=
  drainEpi w && !drainPair w && match x.vec.bkEpi with
    | some u => fbit u 101 && match x.book (fin (fld u 100 96)) with
      | some v => v.size < rowBytes (fld u 105 102) (shapeN b.shape)
      | none => false
    | none => false

/-- ACC.DRAIN at issue (R82, R132, R258, R266): the tile's lease ends. -/
def execAccDrain (st : St) (s : State) : Host.Outcome State Fault Refusal :=
  issue 0x41 (fun s _ st e =>
    let w := e.word
    let x := s.stn st
    match vget x.tbooks (drainTile w), x.book (drainVat w) with
    | some b, some v =>
      if b.drained || b.issued ≠ b.passes || !pairOk x w b then .fault noLoc2
      else if 4 < drainFmt w || !v.outbound || v.size < rowBytes (drainFmt w) (shapeN b.shape) then .fault (drainVat w).val
      else if asideFault x w b then .fault ((asideVat (x.vec.bkEpi.getD 0)).headD noLoc2)
      else match v.produce .drain with
        | none => .fault (drainVat w).val
        | some v' => enqueue (s.modSt st fun x =>
            { x.setBook (drainVat w) (some v') with tbooks := vset x.tbooks (drainTile w) (some { b with drained := true }) }) st e
    | none, _ => .fault noLoc2
    | _, none => .fault (drainVat w).val) s st

/-- Every declared pass has ended, with its verdicts, retries and merges (R82). -/
def tileQuiet (x : Station) (ti : Fin 64) (t : Tile) : Bool :=
  t.ended = t.bk.passes && t.mergeQ.isEmpty &&
  (x.arr.flight.all fun r => r.tile ≠ some ti || r.void) && (x.arr.refeed.all fun r => r.tile ≠ some ti)

/-- Elements of one tile row, an empty one as +0 (R107, R127). -/
def tileRow (t : Tile) (fa : Fmt) (r n : Nat) : List Val :=
  (List.range n).map fun c => match sget none t.els (r * n + c) with
    | some b => fa.decode b.toNat
    | none => .num false 0

/-- Output bytes of a drained row, poisoned where the element is poisoned and no epilogue runs (R411). What a program's last CVT has rounded to another format than that of the output is
converted once more: DESIGN CHOICE, R268 gives no rule for it (assumption log 142). -/
def drainBytes (f : Fmt) (vs : List Val) (bad : Nat → Bool) : List PByte × Fl :=
  let o := vs.map (convOut f)
  ((o.zipIdx.map fun (b, c) => (leBytes (f.width / 8) b.1).map fun y => ⟨y, bad c⟩).flatten,
   ⟨o.any (·.2), vs.any fun v => !v.finite⟩)

/-- The aside row of an epilogue (R132): the second tile's row, the next row of the aside vat, or none. A paired drain reads the second tile and leaves an armed aside stream alone:
DESIGN CHOICE, R132 lets an epilogue read one of the two (assumption log 116). -/
inductive Aside where
  | wait
  | under (v : VatNo)
  | got (x : Station) (vs : List Val) (poison : Bool)

def asideRow (x : Station) (w : W128) (r n : Nat) : Aside :=
  if drainPair w then
    match vget x.tiles (drainTile2 w) with
    | some t => match Fmt.ofCode t.bk.fmt with
      | some f => .got x (tileRow t f r n) (tilePoisonIn t (r * n) n)
      | none => .wait
    | none => .wait
  else match x.vec.epi with
    | none => .got x [] false
    | some p =>
      if !drainEpi w || !fbit p.e.word 101 then .got x [] false
      else
        let v : VatNo := fin (fld p.e.word 100 96)
        match x.vat v, Fmt.ofCode (fld p.e.word 105 102) with
        | some y, some f =>
          if x.vatFenced v.val p.e.seq then .wait
          else match readRow x false (rowBytes f.code n) (y.slots.length + 1) y with
            | .wait => .wait
            | .under => .under v
            | .row y' data _ _ => .got (x.setVat v (some y')) (rowVals f data) (anyPoison data)
        | _, _ => .wait

/-- The row of values that leaves a drain, through the armed epilogue when EPI = 1. -/
structure DrainOut where
  x : Station
  vs : List Val
  fl : Fl
  poison : Bool
  fault : Bool

/-- The armed epilogue runs on a row that is drained with EPI = 1 (R130, R266). With none armed the elements leave as they are: DESIGN CHOICE, the rule is silent (assumption log 142). -/
def epilogue (x : Station) (job : JobCtx) (w : W128) (r : Nat) (vs aside : List Val) (bad : Bool) : DrainOut :=
  match x.vec.epi with
  | some p =>
    if drainEpi w then
      let o := runProg x p.uops ⟨.epi, r, r = 0, vs, aside, fbit w 33, p.e, job⟩
      ⟨o.x, o.run, o.fl, o.poison || bad, o.fault⟩
    else ⟨x, vs, Fl.none, false, false⟩
  | none => ⟨x, vs, Fl.none, false, false⟩

/-- Row `r` of a drain (R107, R123, R130, R266). -/
def drainRow (s : State) (st : St) (p : Part) (x : Station) (e : Entry) (r : Nat) : Host.Outcome State Fault Refusal :=
  let w := e.word
  match vget x.tiles (drainTile w), x.vat (drainVat w), Fmt.ofCode (drainFmt w) with
  | some t, some y, some f =>
    match Fmt.ofCode t.bk.fmt with
    | none => noEvent s
    | some fa =>
      let n := shapeN t.bk.shape
      if y.wrRow = 0 && !tailFree y && y.claimed < y.len then noEvent s
      else match asideRow x w r n with
        | .wait => noEvent s
        | .under v => next (s.faultFire st v.val e.pc)
        | .got x aside bad2 =>
          let bad (c : Nat) : Bool := t.poison.contains (r * n + c)
          let epi := drainEpi w && x.vec.epi.isSome
          let o := epilogue x (s.jobCtx p) w r (tileRow t fa r n) aside (bad2 || tilePoisonIn t (r * n) n)
          if o.fault then next (s.faultFire st noLoc2 e.pc)
          else if o.poison then next (s.faultPoison st noLoc2 e.pc)
          else
            let b := drainBytes f o.vs fun c => !epi && bad c
            match putRow o.x y b.1 none ((flagWord (t.ovf || b.2.ovf || o.fl.ovf) (t.nv || b.2.nv || o.fl.nv)).toNat) with
            | .wait => noEvent s
            | .over => next (s.faultFire st (drainVat w).val e.pc)
            | .done x y' =>
              let last := r + 1 = t.bk.height
              let fl := o.fl.or ⟨b.2.ovf, b.2.nv⟩
              let x := x.setVat (drainVat w) (some (if last then y'.endFill else y'))
              next (s.modSt st fun _ => { (setTile x (drainTile w) (t.flag fl)).flag fl with drain := some ⟨e, r + 1⟩ })
  | _, _, _ => noEvent s

/-- The ACC.DRAIN at the head may fire (R82, R129, R133). -/
def drainStarts (x : Station) (e : Entry) : Bool :=
  let w := e.word
  (match vget x.tiles (drainTile w) with
   | some t => tileQuiet x (drainTile w) t
   | none => false) &&
  (!drainPair w || match vget x.tiles (drainTile2 w) with
   | some t => tileQuiet x (drainTile2 w) t
   | none => false) &&
  !(drainEpi w && (x.vec.op.isSome || x.arr.slice.isSome || x.vec.queue.any fun q => opc q.word = 0x53 && q.seq < e.seq)) &&
  !x.vatFenced (drainVat w).val e.seq

/-- A drain writes one row: the next of the one in progress, or the first of the one at the head of the queue (R82, R266). -/
def execAccDrainFire (st : St) (s : State) : Host.Outcome State Fault Refusal :=
  let x := s.stn st
  match s.jobAt st with
  | none => noEvent s
  | some p =>
    match x.drain with
    | some d =>
      match vget x.tiles (drainTile d.e.word) with
      | some t => if d.row < t.bk.height then drainRow s st p x d.e d.row else noEvent s
      | none => noEvent s
    | none =>
      match s.headOp st .acc 0x41 with
      | none => noEvent s
      | some e => if drainStarts x e then drainRow s st p (x.pop .acc) e 0 else noEvent s

/-- A register that an instruction writes at firing is written (R218). -/
def Seqr.writeAt (q : Seqr) (r seq : Nat) (v : W64) : Seqr :=
  { q with
    k := kw q.k r v
    kPoison := setDel q.kPoison r
    kPending := q.kPending.filter fun e => !(e.1 = r && e.2 = seq) }

/-- The last element of a drain is written: the flags go to k[KF] and the tile is freed (R266). -/
def execDrainComplete (st : St) (s : State) : Host.Outcome State Fault Refusal :=
  match (s.stn st).drain with
  | none => noEvent s
  | some d =>
    let ti := drainTile d.e.word
    match vget (s.stn st).tiles ti with
    | none => noEvent s
    | some t =>
      if d.row < t.bk.height then noEvent s
      else next (s.modSt st fun x =>
        { x with
          drain := none
          tiles := vset x.tiles ti none
          tbooks := vset x.tbooks ti none
          sq := x.sq.writeAt (fld d.e.word 38 34) d.e.seq (flagWord t.ovf t.nv) })

end Sys2Proof.Machine
end

