-- ==== Sys2Proof/Machine/Ring.lean ====
section
/-!
DEFINITION. The Indigo ring (R32 to R55, R259 to R262): lanes, credits and receive queues, and the instructions that inject, take and add.
-/
namespace Sys2Proof.Machine

/-! ### Sub-rings (R41, R46, R49) -/

/-- The partition whose loaded job has the station bound to it. -/
def State.boundAt (s : State) (st : St) : Option Part := (List.finRange 4).find? fun p => s.loaded p && (s.prt p).pos.contains st

/-- The sub-ring is closed: full or half ring (R46). -/
def Partition.closed (x : Partition) : Bool := x.form = 1 || x.form = 2

/-- The next station on a lane, `none` past an end of an open sub-ring. -/
def Partition.after (x : Partition) (st : St) (l : Lane) : Option St :=
  let i := x.posOf st
  match l with
  | .cw => if i + 1 < x.n then x.pos[i + 1]? else if x.closed && 1 < x.n then x.pos[0]? else none
  | .ccw => if 0 < i then x.pos[i - 1]? else if x.closed && 1 < x.n then x.pos[x.n - 1]? else none

/-- The station before on a lane. -/
def Partition.before (x : Partition) (st : St) : Lane → Option St
  | .cw => x.after st .ccw
  | .ccw => x.after st .cw

/-- Largest HOPS of an injection on a lane (R49). -/
def Partition.hopsBound (x : Partition) (st : St) : Lane → Nat
  | .cw => if x.closed then x.n - 1 else x.n - 1 - x.posOf st
  | .ccw => if x.closed then x.n - 1 else x.posOf st

def laneNo : Lane → Nat
  | .cw => 0
  | .ccw => 1

/-! ### Flow on a lane (R37, R38, R50) -/

/-- One flit leaves the station on the lane, if one can; none on a lane that has stopped there (R34). A taken flit at the head of the receive queue first, then a sum that the add stage forwards, else the oldest flit its own
instructions inject; each needs a credit. `none` when nothing moves. -/
def State.laneStep (s : State) (st : St) (l : Lane) : Option State :=
  let y := (s.stn st).lane l
  match s.boundAt st with
  | none => none
  | some p =>
    match (s.prt p).after st l with
    | none => none
    | some d =>
      let send (s : State) (f : Flit) (g : LaneSt → LaneSt) : State :=
        (s.modSt st fun x => x.modLane l fun y => { g y with credits := y.credits - 1 }).modSt d fun x =>
          x.modLane l fun y => { y with wire := y.wire ++ [f] }
      let own : Option State := match y.fwd, y.outq with
        | f :: o, _ => some (send s f fun y => { y with fwd := o })
        | [], f :: o => some (send s f fun y => { y with outq := o })
        | [], [] => none
      if y.credits = 0 || y.stopped then none
      else match y.rxq with
        | r :: rest => if r.taken then some (send s r.f fun y => { y with rxq := rest, owed := y.owed + 1 }) else own
        | [] => own

/-- Flits leave while they can. -/
def State.pump : Nat → State → St → Lane → State
  | 0, s, _, _ => s
  | n + 1, s, st, l => match s.laneStep st l with
    | some s' => s'.pump n st l
    | none => s

/-- Enough for every flit that a station can hold for a lane. -/
def pumpFuel (s : State) (st : St) (l : Lane) : Nat :=
  ((s.stn st).lane l).rxq.length + ((s.stn st).lane l).fwd.length + ((s.stn st).lane l).outq.length

def State.flow (s : State) (st : St) (l : Lane) : State := s.pump (pumpFuel s st l) st l

/-- What the SECDED check makes of a payload (R34). -/
def poisonWords (data : List PByte) (dead : List Nat) : List PByte :=
  data.zipIdx.map fun (b, i) => if dead.contains (i / 8) then { b with p := true } else b

/-- A flit arrives in a receive queue (R34, R37). While the hop's crossing is being recalibrated it takes none (R292). -/
def execRingFlitArrival (st : St) (l : Lane) (e : FlitEcc) (s : State) : Host.Outcome State Fault Refusal :=
  let y := (s.stn st).lane l
  if y.stopped || 96 ≤ y.rxq.length || (s.clk.recal.any fun c => c.1 < 18 && c.2 = st.val) then noEvent s
  else match y.wire with
    | [] => noEvent s
    | f :: rest =>
      if e.sbDead then
        next ((s.modSt st fun x => x.modLane l fun y => { y with wire := rest, stopped := true }).faultAt st 4 0x0402 (laneNo l) noPc)
      else
        let f' := { f with hops := f.hops - 1, data := poisonWords f.data e.dead }
        next (s.modSt st fun x => x.modLane l fun y => { y with wire := rest, rxq := y.rxq ++ [⟨f', false⟩] })

/-- A credit travels back from `st` to the station before it on the lane (R37). -/
def execRingCreditReturn (st : St) (l : Lane) (s : State) : Host.Outcome State Fault Refusal :=
  let y := (s.stn st).lane l
  match s.boundAt st with
  | none => noEvent s
  | some p =>
    match (s.prt p).before st l with
    | none => noEvent s
    | some u =>
      if y.owed = 0 then noEvent s
      else
        let s := s.modSt st fun x => x.modLane l fun y => { y with owed := y.owed - 1 }
        next ((s.modSt u fun x => x.modLane l fun y => { y with credits := y.credits + 1 }).flow u l)

/-- A flit has stood at the head of the receive queue for 10 µs (R40). -/
def execRingHeadStall (st : St) (l : Lane) (s : State) : Host.Outcome State Fault Refusal :=
  if ((s.stn st).lane l).rxq.isEmpty then noEvent s else next (s.faultAt st 0x0A 0x0A01 (laneNo l) noPc)

/-! ### RING.FEED -/

def ringLanes (w : W128) : Nat := fld w 14 13
def ringVat (w : W128) : VatNo := fin (fld w 12 8)
def ringFmt (w : W128) : Nat := fld w 51 48
def ringRows (w : W128) : Nat := fld w 47 36 + 1
def ringTag (w : W128) : W16 := BitVec.ofNat 16 (fld w 127 112)
def ringLocal (w : W128) : Bool := fbit w 53

/-- The instruction names the lane. -/
def onLane (w : W128) (l : Lane) : Bool :=
  if opc w = 0x22 then decide ((if fbit w 14 then 1 else 0) = laneNo l)
  else match ringLanes w with
    | 0 => decide (l = .cw)
    | 1 => decide (l = .ccw)
    | _ => true

/-- HOPS of a RING.FEED on a lane (Table 09-6). -/
def feedHops (w : W128) (l : Lane) : Nat := if ringLanes w = 2 && laneNo l = 1 then fld w 26 22 else fld w 21 17

/-- Operand and paired modes only (Table 09-6). -/
def ringModeOk (w : W128) : Bool := fld w 16 15 = 0 || fld w 16 15 = 2

/-- A further RING.FEED on a vat: with LOCAL = 1 it forms one consumer kind with the ARR.MMA of the vat (R261). -/
def VatBook.consumeFeed (b : VatBook) (loc : Bool) : Option VatBook :=
  if loc && b.cons = some .mma then some { b with cons := some .feedLocal, conss := b.conss + 1 }
  else b.consume (if loc then .feedLocal else .feed)

/-- RING.FEED at issue (R49, R258 to R261). -/
def execRingFeed (st : St) (s : State) : Host.Outcome State Fault Refusal :=
  issue 0x20 (fun s p st e =>
    let w := e.word
    let v := ringVat w
    let x := s.stn st
    let pt := s.prt p
    if !ringModeOk w || 7 < ringFmt w || 511 < fld w 35 27 + fld w 47 36 || (ringLanes w = 3 && !pt.closed)
      || ([Lane.cw, .ccw].any fun l => onLane w l && pt.hopsBound st l < feedHops w l) then .fault v.val
    else match x.book v with
      | none => .fault v.val
      | some b =>
        if b.outbound || b.size < rowBytes (ringFmt w) (shapeK x.arr.bkShape) then .fault v.val
        else match b.consumeFeed (ringLocal w) with
          | none => .fault v.val
          | some b' => enqueue (s.modSt st fun x =>
              let x := x.setBook v (some b')
              if ringLocal w then { x with localVats := setAdd x.localVats b.id } else x) st e) s st

/-- Half of a row that a lane carries in split mode: the elements' bytes, then the scales of its own blocks (R52, R96). -/
def rowHalf (fmt : Nat) (data : List PByte) (hi : Bool) : List PByte :=
  if fmt < 5 then (if hi then data.drop (data.length / 2) else data.take (data.length / 2))
  else
    -- an MX block of 32 elements: 25 bytes of MX6 or 17 bytes of MX4 with its scale
    let per := if fmt = 7 then 17 else 25
    let blocks := data.length / per
    let els := data.take (blocks * (per - 1))
    let scs := data.drop (blocks * (per - 1))
    if hi then els.drop (els.length / 2) ++ scs.drop (blocks / 2) else els.take (els.length / 2) ++ scs.take (blocks / 2)

/-- The whole row from its halves. -/
def joinHalves (fmt : Nat) (lo hi : List PByte) : List PByte :=
  if fmt < 5 then lo ++ hi
  else
    let per := if fmt = 7 then 17 else 25
    let n := lo.length / per
    lo.take (n * (per - 1)) ++ hi.take (n * (per - 1)) ++ lo.drop (n * (per - 1)) ++ hi.drop (n * (per - 1))

/-- Bytes of a row on one lane. -/
def laneRow (w : W128) (k : Nat) : Nat := if ringLanes w = 3 then rowBytes (ringFmt w) (k / 2) else rowBytes (ringFmt w) k

/-- Flits of a lane's byte string from byte `off` on, whole ones, and the padded last one when `fin` (R260). -/
def cutFlits (w : W128) (st : St) (l : Lane) (len : Nat) (done : Bool) : Nat → Nat → List PByte → List Flit × List PByte
  | 0, _, d => ([], d)
  | fuel + 1, off, d =>
    let mk (d : List PByte) (last : Bool) : Flit := {
      tag := ringTag w, mode := fld w 16 15, origin := st.val, hops := feedHops w l
      row := fld w 35 27 + off / len, last := last && fbit w 52
      half := decide (ringLanes w = 3) && decide (l = .ccw), fmt := ringFmt w
      data := fit ⟨0, false⟩ 1024 d }
    if d.length ≤ 1024 && done then (if d = [] then ([], []) else ([mk d true], []))
    else if d.length < 1024 then ([], d)
    else
      let r := cutFlits w st l len done fuel (off + 1024) (d.drop 1024)
      (mk (d.take 1024) false :: r.1, r.2)

/-- One more row of a feed passes to the lanes. `k` is the band depth K that fixes the row length. -/
def feedOne (x : Station) (st : St) (op : RingOp) (k : Nat) (data : List PByte) : Station × RingOp :=
  let w := op.e.word
  let done := op.rows + 1 = ringRows w
  let len := laneRow w k
  let go (x : Station) (l : Lane) (rest : List PByte) : Station × List PByte :=
    if !onLane w l || feedHops w l = 0 then (x, [])
    else
      let part := if ringLanes w = 3 then rowHalf (ringFmt w) data (l = .ccw) else data
      let off := op.rows * len - rest.length
      let c := cutFlits w st l len done (k + 1) off (rest ++ part)
      (x.modLane l fun y => { y with outq := y.outq ++ c.1 }, c.2)
  let a := go x .cw op.restCw
  let b := go a.1 .ccw op.restCcw
  (b.1, { op with rows := op.rows + 1, restCw := a.2, restCcw := b.2 })

/-- What one firing of a feed comes to. -/
inductive FeedRes where
  | wait
  | fault (loc2 : Nat)
  | poison
  | ok (x : Station) (op : RingOp)

/-- Rows of the slot at hand with LOCAL = 0, until the slot or the feed ends (R258, R260). -/
def feedSlot (st : St) (job : JobCtx) (k : Nat) : Nat → Bool → Station → RingOp → FeedRes
  | 0, _, x, op => .ok x op
  | fuel + 1, begun, x, op =>
    let w := op.e.word
    if op.rows = ringRows w then .ok x op
    else match x.vat (ringVat w) with
      | none => .wait
      | some y =>
        if begun && y.rdRow = 0 then .ok x op
        else match readRow x false (rowBytes (ringFmt w) k) (y.slots.length + 1) y with
          | .wait => if begun then .ok x op else .wait
          | .under => .fault (ringVat w).val
          | .row y' data _ raw =>
            let o := if raw then prologue x job (ringFmt w) (fld w 35 27 + op.rows) data else ⟨x, data, Fl.none, false, false⟩
            if o.fault then .fault noLoc2
            else if raw && x.vec.pro.isSome && o.poison then .poison
            else
              let r := feedOne ((o.x.flag o.fl).setVat (ringVat w) (some y')) st op k o.data
              feedSlot st job k fuel true r.1 r.2

/-- The slot that a feed with LOCAL = 1 takes: the one it has begun, else the head slot, taken now, and a fault past the stream's end (R197). -/
def localSlot (y : Vat) : Option (Option (Vat × Nat)) :=
  let i := (y.head + y.slots.length - 1) % y.slots.length
  if (y.slot i).st = .taken && !(y.slot i).laneDone then some (some (y, i))
  else if y.len ≤ y.taken then some none
  else if headFull y then some (some (y.take false false, y.head))
  else none

/-- Rows of a slot with LOCAL = 1: they pass the prologue once, to the lanes and to the array of the station (R131, R261). -/
def feedLocalRows (st : St) (job : JobCtx) (k i : Nat) : Nat → Station → RingOp → FeedRes
  | 0, x, op => .ok x op
  | fuel + 1, x, op =>
    let w := op.e.word
    let v := ringVat w
    match x.vat v with
    | none => .wait
    | some y =>
      let sl := y.slot i
      let len := rowBytes (ringFmt w) k
      let n := sl.count / len
      let j := sl.rows.length
      if n ≤ j then .ok (x.setVat v (some (y.setSlot i { sl with laneDone := true }))) op
      else if op.rows = ringRows w then .ok x op
      else
        let rown := fld w 35 27 + op.rows
        let o := prologue x job (ringFmt w) rown (x.slotRead y i (j * len) len)
        if o.fault then .fault noLoc2
        else if x.vec.pro.isSome && o.poison then .poison
        else
          let row : SlotRow := ⟨ringTag w, rown, anyPoison o.data, o.data⟩
          let y' := y.setSlot i { sl with rows := sl.rows ++ [row], laneDone := decide (j + 1 = n) }
          let r := feedOne ((o.x.flag o.fl).setVat v (some y')) st op k o.data
          feedLocalRows st job k i fuel r.1 r.2

/-- One slot of a feed (R260, R261). -/
def feedGo (st : St) (job : JobCtx) (x : Station) (op : RingOp) : FeedRes :=
  let w := op.e.word
  let k := shapeK x.arr.shape
  if x.vatFenced (ringVat w).val op.e.seq || (ringLocal w && x.arr.slice.isSome) then .wait
  else if ringLocal w then
    match x.vat (ringVat w) with
    | none => .wait
    | some y => match localSlot y with
      | none => .wait
      | some none => .fault (ringVat w).val
      | some (some (y', i)) => feedLocalRows st job k i 4096 (x.setVat (ringVat w) (some y')) op
  else feedSlot st job k 4096 false x op

def ringOp0 (e : Entry) : RingOp := ⟨e, 0, [], [], [], [], 0⟩

/-- The head of a lane's ring queue when it is of an opcode; one that names both lanes must head both queues (R259). -/
def ringHead (x : Station) (l : Lane) (op : Nat) : Option Entry :=
  match (x.lane l).queue with
  | e :: _ =>
    if opc e.word ≠ op then none
    else if (unitsFor e.word).all fun u => match x.queue u with
        | h :: _ => h.seq = e.seq
        | [] => false
    then some e else none
  | [] => none

def popRing (x : Station) (e : Entry) : Station := (unitsFor e.word).foldl Station.pop x

/-- The fired instruction of an opcode on a lane that was issued first. -/
def activeOp (x : Station) (l : Lane) (op : Nat) : Option RingOp :=
  x.ringOps.find? fun o => opc o.e.word = op && onLane o.e.word l

/-- Progress of a fired ring instruction: done, it leaves the list. -/
def setOp (x : Station) (o : RingOp) : Station :=
  let rest := x.ringOps.filter fun y => y.e.seq ≠ o.e.seq
  { x with ringOps := if o.rows = ringRows o.e.word then rest else
      if x.ringOps.any (fun y => y.e.seq = o.e.seq) then x.ringOps.map fun y => if y.e.seq = o.e.seq then o else y else rest ++ [o] }

/-- RING.FEED injects the rows of one slot (R38, R260, R261). -/
def execRingFeedFire (st : St) (l : Lane) (s : State) : Host.Outcome State Fault Refusal :=
  let x := s.stn st
  match s.jobAt st with
  | none => noEvent s
  | some p =>
    let go (x : Station) (op : RingOp) : Host.Outcome State Fault Refusal :=
      match feedGo st (s.jobCtx p) x op with
      | .wait => noEvent s
      | .fault l2 => next (s.faultFire st l2 op.e.pc)
      | .poison => next (s.faultPoison st noLoc2 op.e.pc)
      | .ok x' op' => next (((s.modSt st fun _ => setOp x' op').flow st .cw).flow st .ccw)
    match activeOp x l 0x20 with
    | some op => go x op
    | none => match ringHead x l 0x20 with
      | some e => go (popRing x e) (ringOp0 e)
      | none => noEvent s

/-! ### RING.TAKE -/

/-- RING.TAKE at issue (R193, R258, R259). -/
def execRingTake (st : St) (s : State) : Host.Outcome State Fault Refusal :=
  issue 0x21 (fun s _ st e =>
    let w := e.word
    let v := ringVat w
    let x := s.stn st
    match x.book v with
    | none => .fault v.val
    | some b =>
      if !ringModeOk w || 7 < ringFmt w || b.outbound || b.size < rowBytes (ringFmt w) (shapeK x.arr.bkShape) then .fault v.val
      else match b.produce .take with
        | none => .fault v.val
        | some b' => enqueue (s.modSt st fun x => let x := x.setBook v (some b'); { x with takeVats := setAdd x.takeVats b.id }) st e) s st

/-- A pending RING.TAKE or RING.ADD names the tag (R49, R260). -/
def namesTag (w : W128) (t : W16) : Bool :=
  if opc w = 0x21 then decide ((t - ringTag w).toNat ≤ fld w 19 17)
  else opc w = 0x22 && ringTag w = t && fld w 16 15 ≠ 0

/-- The rows of a fired RING.ADD have all come into its add stage: its circuit takes no further flit. -/
def addSated (o : RingOp) : Bool := opc o.e.word = 0x22 && fld o.e.word 40 32 < o.got

/-- The earliest issued instruction of the lane, fired or queued, that names the tag and still takes flits (R49, R260). -/
def earliest (x : Station) (l : Lane) (t : W16) : Option Entry :=
  ((((x.ringOps.filter fun o => !addSated o).map (·.e)) ++ (x.lane l).queue).filter fun e => onLane e.word l && namesTag e.word t).foldl
    (fun b e => match b with
      | some y => if e.seq < y.seq then some e else b
      | none => some e) none

/-- The first flit of a receive queue that no instruction has taken. -/
def headFlit (y : LaneSt) : Option (Nat × Flit) :=
  match y.rxq.findIdx? fun r => !r.taken with
  | some i => (y.rxq[i]?).map fun r => (i, r.f)
  | none => none

/-- The flit at index i has been taken: it leaves the queue, or waits there to be forwarded (R50). -/
def takeFlit (y : LaneSt) (i : Nat) (f : Flit) : LaneSt :=
  if f.hops = 0 then { y with rxq := ldel y.rxq i, owed := y.owed + 1 } else { y with rxq := lset y.rxq i ⟨f, true⟩ }

/-- Rows that a lane's bytes complete, from row number `r` on: the rows and the rest (R260). -/
def unpack (len : Nat) : Nat → Nat → List PByte → List (Nat × List PByte) × Nat × List PByte
  | 0, r, d => ([], r, d)
  | fuel + 1, r, d =>
    if len = 0 || d.length < len then ([], r, d)
    else
      let t := unpack len fuel (r + 1) (d.drop len)
      ((r, d.take len) :: t.1, t.2)

def sameStream (l : Lane) (f : Flit) (c : RowCarry) : Bool := c.lane = l && c.origin = f.origin && c.tag = f.tag && c.half = f.half

/-- Whole rows that a flit completes for a take: in split mode only when both halves are there (R52, R260). -/
def completeRows (w : W128) (l : Lane) (f : Flit) (op : RingOp) : List (Nat × List PByte) → RingOp × List (Nat × List PByte)
  | [] => (op, [])
  | (r, d) :: rest =>
    if ringLanes w ≠ 3 then
      let t := completeRows w l f op rest
      (t.1, (r, d) :: t.2)
    else match op.halves.find? fun h => h.origin = f.origin && h.tag = f.tag && h.row = r && h.half ≠ f.half with
      | some h =>
        let op := { op with halves := op.halves.filter fun y => !(y.origin = f.origin && y.tag = f.tag && y.row = r && y.half ≠ f.half) }
        let t := completeRows w l f op rest
        (t.1, (r, if f.half then joinHalves f.fmt h.data d else joinHalves f.fmt d h.data) :: t.2)
      | none => completeRows w l f { op with halves := op.halves ++ [⟨l, f.origin, f.tag, f.half, r, d⟩] } rest

/-- Rows into the vat, up to the count of the take. -/
def putRows (w : W128) (t : W16) : List (Nat × List PByte) → Station → RingOp → FeedRes
  | [], x, op => .ok x op
  | (r, d) :: rest, x, op =>
    if op.rows = ringRows w then .ok x op
    else match x.vat (ringVat w) with
      | none => .wait
      | some y => match putRow x y d (some ⟨t, r, anyPoison d, []⟩) with
        | .wait => .wait
        | .over => .fault (ringVat w).val
        | .done x y' =>
          let y' := if op.rows + 1 = ringRows w then y'.endFill else y'
          putRows w t rest (x.setVat (ringVat w) (some y')) { op with rows := op.rows + 1 }

/-- A flit into a take (R49, R52, R260). -/
def takeGo (l : Lane) (x : Station) (op : RingOp) (f : Flit) : FeedRes :=
  let w := op.e.word
  if f.mode ≠ fld w 16 15 || f.fmt ≠ ringFmt w then .fault (ringVat w).val
  else if x.vatFenced (ringVat w).val op.e.seq then .wait
  else
    let len := laneRow w (shapeK x.arr.shape)
    let c := (op.carry.find? fun c => sameStream l f c && c.row = f.row).map (·.data)
    let u := unpack len 1025 f.row (c.getD [] ++ f.data)
    let op := { op with carry := (op.carry.filter fun c => !sameStream l f c) ++
      (if u.2.2 = [] || f.last then [] else [⟨l, f.origin, f.tag, f.half, u.2.1, u.2.2⟩]) }
    let r := completeRows w l f op u.1
    putRows w f.tag r.2 x r.1

/-- The tokens of a RING.TAKE or RING.ADD at the head of a lane's queue are there (Table 08-2): the flit at the head of the lane is for it, and the vat of a RING.TAKE has a free slot. A
RING.ADD at a circuit's origin takes no flit. -/
def openReady (x : Station) (l : Lane) (e : Entry) : Bool :=
  (opc e.word = 0x22 && fld e.word 16 15 = 0) ||
  ((match (headFlit (x.lane l)).bind fun h => earliest x l h.2.tag with
    | some y => y.seq = e.seq
    | none => false) &&
   (opc e.word = 0x22 || match x.vat (ringVat e.word) with
    | some y => tailFree y || y.len ≤ y.claimed
    | none => false))

/-- A RING.TAKE or RING.ADD at the head of a lane's queue fires (R219, R220). -/
def openOp (s : State) (st : St) (l : Lane) (op : Nat) : Host.Outcome State Fault Refusal :=
  match ringHead (s.stn st) l op with
  | some e =>
    if openReady (s.stn st) l e then next (s.modSt st fun x => let y := popRing x e; { y with ringOps := y.ringOps ++ [ringOp0 e] })
    else noEvent s
  | none => noEvent s

/-- RING.TAKE takes the flit at the head of its lane (R49, R50, R260); one that is still queued fires first. -/
def execRingTakeFire (st : St) (l : Lane) (s : State) : Host.Outcome State Fault Refusal :=
  let x := s.stn st
  match headFlit (x.lane l), s.jobAt st with
  | some (i, f), some _ =>
    match (earliest x l f.tag).bind fun e => x.ringOps.find? fun o => o.e.seq = e.seq && opc e.word = 0x21 with
    | none => openOp s st l 0x21
    | some op => match takeGo l x op f with
      | .wait => noEvent s
      | .fault l2 => next (s.faultFire st l2 op.e.pc)
      | .poison => noEvent s
      | .ok x' op' => next ((s.modSt st fun _ => setOp (x'.modLane l fun y => takeFlit y i f) op').flow st l)
  | none, some _ => openOp s st l 0x21
  | _, none => noEvent s

/-! ### RING.ADD (R53, R54, R111, R262) -/

def addRole (w : W128) : Nat := fld w 16 15
def addFmt (w : W128) : Nat := fld w 44 41
def addRm1 (w : W128) : Nat := fld w 40 32
def addNoprod (w : W128) : Bool := fbit w 17
def addTile (w : W128) : Fin 64 := fin (fld w 13 8)
def addLane (w : W128) : Lane := if fbit w 14 then .ccw else .cw

/-- RING.ADD at issue (R49, R76, R82, R262). -/
def execRingAdd (st : St) (s : State) : Host.Outcome State Fault Refusal :=
  issue 0x22 (fun s p st e =>
    let w := e.word
    let x := s.stn st
    let l2 := laneNo (addLane w)
    if x.arr.bkShape ≠ 0 || addRole w = 3 || (addFmt w ≠ 1 && addFmt w ≠ 2) || (addFmt w = 1 && addRm1 w % 2 = 0) then .fault l2
    else if addRole w = 0 && (addNoprod w || fld w 22 18 = 0 || (s.prt p).hopsBound st (addLane w) < fld w 22 18) then .fault l2
    else if addRole w ≠ 2 then enqueue s st e
    else match vget x.tbooks (addTile w) with
      | none => .fault l2
      | some b =>
        if b.drained || b.shape ≠ 0 || b.fmt ≠ addFmt w || b.lease = some .mma || b.passes ≤ b.issued
          || b.height < fld w 31 23 + addRm1 w + 1 then .fault l2
        else enqueue (s.modSt st fun x => leaseTiles x (addTile w).val 1 .ring) st e) s st

/-- Circuit rows that one flit carries. -/
def addStep (w : W128) : Nat := if addFmt w = 1 then 2 else 1

/-- The station's product columns for rows i .. of a circuit, once their verdicts have cleared (R54). -/
def stageRows (y : LaneSt) (t : W16) (i n : Nat) : Option (List W32) :=
  ((List.range n).mapM fun j => (y.adds.find? fun a => a.tag = t && a.i = i + j && a.cleared).map (·.bits)).map List.flatten

/-- Those rows leave the add stage. -/
def unstage (y : LaneSt) (t : W16) (i n : Nat) : LaneSt :=
  { y with adds := (List.range n).foldl (fun l j =>
      match l.findIdx? fun a => a.tag = t && a.i = i + j && a.cleared with
      | some k => ldel l k
      | none => l) y.adds }

/-- Payload of a partial-sum flit: 256 columns of one FP32 row or of two FP16 rows (R53). -/
def addPayload (w : W128) (bits : List W32) : List PByte :=
  clean (bits.map fun b => leBytes (accBytes (addFmt w)) b.toNat).flatten

def payloadVals (w : W128) (fa : Fmt) (d : List PByte) : List Val :=
  (chunks (accBytes (addFmt w)) (1024 / accBytes (addFmt w)) d).map fun c => fa.decode (leP c)

/-- Progress of a RING.ADD: it keeps its place in the list, and leaves it when done. -/
def setAddOp (x : Station) (o : RingOp) : Station :=
  { x with ringOps := if addRm1 o.e.word < o.rows then x.ringOps.filter fun y => y.e.seq ≠ o.e.seq
      else x.ringOps.map fun y => if y.e.seq = o.e.seq then o else y }

/-- An earlier RING.ADD into the same tile that is not done: one of the same lane, whose values come first in program order (R107, R125), or of either lane where the tile merges, whose passes
end in order (R112). -/
def earlierAdd (x : Station) (merges : Bool) (e : Entry) : Bool :=
  (x.ringOps.map (·.e) ++ x.cw.queue ++ x.ccw.queue).any fun y =>
    opc y.word = 0x22 && addRole y.word = 2 && addTile y.word = addTile e.word && (merges || addLane y.word = addLane e.word) && y.seq < e.seq

/-- A partial sum added into the tile (R53, R111). -/
def addToTile (t : Tile) (w : W128) (fa : Fmt) (row : Nat) (l : Lane) (vs : List Val) : Tile :=
  let col := 256 * laneNo l
  (chunks 256 (addStep w) vs).zipIdx.foldl (fun t (r, j) => tileAddRow t fa ((fld w 31 23 + row + j) * 512 + col) r) t

/-- What a RING.ADD can do next: nothing, a fault at firing, consumption of poison, or a step. -/
inductive AddRes where
  | wait
  | fault
  | poison (loc2 : Nat)
  | ok (x : Station) (op : RingOp)

/-- A flit for a fired RING.ADD leaves the receive queue for the add stage (R49, R262); one that gets no product here passes on at once. -/
def addTake (l : Lane) (x : Station) (op : RingOp) (i : Nat) (f : Flit) : AddRes :=
  let w := op.e.word
  let y := x.lane l
  if f.mode ≠ 1 || decide (addRole w = 2) ≠ decide (f.hops = 0) then .fault
  else if 32 ≤ y.held.length then .wait
  else .ok (x.modLane l fun y => { y with rxq := ldel y.rxq i, owed := y.owed + 1, held := y.held ++ [(op.e.seq, f)] }) { op with got := op.got + addStep w }

/-- The next rows of a circuit at its origin leave with their verdicts cleared (R54). -/
def addOrigin (st : St) (l : Lane) (x : Station) (op : RingOp) : AddRes :=
  let w := op.e.word
  let t := ringTag w
  let n := addStep w
  match stageRows (x.lane l) t op.rows n with
  | none => .wait
  | some bits =>
    let f : Flit := {
      tag := t, mode := 1, origin := st.val, hops := fld w 22 18, row := op.rows
      last := decide (addRm1 w < op.rows + n), half := decide (l = .ccw), fmt := addFmt w, data := addPayload w bits }
    .ok (x.modLane l fun y => let z := unstage y t op.rows n; { z with outq := z.outq ++ [f] }) { op with rows := op.rows + n }

/-- Flags that the product rows i .. of a circuit bring with them (R108). -/
def stageFlags (y : LaneSt) (t : W16) (i n : Nat) : Fl :=
  let rs := y.adds.filter fun a => a.tag = t && i ≤ a.i && a.i < i + n && a.cleared
  ⟨rs.any (·.ovf), rs.any (·.nv)⟩

/-- The add stage forms the next sum of a circuit after its origin (R53, R54, R108, R111): the flit that has waited longest, with the station's product, goes on or into the tile. -/
def addSum (l : Lane) (x : Station) (op : RingOp) : AddRes :=
  let w := op.e.word
  let t := ringTag w
  let n := addStep w
  let y := x.lane l
  match y.held.find? fun h => h.1 = op.e.seq, Fmt.ofCode (addFmt w) with
  | some (_, f), some fa =>
    let prod := stageRows y t op.rows n
    let op' := { op with rows := op.rows + n }
    let rest (y : LaneSt) : LaneSt := { y with held := match y.held.findIdx? fun h => h.1 = op.e.seq with
      | some k => ldel y.held k
      | none => y.held }
    if !addNoprod w && prod.isNone then .wait
    else if anyPoison f.data && (addRole w = 2 || !addNoprod w) then .poison (laneNo l)
    else
      let fv := payloadVals w fa f.data
      let sum : List (Val × Bool) := if addNoprod w then fv.map (·, false) else
        List.zipWith (addV fa) fv ((prod.getD []).map fun b => fa.decode b.toNat)
      let fl : Fl := if addNoprod w then Fl.none else ⟨sum.any (·.2), sum.any fun v => !v.1.finite⟩
      let pf := if addNoprod w then Fl.none else stageFlags y t op.rows n
      let x := (x.flag fl).modLane l fun y => rest (if addNoprod w then y else unstage y t op.rows n)
      if addRole w = 1 then
        let f' := { f with data := if addNoprod w then f.data else addPayload w (sum.map fun v => encAcc fa v.1) }
        .ok (x.modLane l fun y => { y with fwd := y.fwd ++ [f'] }) op'
      else
        match vget x.tiles (addTile w) with
        | none => .wait
        | some tl =>
          let merges := tl.bk.faithful || spillBytes tl.bk ≠ 0
          if earlierAdd x merges op.e || (merges && 2 ≤ tl.mergeQ.length) then .wait
          else if tilePoisonIn tl ((fld w 31 23 + f.row) * 512) (512 * n) then .poison noLoc2
          else
            let tl' := addToTile (tl.flag (fl.or pf)) w fa f.row l (sum.map (·.1))
            let tl'' := if addRm1 w < op.rows + n then tl'.passEnds op.e.seq else tl'
            .ok ((setTile x (addTile w) tl'').flag ⟨tl'.ovf && !tl.ovf, tl'.nv && !tl.nv⟩) op'
  | _, _ => .wait

/-- One step of a fired RING.ADD without a new flit. -/
def addGo (st : St) (l : Lane) (x : Station) (op : RingOp) : AddRes :=
  if addRole op.e.word = 0 then addOrigin st l x op else addSum l x op

/-- An earlier fired RING.ADD of the same TAG and lane still holds flits in the add stage: the flits of a later one wait behind them (R38, R54). -/
def behindAdd (x : Station) (l : Lane) (op : RingOp) : Bool :=
  x.ringOps.any fun o => opc o.e.word = 0x22 && onLane o.e.word l && ringTag o.e.word = ringTag op.e.word && o.e.seq < op.e.seq &&
    (x.lane l).held.any fun h => h.1 = o.e.seq

/-- The fired RING.ADD that the flit at the head of the lane goes to, with the flit's place (R49). -/
def addHead (x : Station) (l : Lane) : Option (RingOp × Nat × Flit) :=
  (headFlit (x.lane l)).bind fun h => (earliest x l h.2.tag).bind fun e =>
    (x.ringOps.find? fun o => o.e.seq = e.seq && opc e.word = 0x22).map fun o => (o, h.1, h.2)

/-- The outcome of a step of a RING.ADD. -/
def addOut (s : State) (st : St) (l : Lane) (e : Entry) : AddRes → Option (Host.Outcome State Fault Refusal)
  | .wait => none
  | .fault => some (next (s.faultFire st (laneNo l) e.pc))
  | .poison l2 => some (next (s.faultPoison st l2 e.pc))
  | .ok x op => some (next ((s.modSt st fun _ => setAddOp x op).flow st l))

/-- RING.ADD (R49, R53, R54, R262): the add stage passes on what is ready, in the order of issue; else it takes in the flit at the head of the lane; else the next RING.ADD of the
queue fires. -/
def execRingAddFire (st : St) (l : Lane) (s : State) : Host.Outcome State Fault Refusal :=
  let x := s.stn st
  if (s.jobAt st).isNone then noEvent s
  else
    let ops := x.ringOps.filter fun o => opc o.e.word = 0x22 && onLane o.e.word l && !behindAdd x l o
    match (ops.findSome? fun o => addOut s st l o.e (addGo st l x o)) with
    | some r => r
    | none => match (addHead x l).bind fun (o, i, f) => addOut s st l o.e (addTake l x o i f) with
      | some r => r
      | none => openOp s st l 0x22

end Sys2Proof.Machine
end

