-- ==== Sys2Proof/Machine/Vector.lean ====
section
/-!
DEFINITION. The vector instructions (R126 to R144, R267 to R270).
-/
namespace Sys2Proof.Machine

def Station.modVec (x : Station) (f : VecUnit → VecUnit) : Station := { x with vec := f x.vec }

/-- VEC.SPLIT at issue: A is 0 to 8 (Table 09-10). -/
def execVecSplit (st : St) (s : State) : Host.Outcome State Fault Refusal :=
  issue 0x50 (fun s _ st e => if 8 < fld e.word 11 8 then .fault noLoc2 else enqueue s st e) s st

/-- Elements are in the epilogue pool: a drain that runs the epilogue, or a VEC.OP (R129, R133). -/
def epiBusy (x : Station) : Bool :=
  (match x.drain with
   | some d => drainEpi d.e.word
   | none => false) || x.vec.op.isSome

/-- An instruction takes rows of the station's own vats, which pass the prologue (R131, R133): a RING.FEED that is not done, or an ARR.MMA that still feeds rows which no RING.TAKE and no
RING.FEED has brought. Between two rows of one instruction the path counts as in use: DEDUCED (assumption log 117). -/
def proBusy (x : Station) : Bool :=
  (x.ringOps.any fun o => opc o.e.word = 0x20) ||
  x.arr.mmas.any fun m => m.fed < mmaRows m.e.word && (mmaVa m.e.word :: if fbit m.e.word 35 then [mmaVb m.e.word] else []).any fun v =>
    match x.vat v with
    | some y => !x.takeVats.contains y.id && !x.localVats.contains y.id
    | none => false

/-- VEC.SPLIT fires (R129, R133). -/
def execVecSplitFire (st : St) (s : State) : Host.Outcome State Fault Refusal :=
  match s.headOp st .vec 0x50 with
  | none => noEvent s
  | some e =>
    if epiBusy (s.stn st) || proBusy (s.stn st) then noEvent s
    else next (s.modSt st fun x => (x.pop .vec).modVec fun v => { v with split := fld e.word 11 8 })

/-- An extent of local store that reaches the program region of the station's job (R216). -/
def State.pastLocal (s : State) (p : Part) (a n : Nat) : Bool := progBase (s.prt p).prog < a + n

/-- The micro-op list of an instruction reaches the program region. -/
def State.uopsPast (s : State) (p : Part) (e : Entry) : Bool := s.pastLocal p (kr e.k (fld e.word 12 8)).toNat (16 * (fld e.word 16 13 + 1))

/-- VEC.PRO at issue (R216, R267). -/
def execVecPro (st : St) (s : State) : Host.Outcome State Fault Refusal :=
  issue 0x51 (fun s p st e => if s.uopsPast p e then .fault noLoc2 else enqueue s st e) s st

/-- The list of micro-ops read at firing; `none` when its offset is not aligned to 16 B. -/
def uopList (x : Station) (e : Entry) : Option (List W128) :=
  let a := (kr e.k (fld e.word 12 8)).toNat
  let n := fld e.word 16 13 + 1
  if a % 16 ≠ 0 then none else some (readUops x a n).1

/-- VEC.PRO fires: the list is read and armed (R133, R267, R269). -/
def execVecProFire (st : St) (s : State) : Host.Outcome State Fault Refusal :=
  match s.headOp st .vec 0x51 with
  | none => noEvent s
  | some e =>
    if proBusy (s.stn st) then noEvent s
    else match uopList (s.stn st) e with
    | none => next (s.faultFire st noLoc2 e.pc)
    | some us =>
      if !us.all (uopAllowed .pro) then next (s.faultFire st noLoc2 e.pc)
      else next (s.modSt st fun x => (x.pop .vec).modVec fun v => { v with pro := some ⟨e, us⟩ })

/-- VEC.EPI at issue: with AEN = 1, the aside format and vat (R132, R193). -/
def execVecEpi (st : St) (s : State) : Host.Outcome State Fault Refusal :=
  issue 0x52 (fun s p st e =>
    let w := e.word
    if s.uopsPast p e then .fault noLoc2
    else if !fbit w 101 then enqueue (s.modSt st fun x => x.modVec fun y => { y with bkEpi := some w }) st e
    else
      let v : VatNo := fin (fld w 100 96)
      match (s.stn st).book v with
      | none => .fault v.val
      | some b =>
        if 2 < fld w 105 102 || b.outbound then .fault v.val
        else match b.consume .aside with
          | none => .fault v.val
          | some b' => enqueue (s.modSt st fun x => (x.setBook v (some b')).modVec fun y => { y with bkEpi := some w }) st e) s st

/-- VEC.EPI fires (R133, R267, R269). -/
def execVecEpiFire (st : St) (s : State) : Host.Outcome State Fault Refusal :=
  match s.headOp st .vec 0x52 with
  | none => noEvent s
  | some e =>
    if epiBusy (s.stn st) then noEvent s
    else match uopList (s.stn st) e with
      | none => next (s.faultFire st noLoc2 e.pc)
      | some us =>
        if !us.all (uopAllowed .epi) then next (s.faultFire st noLoc2 e.pc)
        else next (s.modSt st fun x => (x.pop .vec).modVec fun v => { v with epi := some ⟨e, us⟩ })

/-! ### VEC.OP (R270) -/

def vopVin (w : W128) : VatNo := fin (fld w 21 17)
def vopVin2 (w : W128) : VatNo := fin (fld w 92 88)
def vopVout (w : W128) : VatNo := fin (fld w 26 22)
def vopCols (w : W128) : Nat := fld w 41 30 + 1
def vopRows (w : W128) : Nat := fld w 87 64 + 1
def vopFin (w : W128) : Nat := fld w 45 42
def vopFout (w : W128) : Nat := fld w 49 46
def vopRed (w : W128) : Bool := fbit w 29
def vopOut (w : W128) : Bool := fbit w 28
def vopIn2 (w : W128) : Bool := fbit w 93

/-- An input vat of a VEC.OP. -/
def vopIn (x : Station) (v : VatNo) (n : Nat) : Option Station :=
  match x.book v with
  | some b => if b.outbound || b.size < n then none else (b.consume .vecOp).map fun b' => x.setBook v (some b')
  | none => none

def vopOutVat (x : Station) (v : VatNo) (n : Nat) : Option Station :=
  match x.book v with
  | some b => if !b.outbound || b.size < n then none else (b.produce .vecOp).map fun b' => x.setBook v (some b')
  | none => none

/-- VEC.OP at issue (R193, R258, R270). -/
def execVecOp (st : St) (s : State) : Host.Outcome State Fault Refusal :=
  issue 0x53 (fun s p st e =>
    let w := e.word
    let x := s.stn st
    let c := vopCols w
    if s.uopsPast p e || 4 < vopFin w || 4 < vopFout w || (vopRed w && 2 ^ Nat.log2 c ≠ c) || (!vopOut w && (vopRows w ≠ 1 || 1024 < c)) then .fault noLoc2
    else match vopIn x (vopVin w) (rowBytes (vopFin w) c) with
      | none => .fault (vopVin w).val
      | some x1 =>
        match (if vopIn2 w then vopIn x1 (vopVin2 w) (rowBytes (vopFin w) c) else some x1) with
        | none => .fault (vopVin2 w).val
        | some x2 =>
          match (if vopOut w then vopOutVat x2 (vopVout w) (rowBytes (vopFout w) (if vopRed w then 1 else c)) else some x2) with
          | none => .fault (vopVout w).val
          | some x3 => enqueue (s.modSt st fun _ => x3) st e) s st

/-- A row of an input vat of a VEC.OP. -/
def vopRow (x : Station) (e : Entry) (v : VatNo) : Got :=
  match x.vat v with
  | some y =>
    if x.vatFenced v.val e.seq then .wait else readRow x false (rowBytes (vopFin e.word) (vopCols e.word)) (y.slots.length + 1) y
  | none => .wait

/-- Row `r` of a VEC.OP. -/
def vopGo (s : State) (st : St) (p : Part) (x : Station) (m : VecRec) : Host.Outcome State Fault Refusal :=
  let w := m.e.word
  match vopRow x m.e (vopVin w), Fmt.ofCode (vopFin w), Fmt.ofCode (vopFout w) with
  | .under, _, _ => next (s.faultFire st (vopVin w).val m.e.pc)
  | .row y data _ _, some fi, some fo =>
    let x := x.setVat (vopVin w) (some y)
    let second : Got := if vopIn2 w then vopRow x m.e (vopVin2 w) else .row y [] none false
    match second with
    | .wait => noEvent s
    | .under => next (s.faultFire st (vopVin2 w).val m.e.pc)
    | .row y2 data2 _ _ =>
      let x := if vopIn2 w then x.setVat (vopVin2 w) (some y2) else x
      let o := runProg x m.uops ⟨.op, m.row, m.row = 0, rowVals fi data, rowVals fi data2, false, m.e, s.jobCtx p⟩
      if o.fault then next (s.faultFire st noLoc2 m.e.pc)
      else if o.poison || anyPoison data || anyPoison data2 then next (s.faultPoison st noLoc2 m.e.pc)
      else
        let red := sumTree (Nat.log2 (vopCols w)) o.run
        let vs := if vopRed w then [red.1] else o.run
        let b := drainBytes fo vs fun _ => false
        let fl := (o.fl.or b.2).or (if vopRed w then ⟨red.2, !red.1.finite⟩ else Fl.none)
        let m' := { m with row := m.row + 1 }
        let x := o.x.flag fl
        if !vopOut w then next (s.modSt st fun _ => x.modVec fun v => { v with op := some m' })
        else match x.vat (vopVout w) with
          | none => noEvent s
          | some yo => match putRow x yo b.1 none with
            | .wait => noEvent s
            | .over => next (s.faultFire st (vopVout w).val m.e.pc)
            | .done x yo' =>
              let yo' := if m'.row = vopRows w then yo'.endFill else yo'
              next (s.modSt st fun _ => (x.setVat (vopVout w) (some yo')).modVec fun v => { v with op := some m' })
  | _, _, _ => noEvent s

/-- VEC.OP runs one row: the next of the one in progress, or the first of the one at the head of the queue, which waits for a drain with an epilogue that was issued before it (R129, R270). -/
def execVecOpFire (st : St) (s : State) : Host.Outcome State Fault Refusal :=
  let x := s.stn st
  match s.jobAt st, x.vec.op with
  | some p, some m => if m.row < vopRows m.e.word then vopGo s st p x m else noEvent s
  | some p, none =>
    match s.headOp st .vec 0x53 with
    | none => noEvent s
    | some e =>
      if epiBusy x || x.arr.slice.isSome || (x.accQ.any fun q => opc q.word = 0x41 && drainEpi q.word && q.seq < e.seq) then noEvent s
      else match uopList x e with
        | none => next (s.faultFire st noLoc2 e.pc)
        | some us =>
          if !us.all (uopAllowed .op) then next (s.faultFire st noLoc2 e.pc)
          else vopGo s st p (x.pop .vec) ⟨e, us, 0⟩
  | none, _ => noEvent s

/-- A VEC.OP that has run all its rows frees the epilogue pool (R129). -/
def execVecOpComplete (st : St) (s : State) : Host.Outcome State Fault Refusal :=
  match (s.stn st).vec.op with
  | some m =>
    if m.row < vopRows m.e.word then noEvent s else next (s.modSt st fun x => x.modVec fun v => { v with op := none })
  | none => noEvent s

/-! ### VEC.NCOMB (R135, R137) -/

/-- VEC.NCOMB at issue: NEL is at least 1, and no record or entry reaches the program region (R216, R267). -/
def execVecNcomb (st : St) (s : State) : Host.Outcome State Fault Refusal :=
  issue 0x54 (fun s p st e =>
    let w := e.word
    let rows := fld w 60 37 + 1
    if fld w 87 64 = 0 || s.pastLocal p ((kr e.k (fld w 12 8)).toNat + fld w 34 23 * (kr e.k (fld w 17 13)).toNat) ((if fbit w 35 then 16 else 8) * rows)
      || s.pastLocal p (kr e.k (fld w 22 18)).toNat (8 * rows) then .fault noLoc2
    else enqueue s st e) s st

/-- Exact value of a double-FP32 pair. -/
def DD.val (d : DD) : Val := if d.hi.finite then d.hi.addX d.lo else d.hi

/-- 1/√v rounded once; zero gives +∞, a negative or NaN gives NaN. -/
def rsqrtOnce (v : Val) : Val :=
  match v with
  | .nan => .nan
  | .inf n => if n then .nan else .num false 0
  | .num n m => if m = 0 then .inf false else if n then .nan else .num false (sqrtRne .fp32 (1 / m))

/-- max(0, v), NaN kept. -/
def max0 (v : Val) : Val :=
  match v with
  | .num true _ => .num false 0
  | .inf true => .num false 0
  | v => v

/-- Sum of one pair over the parts of a row: each part's hi, then its lo (R135). -/
def partSum (x : Station) (a stride q : Nat) : DD × Bool × Bool :=
  (List.range q).foldl (fun (o : DD × Bool × Bool) j =>
    let d := lsDD x (a + j * stride)
    let r := ddSum o.1 [d.1.hi, d.1.lo]
    (r.1, o.2.1 || r.2, o.2.2 || d.2)) (DD.zero, false, false)

/-- The entry of one row: the two values, flags, consumption of poison. -/
def ncombRow (x : Station) (e : Entry) (r : Nat) : Val × Val × Fl × Bool :=
  let w := e.word
  let layer := fbit w 35
  let bwd := fbit w 36
  let a := (kr e.k (fld w 12 8)).toNat
  let stride := (kr e.k (fld w 17 13)).toNat
  let q := fld w 34 23 + 1
  let n := Val.num false ((fld w 87 64 : Nat) : Rat)
  let eps := f32 (fld w 127 96)
  let size := if layer then 16 else 8
  let p1 := partSum x (a + size * r) stride q
  let p2 := partSum x (a + size * r + 8) stride (if layer then q else 0)
  let fin2 (u v : Val × Bool) : Val × Val × Fl × Bool :=
    (u.1, v.1, ⟨p1.2.1 || p2.2.1 || u.2 || v.2, !u.1.finite || !v.1.finite⟩, p1.2.2 || p2.2.2)
  let q1 := p1.1.val.divX n
  let q2 := p2.1.val.divX n
  if bwd then fin2 (q1.rnd .fp32) (if layer then q2.rnd .fp32 else (.num false 0, false))
  else if layer then fin2 (rsqrtOnce ((max0 (q2.addX (q1.mulX q1).neg)).addX eps), false) (q1.rnd .fp32)
  else fin2 (rsqrtOnce (q1.addX eps), false) (.num false 0, false)

/-- VEC.NCOMB fires (R135, R137): one 8 B entry per row, the first value at the lower address. -/
def execVecNcombFire (st : St) (s : State) : Host.Outcome State Fault Refusal :=
  match s.headOp st .vec 0x54 with
  | none => noEvent s
  | some e =>
      let x := (s.stn st).pop .vec
      let out := (kr e.k (fld e.word 22 18)).toNat
      let o := (List.range (fld e.word 60 37 + 1)).foldl (fun (o : Station × Fl × Bool) r =>
        let v := ncombRow o.1 e r
        (lsPutF32 (lsPutF32 o.1 (out + 8 * r) v.1) (out + 8 * r + 4) v.2.1, o.2.1.or v.2.2.1, o.2.2 || v.2.2.2)) (x, Fl.none, false)
      if o.2.2 then next (s.faultPoison st noLoc2 e.pc) else next (s.modSt st fun _ => o.1.flag o.2.1)

/-! ### VEC.SMINIT and VEC.ROPE.LOAD -/

/-- VEC.SMINIT at issue: BASE + CM1 ≤ 16,383. -/
def execVecSminit (st : St) (s : State) : Host.Outcome State Fault Refusal :=
  issue 0x55 (fun s _ st e => if 16383 < fld e.word 21 8 + fld e.word 35 22 then .fault noLoc2 else enqueue s st e) s st

/-- VEC.SMINIT fires: the named entries become (−∞, +0) (R138). -/
def execVecSminitFire (st : St) (s : State) : Host.Outcome State Fault Refusal :=
  match s.headOp st .vec 0x55 with
  | none => noEvent s
  | some e =>
    next (s.modSt st fun x => (List.range (fld e.word 35 22 + 1)).foldl
      (fun x i => smPut x (fld e.word 21 8 + i) (.inf true) (.num false 0)) (x.pop .vec))

/-- VEC.ROPE.LOAD at issue (R216). -/
def execVecRopeLoad (st : St) (s : State) : Host.Outcome State Fault Refusal :=
  issue 0x56 (fun s p st e => if s.pastLocal p (kr e.k (fld e.word 12 8)).toNat 4096 then .fault noLoc2 else enqueue s st e) s st

/-- VEC.ROPE.LOAD fires (R142): fault 01h for an offset not aligned to 8 B or an entry with a reserved bit. -/
def execVecRopeLoadFire (st : St) (s : State) : Host.Outcome State Fault Refusal :=
  match s.headOp st .vec 0x56 with
  | none => noEvent s
  | some e =>
    let x := s.stn st
      let a := (kr e.k (fld e.word 12 8)).toNat
      let vs := (List.range 512).map fun i => leP (x.lsRead (a + 8 * i) 8)
      if a % 8 ≠ 0 || vs.any (fun v => 2 ^ 48 ≤ v) then next (s.faultFire st noLoc2 e.pc)
      else next (s.modSt st fun x => (x.pop .vec).modVec fun v =>
        { v with rope := vs.zipIdx.foldl (fun m (f, i) => sput 0 m i (BitVec.ofNat 64 f)) [] })

end Sys2Proof.Machine
end

