-- ==== Sys2Proof/Machine/Commands.lean ====
section
/-!
DEFINITION. Instructions that command what lies outside the station: engine descriptors (R271), transfers to other devices (R272, R341 to R346,
R363) and mordants (R273, R357 to R362).
-/
namespace Sys2Proof.Machine

/-! ### ENG.* (R271) -/

/-- ENG.ROUTE, ENG.XPOSE and ENG.MADDER at issue. -/
def engIssue (op : Nat) (st : St) (s : State) : Host.Outcome State Fault Refusal :=
  issue op (fun s _ st e => enqueue s st e) s st

def execEngRoute (st : St) (s : State) : Host.Outcome State Fault Refusal := engIssue 0x60 st s
def execEngXpose (st : St) (s : State) : Host.Outcome State Fault Refusal := engIssue 0x61 st s
def execEngMadder (st : St) (s : State) : Host.Outcome State Fault Refusal := engIssue 0x62 st s

/-- The descriptor leaves the station in its slot run, or the station faults and sends none of it (R271). -/
def engFire (op len : Nat) (st : St) (s : State) : Host.Outcome State Fault Refusal :=
  match s.headOp st .eng op, s.jobAt st with
  | some e, some p =>
    if !e.started then noEvent s
    else
      let x := s.stn st
      let a := (kr e.k (fld e.word 12 8)).toNat
      match descDest x e with
      | none => next (s.faultFire st noLoc2 e.pc)
      | some d =>
        if a % len ≠ 0 || progBase (s.prt p).prog < a + len then next (s.faultFire st noLoc2 e.pc)
        else if !s.descCredit p d then noEvent s
        else
          let l := x.lsRead a len
          let f : DescFlight := ⟨d, st, p, e.pc, BitVec.ofNat 1024 (leP l), anyPoison l⟩
          next { s.modSt st fun x => x.pop .eng with descs := s.descs ++ [f] }
  | _, _ => noEvent s

def execEngRouteFire (st : St) (s : State) : Host.Outcome State Fault Refusal := engFire 0x60 64 st s
def execEngXposeFire (st : St) (s : State) : Host.Outcome State Fault Refusal := engFire 0x61 64 st s
def execEngMadderFire (st : St) (s : State) : Host.Outcome State Fault Refusal := engFire 0x62 128 st s

/-! ### NET.SEND -/

def netKind (w : W128) : Nat := fld w 24 23
def netRoute (w : W128) : Nat := fld w 50 41
def netMen (w : W128) : Bool := fbit w 51
def netVat (w : W128) : VatNo := fin (fld w 12 8)

/-- The checks of a NET.SEND on its route, kind and mordant (R272, R343, R345, R363). -/
def netFault (s : State) (p : Part) (e : Entry) : Bool :=
  let w := e.word
  let kd := (kr e.k (fld w 22 18)).toNat % 65536
  match netKind w with
  | 0 => s.routeFault p (netRoute w)
  | 1 => netMen w || (fld w 28 25 ≠ 1 && fld w 28 25 ≠ 2) || !routeSource (s.routeEntry p (netRoute w)) || netRoute w = openRoute
  | 2 => netMen w || netRoute w ≠ 0 || 2047 < kd || !(bit (s.treeEntry p kd) 127 && bit (s.treeEntry p kd) 126)
  | _ => true

/-- NET.SEND at issue (R193, R197, R272, R343, R345, R363). -/
def execNetSend (st : St) (s : State) : Host.Outcome State Fault Refusal :=
  issue 0x70 (fun s p st e =>
    let v := netVat e.word
    match (s.stn st).book v with
    | none => .fault v.val
    | some b =>
      if !b.outbound || netFault s p e then .fault v.val
      else match b.consume .send with
        | none => .fault v.val
        | some b' =>
          if b.len ≤ b.conss then .fault v.val
          else enqueue (s.modSt st fun x => x.setBook v (some b')) st e) s st

/-- A NET.SEND takes its head slot and sends it in blocks, or, on a route of role 11b to memory, writes it in the device, where its address and mordant are checked as at any
destination (R272, R338, R341, R346, R361; assumption log 141). -/
def execNetSendFire (st : St) (s : State) : Host.Outcome State Fault Refusal :=
  match s.headOp st .net 0x70, s.jobAt st with
  | some e, some p =>
    let w := e.word
    let v := netVat w
    let x := s.stn st
    match x.vat v with
    | none => noEvent s
    | some y =>
      if !e.started || !headFull y || x.vatFenced v.val e.seq || 32 ≤ s.inFlight st then noEvent s
      else
        let n := (y.slot y.head).count
        let a := (kr e.k (fld w 17 13)).toNat
        let kd : W16 := (kr e.k (fld w 22 18)).setWidth 16
        let here := netKind w = 0 && s.ownRoute p (netRoute w)
        let off := s.morOffset p ((kr e.k (fld w 56 52)).toNat % 65536)
        if (netKind w ≠ 1 && (n % 16 ≠ 0 || a % 16 ≠ 0)) || (netKind w ≠ 2 && s.ownKindFault p (netRoute w) (netKind w = 1)) ||
          (here && (!s.inWin p a n || (netMen w && (s.morAt p off.toNat).isNone))) then next (s.faultFire st v.val e.pc)
        else
          let data := x.slotRead y y.head 0 n
          let s' := s.modSt st fun x => (x.pop .net).setVat v (some (y.take false false))
          if here then
            let wr : MemWrite := {
              who := st, part := p, pc := e.pc, vat := v.val, addr := a, data := data, acc := false
              mordant := if netMen w then s.morAt p off.toNat else none, written := false
              parts := partsOf a n }
            next { s'.modSt st fun x => x.slotDone v y.head with writes := s.writes ++ [wr] }
          else
            let t : Xfer := {
              kind := if netKind w = 1 then .reduce else if netKind w = 2 then .multicast else .write
              st := st, part := p, pc := e.pc, vat := v.val, slot := y.head, route := if netKind w = 2 then kd.toNat else netRoute w, dest := kd, addr := a
              data := data, bytes := n, blk := 0, rpart := fld w 40 29, fmt := fld w 28 25, hdr := false, ftag := 0, dpart := p.val, start := s.startFrame p e
              flg := if netKind w = 1 then (y.slot y.head).flg else 0, base := 0, ridx := 0, value := 0, last := if netMen w then some off else none }
            next { s' with xfers := s.xfers ++ [t] }
  | _, _ => noEvent s

/-! ### MOR.* -/

def morNo (w : W128) : Nat := fld w 23 8
def morRem (w : W128) : Bool := fbit w 29
def morKv (w : W128) : Nat := fld w 28 24

/-- MOR.WAIT at issue (R273). -/
def execMorWait (st : St) (s : State) : Host.Outcome State Fault Refusal :=
  issue 0x80 (fun s p st e => if !s.inMorRange p (morNo e.word) then .fault noLoc2 else enqueue s st e) s st

/-- Fault 08h of a wait or gate on a failed mordant, located at the holding station (R362). -/
def State.failedWait (s : State) (p : Part) (m pc : Nat) : State :=
  s.raise (some p) 8 0x0801 (siteStation ((s.morHolder p m).getD 0) noLoc2 pc)

/-- MOR.WAIT fires when the counter has reached its threshold (R273, R362). -/
def execMorWaitFire (st : St) (s : State) : Host.Outcome State Fault Refusal :=
  match s.headOp st .mor 0x80, s.jobAt st with
  | some e, some p =>
    let m := s.mor (morNo e.word)
    if m.failed then next (s.failedWait p (morNo e.word) e.pc)
    else if (kr e.k (morKv e.word)).toNat ≤ m.count.toNat then next (s.modSt st fun x => x.pop .mor)
    else noEvent s
  | _, _ => noEvent s

/-- MOR.ADD and MOR.SET at issue (R273, R345). -/
def morIssue (op : Nat) (st : St) (s : State) : Host.Outcome State Fault Refusal :=
  issue op (fun s p st e =>
    let w := e.word
    let away := morRem w || s.morHolder p (morNo w) ≠ some st
    if !morRem w && !s.inMorRange p (morNo w) then .fault noLoc2
    else if fbit w 45 ≠ away then .fault noLoc2
    else if morRem w && s.routeFault p (fld w 44 35) then .fault noLoc2
    else enqueue s st e) s st

def execMorAdd (st : St) (s : State) : Host.Outcome State Fault Refusal := morIssue 0x81 st s
def execMorSet (st : St) (s : State) : Host.Outcome State Fault Refusal := morIssue 0x82 st s

/-- MOR.ADD and MOR.SET fire: the operation leaves for the holding station, or in a block for another device; a route of role 11b brings the offset back to the device's own range (R273,
R346, R361). -/
def morFire (op : Nat) (st : St) (s : State) : Host.Outcome State Fault Refusal :=
  match s.headOp st .mor op, s.jobAt st with
  | some e, some p =>
    let w := e.word
    if isCalendar w && !e.started then noEvent s
    else
      let v := kr e.k (morKv w)
      let s' := s.modSt st fun x => x.pop .mor
      let here (m : W16) : MorOp := ⟨some st, p, m, decide (op = 0x82), v, false⟩
      let route := fld w 44 35
      if !morRem w then next { s' with morOps := s.morOps ++ [here (BitVec.ofNat 16 (morNo w))] }
      else if s.ownRoute p route then
        match s.morAt p (s.morOffset p (morNo w)).toNat with
        | some m => if s.ownKindFault p route false then next (s.faultFire st noLoc2 e.pc) else next { s' with morOps := s.morOps ++ [here m] }
        | none => next (s.faultFire st noLoc2 e.pc)
      else
        let t : Xfer := {
          kind := if op = 0x82 then .morSet else .morAdd
          st := st, part := p, pc := e.pc, vat := 32, slot := 0, route := route
          dest := (kr e.k (fld w 34 30)).setWidth 16, addr := (s.morOffset p (morNo w)).toNat, data := [], bytes := 8
          blk := 0, rpart := 0, fmt := 0, hdr := false, ftag := 0, dpart := p.val, start := s.startFrame p e, flg := 0, base := 0, ridx := 0, value := v, last := none }
        next { s' with xfers := s.xfers ++ [t] }
  | _, _ => noEvent s

def execMorAddFire (st : St) (s : State) : Host.Outcome State Fault Refusal := morFire 0x81 st s
def execMorSetFire (st : St) (s : State) : Host.Outcome State Fault Refusal := morFire 0x82 st s

/-- MOR.READ at issue: its register is pending (R218, R273). -/
def execMorRead (st : St) (s : State) : Host.Outcome State Fault Refusal :=
  issue 0x83 (fun s p st e => if !s.inMorRange p (morNo e.word) then .fault noLoc2 else enqueue s st e) s st

/-- MOR.READ fires: the counter is read (R273). -/
def execMorReadFire (st : St) (s : State) : Host.Outcome State Fault Refusal :=
  match s.headOp st .mor 0x83 with
  | none => noEvent s
  | some e =>
    next (s.modSt st fun x =>
      let y := x.pop .mor
      { y with morReads := y.morReads ++ [⟨morKv e.word, (s.mor (morNo e.word)).count, e.seq⟩] })

/-- The register of a MOR.READ is written (R218). -/
def execMorReadRegisterWritten (st : St) (s : State) : Host.Outcome State Fault Refusal :=
  match (s.stn st).morReads with
  | r :: rest => next (s.modSt st fun x => { x with morReads := rest, sq := x.sq.writeAt r.reg r.seq r.value })
  | [] => noEvent s

/-- A mordant operation is applied at its holding station (R344, R359, R360). Poison in its operand is consumed there. -/
def State.applyMor (s : State) (m : MorOp) : State :=
  if m.poison then
    s.raise (some m.part) 4 0x0400 (siteStation ((s.morHolder m.part m.mor.toNat).getD 0) noLoc2 noPc)
  else if m.set then s.setMor m.mor.toNat { s.mor m.mor.toNat with count := m.value }
  else s.morAdd m.part m.mor.toNat m.value.toNat

/-- Operation `k` of those on their way reaches its holding station. Operations of one station on one mordant keep their order (R273,
R360); so do those of one stream of blocks. An ended job's mordants no longer matter, and the operation goes with the job (R358). -/
def execMordantOperationArrival (k : Nat) (s : State) : Host.Outcome State Fault Refusal :=
  match s.morOps[k]? with
  | none => noEvent s
  | some m =>
    if ((s.morOps.take k).any fun o => o.mor = m.mor && o.st = m.st) || (s.stuckMor m).isSome then noEvent s
    else
      let s := { s with morOps := ldel s.morOps k }
      if s.loaded m.part then next (s.applyMor m) else next s

/-- The head of a unit queue waits on a mordant: the MOR.WAIT or the gate, its mordant and threshold. -/
def waitsOn (x : Station) (u : UnitQ) : Option (Entry × Nat × W64) :=
  match x.queue u with
  | e :: _ =>
    if opc e.word = 0x80 then some (e, morNo e.word, kr e.k (morKv e.word))
    else if isCalendar e.word && calGate e.word && !e.started then some (e, calGMor e.word, kr e.k (calGK e.word))
    else none
  | [] => none

/-- A wait or gate has lasted longer than its mordant's timeout in unheld time: fault 05h (R233, R362). Unheld time is counted in whole frames since the first frame mark that found it
waiting (assumption log 122). -/
def execMordantTimeout (st : St) (u : UnitQ) (s : State) : Host.Outcome State Fault Refusal :=
  match waitsOn (s.stn st) u, s.jobAt st with
  | some (e, m, t), some p =>
    if (s.mor m).failed then next (s.failedWait p m e.pc)
    else if t.toNat ≤ (s.mor m).count.toNat || (s.prt p).held || (e.waited - 1) * 512 < (s.prt p).morTimeout * 1000 then noEvent s
    else next (s.faultAt st 5 0x0500 noLoc2 e.pc)
  | _, _ => noEvent s

end Sys2Proof.Machine
end

