-- ==== Sys2Proof/Machine/Towers.lean ====
section
/-!
DEFINITION. Memory towers (R161 to R174), the activation stashes (R211 to R213), epochs and copy-on-write (R186 to R190).
-/
namespace Sys2Proof.Machine

/-! ### Where current state lies (R187) -/

/-- Pool slots of a partition in each tower (OD 6140h). -/
def State.poolSlots (s : State) (p : Part) : Nat := s.reg 0x6140 (p.val + 1)

/-- Device address of a pool slot: the pool lies at the top of the partition's window (R189). A slot count larger than the window is not refused, and its first slots lie below the window:
DESIGN CHOICE, R189 gives no bound (assumption log 142). -/
def State.slotAddr (s : State) (t : Twr) (p : Part) (i : Nat) : Nat :=
  match s.towerWindow p t with
  | some (_, hi) => t.val * 2 ^ 33 + hi - s.poolSlots p * 65536 + i * 65536
  | none => 0

/-- The secured block of an open epoch that holds an address: tower, partition, place in the directory. -/
def State.blockAt (s : State) (a : Nat) : Option (Twr × Part × Nat × SecBlock) :=
  match place a with
  | .tower t _ => (List.finRange 4).findSome? fun p => match vget (s.twr t).epochs p with
    | some e => match e.blocks.findIdx? fun b => b.addr ≤ a && a < b.addr + 65536 with
      | some i => (e.blocks[i]?).map fun b => (t, p, i, b)
      | none => none
    | none => none
  | _ => none

/-- Address that holds the current value of a byte: its pool slot for a marked granule, else home (Table 06-6). -/
def State.curAddr (s : State) (a : Nat) : Nat :=
  match s.blockAt a with
  | some (t, p, _, b) => match b.slot with
    | some i => if b.marks.contains ((a - b.addr) / 4096) then s.slotAddr t p i + (a - b.addr) else a
    | none => a
  | none => a

/-- Bytes of the current state. -/
def State.curRead (s : State) (a n : Nat) : List PByte := (List.range n).map fun i => s.pbyte (s.curAddr (a + i))

/-- `n` free bytes, marked poisoned. -/
def freeBytes (draw n : Nat) : List PByte := (List.range n).map fun i => ⟨Config.freeByte draw i, true⟩

/-- A write meets a secured block that is not Out (R188). -/
def State.secured (s : State) (a n : Nat) : Bool :=
  match place a with
  | .tower t _ => (List.finRange 4).any fun p => match vget (s.twr t).epochs p with
    | some e => e.blocks.any fun b => b.st ≠ .out && overlap b.addr 65536 a n
    | none => false
  | _ => false

/-- OD 6141h of a partition: open while a block is Pending or Shadowed in some tower, closing while blocks return, else as stored. -/
def State.epochState (s : State) (p : Part) : Nat :=
  let bs := (List.finRange 8).flatMap fun t => match vget (s.twr t).epochs p with
    | some e => e.blocks
    | none => []
  if s.reg 0x6141 (p.val + 1) = 3 then 3
  else if bs.any fun b => b.st = .pending || b.st = .shadowed then 1
  else if ((List.finRange 8).any fun t => (vget (s.twr t).epochs p).isSome) then 2 else 0

/-- OD 6141h of a partition is notified when it differs from what it was in `old` (R481). -/
def State.noteEpoch (old : State) (p : Part) (s : State) : State :=
  if s.epochState p = old.epochState p then s else s.notify 0x6141 (p.val + 1) [BitVec.ofNat 8 (s.epochState p)]

/-- Location of a record at a tower: unit 00h Madder, 01h transpose, 02h channel; station FFh for none (Table 13-6). -/
def towerSite (t : Twr) (unit st pc : Nat) : Site := ⟨3, t.val, unit * 256 + st, pc⟩

/-! ### ECC and bank sparing (R166, R171 to R173) -/

/-- Bank within the channel (R162). -/
def bankOf (g : Nat) : Nat := g / 16 % 32

/-- Channel and bank of a sector, as one number. -/
def bankKey (sec : Nat) : Nat := channelOf (sec / 64 % 2 ^ 21) * 32 + bankOf (sec / 64 % 2 ^ 21)

/-- Events of a bank within the last 24 h. -/
def recent (now : W64) (l : List (Nat × W64)) : List (Nat × W64) := l.filter fun e => now.toNat < e.2.toNat + dayNs

/-- A bank leaves service: a live copy to a spare starts, or with no spare left the tower is marked for retirement (R171, R173). -/
def State.startCopy (s : State) (t : Twr) (key : Nat) : State :=
  let c : Fin 16 := fin (key / 32)
  if vget (s.twr t).sparesUsed c < 2 then
    s.modTwr t fun x => { x with copies := vset x.copies c (some ⟨key % 32, vget x.sparesUsed c, 0⟩) }
  else if s.reg 0x8030 (t.val + 1) = 0 then s.saveReg 0x8030 (t.val + 1) 1
  else s

/-- The steward retires a bank (R171); one whose channel is busy with the copy of another waits for it. -/
def State.retireBank (s : State) (t : Twr) (key : Nat) : State :=
  let x := s.twr t
  match vget x.copies (fin (key / 32)) with
  | none => s.startCopy t key
  | some cp => if cp.bank = key % 32 || x.retire.contains key then s else s.modTwr t fun x => { x with retire := x.retire ++ [key] }

/-- A corrected sector is counted; too many in a bank retire it (R166, R171). -/
def State.corrected (s : State) (t : Twr) (sec : Nat) : State :=
  let s := s.count 0x9030 (t.val + 1)
  let s := s.modTwr t fun x => { x with bankCor := recent s.time x.bankCor ++ [(bankKey sec, s.time)] }
  if s.reg 0x8032 0 < ((s.twr t).bankCor.filter fun e => e.1 = bankKey sec).length then s.retireBank t (bankKey sec) else s

/-- An uncorrectable sector takes tower-origin poison at once (R167). -/
def State.uncorrectable (s : State) (t : Twr) (sec : Nat) : State :=
  let s := (s.count 0x9031 (t.val + 1)).setSector sec towerPoison
  let s := s.modTwr t fun x => { x with bankUnc := recent s.time x.bankUnc ++ [(bankKey sec, s.time)] }
  if 1 < ((s.twr t).bankUnc.filter fun e => e.1 = bankKey sec).length then s.retireBank t (bankKey sec) else s

/-- What the check finds in sectors of a tower (R166, R167). A poisoned sector is neither corrected nor found again. -/
def State.sectorCheck (s : State) (t : Twr) (corrected dead : List Nat) : State :=
  let fresh (s : State) (sec : Nat) : Bool := sget 0 s.poison sec = 0
  let s := corrected.eraseDups.foldl (fun s sec => if fresh s sec then s.corrected t sec else s) s
  dead.eraseDups.foldl (fun s sec => if fresh s sec then s.uncorrectable t sec else s) s

/-- Unit `k` of `u` bytes lies in an extent. -/
def touches (u a n k : Nat) : Bool := (unitsOf u a n).contains k

/-- As `sectorCheck`, for the findings of a command that lie in a physical extent. -/
def State.sectorsRead (s : State) (t : Twr) (e : MemEcc) (a n : Nat) : State :=
  s.sectorCheck t (e.corrected.filter (touches 64 a n)) (e.dead.filter (touches 64 a n))

/-- What the SECDED check finds in stash words (R213): corrected words are counted, dead ones poisoned in place and counted. -/
def State.wordsRead (s : State) (east : Bool) (e : MemEcc) (a n : Nat) : State :=
  let sub := if east then 2 else 1
  let s := s.count 0x9041 sub (e.corrected.eraseDups.filter (touches 8 a n)).length
  (e.dead.eraseDups.filter (touches 8 a n)).foldl (fun s k =>
    if s.stashPoison.contains k then s else State.count { s with stashPoison := setAdd s.stashPoison k } 0x9042 sub) s

/-- What the checks of a read of any unit find (R166, R167, R213). Each granule is checked where its current bytes lie (R187). -/
def State.findings (s : State) (e : MemEcc) (a n : Nat) : State :=
  if e.corrected = [] ∧ e.dead = [] then s
  else (partsOf a n).foldl (fun s x => match place x.1 with
    | .tower t _ => s.sectorsRead t e (s.curAddr x.1) x.2
    | .stash east _ => s.wordsRead east e x.1 x.2
    | .nowhere => s) s

/-- A write of part of a sector reads the rest of it first (R167). -/
def partialSector (a n k : Nat) : Bool := touches 64 a n k && !(a ≤ 64 * k && 64 * k + 64 ≤ a + n)

/-- What the merge reads of a write find; a stash write replaces whole words (R213). -/
def State.mergeFindings (s : State) (e : MemEcc) (a n : Nat) : State :=
  match place a with
  | .tower t _ => s.sectorCheck t (e.corrected.filter (partialSector a n)) (e.dead.filter (partialSector a n))
  | _ => s

/-- What the check of a whole extent of a tower finds where it lies. -/
def State.extentFindings (s : State) (e : MemEcc) (a n : Nat) : State :=
  match place a with
  | .tower t _ => s.sectorsRead t e a n
  | _ => s

/-! ### Accesses by any unit (R26, R166, R174, R188) -/

/-- Bytes as they come off the mesh: a double-bit error in a payload word of a flit poisons the word (R34, R394). -/
def carried (e : MemEcc) (a : Nat) (l : List PByte) : List PByte :=
  if e.transit = [] then l else l.zipIdx.map fun (b, i) => if e.transit.contains ((a + i) / 8) then { b with p := true } else b

/-- A read of part of one granule by any unit: the checks first; the nodes of a retired or lost tower complete it with poison (R26, R174). -/
def State.partRead (s : State) (e : MemEcc) (a n : Nat) : List PByte × State :=
  match place a with
  | .tower t _ =>
    if s.towerServes t a then
      let s := s.findings e a n
      (carried e a (s.curRead a n), s)
    else (freeBytes s.draws n, { s with draws := s.draws + 1 })
  | _ =>
    let s := s.findings e a n
    (carried e a (s.curRead a n), s)

/-- A read by any unit, granule by granule: an extent may run on from one tower into the next. -/
def State.devRead (s : State) (e : MemEcc) (a n : Nat) : List PByte × State :=
  (partsOf a n).foldl (fun r x => let y := r.2.partRead e x.1 x.2; (r.1 ++ y.1, y.2)) ([], s)

/-- A write of part of one granule; a retired or lost tower discards it (R26). -/
def State.partWrite (s : State) (e : MemEcc) (a : Nat) (l : List PByte) : State :=
  match place a with
  | .tower t _ => if s.towerServes t a then (s.mergeFindings e a l.length).towerWrite a (carried e a l) else s
  | _ => s.memWrite a (carried e a l)

/-- The extent meets a block in which R188 forbids plain writes. -/
def State.forbids (s : State) (a n : Nat) : Bool :=
  (partsOf a n).any fun x => match place x.1 with
    | .tower t _ => s.towerServes t x.1 && s.secured x.1 x.2
    | _ => false

/-- A plain write by a unit other than a Madder engine: `none` when R188 forbids it. -/
def State.devWrite (s : State) (e : MemEcc) (a : Nat) (l : List PByte) : Option State :=
  if s.forbids a l.length then none
  else some ((partsOf a l.length).foldl (fun s x => s.partWrite e x.1 ((l.drop (x.1 - a)).take x.2)) s)

/-! ### Service at the nodes (R163 to R165, R212) -/

/-- What serves an address: a channel of a tower, or a node of a stash. -/
def servedBy (a : Nat) : Option (Nat × Nat) :=
  match place a with
  | .tower t off => some (t.val, channelOf (off / 4096))
  | .stash e off => some (if e then 9 else 8, off / 4096 % 4)
  | .nowhere => none

/-- The first 16 ns of a frame carry maintenance only (R164). -/
def State.maintenance (s : State) : Bool := s.time.toNat % 512 < 16

/-- A request from the mesh may be served now: a channel of a tower carries maintenance alone in the first 16 ns of a frame (R164). -/
def State.mayServe (s : State) (a n : Nat) : Bool :=
  !s.maintenance || (partsOf a n).all fun x => match place x.1 with
    | .tower .. => false
    | _ => true

/-- An access of a unit at a node waits: a crossing on its way holds it back, or a channel carries maintenance (R164, R289). An access that no command of the table splits reaches all its
places at one command, which is one of the orders that R163 leaves open (assumption log 119). -/
def State.accessWaits (s : State) (isl : Option Nat) (node a n : Nat) (reads : Bool) : Bool :=
  (s.stuckAccess isl node a n reads).isSome || !s.mayServe a n

/-- Parts of an access of one unit reach what serves them in their order (R163). -/
def behind (l : List Nat) (a : Nat) : Bool := l.any fun x => servedBy x = servedBy a

/-- Parts of fetch `f` before the `i`-th that are not served. -/
def Fetch.ahead (f : Fetch) (i : Nat) : List Nat := ((f.parts.take i).filter fun x => x.data.isNone).map (·.addr)

/-- A request from the mesh waits where an address is served (R165): a request counts from its launch on, unless a crossing holds it back (assumption log 119). -/
def State.meshWaits (s : State) (a : Nat) : Bool :=
  (s.fetches.any fun f => !f.remote && f.parts.any fun x => x.data.isNone && servedBy x.addr = servedBy a && (s.stuckPart f.st x.addr true).isNone) ||
  s.writes.any fun w => w.parts.any fun x => servedBy x.1 = servedBy a && (s.stuckPart w.who x.1 false).isNone

/-- Traffic of a lower class may use the channel of an address now (R164, R165). -/
def State.channelFree (s : State) (a n : Nat) : Bool := !s.maintenance && (partsOf a n).all fun x => !s.meshWaits x.1

/-- Part `i` of fetch `f` holds `l`. -/
def Fetch.fill (f : Fetch) (i : Nat) (x : ReqPart) (l : List PByte) : Fetch :=
  let ps := lset f.parts i { x with data := some l }
  { f with parts := ps, data := gathered ps }

/-- Earlier fetches of a station wait for what serves an address: its requests take one way there and arrive in their order (R165). -/
def State.fetchBehind (s : State) (k : Nat) (f : Fetch) (a : Nat) : Bool :=
  (s.fetches.take k).any fun g => g.st = f.st && !g.remote && g.data.isNone && behind ((g.parts.filter fun x => x.data.isNone).map (·.addr)) a

/-- The place that serves part `i` of fetch `k` reads it. -/
def State.serveFetch (s : State) (k i : Nat) (f : Fetch) (x : ReqPart) (e : MemEcc) : Host.Outcome State Fault Refusal :=
  if f.remote || x.data.isSome || behind (f.ahead i) x.addr || s.fetchBehind k f x.addr || (s.stuckPart f.st x.addr true).isSome then noEvent s
  else
    let s := s.findings e x.addr x.len
    next { s with fetches := lset s.fetches k (f.fill i x (carried e x.addr (s.curRead x.addr x.len))) }

/-- A tower channel serves part `i` of fetch `k` (R163 to R166, R187, R201). -/
def execTowerRead (k i : Nat) (e : MemEcc) (s : State) : Host.Outcome State Fault Refusal :=
  match s.fetches[k]?, (s.fetches[k]?).bind fun f => f.parts[i]? with
  | some f, some x =>
    match place x.addr with
    | .tower t _ => if s.maintenance || !s.towerServes t x.addr then noEvent s else s.serveFetch k i f x e
    | _ => noEvent s
  | _, _ => noEvent s

/-- Part `x` of a write has been done; the write is complete with its last part. -/
def MemWrite.served (w : MemWrite) (i : Nat) : MemWrite := { w with parts := ldel w.parts i, written := (ldel w.parts i).isEmpty }

/-- Bytes of a write that fall into one of its parts. -/
def MemWrite.bytes (w : MemWrite) (x : Nat × Nat) : List PByte := (w.data.drop (x.1 - w.addr)).take x.2

/-- Part `i` of write `k` cannot be served now; writes of one station to one place arrive in their order (R165). -/
def State.writeHeld (s : State) (k : Nat) (w : MemWrite) (i : Nat) (x : Nat × Nat) : Bool :=
  w.written || behind ((w.parts.take i).map (·.1)) x.1 || (s.stuckPart w.who x.1 false).isSome ||
  (s.writes.take k).any fun v => v.who = w.who && behind (v.parts.map (·.1)) x.1

/-- Where the writer of a secured block is named: the station and its vat (Table 08-12). -/
def MemWrite.site (w : MemWrite) : Site := siteStation w.who (if w.vat < 32 then w.vat else noLoc2) w.pc

/-- A tower channel serves part `i` of write `k`, unless R188 refuses it: `f` writes the bytes. -/
def State.serveWrite (acc : Bool) (k i : Nat) (f : State → MemWrite → Nat × Nat → State) (s : State) : Host.Outcome State Fault Refusal :=
  match s.writes[k]?, (s.writes[k]?).bind fun w => w.parts[i]? with
  | some w, some x =>
    match place x.1 with
    | .tower t _ =>
      if w.acc ≠ acc || s.maintenance || !s.towerServes t x.1 || s.writeHeld k w i x then noEvent s
      else if s.secured x.1 x.2 then
        next (State.raise { s with writes := ldel s.writes k } (some w.part) 1 0x0102 w.site)
      else
        let s := f s w x
        next { s with writes := lset s.writes k (w.served i) }
    | _ => noEvent s
  | _, _ => noEvent s

/-- A tower channel serves part `i` of the plain write `k` (R163 to R167, R188). -/
def execTowerWrite (k i : Nat) (e : MemEcc) (s : State) : Host.Outcome State Fault Refusal :=
  s.serveWrite false k i fun s w x => (s.mergeFindings e x.1 x.2).towerWrite x.1 (carried e x.1 (w.bytes x))

/-- One FP32 word of an accumulating write (R170): the sum, and its flags. -/
def State.accWord (s : State) (a : Nat) (l : List PByte) : State × Fl :=
  let old := f32 (leP (s.memRead a 4))
  let r := addV .fp32 old (f32 (leP l))
  let sec := a / 64
  let stored := sget 0 s.poison sec
  let s := if anyPoison l && stored = 0 then s.setSector sec carriedPoison else s
  if stored ≠ 0 || anyPoison l then (s, Fl.none)
  else (s.putBytes a (leBytes 4 (w32 r.1).toNat), ⟨r.2, !r.1.finite⟩)

/-- A tower channel serves part `i` of the accumulating write `k` (R163 to R167, R170, R188). -/
def execAccumulatingWrite (k i : Nat) (e : MemEcc) (s : State) : Host.Outcome State Fault Refusal :=
  s.serveWrite true k i fun s w x =>
    let s := s.extentFindings e x.1 x.2
    let o := (chunks 4 (x.2 / 4) (carried e x.1 (w.bytes x))).zipIdx.foldl (fun (o : State × Fl) (c, i) =>
      let r := o.1.accWord (x.1 + 4 * i) c
      (r.1, o.2.or r.2)) (s, Fl.none)
    o.1.orStatus w.who o.2.ovf o.2.nv

/-! ### Maintenance (R164, R169, R172) -/

/-- Granule of a tower at place `line` of channel `c` (R162). -/
def granuleOf (c line : Nat) : Nat :=
  let hi := line * 16
  hi + (channelOf hi ^^^ c)

/-- First sector of KiB `kib` of a channel. -/
def scrubSector (t : Twr) (c kib : Nat) : Nat := (t.val * 2 ^ 33 + granuleOf c (kib / 4 % 2 ^ 17) * 4096 + kib % 4 * 1024) / 64

/-- First sector of 512 B piece `i` of a bank: line bits [4:0] name the bank. -/
def pieceSector (t : Twr) (c bank i : Nat) : Nat :=
  (t.val * 2 ^ 33 + granuleOf c (i / 8 * 32 + bank) * 4096 + i % 8 * 512) / 64

/-- Period of patrol scrub in ns (OD 7030h, in hours). -/
def State.scrubPeriod (s : State) : Nat := s.reg 0x7030 0 * 3600000000000

/-- A pass of patrol scrub over a channel may begin: the period of the last one is over (R169). -/
def State.scrubDue (s : State) (t : Twr) (c : Fin 16) : Bool :=
  match vget (s.twr t).scrubFrom c with
  | some b => decide (b.toNat + s.scrubPeriod ≤ s.time.toNat)
  | none => true

/-- The next 1,024 B of patrol scrub of a channel; a pass begins at its first KiB (R169). -/
def State.scrubNext (s : State) (t : Twr) (c : Fin 16) (e : MemEcc) : State :=
  let kib := vget (s.twr t).scrub c
  if kib = 0 && !s.scrubDue t c then s
  else
    let s := s.sectorsRead t e (scrubSector t c.val kib * 64) 1024
    s.modTwr t fun x => { x with
      scrub := vset x.scrub c ((kib + 1) % 524288), scrubFrom := if kib = 0 then vset x.scrubFrom c (some s.time) else x.scrubFrom }

/-- The next 512 B of a live bank copy (R172). -/
def State.copyNext (s : State) (t : Twr) (c : Fin 16) (cp : BankCopy) (e : MemEcc) : State :=
  let s := s.sectorsRead t e (pieceSector t c.val cp.bank cp.pieces * 64) 512
  s.modTwr t fun x => { x with copies := vset x.copies c (some { cp with pieces := cp.pieces + 1 }) }

/-- The maintenance window of a channel, in the first 16 ns of a frame and once in it: 512 B of a bank copy, or 1,024 B of patrol scrub (R164, R169, R172). -/
def execMaintenanceWindow (t : Twr) (c : Fin 16) (e : MemEcc) (s : State) : Host.Outcome State Fault Refusal :=
  let fr := s.time.toNat / 512
  if !s.maintenance || !s.towerUp t || !s.halfUp (towerHalf t) || vget (s.twr t).maint c = some fr then noEvent s
  else
    let s := s.modTwr t fun x => { x with maint := vset x.maint c (some fr) }
    match vget (s.twr t).copies c with
    | some cp => next (if 32768 ≤ cp.pieces then s else s.copyNext t c cp e)
    | none => next (s.scrubNext t c e)

/-- The last 512 B have moved: the spare bank takes over, the map is saved (Table 06-1), and a bank of the channel that waits is copied next. -/
def execBankCopyComplete (t : Twr) (c : Fin 16) (s : State) : Host.Outcome State Fault Refusal :=
  match vget (s.twr t).copies c with
  | none => noEvent s
  | some cp =>
    if cp.pieces < 32768 then noEvent s
    else
      let key := c.val * 32 + cp.bank
      let s := s.modTwr t fun x => { x with
        copies := vset x.copies c none
        sparesUsed := vset x.sparesUsed c (cp.spare + 1)
        bankCor := x.bankCor.filter fun e => e.1 ≠ key
        bankUnc := x.bankUnc.filter fun e => e.1 ≠ key
        bankMap := sput 0 x.bankMap key (cp.spare + 1) }
      let s := s.saveReg 0x8031 (t.val + 1) (s.reg 0x8031 (t.val + 1) - 1)
      match (s.twr t).retire.find? fun k => k / 32 = c.val with
      | some k => next ((s.modTwr t fun x => { x with retire := x.retire.erase k }).startCopy t k)
      | none => next s

/-- A part of a fetch lies in a tower that does not serve it. -/
def State.deadPart (s : State) (a : Nat) : Bool :=
  match place a with
  | .tower t _ => !s.towerServes t a
  | _ => false

/-- The nodes of a tower that does not answer complete the parts of a fetch with tower-origin poison (R26, R174). -/
def State.poisonParts (s : State) (f : Fetch) : Fetch :=
  let ps := f.parts.map fun x =>
    if x.data.isNone && s.deadPart x.addr && (s.stuckPart f.st x.addr true).isNone then { x with data := some (freeBytes (s.draws + (x.addr - f.addr)) x.len) } else x
  { f with parts := ps, data := gathered ps }

/-- A descriptor at the head of those on their way to a tower that does not answer is discarded (R26). -/
def State.dropDesc (s : State) (dst : DescTo) (t : Twr) (unit : Nat) : Host.Outcome State Fault Refusal :=
  match s.descs.find? fun d => d.dst = dst with
  | some d =>
    if (s.towerUp t && !vget (s.twr t).gone d.part) || (s.stuckDesc d).isSome then noEvent s
    else next (State.raise { s with descs := s.descs.erase d } (some d.part) 1 0x0102 (towerSite t unit d.st.val d.pc))
  | none => noEvent s

/-- An access reaches a retired or lost tower (R26): a read completes with poison, a write is discarded, a descriptor is discarded with fault 01h. -/
def execRetiredTowerAccess (a : TowerAccess) (s : State) : Host.Outcome State Fault Refusal :=
  match a with
  | .read k =>
    match s.fetches[k]? with
    | some f =>
      if f.remote || !(f.parts.any fun x => x.data.isNone && s.deadPart x.addr && (s.stuckPart f.st x.addr true).isNone) then noEvent s
      else next { s with fetches := lset s.fetches k (s.poisonParts f), draws := s.draws + f.bytes + 4096 }
    | none => noEvent s
  | .write k =>
    match s.writes[k]? with
    | some w =>
      let left := w.parts.filter fun x => !s.deadPart x.1 || (s.stuckPart w.who x.1 false).isSome
      if left.length = w.parts.length then noEvent s
      else if left = [] then next { s with writes := ldel s.writes k }
      else next { s with writes := lset s.writes k { w with parts := left, mordant := none } }
    | none => noEvent s
  | .transpose t => s.dropDesc (.transpose t) t 1
  | .madder t => s.dropDesc (.madder t) t 0

/-! ### Stashes (R212, R213) -/

/-- A stash node serves part `i` of fetch `k` (R212, R213). -/
def execStashRead (k i : Nat) (e : MemEcc) (s : State) : Host.Outcome State Fault Refusal :=
  match s.fetches[k]?, (s.fetches[k]?).bind fun f => f.parts[i]? with
  | some f, some x =>
    match place x.addr with
    | .stash _ _ => s.serveFetch k i f x e
    | _ => noEvent s
  | _, _ => noEvent s

/-- A stash node serves part `i` of write `k` (R212, R213). -/
def execStashWrite (k i : Nat) (s : State) : Host.Outcome State Fault Refusal :=
  match s.writes[k]?, (s.writes[k]?).bind fun w => w.parts[i]? with
  | some w, some x =>
    match place x.1 with
    | .stash _ _ =>
      if s.writeHeld k w i x then noEvent s
      else next { s.stashWrite x.1 (w.bytes x) with writes := lset s.writes k (w.served i) }
    | _ => noEvent s
  | _, _ => noEvent s

/-! ### Copy-on-write (R187, R190) -/

/-- The epoch of a partition in a tower, changed. -/
def State.modEpoch (s : State) (t : Twr) (p : Part) (f : TowerEpoch → TowerEpoch) : State :=
  s.modTwr t fun x => { x with epochs := vmod x.epochs p fun e => e.map f }

def State.modBlock (s : State) (t : Twr) (p : Part) (i : Nat) (f : SecBlock → SecBlock) : State :=
  s.modEpoch t p fun e => { e with blocks := e.blocks.modify i f }

/-- The lowest free pool slot of a partition in a tower. -/
def State.freeSlot (s : State) (t : Twr) (p : Part) : Option Nat :=
  let used := match vget (s.twr t).epochs p with
    | some e => e.blocks.filterMap fun b : SecBlock => b.slot
    | none => []
  (List.range (s.poolSlots p)).find? fun i => !used.contains i

/-- A Madder write: a whole sector loses its poison, a part of a poisoned one leaves it as it is (R167). -/
def State.madderStore (s : State) (e : MemEcc) (a : Nat) (l : List Byte) : State := (s.mergeFindings e a l.length).towerWrite a (clean l)

/-- Copies one granule with its poison. -/
def State.copyGranule (s : State) (src dst : Nat) : State :=
  let s := (List.range 64).foldl (fun s i => s.setSector (dst / 64 + i) (sget 0 s.poison (src / 64 + i))) s
  s.putBytes dst ((List.range 4096).map fun i => s.byte (src + i))

/-- A write by a Madder engine inside one granule (Table 06-6): `none` while it needs a slot and none is free (R190). -/
def State.madderWrite (s : State) (e : MemEcc) (a : Nat) (l : List Byte) : Option State :=
  match s.blockAt a with
  | none => some (s.madderStore e a l)
  | some (t, p, i, b) =>
    let g := (a - b.addr) / 4096
    let shadow (s : State) (j : Nat) : State :=
      let base := s.slotAddr t p j
      let s := if b.marks.contains g || l.length = 4096 then s else (s.sectorsRead t e (b.addr + g * 4096) 4096).copyGranule (b.addr + g * 4096) (base + g * 4096)
      (s.modBlock t p i fun b => { b with st := .shadowed, slot := some j, marks := setAdd b.marks g }).madderStore e (base + (a - b.addr)) l
    match b.st, b.slot with
    | .pending, _ => (s.freeSlot t p).map fun j => shadow s j
    | .shadowed, some j => some (shadow s j)
    | .returning, some j => some (if b.marks.contains g then s.madderStore e (s.slotAddr t p j + (a - b.addr)) l else s.madderStore e a l)
    | _, _ => some (s.madderStore e a l)

/-- A run of bytes cut at granule boundaries. -/
def granuleRuns : Nat → Nat → List Byte → List (Nat × List Byte)
  | 0, _, _ => []
  | fuel + 1, a, l =>
    if l = [] then [] else
      let n := 4096 - a % 4096
      (a, l.take n) :: granuleRuns fuel (a + n) (l.drop n)

/-- The epoch has closed when every block is Out (R187). -/
def State.closeEpoch (s : State) (t : Twr) (p : Part) : State :=
  match vget (s.twr t).epochs p with
  | some e => if e.blocks.all fun b => b.st = .out then s.modTwr t fun x => { x with epochs := vset x.epochs p none } else s
  | none => s

/-- Raises of Madder engines end: those of the pool in one tower when a slot frees (R190). -/
def State.dropHold (s : State) (t : Twr) (p : Part) (ok : DescRec → Bool) : State :=
  s.modTwr t fun x => { x with mq := vmod x.mq p fun l => l.map fun d => if ok d then { d with hold := false } else d }

end Sys2Proof.Machine
end

