-- ==== Sys2Proof/Machine/Engines.lean ====
section
/-!
DEFINITION. The token-routing engines (R150 to R154), the transpose engines (R175 to R178) and the Madder engines (R179 to R190). One command of a
running descriptor moves what the engine finishes under HOLD: 256 B of a row, 4 KiB, or one group of 1,024 elements (assumption log 16).
-/
namespace Sys2Proof.Machine

/-! ### Runs that may stop -/

/-- How an engine stops: it waits and nothing has moved, at the crossing that holds its access back if one does, or on a fault with the state as far as it has moved, class, detail and site
of the record. -/
inductive Halt where
  | wait (at_ : Option (Nat × Nat))
  | fault (s : State) (cls detail : Nat) (site : Site)

/-- Where an engine stands: the site of its records, its island if it has one, its node, and the tower whose memory it reaches without the mesh. -/
structure EngAt where
  site : Site
  isl : Option Nat
  node : Nat
  own : Option Twr

/-- An access of an engine waits (R164, R289). -/
def EngAt.waits (w : EngAt) (s : State) (a n : Nat) (reads : Bool) : Bool :=
  if w.own.any fun t => match place a with
      | .tower u _ => u = t
      | _ => false
  then !s.mayServe a n else s.accessWaits w.isl w.node a n reads

/-- The crossing that holds an access of an engine back (R289). -/
def EngAt.stuck (w : EngAt) (s : State) (a n : Nat) (reads : Bool) : Option (Nat × Nat) :=
  if w.own.any fun t => match place a with
      | .tower u _ => u = t
      | _ => false
  then none else s.stuckAccess w.isl w.node a n reads

abbrev Run := Except Halt State

/-- A read of `n` bytes that must lie in the partition's windows (R153, R177). -/
def engRead (ecc : MemEcc) (w : EngAt) (p : Part) (a n : Nat) (s : State) : Except Halt (List PByte × State) :=
  if !s.inWin p a n then .error (.fault s 1 0x0102 w.site)
  else if w.waits s a n true then .error (.wait (w.stuck s a n true))
  else .ok (s.devRead ecc a n)

/-- As `engRead`, for bytes whose poison the engine consumes (R153). -/
def engValue (ecc : MemEcc) (w : EngAt) (p : Part) (a n : Nat) (s : State) : Except Halt (List PByte × State) :=
  match engRead ecc w p a n s with
  | .ok (l, s') => if anyPoison l then .error (.fault s' 4 0x0401 w.site) else .ok (l, s')
  | .error h => .error h

/-- A write that must lie in the partition's windows and outside secured blocks; the record names the engine (R153, R188, Table 08-12). -/
def engWrite (ecc : MemEcc) (w : EngAt) (p : Part) (a : Nat) (l : List PByte) (s : State) : Run :=
  if !s.inWin p a l.length then .error (.fault s 1 0x0102 w.site)
  else if w.waits s a l.length false then .error (.wait (w.stuck s a l.length false))
  else match s.devWrite ecc a l with
    | some s' => .ok s'
    | none => .error (.fault s 1 0x0102 w.site)

def dfld (d : DescRec) (hi lo : Nat) : Nat := bits d.bits.toNat hi lo

/-- A job is loaded and has not ended by a fault: its engines still take and run descriptors (R153, R185). -/
def jobHolds (x : Partition) : Bool := x.jobState ≠ 0 && x.jobState ≠ 6

/-- A descriptor as it enters a queue. -/
def DescFlight.enter (d : DescFlight) : DescRec := ⟨d.st, d.pc, d.bits, d.poison, false, 0, [], 0, 0, false, false, 0, []⟩

/-- The first descriptor on its way to `dst` that no crossing holds back, and the state without it. Descriptors of one partition arrive in their order, and one that waits keeps no other
partition's from arriving (R150). -/
def State.takeDesc (s : State) (dst : DescTo) : Option (DescFlight × State) :=
  let first (x : DescFlight × Nat) : Bool :=
    x.1.dst = dst && (s.stuckDesc x.1).isNone && !(s.descs.take x.2).any fun o => o.dst = dst && o.part = x.1.part
  (s.descs.zipIdx.find? first).map fun x => (x.1, { s with descs := ldel s.descs x.2 })

/-- The mordant add on completion (R154, R176, R185). -/
def State.engineAdd (s : State) (p : Part) (mor : Nat) : State :=
  { s with morOps := s.morOps ++ [⟨none, p, BitVec.ofNat 16 mor, false, 1, false⟩] }

/-! ### Token routing -/

def routeSite (g : Eng) (d : DescRec) : Site := ⟨4, routeNode g, g.val * 256 + d.st.val, d.pc⟩

/-- A routing engine at its node. -/
def routeEng (g : Eng) (d : DescRec) : EngAt := ⟨routeSite g d, none, routeNode g, none⟩

def State.routeQ (s : State) (g : Eng) (p : Part) : List DescRec := vget (vget s.route g).q p

def State.setRouteQ (s : State) (g : Eng) (p : Part) (q : List DescRec) : State :=
  { s with route := vmod s.route g fun x => { x with q := vset x.q p q } }

def State.setRouteHead (s : State) (g : Eng) (p : Part) (d : DescRec) : State := s.setRouteQ g p (d :: (s.routeQ g p).drop 1)

/-- A descriptor reaches its routing engine (R150). -/
def execRouteDescriptorArrival (g : Eng) (s : State) : Host.Outcome State Fault Refusal :=
  match s.takeDesc (.route g) with
  | none => noEvent s
  | some (d, s) =>
    if jobHolds (s.prt d.part) then next (s.setRouteQ g d.part (s.routeQ g d.part ++ [d.enter])) else next s

def rtTokens (d : DescRec) : Nat := dfld d 311 288
def rtK (d : DescRec) : Nat := dfld d 315 312
def rtE (d : DescRec) : Nat := dfld d 331 320 + 1
def rtCap (d : DescRec) : Nat := dfld d 375 352
def rtRow (d : DescRec) : Nat := dfld d 287 256
def rtOp (d : DescRec) : Nat := dfld d 319 316
def rtMap (d : DescRec) : Nat := dfld d 255 192
def rtAssign (d : DescRec) : Nat := dfld d 191 128
def rtDst (d : DescRec) : Nat := dfld d 127 64
def rtSrc (d : DescRec) : Nat := dfld d 63 0
def rtCounts (d : DescRec) : Nat := dfld d 511 448

/-- The fields of a routing descriptor are in range and its reserved fields zero (R153). -/
def routeFieldsOk (s : State) (p : Part) (d : DescRec) : Bool :=
  dfld d 447 400 = 0 && dfld d 383 376 = 0 && dfld d 351 340 = 0 && dfld d 335 332 = 0 && rtOp d ≤ 1 && 1 ≤ rtCap d &&
  1 ≤ rtK d && rtK d ≤ 8 && 1 ≤ rtTokens d && rtRow d % 256 = 0 && 256 ≤ rtRow d && rtRow d ≤ 65536 &&
  (rtOp d = 0 || dfld d 339 336 ≤ 2) && rtE d * rtCap d ≤ 4294967295 && s.inMorRange p (dfld d 399 384)

/-- An assignment entry holds no reserved bit and names an expert or none. -/
def entryOk (e : Nat) (v : Nat) : Bool := bits v 31 16 = 0 && (bits v 15 0 = 0xFFFF || bits v 15 0 < e)

/-- The checks before any row moves (R153). A poisoned descriptor or assignment list is consumed. -/
def routeStart (ecc : MemEcc) (g : Eng) (p : Part) (d : DescRec) (s : State) : Run :=
  if d.poison then .error (.fault s 4 0x0401 (routeSite g d))
  else if !routeFieldsOk s p d then .error (.fault s 1 0x0102 (routeSite g d))
  else match engValue ecc (routeEng g d) p (rtAssign d) (8 * rtTokens d * rtK d) s with
    | .ok (l, s) =>
      if (chunks 8 (rtTokens d * rtK d) l).all fun c => entryOk (rtE d) (leP c) then .ok s
      else .error (.fault s 1 0x0102 (routeSite g d))
    | .error h => .error h

def noSlot : Nat := 0xFFFFFFFF

/-- 256 B blocks of a row. -/
def rtBlocks (d : DescRec) : Nat := rtRow d / 256

/-- Blocks in all: of each token and rank in a gather, of each token in a combine. -/
def rtTotal (d : DescRec) : Nat := (if rtOp d = 1 then rtTokens d else rtTokens d * rtK d) * rtBlocks d

/-- Choice `i` takes a slot, or none (R151). -/
def gatherSlot (ecc : MemEcc) (g : Eng) (p : Part) (i : Nat) (d : DescRec) (s : State) : Except Halt (Option Nat × DescRec × State) := do
  let (a, s) ← engValue ecc (routeEng g d) p (rtAssign d + 8 * i) 8 s
  let e := bits (leP a) 15 0
  let n := sget 0 d.counts e
  if e = 0xFFFF then return (none, d, s)
  else if n < rtCap d then return (some (e * rtCap d + n), { d with counts := sput 0 d.counts e (n + 1) }, s)
  else return (none, { d with drops := d.drops + 1 }, s.count 0x9021 (g.val + 1))

/-- The next block of a gather (R151): the first one of a choice finds its slot, the last one writes the slot map. -/
def gatherBlock (ecc : MemEcc) (g : Eng) (p : Part) (d : DescRec) (s : State) : Except Halt (DescRec × State) := do
  let site := routeEng g d
  let i := d.done / rtBlocks d
  let b := d.done % rtBlocks d
  let (sl, d, s) ← if b = 0 then gatherSlot ecc g p i d s else .ok (some d.slot, d, s)
  match sl with
  | none =>
    let s ← engWrite ecc site p (rtMap d + 4 * i) (clean (leBytes 4 noSlot)) s
    return ({ d with done := d.done + rtBlocks d }, s)
  | some k =>
    let (row, s) ← engRead ecc site p (rtSrc d + i / rtK d * rtRow d + 256 * b) 256 s
    let s ← engWrite ecc site p (rtDst d + k * rtRow d + 256 * b) row s
    let s ← if b + 1 = rtBlocks d then engWrite ecc site p (rtMap d + 4 * i) (clean (leBytes 4 k)) s else .ok s
    return ({ d with done := d.done + 1, slot := k }, s)

/-- The count vector and the drop count (R151). -/
def gatherEnd (ecc : MemEcc) (g : Eng) (p : Part) (d : DescRec) (s : State) : Run :=
  let v := ((List.range (rtE d)).flatMap fun e => leBytes 4 (sget 0 d.counts e)) ++ leBytes 4 d.drops
  engWrite ecc (routeEng g d) p (rtCounts d) (clean v) s

/-- The next block of a gather; the count vector follows the last one. -/
def gatherNext (ecc : MemEcc) (g : Eng) (p : Part) (d : DescRec) (s : State) : Except Halt (DescRec × State) := do
  let (d, s) ← gatherBlock ecc g p d s
  if rtTotal d ≤ d.done then
    let s ← gatherEnd ecc g p d s
    return (d, s)
  else return (d, s)

/-- Combine format (Table 05-2). -/
def rtFmt (d : DescRec) : Fmt := (Fmt.ofCode (dfld d 339 336)).getD .fp32

/-- One choice in a block of a combine (R152): the sums of the block's elements, and flags. -/
def combineChoice (ecc : MemEcc) (g : Eng) (p : Part) (d : DescRec) (o : List (Option Val) × Fl × State) (r : Nat) :
    Except Halt (List (Option Val) × Fl × State) := do
  let site := routeEng g d
  let i := d.done / rtBlocks d * rtK d + r
  let (m, s) ← engValue ecc site p (rtMap d + 4 * i) 4 o.2.2
  if leP m = noSlot then return (o.1, o.2.1, s)
  else
    let (a, s) ← engValue ecc site p (rtAssign d + 8 * i) 8 s
    let w := f32 (bits (leP a) 63 32)
    let (row, s) ← engValue ecc site p (rtSrc d + leP m * rtRow d + d.done % rtBlocks d * 256) 256 s
    let es := (o.1.zip (rowVals (rtFmt d) row)).map fun (acc, y) =>
      let pr := mulV .fp32 w y
      let sm := addE .fp32 acc (some pr.1)
      (sm.1, Fl.mk (pr.2 || sm.2) (!pr.1.finite || match sm.1 with
        | some v => !v.finite
        | none => false))
    return (es.map (·.1), es.foldl (fun f e => f.or e.2) o.2.1, s)

/-- The next block of a combine: block `done mod blocks` of the row of token `done / blocks`. -/
def combineNext (ecc : MemEcc) (g : Eng) (p : Part) (d : DescRec) (s : State) : Except Halt (DescRec × State) := do
  let n := 256 * 8 / (rtFmt d).width
  let o ← (List.range (rtK d)).foldlM (combineChoice ecc g p d) (List.replicate n none, Fl.none, s)
  let out := o.1.map fun a => match a with
    | none => (0, Fl.none)
    | some v => ((rtFmt d).encode (v.rnd (rtFmt d)).1, flagsOf (v.rnd (rtFmt d)).1 (v.rnd (rtFmt d)).2)
  let fl := out.foldl (fun f e => f.or e.2) o.2.1
  let s ← engWrite ecc (routeEng g d) p (rtDst d + d.done * 256)
    (clean (out.flatMap fun e => leBytes ((rtFmt d).width / 8) e.1)) o.2.2
  return ({ d with done := d.done + 1 }, s.orStatus d.st fl.ovf fl.nv)

/-- A routing engine's half runs (R20). -/
def State.routeUp (s : State) (g : Eng) : Bool := s.halfUp (colHalf (nodeCol (routeNode g)))

/-- The running descriptor of a routing engine moves: its checks if it starts, and one block. -/
def routeTry (blk : DescRec → State → Except Halt (DescRec × State)) (ecc : MemEcc) (g : Eng) (p : Part) (d : DescRec) (s : State) :
    Except Halt (DescRec × State) := do
  let s ← if d.checked then .ok s else routeStart ecc g p d s
  blk { d with checked := true } s

/-- One block of the running descriptor (R151, R152, R154). -/
def routeRun (op : Nat) (g : Eng) (p : Part) (blk : DescRec → State → Except Halt (DescRec × State)) (ecc : MemEcc) (s : State) :
    Host.Outcome State Fault Refusal :=
  match s.routeQ g p with
  | [] => noEvent s
  | d :: rest =>
    if rtOp d ≠ op && !(op = 0 && 1 < rtOp d) || (s.prt p).held || !s.routeUp g || (d.checked && rtTotal d ≤ d.done) then noEvent s
    else
      match routeTry blk ecc g p d s with
      | .ok (d, s) => next (s.setRouteHead g p d)
      | .error (.wait _) => noEvent s
      | .error (.fault s' c dt site) => next ((s'.setRouteQ g p rest).raise (some p) c dt site)

/-- A gather starts, is checked, and moves its next block (R151, R153, R154). A descriptor with a reserved OP faults here. -/
def execRouteGather (g : Eng) (p : Part) (e : MemEcc) (s : State) : Host.Outcome State Fault Refusal := routeRun 0 g p (gatherNext e g p) e s

/-- A combine starts, is checked, and writes its next block (R152, R153, R154). -/
def execRouteCombine (g : Eng) (p : Part) (e : MemEcc) (s : State) : Host.Outcome State Fault Refusal := routeRun 1 g p (combineNext e g p) e s

/-- The last row is written: MORDANT receives its add and the descriptor leaves the queue (R154). -/
def execRouteDescriptorComplete (g : Eng) (p : Part) (s : State) : Host.Outcome State Fault Refusal :=
  match s.routeQ g p with
  | d :: rest =>
    if d.checked && rtTotal d ≤ d.done then next ((s.setRouteQ g p rest).engineAdd p (dfld d 399 384)) else noEvent s
  | [] => noEvent s

/-! ### Transpose -/

def State.setXq (s : State) (t : Twr) (p : Part) (q : List DescRec) : State := s.modTwr t fun x => { x with xq := vset x.xq p q }
def State.setMq (s : State) (t : Twr) (p : Part) (q : List DescRec) : State := s.modTwr t fun x => { x with mq := vset x.mq p q }

/-- A transpose descriptor reaches its tower (R175). -/
def execTransposeDescriptorArrival (t : Twr) (s : State) : Host.Outcome State Fault Refusal :=
  match s.takeDesc (.transpose t) with
  | none => noEvent s
  | some (d, s') =>
    if !s.towerUp t then noEvent s
    else if jobHolds (s'.prt d.part) then next (s'.setXq t d.part (vget (s'.twr t).xq d.part ++ [d.enter])) else next s'

def xpRows (d : DescRec) : Nat := dfld d 319 304 + 1
def xpCols (d : DescRec) : Nat := dfld d 303 288 + 1
def xpSrc (d : DescRec) : Nat := dfld d 511 448
def xpDst (d : DescRec) : Nat := dfld d 447 384
def xpSp (d : DescRec) : Nat := dfld d 383 352
def xpDp (d : DescRec) : Nat := dfld d 351 320

/-- Element width in bytes of a format code 0h to 4h. -/
def elemBytes (f : Nat) : Nat := if f = 2 then 4 else if f < 2 then 2 else 1

def xpE (d : DescRec) : Nat := elemBytes (dfld d 271 268)
def xpSrcLen (d : DescRec) : Nat := (xpRows d - 1) * xpSp d + xpCols d * xpE d
def xpDstLen (d : DescRec) : Nat := (xpCols d - 1) * xpDp d + xpRows d * xpE d

/-- The checks of R177. -/
def xposeOk (s : State) (t : Twr) (p : Part) (d : DescRec) : Bool :=
  dfld d 267 0 = 0 && dfld d 271 268 ≤ 4 && xpCols d * xpE d ≤ xpSp d && xpRows d * xpE d ≤ xpDp d &&
  s.inTowerWin p t (xpSrc d) (xpSrcLen d) && s.inWin p (xpDst d) (xpDstLen d) &&
  !overlap (xpSrc d) (xpSrcLen d) (xpDst d) (xpDstLen d) && s.inMorRange p (dfld d 287 272)

def xpFrom (d : DescRec) (i : Nat) : Nat := xpSrc d + i / xpCols d * xpSp d + i % xpCols d * xpE d
def xpTo (d : DescRec) (i : Nat) : Nat := xpDst d + i % xpCols d * xpDp d + i / xpCols d * xpE d

/-- A tower sector that received a poisoned byte is written with carried poison, whatever it held (R177). -/
def State.carryPoison (s : State) (a : Nat) (l : List PByte) : State :=
  match place a with
  | .tower t _ => if anyPoison l && s.towerServes t a then (unitsOf 64 a l.length).foldl (fun s k => s.setSector k carriedPoison) s else s
  | _ => s

/-- A transpose engine at its tower (R177). Its accesses to other towers leave by the first of the tower's nodes, as its descriptors reach it: DESIGN CHOICE (assumption log 142). -/
def xposeEng (t : Twr) (d : DescRec) : EngAt := ⟨towerSite t 1 d.st.val d.pc, some (0x3E + t.val), towerNode t 0, some t⟩

/-- Element `i` in row-major order moves (R176, R177). Each element is a write of its own, so that a sector which held poison and which clean elements cover one by one stays poisoned: DESIGN
CHOICE, the rule does not say whether the engine gathers whole sectors (assumption log 142). -/
def xposeElem (ecc : MemEcc) (p : Part) (site : EngAt) (d : DescRec) (s : State) (i : Nat) : Run := do
  let (l, s) ← engRead ecc site p (xpFrom d i) (xpE d) s
  let s ← engWrite ecc site p (xpTo d i) l s
  return s.carryPoison (xpTo d i) l

/-- The engines of a tower run for a partition. -/
def State.engineUp (s : State) (t : Twr) (p : Part) : Bool := s.towerUp t && !vget (s.twr t).gone p && s.halfUp (towerHalf t)

/-- Elements in the next 4 KiB of a transpose. -/
def xpNext (d : DescRec) : Nat := min (4096 / xpE d) (xpRows d * xpCols d - d.done)

/-- The channels of the elements that move next are free for the second class of traffic (R165, R178). -/
def State.xposeFree (s : State) (d : DescRec) : Bool :=
  (List.range (xpNext d)).all fun i => s.channelFree (xpFrom d (d.done + i)) (xpE d) && s.channelFree (xpTo d (d.done + i)) (xpE d)

/-- A transpose starts, is checked, and moves its next 4 KiB (R176 to R178). -/
def execTransposeRun (t : Twr) (p : Part) (e : MemEcc) (s : State) : Host.Outcome State Fault Refusal :=
  match vget (s.twr t).xq p with
  | [] => noEvent s
  | d :: rest =>
    let n := xpRows d * xpCols d
    let site := towerSite t 1 d.st.val d.pc
    if (s.prt p).held || !s.engineUp t p || (d.checked && n ≤ d.done) then noEvent s
    else if !d.checked && d.poison then next ((s.setXq t p rest).raise (some p) 4 0x0401 site)
    else if !d.checked && !xposeOk s t p d then next ((s.setXq t p rest).raise (some p) 1 0x0102 site)
    else if !s.xposeFree d then noEvent s
    else match (List.range (xpNext d)).foldlM (fun s i => xposeElem e p (xposeEng t d) d s (d.done + i)) s with
      | .ok s => next (s.setXq t p ({ d with checked := true, done := d.done + xpNext d } :: rest))
      | .error (.wait _) => noEvent s
      | .error (.fault s' c dt site) => next ((s'.setXq t p rest).raise (some p) c dt site)

/-- The last destination byte is written (R176). -/
def execTransposeComplete (t : Twr) (p : Part) (s : State) : Host.Outcome State Fault Refusal :=
  match vget (s.twr t).xq p with
  | d :: rest =>
    if d.checked && xpRows d * xpCols d ≤ d.done then next ((s.setXq t p rest).engineAdd p (dfld d 287 272)) else noEvent s
  | [] => noEvent s

/-! ### Madder -/

/-- A Madder descriptor reaches its tower (R179). -/
def execMadderDescriptorArrival (t : Twr) (s : State) : Host.Outcome State Fault Refusal :=
  match s.takeDesc (.madder t) with
  | none => noEvent s
  | some (d, s') =>
    if !s.towerUp t then noEvent s
    else if jobHolds (s'.prt d.part) then next (s'.setMq t d.part (vget (s'.twr t).mq d.part ++ [d.enter])) else next s'

def mdStep (d : DescRec) : Nat := dfld d 383 352
def mdMode (d : DescRec) : Nat := dfld d 271 268
def mdCfmt (d : DescRec) : Nat := dfld d 267 264
def mdEmit (d : DescRec) : Nat := dfld d 263 262
def mdFlat (d : DescRec) : Bool := mdEmit d = 2
def mdBi (d : DescRec) : Nat := dfld d 351 336
def mdBj (d : DescRec) : Nat := dfld d 335 320
def mdF (d : DescRec) (hi lo : Nat) : Val := f32 (dfld d hi lo)
def mdEta (d : DescRec) : Val := mdF d 575 544
def mdB1 (d : DescRec) : Val := mdF d 543 512
def mdB2 (d : DescRec) : Val := mdF d 511 480
def mdEps (d : DescRec) : Val := mdF d 479 448
def mdLambda (d : DescRec) : Val := mdF d 447 416
def mdSigma (d : DescRec) : Val := mdF d 415 384

/-- Elements of each state array. -/
def mdCount (d : DescRec) : Nat := if mdFlat d then dfld d 319 288 else mdBi d * mdBj d * 262144

/-- Bytes of one copy block (R180). -/
def mdCopyBlock (d : DescRec) : Nat := 4096 + 262144 * elemBytes (mdCfmt d)

/-- Bytes of a copy region. -/
def mdCopyLen (d : DescRec) : Nat :=
  if mdFlat d then 4096 + mdCount d * elemBytes (mdCfmt d) else mdBi d * mdBj d * mdCopyBlock d

/-- The arrays and copy regions that the descriptor uses: base and bytes (R181). -/
def mdRegions (d : DescRec) : List (Nat × Nat) :=
  let a := 4 * mdCount d
  [(dfld d 1023 960, a), (dfld d 959 896, a), (dfld d 895 832, a)] ++
  (if mdMode d = 0 then [(dfld d 831 768, a)] else []) ++ [(dfld d 767 704, mdCopyLen d)] ++
  (if mdEmit d = 0 then [(dfld d 703 640, mdCopyLen d)] else [])

/-- No two of the extents overlap. -/
def disjoint : List (Nat × Nat) → Bool
  | [] => true
  | (a, n) :: l => (l.all fun r => !overlap a n r.1 r.2) && disjoint l

/-- The value lies in [0, 1). -/
def inUnit : Val → Bool
  | .num n m => (m = 0 || !n) && m < 1
  | _ => false

/-- The checks of R181. -/
def madderOk (s : State) (t : Twr) (p : Part) (d : DescRec) : Bool :=
  dfld d 261 0 = 0 && mdMode d ≤ 1 && mdCfmt d ≤ 4 && mdEmit d ≤ 2 && mdStep d ≠ 0xFFFFFFFF &&
  (mdEta d).finite && (mdLambda d).finite && inUnit (mdB1 d) && (mdSigma d).finite && !(mdSigma d).isZero &&
  (mdMode d = 1 || (inUnit (mdB2 d) && (mdEps d).finite && 0 < (mdEps d).rat)) &&
  (if mdFlat d then 1 ≤ dfld d 319 288 && dfld d 319 288 ≤ 16777216
   else 1 ≤ mdBi d && mdBi d ≤ 4096 && 1 ≤ mdBj d && mdBj d ≤ 4096) &&
  ((mdRegions d).all fun r => r.1 % 4096 = 0 && s.inTowerWin p t r.1 r.2) && disjoint (mdRegions d) &&
  dfld d 639 576 % 4 = 0 && s.inTowerWin p t (dfld d 639 576) 4 && s.inMorRange p (dfld d 287 272)

/-- Poison that a Madder engine reads: fault 09h when the tower itself marked a sector, else fault 04h (R168). A read that meets sectors of both kinds raises 09h alone: the spec does not
say which (assumption log 120). -/
def State.madderPoison (s : State) (a n : Nat) : Option (Nat × Nat) :=
  let ks := (List.range n).map fun i => s.sector (s.curAddr (a + i))
  if ks.contains towerPoison then some (9, 0x0900)
  else if ks.any (· ≠ 0) then some (4, 0x0401) else none

/-- Words of a Madder array, or the fault its poison raises; what the sector check finds comes first (R166, R167). -/
def madderRead (ecc : MemEcc) (site : Site) (a n : Nat) (s : State) : Except Halt (List Val × State) :=
  let s := s.findings ecc a (4 * n)
  match s.madderPoison a (4 * n) with
  | some (c, dt) => .error (.fault s c dt site)
  | none => .ok ((chunks 4 n (s.curRead a (4 * n))).map fun c => f32 (leP c), s)

/-- `true` when κ skips the step: a NaN, an infinity, or below zero (R182). -/
def kappaSkips : Val → Bool
  | .nan => true
  | .inf _ => true
  | .num n m => n && m ≠ 0

/-- round_rne(1 − β^n, FP32) (R182). -/
def biasCorr (b : Val) (n : Nat) : Val := (Val.ofRat (1 - b.rat ^ n) false).rne .fp32

/-- The exact root of a value, to far more bits than FP32 keeps: an irrational root never lies on a tie. -/
def rootX (v : Val) : Val :=
  match v with
  | .nan => .nan
  | .inf n => if n then .nan else .inf false
  | .num n m =>
    if m = 0 then .num n 0 else if n then .nan
    else
      let r := sqrtScaled m 1024
      .num false (((2 * r.1 + (if r.2 then 0 else 1) : Nat) : Rat) / ((2 ^ 1025 : Nat) : Rat))

/-- What the update makes of one element: w, m, v and flags. -/
structure Elem where
  w : Val
  m : Val
  v : Val
  fl : Fl
  deriving DecidableEq, Repr

def stepFl (r : Val × Bool) : Fl := flagsOf r.1 r.2

/-- The update of one element (R182). -/
def madderElem (d : DescRec) (kappa g w m v c1 c2 : Val) : Elem :=
  let g1 := mulV .fp32 g kappa
  let one := Val.num false 1
  let beta1 := mdB1 d
  let beta2 := mdB2 d
  let m0 := if mdStep d = 0 then Val.num false 0 else m
  let v0 := if mdStep d = 0 then Val.num false 0 else v
  let fin (u m' v' : Val) (fl : Fl) : Elem :=
    let w' := (w.addX ((mdEta d).mulX (u.addX ((mdLambda d).mulX w))).neg).rnd .fp32
    ⟨w'.1, m', v', (fl.or (stepFl w')).or (stepFl g1)⟩
  if mdMode d = 0 then
    let m' := ((beta1.mulX m0).addX ((one.addX beta1.neg).mulX g1.1)).rnd .fp32
    let v' := ((beta2.mulX v0).addX (((one.addX beta2.neg).mulX g1.1).mulX g1.1)).rnd .fp32
    let u := ((m'.1.divX c1).divX ((rootX (v'.1.divX c2)).addX (mdEps d))).rnd .fp32
    fin u.1 m'.1 v'.1 (((stepFl m').or (stepFl v')).or (stepFl u))
  else
    let m' := ((beta1.mulX m0).addX g1.1).rnd .fp32
    fin m'.1 m'.1 v0 (stepFl m')

/-- Header of a copy block (Table 06-4). -/
def copyHeader (d : DescRec) (tag iblk jblk : Nat) (order : Bool) : List Byte :=
  leBytes 64 (tag + mdCfmt d * 2 ^ 32 + (if mdFlat d then 2 ^ 38 else 0) + (if order then 2 ^ 39 else 0) + iblk * 2 ^ 64 +
    jblk * 2 ^ 80 + dfld d 415 384 * 2 ^ 96)

/-- Headers of the copies of block `b` with a tag: address and bytes. -/
def madderHeaders (d : DescRec) (b tag : Nat) : List (Nat × List Byte) :=
  let i := b / mdBj d
  let j := b % mdBj d
  if mdFlat d then [(dfld d 767 704, copyHeader d tag 0 0 false)]
  else (dfld d 767 704 + b * mdCopyBlock d, copyHeader d tag i j false) ::
    (if mdEmit d = 0 then [(dfld d 703 640 + (j * mdBi d + i) * mdCopyBlock d, copyHeader d tag j i true)] else [])

/-- Where the copies of element `n` lie (R180). -/
def copyAddrs (d : DescRec) (n : Nat) : List Nat :=
  let e := elemBytes (mdCfmt d)
  if mdFlat d then [dfld d 767 704 + 4096 + n * e]
  else
    let b := n / 262144
    let q := n % 262144
    let i := b / mdBj d
    let j := b % mdBj d
    (dfld d 767 704 + b * mdCopyBlock d + 4096 + q * e) ::
      (if mdEmit d = 0 then [dfld d 703 640 + (j * mdBi d + i) * mdCopyBlock d + 4096 + (q % 512 * 512 + q / 512) * e] else [])

/-- Writes of a group in their order, as far as they meet no secured block (R184): what is left begins with a write into one, which the rules of Table 06-6 govern. -/
def madderFlow (ecc : MemEcc) : List (Nat × List Byte) → State → List (Nat × List Byte) × State
  | [], s => ([], s)
  | w :: l, s => if (s.blockAt w.1).isSome then (w :: l, s) else madderFlow ecc l (s.madderStore ecc w.1 w.2)

/-- Results of a group as the writes of its state arrays and copies (R182, R183). -/
def groupWrites (d : DescRec) (es : List Elem) : List (Nat × List Byte) :=
  let off := 4 * d.done
  let bytes (f : Elem → Val) : List Byte := es.flatMap fun e => leBytes 4 (w32 (f e)).toNat
  let m1 := (dfld d 895 832 + off, bytes (·.m))
  let m2 := (dfld d 831 768 + off, bytes (·.v))
  if d.skip then (if mdStep d = 0 then m1 :: (if mdMode d = 0 then [m2] else []) else [])
  else (dfld d 959 896 + off, bytes (·.w)) :: m1 :: (if mdMode d = 0 then [m2] else [])

/-- Copy payload of a group, with flags (R123, R182). -/
def groupCopies (d : DescRec) (es : List Elem) : List (Nat × List Byte) × Fl :=
  let f := (Fmt.ofCode (mdCfmt d)).getD .fp32
  let rs := es.zipIdx.map fun (e, i) =>
    let x := e.w.mulX (mdSigma d)
    let c := convOut f x
    ((copyAddrs d (d.done + i)).map fun a => (a, leBytes (elemBytes (mdCfmt d)) c.1), Fl.mk c.2 (!x.finite))
  (rs.flatMap (·.1), rs.foldl (fun fl r => fl.or r.2) Fl.none)

/-- The elements of a group of `n` as updated (R182, R183). -/
def groupElems (ecc : MemEcc) (site : Site) (d : DescRec) (n : Nat) (s : State) : Except Halt (List Elem × State) := do
  let off := 4 * d.done
  let zero := List.replicate n (Val.num false 0)
  let (ws, s) ← madderRead ecc site (dfld d 959 896 + off) n s
  if d.skip then return (ws.map fun w => ⟨w, .num false 0, .num false 0, Fl.none⟩, s)
  else
    let (gs, s) ← madderRead ecc site (dfld d 1023 960 + off) n s
    let (ms, s) ← if mdStep d = 0 then .ok (zero, s) else madderRead ecc site (dfld d 895 832 + off) n s
    let (vs, s) ← if mdStep d = 0 || mdMode d = 1 then .ok (zero, s) else madderRead ecc site (dfld d 831 768 + off) n s
    let c1 := biasCorr (mdB1 d) (mdStep d + 1)
    let c2 := biasCorr (mdB2 d) (mdStep d + 1)
    let kappa := f32 d.kappa.toNat
    let at' (l : List Val) (i : Nat) : Val := l.getD i (.num false 0)
    return ((List.range n).map fun i => madderElem d kappa (at' gs i) (at' ws i) (at' ms i) (at' vs i) c1 c2, s)

/-- A group of `n` opens or closes its copy block. -/
def mdFirst (d : DescRec) : Bool := if mdFlat d then d.done = 0 else d.done % 262144 = 0
def mdLast (d : DescRec) (n : Nat) : Bool := if mdFlat d then mdCount d ≤ d.done + n else (d.done + n) % 262144 = 0

/-- The copy block of the next group. -/
def mdBlock (d : DescRec) : Nat := if mdFlat d then 0 else d.done / 262144

/-- All writes of one group in the order of R184: the opening headers of a block, state and payload, the closing headers; each is cut at granule boundaries. -/
def madderGroup (d : DescRec) (n : Nat) (es : List Elem) : List (Nat × List Byte) :=
  let b := mdBlock d
  ((if mdFirst d then madderHeaders d b 0xFFFFFFFF else []) ++ groupWrites d es ++ (groupCopies d es).1 ++
  (if mdLast d n then madderHeaders d b (mdStep d) else [])).flatMap fun w => granuleRuns (w.2.length / 4096 + 2) w.1 w.2

/-- The extents that the next group of `n` reads or writes: state arrays, copies, and the headers of a block that it opens or closes (R182 to R184). -/
def mdTouches (d : DescRec) (n : Nat) : List (Nat × Nat) :=
  ([dfld d 1023 960, dfld d 959 896, dfld d 895 832] ++ if mdMode d = 1 then [] else [dfld d 831 768]).map (fun a => (a + 4 * d.done, 4 * n)) ++
  ((List.range n).flatMap fun i => (copyAddrs d (d.done + i)).map fun a => (a, 1)) ++
  if mdFirst d || mdLast d n then (madderHeaders d (mdBlock d) 0).map fun h => (h.1, h.2.length) else []

/-- The channels of a group of `n` are free for the second class of traffic, and for a descriptor that starts that of κ (R165, R185). -/
def State.madderFree (s : State) (d : DescRec) (n : Nat) : Bool :=
  (d.checked || s.channelFree (dfld d 639 576) 4) && (mdTouches d n).all fun x => s.channelFree x.1 x.2

def State.sec (s : State) (p : Part) : Secure := (s.prt p).sec

/-- Securing interval I (R427). -/
def State.interval (s : State) (p : Part) : Nat :=
  let l := s.reg 0x6170 (p.val + 1)
  let r := s.reg 0x7013 (p.val + 1)
  max 1 (l / (if r ≤ 63 then 2 else if r ≤ 159 then 4 else if r ≤ 254 then 8 else 16))

/-- The count of the securing mordant that the device has still to handle (R424). -/
def State.securingDue (s : State) (p : Part) : Option W64 :=
  let m := s.reg 0x6171 (p.val + 1)
  match s.morRange p with
  | none => none
  | some (a, z) =>
    let c := (s.mor (a + m)).count
    if (s.prt p).jobState ≠ 3 || m = 0xFFFF || z - a < m || c = 0 || c ≤ (s.sec p).high then none else some c

/-- A descriptor beyond the step of a change that is still to be handled, and that may open an epoch, waits at its queue's head for the open (R425). -/
def State.awaitsOpen (s : State) (p : Part) (step : Nat) : Bool :=
  match s.securingDue p with
  | some c => (c.toNat - 1) % s.interval p = 0 && decide (c.toNat - 1 < step)
  | none => false

/-- The lost-step bound of a partition applies and keeps a step from starting (R428). -/
def State.stepBlocked (s : State) (p : Part) (step : Nat) : Bool :=
  s.reg 0x6171 (p.val + 1) ≠ 0xFFFF &&
  match (s.prt p).sec.sc with
  | some c => decide (c + (s.reg 0x6170 (p.val + 1) : Int) < (step : Int))
  | none => false

/-- The start of a descriptor: its settled step (R421), the base of R428, κ and the skip rule (R182, R183). -/
def madderStart (ecc : MemEcc) (t : Twr) (p : Part) (d : DescRec) (s : State) : Except Halt (DescRec × State) := do
  let site := towerSite t 0 d.st.val d.pc
  if d.poison then .error (.fault s 4 0x0401 site)
  else if !madderOk s t p d then .error (.fault s 1 0x0102 site)
  else
    let (k, s) ← madderRead ecc site (dfld d 639 576) 1 s
    let kv := k.getD 0 .nan
    let s := s.modTwr t fun x => { x with
      settled := vset x.settled p none
      maxStep := vmod x.maxStep p fun m => some (max (m.getD 0) (mdStep d)) }
    let s := s.modPart p fun x => { x with sec := { x.sec with sc := some (x.sec.sc.getD ((mdStep d : Int) - 1)) } }
    let s := if kappaSkips kv then (s.orStatus d.st false true).count 0x9032 (p.val + 1) else s
    return ({ d with checked := true, kappa := w32 kv, skip := kappaSkips kv, hold := false }, s)

/-- The head descriptor of a tower starts or goes on with its next group of at most 1,024 elements: the group is read and computed, and its writes are made up to the first that meets a
secured block. Beyond the lost-step bound the descriptor waits and raises HOLD (R185, R428); before an epoch that is to open it waits without (R425). -/
def madderRun (mode : Nat) (t : Twr) (p : Part) (ecc : MemEcc) (s : State) : Host.Outcome State Fault Refusal :=
  match vget (s.twr t).mq p with
  | [] => noEvent s
  | d :: rest =>
    let site := towerSite t 0 d.st.val d.pc
    let n := min 1024 (mdCount d - d.done)
    if mdMode d ≠ mode && !(mode = 0 && 1 < mdMode d) || !s.engineUp t p || d.wq ≠ [] || (!d.checked && s.awaitsOpen p (mdStep d)) || (d.checked && mdCount d ≤ d.done) then noEvent s
    else if !d.checked && !d.poison && madderOk s t p d && s.stepBlocked p (mdStep d) then
      if d.hold then noEvent s
      else next ((s.setMq t p ({ d with hold := true } :: rest)).count 0x9091 (p.val + 1))
    else if ((s.prt p).held && !d.hold) || ((d.checked || (!d.poison && madderOk s t p d)) && !s.madderFree d n) then noEvent s
    else
      let r : Except Halt (DescRec × State) := do
        let (d, s) ← if d.checked then .ok (d, s) else madderStart ecc t p d s
        let (es, s) ← groupElems ecc site d n s
        let fl := if d.skip then Fl.none else es.foldl (fun f e => f.or e.fl) (groupCopies d es).2
        let o := madderFlow ecc (madderGroup d n es) s
        return ({ d with done := d.done + n, hold := false, wq := o.1 }, o.2.orStatus d.st fl.ovf fl.nv)
      match r with
      | .ok (d, s) => next (s.setMq t p (d :: rest))
      | .error (.wait _) => noEvent s
      | .error (.fault s' c dt site) => next ((s'.setMq t p rest).raise (some p) c dt site)

/-- Adaptive mode (R182). A descriptor with a reserved MODE faults here (R181). -/
def execMadderAdaptiveUpdate (t : Twr) (p : Part) (e : MemEcc) (s : State) : Host.Outcome State Fault Refusal := madderRun 0 t p e s

/-- Momentum mode (R182). -/
def execMadderMomentumUpdate (t : Twr) (p : Part) (e : MemEcc) (s : State) : Host.Outcome State Fault Refusal := madderRun 1 t p e s

/-- The last state element and the last header are written (R185): MORDANT receives its add, and the tower is settled (R421). -/
def execMadderComplete (t : Twr) (p : Part) (s : State) : Host.Outcome State Fault Refusal :=
  match vget (s.twr t).mq p with
  | d :: rest =>
    if d.checked && mdCount d ≤ d.done && d.wq = [] then
      let s := s.modTwr t fun x => { x with mq := vset x.mq p rest, settled := vset x.settled p (vget x.maxStep p) }
      next (s.engineAdd p (dfld d 287 272))
    else noEvent s
  | [] => noEvent s

/-- Where a write of a Madder engine falls: home, and the pool slot that holds or will hold the granule (Table 06-6). -/
def State.madderPlaces (s : State) (a : Nat) : List Nat :=
  match s.blockAt a with
  | some (t, p, _, b) => a :: match b.slot.orElse fun _ => s.freeSlot t p with
    | some j => [s.slotAddr t p j + (a - b.addr)]
    | none => []
  | none => [a]

/-- The next write of the group in progress meets a secured block and is made by the rules of Table 06-6, and with it the writes that follow, up to the next such one (R184, R187). While
the pool has no free slot for it the engine raises HOLD and waits (R190). -/
def execSecuredBlockWrite (t : Twr) (p : Part) (e : MemEcc) (s : State) : Host.Outcome State Fault Refusal :=
  match vget (s.twr t).mq p with
  | d :: rest =>
    match d.wq with
    | w :: l =>
      if !s.engineUp t p || !(s.madderPlaces w.1).all fun a => s.channelFree a w.2.length then noEvent s
      else match s.madderWrite e w.1 w.2 with
        | some s' =>
          let o := madderFlow e l s'
          next (o.2.setMq t p ({ d with hold := false, wq := o.1 } :: rest))
        | none => next (s.setMq t p ({ d with hold := true } :: rest))
    | [] => noEvent s
  | [] => noEvent s

/-- What a running engine of a tower would move next: the extents of the next group or 4 KiB of a descriptor that nothing keeps from going on (R165). -/
def State.engineNext (s : State) (t : Twr) (p : Part) : List (Nat × Nat) :=
  if (s.prt p).held || !s.engineUp t p then []
  else
    (match vget (s.twr t).mq p with
     | d :: _ =>
       if !d.checked then []
       else match d.wq with
         | w :: _ => (s.madderPlaces w.1).map fun a => (a, w.2.length)
         | [] => mdTouches d (min 1024 (mdCount d - d.done))
     | [] => []) ++
    match vget (s.twr t).xq p with
    | d :: _ => if d.checked then (List.range (xpNext d)).flatMap fun i => [(xpFrom d (d.done + i), xpE d), (xpTo d (d.done + i), xpE d)] else []
    | [] => []

/-- Madder or transpose traffic wants the channel of a granule, and comes before a copy-back (R165). -/
def State.engineWants (s : State) (a : Nat) : Bool :=
  (List.finRange 8).any fun t => (List.finRange 4).any fun p => (s.engineNext t p).any fun x => (partsOf x.1 x.2).any fun y => servedBy y.1 = servedBy a

/-! ### Engines at a crossing (R289, R290) -/

/-- Memory in which the sector checks find nothing. -/
def noFindings : MemEcc := ⟨[], [], []⟩

/-- The crossing before which the running descriptor of a routing engine waits: that of the access which keeps its next block from moving. -/
def State.routeStuck (s : State) (g : Eng) (p : Part) : Option (Nat × Nat) :=
  match s.routeQ g p with
  | [] => none
  | d :: _ =>
    if (s.prt p).held || !s.routeUp g || (d.checked && rtTotal d ≤ d.done) then none
    else match routeTry (if rtOp d = 1 then combineNext noFindings g p else gatherNext noFindings g p) noFindings g p d s with
      | .error (.wait c) => c
      | _ => none

/-- The same of a transpose engine. A Madder engine reaches its own tower alone (R181). -/
def State.xposeStuck (s : State) (t : Twr) (p : Part) : Option (Nat × Nat) :=
  match vget (s.twr t).xq p with
  | [] => none
  | d :: _ =>
    if (s.prt p).held || !s.engineUp t p || (d.checked && xpRows d * xpCols d ≤ d.done) || (!d.checked && (d.poison || !xposeOk s t p d)) then none
    else match (List.range (xpNext d)).foldlM (fun s i => xposeElem noFindings p (xposeEng t d) d s (d.done + i)) s with
      | .error (.wait c) => c
      | _ => none

/-- Owners of the engine descriptors that wait at a crossing. -/
def State.engineOwners (s : State) (c : Nat × Nat) : List (Option Part) :=
  if !s.crossingHeld c || s.clk.recal.contains c then []
  else (List.finRange 4).flatMap fun p =>
    (if ((List.finRange 4).any fun g => s.routeStuck g p = some c) || (List.finRange 8).any fun t => s.xposeStuck t p = some c then [some p] else [])

/-- A marked granule returns to its home (R187), on a channel that neither a request from the mesh nor an engine wants (R165); a slot that frees ends the raise of an engine that waits for one (R190). -/
def execCopyBackGranule (t : Twr) (p : Part) (blk : Nat) (g : Fin 16) (e : MemEcc) (s : State) : Host.Outcome State Fault Refusal :=
  match (vget (s.twr t).epochs p).bind fun e => e.blocks[blk]? with
  | none => noEvent s
  | some b =>
    match b.st, b.slot with
    | .returning, some j =>
      let from_ := s.slotAddr t p j + g.val * 4096
      if !b.marks.contains g.val || !s.towerUp t || !s.halfUp (towerHalf t) || !([from_, b.addr + g.val * 4096].all fun a => s.channelFree a 4096 && !s.engineWants a) then noEvent s
      else
        let s := (s.sectorsRead t e from_ 4096).copyGranule from_ (b.addr + g.val * 4096)
        let marks := setDel b.marks g.val
        let b' : SecBlock := if marks = [] then { b with marks := [], slot := none, st := .out } else { b with marks := marks }
        next (State.noteEpoch s p (((s.modBlock t p blk fun _ => b').closeEpoch t p).dropHold t p fun d => marks = [] && d.checked))
    | _, _ => noEvent s

end Sys2Proof.Machine
end

