-- ==== Sys2Proof/Machine/Kat.lean ====
section
/-!
DEFINITION. Known-answer tests (R155 to R159, R274, R398 to R402), sequencer compare (R404), and the observation of stations (R408).
-/
namespace Sys2Proof.Machine

/-- Kernels in a rotation (R398). -/
def rotationSet : Nat := 65536
/-- Kernels in the observation set (R398). -/
def observationSet : Nat := 2048

/-- The next kernel in a station's order: ascending rotation, alternating with the observation set under observation (R399). -/
def Health.gen (h : Health) (observed : Bool) : Nat × Health :=
  if observed && h.obsTurn then ((Config.observed h.obsNext).val, { h with obsNext := (h.obsNext + 1) % observationSet, obsTurn := false })
  else (h.next, { h with next := (h.next + 1) % rotationSet, obsTurn := true })

/-- `n` further kernels into the queue, which holds 8,192 (R399). -/
def Health.fill (observed : Bool) : Nat → Health → Health
  | 0, h => h
  | n + 1, h =>
    if 8192 ≤ h.queue.length then h
    else
      let g := h.gen observed
      Health.fill observed n { g.2 with queue := g.2.queue ++ [g.1] }

/-- The kernel that the next slice runs: a repeat, the head of the queue, or the next in order (R399, R401). -/
def Health.pick (h : Health) (observed : Bool) : Nat × Health :=
  match h.again, h.queue with
  | some k, _ => (k, { h with again := none })
  | none, k :: q => (k, { h with queue := q })
  | none, [] => h.gen observed

def State.observed (s : State) (st : St) : Bool := s.reg 0x7010 (st.val + 1) ≠ 0

/-- A fault-free pass that began at `since` or later at every station has met the second and third condition of R439 for the image; it is clean once it is complete too. -/
def passImage (since : Nat) (i : Image) : Image :=
  let ok := i.passOk || (!i.spoiled && decide (i.opened.toNat ≤ since))
  { i with passOk := ok, clean := i.clean || (ok && i.complete) }

/-- When the earliest of the last passes of the job's stations began; `none` while a station has none. -/
def State.passSince (s : State) (p : Part) : Option Nat :=
  match (s.prt p).pos.map fun st => (s.hlt st).lastPass with
  | [] => none
  | l => l.foldl (fun o x => match o, x with
    | some n, some t => some (min n t.1.toNat)
    | _, _ => none) (some (2 ^ 64))

/-- A pass of the partition is over: what it means for its images, the open and the late ones too (R439). -/
def State.cleanImages (s : State) (p : Part) : State :=
  match s.passSince p with
  | none => s
  | some n => s.modPart p fun x => { x with sec := { x.sec with
      images := x.sec.images.map (passImage n), epoch := x.sec.epoch.map (passImage n), late := x.sec.late.map fun l => { l with img := passImage n l.img } } }

/-- A station has completed a rotation pass; so has its partition when every station of the job has, within the partition's interval (R399). -/
def State.stationPass (s : State) (st : St) : State :=
  let s := s.modHealth st fun h => { h with lastPass := some (h.passFrom, s.time), passFrom := s.time, passed := [] }
  match s.jobAt st with
  | some p =>
    let x := s.prt p
    if x.pos.all fun y => match (s.hlt y).lastPass with
        | some t => decide (x.passFrom.toNat ≤ t.1.toNat)
        | none => false
    then ((s.setReg 0x7011 (p.val + 1) s.time.toNat).modPart p fun x => { x with passFrom := s.time }).cleanImages p
    else s
  | none => s

/-- A kernel has passed; the rotation pass is complete once every kernel of the set has, in whatever order they came (R399). -/
def State.kernelPassed (s : State) (st : St) (k : Nat) : State :=
  let s := s.modHealth st fun h => { h with passed := setAdd h.passed k }
  if rotationSet ≤ (s.hlt st).passed.length then s.stationPass st else s

def twoSeconds : Nat := 2000000000

/-- A kernel has failed (R401): a second failure within 2 s confirms the fault, the rotation starts afresh, and the kernel runs again. -/
def State.kernelFailed (s : State) (st : St) (k : Nat) : State :=
  let again : Bool := match (s.hlt st).failed with
    | some (k', t) => k' = k && decide (s.time.toNat < t.toNat + twoSeconds)
    | none => false
  let s := s.suspect st
  let s := if again then s.saveReg 0x7010 (st.val + 1) 2 else s
  s.modHealth st fun h => { h with
    failed := some (k, s.time), again := some k, queue := [], next := 0, obsNext := 0, obsTurn := false, passed := []
    passFrom := s.time }

/-- CHK.KAT at issue: fault 01h while an ARR.LOAD is in progress or not yet swapped in (R156). -/
def execChkKat (st : St) (s : State) : Host.Outcome State Fault Refusal :=
  issue 0x90 (fun s _ st e => if (s.stn st).arr.bkLoad.isSome then .fault noLoc2 else enqueue s st e) s st

/-- The pipeline is empty, every verdict ready, no retry, and no drain, prologue, epilogue or VEC.OP is in flight (R156, R397); the shadow registers hold
no block of the job, which the slice would lose (R157). -/
def katFree (x : Station) : Bool :=
  x.arr.empty && x.arr.slice.isNone && x.arr.load.isNone && x.arr.shadow.isNone && x.drain.isNone && x.vec.op.isNone && !(x.vec.pro.isSome && proBusy x) && !epiBusy x

/-- A word of a kernel, as the station generates it from the seed (R145, R155). Which indices a cell takes the spec does not say (assumption log 121). -/
def kernelWord (seed : W64) (k i : Nat) : W32 := mix seed 0 3 (Config.kernelPlace k i).1 (Config.kernelPlace k i).2

/-- The test block that the pattern generator starts into the shadow chains (R155, R157). -/
def testBlock (seed : W64) (k : Nat) (shape : Fin 4) : Weights where
  fmt := Config.kernelFmt k
  k := shapeK shape
  n := shapeN shape
  shape := shape
  data := clean (((List.range (blockBytes (Config.kernelFmt k) (shapeK shape) (shapeN shape) / 4)).flatMap fun i => leBytes 4 (kernelWord seed k i).toNat))

/-- The slice's signatures: product rows, then vector results (R158). -/
def sliceSigs (b : SliceBits) : W64 × W64 := (crc64 b.rows, crc64 b.results)

/-- The slice passes when both signatures match and every test row cleared (R158). -/
def slicePasses (k : Nat) (shape : Nat) (b : SliceBits) : Bool := sliceSigs b = Config.kernelSigs k shape && b.clear

/-- A slice begins on a station with its next kernel: the test block starts into the shadow chains, and the shape is the one in force (R157). -/
def State.startSlice (s : State) (st : St) (pc : Nat) (direct : Bool) : State :=
  let g := (s.hlt st).pick (s.observed st)
  (s.modHealth st fun _ => g.2).modSt st fun x => x.modArr fun a => { a with slice := some ⟨g.1, Config.kernelSeed g.1, a.shape, pc, direct⟩, shadow := some (testBlock (Config.kernelSeed g.1) g.1 a.shape) }

/-- CHK.KAT fires (R156, R399). -/
def execChkKatFire (st : St) (s : State) : Host.Outcome State Fault Refusal :=
  match s.headOp st .chk 0x90, s.jobAt st with
  | some e, some p =>
    if !katFree (s.stn st) || (s.prt p).held then noEvent s
    else next ((s.modSt st fun x => x.pop .chk).startSlice st e.pc false)
  | _, _ => noEvent s

/-- A slice ends (R155, R157, R158): the shadow registers are empty, the signature register holds what the slice formed, and the test registers what the kernel's vector program left, which the
spec does not give. -/
def State.endSlice (s : State) (st : St) (b : SliceBits) : State :=
  let n := s.draws
  let s := { s with draws := n + 4096 }
  (s.count 0x9020 (st.val + 1)).modSt st fun x => { x with
    arr := { x.arr with slice := none, shadow := none, signature := sliceSigs b }
    vec := { x.vec with testRegs := (List.range 4096).map fun i => (i, (Config.freeWord (n + i)).setWidth 32) } }

/-- The station is active in no loaded job, not bypassed, and its half runs (R20, R402). -/
def State.stationIdle (s : State) (st : St) : Bool :=
  s.halfUp (stationHalf st) && s.reg 0x8000 (st.val + 1) < 2 && (List.finRange 4).all fun p => !(s.loaded p && (s.prt p).pos.contains st)

/-- A station that ran a direct slice stops again, unless a job has meanwhile set its clock (R279). -/
def State.sliceClock (s : State) (st : St) : State := if s.stationIdle st then s.setReg 0x4101 (st.val + 1) 0 else s

/-- A direct slice has failed: no job fault, and the station is handled under Repair (R402, R416): it is isolated at the next job restart, and as a spare it has no pass to be switched in on. -/
def State.directFails (s : State) (st : St) (k : Nat) : State :=
  (s.kernelFailed st k).modHealth st fun h => { h with lastPass := none, isolate := true }

/-- The slice in progress ends and its signatures are compared; a failure raises fault 03h, or for a direct slice none (R158, R401, R402). -/
def execTestSliceEnd (st : St) (b : SliceBits) (s : State) : Host.Outcome State Fault Refusal :=
  match (s.stn st).arr.slice with
  | none => noEvent s
  | some c =>
    let sc := shapeK c.shape + 160
    let s := (s.endSlice st b).modHealth st fun h => { h with katSc := h.katSc + (if c.direct then 0 else sc) }
    let s := if c.direct then s.sliceClock st else s
    if slicePasses c.kern c.shape b then next (s.kernelPassed st c.kern)
    else
      next (if c.direct then s.directFails st c.kern else (s.faultAt st 3 0x0300 noLoc2 c.pc).kernelFailed st c.kern)

/-- A direct slice begins on an idle station, which runs at 1.10 GHz for it (R279, R402); TEST_SLICE_END ends it. -/
def execDirectTestSlice (st : St) (s : State) : Host.Outcome State Fault Refusal :=
  if !s.stationIdle st || !s.stewardUp || (s.stn st).arr.slice.isSome then noEvent s
  else next ((s.startSlice st noPc true).setReg 0x4101 (st.val + 1) 1100)

/-- The steward fills the queue of a station in its order (R399). -/
def execKatQueueFill (st : St) (count : Nat) (s : State) : Host.Outcome State Fault Refusal :=
  if !s.stewardUp then noEvent s else next (s.modHealth st (Health.fill (s.observed st) (min count 8192)))

/-- Slices `k` of a rotation that pass leave the last one's signatures, and the test registers at free values. -/
def State.slicesRun (s : State) (st : St) (k : Nat) : State :=
  let n := s.draws
  (State.count { s with draws := n + 4096 } 0x9020 (st.val + 1) k).modSt st fun x => { x with
    arr := { x.arr with signature := Config.kernelSigs (k - 1) x.arr.shape }
    vec := { x.vec with testRegs := (List.range 4096).map fun i => (i, (Config.freeWord (n + i)).setWidth 32) } }

/-- The 4,096 isolation kernels of R416 by direct slices: they leave signature and test registers at values that the spec does not give (R403). -/
def State.isolationRun (s : State) (st : St) : State :=
  let n := s.draws
  (State.count { s with draws := n + 4098 } 0x9020 (st.val + 1) 4096).modSt st fun x => { x with
    arr := { x.arr with signature := (Config.freeWord (n + 4096), Config.freeWord (n + 4097)) }
    vec := { x.vec with testRegs := (List.range 4096).map fun i => (i, (Config.freeWord (n + i)).setWidth 32) } }

/-- A full rotation by direct slices on an idle station, whole (R402): `fail` is the first kernel that fails, with its bits. -/
def execIdleStationRotation (st : St) (fail : Option (Nat × SliceBits)) (s : State) : Host.Outcome State Fault Refusal :=
  if !s.stationIdle st || !s.stewardUp || (s.stn st).arr.slice.isSome then noEvent s
  else match fail with
    | none =>
      next ((s.slicesRun st rotationSet).modHealth st fun h => { h with lastPass := some (s.time, s.time), passFrom := s.time, passed := [] })
    | some (k, b) =>
      if rotationSet ≤ k || slicePasses k (s.stn st).arr.shape b then noEvent s
      else
        let s := if k = 0 then s else s.slicesRun st k
        next ((s.endSlice st b).directFails st k)

/-- The two copies of a sequencer disagree (R404): the instruction under issue enters no queue, nothing further issues, and fault 03h is
recorded. -/
def execSequencerCompareMismatch (st : St) (s : State) : Host.Outcome State Fault Refusal :=
  let pc := (s.stn st).sq.pc
  let s := s.modSt st fun x => { x with sq := { x.sq with stopped := true } }
  next (s.faultAt st 3 0x0301 noLoc2 pc)

/-- 72 h without a further event: the station leaves observation (R408), and the hour in which it does is not clean (R409). -/
def execObservationExpiry (st : St) (s : State) : Host.Outcome State Fault Refusal :=
  if s.reg 0x7010 (st.val + 1) = 1 && s.stewardUp && s.passed (s.hlt st).lastEvent (3 * dayNs) then next (s.saveReg 0x7010 (st.val + 1) 0).breakHour else noEvent s

end Sys2Proof.Machine
end

