-- ==== Sys2Proof/Machine/Epochs.lean ====
section
/-!
DEFINITION. Epochs and images of a partition (R186, R423 to R439): the secured blocks, the tiers, how an epoch opens, aborts and gives a complete image.
-/
namespace Sys2Proof.Machine

def siteSteward (loc2 : Nat) : Site := ⟨6, 0xFF, loc2, noPc⟩

def State.modSec (s : State) (p : Part) (f : Secure → Secure) : State := s.modPart p fun x => { x with sec := f x.sec }

/-! ### Secured blocks (R186, R430) -/

/-- Blocks of one range entry of OD 6173h, by offset from the window's base in 64 KiB. -/
def rangeBlocks (e : Nat) : List Nat := if bit e 63 then (List.range (bits e 48 32)).map fun i => bits e 16 0 + i else []

/-- Addresses of the secured blocks of logical tower `k`, in ascending range order. A range lies in the partition's window: what OD 6173h names beyond it is no block (R186). -/
def State.towerBlocks (s : State) (p : Part) (k : Nat) (t : Twr) : List Nat :=
  match s.towerWindow p t with
  | some (lo, hi) => (List.range 16).flatMap fun r =>
      ((rangeBlocks (domNat (s.dom 0x6173 (p.val + 1)) (128 * k + 8 * r) 8)).filter fun o => lo + o * 65536 + 65536 ≤ hi).map fun o =>
        t.val * 2 ^ 33 + lo + o * 65536
  | none => []

/-- Secured blocks of the partition in drain order, logical tower by logical tower (R430). -/
def State.securedBlocks (s : State) (p : Part) : List (Twr × Nat) :=
  (s.prt p).towers.zipIdx.flatMap fun (t, k) => (s.towerBlocks p k t).map fun a => (t, a)

/-- Number, in the image, of block `blk` of a tower's directory. -/
def State.imageIndex (s : State) (p : Part) (t : Twr) (blk : Nat) : Nat :=
  (s.securedBlocks p).findIdx (fun b => b.1 = t) + blk

/-- Blocks of the partition's open epoch in every tower. -/
def State.epochBlocks (s : State) (p : Part) : List SecBlock :=
  (List.finRange 8).flatMap fun t => match vget (s.twr t).epochs p with
    | some e => e.blocks
    | none => []

/-- Drained: the block's drain has completed. -/
def SecBlock.drained (b : SecBlock) : Bool := b.st = .returning || b.st = .out

/-- Blocks that a tower has closed count as drained: those of the image less those of open directories that are not. -/
def State.undrained (s : State) (p : Part) : Nat := ((s.epochBlocks p).filter fun b => !b.drained).length

/-! ### Tiers (R427, R429) -/

def State.tierPlan (s : State) (p : Part) : Nat := s.reg 0x6175 (p.val + 1)

/-- Sepia tier in service (OD 617Ch). -/
def State.sepiaUp (s : State) : Bool := s.reg 0x617C 0 / 2 ^ 24 = 0

/-- Tiers of the plan in service: 0 partner, 1 Sepia, 2 shared store. A partner tier needs the holder's addresses (R431). -/
def State.tiersUp (s : State) (p : Part) : List Nat :=
  let v := s.tierPlan p
  (if bit v 15 && (s.sec p).reserve.isSome then [0] else []) ++ (if bit v 14 && s.sepiaUp then [1] else []) ++ (if bit v 13 then [2] else [])

/-- Tiers that the plan enables; a retired Sepia tier is none of them (R429). -/
def State.tiersOn (s : State) (p : Part) : List Nat :=
  let v := s.tierPlan p
  (if bit v 15 then [0] else []) ++ (if bit v 14 && s.reg 0x617C 0 / 2 ^ 24 ≠ 1 then [1] else []) ++ (if bit v 13 then [2] else [])

/-- The tier to which epoch `j` drains: the deepest one in service whose period divides j; the shallowest enabled tier has period 1 (R429). Where that one is not in service there may be
none (assumption log 143). -/
def State.chooseTier (s : State) (p : Part) (j : Nat) : Option Nat :=
  let v := s.tierPlan p
  let period (k : Nat) : Nat := if (s.tiersOn p).head? = some k then 1 else if k = 1 then 2 ^ bits v 7 4 else 2 ^ bits v 3 0
  (s.tiersUp p).reverse.find? fun k => j % period k = 0

/-- Images of a tier are kept up to `cap`, newest first; with `guard` the newest complete and the newest clean one stay (R431, R433). -/
def keepImages (tier cap : Nat) (guard : Bool) (l : List Image) : List Image :=
  let mine := l.filter fun i => i.tier = tier
  let clean := mine.find? fun i => i.clean
  let kept := (mine.zipIdx.filter fun (i, k) => k < cap || (guard && (k = 0 || clean = some i))).map (·.1)
  l.filter fun i => i.tier ≠ tier || kept.contains i

/-- Images that the partition's share of the NAND holds (R433). -/
def State.shareImages (s : State) (p : Part) : Nat :=
  s.reg 0x6178 (p.val + 1) * 2 ^ 20 / (65536 * ((s.securedBlocks p).length + 1) + 4 * (s.securedBlocks p).length)

/-- Room is made for a new image: a partner drain takes the slot of the oldest, complete or not (R431), a Sepia drain overwrites the oldest (R433). -/
def State.makeRoom (s : State) (p : Part) (tier : Nat) (x : Secure) : Secure :=
  let waits := (x.late.filter fun l => l.img.tier = tier).length
  match tier with
  | 0 =>
    let slots := (x.reserve.getD []).length
    let lost := if slots ≤ waits then (x.late.find? fun l => l.img.tier = 0) else none
    { x with images := keepImages 0 (slots - 1 - waits) false x.images, late := x.late.filter fun l => some l ≠ lost }
  | 1 => { x with images := keepImages 1 (s.shareImages p - 1 - waits) true x.images }
  | _ => x

/-- The epoch before, which every tower has closed, goes on waiting for its completion beside the new one (R424). -/
def Secure.shelve (x : Secure) : Secure :=
  match x.epoch with
  | some i => { x with epoch := none, late := x.late ++ [⟨i, x.commit, x.commitAt, x.nandPos⟩] }
  | none => x

/-! ### HOLD of the lost-step bound and of the pool -/

/-- A descriptor whose step the bound now lets start drops its raise (R428). -/
def State.dropStepHolds (s : State) (p : Part) : State :=
  (List.finRange 8).foldl (fun s t => s.dropHold t p fun d => !d.checked && !s.stepBlocked p (mdStep d)) s

/-! ### The life of an epoch -/

/-- The key fingerprint (R423): the low 32 bits of the SHA-384 of OD 6130h. -/
def State.fingerprint (s : State) (p : Part) : W32 := (Config.sha384 (leBytes 8 (s.reg 0x6130 (p.val + 1)))).setWidth 32

/-- A tower's directory at the open: every block Pending. -/
def openDirectory (l : List Nat) : TowerEpoch := ⟨l.map fun a => ⟨a, .pending, none, [], []⟩, false⟩

/-- An epoch for `step` opens in every tower that holds a secured range (R425, R426). -/
def State.openEpoch (old : State) (p : Part) (step : W64) (tier : Nat) (e : MemEcc) : State :=
  let r := old.devRead e (old.reg 0x6172 (p.val + 1)) 32
  let s := r.2
  let img : Image := {
    tier := tier, step := step, opened := s.time, device := BitVec.ofNat 16 (s.reg 0x1020 0), ranges := fit 0 1024 (s.dom 0x6173 (p.val + 1))
    finger := s.fingerprint p, recd := rawBytes r.1, crcs := [], inconsistent := leNat ((rawBytes r.1).drop 8 |>.take 8) ≠ step.toNat
    poisoned := anyPoison r.1, complete := false, clean := false, spoiled := false, passOk := false }
  let s := (s.prt p).towers.zipIdx.foldl (fun s (t, k) =>
    let l := s.towerBlocks p k t
    if l = [] then s else s.modTwr t fun x => { x with epochs := vset x.epochs p (some (openDirectory l)) }) s
  State.noteEpoch old p <| (s.setReg 0x6141 (p.val + 1) 0).modSec p fun x => { s.makeRoom p tier x.shelve with
    epoch := some img, commit := false, nandPos := 0, yielded := false, slotTurn := if tier = 0 then x.slotTurn + 1 else x.slotTurn }

/-- Drain reads stop: Pending blocks go to Out, Shadowed ones return (R437). -/
def SecBlock.abort (b : SecBlock) : SecBlock :=
  match b.st with
  | .pending => { b with st := .out }
  | .shadowed => { b with st := .returning }
  | _ => b

/-- The epoch in progress ends without an image in every tower. -/
def State.dropEpoch (s : State) (p : Part) : State :=
  let s := (List.finRange 8).foldl (fun s t =>
    (s.modEpoch t p fun e => { e with blocks := e.blocks.map SecBlock.abort, aborted := true }).closeEpoch t p |>.dropHold t p fun d => d.checked) s
  s.modSec p fun x => { x with epoch := none, commit := false }

/-- An epoch is aborted (R437), which is counted. -/
def State.abortEpoch (s : State) (p : Part) : State :=
  if (s.sec p).epoch.isNone then s else State.noteEpoch s p ((s.dropEpoch p).count 0x9092 (p.val + 1))

/-- A tower is gone: its descriptors are abandoned, and an epoch that drained from it ends with OD 6141h at 11b (R174, R437). -/
def State.towerGone (t : Twr) (s : State) (p : Part) : State :=
  let s' := if (vget (s.twr t).epochs p).isSome then (if (s.sec p).epoch.isSome then s.dropEpoch p else s).setReg 0x6141 (p.val + 1) 3 else s
  State.noteEpoch s p (s'.modTwr t fun x => { x with mq := vset x.mq p [], xq := vset x.xq p [], epochs := vset x.epochs p none })

/-! ### Tower loss and retirement (R173, R174) -/

/-- Stations, vats and program counters of a partition's fetches and puts that are in flight to a tower (R208). -/
def State.towerVats (s : State) (p : Part) (t : Twr) : List (St × Nat × Nat) :=
  let hits (a : Nat) : Bool := match place a with
    | .tower u _ => u = t
    | _ => false
  ((s.fetches.filter fun f => s.jobAt f.st = some p && !f.remote && !f.dropped && f.data.isNone && f.parts.any fun x => x.data.isNone && hits x.addr).map fun f =>
    (f.st, f.vat.val, f.pc)) ++
  (s.writes.filter fun w => w.part = p && w.parts.any fun x => hits x.1).map fun w => (w.who, w.vat, w.pc)

/-- A fault that strikes transfers is recorded at the station and vat that issued each (R208). -/
def State.strike (s : State) (p : Part) (cls detail : Nat) (l : List (St × Nat × Nat)) : State :=
  l.foldl (fun s x => s.raise (some p) cls detail (siteStation x.1 x.2.1 x.2.2)) s

/-- A tower is lost (R174): its interface stops, each job with a window in it faults, at the tower and where each transfer that it strikes was issued (R208), its descriptors are abandoned,
its epochs end, and it is retired. -/
def execTowerLoss (t : Twr) (s : State) : Host.Outcome State Fault Refusal :=
  if !s.towerUp t then noEvent s
  else
    let s := s.modTwr t fun x => { x with lost := true }
    let s := (List.finRange 4).foldl (fun s p =>
      if (s.towerWindow p t).isNone then s
      else
        let s := (s.strike p 9 0x0901 (s.towerVats p t)).towerGone t p
        if s.loaded p then s.raise (some p) 9 0x0901 (towerSite t 0xFF 0xFF noPc) else s) s
    next ((s.saveReg 0x8030 (t.val + 1) 3).resetCrossings (towerCrossings t.val))

/-- A tower that is marked for retirement is retired for a partition at the partition's job restart (R173): its contents are lost to that job. Once no partition with a window in it is left,
the tower is retired whole, and R26 applies to every access. -/
def State.retireTower (s : State) (p : Part) (t : Twr) : State :=
  let s := (State.towerGone t s p).modTwr t fun x => { x with gone := vset x.gone p true }
  if (List.finRange 4).all fun q => (s.towerWindow q t).isNone || vget (s.twr t).gone q then
    (s.saveReg 0x8030 (t.val + 1) 2).resetCrossings (towerCrossings t.val)
  else s

/-- The epochs of a partition that drain to a tier are aborted, and with them closed ones that still wait for their completion; each is counted (R437). -/
def State.abortWhere (s : State) (p : Part) (ok : Image → Bool) : State :=
  let n := ((s.sec p).late.filter fun l => ok l.img).length
  let s := if n = 0 then s else (s.modSec p fun x => { x with late := x.late.filter fun l => !ok l.img }).count 0x9092 (p.val + 1) n
  match (s.sec p).epoch with
  | some i => if ok i then s.abortEpoch p else s
  | none => s

def State.abortTier (s : State) (ok : Part → Image → Bool) : State := (List.finRange 4).foldl (fun s p => s.abortWhere p (ok p)) s

/-- Output port of the route that OD 6176h names. -/
def State.partnerPort (s : State) (p : Part) : Nat := bits (s.routeEntry p (bits (s.reg 0x6176 (p.val + 1)) 57 48)) 115 111

/-- A lost port aborts the epochs that drain through it (R437). -/
def State.abortPort (s : State) (q : PortId) : State := s.abortTier fun p i => i.tier = 0 && s.partnerPort p = q.val

/-- An image takes its place among those held, newest first. -/
def insertImage (i : Image) : List Image → List Image
  | [] => [i]
  | j :: l => if j.opened.toNat ≤ i.opened.toNat then i :: j :: l else j :: insertImage i l

/-- An image is complete (R428, R432, R433, R436); it is clean at once where the rest of R439 is met. -/
def State.holdImage (s : State) (p : Part) (i : Image) : State :=
  (s.modSec p fun x => { x with
    images := insertImage { i with complete := true, clean := i.passOk } x.images
    sc := some (max (x.sc.getD (i.step.toNat : Int)) (i.step.toNat : Int)) }).dropStepHolds p

/-- The image of the epoch in progress is complete. -/
def State.completeImage (s : State) (p : Part) : State :=
  match (s.sec p).epoch with
  | none => s
  | some i => (s.modSec p fun x => { x with epoch := none, commit := false }).holdImage p i

/-- Image `k` of the closed ones is complete. -/
def State.completeLate (s : State) (p : Part) (k : Nat) : State :=
  match (s.sec p).late[k]? with
  | none => s
  | some l => (s.modSec p fun x => { x with late := ldel x.late k }).holdImage p l.img

/-- The Sepia tier is retired live (R435). -/
def State.retireSepia (s : State) : State :=
  (s.saveReg 0x617C 0 (2 ^ 24 + s.reg 0x617C 0 % 2 ^ 24)).abortTier fun _ i => i.tier = 1

end Sys2Proof.Machine
end

