-- ==== Sys2Proof/Machine/Calendar.lean ====
section
/-!
DEFINITION. Frames, beats and HOLD (R221 to R235, R287), hold groups (R317, R381 to R384), and the mesh calendar (R226 to R228).
-/
namespace Sys2Proof.Machine

/-! ### Ports as the calendar sees them -/

def State.port (s : State) (p : PortId) : Port := vget s.ports p
def State.modPort (s : State) (p : PortId) (f : Port → Port) : State := { s with ports := vmod s.ports p f }

/-- State code of a port (Table 11-8). -/
def State.portState (s : State) (p : PortId) : Nat := s.reg 0x5001 (p.val + 1) % 16

def stDown : Nat := 0
def stDetect : Nat := 1
def stEqualise : Nat := 2
def stAlign : Nat := 3
def stAuth : Nat := 4
def stUp : Nat := 5
def stHeld : Nat := 6
def stRetired : Nat := 7

def State.portUp (s : State) (p : PortId) : Bool := s.portState p = stUp

/-- Restricted under R323. -/
def State.restricted (s : State) (p : PortId) : Bool := bit (s.reg 0x5001 (p.val + 1)) 7

def sitePort (p : PortId) : Site := ⟨2, p.val, noLoc2, noPc⟩

/-- Hold group of a partition (OD 5500h): group ID and hold link mask when enabled. -/
def State.holdGroup (s : State) (p : Part) : Option (Nat × Nat) :=
  let v := s.reg 0x5500 (p.val + 1)
  if bit v 63 then some (bits v 47 32, bits v 27 0) else none

/-- The port meets R381 for the partition. -/
def State.meetsHold (s : State) (p : Part) (q : PortId) : Bool :=
  match s.holdGroup p with
  | some (g, m) => s.portOwner q = some p && bit m q.val && s.portUp q && !s.restricted q && (s.port q).group = some (BitVec.ofNat 16 g)
  | none => false

/-- The port is a hold link of the partition's job: one of those fixed at its start, and it still meets R381 (R381, R506). -/
def State.holdLink (s : State) (p : Part) (q : PortId) : Bool := (s.prt p).links.contains q && s.meetsHold p q

def State.holdLinks (s : State) (p : Part) : List PortId := (List.finRange 28).filter (s.holdLink p)

/-- Frame and window in progress. -/
def State.frameNo (s : State) : Nat := s.time.toNat / 512
def State.windowNo (s : State) : Nat := s.time.toNat / 4096

/-- HOLD has been seen for window `w` on a port that was a hold link of the partition then, whatever has become of the link since (R318, R382). -/
def State.sawHold (s : State) (p : Part) (w : Nat) : Bool := (s.prt p).heard.contains w

/-- The device asserts HOLD for the partition in the current window, of itself or as a relay (R229, R382). -/
def State.asserts (s : State) (p : Part) : Bool := (s.prt p).asserted || s.sawHold p s.windowNo

/-! ### Sequenced blocks past their slots -/

/-- Blocks sent and not acknowledged. -/
def Port.sentCount (x : Port) : Nat := (x.snd + 4096 - x.oldest) % 4096

/-- The sequenced blocks not yet sent. -/
def Port.unsent (x : Port) : List Block := x.buf.drop x.sentCount

/-- Place of a block slot counted over all frames. -/
def slotTime (frame slot : Nat) : Nat := frame * 752 + slot

/-- A block waits past its scheduled slot. -/
def Block.past (b : Block) (now : Nat) : Bool := b.slot ≠ 0x3FF && slotTime b.frame b.slot < now

/-- Sequenced blocks of a port that wait past their scheduled slots at a frame mark (R317). -/
def Port.late (x : Port) (frame : Nat) : Nat := (x.unsent.filter fun b => b.past (slotTime frame 0)).length

/-! ### The fabric time service (R376 to R380) -/

/-- The port names a parent of OD 5400h, 1Fh being none. -/
def parentPort (v : Nat) : Option PortId := if v < 28 then some (fin v) else none

/-- The parent port and the alternate (OD 5400h); a root has none. -/
def State.parents (s : State) : Option PortId × Option PortId :=
  let v := s.reg 0x5400 0
  if bit v 15 then (none, none) else (parentPort (bits v 12 8), parentPort (bits v 4 0))

/-- The port that is followed now: the one in use while it is UP, else the other. -/
def State.timeParent (s : State) : Option PortId :=
  let up (q : Option PortId) : Option PortId := q.filter fun q => s.portUp q
  let a := up s.parents.1
  let b := up s.parents.2
  if s.clk.alt then b.or a else a.or b

/-- OD 5401h of a follower: depth, parent in last resort, aligned, last offset. -/
def State.setTimeStatus (s : State) (depth : Nat) (lastResort aligned : Bool) (off : Nat) : State :=
  s.setReg 0x5401 0 (off % 65536 + (if aligned then 2 ^ 16 else 0) + (if lastResort then 2 ^ 17 else 0) + depth % 256 * 2 ^ 24)

def State.aligned (s : State) : Bool := bit (s.reg 0x5401 0) 16

/-- An event 0Dh of the time domain for every partition with a loaded job (R298, R378). -/
def State.timeEvent (s : State) : State :=
  (List.finRange 4).foldl (fun s p => if s.loaded p then s.raise (some p) 0x0D 0x0D02 (siteSteward noLoc2) else s) s

/-- The device leaves alignment (R378). -/
def State.unalign (s : State) : State :=
  if s.aligned then (s.setReg 0x5401 0 (s.reg 0x5401 0 - 2 ^ 16)).timeEvent else s

/-- A lost port that was followed hands over to the other parent; with none left the device is unaligned (R377). -/
def State.timeLost (s : State) (q : PortId) : State :=
  let pa := s.parents
  let other := if pa.1 = some q then !s.clk.alt else if pa.2 = some q then s.clk.alt else false
  let s := if other then { s with clk := { s.clk with alt := !s.clk.alt, goodX := 0, badX := 0 } } else s
  if s.timeParent.isNone && (pa.1 = some q || pa.2 = some q) then s.unalign else s

/-- A follower without a parent left is unaligned (R377). -/
def State.checkParent (s : State) : State := if !bit (s.reg 0x5400 0) 15 && s.timeParent.isNone then s.unalign else s

/-- OD 5400h has taken a value other than before (R376, R377, R385): what was counted of the parents before is void, a root has depth 0 and no parent to be aligned to, and a follower without a parent in UP
is unaligned. -/
def State.roleChanged (s : State) : State :=
  let s := { s with clk := { s.clk with alt := false, goodX := 0, badX := 0 } }
  if bit (s.reg 0x5400 0) 15 then s.setReg 0x5401 0 0 else s.checkParent

/-- A stamp in 1/256 ns as a block carries it (R312): the ns, then the fraction. -/
def stampBytes (t : BitVec 72) : List Byte := leBytes 8 (t.toNat / 256) ++ [BitVec.ofNat 8 t.toNat]
def readStamp (l : List Byte) : BitVec 72 := BitVec.ofNat 72 (leNat (l.take 8) * 256 + leNat ((l.drop 8).take 1))

/-- Depth in the time tree: 0 of a root (R376). -/
def State.depth (s : State) : Nat := if bit (s.reg 0x5400 0) 15 then 0 else bits (s.reg 0x5401 0) 31 24

/-- What a time block carries after its transmit stamp (R376): kind, the stamps it echoes, source, depth, hold group ID. -/
def State.timePayload (s : State) (q : PortId) (kind : Nat) (t1 t2 : BitVec 72) : List Byte :=
  let group := match s.portOwner q with
    | some p => match s.holdGroup p with
      | some g => g.1
      | none => 0xFFFF
    | none => 0xFFFF
  leBytes 1 kind ++ stampBytes t1 ++ stampBytes t2 ++ leBytes 1 (s.reg 0x4402 0) ++ leBytes 1 s.depth ++ leBytes 2 group

/-- Every port in UP sends a sync each 16 frames; a device in last resort asks its parent each 4 (R376, R380). -/
def State.syncDue (s : State) (q : PortId) : Bool :=
  s.portUp q && (s.frameNo % 16 = 0 || (s.frameNo % 4 = 0 && s.reg 0x4402 0 = 3 && s.timeParent = some q))

/-! ### Raises -/

/-- Where a station's look-ahead stands at a control instruction that reads a pending register (R252). -/
def State.lookStop (s : State) (p : Part) (st : St) : Option Nat := (lookAhead (s.stn st) (s.prt p).prog).2

/-- Towers that hold a partition's Madder descriptor back with a raise (R190, R428). -/
def State.towerRaises (s : State) (p : Part) : List Twr :=
  (List.finRange 8).filter fun t => (vget (s.twr t).mq p).any fun d => d.hold

/-- Ports of the partition that raise (R317). -/
def State.portRaises (s : State) (p : Part) : List PortId :=
  (List.finRange 28).filter fun q => s.portOwner q = some p && (s.port q).hold

/-- A raise of the partition is outstanding (R229, R384). -/
def State.raised (s : State) (p : Part) : Bool :=
  let x := s.prt p
  x.faultRaise || (x.pos.any fun st => !(s.stn st).sq.raises.isEmpty || (s.stn st).sq.laRaise) || s.towerRaises p ≠ [] ||
  s.portRaises p ≠ [] || s.fab.raises.any fun r => r.1 = p

/-- Raises that stand (R229): those whose instruction has become ready have ended. -/
def State.pruneRaises (s : State) (p : Part) (st : St) : State :=
  s.modSt st fun x => { x with sq := { x.sq with
    raises := x.sq.raises.filter fun r => s.raiseStands p st r.1
    laRaise := x.sq.laRaise && (s.lookStop p st).isSome } }

/-! ### The frame mark (R222, R224, R252, R287, R317, R372) -/

/-- The head of a unit queue that waits on a mordant has waited for one more unheld frame (R233). -/
def ageQueue (s : State) (x : Station) (u : UnitQ) : Station :=
  match waitsOn x u, x.queue u with
  | some (_, m, t), e :: q => if (s.mor m).count.toNat < t.toNat then x.setQueue u ({ e with waited := e.waited + 1 } :: q) else x
  | _, _ => x

/-- The heads of a station's unit queues. -/
def State.ageWaits (s : State) (st : St) : State := s.modSt st fun x => allUnits.foldl (ageQueue s) x

/-- A station at the start of calendar frame `f`; `fresh` is false in a held frame, which starts no beat. -/
def State.stationFrame (s : State) (p : Part) (f : W64) (fresh : Bool) (st : St) : State :=
  let rs := if fresh then s.beatRaises p st f else []
  let la := (s.lookStop p st).isSome
  let s := if fresh then s.ageWaits st else s
  let made := rs.length + (if la && !(s.stn st).sq.laRaise then 1 else 0)
  let s := if made = 0 then s else s.count 0x9051 (st.val + 1) made
  s.modSt st fun x => { x with sq := { x.sq with raises := x.sq.raises ++ rs, laRaise := la } }

/-- The calendar of a partition at a frame mark (R222, R229, R230): the counter advances unless the frame that ends was held, and the beats of a frame are
checked when it runs unheld. -/
def State.partFrame (s : State) (p : Part) : State :=
  let x := s.prt p
  if x.jobState ≠ 3 then s
  else
    let f : W64 := if !x.frameOn then 0 else if x.frameHeld then x.frame else x.frame + 1
    x.pos.foldl (fun s st => s.stationFrame p f (!x.held) st) (s.modPart p fun x => { x with frame := f, frameOn := true, frameHeld := x.held })

/-- Bytes of blocks that wait in the combine buffer of a group. -/
def RedGroup.bytes (g : RedGroup) : Nat := 256 * g.waiting.length

/-- The reduction engines that raise: a combine buffer more than half full (R372). -/
def State.combineRaises (s : State) : List (Part × Eng) :=
  (s.fab.groups.filter fun g => bits (s.groupEntry g.part g.grp) 91 81 * 65536 < 2 * g.bytes).map fun g =>
    (g.part, fin (bits (s.groupEntry g.part g.grp) 254 253))

/-- A port at a frame mark: its slot count restarts, its raise starts or ends, a sync is due (R287, R317, R376). -/
def State.portFrame (s : State) (q : PortId) : State :=
  let sync := if s.syncDue q then [s.timePayload q 0 0 0] else []
  s.modPort q fun x =>
    let n := x.late s.frameNo
    { x with slot := 0, hold := if n = 0 then false else x.hold || decide (704 < n), timeQ := x.timeQ ++ sync }

/-- A station island at the end of a frame: 8 frames in a row with a margin warning make it suspect (R408). -/
def State.marginFrame (s : State) (st : St) : State :=
  let hit := decide (s.reg 0x7040 0 ≤ vget s.clk.stretch (fin st.val))
  let s := s.modHealth st fun h => { h with marginRun := if hit then h.marginRun + 1 else 0 }
  if 8 ≤ (s.hlt st).marginRun then (s.suspect st).modHealth st fun h => { h with marginRun := 0 } else s

/-- Cycles of a station in the frame that ends, in thousandths of an sc: a stretched cycle takes the time of two (R287). -/
def State.frameSc (s : State) (st : St) : Nat := 512 * s.reg 0x4101 (st.val + 1) - 1000 * vget s.clk.stretch (fin st.val)

/-- The stations of a job count the cycles of the calendar frame that ends, unless it was held (R235, R287). -/
def State.countSc (s : State) (p : Part) : State :=
  let x := s.prt p
  if x.jobState ≠ 3 || !x.frameOn || x.frameHeld then s
  else x.pos.foldl (fun s st => s.modHealth st fun h => { h with spanSc := h.spanSc + s.frameSc st }) s

/-- A frame mark (R287): slot and stretch counts restart, calendars advance, beats are checked. At a window boundary the window mark comes first, so that a raise
of this frame is asserted in the next window (R229). -/
def execFrameMark (s : State) : Host.Outcome State Fault Refusal :=
  if s.time.toNat % 512 ≠ 0 || s.clk.frameMark = some s.time || (s.time.toNat % 4096 = 0 && s.clk.windowMark ≠ some s.time) then noEvent s
  else
    let s := (List.finRange 4).foldl State.countSc ((List.finRange 18).foldl State.marginFrame s)
    let s := { s with clk := { s.clk with stretch := Vector.replicate 73 0, frameMark := some s.time } }
    let s := (List.finRange 28).foldl State.portFrame s
    let s := { s with fab := { s.fab with raises := s.combineRaises } }
    next ((List.finRange 4).foldl State.partFrame s)

/-! ### The window mark (R229, R232, R382, R383) -/

/-- A hold link that showed no HOLD for window `w` although the member holds: a hold timeout, or a check put off to the end of a sight gap. -/
def State.checkLink (p : Part) (w : Nat) (s : State) (q : PortId) : State :=
  if (s.port q).seen.contains w then s
  else if (s.port q).gap then s.modPort q fun x => { x with gapCheck := some w }
  else s.raise (some p) 6 0x0600 (sitePort q)

/-- A partition at a window boundary; `w` is the window that ends. -/
def State.partWindow (w : Nat) (s : State) (p : Part) : State :=
  if !s.loaded p then s.modPart p fun x => { x with held := false, asserted := false, heldRun := 0 }
  else
    let held := (s.prt p).asserted || s.sawHold p w
    let s := if held then (s.holdLinks p).foldl (State.checkLink p w) s else s
    let s := if held then s.count 0x9050 (p.val + 1) else s
    let s := (s.prt p).pos.foldl (fun s st => s.pruneRaises p st) s
    s.modPart p fun x => { x with held := held, heldRun := if held then x.heldRun + 1 else 0, asserted := s.raised p }

/-- A window mark: each partition samples HOLD and decides (R229). -/
def execWindowMark (s : State) : Host.Outcome State Fault Refusal :=
  if s.time.toNat % 4096 ≠ 0 || s.clk.windowMark = some s.time then noEvent s
  else
    let w := s.windowNo
    let s := { s with clk := { s.clk with windowMark := some s.time } }
    let s := (List.finRange 4).foldl (State.partWindow (w - 1)) s
    next { s with
      ports := s.ports.map fun x => { x with seen := x.seen.filter fun v => decide (w ≤ v) }
      parts := s.parts.map fun x => { x with heard := x.heard.filter fun v => decide (w ≤ v) } }

/-- A port in UP has received no CRC-good block for 32 ns (R320). -/
def execHoldSightGap (port : PortId) (s : State) : Host.Outcome State Fault Refusal :=
  if !s.portUp port || (s.port port).gap then noEvent s
  else next ((s.modPort port fun x => { x with gap := true }).count 0x9075 (port.val + 1))

/-- The check that a sight gap put off (R383), at the end of the gap or 1 µs after the sampling point, the end of its window. -/
def execSightGapDeferredCheck (port : PortId) (s : State) : Host.Outcome State Fault Refusal :=
  match (s.port port).gapCheck, s.portOwner port with
  | some w, some p =>
    let shown := (s.port port).seen.contains w
    if (s.port port).gap && s.time.toNat < (w + 1) * 4096 + 1000 then noEvent s
    else
      let s := s.modPort port fun x => { x with gapCheck := none }
      if shown || !s.loaded p then next s else next (s.raise (some p) 6 0x0600 (sitePort port))
  | _, _ => noEvent s

def reduceSite (g : Eng) (st pc : Nat) : Site := ⟨4, reduceNode g, (0x10 + g.val) * 256 + st, pc⟩

/-- Sites of every raiser of a partition: stations by the instruction or the look-ahead, towers, reduction engines, ports (R232). -/
def State.holdRaisers (s : State) (p : Part) : List Site :=
  ((s.prt p).pos.flatMap fun st =>
    (s.stn st).sq.raises.map (fun r => siteStation st noLoc2 r.2) ++
    (if (s.stn st).sq.laRaise then [siteStation st noLoc2 ((s.lookStop p st).getD noPc)] else [])) ++
  ((s.towerRaises p).map fun t => towerSite t 0 0xFF noPc) ++ ((s.fab.raises.filter fun r => r.1 = p).map fun r => reduceSite r.2 0xFF noPc) ++
  (s.portRaises p).map sitePort

/-- The group has been held for longer than OD 6151h (in ms): every raiser records fault 06h (R232). -/
def execHoldStallLimit (p : Part) (s : State) : Host.Outcome State Fault Refusal :=
  let x := s.prt p
  if !x.held || x.heldRun * 4096 + s.time.toNat % 4096 ≤ 4096 + s.reg 0x6151 (p.val + 1) * 1000000 then noEvent s
  else
    let s := (s.prt p).pos.foldl (fun s st => s.pruneRaises p st) s
    next ((s.holdRaisers p).foldl (fun s l => s.raise (some p) 6 0x0602 l) s)

/-- The gate of a calendar instruction names a failed mordant (R362). -/
def State.gateFailed (s : State) (e : Entry) : Bool := calGate e.word && (s.mor (calGMor e.word)).failed

/-- A ready transfer starts in frame b + 16 or later (R224, R230): its raise has ended. A gate on a failed mordant ends in fault 08h instead (R362). -/
def execTransferStart (st : St) (u : UnitQ) (s : State) : Host.Outcome State Fault Refusal :=
  match (s.stn st).queue u, s.jobAt st with
  | e :: q, some p =>
    if isCalendar e.word && !e.started && s.gateFailed e then next (s.failedWait p (calGMor e.word) e.pc)
    else if !isCalendar e.word || e.started || (s.prt p).held || !(s.prt p).frameOn || !leadOver (s.prt p).frame e.beat
      || !s.calReady p st u e then noEvent s
    else next (s.modSt st fun x =>
      let y := x.setQueue u ({ e with started := true } :: q)
      { y with sq := { y.sq with raises := y.sq.raises.filter fun r => r.1 ≠ e.seq } })
  | _, _ => noEvent s

def spanFrames : Nat := 1048576

/-- The measured share of one station in units of 0.01 %, of the cycles that it has counted itself in the span, and the event of a share below 0.5 % (R235, R287). -/
def State.shareOf (p : Part) (s : State) (st : St) : State :=
  let sc := (s.hlt st).katSc
  let all := (s.hlt st).spanSc / 1000
  let s := (s.setReg 0x9052 (st.val + 1) (if all = 0 then 0 else min (sc * 10000 / all) 0xFFFF)).modHealth st fun h => { h with katSc := 0, spanSc := 0 }
  if sc * 200 < all then s.raise (some p) 0x0D 0x0D00 (siteStation st noLoc2 noPc) else s

/-- A span of 1,048,576 calendar frames ends (R235). -/
def execTestShareSpanEnd (p : Part) (s : State) : Host.Outcome State Fault Refusal :=
  let x := s.prt p
  if x.jobState ≠ 3 || x.frame.toNat < x.spanAt.toNat + spanFrames then noEvent s
  else next (x.pos.foldl (State.shareOf p) (s.modPart p fun x => { x with spanAt := x.spanAt + BitVec.ofNat 64 spanFrames }))

/-! ### Routers (R226 to R228, R394) -/

def dirNo : Dir → Nat
  | .north => 0
  | .east => 1
  | .south => 2
  | .west => 3
  | .unit => 4

/-- Location of a record at a node and edge. -/
def siteEdge (node : Nat) (d : Dir) : Site := ⟨1, node, Config.edgeCode (dirNo d), noPc⟩

/-- Scheduled slot of a flit on its outgoing edge, counted over all frames of 960 slots that routers launch in (R221, R226). -/
def flitSlot (f : MeshFlit) : Nat := f.frame.toNat * 960 + f.slot + f.vert + 3 * f.horiz

/-- The first slot in which a flit that arrives now can be launched: a router launches none in the slots from 960 on (R221). -/
def arrivalSlot (f : MeshFlit) : Nat := f.atFrame.toNat * 960 + min f.atSlot 960

/-- The edge is taken in a slot, by a scheduled flit or by one of `late`. -/
def edgeBusy (mesh : List MeshUse) (late : List LateFlit) (node : Nat) (d : Dir) (t : Nat) : Bool :=
  (mesh.any fun u => u.node = node && u.out = d && u.slot = t) || late.any fun l => l.node = node && l.out = d && l.send = t

/-- The first free slot of an edge from `t` on, within `fuel` slots. -/
def freeFrom (mesh : List MeshUse) (late : List LateFlit) (node : Nat) (d : Dir) : Nat → Nat → Nat
  | 0, t => t
  | fuel + 1, t => if edgeBusy mesh late node d t then freeFrom mesh late node d fuel (t + 1) else t

/-- A number in its place among numbers that fall. -/
def insertDown (n : Nat) : List Nat → List Nat
  | [] => [n]
  | m :: l => if m ≤ n then n :: m :: l else m :: insertDown n l

/-- When a late flit that stands at an input from `t` on is taken into the late buffer of 4: at once, or when the fourth last of those ahead of it has been sent (R226, R227). -/
def bufferFrom (late : List LateFlit) (node : Nat) (inp : Dir) (t : Nat) : Nat :=
  let sends := ((late.filter fun l => l.node = node && l.inp = inp).map (·.send)).foldr insertDown []
  match sends[3]? with
  | some u => max t (u + 1)
  | none => t

/-- One late flit takes its slot: the first one of its edge that no scheduled flit and no earlier late flit has. -/
def planLate (mesh : List MeshUse) (done : List LateFlit) (l : LateFlit) : List LateFlit :=
  done ++ [{ l with send := freeFrom mesh done l.node l.out 4096 (bufferFrom done l.node l.inp l.enter) }]

/-- The late flits of all routers, planned anew: those that are sent before `now` stay as they are (R227). -/
def replan (mesh : List MeshUse) (now : Nat) (late : List LateFlit) : List LateFlit :=
  (late.filter fun l => decide (now ≤ l.send)).foldl (planLate mesh) (late.filter fun l => decide (l.send < now))

/-- When a flit that stands at an input now can be taken by the router: behind every late flit that still waits in the crossing (R227). -/
def State.inputFrom (s : State) (node : Nat) (inp : Dir) (now : Nat) : Nat :=
  let here := s.clk.late.filter fun l => l.node = node && l.inp = inp
  (here.zipIdx.map fun (l, i) => bufferFrom (here.take i) node inp l.enter).foldl max now

/-- The crossing by which an input of a node is reached. -/
def inputCrossing (n : Nat) (d : Dir) : Option (Nat × Nat) := (edgeCrossing n d).map fun c => (c.2, c.1)

/-- Slots that have begun, counted over all frames as routers count them. -/
def State.slotsNow (s : State) : Nat := s.time.toNat / 512 * 960 + min (s.time.toNat % 512 * 2) 960

/-- Owners of the late flits that a full late buffer holds back at the head of a crossing (R227). -/
def State.lateOwners (s : State) (c : Nat × Nat) : List (Option Part) :=
  (s.clk.late.zipIdx.filter fun (l, i) => inputCrossing l.node l.inp = some c && decide (l.enter ≤ s.slotsNow) &&
    decide (s.slotsNow < bufferFrom (s.clk.late.take i) l.node l.inp l.enter)).map fun (l, _) => some l.owner

/-- Early flits of an input, which wait in its crossing for their slots (R288). -/
def State.earlyAt (s : State) (node : Nat) (inp : Dir) (now : Nat) : Nat :=
  (s.clk.mesh.filter fun u => u.node = node && u.inp = inp && now < u.slot).length

/-- A router takes a flit from an input (R22, R24, R25): the edges exist, its column runs, and the crossing of the input holds fewer than 8 early flits. -/
def State.routerTakes (s : State) (node : Nat) (inp : Dir) (f : MeshFlit) : Bool :=
  edgeExists node inp && edgeExists node f.out && s.islandRuns (col (nodeCol node)) && s.earlyAt node inp (arrivalSlot f) < 8

/-- A flit reaches a router (R226 to R228, R288, R394). One that is too late, or that a late one ahead of it holds back, is sent in the first slot of its edge that carries no scheduled flit;
of two flits with one scheduled slot the second goes a slot later. A flit sent into a crossing whose read side takes nothing waits there (R289); before one that accepts nothing it waits
in the router (R292, R492). -/
def execFlitArrivalAtRouter (node : Fin 192) (inp : Dir) (f : MeshFlit) (s : State) : Host.Outcome State Fault Refusal :=
  if !s.routerTakes node.val inp f then noEvent s
  else if f.routeDead then next (s.raise (some f.owner) 4 0x0402 (siteEdge node.val inp))
  else
    let now := arrivalSlot f
    let t := flitSlot f
    let mesh := s.clk.mesh.filter fun u => decide (now ≤ u.slot + 960)
    let other := mesh.find? fun u => u.node = node.val && u.out = f.out && u.slot = t
    let late := decide (t < s.inputFrom node.val inp now)
    let mesh := mesh ++ [⟨node.val, inp, f.out, t, f.owner⟩]
    let lates := s.clk.late.filter fun l => decide (now ≤ l.send + 960)
    let lates := if late then lates ++ [⟨node.val, inp, f.out, now, now, f.owner⟩]
      else if other.isSome then lates ++ [⟨node.val, inp, f.out, t + 1, t + 1, f.owner⟩] else lates
    let items := match edgeCrossing node.val f.out with
      | some c => if s.blocked c then s.clk.items ++ [⟨c.1, c.2, some f.owner, s.crossingOpen c⟩] else s.clk.items
      | none => s.clk.items
    let s := { s with clk := { s.clk with mesh := mesh, late := replan mesh now lates, items := items } }
    let s := if late then s.count 0x9053 (node.val % 16 + 1) else s
    match other with
    | none => next s
    | some u =>
      let s := s.raise (some u.owner) 1 0x0102 (siteEdge node.val f.out)
      next (if u.owner = f.owner then s else s.raise (some f.owner) 1 0x0102 (siteEdge node.val f.out))

end Sys2Proof.Machine
end

