-- ==== Sys2Proof/Machine/Link.lean ====
section
/-!
DEFINITION. Lomkeva ports (R301 to R336): blocks, delivery and replay, HOLD in blocks, training, authentication, sparing and loss.
-/
namespace Sys2Proof.Machine

/-! ### Block format (R308 to R310) -/

/-- One byte into the reflected CRC-32C of R310. -/
def crc32cByte (c : Nat) (b : Byte) : Nat :=
  (List.range 8).foldl (fun c _ => if c % 2 = 1 then c / 2 ^^^ 0x82F63B78 else c / 2) (c ^^^ b.toNat)

/-- CRC-32C with initial value and final exclusive-or FFFF_FFFFh (R310). -/
def crc32c (l : List Byte) : Nat := l.foldl crc32cByte 0xFFFFFFFF ^^^ 0xFFFFFFFF

/-- What a port puts into bytes 0 to 11 besides NET (Table 11-2). -/
structure Head where
  type : Nat
  slot : Nat
  seq : Nat
  ack : Nat
  nak : Bool
  hold : Bool
  hwin : Nat
  poison : Bool
  deriving DecidableEq, Repr

def b2n (b : Bool) : Nat := if b then 1 else 0

/-- Bytes 0 to 11 (Table 11-2). -/
def Head.bytes (h : Head) (net : Nat) : List Byte :=
  leBytes 12 (h.type + h.slot * 2 ^ 5 + h.seq * 2 ^ 15 + h.ack * 2 ^ 27 + b2n h.nak * 2 ^ 39 + b2n h.hold * 2 ^ 40 + h.hwin * 2 ^ 41 +
    b2n h.poison * 2 ^ 44 + net * 2 ^ 48)

/-- A whole block with its trailer (R308, R310). -/
def linkBlock256 (h : Head) (net : Nat) (payload : List Byte) : List Byte :=
  let l := h.bytes net ++ fit 0 240 payload
  l ++ leBytes 4 (crc32c l)

/-- The port's HOLD and HWIN (R318). -/
def State.holdField (s : State) (q : PortId) : Bool × Nat :=
  match s.portOwner q with
  | some p => (s.loaded p && s.asserts p, s.windowNo % 8)
  | none => (false, s.windowNo % 8)

/-- Header of a block the port sends now. -/
def State.headOf (s : State) (q : PortId) (type slot seq : Nat) (poison : Bool) : Head :=
  let h := s.holdField q
  ⟨type, slot, seq, (s.port q).e, (s.port q).nak, h.1, h.2, poison⟩

def State.sendBlock (s : State) (q : PortId) (b : List Byte) : State := s.emit (.block q b)

/-! ### Port loss and training (R321 to R323, R332 to R335) -/

def State.fallback (s : State) (q : PortId) : Bool := bit (s.reg 0x5001 (q.val + 1)) 6
def State.reversed (s : State) (q : PortId) : Bool := bit (s.reg 0x5001 (q.val + 1)) 5

/-- D exceeds 160 ns (OD 5003h in 0.25 ns). -/
def State.far (s : State) (q : PortId) : Bool := decide (640 < s.reg 0x5003 (q.val + 1))

/-- OD 5001h: restricted under R323, fallback rate, lanes reversed, D above 160 ns, state code. -/
def State.showPort (s : State) (q : PortId) (v : Nat) (fallback reversed : Bool) : State :=
  s.setReg 0x5001 (q.val + 1) (v + b2n (s.far q) * 16 + b2n reversed * 32 + b2n fallback * 64 + b2n ((decide (v = stUp) && fallback) || s.far q) * 128)

/-- The state code of a port changes (OD 5001h). DETECT starts at the full rate (R322); a port that leaves UP has no partner (OD 5002h), and a command of OD 5005h that
still runs there is done. -/
def State.setPortState (s : State) (q : PortId) (v : Nat) : State :=
  let s := s.showPort q v (s.fallback q && [stEqualise, stAlign, stAuth, stUp].contains v) (s.reversed q)
  if v = stUp then s
  else
    let s := s.setReg 0x5002 (q.val + 1) 0
    if s.reg 0x5005 (q.val + 1) = 2 then s.setReg 0x5005 (q.val + 1) 0 else s

/-- The rate and the lane order of a port (R304, R322). -/
def State.setPortFlags (s : State) (q : PortId) (fallback reversed : Bool) : State := s.showPort q (s.portState q) fallback reversed

/-- The conditions of R321: enabled, admitted, not retired; and its half powered and not being parked, the steward at work (R457). -/
def State.mayTrain (s : State) (q : PortId) : Bool :=
  s.stewardUp && s.reg 0x5000 (q.val + 1) = 1 && bit (s.reg 0x2120 (q.val + 1)) 63 && s.reg 0x8041 (q.val + 1) = 0 && s.halfUp (portHalf q) &&
  (!vget s.pwr.parking (halfNo (portHalf q)) || match s.pwr.trans with
    | some t => t.phase = .towers
    | none => false)

/-- What a port forgets when it leaves UP or restarts training (R321, R334, R353): all but what training and its lanes have given and the numbers of its messages. -/
def Port.clear (x : Port) : Port :=
  { Port.reset with
    mid := x.mid, amid := x.amid, refusals := x.refusals, failures := x.failures, slot := x.slot, los := x.los
    taps := x.taps, mode := x.mode, rxMap := x.rxMap, txMap := x.txMap, wire := x.wire }

/-- The port-loss notice at the stations: Dropping fetches through the port end, whose cancel has counted them already; fetches in flight fault (R206, R208). -/
def State.lossNotice (s : State) (q : PortId) : State :=
  let mine (f : Fetch) : Bool := f.remote && f.ports.contains q.val
  let dead := s.fetches.filter fun f => mine f && !f.dropped
  let gone := s.fetches.filter fun f => mine f && f.dropped
  let s := gone.foldl (fun s f => s.modSt f.st fun x => match x.vat f.vat with
    | some y => x.setVat f.vat (some (y.setSlot f.slot slot0))
    | none => x) s
  let s := { s with fetches := s.fetches.filter fun f => !mine f }
  dead.foldl (fun s f => s.faultAt f.st 7 0x0700 f.vat.val f.pc) s

/-- Transfers that were leaving through the port, on a route or on a tree, fault their stations (R208). -/
def State.dropXfers (s : State) (q : PortId) : State :=
  let dead := s.xfers.filter fun x => (s.xferPorts x).contains q
  let s' := { s with xfers := s.xfers.filter fun x => !(s.xferPorts x).contains q }
  (dead.filter fun x => x.kind ≠ .readReq && x.kind ≠ .readResp && x.vat < 33).foldl (fun s x => s.faultAt x.st 7 0x0700 (min x.vat 0xFFFF) x.pc) s'

/-- The job of a partition binds the port (R240). -/
def State.binds (s : State) (p : Part) (q : PortId) : Bool := s.loaded p && (s.prt p).ports.contains q

/-- A port loss (R334): buffer and queues discarded, fault 07h for the job that binds the port, the notice to the stations, the fabric services told. -/
def State.portLoss (s : State) (q : PortId) : State :=
  let s := s.modPort q Port.clear
  let s := match s.portOwner q with
    | some p => if s.binds p q then s.raise (some p) 7 0x0700 (sitePort q) else s
    | none => s
  (((s.lossNotice q).dropXfers q).abortPort q).count 0x9076 (q.val + 1)

/-- The state in which a lost port waits: DETECT, or DOWN while the steward restarts (R333, R457). -/
def State.lostState (s : State) (q : PortId) : Nat := if s.mayTrain q then stDetect else stDown

/-- A message to the partner, with the next MID (R325). -/
def Port.say (x : Port) (msg : Nat) (body : List Byte) : Port :=
  let m := (x.mid + 1) % 256
  { x with mid := m, msgs := x.msgs ++ [⟨m, msg, body, 0, 0, true⟩] }

/-- Bytes 12 to 251 of a link control block (R325). -/
def controlPayload (msg mid amid part parts : Nat) (body : List Byte) : List Byte :=
  [msg, mid, amid, part, parts, 0, 0, 0].map (BitVec.ofNat 8) ++ body

/-- A link control block leaves. It carries AMID, so that nothing is left to acknowledge. -/
def State.sendControl (s : State) (q : PortId) (msg mid part parts : Nat) (body : List Byte) : State :=
  (s.sendBlock q (linkBlock256 (s.headOf q 2 0x3FF (s.port q).snd false) 0 (controlPayload msg mid (s.port q).amid part parts body))).modPort q fun x =>
    { x with ackDue := false }

/-- A message that leaves at once and once only, since what sends it stops the port without waiting for an answer: a reset, a park, a removal, a disable (R327, R487, R492, R507). -/
def State.tellNow (s : State) (q : PortId) (msg : Nat) (body : List Byte) : State :=
  let m := ((s.port q).mid + 1) % 256
  (s.sendControl q msg m 0 1 body).modPort q fun x => { x with mid := m }

/-- Message ACK, which takes no MID of its own (Table 11-10). -/
def State.ackNow (s : State) (q : PortId) : State := s.sendControl q 0 (s.port q).mid 0 1 []

/-- A training takes the electrical mode of OD 5007h and measures the wire anew (R302, R324). -/
def State.startTraining (s : State) (q : PortId) : State :=
  let m := s.reg 0x5007 (q.val + 1)
  s.modPort q fun x => { x with mode := m, wire := none }

/-- The port retrains (R332, R334): the loss, then EQUALISE; DOWN while the steward restarts (R457). -/
def State.retrain (s : State) (q : PortId) : State :=
  if s.stewardUp then ((((s.portLoss q).modPort q fun x => { x with again := true }).startTraining q).setPortState q stEqualise).timeLost q
  else ((s.portLoss q).setPortState q stDown).timeLost q

/-- A cause of retraining: RETRAIN goes first, and the port retrains once it is acknowledged or given up (R325, R332). -/
def State.askRetrain (s : State) (q : PortId) : State :=
  if (s.port q).msgs.any (·.msg = 0x20) then s else s.modPort q fun x => x.say 0x20 []

/-- A lost or stopped port (R333): DETECT, or DOWN when it has been stopped. -/
def State.loseTo (s : State) (q : PortId) (v : Nat) : State :=
  ((s.portLoss q).setPortState q (if v = stDetect then s.lostState q else v)).timeLost q

/-- A port that is not in UP goes to DOWN. -/
def State.portDown (s : State) (q : PortId) : State := (s.modPort q Port.clear).setPortState q stDown

/-- GOODBYE, then DOWN (R335); counted as a loss when the port was in UP. -/
def State.goodbye (s : State) (q : PortId) : State :=
  if s.portState q = stUp then (s.tellNow q 0x21 []).loseTo q stDown
  else if s.portState q = stRetired then s
  else s.portDown q

/-- A port of a device that is removed closes (R327, R507): refusal 07h to a partner in AUTH, GOODBYE to one in UP, then DOWN. -/
def State.closePort (s : State) (q : PortId) : State :=
  if s.portState q = stAuth then (s.tellNow q 4 [7]).portDown q else s.goodbye q

/-- Command 02h of OD 5005h: GOODBYE goes first, and the port goes to DOWN once it is acknowledged or given up (R325, R335). -/
def State.askGoodbye (s : State) (q : PortId) : State :=
  if s.portState q ≠ stUp then s.goodbye q
  else if (s.port q).msgs.any (·.msg = 0x21) then s else s.modPort q fun x => x.say 0x21 []

/-- A port is stopped (R327, R333): a loss when it was UP, refusal 07h to a partner in AUTH, then DOWN. -/
def State.stopPort (s : State) (q : PortId) : State :=
  let v := s.portState q
  if v = stUp then s.loseTo q stDown
  else if v = stAuth then (s.tellNow q 4 [7]).portDown q
  else if v = stHeld || v = stRetired then s
  else s.portDown q

/-! ### Training sets (R304, R321, Table 11-9) -/

def setMark : Nat := 0xA5C30F965A3CF069

/-- A set as it was sent: an inverted MARK shows inverted polarity, a set whose CHK fails or whose RATE is reserved is ignored. -/
def goodSet (x : BitVec 256) : Option Nat :=
  let v := x.toNat
  let y := if bits v 255 192 = setMark then v else 2 ^ 256 - 1 - v
  if bits y 255 192 = setMark && bits y 15 0 = crc16 ((leBytes 32 y).drop 2) && (bits y 182 181 = 1 || bits y 182 181 = 2) then some y else none

/-- A set with its CHK. -/
def withChk (v : Nat) : BitVec 256 := BitVec.ofNat 256 (v / 2 ^ 16 * 2 ^ 16 + crc16 ((leBytes 32 v).drop 2))

/-- A set of this end for a lane. How far its receiver has converged and which coefficient of the partner it asks to change are free (assumption log 124). -/
def State.ownSet (s : State) (q : PortId) (lane stap csts : Nat) : BitVec 256 :=
  let w := (Config.freeWord s.draws).toNat
  withChk (setMark * 2 ^ 192 + s.portState q * 2 ^ 188 + lane * 2 ^ 183 + (if s.fallback q then 2 else 1) * 2 ^ 181 + bits w 1 0 * 2 ^ 179 +
    (bits w 4 2 % 5) * 2 ^ 164 + bits w 6 5 * 2 ^ 162 + stap * 2 ^ 156 + csts * 2 ^ 154)

/-- The lane order that the sets show by receive lane (R304): straight, reversed, or none of the two. -/
def laneOrder (l : List (Nat × Nat)) : Option Bool :=
  if l.all fun x => bits x.2 187 183 = x.1 then some false
  else if l.all fun x => bits x.2 187 183 = 16 - x.1 then some true
  else none

/-- Training has failed (R322), which counts towards the three; the port waits for its retry in DETECT. One that a retraining began loses the partner (R333). -/
def State.trainingFailed (s : State) (q : PortId) : State :=
  let s := if (s.port q).again then ((s.modPort q fun x => { x with again := false }).loseTo q stDetect) else s
  s.modPort q fun x => { x with failures := x.failures + 1, failed := true }

/-- EQUALISE at the fallback rate, from the factory starting points (R321, R322). -/
def State.toFallback (s : State) (q : PortId) : State :=
  ((s.setPortFlags q true (s.reversed q)).modPort q fun x => { x with taps := [], wire := none }).setPortState q stEqualise

/-- A training attempt ends at one rate (R322): the fallback rate is tried next. -/
def State.trainFail (s : State) (q : PortId) : State := if s.fallback q then s.trainingFailed q else s.toFallback q

/-- Training sets of a partner arrive (R304, R321, R322): good ones on at least 16 lanes turn DETECT into EQUALISE. RATE 10b takes the fallback rate, also in a training that has
begun at the full rate. Another lane order fails the training. -/
def execTrainingSetsDetected (port : PortId) (sets : List (Fin 17 × BitVec 256)) (s : State) : Host.Outcome State Fault Refusal :=
  let l : List (Nat × Nat) := sets.filterMap fun x => (goodSet x.2).map fun v => (x.1.val, v)
  let st := s.portState port
  let slow := l.any fun x => bits x.2 182 181 = 2
  if !s.mayTrain port || (s.port port).failed || l.length < 16 then noEvent s
  else if st = stDown || st = stDetect then
    match laneOrder l with
    | none => next ((s.setReg 0x5008 (port.val + 1) 9).trainingFailed port)
    | some rev =>
      next ((((s.setPortFlags port slow rev).modPort port fun x => { x with taps := [] }).startTraining port).setPortState port stEqualise)
  else if (st = stEqualise || st = stAlign) && slow && !s.fallback port then next (s.toFallback port)
  else noEvent s

/-- The physical lane of each logical lane: its own number, or 16 less it in the reversed order; the last lane of the order stands in for one that did not converge
(assumption log 125). -/
def laneMap (rev : Bool) (out : Option Nat) : List Nat :=
  let phys (i : Nat) : Nat := if rev then 16 - i else i
  (List.range 16).map fun i => if out = some (phys i) then phys 16 else phys i

/-- The lane map and the spares after a training that assigned the lanes (R301, R331): OD 5004h, and OD 8040h saved where it changes. -/
def State.assignLanes (s : State) (q : PortId) (rx tx : Option Nat) : State :=
  let rm := laneMap (s.reversed q) rx
  let tm := laneMap false tx
  let used (m : List Nat) (o : Option Nat) (sp : Nat) : Bool := o.isSome && m.contains sp
  let s := s.modPort q fun x => { x with rxMap := rm, txMap := tm, rxSwap := none, txSwap := none, los := [] }
  let s := s.setReg 0x5004 (q.val + 1) (b2n (used rm rx (if s.reversed q then 0 else 16)) * 2 ^ 15 + rx.getD 31 * 2 ^ 10 + b2n (used tm tx 16) * 2 ^ 9 + tx.getD 31 * 2 ^ 4)
  let v := b2n rx.isNone * 2 + b2n tx.isNone
  if s.reg 0x8040 (q.val + 1) % 4 = v then s else s.saveReg 0x8040 (q.val + 1) v

/-- Both ends show RXOK on 16 lanes (Table 11-8). `rxOut` and `txOut` are the lanes that did not converge. -/
def execEqualiseComplete (port : PortId) (rxOut txOut : Option (Fin 17)) (s : State) : Host.Outcome State Fault Refusal :=
  if s.portState port = stEqualise && !(s.port port).failed then
    next ((s.assignLanes port (rxOut.map (·.val)) (txOut.map (·.val))).setPortState port stAlign)
  else noEvent s

/-- EQUALISE has lasted 200 ms (Table 11-8). -/
def execEqualiseTimeout (port : PortId) (s : State) : Host.Outcome State Fault Refusal :=
  if s.portState port = stEqualise && !(s.port port).failed then next (s.trainFail port) else noEvent s

/-- ALIGN has lasted 2 ms (Table 11-8). -/
def execAlignTimeout (port : PortId) (s : State) : Host.Outcome State Fault Refusal :=
  if s.portState port = stAlign && !(s.port port).failed then next (s.trainFail port) else noEvent s

/-- The HELLO of this device (Table 11-10). The nonce comes from the steward's random source. -/
def State.helloBody (s : State) (q : PortId) : List Byte :=
  ([1] : List Byte) ++ leBytes 2 (s.reg 0x1020 0) ++ [BitVec.ofNat 8 q.val,
    match s.portOwner q with
    | some p => BitVec.ofNat 8 p.val
    | none => 0xFF] ++ (List.range 48).map fun i => Config.freeByte s.draws i

/-- ALLOK is there and the time blocks of ALIGN have given the wire delay (R324): D is it and the port's own latencies, in 0.25 ns. AUTH begins with HELLO. -/
def execAlignComplete (port : PortId) (s : State) : Host.Outcome State Fault Refusal :=
  match (s.port port).wire with
  | none => noEvent s
  | some w =>
    if s.portState port ≠ stAlign || (s.port port).failed then noEvent s
    else
      let s := s.setReg 0x5003 (port.val + 1) ((w + Config.portPipe) / 64 % 65536)
      let h := s.helloBody port
      let s := (s.modPort port fun x =>
        { x.say 1 h with auth := ⟨h, false, none, none, false, false⟩, failures := 0, timeQ := [], timeIn := [] }).setPortState port stAuth
      next { s with draws := s.draws + 1 }

/-- 1 s after a failed training the port returns to DETECT, or enters HELD after three failures in a row; its loopback then runs, and more failed lanes than
a direction can spare retire it (R322). `rxFail` and `txFail` are the lanes in service that fail in either direction. -/
def execTrainingRetry (port : PortId) (rxFail txFail : Nat) (s : State) : Host.Outcome State Fault Refusal :=
  if !(s.port port).failed then noEvent s
  else
    let s := s.modPort port fun x => { x with failed := false }
    if (s.port port).failures < 3 then next (s.setPortState port (if s.mayTrain port then stDetect else stDown))
    else
      let s := s.modPort port fun x => { x with failures := 0 }
      let spare (i : Nat) : Nat := b2n (bit (s.reg 0x8040 (port.val + 1)) i)
      if spare 1 < rxFail || spare 0 < txFail then next ((s.saveReg 0x8041 (port.val + 1) 1).setPortState port stRetired)
      else next (s.setPortState port stHeld)

/-! ### Authentication (R325 to R327) -/

/-- The port leaves AUTH after a refusal: DOWN, or HELD after eight in a row (R327). -/
def State.refuseEnd (s : State) (q : PortId) : State :=
  let s := s.modPort q Port.clear
  if 8 ≤ (s.port q).refusals then (s.modPort q fun x => { x with refusals := 0 }).setPortState q stHeld
  else s.setPortState q stDown

/-- A refusal is recorded; 07h does not count (R327). -/
def State.recordRefusal (s : State) (q : PortId) (code : Nat) : State :=
  (s.setReg 0x5008 (q.val + 1) code).modPort q fun x => { x with refusals := if code = 7 then x.refusals else x.refusals + 1 }

/-- A refusal that ends AUTH at once: the partner's, or a message that it did not answer (R327, Table 11-10). -/
def State.refuse (s : State) (q : PortId) (code : Nat) : State := (s.recordRefusal q code).refuseEnd q

/-- The verdict of this end (R327). A refusal stands until it is acknowledged or given up; the port then leaves AUTH. -/
def State.verdict (s : State) (q : PortId) (code : Nat) : State :=
  let s := if code = 1 then s else s.recordRefusal q code
  s.modPort q fun x => { x.say 4 [BitVec.ofNat 8 code] with auth := { x.auth with sent := true, refused := decide (code ≠ 1) } }

/-- What follows when a message has been acknowledged, or given up (R325, Table 11-10). -/
def State.msgEnd (s : State) (q : PortId) (m : LinkMsg) (given : Bool) : State :=
  match m.msg with
  | 1 | 2 | 3 => if given then s.refuse q 8 else s
  | 4 => if m.body ≠ [1] then s.refuseEnd q else if !given then s else if s.portUp q then s.loseTo q stDown else s.portDown q
  | 0x10 => if given then s.loseTo q stDetect else s
  | 0x20 => s.retrain q
  | 0x21 => s.loseTo q stDown
  | _ => s

/-- An AMID covers the messages sent up to its MID (R325). -/
def State.cover (s : State) (q : PortId) (amid : Byte) : State :=
  let covered (m : LinkMsg) : Bool := 0 < m.sends && (amid.toNat + 256 - m.mid) % 256 < 128
  let done := (s.port q).msgs.filter covered
  done.foldl (fun s m => if (s.port q).msgs.any (·.mid = m.mid) then
    State.msgEnd (s.modPort q fun x => { x with msgs := x.msgs.filter fun y => y.mid ≠ m.mid }) q m false else s) s

/-- A message of the partner has arrived: the next link control block acknowledges it, and its AMID covers messages of this end (R325). -/
def State.heard (s : State) (q : PortId) (ids : MsgIds) : State :=
  (s.modPort q fun x => { x with amid := ids.mid.toNat, ackDue := true }).cover q ids.amid

/-- Both ends have admitted, and the VERDICT of this one has left: UP (R327). -/
def State.enterUp (s : State) (q : PortId) : State :=
  let x := s.port q
  match x.auth.hello with
  | some h =>
    if s.portState q = stAuth && x.auth.sent && !x.auth.refused && x.auth.got && (x.msgs.all fun m => m.msg ≠ 4 || 0 < m.sends) then
      let s := s.modPort q fun x => { x.clear with msgs := x.msgs, ackDue := x.ackDue, refusals := 0, failures := 0 }
      let s := s.setPortState q stUp
      s.setReg 0x5002 (q.val + 1) (h.device.toNat + h.port.toNat * 2 ^ 16)
    else s
  | none => s

/-- The checks of R327 in their order: the first failure fixes the code. -/
def authCode (s : State) (q : PortId) (h : HelloBody) (chain proof : Bool) : Nat :=
  let v := s.reg 0x2120 (q.val + 1)
  if h.version ≠ 1 then 2
  else if !chain then 3
  else if !proof then 4
  else if h.device.toNat = s.reg 0x1020 0 then 6
  else if h.device.toNat < bits v 31 16 || bits v 47 32 < h.device.toNat then 5
  else 1

/-- The partner's HELLO body as it was sent (Table 11-10). -/
def helloBytes (h : HelloBody) : List Byte :=
  [h.version] ++ leBytes 2 h.device.toNat ++ [h.port, h.owner] ++ leBytes 48 h.nonce.toNat

/-- SHA-384 as bytes. -/
def shaBytes (l : List Byte) : List Byte := leBytes 48 (Config.sha384 l).toNat

/-- The chain that the device presents, in CHAIN and in certificate slot 0 (R466): length, two reserved bytes, the digest of the Eloafold root certificate, and the certificates of product CA, device, boot
alias and runtime alias; in recovery it ends at the device certificate. -/
def State.chain (s : State) : List Byte :=
  let own := if s.reg 0x1030 0 = 4 then [] else s.dom 0x1010 3 ++ s.dom 0x1010 4
  let l := shaBytes Config.rootCert ++ s.dom 0x1010 1 ++ s.dom 0x1010 2 ++ own
  leBytes 2 (l.length + 4) ++ [0, 0] ++ l

/-- A signature of the device: by the runtime alias key, in recovery by the device key (R466). -/
def State.signed (s : State) (l : List Byte) : List Byte :=
  Config.sign ((if s.reg 0x1030 0 = 4 then s.stw.devKey else s.stw.runKey).getD []) l

/-- HELLO arrives: the end sends its CHAIN (R326). -/
def execHello (port : PortId) (ids : MsgIds) (h : HelloBody) (s : State) : Host.Outcome State Fault Refusal :=
  if s.portState port ≠ stAuth then noEvent s
  else
    let s := s.heard port ids
    if s.portState port ≠ stAuth || (s.port port).auth.hello.isSome then next s
    else next (s.modPort port fun x => { x.say 2 s.chain with auth := { x.auth with hello := some h } })

/-- CHAIN arrives, and verifies to the Eloafold root or not: the end sends its PROOF, the signature over the SHA-384 of its own HELLO body, the partner's, and the SHA-384 of its
own CHAIN (R326). -/
def execChain (port : PortId) (ids : MsgIds) (ok : Bool) (s : State) : Host.Outcome State Fault Refusal :=
  if s.portState port ≠ stAuth then noEvent s
  else match (s.port port).auth.hello with
    | none => noEvent s
    | some h =>
      let s := s.heard port ids
      if s.portState port ≠ stAuth || (s.port port).auth.chainOk.isSome then next s
      else next (s.modPort port fun x =>
        { x.say 3 (s.signed (shaBytes (x.auth.own ++ helloBytes h ++ shaBytes s.chain))) with auth := { x.auth with chainOk := some ok } })

/-- PROOF arrives: the checks of R327, and the verdict. -/
def execProof (port : PortId) (ids : MsgIds) (ok : Bool) (s : State) : Host.Outcome State Fault Refusal :=
  match (s.port port).auth.hello, (s.port port).auth.chainOk with
  | some h, some c =>
    if s.portState port ≠ stAuth then noEvent s
    else
      let s := s.heard port ids
      if s.portState port ≠ stAuth || (s.port port).auth.sent then next s else next (s.verdict port (authCode s port h c ok))
  | _, _ => noEvent s

/-- VERDICT arrives (R327): 01h admits; any other code returns both ends to DOWN, which the end acknowledges as it goes. -/
def execVerdict (port : PortId) (ids : MsgIds) (code : Byte) (s : State) : Host.Outcome State Fault Refusal :=
  if s.portState port ≠ stAuth then noEvent s
  else
    let s := s.heard port ids
    if s.portState port ≠ stAuth then next s
    else if code = 1 then next ((s.modPort port fun x => { x with auth := { x.auth with got := true } }).enterUp port)
    else next ((s.ackNow port).refuse port code.toNat)

/-- AUTH has lasted 100 ms: refusal 08h (Table 11-8); an end that has refused already leaves AUTH. -/
def execAuthTimeout (port : PortId) (s : State) : Host.Outcome State Fault Refusal :=
  if s.portState port ≠ stAuth then noEvent s
  else if (s.port port).auth.refused then next (s.refuseEnd port) else next (s.verdict port 8)

/-- 1 µs after a send, an unanswered message is due again; after 64 sends it is given up (R325, Table 11-10). -/
def execLinkControlRepeat (port : PortId) (s : State) : Host.Outcome State Fault Refusal :=
  match (s.port port).msgs.find? fun m => !m.due with
  | none => noEvent s
  | some m =>
    if m.sends < 64 then
      next (s.modPort port fun x => { x with msgs := x.msgs.map fun y => if y.mid = m.mid then { y with due := true } else y })
    else next (State.msgEnd (s.modPort port fun x => { x with msgs := x.msgs.filter fun y => y.mid ≠ m.mid }) port m true)

/-- Message ACK arrives: its AMID covers messages of this end (R325). -/
def execLinkControlAck (port : PortId) (amid : Byte) (s : State) : Host.Outcome State Fault Refusal := next (s.cover port amid)

/-! ### Blocks out (R307, R313, R350) -/

/-- An idle block. -/
def State.sendIdle (s : State) (q : PortId) : State := s.sendBlock q (linkBlock256 (s.headOf q 1 0x3FF (s.port q).snd false) 0 [])

/-- The next sequenced block goes out. A double-bit error that the retry buffer's SECDED finds poisons the copy: one in the payload sends it with POISON, one in the header with an
inverted trailer (R311). -/
def State.sendSeq (s : State) (q : PortId) (b : Block) (e : BufferEcc) : State :=
  let x := s.port q
  let c : Block := if e.payload || e.header then { b with poison := true } else b
  let l := linkBlock256 (s.headOf q 0 c.slot x.snd c.poison) c.net c.data
  let s := s.sendBlock q (if e.header then l.take 252 ++ (l.drop 252).map (~~~ ·) else l)
  let s := if e.payload || e.header then s.count 0x9072 (q.val + 1) else s
  s.modPort q fun x =>
    let n := (x.snd + 1) % 4096
    { x with snd := n, hi := if x.hi = x.snd then n else x.hi, buf := x.buf.set x.sentCount c }

/-- A block enters the retry buffer and takes its SEQ (R316). -/
def Port.accept (x : Port) (b : Block) : Port := { x with buf := x.buf ++ [b] }

/-- The block of R350's order that takes a slot from 704 on: a fence, a credit block, an open block in turn. A restricted port carries open traffic only, so that fences wait (R323). -/
def Port.linkBlock (x : Port) (restricted : Bool) : Option (Block × Port) :=
  match (if restricted then [] else x.fences) with
  | b :: l => some (b, { x with fences := l })
  | [] =>
    if x.owed.toList.any (0 < ·) then
      let c (i : Fin 4) : Nat := vget x.owed i
      some (⟨0xD * 2 ^ 44 + c 0 * 2 ^ 33 + c 1 * 2 ^ 22 + c 2 * 2 ^ 11 + c 3, 0x3FF, 0, false, []⟩, { x with owed := Vector.replicate 4 0 })
    else
      match ((List.range 4).map fun i => (fin (x.turn + i) : Fin 4)).find? fun c => vget x.outOpen c ≠ [] && 0 < vget x.credits c with
      | some c => match vget x.outOpen c with
        | b :: l => some (b, { x with outOpen := vset x.outOpen c l, credits := vmod x.credits c (· - 1), turn := (c.val + 1) % 4 })
        | [] => none
      | none => none

/-- Parts of a message of 232 body bytes each (R325). -/
def LinkMsg.parts (m : LinkMsg) : Nat := max 1 ((m.body.length + 231) / 232)

/-- The next part of a link control message leaves; with the last one the message has been sent once more. -/
def State.sendMsg (s : State) (q : PortId) (m : LinkMsg) : State :=
  let n : LinkMsg := if m.part + 1 < m.parts then { m with part := m.part + 1 } else { m with part := 0, sends := m.sends + 1, due := false }
  (s.sendControl q m.msg m.mid m.part m.parts ((m.body.drop (232 * m.part)).take 232)).modPort q fun x =>
    { x with msgs := x.msgs.map fun y => if y.mid = m.mid then n else y }

/-- Krytno time now in 1/256 ns (R312): within a nanosecond the instant is free. -/
def stampNow (s : State) : BitVec 72 := BitVec.ofNat 72 (s.time.toNat * 256 + (Config.freeByte s.draws 0).toNat)

/-- A time block leaves with its transmit stamp (R312). -/
def State.sendTime (s : State) (q : PortId) (b : List Byte) : State :=
  let stamp := stampBytes (stampNow s)
  let s := s.sendBlock q (linkBlock256 (s.headOf q 3 0x3FF (s.port q).snd false) 0 (stamp ++ b))
  { s.modPort q fun x => { x with timeQ := x.timeQ.drop 1 } with draws := s.draws + 1 }

/-- The sequenced block that may go out in a slot: its slot has come or passed, or it belongs to a replay (Table 11-4). -/
def Port.seqReady (x : Port) (now : Nat) (link : Bool) : Option Block :=
  match x.unsent with
  | b :: _ =>
    let again := x.snd ≠ x.hi
    if again || b.slot = 0x3FF || b.past now || (!link && slotTime b.frame b.slot = now) then some b else none
  | [] => none

/-- What takes a slot from 704 on when nothing else does (R350); a block that waits to enter a full buffer makes the port retrain (R316). -/
def State.linkSlot (s : State) (q : PortId) (e : BufferEcc) : State :=
  match (s.port q).linkBlock (s.restricted q) with
  | none => s.sendIdle q
  | some (b, x') =>
    if 4095 ≤ (s.port q).buf.length then (s.askRetrain q).sendIdle q
    else State.sendSeq { s with ports := vset s.ports q (x'.accept b) } q b e

/-- A block slot of the port island (R313, Table 11-4). In ALIGN the port sends time blocks until it has measured the wire, then idle blocks (R307, R324). `e` is what the
retry buffer finds in the sequenced block that goes out, where one does. -/
def execBlockSlot (port : PortId) (slot : Fin 752) (e : BufferEcc) (s : State) : Host.Outcome State Fault Refusal :=
  let st := s.portState port
  if !(st = stAlign || st = stAuth || st = stUp) || slot.val < (s.port port).slot || (s.fallback port && slot.val % 2 = 1) then noEvent s
  else
    let s := s.modPort port fun x => { x with slot := slot.val + 1 }
    let x := s.port port
    let now := slotTime s.frameNo slot.val
    let link := decide (704 ≤ slot.val)
    if st = stAlign then
      match x.timeQ with
      | b :: _ => next (s.sendTime port b)
      | [] => if x.wire.isNone then next (s.sendTime port (s.timePayload port 0 0 0)) else next (s.sendIdle port)
    else match x.msgs.find? (·.due) with
      | some m => next ((s.sendMsg port m).enterUp port)
      | none =>
        if x.ackDue then next (s.ackNow port)
        else if st = stAuth then next (s.sendIdle port)
        else match (if link then x.timeQ else []) with
          | b :: _ => next (s.sendTime port b)
          | [] => match x.seqReady now link with
            | some b => next (s.sendSeq port b e)
            | none => if !link || x.unsent ≠ [] then next (s.sendIdle port) else next (s.linkSlot port e)

/-! ### Blocks in (R314, R315, R318) -/

/-- The sender's part on ACK and NAK (R315). -/
def State.onAck (s : State) (q : PortId) (a : Nat) (nak : Bool) : State :=
  let x := s.port q
  let n := (a + 4096 - x.oldest) % 4096
  if x.sentCount < n then s
  else
    let x := if n = 0 then x else { x with buf := x.buf.drop n, oldest := a, tmo := 0 }
    let guard := s.reg 0x5003 (q.val + 1) / 2 + 200
    let free : Bool := match x.replayAt with
      | some (b, t) => a ≠ b || decide (t.toNat + guard < s.time.toNat)
      | none => true
    let s := { s with ports := vset s.ports q x }
    if nak && a ≠ x.snd && free then
      (s.modPort q fun x => { x with snd := a, replayAt := some (a, s.time) }).count 0x9073 (q.val + 1)
    else s

/-- HOLD for window `w` is seen at a port, and by the partition whose hold link the port is (R318, R382). -/
def State.seeHold (s : State) (q : PortId) (w : Nat) : State :=
  let s := s.modPort q fun x => { x with seen := setAdd x.seen w }
  match s.portOwner q with
  | some p => if s.holdLink p q then s.modPart p fun x => { x with heard := setAdd x.heard w } else s
  | none => s

/-- HOLD of a CRC-good block reaches the relay (R318, R382, R383). -/
def State.onHold (s : State) (q : PortId) (hold : Bool) (hwin : Nat) : State :=
  if !hold then s
  else
    let w := s.windowNo
    match (hwin + 8 - w % 8) % 8 with
    | 0 => s.seeHold q w
    | 1 => s.seeHold q (w + 1)
    | 7 => match s.portOwner q with
      | some p =>
        if s.holdLink p q && s.loaded p && !(s.prt p).held then s.raise (some p) 6 0x0601 (sitePort q)
        else s.modPort q fun x => { x with seen := setAdd x.seen (w - 1) }
      | none => s
    | _ => s

/-- Byte string of a block as it arrives, byte 0 lowest. -/
def arrivedBytes (b : BitVec 2048) : List Byte := leBytes 256 b.toNat

/-- A delivered transaction block goes to the transaction layer: reserved TT Fh is dropped, open blocks join their channel's queue (R340, R353). -/
def State.deliver (s : State) (q : PortId) (b : Block) : State :=
  let tt := bits b.net 47 44
  if tt = 0xF then s.count 0x9072 (q.val + 1)
  else if (8 ≤ tt && tt ≤ 0xC) || tt = 0xE then
    let c : Fin 4 := fin (bits b.net 25 24)
    s.modPort q fun x => { x with inOpen := vmod x.inOpen c fun l => l ++ [b] }
  else s.modPort q fun x => { x with inSched := x.inSched ++ [b] }

/-- Block slots of a frame that have begun (Table 10-2): one each 0.625 ns. -/
def State.slotNow (s : State) : Nat := s.time.toNat % 512 * 8 / 5

/-- The latest frame in which a slot has begun. -/
def State.lastFrame (s : State) (slot : Nat) : Nat := if slot ≤ s.slotNow then s.frameNo else s.frameNo - 1

/-- The receiver discards (R314): what follows may come late, from this slot on. -/
def Port.discard (x : Port) (frame slot : Nat) : Port := { x with nak := true, behind := x.behind.or (some (true, frame, slot)) }

/-- The frame of a scheduled block that arrives in order: the latest one in which its slot has begun, or, while blocks come late after a failure, the one that follows from the
block before it (assumption log 126). -/
def State.frameOf (s : State) (q : PortId) (slot : Nat) : Nat :=
  let ub := s.lastFrame slot
  match (s.port q).behind with
  | none => ub
  | some (first, f, t) => min ub (if first then (if slot ≤ t || t + 410 < slot then f else f - 1) else if t < slot then f else f + 1)

/-- A scheduled block of frame `f` has been delivered. -/
def Port.placed (x : Port) (ub f slot : Nat) : Port := { x with behind := if x.behind.isNone || f = ub then none else some (false, f, slot) }

/-- A time block with its receive stamp (R312). Other kinds than sync and reply are reserved and ignored (R376). -/
def State.timeArrives (s : State) (q : PortId) (l : List Byte) : State :=
  if 1 < leNat ((l.drop 9).take 1) then s
  else { s.modPort q fun x => { x with timeIn := x.timeIn ++ [(l, stampNow s)] } with draws := s.draws + 1 }

/-- A CRC-good block of another type than 0h (R309, R314). An idle block with the SEQ expected shows that nothing is late. -/
def State.unsequenced (s : State) (q : PortId) (type seq : Nat) (payload : List Byte) : State :=
  let s := if 4 ≤ type then s.count 0x9072 (q.val + 1) else s
  let frame := s.frameNo
  let slot := s.slotNow
  let s := s.modPort q fun x => if seq ≠ x.e then x.discard frame slot else { x with nak := false, behind := if type = 1 then none else x.behind }
  if type = 3 then s.timeArrives q payload else s

/-- A transaction block with the SEQ expected is delivered (R314). -/
def State.inOrder (s : State) (q : PortId) (h : Nat) (payload : List Byte) : State :=
  let slot := bits h 14 5
  let f := if slot = 0x3FF then s.frameNo else s.frameOf q slot
  let ub := s.lastFrame slot
  (s.modPort q fun x => { (if slot = 0x3FF then x else x.placed ub f slot) with e := (x.e + 1) % 4096, nak := false }).deliver q
    ⟨bits h 95 48, slot, f, bit h 44, payload⟩

/-- A block arrives (R309, R310, R314). The messages of link control blocks are commands of their own. -/
def execBlockArrival (port : PortId) (b : BitVec 2048) (s : State) : Host.Outcome State Fault Refusal :=
  let st := s.portState port
  if !(st = stAlign || st = stAuth || st = stUp) then noEvent s
  else
    let l := arrivedBytes b
    if leNat (l.drop 252) ≠ crc32c (l.take 252) then
      next ((s.modPort port fun x => x.discard s.frameNo s.slotNow).count 0x9072 (port.val + 1))
    else
      let h := leNat (l.take 12)
      let payload := (l.drop 12).take 240
      let s := s.modPort port fun x => { x with gap := false }
      if st ≠ stUp then next (s.unsequenced port (if bits h 2 0 = 0 then 1 else bits h 2 0) (bits h 26 15) payload)
      else
        let s := (s.onHold port (bit h 40) (bits h 43 41)).onAck port (bits h 38 27) (bit h 39)
        if bits h 2 0 ≠ 0 then next (s.unsequenced port (bits h 2 0) (bits h 26 15) payload)
        else if bits h 26 15 = (s.port port).e then next (s.inOrder port h payload)
        else next (s.modPort port fun x => x.discard s.frameNo s.slotNow)

/-- The ack timer expires (R315, R317): replay from the oldest block, a raise, and retraining at the eighth in a row. -/
def execAckTimeout (port : PortId) (s : State) : Host.Outcome State Fault Refusal :=
  let x := s.port port
  if !s.portUp port || x.oldest = x.snd then noEvent s
  else
    let s := s.modPort port fun x => { x with snd := x.oldest, tmo := x.tmo + 1, hold := true, replayAt := some (x.oldest, s.time) }
    let s := (s.count 0x9073 (port.val + 1)).count 0x9074 (port.val + 1)
    if 8 ≤ (s.port port).tmo then next (s.askRetrain port) else next s

/-- 9.6 µs without a CRC-good block and without loss of signal: the port retrains (R332). -/
def execReceiveSilence (port : PortId) (s : State) : Host.Outcome State Fault Refusal :=
  if s.portUp port && (s.port port).los = [] then next (s.askRetrain port) else noEvent s

/-! ### Lanes and spares (R328 to R331) -/

/-- The receive spare is usable and unused; so is the transmit spare (OD 8040h). -/
def State.rxSpare (s : State) (q : PortId) : Bool := bit (s.reg 0x8040 (q.val + 1)) 1
def State.txSpare (s : State) (q : PortId) : Bool := bit (s.reg 0x8040 (q.val + 1)) 0

/-- The receive or transmit spare leaves OD 8040h, which is saved. -/
def State.useRxSpare (s : State) (q : PortId) : State := s.saveReg 0x8040 (q.val + 1) (s.reg 0x8040 (q.val + 1) % 2)
def State.useTxSpare (s : State) (q : PortId) : State := s.saveReg 0x8040 (q.val + 1) (s.reg 0x8040 (q.val + 1) / 2 * 2)

/-- The physical lane that carries no logical lane. -/
def spareLane (m : List Nat) : Nat := ((List.range 17).find? fun i => !m.contains i).getD 16

/-- The spare takes over a logical lane (R330): the physical lane that carried it is out of service (OD 5004h). -/
def State.mapRx (s : State) (q : PortId) (lane : Nat) : State :=
  let m := (s.port q).rxMap
  let v := s.reg 0x5004 (q.val + 1)
  (s.setReg 0x5004 (q.val + 1) (v % 2 ^ 10 + m.getD lane 31 * 2 ^ 10 + 2 ^ 15)).modPort q fun x => { x with rxMap := m.set lane (spareLane m) }
def State.mapTx (s : State) (q : PortId) (lane : Nat) : State :=
  let m := (s.port q).txMap
  let v := s.reg 0x5004 (q.val + 1)
  (s.setReg 0x5004 (q.val + 1) (v / 2 ^ 10 * 2 ^ 10 + v % 16 + m.getD lane 31 * 2 ^ 4 + 2 ^ 9)).modPort q fun x => { x with txMap := m.set lane (spareLane m) }

/-- The receiver asks for a swap of a logical lane (R329). -/
def State.askSwap (s : State) (q : PortId) (lane : Nat) (degraded : Bool) : State :=
  s.modPort q fun x => { x.say 0x10 [BitVec.ofNat 8 lane] with rxSwap := some ⟨lane, degraded, 0⟩ }

/-- Loss of signal, or loss of lock, on the lane that serves a logical lane (R329, R331): a hard failure, also of a lane whose degradation has begun a swap. A second lane loses the port; so does loss of
lock without a spare, while loss of signal without one has 2 µs to end (R333). -/
def execLossOfSignal (port : PortId) (lane : LaneLoss) (s : State) : Host.Outcome State Fault Refusal :=
  if !s.portUp port || (s.port port).los.contains lane.lane.val then noEvent s
  else
    let s := if lane.lock then s else s.modPort port fun x => { x with los := setAdd x.los lane.lane.val }
    match (s.port port).rxSwap with
    | some w =>
      if w.lane = lane.lane.val then next (s.modPort port fun x => { x with rxSwap := some { w with degraded := false } })
      else next (s.loseTo port stDetect)
    | none =>
      if s.rxSpare port then next (s.askSwap port lane.lane.val false)
      else if lane.lock then next (s.loseTo port stDetect) else next s

/-- Loss of signal has lasted 2 µs on lanes that the spare cannot cover (R333). -/
def execLossPersists (port : PortId) (s : State) : Host.Outcome State Fault Refusal :=
  let x := s.port port
  if s.portUp port && (1 < x.los.length || (x.los ≠ [] && x.rxSwap.isNone)) then next (s.loseTo port stDetect) else noEvent s

/-- A lane's window ends: its codewords are counted, in whatever state the FEC has run and although the port has left it (R310). After a whole window in UP, more corrected symbols than OD 5006h allows
ask for a swap, or for a retraining where the spare is gone or another lane's swap has it (R329, R331). -/
def execLaneDegradeWindow (port : PortId) (lane : Fin 16) (w : LaneWindow) (s : State) : Host.Outcome State Fault Refusal :=
  if w.full && !s.portUp port then noEvent s
  else
    let s := (s.count 0x9070 (port.val + 1) w.corrected).count 0x9071 (port.val + 1) w.dead
    if !w.full || w.symbols ≤ s.reg 0x5006 0 then next s
    else match (s.port port).rxSwap with
      | some x => if x.lane = lane.val then next s else next (s.askRetrain port)
      | none => if s.rxSpare port then next (s.askSwap port lane.val true) else next (s.askRetrain port)

/-- The receiver loses lock on an unused spare: SPARE BAD (R328). -/
def execSpareLockLoss (port : PortId) (s : State) : Host.Outcome State Fault Refusal :=
  if s.portUp port && s.rxSpare port && (s.port port).rxSwap.isNone then
    next ((s.modPort port fun x => x.say 0x12 []).useRxSpare port)
  else noEvent s

/-- A codeword of a swap's lane decodes on the spare (R330): with the first one after a hard failure, and with the 64th in a row after a degradation, the lane is taken over and SWAP DONE goes out. -/
def execSpareCodewordDecode (port : PortId) (lane : Fin 16) (s : State) : Host.Outcome State Fault Refusal :=
  match (s.port port).rxSwap with
  | none => noEvent s
  | some w =>
    if !s.portUp port || w.lane ≠ lane.val then noEvent s
    else if w.degraded && w.good + 1 < 64 then next (s.modPort port fun x => { x with rxSwap := some { w with good := w.good + 1 } })
    else
      let s := s.modPort port fun x => { x.say 0x11 [BitVec.ofNat 8 lane.val] with rxSwap := none, los := setDel x.los lane.val }
      next ((s.useRxSpare port).mapRx port lane.val)

/-- A message of the partner to a port in UP, which may itself end what made it UP. -/
def whenUp (port : PortId) (ids : MsgIds) (f : State → State) (s : State) : Host.Outcome State Fault Refusal :=
  if !s.portUp port then noEvent s
  else
    let s := s.heard port ids
    if s.portUp port then next (f s) else next s

/-- SWAP(L) arrives (R330, R331): the lane goes out on the spare too. With the spare in use or gone the port retrains after a degradation and is lost after a hard failure; which of the two it was
the message does not say, and the choice is free (assumption log 142). A message that is repeated although it has been taken asks for nothing. -/
def execSwap (port : PortId) (ids : MsgIds) (lane : Fin 16) (s : State) : Host.Outcome State Fault Refusal :=
  let old := decide (((s.port port).amid + 256 - ids.mid.toNat) % 256 < 128)
  whenUp port ids (fun s =>
    if old || (s.port port).txSwap = some lane.val then s
    else if s.txSpare port && (s.port port).txSwap.isNone then s.modPort port fun x => { x with txSwap := some lane.val }
    else
      let hard := (Config.freeWord s.draws).getLsbD 0
      let s := { s with draws := s.draws + 1 }
      if hard then s.loseTo port stDetect else s.askRetrain port) s

/-- SWAP DONE(L) arrives: the failed lane stops and is out of service (R330). -/
def execSwapDone (port : PortId) (ids : MsgIds) (lane : Fin 16) (s : State) : Host.Outcome State Fault Refusal :=
  whenUp port ids (fun s => if (s.port port).txSwap = some lane.val then
    ((s.modPort port fun x => { x with txSwap := none }).useTxSpare port).mapTx port lane.val else s) s

/-- SPARE BAD arrives: the transmit spare is gone (R328). -/
def execSpareBad (port : PortId) (ids : MsgIds) (s : State) : Host.Outcome State Fault Refusal := whenUp port ids (·.useTxSpare port) s

/-- RETRAIN arrives (R332): the end sends its own, which acknowledges it, and retrains. -/
def execRetrain (port : PortId) (ids : MsgIds) (s : State) : Host.Outcome State Fault Refusal :=
  whenUp port ids (fun s => (s.tellNow port 0x20 []).retrain port) s

/-- GOODBYE arrives: a loss, then DETECT (R335); the end acknowledges it as it goes. -/
def execGoodbye (port : PortId) (ids : MsgIds) (s : State) : Host.Outcome State Fault Refusal :=
  whenUp port ids (fun s => (s.ackNow port).loseTo port stDetect) s

/-- A training set of the partner with a coefficient request for a lane's transmitter (Table 11-9): hold, one step up or down, or back to the starting point; the set that answers
goes out. Where a tap's limit lies is not given: whether a step meets it is free. -/
def execCoefficientRequest (port : PortId) (lane : Fin 17) (set : BitVec 256) (s : State) : Host.Outcome State Fault Refusal :=
  match goodSet set with
  | none => noEvent s
  | some v =>
    if s.portState port ≠ stEqualise then noEvent s
    else
      let tap := bits v 167 164
      let req := bits v 163 162
      let key := lane.val * 8 + tap
      let cur := sget 0 (s.port port).taps key
      let full := (Config.freeWord s.draws).getLsbD 63
      let answer (s : State) (csts : Nat) : State := { s.emit (.training port lane (s.ownSet port lane.val tap csts)) with draws := s.draws + 1 }
      let put (v : Int) : State := s.modPort port fun x => { x with taps := sput 0 x.taps key v }
      if req = 0 || 4 < tap then next (answer s 0)
      else if req = 3 then next (answer (put 0) 1)
      else if full then next (answer s 2)
      else next (answer (put (if req = 1 then cur + 1 else cur - 1)) 1)

end Sys2Proof.Machine
end

