-- ==== Sys2Proof/Machine/Fabric.lean ====
section
/-!
DEFINITION. Transaction blocks (R338 to R356), multicast trees (R363 to R366) and in-flight reduction with the global norm (R367 to R375).
-/
namespace Sys2Proof.Machine

/-! ### Blocks of a transfer (R340, R341, R346) -/

/-- Data blocks of a transfer. -/
def Xfer.dataBlocks (x : Xfer) : Nat :=
  match x.kind with
  | .readReq | .morAdd | .morSet => 1
  | .readResp => (x.bytes + 239) / 240 + (if x.hdr then 1 else 0)
  | _ => (x.bytes + 239) / 240

/-- All its blocks, with the completion mordant block of R343; `blk` counts from `base`. -/
def Xfer.blocks (x : Xfer) : Nat := x.base + x.dataBlocks + (if x.last.isSome then 1 else 0)

/-- The data of block `k`, as written into a payload. -/
def Xfer.slice (x : Xfer) (k : Nat) : List PByte :=
  match x.kind, x.hdr, k with
  | .readResp, true, 0 => x.data.take 64
  | .readResp, true, k + 1 => ((x.data.drop 64).drop (240 * k)).take 240
  | _, _, k => (x.data.drop (240 * (k - x.base))).take 240

/-- SHORT and the payload of a write that carries fewer than 240 B (R341). An engine's result need not be a multiple of 16 B, for which R341 has no r: it goes out with its length as it is, and the
receiver refuses it: DESIGN CHOICE (assumption log 142). -/
def shortPayload (l : List Byte) : Nat × List Byte :=
  if l.length = 240 then (0, l) else (1, fit 0 238 l ++ leBytes 2 l.length)

/-- Payload of a read request (Table 12-2). -/
def readPayload (s : State) (x : Xfer) : List Byte :=
  leBytes 240 (x.addr + x.bytes * 2 ^ 64 + x.st.val * 2 ^ 96 + x.ftag * 2 ^ 104 + b2n x.hdr * 2 ^ 112 + s.reg 0x1020 0 * 2 ^ 128 +
    x.part.val * 2 ^ 144 + x.dest.toNat * 2 ^ 160)

/-- NET field without TT of an open block: device, partition, virtual channel. -/
def openNet (dev : W16) (dpart vc : Nat) : Nat := dev.toNat * 2 ^ 28 + dpart * 2 ^ 26 + vc * 2 ^ 24

/-- NET, payload and poison of block `k` of a transfer (Table 12-1). An ADDR or OFF names the place where that block lands (assumption log 18), cut to its field. -/
def xferNet (s : State) (x : Xfer) (k : Nat) : Nat × List Byte × Bool :=
  let opn := x.route = openRoute && x.kind ≠ .multicast
  let done := x.base + x.dataBlocks ≤ k
  let l := x.slice k
  let sp := shortPayload (rawBytes l)
  let at' := x.addr + 240 * (k - x.base)
  let r := x.route * 2 ^ 34
  let tt (n : Nat) : Nat := n * 2 ^ 44
  if done then
    let m := ((x.last.getD 0).toNat)
    if opn then (tt 0xB + openNet x.dest x.dpart 0 + m * 2 ^ 8, leBytes 8 1, false) else (tt 3 + r + m * 2 ^ 18, leBytes 8 1, false)
  else match x.kind with
    | .write =>
      if opn then (tt 8 + openNet x.dest x.dpart 0 + at' / 16 % 2 ^ 23 * 2 + sp.1, sp.2, anyPoison l)
      else (tt 0 + r + at' / 16 % 2 ^ 32 * 4 + sp.1, sp.2, anyPoison l)
    | .readReq => if opn then (tt 9 + openNet x.dest x.dpart 0, readPayload s x, false) else (tt 1 + r, readPayload s x, false)
    | .readResp =>
      if opn then (tt 0xA + openNet x.dest x.dpart 2 + x.st.val * 2 ^ 19 + x.ftag * 2 ^ 14 + k, rawBytes l, anyPoison l)
      else (tt 2 + r + x.st.val * 2 ^ 29 + x.ftag * 2 ^ 24 + k * 2 ^ 10, rawBytes l, anyPoison l)
    | .reduce =>
      (tt 5 + r % 2 ^ 44 + x.rpart * 2 ^ 22 + (if x.fmt = 2 then 2 ^ 21 else 0) + x.flg * 2 ^ 19 + k, rawBytes l, anyPoison l)
    | .multicast => (tt 6 + x.route * 2 ^ 33 + at' / 16 % 2 ^ 32 * 2 + sp.1, sp.2, anyPoison l)
    | .morAdd | .morSet =>
      let a := x.kind = .morAdd
      if opn then (tt (if a then 0xB else 0xC) + openNet x.dest x.dpart 0 + x.addr * 2 ^ 8, leBytes 8 x.value.toNat, false)
      else (tt (if a then 3 else 4) + r + x.addr * 2 ^ 18, leBytes 8 x.value.toNat, false)

/-- An open block on virtual channel `vc` (R352). -/
def Block.onChannel (b : Block) (vc : Nat) : Block := { b with net := b.net - bits b.net 25 24 * 2 ^ 24 + vc * 2 ^ 24 }

/-- Slot and frame of block `k` in a run that starts at `start` (R346). -/
def runSlot (start pfoff pslot pcnt k : Nat) : Nat × Nat := (pslot + k % max pcnt 1, start + pfoff + k / max pcnt 1)

/-- Block `k` of a scheduled transfer. -/
def xferBlock (s : State) (x : Xfer) (k : Nat) : Block :=
  let e := s.routeEntry x.part x.route
  let r := if x.kind = .multicast then
      let t := s.treeEntry x.part x.route
      runSlot x.start (bits t 71 68) (bits t 91 82) (bits t 81 72) (x.ridx + (k - x.base))
    else runSlot x.start (bits e 90 87) (bits e 110 101) (bits e 100 91) (x.ridx + (k - x.base))
  let n := xferNet s x k
  ⟨n.1, r.1, r.2, n.2.2, fit 0 240 n.2.1⟩

/-- Block `k` of an open transfer. -/
def openBlock (s : State) (x : Xfer) (k : Nat) : Block :=
  let n := xferNet s x k
  ⟨n.1, 0x3FF, 0, n.2.2, fit 0 240 n.2.1⟩

/-- Blocks that wait at a port's node, in the order of their slots. -/
def insertSlot (b : Block) : List Block → List Block
  | [] => [b]
  | c :: l => if slotTime b.frame b.slot < slotTime c.frame c.slot then b :: c :: l else c :: insertSlot b l

/-- A block is scheduled at a port (R228): a second one for one slot goes one slot later, with fault 01h for the job. -/
def State.schedule (s : State) (p : Part) (q : PortId) (b : Block) : State :=
  let x := s.port q
  let hit := (x.buf ++ x.outSched).any fun c => c.slot = b.slot && c.frame = b.frame && b.slot ≠ 0x3FF
  let b' : Block := if hit then { b with slot := b.slot + 1 } else b
  let s := s.modPort q fun x => { x with outSched := insertSlot b' x.outSched }
  if hit then s.raise (some p) 1 0x0102 (sitePort q) else s

/-- A block enters the retry buffer (R316). -/
def State.acceptBlock (s : State) (q : PortId) (b : Block) : State := s.modPort q fun x => x.accept b

/-- The vat slot of a transfer is released when its last flit has left (R195). -/
def State.xferDone (s : State) (x : Xfer) : State :=
  if x.vat < 32 && (x.kind = .write || x.kind = .reduce || x.kind = .multicast) then s.modSt x.st fun y => y.slotDone (fin x.vat) x.slot else s

/-- Transfer `k` has given one block. -/
def State.xferStep (s : State) (k : Nat) (x : Xfer) : State :=
  if x.blk + 1 < x.blocks then { s with xfers := lset s.xfers k { x with blk := x.blk + 1 } }
  else State.xferDone { s with xfers := ldel s.xfers k } x

/-! ### Multicast branches (R364 to R366) -/

def State.branch (s : State) (p : Part) (tree : Nat) (q : Option PortId) : Option BranchBuf :=
  s.fab.branches.find? fun b => b.part = p && b.tree = tree && b.port = q

/-- The entry of a branch, changed; it is made when it is not there. -/
def State.modBranch (s : State) (p : Part) (tree : Nat) (q : Option PortId) (f : BranchBuf → BranchBuf) : State :=
  let old : BranchBuf := (s.branch p tree q).getD ⟨p, tree, q, [], false⟩
  let rest := s.fab.branches.filter fun b => !(b.part = p && b.tree = tree && b.port = q)
  { s with fab := { s.fab with branches := rest ++ [f old] } }

def fenceBlock (tree : Nat) : Block := ⟨7 * 2 ^ 44 + tree * 2 ^ 33, 0x3FF, 0, false, []⟩

/-- Blocks in the branch buffer of a tree. -/
def State.branchLoad (s : State) (p : Part) (tree : Nat) : Nat :=
  ((s.fab.branches.filter fun b => b.part = p && b.tree = tree).map fun b => b.blocks.length).sum

/-- Blocks of a port that wait past their scheduled slots now: in the retry buffer unsent, and before it (R365). -/
def State.behindOn (s : State) (q : PortId) : Nat :=
  (((s.port q).unsent ++ (s.port q).outSched).filter fun b => b.past (slotTime s.frameNo s.slotNow)).length

/-- A multicast block leaves on one branch: at its slot, by the branch buffer when the port is slow, or the branch is fenced (R364 to R366). -/
def State.branchOut (s : State) (p : Part) (tree : Nat) (q : PortId) (b : Block) : State :=
  let cur := s.branch p tree (some q)
  let slow := 704 ≤ s.behindOn q
  let kept := match cur with
    | some c => c.blocks ≠ []
    | none => false
  if (cur.map (·.fenced)).getD false then s
  else if !slow && !kept then s.schedule p q b
  else if s.branchLoad p tree < 8192 then s.modBranch p tree (some q) fun c => { c with blocks := c.blocks ++ [b] }
  else
    let s := s.modBranch p tree (some q) fun c => { c with blocks := [], fenced := true }
    let s := s.modPort q fun x => { x with fences := x.fences ++ [fenceBlock tree] }
    s.raise (some p) 8 0x0800 (sitePort q)

/-! ### Writes that blocks make -/

/-- Bytes that a write block carries: 240, or r for a short one; `none` for an r outside its range (R341). -/
def blockLen (short : Bool) (data : List Byte) : Option Nat :=
  if !short then some 240
  else
    let r := leNat ((data.drop 238).take 2)
    if r % 16 = 0 && 16 ≤ r && r ≤ 224 then some r else none

def marked (b : Block) (l : List Byte) : List PByte := l.map fun x => ⟨x, b.poison⟩

/-- A fault at an arrival port (R338, R342, R347, R349, R361). -/
def State.faultPort (s : State) (p : Part) (q : PortId) : State := s.raise (some p) 1 0x0102 (sitePort q)

/-- Mirror slot of a partition in which an offset of a tower lies (R431): the slots lie directly below the shadow pool. -/
def State.mirrorSlot (s : State) (p : Part) (a : Nat) : Option Nat :=
  let v := s.reg 0x6177 (p.val + 1)
  let size := bits v 16 0 * 65536
  match place a with
  | .tower t off => match s.towerWindow p t with
    | some (_, hi) =>
      let top := hi - s.poolSlots p * 65536
      if bit v 63 && size ≠ 0 && off < top && (top - 1 - off) / size < (if bit v 62 then 2 else 1) then some ((top - 1 - off) / size) else none
    | none => none
  | _ => none

/-- A drain into a mirror slot makes the image that it held invalid (R431). -/
def State.mirrorTouch (s : State) (p : Part) (a : Nat) : State :=
  match s.mirrorSlot p a with
  | some k => s.modSec p fun x => { x with mirror := (fit none 2 x.mirror).set k none }
  | none => s

/-- A delivered block writes at an address: inside the partition's windows and outside its secured blocks (R188, R338, R344). The record names the arrival port, by which the write came (Table 08-12). -/
def State.blockWrite (s : State) (e : MemEcc) (p : Part) (q : PortId) (b : Block) (a : Nat) (short : Bool) : State × Bool :=
  match blockLen short b.data with
  | none => (s.faultPort p q, false)
  | some n =>
    if !s.inWin p a n then (s.faultPort p q, false)
    else match s.devWrite e a (marked b (b.data.take n)) with
      | some s' => (s'.mirrorTouch p a, true)
      | none => (s.faultPort p q, false)

/-- An add of 1 to a mordant of the partition, by offset; FFFFh names none, and an offset beyond the range no mordant of the partition (assumption log 130). -/
def State.addOffset (s : State) (p : Part) (off : Nat) : State :=
  if off = 0xFFFF then s
  else match s.morRange p with
    | some (a, z) => if z - a < off then s else { s with morOps := s.morOps ++ [⟨none, p, BitVec.ofNat 16 (a + off), false, 1, false⟩] }
    | none => s

/-- A multicast block is written here when the entry says DELIV (R364). Which full block is the last of its NET.SEND the block does not
show: whether DMOR is applied after a full block is free (assumption log 19), but at the root, which knows (`last`). -/
def State.treeDeliver (s : State) (e : MemEcc) (p : Part) (q : PortId) (t : Nat) (b : Block) (ends : Option Bool) : State :=
  if !bit t 125 then s
  else
    let short := bit b.net 0
    let last := ends.getD (short || (Config.freeWord s.draws).getLsbD 0)
    let s := if short || ends.isSome then s else { s with draws := s.draws + 1 }
    let r := s.blockWrite e p q b (bits b.net 32 1 * 16) short
    if r.2 && last then r.1.addOffset p (bits t 59 44) else r.1

/-! ### Delivered scheduled blocks (R338, R347, R349) -/

/-- The delivered scheduled block at the head of a port, of type `tt`, and the state without it. -/
def State.takeSched (s : State) (q : PortId) (tt : Nat) : Option (Block × State) :=
  match (s.port q).inSched with
  | b :: l => if bits b.net 47 44 = tt then some (b, s.modPort q fun x => { x with inSched := l }) else none
  | [] => none

/-- The partition of a scheduled block, or the count of a block without one (R338). -/
def State.schedPart (s : State) (q : PortId) : Except State Part :=
  match s.portOwner q with
  | some p => if s.loaded p then .ok p else .error (s.count 0x9082 (p.val + 1))
  | none => .error (s.count 0x9082 (bits (s.reg 0x2120 (q.val + 1)) 57 56 + 1))

def blkRoute (b : Block) : Nat := bits b.net 43 34

/-- Route entry under which a block arrives, checked (R349): valid, for this port, transit or destination, and of the block's kind. -/
def State.arrivalEntry (s : State) (p : Part) (q : PortId) (b : Block) (reduce : Bool) : Option Nat :=
  let e := s.routeEntry p (blkRoute b)
  let role := bits e 126 125
  if bit e 127 && (role = 1 || role = 2) && bits e 120 116 = q.val && (role = 1 || (bits e 48 45 = 1) = reduce) then some e else none

/-- μ(s) (R347). -/
def mu (slot : Nat) : Nat := slot + slot / 4

/-- The mesh launch slot and the departure slot of R347 lie in range; the departure with its frame. A sum of 752 or more is reduced once. -/
def transitSlot (slot frame shift moff : Nat) : Option (Nat × Nat) :=
  let l := (mu slot + moff) % 1024
  let d : Nat × Nat := if slot + shift < 752 then (slot + shift, frame) else (slot + shift - 752, frame + 1)
  if 959 < l || 703 < d.1 then none else some d

/-- Departure of a multicast block under a tree entry (R347, R364). At a device without an output port there is none, so only the launch slot counts. -/
def treeSlot (t slot frame : Nat) : Option (Nat × Nat) :=
  if treePorts t = [] then (if 959 < (mu slot + bits t 67 60) % 1024 then none else some (slot, frame))
  else transitSlot slot frame (bits t 91 82) (bits t 67 60)

/-- A delivered scheduled block goes on to its port of departure (R347 to R349). -/
def execScheduledBlockTransit (port : PortId) (s : State) : Host.Outcome State Fault Refusal :=
  match (s.port port).inSched with
  | [] => noEvent s
  | b :: l =>
    let s' := s.modPort port fun x => { x with inSched := l }
    if 5 < bits b.net 47 44 then noEvent s
    else match s'.schedPart port with
      | .error s'' => next s''
      | .ok p => match s'.arrivalEntry p port b (decide (bits b.net 47 44 = 5)) with
        | none => next (s'.faultPort p port)
        | some e =>
          if bits e 126 125 ≠ 1 then noEvent s
          else match transitSlot b.slot b.frame (bits e 86 77) (bits e 76 69) with
            | none => next (s'.faultPort p port)
            | some (sl, fr) =>
              if bits e 115 111 < 28 then next (s'.schedule p (fin (bits e 115 111)) { b with slot := sl, frame := fr })
              else next (s'.faultPort p port)

/-- Number of the group entry's engine, and of its parts and blocks (Table 12-5). -/
def grpEng (g : Nat) : Eng := fin (bits g 254 253)
def grpFmt (g : Nat) : Fmt := if bit g 251 then .fp32 else .fp16
def grpParts (g : Nat) : Nat := bits g 250 239 + 1
def grpElems (g : Nat) : Nat := bits g 238 214 + 1
/-- Elements of a block. -/
def grpPer (g : Nat) : Nat := if bit g 251 then 60 else 120
def grpBlocks (g : Nat) : Nat := (grpElems g + grpPer g - 1) / grpPer g
def grpOut (g : Nat) : Nat := bits g 213 212

/-- Where the result of a reduce block would wait on its way to this device's memory (OUT 00b, R289, R370). -/
def State.stuckReduce (s : State) (p : Part) (gi : Nat) (b : Block) : Option (Nat × Nat) :=
  let g := s.groupEntry p gi
  if grpOut g ≠ 0 then none else s.stuckAccess none (reduceNode (grpEng g)) (bits g 183 152 * 16 + 240 * bits b.net 18 0) 240 false

/-- A reduce block waits: its result cannot be written now. -/
def State.reduceWaits (s : State) (p : Part) (gi : Nat) (b : Block) : Bool :=
  let g := s.groupEntry p gi
  (s.stuckReduce p gi b).isSome || (grpOut g = 0 && !s.mayServe (bits g 183 152 * 16 + 240 * bits b.net 18 0) 240)

/-- A delivered block waits: a crossing on its way to memory holds it back, or a channel carries maintenance (R164, R289). -/
def State.blockWaits (s : State) (q : PortId) (b : Block) : Bool :=
  (s.stuckBlock q b).isSome || match s.blockAccess q b with
    | some (_, a, n, _) => !s.mayServe a n
    | none => false

/-- A delivered scheduled block at its destination: the checks of R338, R347 and R349, then its effect. A block that its way to memory or a channel holds back waits (R164, R289). -/
def atDest (tt : Nat) (port : PortId) (s : State) (f : State → Part → Block → Nat → State) : Host.Outcome State Fault Refusal :=
  match s.takeSched port tt with
  | none => noEvent s
  | some (b, s') => match s'.schedPart port with
    | .error s'' => next s''
    | .ok p => match s'.arrivalEntry p port b (decide (tt = 5)) with
      | none => next (s'.faultPort p port)
      | some e =>
        if bits e 126 125 = 1 || s'.blockWaits port b || (tt = 5 && s'.reduceWaits p (bits e 44 37) b) then noEvent s
        else if 959 < (mu b.slot + bits e 76 69) % 1024 then next (s'.faultPort p port)
        else next (f s' p b e)

/-- A write block (R338, R341). -/
def execWrite (port : PortId) (ecc : MemEcc) (s : State) : Host.Outcome State Fault Refusal :=
  atDest 0 port s fun s p b _ => (s.blockWrite ecc p port b (bits b.net 33 2 * 16) (bit b.net 0)).1

/-- The fields of a read request (Table 12-2). -/
structure ReadReq where
  src : Nat
  bytes : Nat
  st : Nat
  ftag : Nat
  hdr : Bool
  qdev : W16
  qpart : Nat
  rdev : Nat
  deriving DecidableEq, Repr

def readReqOf (l : List Byte) : ReadReq :=
  let v := leNat l
  ⟨bits v 63 0, bits v 95 64, bits v 100 96, bits v 108 104, bit v 112, BitVec.ofNat 16 (bits v 143 128), bits v 145 144, bits v 175 160⟩

/-- What a response carries: with HDR the copy block header, then the bytes that follow its granule (R198, R341). -/
def State.readSource (s : State) (e : MemEcc) (r : ReadReq) : List PByte × State :=
  let h := if r.hdr then s.devRead e r.src 64 else ([], s)
  let d := h.2.devRead e (r.src + if r.hdr then 4096 else 0) r.bytes
  (h.1 ++ d.1, d.2)

/-- The responder's part of a read (R342, R346): the source is read and the response begins, or fault 01h and no response. BYTES and STN are in range in every request that a device sends;
one that is not is refused like a mismatch (assumption log 18). -/
def State.respond (s : State) (ecc : MemEcc) (p : Part) (q : PortId) (b : Block) (route : Nat) : State :=
  let r := readReqOf b.data
  let n := r.bytes + (if r.hdr then 4096 else 0)
  if r.rdev ≠ s.reg 0x1020 0 || r.bytes = 0 || 2097152 < r.bytes || 17 < r.st || !s.inWin p r.src n then s.faultPort p q
  else
    let d := s.readSource ecc r
    { d.2 with xfers := d.2.xfers ++ [{
        kind := .readResp, st := fin r.st, part := p, pc := noPc, vat := 33, slot := 0, route := route, dest := r.qdev, addr := 0, data := d.1
        bytes := r.bytes, blk := 0, rpart := 0, fmt := 0, hdr := r.hdr, ftag := r.ftag, dpart := r.qpart, start := b.frame, flg := 0, base := 0, ridx := 0
        value := 0, last := none }] }

/-- A read request block (R342, R346, R356). -/
def execReadRequest (port : PortId) (ecc : MemEcc) (s : State) : Host.Outcome State Fault Refusal :=
  atDest 1 port s fun s p b e => s.respond ecc p port b (bits e 36 27)

/-- A response block reaches the fetch it belongs to (R341); none is left of a fetch that has ended. With it the fetch knows the port of its response route (R208, R356). -/
def State.fetchBlock (s : State) (p : Part) (q : PortId) (st ftag blk : Nat) (b : Block) : State :=
  let hit (f : Fetch) : Bool := f.st.val = st && f.remote && f.reqId = ftag && f.data.isNone && s.ownerOf f.st = some p
  match s.fetches.findIdx? hit with
  | none => s
  | some i => match s.fetches[i]? with
    | none => s
    | some f =>
      let l := marked b b.data
      let got := f.got ++ (if f.hdr && blk = 0 then l.take 64 else l)
      let n := f.bytes + (if f.hdr then 64 else 0)
      { s with fetches := lset s.fetches i { f with ports := setAdd f.ports q.val, got := got, data := if n ≤ got.length then some (got.take n) else none } }

/-- A read response block (R341, R356). -/
def execReadResponse (port : PortId) (s : State) : Host.Outcome State Fault Refusal :=
  atDest 2 port s fun s p b _ => s.fetchBlock p port (bits b.net 33 29) (bits b.net 28 24) (bits b.net 23 10) b

/-- A remote mordant operation (R344, R361). -/
def State.remoteMor (s : State) (p : Part) (q : PortId) (b : Block) (off : Nat) (set : Bool) : State :=
  match s.morRange p with
  | some (a, z) =>
    if z - a < off then s.faultPort p q
    else { s with morOps := s.morOps ++ [⟨none, p, BitVec.ofNat 16 (a + off), set, BitVec.ofNat 64 (leNat (b.data.take 8)), b.poison⟩] }
  | none => s.faultPort p q

def execMordantAdd (port : PortId) (s : State) : Host.Outcome State Fault Refusal :=
  atDest 3 port s fun s p b _ => s.remoteMor p port b (bits b.net 33 18) false

def execMordantSet (port : PortId) (s : State) : Host.Outcome State Fault Refusal :=
  atDest 4 port s fun s p b _ => s.remoteMor p port b (bits b.net 33 18) true

/-- A multicast block at a device of its tree (R347, R364, R366). -/
def execMulticastWrite (port : PortId) (ecc : MemEcc) (s : State) : Host.Outcome State Fault Refusal :=
  match s.takeSched port 6 with
  | none => noEvent s
  | some (b, s') => match s'.schedPart port with
    | .error s'' => next s''
    | .ok p =>
      let tree := bits b.net 43 33
      let t := s'.treeEntry p tree
      if (s'.branch p tree none).isSome then next s'
      else if bit t 125 && s'.blockWaits port b then noEvent s
      else if !bit t 127 || bit t 126 || bits t 124 120 ≠ port.val then next (s'.faultPort p port)
      else match treeSlot t b.slot b.frame with
        | none => next (s'.faultPort p port)
        | some (sl, fr) =>
          let s' := (treePorts t).foldl (fun s o => s.branchOut p tree o { b with slot := sl, frame := fr }) s'
          next (s'.treeDeliver ecc p port t b none)

/-- A fence block (R366). An FMOR offset at or beyond the range names no mordant of the partition, and no flag is set: DESIGN CHOICE (assumption log 130). -/
def execFence (port : PortId) (s : State) : Host.Outcome State Fault Refusal :=
  match s.takeSched port 7 with
  | none => noEvent s
  | some (b, s') => match s'.schedPart port with
    | .error s'' => next s''
    | .ok p =>
      let tree := bits b.net 43 33
      let t := s'.treeEntry p tree
      let fmor := bits t 43 28
      let s' := match s'.morRange p with
        | some (a, z) => if bit t 125 && fmor ≠ 0xFFFF && fmor ≤ z - a then s'.setMor (a + fmor) { s'.mor (a + fmor) with failed := true } else s'
        | none => s'
      let s' := s'.modBranch p tree none fun c => { c with fenced := true }
      let s' := (treePorts t).foldl (fun s o => s.modPort o fun x => { x with fences := x.fences ++ [fenceBlock tree] }) s'
      next (s'.raise (some p) 8 0x0801 (sitePort port))

/-- A credit block (R353). -/
def execCredit (port : PortId) (s : State) : Host.Outcome State Fault Refusal :=
  match s.takeSched port 0xD with
  | none => noEvent s
  | some (b, s') =>
    let c (i : Fin 4) : Nat := bits b.net (43 - 11 * i.val) (33 - 11 * i.val)
    next (s'.modPort port fun x => { x with credits := Vector.ofFn fun i => min 16 (vget x.credits i + c i) })

/-! ### Open traffic (R351 to R354) -/

/-- A delivered open block at the head of a channel, with the state without it; the freed entry is a credit to return (R353). -/
def State.takeOpen (s : State) (q : PortId) (ok : Block → Bool) : Option (Block × State) :=
  match (List.finRange 4).find? fun c => match vget (s.port q).inOpen c with
      | b :: _ => ok b
      | [] => false
  with
  | some c => match vget (s.port q).inOpen c with
    | b :: l => some (b, s.modPort q fun x => { x with inOpen := vset x.inOpen c l, owed := vmod x.owed c (· + 1) })
    | [] => none
  | none => none

def blkDev (b : Block) : Nat := bits b.net 43 28

/-- An open block of type `tt` for this device, in the partition it names (R338). -/
def atOpen (tt : Nat) (port : PortId) (s : State) (f : State → Part → Block → State) : Host.Outcome State Fault Refusal :=
  match s.takeOpen port fun b => bits b.net 47 44 = tt && blkDev b = s.reg 0x1020 0 with
  | none => noEvent s
  | some (b, s') =>
    let p : Part := fin (bits b.net 27 26)
    if !s'.loaded p then next (s'.count 0x9082 (p.val + 1))
    else if s'.blockWaits port b then noEvent s
    else next (f s' p b)

/-- An open write, into the partition's landing window (R354). -/
def State.openWrite (s : State) (ecc : MemEcc) (p : Part) (q : PortId) (b : Block) : State :=
  let w := s.reg 0x5201 (p.val + 1)
  let off := bits b.net 23 1
  let n := (blockLen (bit b.net 0) b.data).getD 240
  if !bit w 63 || bits w 59 32 * 16 < off * 16 + n then s.faultPort p q
  else (s.blockWrite ecc p q b (bits w 31 0 * 16 + off * 16) (bit b.net 0)).1

def State.openRead (s : State) (ecc : MemEcc) (p : Part) (q : PortId) (b : Block) : State := s.respond ecc p q b openRoute

def State.openResponse (s : State) (p : Part) (q : PortId) (b : Block) : State :=
  s.fetchBlock p q (bits b.net 23 19) (bits b.net 18 14) (bits b.net 13 0) b

def State.openMor (s : State) (p : Part) (q : PortId) (b : Block) (set : Bool) : State := s.remoteMor p q b (bits b.net 23 8) set

def execOpenWrite (port : PortId) (ecc : MemEcc) (s : State) : Host.Outcome State Fault Refusal := atOpen 8 port s fun s p b => s.openWrite ecc p port b

def execOpenReadRequest (port : PortId) (ecc : MemEcc) (s : State) : Host.Outcome State Fault Refusal := atOpen 9 port s fun s p b => s.openRead ecc p port b

def execOpenReadResponse (port : PortId) (s : State) : Host.Outcome State Fault Refusal := atOpen 0xA port s fun s p b => s.openResponse p port b

def execOpenMordantAdd (port : PortId) (s : State) : Host.Outcome State Fault Refusal :=
  atOpen 0xB port s fun s p b => s.openMor p port b false

def execOpenMordantSet (port : PortId) (s : State) : Host.Outcome State Fault Refusal :=
  atOpen 0xC port s fun s p b => s.openMor p port b true

/-- An open block of the device for its own ID is delivered (R351), in the partition it names. -/
def State.ownOpen (s : State) (ecc : MemEcc) (q : PortId) (b : Block) : State :=
  let p : Part := fin (bits b.net 27 26)
  if !s.loaded p then s.count 0x9082 (p.val + 1)
  else match bits b.net 47 44 with
    | 8 => s.openWrite ecc p q b
    | 9 => s.openRead ecc p q b
    | 0xA => s.openResponse p q b
    | 0xB => s.openMor p q b false
    | _ => s.openMor p q b true

/-- An open block for another device leaves on its entry's port, or is discarded and counted (R351, R352). -/
def execOpenBlockForward (port : PortId) (s : State) : Host.Outcome State Fault Refusal :=
  match s.takeOpen port fun b => blkDev b ≠ s.reg 0x1020 0 with
  | none => noEvent s
  | some (b, s') =>
    let e := domNat (s'.dom 0x5200 0) (blkDev b) 1
    let vc := bits b.net 25 24
    let vc' := if bit e 6 then vc / 2 * 2 + 1 else vc
    if !bit e 7 || 27 < bits e 4 0 then next (s'.count 0x9080 (port.val + 1))
    else
      let o : PortId := fin (bits e 4 0)
      if !s'.portUp o then next (s'.count 0x9080 (port.val + 1))
      else
        next (s'.modPort o fun x => { x with outOpen := vmod x.outOpen (fin vc') fun l => l ++ [b.onChannel vc'] })

/-! ### A port takes the next block (R316) -/

/-- The next block of transfer `k` leaves: a multicast on all its branches, an open block into its channel, any other on its route's port. -/
def State.emitXfer (s : State) (ecc : MemEcc) (q : PortId) (k : Nat) (x : Xfer) : State :=
  match x.kind with
  | .multicast =>
    let t := s.treeEntry x.part x.route
    let b := xferBlock s x x.blk
    let s := (treePorts t).foldl (fun s o => s.branchOut x.part x.route o b) s
    (s.treeDeliver ecc x.part q t b (some (decide (x.blk + 1 = x.blocks)))).xferStep k x
  | _ =>
    if x.route = openRoute then
      let b := openBlock s x x.blk
      let s' := s.xferStep k x
      if x.dest = BitVec.ofNat 16 (s.reg 0x1020 0) then s'.ownOpen ecc q b
      else
        let vc : Nat := (if x.kind = .readResp then 2 else 0) + b2n (bit (domNat (s.dom 0x5200 0) x.dest.toNat 1) 6)
        match s.xferPort x with
        | some o =>
          if s.portUp o then s'.modPort o fun y => { y with outOpen := vmod y.outOpen (fin vc) fun l => l ++ [b.onChannel vc] }
          else s'.count 0x9080 (q.val + 1)
        | none => s'.count 0x9080 (q.val + 1)
    else (s.schedule x.part q (xferBlock s x x.blk)).xferStep k x

/-- The memory access of the next block of a transfer when it is for this device itself, on a tree with local delivery or to its own ID: address, bytes, and whether it reads. -/
def State.localAccess (s : State) (x : Xfer) : Option (Nat × Nat × Bool) :=
  if x.kind = .multicast then
    if bit (s.treeEntry x.part x.route) 125 then some (x.addr + 240 * (x.blk - x.base), min 240 (x.bytes - 240 * (x.blk - x.base)), false) else none
  else if x.route = openRoute && x.dest = BitVec.ofNat 16 (s.reg 0x1020 0) then (s.blockAccess 0 (openBlock s x x.blk)).map (·.2)
  else none

/-- It waits on its way to memory (R164, R289). -/
def State.localWaits (s : State) (x : Xfer) : Bool := (s.localAccess x).any fun y => s.accessWaits (xferIsl x) (xferNode x) y.1 y.2.1 y.2.2

/-- The crossing that holds it back. -/
def State.localStuck (s : State) (x : Xfer) : Option (Nat × Nat) := (s.localAccess x).bind fun y => s.stuckAccess (xferIsl x) (xferNode x) y.1 y.2.1 y.2.2

/-- An open transfer whose blocks leave by no port: to the device itself, without an entry, or on a port that is not UP (R351). -/
def State.noWayOut (s : State) (x : Xfer) : Bool :=
  (s.stuckXfer x).isNone && !s.localWaits x && x.kind ≠ .multicast && x.route = openRoute && (x.dest = BitVec.ofNat 16 (s.reg 0x1020 0) || match s.xferPort x with
    | some o => !s.portUp o
    | none => true)

/-- The transfer gives its next block when port `q` accepts, unless it waits on its way there. A reduction within the device gives its blocks to its engine instead. -/
def State.leavesBy (s : State) (q : PortId) (x : Xfer) : Bool :=
  (s.stuckXfer x).isNone && !s.localWaits x && match x.kind with
  | .multicast =>
    let ps := treePorts (s.treeEntry x.part x.route)
    ps = [] || ps.head? = some q
  | _ =>
    if x.route = openRoute then s.noWayOut x || s.xferPort x = some q
    else s.xferPort x = some q && bits (s.routeEntry x.part x.route) 126 125 ≠ 3

/-- A branch of a tree with blocks kept for the port. -/
def State.keptFor (s : State) (q : PortId) : Option BranchBuf := s.fab.branches.find? fun b => b.port = some q && b.blocks ≠ []

/-- A port accepts a block from its mesh node (R316, R365): scheduled blocks first, then a branch buffer, then a transfer of the device. A block that waits to enter a full retry buffer
makes the port retrain. A restricted port carries nothing scheduled (R323): what the calendar has for it waits.
What an open transfer gives to no port is delivered or discarded at any port's turn (R351). -/
def execPortAcceptsBlock (port : PortId) (ecc : MemEcc) (s : State) : Host.Outcome State Fault Refusal :=
  if !s.portUp port then
    match s.xfers.findIdx? s.noWayOut with
    | none => noEvent s
    | some k => match s.xfers[k]? with
      | none => noEvent s
      | some y => next (s.emitXfer ecc port k y)
  else
    let x := s.port port
    let sched := !s.restricted port
    let kept := if sched && s.behindOn port < 704 then s.keptFor port else none
    let waits := (sched && x.outSched ≠ []) || kept.isSome
    if waits && 4095 ≤ x.buf.length then next (s.askRetrain port)
    else match (if sched then x.outSched else []) with
      | b :: l => next ((s.modPort port fun x => { x with outSched := l }).acceptBlock port b)
      | [] =>
        match kept with
        | some c =>
          let s' := s.modBranch c.part c.tree c.port fun c => { c with blocks := c.blocks.drop 1 }
          next (s'.acceptBlock port (c.blocks.headD (fenceBlock 0)))
        | none =>
          match s.xfers.findIdx? fun y => s.leavesBy port y && (sched || (y.route = openRoute && y.kind ≠ .multicast)) with
          | none => noEvent s
          | some k => match s.xfers[k]? with
            | none => noEvent s
            | some y =>
              let s' := s.emitXfer ecc port k y
              match (s'.port port).outSched with
              | b :: l => if sched && (s'.port port).buf.length < 4095 then next ((s'.modPort port fun x => { x with outSched := l }).acceptBlock port b) else next s'
              | [] => next s'

/-! ### Reduction (R367 to R375) -/

def State.redGroup (s : State) (p : Part) (g : Nat) : RedGroup :=
  (s.fab.groups.find? fun r => r.part = p && r.grp = g).getD ⟨p, g, [], 0, s.frameNo⟩

def State.setGroup (s : State) (r : RedGroup) : State :=
  { s with fab := { s.fab with groups := (s.fab.groups.filter fun x => !(x.part = r.part && x.grp = r.grp)) ++ [r] } }

def State.norm (s : State) (p : Part) (e : Eng) (i : Nat) : DD :=
  match s.fab.norms.find? fun n => n.part = p && n.eng = e && n.idx = i with
  | some n => ⟨f32 n.hi.toNat, f32 n.lo.toNat⟩
  | none => DD.zero

def State.setNorm (s : State) (p : Part) (e : Eng) (i : Nat) (d : DD) : State :=
  { s with fab := { s.fab with
      norms := (s.fab.norms.filter fun n => !(n.part = p && n.eng = e && n.idx = i)) ++ [⟨p, e, i, w32 d.hi, w32 d.lo⟩] } }

/-- Elements of a payload. -/
def blockVals (f : Fmt) (n : Nat) (l : List Byte) : List Val :=
  (chunks (f.width / 8) n l).map fun c => f.decode (leNat c)

/-- Sum of one element's parts in the group's order (R118, R369), with its clamps and non-finite values. -/
def combineElem (g : Nat) (vs : List Val) : Val × Fl :=
  let f := grpFmt g
  let r : Option Val × Bool :=
    if bit g 252 then
      let o := vs.dropLast.foldl (fun (o : List (Option Val) × Bool) v =>
        let c := carryIn f o.1 (some v)
        (c.1, o.2 || c.2.2)) (List.replicate 13 none, false)
      let c := carryOut f o.1 vs.getLast?
      (c.1, o.2 || c.2)
    else vs.foldl (fun (o : Option Val × Bool) v =>
      let c := addE f o.1 (some v)
      (c.1, o.2 || c.2)) (none, false)
  let v := r.1.getD (.num false 0)
  (v, ⟨r.2, 1 < vs.length && !v.finite⟩)

/-- The flags of a reduction into OD 6161h (R370). -/
def State.orReduce (s : State) (p : Part) (fl : Fl) : State :=
  s.setReg 0x6161 (p.val + 1) (s.reg 0x6161 (p.val + 1) ||| (b2n fl.ovf + 2 * b2n fl.nv))

/-- A block or write that an engine sends on: a transfer of its own (R370, R374, R375). Its place in the run of its route counts from the frame `start`. -/
def engXfer (kind : XferKind) (p : Part) (g : Eng) (route addr : Nat) (data : List Byte) (start : Nat) : Xfer :=
  { kind := kind, st := fin g.val, part := p, pc := noPc, vat := 33, slot := 0, route := route, dest := 0, addr := addr, data := clean data
    bytes := data.length, blk := 0, rpart := 0, fmt := 0, hdr := false, ftag := 0, dpart := 0, start := start, flg := 0, base := 0, ridx := 0
    value := 0, last := none }

/-- Result `blk` of a round: block `blk` of the run that the round's results take (R346, R370). -/
def Xfer.asResult (x : Xfer) (blk rpart fmt flg : Nat) : Xfer := { x with blk := blk, base := blk, ridx := blk, rpart := rpart, fmt := fmt, flg := flg }

def State.push (s : State) (x : Xfer) : State := { s with xfers := s.xfers ++ [x] }

def fmtCodeOf (g : Nat) : Nat := if bit g 251 then 2 else 1

/-- The result of block BLK leaves as OUT requires (R370); `start` is the frame in which the round began. -/
def State.reduceOut (s : State) (ecc : MemEcc) (p : Part) (g blk start : Nat) (data : List Byte) (fl : Fl) : State :=
  let addr := bits g 183 152 * 16 + 240 * blk
  let site := reduceSite (grpEng g) 0xFF noPc
  match grpOut g with
  | 0 =>
    if !s.inWin p addr data.length then s.raise (some p) 1 0x0102 site
    else match s.devWrite ecc addr (clean data) with
      | some s' => s'.orReduce p fl
      | none => s.raise (some p) 1 0x0102 site
  | 1 => s.push ((engXfer .reduce p (grpEng g) (bits g 140 131) 0 data start).asResult blk (bits g 130 119) (fmtCodeOf g) (b2n fl.ovf + 2 * b2n fl.nv))
  | _ => (s.push ((engXfer .multicast p (grpEng g) (bits g 151 141) addr data start).asResult blk 0 0 0)).orReduce p fl

/-- Squares of the results into the group's accumulator (R374); one beyond the largest finite value is clamped (R95, assumption log 113). -/
def State.reduceNorm (s : State) (p : Part) (g : Nat) (vs : List Val) : State :=
  if !bit g 211 then s
  else
    let i := bits g 210 207
    s.setNorm p (grpEng g) i (vs.foldl (fun d v => (ddAdd d ((v.mulX v).rnd .fp32).1).1) (s.norm p (grpEng g) i))

/-- The clip scale of a norm final group (R375). -/
def clipScale (g : Nat) (d : DD) (nv : Bool) : Val :=
  let c := f32 (bits g 80 49)
  let eps := f32 (bits g 48 17)
  let bad : Bool := match d.hi with
    | .nan => true
    | .inf n => !n
    | _ => false
  if bad || nv then .nan
  else
    let q := c.divX ((rootX d.hi).addX eps)
    match q with
    | .num n m => if !n && 1 < m then .num false 1 else (Val.num n m).rne .fp32
    | .inf n => if n then .inf true else .num false 1
    | .nan => .nan

/-- The parts of the final norm: dd_add of each hi and lo in part order (R375). -/
def normSum (bs : List Block) : DD :=
  bs.foldl (fun d b =>
    let v := blockVals .fp32 2 (b.data.take 8)
    (ddAdd (ddAdd d (v.getD 0 (.num false 0))).1 (v.getD 1 (.num false 0))).1) DD.zero

/-- The end of a round (R368, R374): CMOR, the norm emission, and the next round. -/
def State.roundEnd (s : State) (p : Part) (gi g : Nat) : State :=
  let s := s.setGroup { s.redGroup p gi with combined := 0 }
  let s := if bit g 206 then
      let d := s.norm p (grpEng g) (bits g 210 207)
      let data := leBytes 4 (w32 d.hi).toNat ++ leBytes 4 (w32 d.lo).toNat
      (s.push ((engXfer .reduce p (grpEng g) (bits g 205 196) 0 data s.frameNo).asResult 0 (bits g 195 184) 2 (2 * b2n (!d.hi.finite)))).setNorm p (grpEng g) (bits g 210 207) DD.zero
    else s
  s.addOffset p (bits g 118 103)

/-- All parts of block BLK are there (R369, R370, R375). A poisoned part is consumed (R344). -/
def State.combineBlock (s : State) (ecc : MemEcc) (p : Part) (gi g blk : Nat) (bs : List Block) : State :=
  if bs.any (·.poison) then s.raise (some p) 4 0x0401 (reduceSite (grpEng g) 0xFF noPc)
  else
    let r := s.redGroup p gi
    let start := if r.combined = 0 then s.frameNo else r.start
    let s := s.setGroup { r with combined := r.combined + 1, start := start }
    let nv := bs.any fun b => bit b.net 20
    let ov := bs.any fun b => bit b.net 19
    let s := if grpOut g = 3 then
        let k := clipScale g (normSum bs) nv
        s.push (engXfer .multicast p (grpEng g) (bits g 151 141) (bits g 183 152 * 16) (leBytes 16 (w32 k).toNat) start)
      else
        let n := min (grpPer g) (grpElems g - grpPer g * blk)
        let parts := bs.map fun b => blockVals (grpFmt g) n b.data
        let rs := (List.range n).map fun i => combineElem g (parts.map fun l => l.getD i (.num false 0))
        let fl := rs.foldl (fun f r => f.or r.2) ⟨ov, nv⟩
        let data := rs.flatMap fun r => leBytes ((grpFmt g).width / 8) ((grpFmt g).encode r.1)
        (s.reduceNorm p g (rs.map (·.1))).reduceOut ecc p g blk start data fl
    if (s.redGroup p gi).combined = grpBlocks g then s.roundEnd p gi g else s

/-- A reduce block at its engine: the checks of R368, its place in the buffer (R372), and the combine when it is the last part. -/
def State.reduceBlock (s : State) (ecc : MemEcc) (p : Part) (gi : Nat) (b : Block) : State :=
  let g := s.groupEntry p gi
  let part := bits b.net 33 22
  let blk := bits b.net 18 0
  let r := s.redGroup p gi
  let bad := s.raise (some p) 1 0x0102 (reduceSite (grpEng g) 0xFF noPc)
  if !bit g 255 || grpParts g ≤ part || (bit b.net 21 != bit g 251) || grpBlocks g ≤ blk || blk < r.combined
    || (r.waiting.any fun w => w.1 = part && w.2.1 = blk) then bad
  else
    let mine := r.waiting.filter fun w => w.2.1 = blk
    if mine.length + 1 = grpParts g then
      let all := (List.range (grpParts g)).map fun i =>
        if i = part then b else match mine.find? fun w => w.1 = i with
          | some w => w.2.2
          | none => b
      (s.setGroup { r with waiting := r.waiting.filter fun w => w.2.1 ≠ blk }).combineBlock ecc p gi g blk all
    else if bits g 91 81 * 65536 ≤ r.bytes then bad
    else s.setGroup { r with waiting := r.waiting ++ [(part, blk, b)] }

/-- Half of a reduction engine. -/
def engHalf (g : Eng) : Half := if g.val < 2 then .west else .east

/-- A reduce block that arrives on a port is combined by the engine of the port's cluster and by no other (R27): the group of another engine is no place for it, fault 01h at the
port (assumption log 131). -/
def State.reduceAt (s : State) (ecc : MemEcc) (q : PortId) (p : Part) (b : Block) (gi : Nat) : State :=
  if (grpEng (s.groupEntry p gi)).val = q.val / 7 then s.reduceBlock ecc p gi b else s.faultPort p q

/-- The crossing that holds the result of a reduce block at the head of a port back (R289). -/
def State.portReduceStuck (s : State) (q : PortId) (p : Part) : Option (Nat × Nat) :=
  match (vget s.ports q).inSched with
  | b :: _ => if bits b.net 47 44 = 5 then (s.arrivalEntry p q b true).bind fun e => s.stuckReduce p (bits e 44 37) b else none
  | [] => none

/-- The same of a transfer of the device itself, to its own memory or its own reduction engine. -/
def State.xferStuck (s : State) (x : Xfer) : Option (Nat × Nat) :=
  (s.stuckXfer x).orElse fun _ => (s.localStuck x).orElse fun _ =>
    if x.kind = .reduce && s.ownRoute x.part x.route then s.stuckReduce x.part (bits (s.routeEntry x.part x.route) 44 37) (xferBlock s x x.blk) else none

/-- Owners of the fabric traffic that waits at a crossing on its way to this device's memory. -/
def State.fabricOwners (s : State) (c : Nat × Nat) : List (Option Part) :=
  if !s.crossingHeld c || s.clk.recal.contains c then []
  else ((List.finRange 28).filterMap fun q => (s.portOwner q).bind fun p => if s.portReduceStuck q p = some c then some (some p) else none) ++
    (s.xfers.filter fun x => (s.stuckXfer x).isNone && s.xferStuck x = some c).map fun x => some x.part

/-- A reduce block reaches its group's engine: the one at the head of a port, or the next block of the device's own transfer `k` (R368). An engine of a half that does not run takes
none. -/
def execReduce (src : ReduceSrc) (ecc : MemEcc) (s : State) : Host.Outcome State Fault Refusal :=
  match src with
  | .port q => atDest 5 q s fun s p b e => s.reduceAt ecc q p b (bits e 44 37)
  | .own k => match s.xfers[k]? with
    | none => noEvent s
    | some x =>
      let e := s.routeEntry x.part x.route
      if x.kind ≠ .reduce || bits e 126 125 ≠ 3 || bits e 48 45 ≠ 1 || !s.halfUp (engHalf (grpEng (s.groupEntry x.part (bits e 44 37)))) || (s.stuckXfer x).isSome
          || s.reduceWaits x.part (bits e 44 37) (xferBlock s x x.blk) then noEvent s
      else
        let b := xferBlock s x x.blk
        next ((s.xferStep k x).reduceBlock ecc x.part (bits e 44 37) b)

end Sys2Proof.Machine
end

