-- ==== Sys2Proof/Machine/Ranges.lean ====
section
/-!
DEFINITION. What the station ranges, the row of active stations and the parked halves give: forms and n (R46, R48), hop latencies (R36), towers and ports in
service (R240).
-/
namespace Sys2Proof.Machine

/-- State of a station (OD 8000h). -/
def State.stationState (s : State) (st : St) : Nat := s.reg 0x8000 (st.val + 1)

/-- Good stations: in service or spare (OD 8001h). -/
def State.goodCount (s : State) : Nat := ((List.finRange 18).filter fun st => s.stationState st < 2).length

/-- A half is parked, or its park has been accepted (R492, R493). -/
def State.parked (s : State) (h : Half) : Bool := vget s.pwr.parking (halfNo h)

def otherHalf : Half → Half
  | .west => .east
  | .east => .west

/-- Stations of a partition's range, in CW order. -/
def State.rangeList (s : State) (p : Part) : List St :=
  match s.rangeOf p with
  | some (a, b) => rangeStations a b
  | none => []

/-- Stations of a range that are in service, in a half that is not parked (R8, R41, R48). -/
def State.activeStations (s : State) (p : Part) : List St :=
  (s.rangeList p).filter fun st => s.stationState st = 0 && !s.parked (stationHalf st)

/-- The range holds stations of both halves. -/
def State.crossesSeam (s : State) (p : Part) : Bool :=
  let l := s.rangeList p
  (l.any fun st => stationHalf st = .west) && l.any fun st => stationHalf st = .east

/-- Form of a partition's sub-ring: 0 no range, 1 full, 2 half, 3 open (R46, R48). -/
def State.ringForm (s : State) (p : Part) : Nat :=
  match s.rangeOf p with
  | none => 0
  | some (a, b) =>
    if (s.rangeList p).length = 18 then (if s.parked .west || s.parked .east then 2 else 1)
    else if (a = 0 && b = 8) || (a = 9 && b = 17) then 2 else 3

/-- Nominal and largest latency of the hop that leaves a station clockwise (Table 02-2). -/
def hopClass (st : Nat) : Nat × Nat :=
  if st = 3 || st = 4 || st = 12 || st = 13 then (4, 6) else if st = 8 || st = 17 then (6, 8) else (3, 4)

/-- The hop that leaves a station clockwise in a full or open sub-ring, or in a half ring closed through its chord: where it ends, and its class. -/
def nextHop (half : Bool) (st : Nat) : Nat × Nat × Nat :=
  if half && (st = 8 || st = 17) then (st - 8, 7, 10) else ((st + 1) % 18, hopClass st)

/-- Latencies of the hops from `a` clockwise to `b`. -/
def hopsTo (half : Bool) (b : Nat) : Nat → Nat → List (Nat × Nat)
  | 0, _ => []
  | fuel + 1, a =>
    let h := nextHop half a
    h.2 :: (if h.1 = b then [] else hopsTo half b fuel h.1)

/-- A hop or bypass hop from `a` clockwise to `b`: nominals less 1 sc for each station passed, and the sum of maxima. -/
def spanClass (half : Bool) (a b : Nat) : Nat × Nat :=
  let js := hopsTo half b 18 a
  ((js.map (·.1)).sum - (js.length - 1), (js.map (·.2)).sum)

/-- A partition's sub-ring takes its form over a row of stations (R46, R48). A range that holds no station of a half that runs keeps what it has.
Where a range short of 18 stations leaves two runs in the live half, S8 and S0 (or S17 and S9) become neighbours over the chord (assumption log 127). -/
def State.formRow (s : State) (p : Part) (row : List St) : State :=
  let r : SubRing := ⟨s.ringForm p, row, s.ringForm p = 2 || ((s.parked .west || s.parked .east) && s.crossesSeam p)⟩
  if (s.rangeOf p).isNone then s.modPart p fun x => { x with ring := none }
  else if (s.rangeList p).all fun st => s.parked (stationHalf st) then s
  else s.modPart p fun x => { x with ring := some r }

/-- At boot and at a job restart the steward forms the sub-ring of the stations in service, and bypasses the others (R42). -/
def State.formRing (s : State) (p : Part) : State := s.formRow p (s.activeStations p)

/-- A park or an unpark changes the form alone: a station that a failed crossing has retired since the last restart is not bypassed before the next one (R42, R282). -/
def State.reformRing (s : State) (p : Part) : State :=
  s.formRow p ((s.rangeList p).filter fun st => (s.stationState st = 0 || (s.hlt st).vacant) && !s.parked (stationHalf st))

/-- The hop that ends at a station on a lane of a sub-ring: its class latencies, or none for a cut hop or a bypassed station (OD 4600h, 4601h). -/
def SubRing.hopAt (r : SubRing) (st : St) (cw : Bool) : Option (Nat × Nat) :=
  let k := r.row.idxOf st
  let n := r.row.length
  if !r.row.contains st || n < 2 then none
  else
    let closed := r.form ≠ 3
    let prev := if cw then (if k = 0 then (if closed then r.row[n - 1]? else none) else r.row[k - 1]?)
      else if k + 1 = n then (if closed then r.row[0]? else none) else r.row[k + 1]?
    prev.map fun q => if cw then spanClass r.chord q.val st.val else spanClass r.chord st.val q.val

def State.hopAt (s : State) (st : St) (cw : Bool) : Option (Nat × Nat) :=
  (s.ownerOf st).bind fun p => (s.prt p).ring.bind fun r => r.hopAt st cw

/-- Calibrated latency of a hop of the sub-ring as it was formed, which lies between the nominal value of its class and its maximum (R36; assumption log 21). -/
def State.hopLatency (s : State) (st : St) (cw : Bool) : Nat :=
  match s.hopAt st cw with
  | none => 0
  | some (a, b) => a + Config.hopOver st.val (if cw then 0 else 1) % (b - a + 1)

/-- Towers in service for a load (R26, R48, R240). -/
def State.towersInService (s : State) (p : Part) : List Twr := (List.finRange 8).filter fun t => s.towerUp t && !vget (s.twr t).gone p && !s.parked (towerHalf t)

/-- The port list of a partition at a load: owned, UP and not restricted (R240, R506). -/
def State.portList (s : State) (p : Part) : List PortId :=
  (List.finRange 28).filter fun q => s.portOwner q = some p && s.portUp q && !s.restricted q && !s.parked (portHalf q)

/-- Any job is loaded (R549). -/
def State.anyLoaded (s : State) : Bool := (List.finRange 4).any fun p => s.loaded p

/-- An epoch of a partition is open in some tower. -/
def State.epochOpen (s : State) (p : Part) : Bool := (List.finRange 8).any fun t => (vget (s.twr t).epochs p).isSome

/-- The setting of a partition's stations in force: its own, lowered by a throttle of a half in which it has an active station and by the power limit (R533, R541). -/
def State.effectiveMhz (s : State) (p : Part) : Nat :=
  let own := s.reg 0x4100 (p.val + 1)
  let caps := [Half.west, Half.east].map fun h => (vget (vget s.pwr.thr (halfNo h)).caps p).getD own
  (caps ++ [(vget s.pwr.lim p).getD own]).foldl min own

end Sys2Proof.Machine
end

