-- ==== Sys2Proof/Machine/Dictionary.lean ====
section
/-!
DEFINITION. The object dictionary (R475 to R482, R550): requests and responses, roles (R469, R470), what entries read as, and what a write is checked for.
-/
namespace Sys2Proof.Machine

/-! ### Requests and responses (R476 to R479) -/

/-- A request as the mailbox holds it: header, SEQ and value. -/
def parseRequest (b : List Byte) : DictReq × W16 × List Byte :=
  let h := leNat (b.take 16)
  let n := bits h 95 80
  (⟨BitVec.ofNat 8 (bits h 7 0), BitVec.ofNat 8 (bits h 15 8), bit h 22,
    bits h 21 16 ≠ 0 || bit h 23 || bits h 31 24 ≠ 0 || bits h 79 72 ≠ 0, BitVec.ofNat 16 (bits h 63 48),
    BitVec.ofNat 8 (bits h 71 64), BitVec.ofNat 32 (bits h 127 96), BitVec.ofNat 16 n⟩, BitVec.ofNat 16 (bits h 47 32), (b.drop 16).take n)

/-- A write request of a whole value. -/
def writeReq (idx sub : Nat) (data : List Byte) : DictReq :=
  ⟨1, 2, false, false, BitVec.ofNat 16 idx, BitVec.ofNat 8 sub, 0, BitVec.ofNat 16 data.length⟩

/-- The request of a function that the steward serves next: one left behind by a reset of the function, else the one that keeps the mailbox busy (R479, R520). -/
def HostFn.boxed (x : HostFn) : Option (List Byte) :=
  match x.orphans with
  | b :: _ => some b
  | [] => if x.busy then some x.req else none

/-- The request is there to be served: in the mailbox of a busy function, or come over an open session. A read carries no value. -/
def State.asks (s : State) (via : Via) (r : DictReq) (data : List Byte) : Bool :=
  match via with
  | .pf f => match (s.fn f).boxed with
    | some b =>
      let q := parseRequest b
      q.1 = r && (r.kind ≠ 2 || q.2.2 = data)
    | none => false
  | .session n _ => (vget s.stw.sessions n).isSome

/-- SEQ of a request. -/
def State.seqOf (s : State) : Via → Nat
  | .pf f => (parseRequest ((s.fn f).boxed.getD [])).2.1.toNat
  | .session _ q => q.toNat

/-- The response is written, discarded after a reset of the function (R520), and for a session kept with those to the last 16 SEQ values (R478). -/
def State.answer (s : State) (via : Via) (b : List Byte) : State :=
  match via with
  | .pf f =>
    if (s.fn f).orphans ≠ [] then s.modFn f fun x => { x with orphans := x.orphans.drop 1 }
    else ((s.emit (.response via b)).modFn f fun x => { x with resp := b, done := true, busy := false }).vector f 0
  | .session n q => (s.emit (.response via b)).modSess n fun x => { x with
      kept := (if 16 ≤ x.kept.length then x.kept.drop 1 else x.kept) ++ [(q, b)], seen := s.time }

/-- The response to a request. -/
def State.reply (s : State) (via : Via) (r : DictReq) (status : Nat) (data : List Byte) : State :=
  s.answer via (message r.kind.toNat 0x80 status (s.seqOf via) r.index.toNat r.sub.toNat r.off.toNat data)

/-! ### What entries read as -/

/-- A half is throttled, the power limit acts, an emergency is latched: OD 4201h is kept as a register. -/
def State.odValue (s : State) (idx sub : Nat) : Nat :=
  let p : Part := fin (sub - 1)
  let st : St := fin (sub - 1)
  match idx with
  | 0x1120 => (s.stw.sessions.toList.filter Option.isSome).length
  | 0x4100 => s.effectiveMhz p
  | 0x4101 => s.clockNow st
  | 0x4400 => s.time.toNat
  | 0x4600 => s.hopLatency st true
  | 0x4601 => s.hopLatency st false
  | 0x4602 => match (s.prt p).ring with
    | some r => r.form * 64 + r.row.length
    | none => 0
  | 0x6000 => (s.prt p).jobState.toNat
  | 0x6004 => (s.prt p).endTime.toNat
  | 0x6005 => (s.prt p).firstFault.toNat
  | 0x6120 => (s.stn st).arr.shape.val
  | 0x6121 => (if (s.stn st).nv then 2 else 0) + (if (s.stn st).ovf then 1 else 0)
  | 0x6122 => (s.stn st).vec.split
  | 0x6141 => s.epochState p
  | 0x6152 => (s.prt p).contract.toNat
  | 0x6153 => (s.prt p).frame.toNat
  | 0x6179 => (s.prt p).sec.arm
  | 0x8001 => s.goodCount
  | _ => s.reg idx sub

/-- Header of a firmware slot's image, as bits (Table 15-5). -/
def fwHeader (b : Sparse Byte) : Nat := leNat ((List.range 64).map fun i => sget 0 b i)

/-- All bytes of a stored image, up to its last byte that is not zero. -/
def fwBytes (b : Sparse Byte) : List Byte := (List.range ((b.map fun e => e.1 + 1).foldl max 0)).map fun i => sget 0 b i

/-- A 48 B measurement. -/
def measure (l : List Byte) : List Byte := leBytes 48 (Config.sha384 l).toNat

def le64 (n : Nat) : List Byte := leBytes 8 n

/-- The user calibration entries, in order (measurement 6). -/
def State.userSet (s : State) : List Byte :=
  ((List.range 28).flatMap fun i => fit 0 170 (s.dom 0x3810 (i + 1))) ++ ((List.range 64).flatMap fun i => leBytes 2 (s.reg 0x3820 (i + 1))) ++
  leBytes 2 (s.reg 0x3830 0)

/-- The expected known-answer signatures, kernel by kernel and shape by shape (R158, R471). -/
def signatureSet : List Byte :=
  (List.range 65536).flatMap fun k => (List.range 4).flatMap fun h => leBytes 8 (Config.kernelSigs k h).1.toNat ++ leBytes 8 (Config.kernelSigs k h).2.toNat

/-- What Eloafold signs of the factory calibration set (R471). -/
def State.calibration (s : State) : List Byte :=
  fit 0 64 (s.dom 0x3000 0) ++ ((List.range 28).flatMap fun i => fit 0 170 (s.dom 0x3010 (i + 1))) ++
  ((List.range 64).flatMap fun i => leBytes 2 (s.reg 0x3020 (i + 1))) ++ ((List.range 72).flatMap fun i => leBytes 4 (s.reg 0x3030 (i + 1))) ++
  ((List.range 8).flatMap fun i => fit 0 256 (s.dom 0x3040 (i + 1))) ++ ((List.range 20).flatMap fun i => fit 0 64 (s.dom 0x3050 (i + 1))) ++
  signatureSet

/-- The factory calibration set as Table 15-2 has it, with its signature. -/
def State.factorySet (s : State) : List Byte := s.calibration ++ s.stw.factorySig

/-- The slot of a kind that is active: OD 1F00h state 03h, else A. -/
def State.activeSlot (s : State) (k : FwKind) : Fin 4 :=
  match k with
  | .bootcode => if vget s.stw.slot 1 = 3 then 1 else 0
  | .runtime => if vget s.stw.slot 3 = 3 then 3 else 2

def State.inactiveSlot (s : State) (k : FwKind) : Fin 4 :=
  match k with
  | .bootcode => if s.activeSlot .bootcode = 1 then 0 else 1
  | .runtime => if s.activeSlot .runtime = 3 then 2 else 3

/-- A measurement block (Table 15-9). The boot ROM's code is the unit's (assumption log 15). -/
def State.measurement (s : State) (i : Nat) : List Byte :=
  match i with
  | 1 => measure Config.bootRom
  | 2 => measure (fwBytes (vget s.stw.fw (s.activeSlot .bootcode)))
  | 3 => measure (fwBytes (vget s.stw.fw (s.activeSlot .runtime)))
  | 4 => measure s.factorySet
  | 5 => measure (s.stw.sealed.getD [])
  | 6 => measure s.userSet
  | _ => leBytes 2 (s.reg 0x1F03 0) ++ leBytes 1 (s.reg 0x1F04 0)

/-- Firmware slot entry (OD 1F00h). -/
def State.slotEntry (s : State) (i : Fin 4) : List Byte :=
  let h := fwHeader (vget s.stw.fw i)
  leBytes 16 ((vget s.stw.slot i).toNat * 2 ^ 72 + bits h 95 80 * 2 ^ 80 + bits h 63 32 * 2 ^ 96)

def ones (n : Nat) : List Byte := List.replicate n 0xFF

/-- An entry of OD 617Ah for one tier (R446); where it holds an image, its reserved field reads as zero (R14). -/
def imageEntry (imgs : List Image) (tier : Nat) : List Byte :=
  match imgs.find? fun i => i.tier = tier && i.complete with
  | none => ones 32
  | some i =>
    let clean := match imgs.find? fun j => j.tier = tier && j.complete && j.clean with
      | some j => le64 j.step.toNat
      | none => ones 8
    le64 0 ++ clean ++ le64 i.opened.toNat ++ le64 i.step.toNat

/-- Record at a place of the log, as a role sees it (R470): a partition reads other records as zero. -/
def State.logBytes (s : State) (role : Role) : List Byte :=
  (List.range 4096).flatMap fun i => match s.faults.find? fun r => r.seq.toNat % 4096 = i with
    | some r =>
      let stored := ((s.stw.badRecs.find? fun e => e.1 = i).map (·.2)).getD r.bytes
      match role with
      | .partition p => if r.part = p then stored else List.replicate 32 0
      | _ => stored
    | none => List.replicate 32 0

/-- The extent read holds a record of the log, readable by the role, whose CHK does not match (R415, Table 15-13). -/
def State.badRecordIn (s : State) (role : Role) (off n : Nat) : Bool :=
  s.stw.badRecs.any fun e => decide (e.1 * 32 < off + n) && decide (off < e.1 * 32 + 32) && (s.faults.any fun r => r.seq.toNat % 4096 = e.1 && match role with
    | .partition p => r.part = p
    | _ => true)

/-- Value of a DOMAIN entry as a role reads it. Entries with a fixed length read whole; those of OD 1010h, 1100h and 1F01h have a present length. -/
def State.odDomain (s : State) (role : Role) (idx sub len : Nat) : List Byte :=
  let p : Part := fin (sub - 1)
  match idx with
  | 0x1010 => s.dom idx sub
  | 0x1011 => (List.range 7).flatMap fun i => fit 0 48 (s.measurement (i + 1))
  | 0x1100 => s.dom idx sub
  | 0x1F00 => s.slotEntry (fin (sub - 1))
  | 0x1F01 => fwBytes (vget s.stw.fw (s.inactiveSlot (if sub = 1 then .bootcode else .runtime)))
  | 0x6001 => fit 0 16 [BitVec.ofNat 8 (s.reg 0x6001 sub)]
  | 0x6179 => leBytes 32 ((s.prt p).sec.req.toNat / 4 * 4 + (s.prt p).sec.arm)
  | 0x617A => imageEntry (s.prt p).sec.images 0 ++ imageEntry (s.prt p).sec.images 1 ++ imageEntry (s.prt p).sec.images 2 ++
      [if (s.prt p).sec.cleanReq then 1 else 0]
  | 0x617B => (List.finRange 8).flatMap fun t => if (s.towerWindow p t).isNone then ones 8 else match vget (s.twr t).settled p with
      | some n => le64 n
      | none => ones 8
  | 0x7000 => s.logBytes role
  | _ => fit 0 len (s.dom idx sub)

/-- A read (R470, R475, R477): status and value bytes. -/
def State.odRead (s : State) (role : Role) (idx sub off len : Nat) : Nat × List Byte :=
  if sub = 0 && (odRow idx 0).isNone then
    match highestSub idx with
    | none => (1, [])
    | some n => if s.mayRead role idx 0 then (0, leBytes 1 n) else (2, [])
  else match odRow idx sub with
    | none => (1, [])
    | some r =>
      if !s.mayRead role idx sub then (2, [])
      else if s.stw.poisoned.contains (odKey idx sub) then (7, [])
      else if r.dom = 0 then
        let v := s.odValue idx sub
        let own : Bool := match role with
          | .operator => true
          | .partition p => sub = p.val + 1
          | _ => false
        (0, leBytes r.bytes (if idx = 0x6130 && !own then 0 else v))
      else
        let d := s.odDomain role idx sub r.dom
        if d.length < off then (8, [])
        else (if idx = 0x7000 && s.badRecordIn role off (min len (d.length - off)) then 0x0A else 0, (d.drop off).take len)

/-! ### Staging copies (R477) -/

/-- Staging copies of a path. -/
def State.staging (s : State) : Via → List (Nat × List Byte)
  | .pf f => vget s.stw.staging f
  | .session n _ => match vget s.stw.sessions n with
    | some x => x.staging
    | none => []

def State.setStaging (s : State) (via : Via) (l : List (Nat × List Byte)) : State :=
  match via with
  | .pf f => s.modStw fun x => { x with staging := vset x.staging f l }
  | .session n _ => s.modSess n fun x => { x with staging := l }

/-- The staging copy of an entry; it starts as the current value. -/
def State.staged (s : State) (via : Via) (idx sub len : Nat) : List Byte :=
  match (s.staging via).find? fun e => e.1 = odKey idx sub with
  | some e => e.2
  | none => s.odDomain .operator idx sub len

def State.unstage (s : State) (via : Via) (idx sub : Nat) : State :=
  s.setStaging via ((s.staging via).filter fun e => e.1 ≠ odKey idx sub)

def State.stage (s : State) (via : Via) (idx sub : Nat) (v : List Byte) : State :=
  s.setStaging via (((s.staging via).filter fun e => e.1 ≠ odKey idx sub) ++ [(odKey idx sub, v)])

/-- Bytes placed into a value at an offset. -/
def overlay (v : List Byte) (off : Nat) (data : List Byte) : List Byte := fit 0 off v ++ data ++ v.drop (off + data.length)

/-! ### What a write is checked for (R550) -/

/-- The checks that come before the value: the entry exists, its access code and the role permit the write, no reserved header bit is set. -/
def State.writeStatus (s : State) (role : Role) (r : DictReq) : Nat :=
  let idx := r.index.toNat
  let sub := r.sub.toNat
  match odRow idx sub with
  | none => if sub = 0 && (highestSub idx).isSome then 2 else 1
  | some e =>
    if e.acc = .ro || e.acc = .rwb || !s.mayWrite role idx sub then 2
    else if r.resv || (r.commit && e.dom = 0) then 4
    else 0

/-- Entries that the steward serves in recovery (R450). -/
def inRecovery (idx : Nat) : Bool := (0x1000 ≤ idx && idx ≤ 0x1011) || (0x1F00 ≤ idx && idx ≤ 0x1F04) || (0x7000 ≤ idx && idx ≤ 0x7002)

/-- The steward answers this path now, and for this entry. In recovery it answers sessions on MGA and MGB alone (R450). -/
def State.answers (s : State) (via : Via) : Bool :=
  s.stewardUp || (s.reg 0x1030 0 = 4 && match via with
    | .pf _ => false
    | .session n _ => match vget s.stw.sessions n with
      | some x => match x.via with
        | .mgmt _ => true
        | .tunnel _ => false
      | none => false)

/-- The response kept for a SEQ that a session repeats (R478). -/
def State.keptReply (s : State) : Via → Option (List Byte)
  | .pf _ => none
  | .session n q => match vget s.stw.sessions n with
    | some x => (x.kept.find? fun e => e.1 = q).map (·.2)
    | none => none

/-- Serves one request, whole (R477): `act` gives the status, the value bytes and the effect that follows the response. -/
def serve (via : Via) (r : DictReq) (data : List Byte) (act : State → Role → Nat × List Byte × (State → State)) (s : State) :
    Host.Outcome State Fault Refusal :=
  if !s.answers via || !s.asks via r data then noEvent s
  else match s.keptReply via with
    | some b => next (s.emit (.response via b))
    | none =>
      if s.reg 0x1030 0 = 4 && !inRecovery r.index.toNat then next (s.reply via r 5 [])
      else
        let a := act s (s.roleOf via)
        next (a.2.2 (s.reply via r a.1 a.2.1))

/-- Serves a write of a whole value to an entry with a row of its own: the checks of R550, then the row's own status and effect. -/
def command (via : Via) (idx sub : Nat) (data : List Byte) (act : State → Nat × (State → State)) (s : State) : Host.Outcome State Fault Refusal :=
  let r := writeReq idx sub data
  serve via r data (fun s role =>
    let c := s.writeStatus role r
    if c ≠ 0 then (c, [], id) else
      let a := act s
      (a.1, [], a.2)) s

/-- A write that takes effect only with status 00h. -/
def checked (status : Nat) (f : State → State) : Nat × (State → State) := (status, if status = 0 then f else id)

/-- A command entry that reads its last status (Table 16-9): `code` 00h done, 01h refused, 02h running, 03h abandoned. -/
def refused (idx sub : Nat) (status : Nat := 5) : Nat × (State → State) := (status, fun s => s.setReg idx sub 1)

end Sys2Proof.Machine
end

