-- ==== Sys2Proof/Machine/Protection.lean ====
section
/-!
DEFINITION. The protection plan and set-up (R451 to R454, Table 15-14, OD 6010h), and what single entries accept (R14, R15, R345, R363, R367).
-/
namespace Sys2Proof.Machine

/-! ### The plan (OD 6010h) -/

def planRange (l : List Byte) (p : Nat) : Nat := domNat l (2 * p) 2
def planStash (l : List Byte) (east : Bool) (p : Nat) : Nat := domNat l ((if east then 16 else 8) + 2 * p) 2
def planPort (l : List Byte) (q : Nat) : Nat := domNat l (24 + 8 * q) 8
def planMor (l : List Byte) (p : Nat) : Nat := domNat l (248 + 8 * p) 8
def planTower (l : List Byte) (p t : Nat) : Nat := domNat l (280 + 32 * p + 4 * t) 4
def planGate (l : List Byte) : Nat := domNat l 408 4

/-- Two extents, given by first place and size, share a place. -/
def meets (a b : Nat × Nat) : Bool := a.1 < b.1 + b.2 && b.1 < a.1 + a.2

/-- No two extents of a list meet. -/
def apart : List (Nat × Nat) → Bool
  | [] => true
  | a :: l => (l.all fun b => !meets a b) && apart l

def four : List Nat := [0, 1, 2, 3]

/-- Stations of a range entry. -/
def entryStations (v : Nat) : List St := if bit v 15 then rangeStations (bits v 4 0) (bits v 12 8) else []

/-- No two lists of stations share one. -/
def disjointLists : List (List St) → Bool
  | [] => true
  | a :: l => (l.all fun b => a.all fun st => !b.contains st) && disjointLists l

/-- R45: ranges name stations, do not overlap, and each holds a good station. -/
def State.rangesOk (s : State) (l : List Byte) : Bool :=
  (four.all fun p =>
    let v := planRange l p
    !bit v 15 || (bits v 4 0 < 18 && bits v 12 8 < 18 && (entryStations v).any fun st => s.stationState st < 2)) &&
  disjointLists (four.map fun p => entryStations (planRange l p))

/-- R214: enabled stash windows. -/
def stashesOk (l : List Byte) : Bool :=
  [false, true].all fun e =>
    let ws := (four.map (planStash l e)).filter fun v => bit v 15
    (ws.all fun v => bits v 6 0 ≠ 0 && bits v 14 8 + bits v 6 0 ≤ 96) && apart (ws.map fun v => (bits v 14 8, bits v 6 0))

/-- Tower windows (R452): every enabled partition has one in every tower, none overlap, each lies in the tower's 512 units of 16 MiB. -/
def towersOk (l : List Byte) : Bool :=
  (four.all fun p => !bit (planRange l p) 15 || (List.range 8).all fun t => bit (planTower l p t) 31) &&
  (List.range 8).all fun t =>
    let ws := (four.map fun p => planTower l p t).filter fun v => bit v 31
    (ws.all fun v => bits v 25 16 ≠ 0 && bits v 25 16 ≤ 512 && bits v 8 0 + bits v 25 16 ≤ 512) &&
    apart (ws.map fun v => (bits v 8 0, bits v 25 16))

/-- Mordant ranges (R452). -/
def mordantsOk (l : List Byte) : Bool :=
  let ms := (four.map (planMor l)).filter fun v => bit v 63
  (ms.all fun v => bits v 31 16 ≤ bits v 15 0) && apart (ms.map fun v => (bits v 31 16, bits v 15 0 + 1 - bits v 31 16))

/-- Port admission (R452): an owner is an enabled partition, and the admitted IDs are in order. -/
def admissionsOk (l : List Byte) : Bool :=
  (List.range 28).all fun q =>
    let v := planPort l q
    !bit v 63 || ((!bit v 55 || bit (planRange l (bits v 57 56)) 15) && bits v 31 16 ≤ bits v 47 32)

/-- No reserved bit of the plan is set (R452). -/
def planReserved (l : List Byte) : Bool :=
  (four.all fun p => bits (planRange l p) 14 13 = 0 && bits (planRange l p) 7 5 = 0) &&
  (four.all fun p => !bit (planStash l false p) 7 && !bit (planStash l true p) 7) &&
  ((List.range 28).all fun q => bits (planPort l q) 62 58 = 0 && bits (planPort l q) 54 48 = 0 && bits (planPort l q) 15 0 = 0) &&
  (four.all fun p => bits (planMor l p) 62 32 = 0) &&
  (four.all fun p => (List.range 8).all fun t => bits (planTower l p t) 30 26 = 0 && bits (planTower l p t) 15 9 = 0) &&
  bits (planGate l) 31 6 = 0 && bits (planGate l) 5 4 ≠ 3 && (l.drop 412).all (· = 0)

/-- The checks of the seal (R452). -/
def State.planOk (s : State) (l : List Byte) : Bool :=
  planReserved l && s.rangesOk l && stashesOk l && towersOk l && mordantsOk l && admissionsOk l

def State.plan (s : State) : List Byte := fit 0 512 (s.dom 0x6010 0)

/-- The set-up in force, in the layout of the plan, whose last 100 bytes are reserved (R453, Table 15-14). -/
def State.setup (s : State) : List Byte :=
  fit 0 512 ((four.flatMap fun p => leBytes 2 (s.reg 0x2100 (p + 1))) ++ (four.flatMap fun p => leBytes 2 (s.reg 0x2110 (p + 1))) ++
  (four.flatMap fun p => leBytes 2 (s.reg 0x2111 (p + 1))) ++ ((List.range 28).flatMap fun q => leBytes 8 (s.reg 0x2120 (q + 1))) ++
  (four.flatMap fun p => leBytes 8 (s.reg 0x2130 (p + 1))) ++ (four.flatMap fun p => fit 0 32 (s.dom 0x2140 (p + 1))) ++
  leBytes 4 (s.reg 0x2200 0))

/-- Writes a set-up from the layout of the plan (R451). -/
def State.writeSetup (s : State) (l : List Byte) : State :=
  let s := four.foldl (fun s p =>
    ((((s.setReg 0x2100 (p + 1) (planRange l p)).setReg 0x2110 (p + 1) (planStash l false p)).setReg 0x2111 (p + 1) (planStash l true p)).setReg
      0x2130 (p + 1) (planMor l p)).setDom 0x2140 (p + 1) ((l.drop (280 + 32 * p)).take 32)) s
  let s := (List.range 28).foldl (fun s q => s.setReg 0x2120 (q + 1) (planPort l q)) s
  s.setReg 0x2200 0 (planGate l)

/-- The boot code copies the plan and seals it, or seals the fallback in which everything is disabled (R451, R452). -/
def State.sealPlan (s : State) : State :=
  let ok := s.planOk s.plan
  let s := s.writeSetup (if ok then s.plan else List.replicate 512 0)
  let s := (s.setReg 0x2FFF 0 1).setReg 0x2FFE 0 (if ok then 1 else 2)
  s.modStw fun x => { x with sealed := some s.setup }

/-- The boot code verifies a sealed set-up (R454): the digests are compared as what they digest (assumption log 22). -/
def State.verifySeal (s : State) : State :=
  if s.stw.sealed = some s.setup then s else s.setReg 0x2FFE 0 (s.reg 0x2FFE 0 % 4 + 4 + s.reg 0x2FFE 0 / 8 * 8)

/-- Bit 3 of OD 2FFEh: the plan differs from the set-up in force (R454). -/
def State.planDiffers (s : State) : State :=
  let b := s.reg 0x2FFE 0 % 8
  s.setReg 0x2FFE 0 (if s.plan = s.setup then b else b + 8)

/-! ### What numeric entries accept: 00h, or the status that refuses (R14, R15, R550) -/

def inBounds (v a b : Nat) : Nat := if a ≤ v && v ≤ b then 0 else 3

/-- A port number, or 1Fh for none. -/
def portOrNone (v : Nat) : Bool := v < 28 || v = 31

/-- Reserved bits first (04h), then the value (03h), then the state (05h). -/
def firstOf (reserved bad busy : Bool) : Nat := if reserved then 4 else if bad then 3 else if busy then 5 else 0

/-- A two's-complement 16-bit value lies between −a and b. -/
def i16In (v a b : Nat) : Bool := v ≤ b || 65536 - a ≤ v

/-- Bytes of the partition's image: header granule, blocks, commit record (R519). -/
def State.imageBlocks (s : State) (p : Part) : Nat :=
  ((List.range 128).map fun i =>
    let e := domNat (s.dom 0x6173 (p.val + 1)) (8 * i) 8
    if bit e 63 then bits e 48 32 else 0).sum
def State.imageBytes (s : State) (p : Part) : Nat := 65536 * (s.imageBlocks p + 1) + 4 * s.imageBlocks p

/-- Any port is past DETECT and not in HELD (R337). -/
def State.portsBusy (s : State) : Bool :=
  (List.finRange 28).any fun q => !(s.portState q = stDown || s.portState q = stDetect || s.portState q = stHeld)

/-- A power of two from 1 to 32,768. -/
def powerOfTwo (v : Nat) : Bool := (List.range 16).any fun i => v = 2 ^ i

/-- Check of a whole value for a numeric entry. -/
def State.valueStatus (s : State) (idx sub v : Nat) : Nat :=
  let p : Part := fin (sub - 1)
  let loaded := s.loaded p
  match idx with
  | 0x1020 => firstOf false false s.portsBusy
  | 0x1210 => firstOf (bits v 14 8 ≠ 0) false false
  | 0x3820 => firstOf false (!i16In v 128 128) false
  | 0x3830 => firstOf false (!i16In v 10 25) false
  | 0x4021 => firstOf (bits v 6 3 ≠ 0) true false
  | 0x4022 => firstOf false (v ≠ 0 && v ≠ 3) false
  | 0x4230 => inBounds v 1000 3200
  | 0x4411 => inBounds v 0 1
  | 0x5006 => firstOf false (v = 0) false
  | 0x5007 => inBounds v 0 1
  | 0x5201 => firstOf (bits v 62 60 ≠ 0) (8388608 < bits v 59 32) loaded
  | 0x5202 => firstOf (bits v 31 26 ≠ 0 || bits v 15 10 ≠ 0) (64 < bits v 25 16 || 960 < bits v 9 0 + bits v 25 16) s.anyLoaded
  | 0x5400 => firstOf (bits v 14 13 ≠ 0 || bits v 7 5 ≠ 0) (!portOrNone (bits v 12 8) || !portOrNone (bits v 4 0)) false
  | 0x5500 => firstOf (bits v 62 48 ≠ 0 || bits v 31 28 ≠ 0) (bits v 47 32 = 0xFFFF) loaded
  | 0x6140 => firstOf false false loaded
  | 0x6130 => firstOf false false loaded
  | 0x6151 => firstOf false (v < 1 || 600000 < v) loaded
  | 0x6160 => inBounds v 1 600000000
  | 0x6170 => firstOf false (!powerOfTwo v) loaded
  | 0x6171 => firstOf false false loaded
  | 0x6172 => firstOf false false loaded
  | 0x6175 => firstOf (bits v 12 8 ≠ 0) (bit v 14 && bit v 13 && bits v 3 0 < bits v 7 4)
      (loaded || (bit v 14 && s.reg 0x6178 sub * 2 ^ 20 < 3 * s.imageBytes p))
  | 0x6177 => firstOf (bits v 61 58 ≠ 0 || bits v 31 17 ≠ 0) false loaded
  | 0x617D => firstOf false (v = 0) false
  | 0x7014 => firstOf false (v = 0) false
  | 0x7030 => inBounds v 1 720
  | 0x7040 => inBounds v 8 60
  | _ => match odRow idx sub with
    | some r => if r.acc = .wcmd then 3 else 0
    | none => 1

/-- Values of entries whose writes are rows of the table in their own right. -/
def ownRow (idx v : Nat) : Bool :=
  match idx with
  | 0x1031 => v = 1
  | 0x1050 => v = 1 || v = 2
  | 0x1130 => v ≤ 1
  | 0x1F02 => v = 1 || v = 2 || v = 4 || v = 5
  | 0x3F00 => v = 1
  | 0x4000 => 1 ≤ v && v ≤ 3
  | 0x4001 => v = 1
  | 0x4002 => v = 1
  | 0x4003 => v = 1
  | 0x4021 => bits v 6 3 = 0 && v % 8 ≤ 4
  | 0x4031 => v ≤ 1
  | 0x4032 => v % 128 = 1
  | 0x4100 => 400 ≤ v && v ≤ 1200 && v % 25 = 0
  | 0x4401 => true
  | 0x5000 => v ≤ 1
  | 0x5005 => 1 ≤ v && v ≤ 3
  | 0x6002 => v = 1
  | 0x6003 => v = 1
  | 0x6176 => true
  | 0x617F => true
  | 0x7002 => true
  | 0x8F00 => v = 1
  | _ => false

/-- Entries whose every write has a row of its own: a value that none of them covers is refused. -/
def hasRows (idx : Nat) : Bool := [0x1130, 0x4031, 0x4100, 0x5000].contains idx

/-! ### What DOMAIN entries accept -/

/-- The words of `w` bytes of a table. -/
def words (w n : Nat) (d : List Byte) : List Nat := (List.range n).map fun i => domNat d (w * i) w

/-- Cluster of a port, by the number of its engine (Table 01-3). -/
def portCluster (q : Nat) : Nat := q / 7

/-- A valid route entry that R345 refuses. -/
def State.routeBad (s : State) (p : Part) (e : Nat) : Bool :=
  let role := bits e 126 125
  let owned (q : Nat) : Bool := q < 28 && s.portOwner (fin q) = some p
  let dst := role = 2 || role = 3
  bit e 127 && (8 < bits e 124 121 || (dst && 1 < bits e 48 45) ||
    (role = 0 && !owned (bits e 115 111)) || (role = 1 && (!owned (bits e 120 116) || !owned (bits e 115 111))) ||
    (role = 2 && !owned (bits e 120 116)) || 704 < bits e 110 101 + bits e 100 91 || 960 < bits e 68 59 + bits e 58 49 ||
    (role = 2 && bits e 48 45 = 1 && bits (s.groupEntry p (bits e 44 37)) 254 253 ≠ portCluster (bits e 120 116)))

/-- Branches of a tree entry: its output ports and local delivery (R363). -/
def treeBranches (e : Nat) : Nat := ((List.range 28).filter fun q => bit e (92 + q)).length + (if bit e 125 then 1 else 0)

/-- The branch buffer of a tree entry: in the stash, first byte within the window (R363). -/
def treeBuffer (e : Nat) : Bool × Nat := (bit e 27, bits e 26 16 * 65536)

/-- MiB of a partition's stash window. -/
def State.windowBytes (s : State) (p : Part) (east : Bool) : Nat :=
  match s.stashWindow p east with
  | some (a, b) => b - a
  | none => 0

/-- A valid tree entry that R363 and R345 refuse. -/
def State.treeBad (s : State) (p : Part) (all : List Nat) (e : Nat) : Bool :=
  let owned (q : Nat) : Bool := q < 28 && s.portOwner (fin q) = some p
  let b := treeBuffer e
  let buffered (x : Nat) : Bool := bit x 127 && 1 < treeBranches x
  bit e 127 && ((List.range 28).any (fun q => bit e (92 + q) && !owned q) || (!bit e 126 && !owned (bits e 124 120)) ||
    (bit e 126 && 704 < bits e 91 82 + bits e 81 72) ||
    (buffered e && (s.windowBytes p b.1 < b.2 + 2 ^ 21 ||
      1 < (all.filter fun x => buffered x && (treeBuffer x).1 = b.1 && meets ((treeBuffer x).2, 2 ^ 21) (b.2, 2 ^ 21)).length)))

/-- A valid group entry that R367 refuses. -/
def State.groupBad (s : State) (p : Part) (e : Nat) : Bool :=
  let east := 2 ≤ bits e 254 253
  bit e 255 && (524288 < grpBlocks e || (grpOut e = 3 && (!bit e 251 || grpElems e ≠ 2)) ||
    bits e 91 81 = 0 || 1536 < bits e 91 81 || s.windowBytes p east < (bits e 102 92 + bits e 91 81) * 65536)

/-- Check of a whole value for a DOMAIN entry. -/
def State.domStatus (s : State) (idx sub : Nat) (d : List Byte) : Nat :=
  let p : Part := fin (sub - 1)
  let loaded := s.loaded p
  match idx with
  | 0x1101 =>
    let es := words 64 16 d
    firstOf (es.any fun e => bits e 127 8 ≠ 0) (es.any fun e => 5 < bits e 7 0) false
  | 0x1110 => firstOf false (128 < domNat d 16 1) false
  | 0x3810 => firstOf false (d.any fun b => 4 < b.toNat && b.toNat < 252) false
  | 0x5100 =>
    let es := words 16 1023 d
    firstOf (es.any fun e => bits e 26 0 ≠ 0) (es.any (s.routeBad p)) loaded
  | 0x5101 =>
    let es := words 16 2048 d
    firstOf (es.any fun e => bits e 15 0 ≠ 0) (es.any (s.treeBad p es)) loaded
  | 0x5102 =>
    let es := words 32 256 d
    firstOf (es.any fun e => bits e 16 0 ≠ 0) (es.any (s.groupBad p)) loaded
  | 0x5200 => firstOf (d.any fun b => bit b.toNat 5) (d.any fun b => bit b.toNat 7 && 28 ≤ bits b.toNat 4 0) false
  | 0x6010 => firstOf (!planReserved d) (!s.planOk d) false
  | 0x6173 => firstOf ((words 8 128 d).any fun e => bits e 62 49 ≠ 0 || bits e 31 17 ≠ 0) false loaded
  | 0x6174 => firstOf ((words 8 24 d).any fun e => bits e 62 22 ≠ 0) false loaded
  | _ => 0

end Sys2Proof.Machine
end

