-- ==== Sys2Proof/Machine/Clock.lean ====
section
/-!
DEFINITION. Clock settings and core rail targets (R278, R279, R534 to R536), stretch (R283 to R286), crossings (R280 to R293), the time counter and its source
(R294 to R299), and the fabric time service (R376 to R380).
-/
namespace Sys2Proof.Machine

/-! ### Core rail targets (R535) -/

/-- A point of a voltage-frequency curve in mV; at 1,200 MHz the last point plus 10 mV. -/
def State.curveAt (s : State) (sub mhz : Nat) : Nat :=
  let d := fit 0 64 (s.dom 0x3050 sub)
  if 1200 ≤ mhz then domNat d 62 2 + 10 else domNat d (2 * ((mhz - 400) / 25)) 2

/-- The highest point of a half's mesh curve. -/
def State.meshPoint (s : State) (h : Half) : Nat :=
  ((List.range 32).map fun i => domNat (fit 0 64 (s.dom 0x3050 (19 + (halfNo h).val))) (2 * i) 2).foldl max 0

/-- A two's-complement 16-bit value. -/
def signed16 (v : Nat) : Int := if v < 32768 then v else (v : Int) - 65536

/-- The clock that a running station must be given voltage for: the one in force, or a raise that waits. -/
def State.clockWanted (s : State) (st : St) : Nat :=
  match s.jobAt st with
  | some p => max (s.clockNow st) ((vget s.pwr.raiseTo p).getD 0)
  | none => s.clockNow st

/-- The core rail target of a half in mV (R535). -/
def State.railTarget (s : State) (h : Half) : Nat :=
  let run := (List.finRange 18).filter fun st => stationHalf st = h && 0 < s.clockWanted st
  let c := (run.map fun st => s.curveAt (st.val + 1) (s.clockWanted st)).foldl max (s.meshPoint h)
  let v : Int := c + signed16 (s.reg 0x3830 0) + 5 * s.reg 0x4221 ((halfNo h).val + 1)
  if v < 600 then 600 else if 820 < v then 820 else v.toNat

/-- OD 4222h follows the targets. -/
def State.showTargets (s : State) : State :=
  (s.setReg 0x4222 1 (s.railTarget .west)).setReg 0x4222 2 (s.railTarget .east)

def State.coreMv (s : State) (h : Half) : Nat := (vget s.pwr.core (halfNo h)).mv

/-- Each half's regulator has reached its target. -/
def State.voltageReached (s : State) : Bool := s.railTarget .west ≤ s.coreMv .west && s.railTarget .east ≤ s.coreMv .east

/-! ### The station clock setting (R278, R279) -/

/-- The first frame boundary at least two frames away. -/
def State.boundaryAfterTwo (s : State) : W64 := BitVec.ofNat 64 ((s.time.toNat + 1024 + 511) / 512 * 512)

/-- Clock in force in a partition's running stations, 0 with none. -/
def State.clockOf (s : State) (p : Part) : Nat :=
  match (s.prt p).pos with
  | st :: _ => s.reg 0x4101 (st.val + 1)
  | [] => 0

def State.schedule4100 (s : State) (p : Part) (f : Nat) : State :=
  { s with clk := { s.clk with pend := vset s.clk.pend p (some (f, s.boundaryAfterTwo)) }, pwr := { s.pwr with raiseTo := vset s.pwr.raiseTo p none } }

/-- A partition's stations are to run at the setting in force: a lower one is scheduled at once, a higher one waits for its voltage (R279, R535). -/
def State.retarget (s : State) (p : Part) : State :=
  let f := s.effectiveMhz p
  let now := s.clockOf p
  if now = 0 then s.showTargets
  else if f ≤ now then (s.schedule4100 p f).showTargets
  else
    let s := State.showTargets { s with pwr := { s.pwr with raiseTo := vset s.pwr.raiseTo p (some f) } }
    if s.voltageReached then s.schedule4100 p f else s

/-- A write of OD 4100h (R279, R300): the setting to return to while a throttle or the power limit acts (R541). -/
def execStationClockSettingWrite (via : Via) (p : Part) (mhz : W16) (s : State) : Host.Outcome State Fault Refusal :=
  command via 0x4100 (p.val + 1) (leBytes 2 mhz.toNat) (fun _ =>
    if mhz.toNat < 400 || 1200 < mhz.toNat || mhz.toNat % 25 ≠ 0 then (3, id)
    else (0, fun s => (s.setReg 0x4100 (p.val + 1) mhz.toNat).retarget p)) s

/-- The active stations of a partition take a clock; 0 stops it. -/
def State.setClocks (s : State) (p : Part) (f : Nat) : State :=
  ((s.prt p).pos.foldl (fun s st => s.setReg 0x4101 (st.val + 1) f) s).showTargets

/-- The chosen boundary (R279): every active station of the partition changes. -/
def execClockSettingChange (p : Part) (s : State) : Host.Outcome State Fault Refusal :=
  match vget s.clk.pend p with
  | none => noEvent s
  | some (f, at_) =>
    if s.time < at_ then noEvent s
    else next (State.setClocks { s with clk := { s.clk with pend := vset s.clk.pend p none } } p f)

/-! ### Stretch (R283 to R286) -/

/-- The mesh stretch group (R284). -/
def inMeshGroup (i : Nat) : Bool :=
  match islandKind i with
  | .column _ => true
  | .tower _ => true
  | .stash _ => true
  | _ => false

/-- A margin warning in a half: OD 4221h takes a step, at most one per 100 ms, at most five, and not beyond 0.82 V (R536). -/
def State.railStep (s : State) (h : Half) : State :=
  let x := vget s.pwr.core (halfNo h)
  let sub := (halfNo h).val + 1
  let s := s.modPwr fun y => { y with core := vset y.core (halfNo h) { x with warnAt := s.time } }
  let soon := match x.stepAt with
    | some t => decide (s.time.toNat < t.toNat + 100000000)
    | none => false
  if soon || 5 ≤ s.reg 0x4221 sub || 820 < s.railTarget h + 5 then s
  else
    let s := s.modPwr fun y => { y with core := vset y.core (halfNo h) { x with warnAt := s.time, stepAt := some s.time } }
    (s.saveReg 0x4221 sub (s.reg 0x4221 sub + 1)).showTargets

/-- One stretched cycle of an island (R283, R285). -/
def State.stretchOne (s : State) (i : Nat) : State :=
  let s := { s with clk := { s.clk with stretch := vmod s.clk.stretch (fin i) (· + 1) } }
  let s := s.count 0x9060 (i + 1)
  if vget s.clk.stretch (fin i) = s.reg 0x7040 0 then
    let s := s.count 0x9061 (i + 1)
    match islandHalf i with
    | some h => s.railStep h
    | none => s
  else s

/-- A trigger (R283, R284): a member of the mesh stretch group takes the whole group along; the 61st stretch of a frame of any member or of a port is fault 0Ch
for each job with a calendar, located at the island that triggers where it is one of them (R286). -/
def execReplicaTrigger (i : Island) (s : State) : Host.Outcome State Fault Refusal :=
  if i.val = 72 || !s.islandRuns i.val then noEvent s
  else
    let all := if inMeshGroup i.val then (List.range 73).filter fun j => inMeshGroup j && s.islandRuns j else [i.val]
    let s := all.foldl State.stretchOne s
    let kind := islandKind i.val
    let late : List Nat := match kind with
      | .station _ => []
      | _ => all.filter fun j => vget s.clk.stretch (fin j) = 61
    match (if late.contains i.val then some i.val else late.head?) with
    | some j => next ((List.finRange 4).foldl (fun s p =>
        if (s.prt p).jobState = 3 && (s.prt p).frameOn then s.raise (some p) 0x0C 0x0C02 ⟨5, j, noLoc2, noPc⟩ else s) s)
    | none => next s

/-- The warning level sends a margin sample to the health monitor; the monitor keeps no state of samples that the spec names (R283). -/
def execReplicaWarningLevel (i : Island) (s : State) : Host.Outcome State Fault Refusal :=
  if i.val = 72 || !s.islandRuns i.val then noEvent s else next s

/-! ### Crossings (R280 to R293) -/

/-- Owners of everything that waits at a crossing: what units, engines and ports have sent into it, the late flits that a full late buffer holds back at its head (R227), and the requests of
the host port, which belong to no job (assumption log 133). -/
def State.crossingOwners (s : State) (c : Nat × Nat) : List (Option Part) :=
  s.itemOwners c ++ s.lateOwners c ++ s.engineOwners c ++ s.fabricOwners c ++
  (s.hostHeld.filter fun x => s.crossingHeld c && x.way.find? s.blocked = some c).map fun _ => none

/-- Stations, vats and program counters of a partition's transfers that wait in a crossing (R208). The request block of a remote fetch is a transfer with its vat. -/
def State.crossingVats (s : State) (p : Part) (c : Nat × Nat) : List (St × Nat × Nat) :=
  ((s.fetches.filter fun f => s.jobAt f.st = some p && !f.dropped && s.stuckFetch f = some c).map fun f => (f.st, f.vat.val, f.pc)) ++
  ((s.writes.filter fun w => w.part = p && s.stuckWrite w = some c).map fun w => (w.who, w.vat, w.pc)) ++
  (s.xfers.filter fun x => x.part = p && x.vat < 32 && s.xferStuck x = some c).map fun x => (x.st, x.vat, x.pc)

/-- The head item of a crossing has waited 10 µs (R290): counted and fenced; each job with an item there takes fault 0Ah once, at the crossing and where each transfer was issued
(R208); items of no job are counted once. The ring's hops have the 10 µs of R40 instead (R48). -/
def execHangDetected (x : Crossing) (s : State) : Host.Outcome State Fault Refusal :=
  let c := (x.a.val, x.b.val)
  let owners := s.crossingOwners c
  let f := (s.clk.fenced.find? fun f => f.a = c.1 && f.b = c.2).getD ⟨c.1, c.2, [], false⟩
  let fresh := (List.finRange 4).filter fun p => owners.contains (some p) && !f.reported.contains p
  let jobless := owners.contains none && !f.logged
  if !allCrossings.contains c || ringCrossing c || (fresh = [] && !jobless) then noEvent s
  else
    let s := if c.1 < 73 then s.count 0x9062 (c.1 + 1) else s
    let s := { s with clk := { s.clk with
      fenced := (s.clk.fenced.filter fun f => !(f.a = c.1 && f.b = c.2)) ++ [{ f with reported := f.reported ++ fresh, logged := f.logged || jobless }] } }
    next (fresh.foldl (fun s p => (s.strike p 0x0A 0x0A00 (s.crossingVats p c)).raise (some p) 0x0A 0x0A00 ⟨5, c.1, c.2, noPc⟩) s)

/-- A job that is unloaded leaves the fences, but the next one is told of them anew (R290, R293). -/
def State.forgetHangs (s : State) (p : Part) : State :=
  { s with clk := { s.clk with fenced := s.clk.fenced.map fun f => { f with reported := f.reported.filter (· ≠ p) } } }

/-- A tower is retired whole (R26, R282). -/
def State.dropTower (s : State) (t : Twr) : State :=
  let s := (List.finRange 4).foldl (fun s p => (s.towerGone t p).modTwr t fun x => { x with gone := vset x.gone p true }) s
  (s.saveReg 0x8030 (t.val + 1) 2).resetCrossings (towerCrossings t.val)

/-- A crossing that fails calibration takes its unit out of use (R282). Of the islands that it joins, the station, port, tower or stash is the unit; two mesh
columns make a horizontal crossing, and of a ring hop it is the receiving station. A station that was in service is owed a spare at the next job restart (R30). For a mesh crossing
the device is out of service as R10 has it: it refuses every load with code 09h of Table 08-11 (assumption log 128). -/
def State.crossingFailed (s : State) (a b : Nat) : State :=
  let retire (s : State) (i : Nat) : State := match islandKind i with
    | .station st =>
      let served := decide (s.reg 0x8000 (st.val + 1) = 0)
      if 1 < s.reg 0x8000 (st.val + 1) then s else (s.saveReg 0x8000 (st.val + 1) 3).modHealth st fun h => { h with vacant := h.vacant || served }
    | .port q =>
      let s := s.saveReg 0x8041 (q.val + 1) 1
      if s.portUp q then s.loseTo q stRetired else (s.modPort q Port.clear).setPortState q stRetired
    | .tower t => if 2 ≤ s.reg 0x8030 (t.val + 1) then s else s.dropTower t
    | .stash e => { s with clk := { s.clk with stashBad := vset s.clk.stashBad (if e then 1 else 0) true } }
    | _ => s
  let s := if inMeshGroup a && inMeshGroup b && a < 0x22 && b < 0x22 then { s with clk := { s.clk with meshBad := true } }
    else if a < 0x12 && b < 0x12 then retire s b
    else retire (retire s a) b
  s.setReg 0x4110 0 2

/-- A jointly reset crossing has been calibrated (R280, R282, R292). -/
def execCrossingRecalibrated (x : Crossing) (pass : Bool) (s : State) : Host.Outcome State Fault Refusal :=
  let c := (x.a.val, x.b.val)
  if !s.clk.recal.contains c then noEvent s
  else
    let s := { s with clk := { s.clk with recal := s.clk.recal.filter (· ≠ c) } }
    if !pass then next (s.crossingFailed c.1 c.2)
    else
      let s := s.admitItems
      if s.reg 0x4110 0 = 0 && s.clk.recal = [] then next (s.setReg 0x4110 0 1) else next s

/-! ### The time counter and its source (R294 to R299) -/

/-- The next frame boundary. -/
def State.nextFrame (s : State) : W64 := BitVec.ofNat 64 ((s.time.toNat / 512 + 1) * 512)

/-- A write of OD 4401h (R295): refused while any job is loaded. -/
def execTimeSet (via : Via) (value : W64) (s : State) : Host.Outcome State Fault Refusal :=
  command via 0x4401 0 (leBytes 8 value.toNat) (fun s =>
    if s.anyLoaded then refused 0x4401 0
    else (0, fun s => { s with clk := { s.clk with timeSet := some (value, s.nextFrame) } })) s

/-- The next frame boundary (R295): the counter takes the value, and the marks follow it. A job that has been loaded since never sees the counter jump (R294): the set is dropped, and
OD 4401h reads refused (assumption log 129). -/
def execTimeSetApplied (s : State) : Host.Outcome State Fault Refusal :=
  match s.clk.timeSet with
  | none => noEvent s
  | some (v, at_) =>
    if s.time ≠ at_ then noEvent s
    else if s.anyLoaded then next (State.setReg { s with clk := { s.clk with timeSet := none } } 0x4401 0 1)
    else next (State.setReg { s with time := v, clk := { s.clk with timeSet := none, frameMark := none, windowMark := none } } 0x4401 0 0)

def State.timeSource (s : State) : Nat := s.reg 0x4402 0

/-- The time domain goes to its last resort, with event 0Dh for every loaded job (R298). -/
def State.lastResort (s : State) : State := (s.setReg 0x4402 0 3).timeEvent

/-- The reference is lost (R297, R299): holdover, or last resort when the holdover oscillator is marked failed. -/
def execReferenceLoss (s : State) : Host.Outcome State Fault Refusal :=
  if !s.clk.refOk || s.pwr.off then noEvent s
  else
    let s := State.count { s with clk := { s.clk with refOk := false } } 0x9063 0
    if s.timeSource ≠ 0 then next s
    else if s.reg 0x4403 0 = 1 then next s.lastResort
    else next (s.setReg 0x4402 0 2)

/-- The reference has been good for 100 ms (R296, R299): locked. -/
def execReferenceLock (s : State) : Host.Outcome State Fault Refusal :=
  if s.pwr.off then noEvent s else next (State.setReg { s with clk := { s.clk with refOk := true } } 0x4402 0 0)

/-- The millisecond cross-check of the holdover oscillator (R298, R299). -/
def execHoldoverCrossCheck (ok : Bool) (s : State) : Host.Outcome State Fault Refusal :=
  if s.pwr.off then noEvent s
  else if ok then
    if s.reg 0x4403 0 = 0 then next s
    else if s.clk.crossGood + 1 < 60000 then next { s with clk := { s.clk with crossGood := s.clk.crossGood + 1 } }
    else
      let s := State.setReg { s with clk := { s.clk with crossGood := 0 } } 0x4403 0 0
      if s.timeSource = 3 && !s.clk.refOk then next (s.setReg 0x4402 0 1) else next s
  else
    let s := State.setReg { s with clk := { s.clk with crossGood := 0 } } 0x4403 0 1
    if s.timeSource = 1 || s.timeSource = 2 then next s.lastResort else next s

/-! ### Sensors (R540, Table 17-9) -/

/-- Ports that a partition owns. -/
def State.portsOf (s : State) (p : Part) : List PortId := (List.finRange 28).filter fun q => s.portOwner q = some p

/-- Die sensors of the partition's units (Table 17-9). -/
def State.sensorsOf (s : State) (p : Part) : List Nat :=
  (List.range 58).filter fun i =>
    if i < 18 then s.inRange p (fin i) else if i < 34 then true
    else if i < 42 then (s.towerWindow p (fin (i - 34))).isSome else if i < 50 then false
    else if i < 54 then (s.portsOf p).any fun q => portCluster q.val = i - 50
    else if i < 56 then (s.stashWindow p (decide (i = 55))).isSome else true

/-- Reading of a sensor in 1/64 °C. -/
def State.sensor (s : State) (i : Nat) : Int := signed16 (s.reg 0x4200 (i + 1))

def isDram (i : Nat) : Bool := 42 ≤ i && i < 50

def deg (n : Nat) : Int := 64 * n

/-- A sensor is outside the operating conditions (Table 17-11). -/
def State.beyond (s : State) (i : Nat) : Bool := if isDram i then deg 95 < s.sensor i else deg 105 < s.sensor i

/-- A sensor belongs to a partition's units, or to the whole package. -/
def State.concerns (s : State) (p : Part) (i : Nat) : Bool :=
  (s.sensorsOf p).contains i || 58 ≤ i || (isDram i && (s.towerWindow p (fin (i - 42))).isSome)

def State.beyondFor (s : State) (p : Part) : Bool := (List.range 64).any fun i => s.concerns p i && s.beyond i

/-! ### The start of a job (R222, R235, R240, R278, R358, R374, R378, R387, R421, R506) -/

/-- The mordants of the range at counter 0, failed 0 (R358). -/
def State.clearMordants (s : State) (p : Part) : State := { s with mordants := s.mordants.filter fun e => !s.inMorRange p e.1 }

/-- The settled steps are cleared (R421). -/
def State.clearSettled (s : State) (p : Part) : State :=
  { s with towers := s.towers.map fun t => { t with settled := vset t.settled p none, maxStep := vset t.maxStep p none } }

/-- The norm accumulators of a partition start at (+0, +0) (R374). -/
def State.clearNorms (s : State) (p : Part) : State := { s with fab := { s.fab with norms := s.fab.norms.filter fun g => g.part ≠ p } }


/-- A job with an enabled hold group starts only on an aligned device; a root is fabric time itself (R376, R378). -/
def State.mayStart (s : State) (p : Part) : Bool := (s.holdGroup p).isNone || bit (s.reg 0x5400 0) 15 || s.aligned

/-- Ports of the hold link mask whose partner shows another group (R381). -/
def State.leftOut (s : State) (p : Part) : List PortId :=
  match s.holdGroup p with
  | some (g, m) => (List.finRange 28).filter fun q => bit m q.val && s.portOwner q = some p && s.portUp q && (s.port q).group.any fun x => x.toNat ≠ g
  | none => []

/-- A write of OD 5500h leaves out, and counts, the ports whose partner shows another group already (R381). -/
def State.groupWritten (s : State) (p : Part) : State := (s.leftOut p).foldl (fun s q => s.count 0x9083 (q.val + 1)) s

/-- The bound job starts: counters at 0, the mordants, norm accumulators and settled steps cleared (R358, R374, R421), the mordant timeout of OD 6160h taken, hold links fixed. Its stations run
since the job was bound (R278). Firmware that is not supported, or a sensor beyond its limit, voids the guarantee, which the event says (R387). -/
def State.startJob (s : State) (p : Part) : State :=
  let sts := (s.prt p).pos
  let s := ((s.clearMordants p).clearNorms p).clearSettled p
  let s := sts.foldl (fun s st => (s.modSt st fun x => { x with sq := { x.sq with pc := 0, stopped := false } }).modHealth st fun h => { h with katSc := 0, spanSc := 0 }) s
  let links := (List.finRange 28).filter (s.meetsHold p)
  let s := s.modPart p fun x => { x with
    morTimeout := s.reg 0x6160 (p.val + 1), frame := 0, frameOn := false, frameHeld := false, held := false, asserted := false, heldRun := 0, passFrom := s.time, spanAt := 0
    links := links, heard := [] }
  let s := (s.setReg 0x7011 (p.val + 1) (2 ^ 64 - 1)).setJobState p 3
  if s.reg 0x1F04 0 ≠ 1 || s.beyondFor p then s.raise (some p) 0x0D 0x0D01 (siteSteward noLoc2) else s

/-- A bound job that only its alignment holds back. -/
def State.awaitsStart (s : State) (p : Part) : Bool :=
  ((s.prt p).jobState = 1 || (s.prt p).jobState = 2) && (s.prt p).pos ≠ [] && (s.sec p).restore.isNone

/-- Jobs that were held back start. -/
def State.startWaiting (s : State) : State :=
  (List.finRange 4).foldl (fun s p => if s.awaitsStart p && s.mayStart p then s.startJob p else s) s

/-! ### Fabric time (R376 to R378, R380, R381) -/

/-- What a time block carries (R312, R376), with its stamps in 1/256 ns. -/
structure TimeBlock where
  kind : Nat
  source : Nat
  depth : Nat
  group : W16
  sent : BitVec 72
  recd : BitVec 72
  t1 : BitVec 72
  t2 : BitVec 72
  deriving DecidableEq, Repr

/-- The payload of a time block that was received at `t`. -/
def timeBlock (l : List Byte) (t : BitVec 72) : TimeBlock :=
  ⟨domNat l 9 1, domNat l 28 1, domNat l 29 1, BitVec.ofNat 16 (domNat l 30 2), readStamp l, t, readStamp (l.drop 10), readStamp (l.drop 19)⟩

/-- What a time block shows of the partner: its hold group and its source. A port of the mask of an enabled hold group is counted when its partner first shows another group, and when it
meets R381 only after the start of the job (R381, R506). -/
def State.seePartner (s : State) (q : PortId) (tb : TimeBlock) : State :=
  let new := some tb.group ≠ (s.port q).group
  let s := s.modPort q fun x => { x with group := some tb.group, source := tb.source }
  match s.portOwner q with
  | some p => match s.holdGroup p with
    | some (g, m) =>
      let later := (s.prt p).jobState = 3 && !(s.prt p).links.contains q && s.meetsHold p q
      if new && bit m q.val && (tb.group.toNat ≠ g || later) then s.count 0x9083 (q.val + 1) else s
    | none => s
  | none => s

/-- A parent in last resort is left for one that is not (R380). -/
def State.leaveLastResort (s : State) : State :=
  match s.parents with
  | (some a, some b) =>
    let bad (q : PortId) : Bool := (s.port q).source = 3
    let cur := if s.clk.alt then b else a
    let other := if s.clk.alt then a else b
    if bad cur && s.portUp other && !bad other then { s with clk := { s.clk with alt := !s.clk.alt, goodX := 0, badX := 0 } } else s
  | _ => s

/-- The next time block of a kind that a port has received, with its receive stamp. -/
def State.takeTime (s : State) (q : PortId) (kind : Nat) : Option (TimeBlock × State) :=
  match (s.port q).timeIn with
  | (l, t) :: r =>
    let x := timeBlock l t
    if x.kind = kind then some (x, s.modPort q fun y => { y with timeIn := r }) else none
  | [] => none

/-- A sync (R324, R376): in ALIGN it is echoed with both stamps; in UP a child is answered with a reply, and a parent's own sync needs none. -/
def execTimeSync (port : PortId) (s : State) : Host.Outcome State Fault Refusal :=
  match s.takeTime port 0 with
  | none => noEvent s
  | some (tb, s) =>
    let answer (s : State) : State :=
      let b := s.timePayload port 1 tb.sent tb.recd
      s.modPort port fun x => { x with timeQ := x.timeQ ++ [b] }
    if s.portState port = stAlign then next (answer s)
    else if !s.portUp port then next s
    else
      let s := (s.seePartner port tb).leaveLastResort
      if s.timeParent = some port then next s else next (answer s)

/-- Offset from one exchange in units of 1/256 ns: how far the parent is ahead (R376). The half of an odd difference of stamps is rounded down: DESIGN CHOICE, the spec gives no
rounding (assumption log 142). -/
def offsetOf (tb : TimeBlock) : Int :=
  (((tb.t2.toNat : Int) - tb.t1.toNat) - ((tb.recd.toNat : Int) - tb.sent.toNat)) / 2

/-- Wire delay from one exchange in units of 1/256 ns (R324). -/
def wireOf (tb : TimeBlock) : Nat :=
  ((((tb.recd.toNat : Int) - tb.t1.toNat) - ((tb.sent.toNat : Int) - tb.t2.toNat)) / 2).toNat

/-- An exchange counts towards alignment or against it (R378). -/
def State.exchange (s : State) (off : Int) : State :=
  let good := decide (off.natAbs ≤ 4 * 256)
  let bad := decide (10 * 256 < off.natAbs)
  let s := { s with clk := { s.clk with goodX := if good then s.clk.goodX + 1 else 0, badX := if bad then s.clk.badX + 1 else 0 } }
  if !s.aligned && 8 ≤ s.clk.goodX then (s.setReg 0x5401 0 (s.reg 0x5401 0 + 2 ^ 16)).startWaiting
  else if 3 ≤ s.clk.badX then s.unalign else s

/-- The offset as OD 5401h shows it, in 0.25 ns, rounded down: DESIGN CHOICE, the spec gives the unit and no rounding (R385, assumption log 142). One beyond 16 bits shows a free value. -/
def shownOffset (draw : Nat) (off : Int) : Nat :=
  let q := off / 64
  if q < -32768 || 32767 < q then (Config.freeWord draw).toNat % 65536 else (q % 65536).toNat

/-- A reply (R324, R376 to R378): in ALIGN it gives the wire delay; from the parent it gives offset, depth and alignment, and without a job a far counter is set to the parent's
time. -/
def execTimeReply (port : PortId) (s : State) : Host.Outcome State Fault Refusal :=
  match s.takeTime port 1 with
  | none => noEvent s
  | some (tb, s) =>
    if s.portState port = stAlign then next (s.modPort port fun x => { x with wire := some (wireOf tb) })
    else if !s.portUp port then next s
    else
      let s := (s.seePartner port tb).leaveLastResort
      if s.timeParent ≠ some port then next s
      else
        let off := offsetOf tb
        let s := s.setTimeStatus (tb.depth + 1) (decide (tb.source = 3)) s.aligned (shownOffset s.draws off)
        let s := State.exchange { s with draws := s.draws + 1 } off
        if !s.anyLoaded && 256 * 256 < off.natAbs then
          next { s with clk := { s.clk with timeSet := some (BitVec.ofInt 64 ((s.nextFrame.toNat : Int) + off / 256), s.nextFrame) } }
        else next s

end Sys2Proof.Machine
end

