-- ==== Sys2Proof/Machine/Tunnel.lean ====
section
/-!
DEFINITION. Tunnel messages between stewards (R480), and the commands of a port (R321, R332, R333, R335).
-/
namespace Sys2Proof.Machine

/-! ### Tunnel messages (R480, Table 15-14a) -/

/-- A fragment's payload. The datagram is encrypted: its bytes, and how many there are, are free values. -/
def State.fragment (s : State) (id : W16) : List Byte :=
  let n := 1 + (Config.freeWord s.draws).toNat % 228
  leBytes 2 1 ++ leBytes 2 (s.reg 0x1020 0) ++ leBytes 2 0 ++ leBytes 2 id.toNat ++ [0, 1] ++ leBytes 2 n ++
  (List.range n).map fun i => Config.freeByte (s.draws + 1) i

/-- A fragment leaves as open traffic on the open route table's port for its device (R340, R351), or is discarded and counted: at the port that its entry names, valid or not, and at P27 for a number
beyond (assumption log 142). -/
def State.sendFragment (s : State) (dest : W16) (id : W16) : State :=
  let f := s.fragment id
  let s := State.emit { s with draws := s.draws + 2 } (.tunnel dest f)
  let e := domNat (s.dom 0x5200 0) dest.toNat 1
  if !bit e 7 || 27 < bits e 4 0 || !s.portUp (fin (bits e 4 0)) then s.count 0x9080 (min (bits e 4 0) 27 + 1)
  else
    let vc := if bit e 6 then 1 else 0
    s.modPort (fin (bits e 4 0)) fun x => { x with
      outOpen := vmod x.outOpen (fin vc) fun l => l ++ [⟨0xE * 2 ^ 44 + openNet dest 0 vc, 0x3FF, 0, false, f⟩] }

/-- A message that needs an answer: it is sent and kept until it is answered. -/
def State.tunnelSend (s : State) (dest : W16) (body : TunnelBody) : State :=
  let id := s.stw.msgId
  (s.modStw fun x => { x with outbox := x.outbox ++ [⟨dest, id, body, 1, s.time⟩], msgId := id + 1 }).sendFragment dest id

/-- Fields of a fragment. -/
structure Frag where
  kind : Nat
  src : W16
  id : W16
  idx : Nat
  cnt : Nat
  len : Nat
  data : List Byte
  deriving DecidableEq, Repr

def fragOf (l : List Byte) : Frag :=
  let h := leNat (l.take 12)
  ⟨bits h 7 0, BitVec.ofNat 16 (bits h 31 16), BitVec.ofNat 16 (bits h 63 48), bits h 71 64, bits h 79 72, bits h 95 80, (l.drop 12).take (bits h 95 80)⟩

def Frag.ok (f : Frag) : Bool := f.kind = 1 && 0 < f.cnt && f.idx < f.cnt && 0 < f.len && f.len ≤ 228

/-- A fragment joins its message; a message that is complete leaves the box, and so does the sent one that it answers. -/
def State.reassemble (s : State) (f : Frag) (answers : Option W16) : State :=
  let mine (r : Reassembly) : Bool := r.src = f.src && r.id = f.id
  let old := match s.stw.inbox.find? mine with
    | some r => (r.parts, r.since)
    | none => ([], s.time)
  let parts := sput [] old.1 f.idx f.data
  let rest := s.stw.inbox.filter fun r => !mine r
  if parts.length = f.cnt then
    s.modStw fun x => { x with inbox := rest, outbox := x.outbox.filter fun m => !(m.dest = f.src && answers = some m.id) }
  else s.modStw fun x => { x with inbox := rest ++ [⟨f.src, f.id, f.cnt, parts, old.2⟩] }

/-- A tunnel fragment for this device (R338, R480). `answers` is the message that the datagram answers once it is complete and decrypted. -/
def execManagementTunnel (port : PortId) (answers : Option W16) (s : State) : Host.Outcome State Fault Refusal :=
  if !s.stewardUp then noEvent s
  else match s.takeOpen port fun b => bits b.net 47 44 = 0xE && blkDev b = s.reg 0x1020 0 with
    | none => noEvent s
    | some (b, s') =>
      let f := fragOf b.data
      if b.poison || !f.ok then next s' else next (s'.reassemble f answers)

/-- A message is not complete within 100 ms (R480). -/
def execTunnelReassemblyTimeout (src : W16) (msg : W16) (s : State) : Host.Outcome State Fault Refusal :=
  if s.stw.inbox.any fun r => r.src = src && r.id = msg && s.passed r.since 100000000 then
    next (s.modStw fun x => { x with inbox := x.inbox.filter fun r => !(r.src = src && r.id = msg) })
  else noEvent s

/-- The partner tier of a partition is no longer usable: its epoch is aborted (R431, R508). -/
def State.losePartner (s : State) (p : Part) : State :=
  (s.abortWhere p fun i => i.tier = 0).modSec p fun x => { x with reserve := none }

/-- The reserve of a holder's partition or the binding of its towers has changed: its slots hold nothing, and the source is told as of a removal, so that it uses the partner tier no more until OD 6176h is
written again (R431, assumption log 143). -/
def State.reserveChanged (s : State) (p : Part) (v : Nat) : State :=
  let s := s.modSec p fun x => { x with mirror := [], mirrorNext := 0 }
  if bit v 63 then s.tunnelSend (BitVec.ofNat 16 (bits v 47 32)) .removal else s

/-- Partitions whose partner images a device holds (OD 6176h). -/
def State.partnersAt (s : State) (dev : W16) : List Part :=
  (List.finRange 4).filter fun p => (s.sec p).reserve.isSome && bits (s.reg 0x6176 (p.val + 1)) 47 32 = dev.toNat

/-- An unanswered message goes out again (R480); after 16 failed sends it is dropped, and a partner holder is given up (R510). -/
def execTunnelResend (k : Nat) (s : State) : Host.Outcome State Fault Refusal :=
  match s.stw.outbox[k]? with
  | none => noEvent s
  | some m =>
    if !s.stewardUp || !s.passed m.at_ 200000000 then noEvent s
    else if m.sends < 16 then
      next ((s.modStw fun x => { x with outbox := lset x.outbox k { m with sends := m.sends + 1, at_ := s.time } }).sendFragment m.dest m.id)
    else
      let s := s.modStw fun x => { x with outbox := ldel x.outbox k }
      match m.body with
      | .reserve p => next (if bits (s.reg 0x6176 (p.val + 1)) 47 32 = m.dest.toNat then s.losePartner p else s)
      | _ => next s

/-! ### Commands of a port -/

/-- The value written: a U8 of OD 5005h. -/
def portCommand (via : Via) (q : PortId) (v : Byte) (ok : State → Bool) (act : State → State) (s : State) : Host.Outcome State Fault Refusal :=
  command via 0x5005 (q.val + 1) [v] (fun s =>
    if ok s then (0, fun s => act (s.setReg 0x5005 (q.val + 1) 0)) else refused 0x5005 (q.val + 1)) s

/-- 01h retrains a port in UP (R332). OD 5005h reads running until RETRAIN has been acknowledged or given up. -/
def execPortCommandRetrain (via : Via) (port : PortId) (s : State) : Host.Outcome State Fault Refusal :=
  portCommand via port 1 (fun s => s.portUp port) (fun s => (s.askRetrain port).setReg 0x5005 (port.val + 1) 2) s

/-- 02h: GOODBYE, then DOWN (R335). -/
def execPortCommandOrderlyDown (via : Via) (port : PortId) (s : State) : Host.Outcome State Fault Refusal :=
  portCommand via port 2 (fun s => s.portState port ≠ stHeld && s.portState port ≠ stRetired) (fun s =>
    if s.portUp port then (s.askGoodbye port).setReg 0x5005 (port.val + 1) 2 else s.goodbye port) s

/-- 03h releases a port from HELD (Table 11-8). -/
def execPortCommandReleaseHeld (via : Via) (port : PortId) (s : State) : Host.Outcome State Fault Refusal :=
  portCommand via port 3 (fun s => s.portState port = stHeld) (fun s => s.setPortState port stDown) s

/-- OD 5000h (R321, R333). -/
def execPortEnableWrite (via : Via) (port : PortId) (v : Byte) (s : State) : Host.Outcome State Fault Refusal :=
  command via 0x5000 (port.val + 1) [v] (fun _ =>
    if 1 < v.toNat then (3, id)
    else (0, fun s =>
      let s := s.setReg 0x5000 (port.val + 1) v.toNat
      if v = 0 then s.stopPort port else s)) s

end Sys2Proof.Machine
end

