-- ==== Sys2Proof/Machine/Securing.lean ====
section
/-!
DEFINITION. The securing commands (R187, R424 to R439): the securing mordant, drains to the three tiers, completions, and the partner's reserve.
-/
namespace Sys2Proof.Machine

/-! ### The securing mordant (R424, R425) -/

/-- A tower in which a descriptor beyond the step has started (R425). -/
def State.stepBeyond (s : State) (p : Part) (step : Nat) : Option Twr :=
  (s.prt p).towers.find? fun t => match vget (s.twr t).maxStep p with
    | some m => decide (step < m)
    | none => false

/-- The run by which a logical tower drains to a tier (OD 6174h). -/
def State.runEntry (s : State) (p : Part) (t : Twr) (tier : Nat) : Nat :=
  domNat (s.dom 0x6174 (p.val + 1)) (8 * (3 * (s.prt p).towers.idxOf t + tier)) 8

/-- A write that a tower's drain sends on the route of OD 6176h, by the node that its run names (R430). -/
def State.drainXfer (s : State) (p : Part) (t : Twr) (addr : Nat) (data : List PByte) : Xfer :=
  { engXfer .write p 0 (bits (s.reg 0x6176 (p.val + 1)) 57 48) addr [] s.frameNo with
    st := fin t.val, vat := 34, rpart := bits (s.runEntry p t 0) 21 20, data := data, bytes := data.length }

/-- After its last block a partner drain sends the commit record on the same route (R432). Where in the slot the record lies is free. -/
def State.sendCommit (s : State) (p : Part) : State :=
  match (s.sec p).epoch with
  | some i =>
    if i.tier = 0 && s.undrained p = 0 && !(s.sec p).commit then
      let crcs := (List.range i.crcs.length).flatMap fun k => leBytes 4 (((i.crcs.find? fun e => e.1 = k).map fun e => e.2.toNat).getD 0)
      let t := (((s.securedBlocks p).getLast?).map (·.1)).getD 0
      let x := s.drainXfer p t ((Config.freeWord s.draws).toNat % 2 ^ 32 * 16) (clean (crcs ++ List.replicate ((16 - crcs.length % 16) % 16) 0))
      State.modSec { s.push x with draws := s.draws + 1 } p fun x => { x with commit := true, commitAt := s.time }
    else s
  | none => s

/-- The step named by a change that is to be handled: steps 1 to 4 of R424, then R425. An epoch counts although no tier takes it (assumption log 143). -/
def State.secureStep (s : State) (p : Part) (step : Nat) (e : MemEcc) : State :=
  if step % s.interval p ≠ 0 then s
  else if s.epochOpen p then s.count 0x9090 (p.val + 1)
  else if s.tiersUp p = [] then s.raise (some p) 0x0D 0x0D04 (siteSteward noLoc2)
  else match s.stepBeyond p step with
    | some t => s.raise (some p) 1 0x0101 (towerSite t 0 0xFF noPc)
    | none =>
      let s := s.modSec p fun x => { x with j := x.j + 1 }
      match s.chooseTier p (s.sec p).j with
      | none => s
      | some tier => State.openEpoch s p (BitVec.ofNat 64 step) tier e

/-- The securing mordant changes (R424): 0 and values not above the highest handled are ignored. -/
def execSecuringMordantChange (p : Part) (e : MemEcc) (s : State) : Host.Outcome State Fault Refusal :=
  match s.securingDue p with
  | none => noEvent s
  | some c => next (((s.modSec p fun x => { x with high := c }).secureStep p (c.toNat - 1) e).sendCommit p)

/-! ### Drains (R187, R430, R434, R444) -/

/-- A descriptor of the partition waits on the lost-step bound (R428). -/
def State.stepHeld (s : State) (p : Part) : Bool :=
  (List.finRange 8).any fun t => match vget (s.twr t).mq p with
    | d :: _ => d.hold && !d.checked
    | [] => false

/-- Program units of 16,384 B that an image's drain has made ready (R433, R527): a header unit, four for each drained block, and the commit unit
when every block is drained. -/
def State.unitsReady (s : State) (p : Part) : Nat :=
  let n := (s.securedBlocks p).length
  1 + 4 * (n - s.undrained p) + (if s.undrained p = 0 then 1 else 0)

/-- Units of the whole image. -/
def State.unitsAll (s : State) (p : Part) : Nat := 2 + 4 * (s.securedBlocks p).length

/-- The Sepia drain of a partition, the oldest first: its place among the late images, `none` for the open epoch, the units that are ready, and those programmed. -/
def State.nandWork (s : State) (p : Part) : Option (Option Nat × Nat × Nat) :=
  match (s.sec p).late.findIdx? (·.img.tier = 1) with
  | some k => ((s.sec p).late[k]?).map fun l => (some k, s.unitsAll p, l.nandPos)
  | none => match (s.sec p).epoch with
    | some i => if i.tier = 1 then some (none, s.unitsReady p, (s.sec p).nandPos) else none
    | none => none

/-- A drain to the Sepia tier runs. -/
def State.sepiaDrain (s : State) (p : Part) : Bool := (s.nandWork p).isSome

/-- How many steps the lost-step bound of a held partition still leaves: the smallest over the descriptors that wait on it (R428). -/
def State.boundSlack (s : State) (p : Part) : Int :=
  let top : Int := (s.sec p).sc.getD 0 + s.reg 0x6170 (p.val + 1)
  ((List.finRange 8).filterMap fun t => match vget (s.twr t).mq p with
    | d :: _ => if d.hold && !d.checked then some (top - (mdStep d : Int)) else none
    | [] => none).foldl min 0

/-- Of two held partitions the bound of `p` goes first: the one that would break sooner, then the lower number (R443). -/
def State.boundFirst (s : State) (p q : Part) : Bool :=
  s.stepHeld p && (s.boundSlack p < s.boundSlack q || (s.boundSlack p = s.boundSlack q && p < q))

/-- A partition's Sepia drain may use the tier (R444): not while another partition that is held waits on its own. -/
def State.sepiaTurn (s : State) (p : Part) : Bool :=
  (List.finRange 4).all fun q => q = p || !(s.sepiaDrain q && s.stepHeld q) || s.boundFirst p q

/-- A partition has a unit for NAND now. -/
def State.nandReady (s : State) (p : Part) : Bool :=
  s.sepiaTurn p && match s.nandWork p with
    | some (_, ready, pos) => decide (pos < ready)
    | none => false

/-- The partition whose program unit is next: drains are served in turn, one unit at a time (R434). -/
def State.nandNext (s : State) : Option Part :=
  ((List.range 4).map fun i => (fin ((s.stw.nandTurn.val + 1 + i) % 4) : Part)).find? s.nandReady

/-- The tier takes what a drain reads now. The steward, in whose restart Sepia drains pause (R434), writes that tier alone; the host reads its own. -/
def State.tierTakes (s : State) (p : Part) (tier : Nat) : Bool :=
  match tier with
  | 0 => true
  | 1 => s.stewardUp && s.sepiaTurn p
  | _ => false

/-- A drain never exceeds its run, so that nothing leaves without a valid one (R430). -/
def State.drainRun (s : State) (p : Part) (t : Twr) (tier : Nat) : Bool := bit (s.runEntry p t tier) 63 && bits (s.runEntry p t tier) 19 10 ≠ 0

/-- The block of a directory whose drain read comes next. -/
def nextDrain (e : TowerEpoch) : Option Nat := e.blocks.findIdx? fun b => !spansFull b.reads 65536

/-- A drained block of a partner epoch leaves as scheduled writes into the holder's slot (R430, R431). -/
def State.sendPartner (s : State) (p : Part) (t : Twr) (blk : Nat) (data : List PByte) : State :=
  match (s.sec p).reserve with
  | none => s
  | some slots =>
    let slot := ((s.sec p).slotTurn + slots.length - 1) % slots.length
    match (slots[slot]?).bind fun l => l[(s.prt p).towers.idxOf t]? with
    | none => s
    | some base =>
      s.push (s.drainXfer p t (base.toNat + 65536 * blk) data)

/-- A drain read of a whole block (R187): the image as it stood at the open. Poison goes into the image (R438). -/
def execDrainRead (t : Twr) (p : Part) (blk : Nat) (ecc : MemEcc) (s : State) : Host.Outcome State Fault Refusal :=
  match vget (s.twr t).epochs p, (s.sec p).epoch with
  | some e, some i =>
    match e.blocks[blk]? with
    | none => noEvent s
    | some b =>
      if e.aborted || b.drained || nextDrain e ≠ some blk || s.maintenance || !s.towerUp t || !s.halfUp (towerHalf t) || !s.tierTakes p i.tier || !s.drainRun p t i.tier then noEvent s
      else
        let s := s.sectorsRead t ecc b.addr 65536
        let data := s.memRead b.addr 65536
        let k := s.imageIndex p t blk
        let s := s.modBlock t p blk fun b => { b with reads := [(0, 65536)] }
        let s := s.modSec p fun x => { x with epoch := some { i with
          crcs := i.crcs ++ [(k, BitVec.ofNat 32 (crc32c (rawBytes data)))], poisoned := i.poisoned || anyPoison data } }
        next (if i.tier = 0 then s.sendPartner p t blk data else s)
  | _, _ => noEvent s


/-- A block's drain completes (Table 06-6). An engine that waited for it to leave Pending drops its raise (R190). -/
def execBlockDrainComplete (t : Twr) (p : Part) (blk : Nat) (s : State) : Host.Outcome State Fault Refusal :=
  match (vget (s.twr t).epochs p).bind fun e => e.blocks[blk]? with
  | none => noEvent s
  | some b =>
    if !spansFull b.reads 65536 then noEvent s
    else match b.st with
      | .pending =>
        let s' := ((s.modBlock t p blk fun b => { b with st := .out }).closeEpoch t p).dropHold t p fun d => d.checked
        next (State.noteEpoch s p (s'.sendCommit p))
      | .shadowed => next (State.noteEpoch s p ((s.modBlock t p blk fun b => { b with st := .returning }).sendCommit p))
      | _ => noEvent s

/-! ### Partner memory (R431, R432, R508) -/

/-- A write of OD 6176h (R431, R444, R446): the source's steward asks the holder, whose answer gives the addresses of its slots. -/
def execPartnerTargetWrite (via : Via) (p : Part) (v : W64) (answer : Option (List (List W64))) (s : State) : Host.Outcome State Fault Refusal :=
  let dev := BitVec.ofNat 16 (bits v.toNat 47 32)
  command via 0x6176 (p.val + 1) (leBytes 8 v.toNat) (fun s =>
    checked (firstOf (bits v.toNat 63 58 ≠ 0 || bits v.toNat 31 0 ≠ 0) (dev.toNat = s.reg 0x1020 0) (s.loaded p)) fun s =>
      let s := (s.setReg 0x6176 (p.val + 1) v.toNat).modSec p fun x => { x with reserve := none, slotTurn := 0 }
      let s := s.tunnelSend dev (.reserve p)
      match answer with
      | none => s
      | some l => (s.modStw fun x => { x with outbox := x.outbox.dropLast }).modSec p fun x => { x with reserve := some l }) s

/-- The commit record reaches the holder (R432): the slot in turn is complete, and its source is told. -/
def execCommitRecordArrival (port : PortId) (p : Part) (step : W64) (s : State) : Host.Outcome State Fault Refusal :=
  let v := s.reg 0x6177 (p.val + 1)
  if !s.portUp port || s.portOwner port ≠ some p || !s.loaded p || !bit v 63 || !s.stewardUp then noEvent s
  else
    let n := if bit v 62 then 2 else 1
    let s := s.modSec p fun x => { x with mirror := (fit none n x.mirror).set (x.mirrorNext % n) (some step), mirrorNext := (x.mirrorNext + 1) % n }
    next (s.tunnelSend (BitVec.ofNat 16 (bits v 47 32)) (.completion p step))

/-- The holder's completion reaches the source (R432): for the oldest image that waits for one. -/
def execPartnerCompletion (p : Part) (s : State) : Host.Outcome State Fault Refusal :=
  if !s.stewardUp then noEvent s
  else match (s.sec p).late.findIdx? (fun l => l.img.tier = 0 && l.commit) with
    | some k => next (s.completeLate p k)
    | none => match (s.sec p).epoch with
      | some i => if i.tier = 0 && (s.sec p).commit then next (s.completeImage p) else noEvent s
      | none => noEvent s

/-- No completion has come within 100 ms of the last block (R432, R437). -/
def execCommitTimeout (p : Part) (s : State) : Host.Outcome State Fault Refusal :=
  if !s.stewardUp then noEvent s
  else match (s.sec p).late.findIdx? (fun l => l.img.tier = 0 && l.commit && s.passed l.commitAt 100000000) with
    | some k => next ((s.modSec p fun x => { x with late := ldel x.late k }).count 0x9092 (p.val + 1))
    | none => match (s.sec p).epoch with
      | some i => if i.tier = 0 && (s.sec p).commit && s.passed (s.sec p).commitAt 100000000 then next (s.abortEpoch p) else noEvent s
      | none => noEvent s

/-- A removal notice of a holder (R508). -/
def execRemovalNotice (dev : W16) (s : State) : Host.Outcome State Fault Refusal :=
  if !s.stewardUp then noEvent s else next ((s.partnersAt dev).foldl State.losePartner s)

/-! ### The Sepia tier (R433 to R435) -/

/-- Other partitions whose Sepia drains pause for a held one lose their share (R444, R445), recorded once for each epoch. -/
def State.yieldSepia (s : State) (p : Part) : State :=
  if !s.stepHeld p then s
  else (List.finRange 4).foldl (fun s q =>
    if q ≠ p && s.sepiaDrain q && !s.sepiaTurn q && !(s.sec q).yielded then
      (s.modSec q fun x => { x with yielded := true }).raise (some q) 0x0D 0x0D03 (siteSteward noLoc2)
    else s) s

/-- An operation of the flash port on the target that holds place `u` of a partition's share (R525, R526): the prefix byte immediately before it, and WP_N high during it where it
programs or erases. WP_N is low in every state between two commands. -/
def State.flashOp (s : State) (p : Part) (u : Nat) (c : FlashCmd) : State :=
  let n := s.stw.nandTargets.getD (Config.flashPlace p.val u % max 1 s.stw.nandTargets.length) 0
  let writes : Bool := c = .pageProgram || c = .blockErase
  let s := if writes then s.emit (.wpN true) else s
  let s := (s.emit (.flash (n / 4) (n % 4) (.prefixByte s.stw.nandPrefix))).emit (.flash (n / 4) (n % 4) c)
  if writes then s.emit (.wpN false) else s

/-- A program unit completes (R433): a failed one is written again at the next unit, and the commit unit completes the image. Drains take the port in turn (R434). -/
def execNandProgramComplete (p : Part) (ok : Bool) (s : State) : Host.Outcome State Fault Refusal :=
  match s.nandWork p with
  | none => noEvent s
  | some (k, _, pos) =>
    if !s.stewardUp || !s.sepiaUp || s.nandNext ≠ some p then noEvent s
    else
      let s := ((s.yieldSepia p).flashOp p pos .pageProgram).modStw fun x => { x with nandTurn := p }
      if !ok then next s
      else match k with
        | none => next (if pos + 1 = s.unitsAll p then s.completeImage p else s.modSec p fun x => { x with nandPos := pos + 1 })
        | some k =>
          if pos + 1 = s.unitsAll p then next (s.completeLate p k)
          else next (s.modSec p fun x => { x with late := x.late.mapIdx fun i l => if i = k then { l with nandPos := pos + 1 } else l })

/-- A block erase completes (R433, R435): the mean erase count is saved, a block that fails is retired, and the tier ends at its rated count or without a spare. -/
def execNandEraseComplete (p : Part) (ok : Bool) (s : State) : Host.Outcome State Fault Refusal :=
  if !s.sepiaUp || !s.stewardUp || s.reg 0x6178 (p.val + 1) = 0 then noEvent s
  else
    let s := (s.flashOp p s.stw.nandErases .blockErase).modStw fun x => if ok then { x with nandErases := x.nandErases + 1 } else { x with nandSpare := x.nandSpare - 1 }
    let mean := min (s.stw.nandErases / max 1 s.stw.nandBlocks) (2 ^ 24 - 1)
    let s := s.saveReg 0x617C 0 mean
    next (if s.reg 0x617D 0 ≤ mean || (!ok && s.stw.nandSpare = 0) then s.retireSepia else s)

/-- A NAND read of a restore completes (R528): what LDPC cannot correct is delivered with its CRC failed. -/
def execNandReadComplete (p : Part) (blk : Nat) (ok : Bool) (s : State) : Host.Outcome State Fault Refusal :=
  match (s.sec p).restore with
  | some r =>
    if r.img.tier ≠ 1 || !s.stewardUp || (r.read.any fun e => e.1 = blk) || (s.securedBlocks p).length ≤ blk then noEvent s
    else
      let s := (List.range 4).foldl (fun s i => s.flashOp p (1 + 4 * blk + i) .read) s
      next (s.modSec p fun x => { x with restore := some { r with read := r.read ++ [(blk, ok)] } })
  | none => noEvent s

/-! ### The shared store and the arming of a restore (R436, R440) -/

/-- A write of OD 617Fh (R436): the stored step completes the image that the host has read whole. -/
def execSharedStoreCommit (via : Via) (p : Part) (step : W64) (s : State) : Host.Outcome State Fault Refusal :=
  command via 0x617F (p.val + 1) (leBytes 8 step.toNat) (fun s =>
    match (s.sec p).late.findIdx? (fun l => l.img.tier = 2 && l.img.step = step) with
    | some k => (0, fun s => (s.setReg 0x617F (p.val + 1) 0).completeLate p k)
    | none => match (s.sec p).epoch with
      | some i =>
        if i.tier = 2 && i.step = step && s.undrained p = 0 then (0, fun s => (s.setReg 0x617F (p.val + 1) 0).completeImage p)
        else refused 0x617F (p.val + 1)
      | none => refused 0x617F (p.val + 1)) s

/-- Serves a DOMAIN write of a whole value in one segment with COMMIT to an entry with a row of its own. -/
def commandWhole (via : Via) (idx sub : Nat) (data : List Byte) (act : State → Nat × (State → State)) (s : State) : Host.Outcome State Fault Refusal :=
  let r := { writeReq idx sub data with commit := true }
  serve via r data (fun s role =>
    let c := s.writeStatus role r
    if c ≠ 0 then (c, [], id) else
      let a := act s
      (a.1, [], fun s => a.2 (s.unstage via idx sub))) s

/-- What a write of OD 6179h is refused for (Table 14-4, R440). -/
def State.armStatus (s : State) (p : Part) (v : Nat) : Nat :=
  firstOf (bits v 127 8 ≠ 0 || bits v 6 4 ≠ 0) (bits v 3 2 = 3 || 1 < bits v 1 0) (s.loaded p)

def State.armRestore (s : State) (p : Part) (v : Nat) : State :=
  s.modSec p fun x => { x with req := BitVec.ofNat 256 v, arm := bits v 1 0 }

/-- A write of OD 6179h (R440, Table 14-4). -/
def execRestoreArm (via : Via) (p : Part) (req : BitVec 256) (s : State) : Host.Outcome State Fault Refusal :=
  commandWhole via 0x6179 (p.val + 1) (leBytes 32 req.toNat) (fun s => checked (s.armStatus p req.toNat) fun s => s.armRestore p req.toNat) s

end Sys2Proof.Machine
end

