-- ==== Sys2Proof/Machine/Restart.lean ====
section
/-!
DEFINITION. What a job restart does before the loader checks: tower retirement (R173), isolation and repair of stations (R87 to R89, R402, R406, R416, R418, R495),
and the switching in of spares (R8, R10, R417).
-/
namespace Sys2Proof.Machine

/-! ### Repair of one station -/

/-- A station is retired in service and bypassed, with its crossings reset jointly (R7, R418, Table 10-3). -/
def State.retireStation (s : State) (st : St) : State := (s.saveReg 0x8000 (st.val + 1) 3).resetCrossings (stationCrossings st)

/-- Byte of a row map that describes a group. -/
def rowByte (map g : Nat) : Nat := map / 2 ^ (8 * g) % 256
def setRowByte (map g v : Nat) : Nat := map - rowByte map g * 2 ^ (8 * g) + v * 2 ^ (8 * g)

/-- A failing physical row of a group, row 64 being the spare (R87 to R89): mapped out when the spare is usable and unused and calibration passes, else the station
is retired. OD 8010h is saved when a repair is committed and at no other time (R90): an unused spare that fails is only marked. -/
def State.repairRow (s : State) (st : St) (g : Fin 8) (r : Fin 65) (calOk : Bool) : State :=
  let map := s.reg 0x8010 (st.val + 1)
  let b := rowByte map g.val
  if r.val = 64 then
    if bit b 7 then s.retireStation st else s.setReg 0x8010 (st.val + 1) (setRowByte map g.val (b % 64 + 64))
  else if bit b 7 || bit b 6 || !calOk then s.retireStation st
  else s.saveReg 0x8010 (st.val + 1) (setRowByte map g.val (128 + r.val))

/-- What isolation of a station finds, applied (Table 13-8). -/
def State.applyFinding (st : St) (s : State) (f : RestartFinding) : State :=
  if 1 < s.stationState st then s
  else match f with
    | .row x g r c => if x = st then s.repairRow st g r c else s
    | .other x => if x = st then s.retireStation st else s
    | _ => s

/-- Isolation of a station that faulted, or failed a direct slice (R402, R416): 4,096 isolation kernels; a second fault within 30 days of the one before retires it whatever they find. -/
def State.isolate (iso : List RestartFinding) (s : State) (st : St) : State :=
  let sub := st.val + 1
  if 1 < s.stationState st || !((s.hlt st).isolate || s.reg 0x7010 sub = 2) then s
  else
    let again := (s.hlt st).isolate && decide (2 ≤ (s.hlt st).faults.length)
    let s := ((s.count 0x9000 sub).isolationRun st).modHealth st fun h => { h with isolate := false }
    let s := if again then s.retireStation st else iso.foldl (State.applyFinding st) s
    if s.stationState st < 2 && s.reg 0x7010 sub = 2 then s.saveReg 0x7010 sub 1 else s

/-- The forced-mismatch self-test of the compare logic (R406). -/
def State.compareTest (iso : List RestartFinding) (s : State) (st : St) : State :=
  if s.stationState st < 2 && iso.contains (.compare st) then s.retireStation st else s

/-- A passing rotation pass completed within the last 24 h (R402, R495). -/
def State.passToday (s : State) (st : St) : Bool :=
  match (s.hlt st).lastPass with
  | some t => decide (s.time.toNat < t.2.toNat + dayNs)
  | none => false

/-- A rotation pass by direct slices (R402). -/
def State.rotate (s : State) (st : St) : State :=
  (s.slicesRun st rotationSet).modHealth st fun h => { h with
    lastPass := some (s.time, s.time), passFrom := s.time, passed := [], due := false }

/-- A station of an unparked half that has no pass of today runs one (R495); a failing one is handled as under repair. -/
def State.duePass (iso : List RestartFinding) (s : State) (st : St) : State :=
  if s.stationState st ≠ 0 || !(s.hlt st).due || s.passToday st then s
  else if iso.contains (.rotation st) then (s.suspect st).retireStation st
  else s.rotate st

/-! ### Spares (R8, R402, R417) -/

/-- The spare of the range that comes first in the order of preference: S4, S13, then the highest. -/
def State.firstSpare (s : State) (p : Part) : Option St :=
  let l := (s.rangeList p).filter fun st => s.stationState st = 1
  if l.contains 4 then some 4 else if l.contains 13 then some 13
  else l.foldl (fun m st => match m with
    | some x => if x < st then some st else some x
    | none => some st) none

/-- Switches one spare in; a spare that fails its pass or its calibration is retired, and the next is taken. -/
def State.switchIn (p : Part) (iso : List RestartFinding) : Nat → State → State
  | 0, s => s
  | fuel + 1, s =>
    match s.firstSpare p with
    | none => s
    | some sp =>
      let due := !s.passToday sp
      if due && iso.contains (.rotation sp) then State.switchIn p iso fuel ((s.suspect sp).retireStation sp)
      else
        let s := if due then s.rotate sp else s
        if iso.contains (.spareCal sp) then State.switchIn p iso fuel (s.retireStation sp)
        else (s.saveReg 0x8000 (sp.val + 1) 0).resetCrossings (stationCrossings sp)

/-- Stations of the range that are in service. -/
def State.inService (s : State) (p : Part) : Nat := ((s.rangeList p).filter fun st => s.stationState st = 0).length

/-- Stations of the range that left service since the last restart (R30, R282); the restart settles what they are owed. -/
def State.vacancies (s : State) (p : Part) : List St := (s.rangeList p).filter fun st => (s.hlt st).vacant

/-- One spare for each station that is owed one. -/
def State.replace (p : Part) (iso : List RestartFinding) : Nat → State → State
  | 0, s => s
  | n + 1, s => State.replace p iso n (State.switchIn p iso 18 s)

/-- The steward's work at a job restart of a partition, which forms its sub-ring anew (R36, R48). Each station retired by it, or since the one before, gives way to a spare (R30);
one that a failed crossing retired enters bypass here, with its crossings reset jointly (R42, R293). -/
def State.restartWork (s : State) (p : Part) (iso : List RestartFinding) : State :=
  let s := (List.finRange 8).foldl (fun s t => if s.reg 0x8030 (t.val + 1) = 1 && !vget (s.twr t).gone p && (s.towerWindow p t).isSome then s.retireTower p t else s) s
  let l := s.rangeList p
  let n := s.inService p
  let s := l.foldl (State.compareTest iso) s
  let s := l.foldl (State.isolate iso) s
  let live := l.filter fun st => !s.parked (stationHalf st)
  let s := live.foldl (State.duePass iso) s
  let v := s.vacancies p
  let s := State.replace p iso (n - s.inService p + v.length) s
  (v.foldl (fun s st => (s.modHealth st fun h => { h with vacant := false }).resetCrossings (stationCrossings st)) s).formRing p

end Sys2Proof.Machine
end

