-- ==== Sys2Proof/Machine/Jobs.lean ====
section
/-!
DEFINITION. Jobs (R238 to R242, R483 to R485, R549): the binary, the loader's checks, binding, ends and unloads; and the restore that a load runs (R440 to R442).
-/
namespace Sys2Proof.Machine

/-! ### Reading the binary (R238, R241, R483) -/

/-- Pieces of an extent by tower. -/
def towerPieces (a n : Nat) : List (Nat × Nat) :=
  (List.range 8).filterMap fun t =>
    let lo := max a (t * 2 ^ 33)
    let hi := min (a + n) ((t + 1) * 2 ^ 33)
    if lo < hi then some (lo, hi - lo) else none

/-- The extent lies wholly in the partition's tower windows. -/
def State.inTowers (s : State) (p : Part) (a n : Nat) : Bool :=
  a + n ≤ 2 ^ 36 && (towerPieces a n).all fun x => s.inTowerWin p (fin (x.1 / 2 ^ 33)) x.1 x.2

/-- Bytes that the loader reads for a partition, with what the checks of the read find (R166). A tower that is out of service for the load answers with poison (R26, R492). -/
def State.loaderRead (s : State) (p : Part) (e : MemEcc) (a n : Nat) : List PByte × State :=
  (towerPieces a n).foldl (fun r x =>
    if (s.towersInService p).contains (fin (x.1 / 2 ^ 33)) then
      let t := r.2.findings e x.1 x.2
      (r.1 ++ t.curRead x.1 x.2, t)
    else (r.1 ++ freeBytes r.2.draws x.2, { r.2 with draws := r.2.draws + 1 })) ([], s)

/-- A binary: place, length, header (Table 08-9), section and relocation entries, and whether a word of these is poisoned. -/
structure Binary where
  base : Nat
  len : Nat
  hdr : Nat
  secs : List Nat
  rels : List Nat
  poison : Bool
  deriving DecidableEq, Repr

def Binary.reloff (b : Binary) : Nat := bits b.hdr 255 224
def Binary.relcnt (b : Binary) : Nat := bits b.hdr 223 200
def Binary.secoff (b : Binary) : Nat := bits b.hdr 191 160
def Binary.seccnt (b : Binary) : Nat := bits b.hdr 159 152
def Binary.test (b : Binary) : Nat := bits b.hdr 151 144
def Binary.mords (b : Binary) : Nat := bits b.hdr 143 128 + 1
def Binary.spill (b : Binary) : Nat := bits b.hdr 127 112
def Binary.prog (b : Binary) : Nat := bits b.hdr 111 96
def Binary.towers (b : Binary) : Nat := bits b.hdr 95 88
def Binary.ports (b : Binary) : Nat := bits b.hdr 87 80
def Binary.stashW (b : Binary) : Nat := bits b.hdr 63 56
def Binary.stashE (b : Binary) : Nat := bits b.hdr 55 48
def Binary.contract (b : Binary) : Nat := bits b.hdr 31 24
def Binary.version (b : Binary) : Nat := bits b.hdr 15 0

/-- Bytes of one program image. -/
def Binary.image (b : Binary) : Nat := b.prog * 4096

def Binary.secsFit (b : Binary) : Bool := b.secoff + 8 * b.seccnt ≤ b.len
def Binary.relsFit (b : Binary) : Bool := b.reloff + 8 * b.relcnt ≤ b.len

def secOff (e : Nat) : Nat := bits e 63 32
def secSize (e : Nat) : Nat := bits e 31 16 * 4096
def secForm (e : Nat) : Nat := bits e 15 14
def secN (e : Nat) : Nat := bits e 13 9

def relOff (e : Nat) : Nat := bits e 63 32
def relKind (e : Nat) : Nat := bits e 31 28
def relWidth (e : Nat) : Nat := 2 * 2 ^ bits e 27 26
def relSect (e : Nat) : Nat := bits e 23 16
def relIdx (e : Nat) : Nat := bits e 15 0

/-- Words of 8 bytes of a byte string. -/
def words8 (n : Nat) (l : List PByte) : List Nat := (List.range n).map fun i => leP ((l.drop (8 * i)).take 8)

/-- Reads header and tables; tables that leave the binary are not read. -/
def State.readBinary (s : State) (p : Part) (e : MemEcc) (base len : Nat) : Binary × State :=
  let h := s.loaderRead p e base 32
  let b : Binary := ⟨base, len, leP h.1, [], [], anyPoison h.1⟩
  if b.poison then (b, h.2)
  else
    let x := if b.secsFit then h.2.loaderRead p e (base + b.secoff) (8 * b.seccnt) else ([], h.2)
    let y := if b.relsFit then x.2.loaderRead p e (base + b.reloff) (8 * b.relcnt) else ([], x.2)
    ({ b with
      secs := words8 (if b.secsFit then b.seccnt else 0) x.1, rels := words8 (if b.relsFit then b.relcnt else 0) y.1
      poison := anyPoison x.1 || anyPoison y.1 }, y.2)

/-! ### The checks (R239, R241, R242) -/

/-- A relocation entry is refused (R239). -/
def Binary.relBad (b : Binary) (e : Nat) : Bool :=
  let o := relOff e
  let sec := b.secs.getD (relSect e) 0
  b.seccnt ≤ relSect e || bits e 25 24 ≠ 0 || bits e 27 26 = 3 || 6 < relKind e || b.image = 0 ||
  secN sec * b.image < o + relWidth e || o / b.image ≠ (o + relWidth e - 1) / b.image ||
  (relKind e = 0 && b.towers ≤ relIdx e) || (relKind e = 4 && b.ports ≤ relIdx e) || (relKind e ≠ 0 && relKind e ≠ 4 && relIdx e ≠ 0) ||
  (relKind e = 1 && b.stashW = 0) || (relKind e = 2 && b.stashE = 0)

/-- A section entry is refused. -/
def Binary.secBad (b : Binary) (e : Nat) : Bool :=
  b.len < secOff e + secSize e || secForm e = 0 || secN e = 0 || 16 < secN e || secSize e < secN e * b.image || bits e 8 0 ≠ 0

/-- Code 01h. -/
def Binary.malformed (b : Binary) : Bool :=
  b.version ≠ 1 || !(b.contract = 1 || b.contract = 2) || bits b.hdr 199 192 ≠ 0 || bits b.hdr 79 64 ≠ 0 || bits b.hdr 47 32 ≠ 0 || bits b.hdr 23 16 ≠ 0 ||
  b.seccnt = 0 || b.prog = 0 || 2048 < b.prog || b.towers = 0 || 8 < b.towers || 28 < b.ports || 96 < b.stashW || 96 < b.stashE ||
  !b.secsFit || !b.relsFit || b.secs.any b.secBad ||
  (b.secs.any fun e => 1 < (b.secs.filter fun f => secForm f = secForm e && secN f = secN e).length) || b.rels.any b.relBad

/-- Form of a partition's range with no half parked (R46). -/
def State.rangeForm (s : State) (p : Part) : Nat :=
  match s.rangeOf p with
  | none => 0
  | some (a, b) => if (s.rangeList p).length = 18 then 1 else if (a = 0 && b = 8) || (a = 9 && b = 17) then 2 else 3

/-- Every n that R242 requires has its section. -/
def State.covers (s : State) (p : Part) (b : Binary) : Bool :=
  let form := s.rangeForm p
  let ns := if form = 1 then [12, 13, 14, 15, 16] else (List.range (min 16 (s.rangeList p).length)).map (· + 1)
  ns.all fun n => b.secs.any fun e => secForm e = form && secN e = n

/-- The section of the form and n in force. -/
def State.section (s : State) (p : Part) (b : Binary) : Option Nat :=
  b.secs.findIdx? fun e => secForm e = s.ringForm p && secN e = (s.activeStations p).length

/-- Mordants that a binary may need (R357, R242). -/
def State.mordantLimit (s : State) (p : Part) : Nat :=
  let size := match s.morRange p with
    | some (a, z) => z + 1 - a
    | none => 0
  let least := if s.rangeForm p ≠ 1 then 1 else if s.ringForm p = 1 then 12 else (s.activeStations p).length
  min size (8192 * least)

/-- MiB of stash that a load may use: none in a half that is parked, nor of a stash out of service (R282, R492). -/
def State.stashMiB (s : State) (p : Part) (east : Bool) : Nat :=
  if s.parked (if east then .east else .west) || vget s.clk.stashBad (if east then 1 else 0) then 0 else s.windowBytes p east / 2 ^ 20

/-- The value that a relocation adds (Table 08-10). -/
def State.bound (s : State) (p : Part) (towers : List Twr) (ports : List PortId) (e : Nat) : Nat :=
  match relKind e with
  | 0 => match towers[relIdx e]? with
    | some t => t.val * 2 ^ 33 + ((s.towerWindow p t).map (·.1)).getD 0
    | none => 0
  | 1 => 0x1000000000 + ((s.stashWindow p false).map (·.1)).getD 0
  | 2 => 0x1010000000 + ((s.stashWindow p true).map (·.1)).getD 0
  | 3 => ((s.morRange p).map (·.1)).getD 0
  | 4 => match ports[relIdx e]? with
    | some q => q.val
    | none => 0
  | 5 => s.reg 0x1020 0
  | _ => p.val

/-- A field of the images, by image and place. -/
def fieldAt (size e : Nat) (imgs : List (List PByte)) : List PByte := (((imgs[relOff e / size]?).getD []).drop (relOff e % size)).take (relWidth e)

/-- One relocation applied: `none` when the sum does not fit. -/
def State.relocate (s : State) (p : Part) (b : Binary) (towers : List Twr) (ports : List PortId) (imgs : List (List PByte)) (e : Nat) :
    Option (List (List PByte)) :=
  let w := relWidth e
  let v := leP (fieldAt b.image e imgs) + s.bound p towers ports e
  if 2 ^ (8 * w) ≤ v then none
  else some (imgs.modify (relOff e / b.image) fun l =>
    l.take (relOff e % b.image) ++ clean (leBytes w v) ++ l.drop (relOff e % b.image + w))

/-- Every relocation of the bound section applied. -/
def State.relocateAll (s : State) (p : Part) (b : Binary) (k : Nat) (imgs : List (List PByte)) : Option (List (List PByte)) :=
  (b.rels.filter fun e => relSect e = k).foldl (fun r e => r.bind fun l => s.relocate p b (s.towersInService p) (s.portList p) l e) (some imgs)

/-- A field that the loader would relocate is poisoned. -/
def fieldsPoisoned (b : Binary) (k : Nat) (imgs : List (List PByte)) : Bool :=
  (b.rels.filter fun e => relSect e = k && b.image ≠ 0).any fun e => anyPoison (fieldAt b.image e imgs)

/-- Program images of a section, position by position. -/
def State.readImages (s : State) (p : Part) (ecc : MemEcc) (b : Binary) (e : Nat) : List (List PByte) × State :=
  (List.range (secN e)).foldl (fun r i =>
    let x := r.2.loaderRead p ecc (b.base + secOff e + i * b.image) b.image
    (r.1 ++ [x.1], x.2)) ([], s)

/-- The first failing check of Table 08-11, or the section to bind with its relocated images. -/
inductive LoadResult where
  | refused (code : Nat)
  | bind (b : Binary) (images : List (List PByte))
  deriving DecidableEq, Repr

/-- The checks that need no image, in their order after 09h and 0Ah. -/
def State.loadCode (s : State) (p : Part) (b : Binary) : Nat :=
  if b.malformed then 1
  else if b.test < 5 then 7
  else if !s.covers p b then 3
  else if (s.section p b).isNone then 2
  else if (s.towersInService p).length < b.towers then 4
  else if s.mordantLimit p < b.mords || (s.portList p).length < b.ports || s.stashMiB p false < b.stashW || s.stashMiB p true < b.stashE then 6
  else if 8192 < b.prog + b.spill then 5
  else 0

/-- The loader's verdict on a binary (R241). No health object of Table 13-9 has a flag for a device out of service (R10): the model shows it by OD 8001h below 12, or by OD 4110h at
02h after a mesh crossing has failed, and by code 09h here (DESIGN CHOICE, assumption log 128). -/
def State.loadCheck (s : State) (p : Part) (ecc : MemEcc) (a n : Nat) : LoadResult × State :=
  if s.goodCount < 12 || s.clk.meshBad then (.refused 9, s)
  else if n < 32 || !s.inTowers p a n then (.refused 1, s)
  else
    let r := s.readBinary p ecc a n
    let b := r.1
    if b.poison then (.refused 0x0A, r.2)
    else match s.section p b with
      | none => (.refused (s.loadCode p b), r.2)
      | some k =>
        let e := b.secs.getD k 0
        if b.secBad e then (.refused (s.loadCode p b), r.2)
        else
          let i := r.2.readImages p ecc b e
          if fieldsPoisoned b k i.1 then (.refused 0x0A, i.2)
          else if s.loadCode p b ≠ 0 then (.refused (s.loadCode p b), i.2)
          else match s.relocateAll p b k i.1 with
            | none => (.refused 8, i.2)
            | some l => (.bind b l, i.2)

/-! ### Binding (R240) -/

/-- A station with nothing running: its local store stays, and a test slice runs on (R159). -/
def Station.empty (x : Station) : Station :=
  { Station.reset with ls := x.ls, lsPoison := x.lsPoison, arr := { ArrayUnit.reset with slice := x.arr.slice } }

/-- An extent of memory zeroed, with its poison gone (R215, R499). -/
def State.zeroExtent (s : State) (a n : Nat) : State :=
  { s with
    mem := s.mem.filter fun e => e.1 < a || a + n ≤ e.1
    poison := s.poison.filter fun e => e.1 * 64 < a || a + n ≤ e.1 * 64
    stashPoison := s.stashPoison.filter fun k => k * 8 < a || a + n ≤ k * 8 }

/-- The partition's stash windows zeroed (R215, R499). -/
def State.zeroStash (s : State) (p : Part) : State :=
  [false, true].foldl (fun s e => match s.stashWindow p e with
    | some (lo, hi) => s.zeroExtent ((if e then 0x1010000000 else 0x1000000000) + lo) (hi - lo)
    | none => s) s

/-- What the fabric services keep for a partition's job. -/
def State.clearFabric (s : State) (p : Part) : State :=
  { s with fab := {
    groups := s.fab.groups.filter fun g => g.part ≠ p, norms := s.fab.norms.filter fun g => g.part ≠ p
    branches := s.fab.branches.filter fun g => g.part ≠ p, raises := s.fab.raises.filter fun r => r.1 ≠ p } }

/-- The job is bound: positions, program images, towers, ports (R240). Its stations run at the setting in force from here on (R278). A reserve that its partition holds for another device
is bound anew (R431). -/
def State.bindJob (s : State) (p : Part) (b : Binary) (images : List (List PByte)) : State :=
  let pos := s.activeStations p
  let parked := (s.parked .west || s.parked .east) && s.crossesSeam p
  let s := s.modPart p fun x => { x with
    form := s.ringForm p, pos := pos, contract := BitVec.ofNat 8 b.contract, prog := b.prog, spill := b.spill, share := b.test
    towers := (s.towersInService p).take b.towers, ports := (s.portList p).take b.ports, stashW := b.stashW, stashE := b.stashE
    parkForm := parked, frame := 0, frameOn := false, frameHeld := false, links := [], sec := { x.sec with j := 0, high := 0, sc := none, restore := none } }
  let s := (pos.zip images).foldl (fun s (st, img) => s.modSt st fun x => x.empty.lsWrite (progBase b.prog) img) s
  let s := ((s.zeroStash p).clearFabric p).setClocks p (s.effectiveMhz p)
  let s := (s.setReg 0x6150 (p.val + 1) 0x80).setReg 0x6161 (p.val + 1) 0
  let v := s.reg 0x6177 (p.val + 1)
  if bit v 63 then s.reserveChanged p v else s

/-- The bound job starts, or waits for the device to be aligned (R378). -/
def State.startBound (s : State) (p : Part) : State :=
  if s.mayStart p then s.startJob p else s

/-! ### The restore (R440 to R442) -/

/-- Fields of a job record (Table 14-1). -/
def recStag (r : List Byte) : Nat := domNat r 24 8
def recDpos (r : List Byte) : Nat := domNat r 16 8

/-- Lengths of the enabled ranges, logical tower by logical tower: what R441 compares of OD 6173h. -/
def rangeShape (d : List Byte) : List (List Nat) :=
  (List.range 8).map fun k => ((List.range 16).map fun r => domNat d (128 * k + 8 * r) 8).filterMap fun e =>
    if bit e 63 then some (bits e 48 32) else none

/-- Fields of a restore request (Table 14-4). -/
def reqRdpos (v : Nat) : Nat := bits v 255 192
def reqStep (v : Nat) : Nat := bits v 191 128
def reqClean (v : Nat) : Bool := bit v 7
def reqTier (v : Nat) : Nat := bits v 3 2

/-- Checks 2 to 6 of R441 on an image. -/
def State.imageOk (s : State) (p : Part) (v : Nat) (i : Image) : Bool :=
  !i.poisoned && !i.inconsistent && ((!reqClean v && !(s.sec p).cleanReq) || i.clean) &&
  rangeShape i.ranges = rangeShape (fit 0 1024 (s.dom 0x6173 (p.val + 1))) && i.finger = s.fingerprint p &&
  recStag i.recd = recDpos i.recd && recDpos i.recd = reqRdpos v

/-- The image that a request names on its tier (check 1). -/
def State.findImage (s : State) (p : Part) (v : Nat) : Option Image :=
  (s.sec p).images.find? fun i => i.tier = reqTier v && i.complete && i.device.toNat = s.reg 0x1020 0 &&
    (reqStep v = 2 ^ 64 - 1 || i.step.toNat = reqStep v) && (i.tier ≠ 0 || (s.sec p).reserve.isSome)

/-- A poisoned image is refused although every older image would break the lost-step bound: the partition gives that bound up (R444, R445). -/
def State.boundGivenUp (s : State) (p : Part) (i : Image) : Bool :=
  i.poisoned && !(s.sec p).images.any fun j => j.complete && !j.poisoned && i.step.toNat ≤ j.step.toNat + s.reg 0x6170 (p.val + 1)

/-- A restore fails (R441): fault 0Bh at the steward, which ends the job. -/
def State.restoreFail (s : State) (p : Part) : State :=
  (s.modSec p fun x => { x with restore := none, arm := 3 }).raise (some p) 0x0B 0x0B00 (siteSteward noLoc2)

/-- An image is refused (R441, R445). -/
def State.refuseImage (s : State) (p : Part) (i : Image) : State :=
  let s' := s.restoreFail p
  if s.boundGivenUp p i then s'.raise (some p) 0x0D 0x0D03 (siteSteward noLoc2) else s'

/-- A restore that runs. -/
def newRestore (i : Image) (known : Bool) : Restore := ⟨i, [], [], [], [], known, known⟩

/-- An image of the shared store that the host has still to supply (R519). -/
def blankImage (v : Nat) : Image :=
  { tier := 2, step := BitVec.ofNat 64 (reqStep v), opened := 0, device := 0, ranges := [], finger := 0, recd := [], crcs := [], inconsistent := false
    poisoned := false, complete := false, clean := false, spoiled := false, passOk := false }

/-- The armed restore begins (R440, R441). The steward checks an image of the shared store once its header is there. -/
def State.beginRestore (s : State) (p : Part) (v : Nat) : State :=
  let s := (s.modSec p fun x => { x with arm := 2 }).setJobState p 2
  if reqTier v = 2 then s.modSec p fun x => { x with restore := some (newRestore (blankImage v) false) }
  else match s.findImage p v with
    | none => s.restoreFail p
    | some i =>
      if s.imageOk p v i then s.modSec p fun x => { x with restore := some (newRestore i true) } else s.refuseImage p i

/-- Block `blk` of the image may not be written: an epoch of an earlier job still holds it (R188), which faults the restore's job. -/
def State.restoreForbidden (s : State) (p : Part) (t : Twr) : State := s.raise (some p) 1 0x0102 (towerSite t 2 0xFF noPc)

/-- A block lands in the ranges when its CRC-32C is right, else the restore fails (R441). -/
def State.landBlock (s : State) (p : Part) (blk : Nat) (ok : Bool) (data : List Byte) : State :=
  match (s.sec p).restore, (s.securedBlocks p)[blk]? with
  | some r, some b =>
    let crc := (r.img.crcs.find? fun e => e.1 = blk).map fun e => e.2.toNat
    if !ok || crc ≠ some (crc32c data) then s.restoreFail p
    else if s.forbids b.2 65536 then s.restoreForbidden p b.1
    else
      let s := if s.towerServes b.1 b.2 then s.towerWrite b.2 (clean data) else s
      s.modSec p fun x => { x with restore := some { r with landed := setAdd r.landed blk } }
  | _, _ => s

/-- A block of a partner or Sepia image lands (Table 14-3, R528). -/
def execRestoreBlockLands (p : Part) (blk : Nat) (data : List Byte) (s : State) : Host.Outcome State Fault Refusal :=
  match (s.sec p).restore with
  | none => noEvent s
  | some r =>
    let read := r.read.find? fun e => e.1 = blk
    if r.img.tier = 2 || r.landed.contains blk || (s.securedBlocks p).length ≤ blk || data.length ≠ 65536 || (r.img.tier = 1 && read.isNone) then
      noEvent s
    else next (s.landBlock p blk (r.img.tier ≠ 1 || read = some (blk, true)) data)

/-- The last block has landed (R442): s_c is the image's step, j is 0, the counter value of that step counts as handled, so that no epoch drains it again, and the job starts. -/
def execRestoreComplete (p : Part) (s : State) : Host.Outcome State Fault Refusal :=
  match (s.sec p).restore with
  | none => noEvent s
  | some r =>
    if !r.hdrOk || !r.recOk || r.landed.length < (s.securedBlocks p).length then noEvent s
    else
      let i := { r.img with complete := true }
      let s := s.modSec p fun x => { x with
        restore := none, arm := 0, sc := some (i.step.toNat : Int), j := 0, high := i.step + 1, cleanReq := false
        images := if x.images.contains i then x.images else i :: x.images }
      next (s.startBound p)

/-! ### The commands (R483 to R485) -/

/-- The loader's part of a load (R483): a refusal is reported and the partition is free again; else bind, restore and start. -/
def State.runLoader (s : State) (p : Part) (e : MemEcc) (a n : Nat) : State :=
  let r := s.loadCheck p e a n
  match r.1 with
  | .refused c => (r.2.setReg 0x6150 (p.val + 1) c).setJobState p 0
  | .bind b l =>
    let s := r.2.bindJob p b l
    if (s.sec p).arm = 1 then s.beginRestore p (s.sec p).req.toNat else s.startBound p

/-- A removal has begun (R507); one that waits for a transition has not. -/
def State.removing (s : State) : Bool := s.pwr.removal.isSome && !s.pwr.removalWaits

/-- What a write of OD 6001h is refused for (R483, R505, R507): the steward does not judge address or length here. -/
def State.loadStatus (s : State) (p : Part) (v : Nat) : Nat :=
  firstOf (bits v 31 0 ≠ 0) false (s.loaded p || s.reg 0x4031 0 = 0 || s.reg 0x4030 0 < 3 || s.removing || bit (s.reg 0x2FFE 0) 2)

/-- An accepted load: OD 6000h reads 01h, the restart's work is done, and the loader runs. -/
def State.jobLoad (s : State) (p : Part) (v : Nat) (iso : List RestartFinding) (e : MemEcc) : State :=
  let s := (s.modPart p fun x => { x with loadAddr := BitVec.ofNat 64 (bits v 127 64), loadLen := BitVec.ofNat 64 (bits v 63 32), pos := [] }).setJobState p 1
  (s.restartWork p iso).runLoader p e (bits v 127 64) (bits v 63 32)

/-- A write of OD 6001h. -/
def execJobLoad (via : Via) (p : Part) (req : W128) (iso : List RestartFinding) (e : MemEcc) (s : State) : Host.Outcome State Fault Refusal :=
  commandWhole via 0x6001 (p.val + 1) (leBytes 16 req.toNat) (fun s => checked (s.loadStatus p req.toNat) fun s => s.jobLoad p req.toNat iso e) s

/-- A write of OD 6002h (R485): the job ends without a record, and HOLD is asserted from the next window on. A fault of the beat in progress comes first (R18). -/
def State.endByCommand (s : State) (p : Part) : State :=
  let s := s.beatEnd
  if jobLive (s.prt p) then (s.modPart p fun x => { x with faultRaise := true }).endJob p 7 else s

def execJobEnd (via : Via) (p : Part) (s : State) : Host.Outcome State Fault Refusal :=
  command via 0x6002 (p.val + 1) [1] (fun s =>
    if jobLive (s.prt p) then (0, fun s => (s.setReg 0x6002 (p.val + 1) 0).endByCommand p) else refused 0x6002 (p.val + 1)) s

/-- Job state (class J) of a partition takes its default (R16, R498). The towers stay known while an epoch of the job still drains (R187). -/
def State.jobDefaults (s : State) (p : Part) : State :=
  let sts := (s.prt p).pos
  let s := s.setClocks p 0
  let s := sts.foldl (fun s st => (s.modSt st Station.empty).setReg 0x9052 (st.val + 1) 0) s
  let s := { s with
    clk := { s.clk with pend := vset s.clk.pend p none }
    pwr := { s.pwr with raiseTo := vset s.pwr.raiseTo p none } }
  let s := ((s.setReg 0x6130 (p.val + 1) 0).setReg 0x6161 (p.val + 1) 0).forgetHangs p
  s.modPart p fun x => { Partition.reset with
    jobState := x.jobState, ring := x.ring, towers := if x.sec.epoch.isSome || x.sec.late ≠ [] then x.towers else [], sec := { x.sec with restore := none } }

/-- An ended job is unloaded (R485). -/
def State.unload (s : State) (p : Part) : State := ((s.beatEnd.jobDefaults p).clearFabric p).setJobState p 0

def execJobUnload (via : Via) (p : Part) (s : State) : Host.Outcome State Fault Refusal :=
  command via 0x6003 (p.val + 1) [1] (fun s =>
    if s.loaded p && !jobLive (s.prt p) then (0, fun s => (s.setReg 0x6003 (p.val + 1) 0).unload p) else refused 0x6003 (p.val + 1)) s

end Sys2Proof.Machine
end

