-- ==== Sys2Proof/Machine/Monitor.lean ====
section
/-!
DEFINITION. The health monitor: the risk estimate (R409), clean hours (R409, R502), and the acknowledgement of records (R415).
-/
namespace Sys2Proof.Machine

/-! ### What the monitor sees rise -/

def hourNs : Nat := 3600000000000

/-- Entries whose changes the risk estimate counts (Table 13-3): margin warnings, corrected words, replays, losses, and the spares left of towers and lanes. -/
def watchedEntries : List (Nat × Nat) :=
  [(0x9061, 73), (0x9070, 28), (0x9041, 2), (0x9073, 28), (0x9076, 28), (0x8031, 8), (0x8040, 28)].flatMap fun e => (List.range e.2).map fun i => (e.1, i + 1)

/-- A spare entry counts down, every other one up. -/
def entryRise (idx old new : Nat) : Nat := if idx = 0x8031 || idx = 0x8040 then old - new else new - old

/-- One entry as it is now: its change is noted with the time. -/
def State.noteEntry (s : State) (e : Nat × Nat) : State :=
  let key := odKey e.1 e.2
  let new := s.reg e.1 e.2
  let d := entryRise e.1 (sget 0 s.stw.seen key) new
  s.modStw fun x => { x with seen := sput 0 x.seen key new, signals := if d = 0 then x.signals else x.signals ++ [(s.time, key, d)] }

/-- Changes of every entry since the last look; what is older than an hour is forgotten. -/
def State.noteAll (s : State) : State :=
  let s := watchedEntries.foldl State.noteEntry s
  s.modStw fun x => { x with signals := x.signals.filter fun e => decide (s.time.toNat < e.1.toNat + hourNs) }

/-- How much an entry has risen in the last hour, and since the last look. -/
def State.rose (s : State) (idx sub : Nat) : Nat := ((s.stw.signals.filter fun e => e.2.1 = odKey idx sub).map fun e => e.2.2).sum
def State.roseNow (s : State) (idx sub : Nat) : Nat :=
  ((s.stw.signals.filter fun e => e.2.1 = odKey idx sub && e.1 = s.time).map fun e => e.2.2).sum

/-! ### The scores (Table 13-3) -/

/-- Towers in which a partition has a window. -/
def State.towersOf (s : State) (p : Part) : List Twr := (List.finRange 8).filter fun t => (s.towerWindow p t).isSome

/-- Islands that serve a partition: its stations, ports, towers and stashes, and the mesh columns. -/
def State.islandsOf (s : State) (p : Part) : List Nat :=
  (List.range 73).filter fun i => match islandKind i with
    | .station st => s.inRange p st
    | .column _ => true
    | .port q => s.portOwner q = some p
    | .tower t => (s.towerWindow p t).isSome
    | .stash e => (s.stashWindow p e).isSome
    | .time => false

/-- A fault of a class in the log for a partition, or for no job, within `n` ns. -/
def State.loggedIn (s : State) (p : Part) (cls n : Nat) : Bool :=
  s.faults.any fun r => r.cls.toNat = cls && (r.part = p || r.nojob) && decide (s.time.toNat < r.time.toNat + n)

/-- Frames of an hour. -/
def hourFrames : Nat := hourNs / 512

def State.marginScore (s : State) (p : Part) : Nat :=
  let l := (s.islandsOf p).map fun i => s.rose 0x9061 (i + 1)
  if s.loggedIn p 0x0C hourNs then 255 else if l.any fun n => hourFrames < 100 * n then 160 else if l.any (0 < ·) then 64 else 0

/-- Corrected errors against a threshold: above a half, above a quarter. -/
def shareScore (n threshold : Nat) : Nat := if threshold < 2 * n then 160 else if threshold < 4 * n then 64 else 0

/-- Corrected sectors of a bank in the last hour. -/
def State.bankHour (s : State) (t : Twr) (b : Nat) : Nat :=
  (within s.time hourNs (((s.twr t).bankCor.filter fun e => e.1 = b).map (·.2))).length

def State.correctedScore (s : State) (p : Part) : Nat :=
  let banks := (s.towersOf p).flatMap fun t => ((s.twr t).bankCor.map (·.1)).map fun b => shareScore (s.bankHour t b) (s.reg 0x8032 0)
  let sram := [false, true].map fun e => if (s.stashWindow p e).isSome then shareScore (s.rose 0x9041 (if e then 2 else 1)) (s.reg 0x8032 0) else 0
  let fec := (s.portsOf p).map fun q => shareScore (s.rose 0x9070 (q.val + 1)) (s.reg 0x5006 0)
  let gone : Bool := ((s.towersOf p).any fun t => 0 < s.rose 0x8031 (t.val + 1)) || (s.portsOf p).any fun q => 0 < s.rose 0x8040 (q.val + 1)
  if gone then 255 else (banks ++ sram ++ fec).foldl max 0

def State.linkScore (s : State) (p : Part) : Nat :=
  let l := (s.portsOf p).map fun q => s.roseNow 0x9073 (q.val + 1)
  if (s.portsOf p).any fun q => 0 < s.rose 0x9076 (q.val + 1) then 255
  else if l.any (1000 < ·) then 160 else if l.any (10 < ·) then 64 else 0

def State.heatScore (s : State) (p : Part) : Nat :=
  let l := (s.sensorsOf p).map s.sensor
  if l.any (105 * 64 ≤ ·) then 255 else if l.any (95 * 64 < ·) then 160 else if l.any (90 * 64 < ·) then 64 else 0

def State.testScore (s : State) (p : Part) : Nat :=
  if s.loggedIn p 3 dayNs then 255 else if (s.rangeList p).any s.observed then 160 else 0

/-- The estimate: 255 until 72 clean hours, then the largest score. -/
def State.riskOf (s : State) (p : Part) : Nat :=
  if s.reg 0x7015 0 < 72 then 255 else [s.marginScore p, s.correctedScore p, s.linkScore p, s.heatScore p, s.testScore p].foldl max 0

/-- Each second the estimates are computed anew (R409). -/
def execRiskEstimateUpdate (s : State) : Host.Outcome State Fault Refusal :=
  if !s.stewardUp then noEvent s
  else
    let s := s.noteAll
    next ((List.finRange 4).foldl (fun s p => s.setReg 0x7013 (p.val + 1) (s.riskOf p)) s)

/-! ### Clean hours (R409, R502) -/

/-- The hour that ends was not clean: a fault 02h or 03h or the start of a throttle broke it, a throttle acts, or a station is under observation. -/
def State.hourBroken (s : State) : Bool := s.stw.hourBad || s.reg 0x4201 0 % 4 ≠ 0 || (List.finRange 18).any s.observed

/-- A rotation pass of some station has completed in the hour that ends (R502). -/
def State.rotatedInHour (s : State) : Bool := (List.finRange 18).any fun st => match (s.hlt st).lastPass with
  | some t => decide (s.stw.hourAt ≤ t.2)
  | none => false

/-- An hour ends: the count is saved; an hour in DEEP-PARK or below leaves it. -/
def execCleanHourTick (s : State) : Host.Outcome State Fault Refusal :=
  if !s.stewardUp || !s.passed s.stw.hourAt hourNs then noEvent s
  else
    let n := s.reg 0x7015 0
    let v := if s.hourBroken then 0 else if s.reg 0x4020 0 % 8 < 3 && s.rotatedInHour then min (n + 1) 0xFFFFFFFF else n
    next ((s.modStw fun x => { x with hourAt := s.time, hourBad := false }).saveReg 0x7015 0 v)

/-! ### The log (R415) -/

/-- A write of OD 7002h acknowledges a record and every older one. -/
def execLogAcknowledge (via : Via) (seq : W16) (s : State) : Host.Outcome State Fault Refusal :=
  command via 0x7002 0 (leBytes 2 seq.toNat) (fun s =>
    match s.faults.findIdx? fun r => r.seq = seq with
    | some k => (0, fun s => { s.setReg 0x7002 0 0 with acked := max s.acked (k + 1) })
    | none => (3, id)) s

end Sys2Proof.Machine
end

