-- ==== Sys2Proof/Machine/Manage.lean ====
section
/-!
DEFINITION. Management: reads and writes of the dictionary (R470, R477, R550), saved configuration and factory values (R473, R474, R482), sessions (R468, R469), and SPDM
(R466, R467).
-/
namespace Sys2Proof.Machine

/-! ### Reads and writes (R477, R550) -/

/-- The entry is a DOMAIN. -/
def isDomain (idx sub : Nat) : Bool := match odRow idx sub with
  | some r => 0 < r.dom
  | none => false

/-- Status of a read request before the entry is looked at: KIND and VER, then reserved bits. -/
def readHeader (r : DictReq) : Nat :=
  if r.ver ≠ 1 || r.kind ≠ 1 then 0x0B else if r.resv || r.commit then 4 else if 1024 < r.len.toNat then 8
  else if r.off ≠ 0 && !isDomain r.index.toNat r.sub.toNat then 8 else 0

/-- A read request, or one of a KIND or VER that is not accepted. SPDM messages have rows of their own. -/
def execDictionaryRead (via : Via) (r : DictReq) (s : State) : Host.Outcome State Fault Refusal :=
  if r.kind = 2 || (r.kind = 3 && r.ver = 1) then noEvent s
  else serve via r [] (fun s role =>
    let c := readHeader r
    if c ≠ 0 then (c, [], id)
    else
      let v := s.odRead role r.index.toNat r.sub.toNat r.off.toNat r.len.toNat
      (v.1, v.2, id)) s

/-- Bytes of a numeric entry. -/
def entryBytes (idx sub : Nat) : Nat := match odRow idx sub with
  | some e => e.bytes
  | none => 0

/-- The write is one that a row of its own serves: a plain request of the whole value. -/
def rowServes (r : DictReq) (data : List Byte) : Bool :=
  ownRow r.index.toNat (leNat data) && r = writeReq r.index.toNat r.sub.toNat data && data.length = entryBytes r.index.toNat r.sub.toNat && data ≠ []

/-- A write of a numeric entry, or of no entry, that no other row serves. -/
def plainWrite (r : DictReq) (data : List Byte) : Bool := r.kind = 2 && !isDomain r.index.toNat r.sub.toNat && !rowServes r data

/-- A numeric entry takes a value, and what follows in the device: another role in the time tree (R377), the ports that a hold group leaves out (R381), and a reserve that is no longer what its
source was told (R431). -/
def State.writeEntry (s : State) (idx sub v : Nat) : State :=
  let old := s.reg idx sub
  let s := s.setReg idx sub v
  if old = v then s
  else match idx with
    | 0x5400 => s.roleChanged
    | 0x5500 => s.groupWritten (fin (sub - 1))
    | 0x6177 => s.reserveChanged (fin (sub - 1)) old
    | _ => s

/-- A write of a numeric entry (R550): access and role, reserved header bits, length, then the value itself. -/
def execDictionaryWrite (via : Via) (r : DictReq) (data : List Byte) (s : State) : Host.Outcome State Fault Refusal :=
  let idx := r.index.toNat
  let sub := r.sub.toNat
  let v := leNat data
  if !plainWrite r data then noEvent s
  else serve via r data (fun s role =>
    let c := if r.ver ≠ 1 then 0x0B else s.writeStatus role r
    let c := if c ≠ 0 then c else if r.off ≠ 0 || r.len.toNat ≠ data.length || data.length ≠ entryBytes idx sub then 8 else if hasRows idx then 3 else s.valueStatus idx sub v
    (c, [], if c = 0 then fun s => s.writeEntry idx sub v else id)) s

/-- The segment is one that a row of its own serves: of an image, or a whole job load or restore request. -/
def rowServesDomain (r : DictReq) (data : List Byte) : Bool :=
  match r.index.toNat with
  | 0x1F01 => r = { writeReq 0x1F01 r.sub.toNat data with commit := r.commit, off := r.off } && data.length ≤ 1024
  | 0x6001 => r = { writeReq 0x6001 r.sub.toNat data with commit := true } && data.length = 16
  | 0x6179 => r = { writeReq 0x6179 r.sub.toNat data with commit := true } && data.length = 32
  | _ => false

/-- A write to a DOMAIN entry that no other row serves. -/
def domainWrite (r : DictReq) (data : List Byte) (commit : Bool) : Bool :=
  r.kind = 2 && r.commit = commit && isDomain r.index.toNat r.sub.toNat && !rowServesDomain r data

/-- Checks of a segment: access, role and header, then the entry's size. -/
def State.segmentStatus (s : State) (role : Role) (r : DictReq) (data : List Byte) (size : Nat) : Nat :=
  let c := if r.ver ≠ 1 then 0x0B else s.writeStatus role r
  if c ≠ 0 then c else if 1024 < data.length || r.len.toNat ≠ data.length || size < r.off.toNat + data.length then 8 else 0

/-- Greatest length of a DOMAIN entry. -/
def domLen (idx sub : Nat) : Nat := match odRow idx sub with
  | some r => r.dom
  | none => 0

/-- A segment without COMMIT goes into the staging copy. -/
def execDomainWriteSegment (via : Via) (r : DictReq) (data : List Byte) (s : State) : Host.Outcome State Fault Refusal :=
  let idx := r.index.toNat
  let sub := r.sub.toNat
  if !domainWrite r data false then noEvent s
  else serve via r data (fun s role =>
    let c := s.segmentStatus role r data (domLen idx sub)
    (c, [], if c = 0 then fun s => s.stage via idx sub (overlay (s.staged via idx sub (domLen idx sub)) r.off.toNat data) else id)) s

/-- A whole DOMAIN value is applied; a new plan may now differ from the set-up in force (R454). Job loads and restore requests come here when they were staged in
several segments; `iso` and `e` are what the tests and the reads of such a load find. -/
def State.applyDomain (s : State) (idx sub : Nat) (v : List Byte) (iso : List RestartFinding) (e : MemEcc) : State :=
  match idx with
  | 0x6001 => s.jobLoad (fin (sub - 1)) (leNat v) iso e
  | 0x6179 => s.armRestore (fin (sub - 1)) (leNat v)
  | 0x6010 => (s.setDom idx sub v).planDiffers
  | _ => s.setDom idx sub v

/-- Status of a whole value. -/
def State.wholeStatus (s : State) (idx sub : Nat) (v : List Byte) : Nat :=
  match idx with
  | 0x6001 => s.loadStatus (fin (sub - 1)) (leNat v)
  | 0x6179 => s.armStatus (fin (sub - 1)) (leNat v)
  | _ => s.domStatus idx sub v

/-- COMMIT: the staged value is checked and applied whole, and the staging copy is gone. -/
def execDomainWriteCommit (via : Via) (r : DictReq) (data : List Byte) (iso : List RestartFinding) (e : MemEcc) (s : State) : Host.Outcome State Fault Refusal :=
  let idx := r.index.toNat
  let sub := r.sub.toNat
  if !domainWrite r data true then noEvent s
  else serve via r data (fun s role =>
    let c := s.segmentStatus role r data (domLen idx sub)
    if c ≠ 0 then (c, [], id)
    else
      let v := overlay (s.staged via idx sub (domLen idx sub)) r.off.toNat data
      let c := s.wholeStatus idx sub v
      (c, [], fun s => if c = 0 then (s.unstage via idx sub).applyDomain idx sub v iso e else s.unstage via idx sub)) s

/-! ### Saved and factory values (R473, R474, R482) -/

/-- Retention class of an entry by its key. -/
def keepsOf (key : Nat) : Option Keeps := (odRow (key / 256) (key % 256)).map (·.keeps)

def isKept (k : Keeps) (key : Nat) : Bool := keepsOf key = some k

/-- 01h of OD 1050h: every class S entry is saved as it is now. -/
def State.saveAll (s : State) : State :=
  { s with saved := s.dict.filter fun e => isKept .s e.1, savedDoms := s.doms.filter fun e => isKept .s e.1 }

def execSaveConfiguration (via : Via) (s : State) : Host.Outcome State Fault Refusal :=
  command via 0x1050 0 [1] (fun _ => (0, fun s => (s.setReg 0x1050 0 0).saveAll)) s

/-- Numeric entries `src` written over a dictionary. -/
def putAll (m src : Sparse W64) : Sparse W64 := src.foldl (fun m e => dictPut (BitVec.ofNat 64 (odDflt (e.1 / 256) (e.1 % 256))) m e.1 e.2) m
def putDoms (m src : List (Nat × List Byte)) : List (Nat × List Byte) := src.foldl (fun m e => domPut m e.1 e.2) m

/-- Class S entries take their saved values. -/
def State.loadSaved (s : State) : State :=
  { s with
    dict := putAll (s.dict.filter fun e => !isKept .s e.1) s.saved
    doms := putDoms (s.doms.filter fun e => !isKept .s e.1) s.savedDoms }

/-- Sessions on a management port end with its link (R523). -/
def State.closeSessions (s : State) (ok : SessTransport → Bool) : State :=
  s.modStw fun x =>
    let gone (n : Fin 8) : Bool := match vget x.sessions n with
      | some y => ok y.via
      | none => false
    { x with
      sessions := Vector.ofFn fun n => if gone n then none else vget x.sessions n
      spdm := x.spdm.filter fun y => match y.via with
        | .session n => !gone n
        | .doe _ => true }

/-- What entries mean in the device follows their return to saved values: clock settings, port enables, the role in the time tree, mirror reserves, management modes. -/
def State.followSaved (old s : State) : State :=
  let s := (List.finRange 4).foldl (fun s p => if s.reg 0x4100 (p.val + 1) = old.reg 0x4100 (p.val + 1) then s else s.retarget p) s
  let s := (List.finRange 28).foldl (fun s q => if s.reg 0x5000 (q.val + 1) = 0 && old.reg 0x5000 (q.val + 1) ≠ 0 then s.stopPort q else s) s
  let s := if s.reg 0x5400 0 = old.reg 0x5400 0 then s else s.roleChanged
  let s := (List.finRange 4).foldl (fun s p => if s.reg 0x6177 (p.val + 1) = old.reg 0x6177 (p.val + 1) then s else s.reserveChanged p (old.reg 0x6177 (p.val + 1))) s
  (List.finRange 2).foldl (fun s m =>
    if s.reg 0x1130 (m.val + 1) = old.reg 0x1130 (m.val + 1) then s
    else (s.setReg 0x1132 (m.val + 1) 0).closeSessions fun t => t = .mgmt m) s

/-- 02h of OD 1050h: unsaved changes of class S entries are gone; the plan that comes back may differ from the set-up in force (R454). -/
def execDiscardUnsaved (via : Via) (s : State) : Host.Outcome State Fault Refusal :=
  command via 0x1050 0 [2] (fun _ => (0, fun s => State.followSaved s (s.setReg 0x1050 0 0).loadSaved.planDiffers)) s

/-- OD 3F00h: every user calibration entry is zero, and saved so. -/
def execRestoreFactory (via : Via) (s : State) : Host.Outcome State Fault Refusal :=
  command via 0x3F00 0 [1] (fun _ => (0, fun s =>
    let s := s.setReg 0x3F00 0 0
    { s with dict := s.dict.filter fun e => !isKept .u e.1, doms := s.doms.filter fun e => !isKept .u e.1 })) s

/-- A station retired in service takes its factory state, and is due a rotation pass before it serves (R402), and leaves no vacancy (R30); its row map is that of the factory. -/
def State.factoryStation (s : State) (st : St) : State :=
  let sub := st.val + 1
  let s := if s.stationState st = 3 then (s.saveReg 0x8000 sub (odDflt 0x8000 sub)).modHealth st fun h => { h with due := true, vacant := false } else s
  s.saveReg 0x8010 sub (s.reg 0x8011 sub)

/-- OD 8F00h (R474): refused while any job is loaded. -/
def execRestoreFactoryRepairMaps (via : Via) (s : State) : Host.Outcome State Fault Refusal :=
  command via 0x8F00 0 [1] (fun s =>
    if s.anyLoaded then refused 0x8F00 0
    else (0, fun s => (List.finRange 18).foldl State.factoryStation (s.setReg 0x8F00 0 0))) s

/-! ### Management sessions (R468, R469, R523) -/

/-- The first binding of a key (OD 1101h). -/
def State.binding (s : State) (key : BitVec 384) : Option Role :=
  let es := words 64 16 (fit 0 1024 (s.dom 0x1101 0))
  (es.find? fun e => bits e 511 128 ≠ 0 && bits e 511 128 = key.toNat).bind fun e => match bits e 7 0 with
    | 0 => some .operator
    | 1 => some (.partition 0)
    | 2 => some (.partition 1)
    | 3 => some (.partition 2)
    | 4 => some (.partition 3)
    | 5 => some .observer
    | _ => none

/-- Role of a client certificate (R469). Without an anchor in OD 1100h no chain verifies to one. -/
def State.certRole (s : State) (c : ClientCert) : Option Role :=
  match if c.anchored && (List.range 4).any (fun i => s.dom 0x1100 (i + 1) ≠ []) then s.binding c.key else none with
  | some r => some r
  | none => if c.alias_ then some .peer else none

/-- The transport can carry a session: a management link that is up, also in recovery, where the device authenticates itself under its device certificate by the device key (R450, R466); or the
tunnel. -/
def State.carries (s : State) : SessTransport → Bool
  | .mgmt m => (s.stewardUp || (s.reg 0x1030 0 = 4 && s.stw.devKey.isSome)) && bit (s.reg 0x1132 (m.val + 1)) 0
  | .tunnel _ => s.stewardUp

/-- A DTLS handshake: a session with its role, or a refusal. -/
def execManagementSessionHandshake (t : SessTransport) (c : ClientCert) (s : State) : Host.Outcome State Fault Refusal :=
  if !s.carries t then noEvent s
  else match s.certRole c, (List.finRange 8).find? fun n => (vget s.stw.sessions n).isNone with
    | some r, some n => next (s.modStw fun x => { x with sessions := vset x.sessions n (some ⟨t, r, s.time, [], []⟩) })
    | _, _ => noEvent s

/-- A session ends, with its staging copies and SPDM sessions. -/
def State.closeSession (s : State) (n : Fin 8) : State :=
  s.modStw fun x => { x with sessions := vset x.sessions n none, spdm := x.spdm.filter fun y => y.via ≠ .session n }

def execSessionIdleTimeout (n : Fin 8) (s : State) : Host.Outcome State Fault Refusal :=
  match vget s.stw.sessions n with
  | some x => if s.passed x.seen 60000000000 then next (s.closeSession n) else noEvent s
  | none => noEvent s

def execManagementSessionClose (n : Fin 8) (s : State) : Host.Outcome State Fault Refusal :=
  if (vget s.stw.sessions n).isSome then next (s.closeSession n) else noEvent s

/-- OD 1130h (R523): a change of mode restarts the link and ends the sessions of the port. -/
def execManagementModeWrite (via : Via) (m : Fin 2) (v : Byte) (s : State) : Host.Outcome State Fault Refusal :=
  command via 0x1130 (m.val + 1) [v] (fun _ =>
    if 1 < v.toNat then (3, id)
    else (0, fun s =>
      if s.reg 0x1130 (m.val + 1) = v.toNat then s
      else ((s.setReg 0x1130 (m.val + 1) v.toNat).setReg 0x1132 (m.val + 1) 0).closeSessions fun t => t = .mgmt m)) s

/-- The link of MGA or MGB comes up, at the rate of its mode. -/
def execManagementLinkUp (m : Fin 2) (tenG : Bool) (s : State) : Host.Outcome State Fault Refusal :=
  if s.pwr.off || s.pwr.stwHeld || tenG ≠ decide (s.reg 0x1130 (m.val + 1) = 0) then noEvent s
  else next (s.setReg 0x1132 (m.val + 1) (1 + (if tenG then 2 else 0)))

/-- The link is lost; sessions idle out (R468). -/
def execManagementLinkDown (m : Fin 2) (s : State) : Host.Outcome State Fault Refusal :=
  if s.pwr.off then noEvent s else next (s.setReg 0x1132 (m.val + 1) 0)

/-! ### SPDM (R466, R467) -/

/-- SPDM is answered on this path: a function's DOE while the PCIe link is up, or an open management session. -/
def State.spdmPath (s : State) : SpdmVia → Bool
  | .doe _ => s.stewardUp && !s.perst && s.reg 0x1200 0 ≠ 0
  | .session n => s.stewardUp && (vget s.stw.sessions n).isSome

/-- Codes of SPDM responses: those of the SPDM standard, which the spec does not restate. -/
def spdmDigests : Byte := 0x01
def spdmCertificate : Byte := 0x02
def spdmChallengeAuth : Byte := 0x03
def spdmVersion : Byte := 0x04
def spdmMeasurements : Byte := 0x60
def spdmCapabilities : Byte := 0x61
def spdmAlgorithms : Byte := 0x63
def spdmKeyExchangeRsp : Byte := 0x64
def spdmFinishRsp : Byte := 0x65
def spdmHeartbeatAck : Byte := 0x68
def spdmKeyUpdateAck : Byte := 0x69
def spdmEndSessionAck : Byte := 0x6C
def spdmError : Byte := 0x7F

/-- An answer on a path. -/
def spdmAnswer (via : SpdmVia) (act : State → Byte × List Byte × (State → State)) (s : State) : Host.Outcome State Fault Refusal :=
  if !s.spdmPath via then noEvent s
  else
    let a := act s
    let s := match via with
      | .session n => s.modSess n fun x => { x with seen := s.time }
      | .doe _ => s
    next ((a.2.2 s).emit (.spdm via a.1 a.2.1))

/-- Versions 1.2 and 1.3. -/
def execGetVersion (via : SpdmVia) (s : State) : Host.Outcome State Fault Refusal :=
  spdmAnswer via (fun _ => (spdmVersion, [0x12, 0x13], id)) s

/-- Capabilities: the requests and features that Table 15-8 lists; which bits say so is the standard's. -/
def execGetCapabilities (via : SpdmVia) (s : State) : Host.Outcome State Fault Refusal :=
  spdmAnswer via (fun _ => (spdmCapabilities, [], id)) s

/-- The one set of algorithms of Table 15-8. -/
def execNegotiateAlgorithms (via : SpdmVia) (s : State) : Host.Outcome State Fault Refusal :=
  spdmAnswer via (fun _ => (spdmAlgorithms, [], id)) s

/-- The digest of slot 0. -/
def execGetDigests (via : SpdmVia) (s : State) : Host.Outcome State Fault Refusal :=
  spdmAnswer via (fun s => (spdmDigests, measure s.chain, id)) s

/-- A part of slot 0's chain; slots 1 to 7 are not supported. -/
def execGetCertificate (via : SpdmVia) (slot : Byte) (off len : Nat) (s : State) : Host.Outcome State Fault Refusal :=
  spdmAnswer via (fun s => if slot ≠ 0 || s.chain.length < off then (spdmError, [], id) else (spdmCertificate, (s.chain.drop off).take len, id)) s

/-- A challenge is signed by the runtime alias key over the requester's nonce and the chain. -/
def execChallenge (via : SpdmVia) (nonce : BitVec 256) (s : State) : Host.Outcome State Fault Refusal :=
  spdmAnswer via (fun s => (spdmChallengeAuth, measure s.chain ++ s.signed (leBytes 32 nonce.toNat ++ measure s.chain), id)) s

/-- Measurement blocks by index: 0 asks for their number, FFh for all (Table 15-9). -/
def execGetMeasurements (via : SpdmVia) (index : Byte) (signed : Bool) (nonce : BitVec 256) (s : State) : Host.Outcome State Fault Refusal :=
  spdmAnswer via (fun s =>
    if 7 < index.toNat && index ≠ 0xFF then (spdmError, [], id)
    else
      let body := if index = 0 then [7] else if index = 0xFF then (List.range 7).flatMap fun i => s.measurement (i + 1) else s.measurement index.toNat
      (spdmMeasurements, body ++ (if signed then s.signed (leBytes 32 nonce.toNat ++ body) else []), id)) s

/-- KEY_EXCHANGE begins a secured session of the path. -/
def execKeyExchange (via : SpdmVia) (s : State) : Host.Outcome State Fault Refusal :=
  spdmAnswer via (fun s => (spdmKeyExchangeRsp, s.signed s.chain, fun s =>
    s.modStw fun x => { x with spdm := (x.spdm.filter fun y => y.via ≠ via) ++ [⟨via, false, 0⟩] })) s

/-- The secured session of a path. -/
def State.secured? (s : State) (via : SpdmVia) (open_ : Bool) : Bool := s.stw.spdm.any fun y => y.via = via && y.open_ = open_

/-- FINISH completes it; one that does not verify ends it. -/
def execFinish (via : SpdmVia) (ok : Bool) (s : State) : Host.Outcome State Fault Refusal :=
  spdmAnswer via (fun s =>
    if !s.secured? via false then (spdmError, [], id)
    else if !ok then (spdmError, [], fun s => s.modStw fun x => { x with spdm := x.spdm.filter fun y => y.via ≠ via })
    else (spdmFinishRsp, [], fun s => s.modStw fun x => { x with spdm := x.spdm.map fun y => if y.via = via then { y with open_ := true } else y })) s

def execHeartbeat (via : SpdmVia) (s : State) : Host.Outcome State Fault Refusal :=
  spdmAnswer via (fun s => if s.secured? via true then (spdmHeartbeatAck, [], id) else (spdmError, [], id)) s

def execKeyUpdate (via : SpdmVia) (s : State) : Host.Outcome State Fault Refusal :=
  spdmAnswer via (fun s =>
    if !s.secured? via true then (spdmError, [], id)
    else (spdmKeyUpdateAck, [], fun s => s.modStw fun x => { x with spdm := x.spdm.map fun y => if y.via = via then { y with keys := y.keys + 1 } else y })) s

def execEndSession (via : SpdmVia) (s : State) : Host.Outcome State Fault Refusal :=
  spdmAnswer via (fun s =>
    if !s.secured? via true then (spdmError, [], id)
    else (spdmEndSessionAck, [], fun s => s.modStw fun x => { x with spdm := x.spdm.filter fun y => y.via ≠ via })) s

end Sys2Proof.Machine
end

