-- ==== Sys2Proof/Machine/Rails.lean ====
section
/-!
DEFINITION. Rails and their order (R497, R503, R504, R537 to R539), the crossings of the die (Table 01-3, Table 10-3), what the sideband shows (R524), the loss of the host
port (R520), and what the compute die loses without power (R497 to R499).
-/
namespace Sys2Proof.Machine

/-! ### Crossings (R289, R293, Table 01-3) -/

/-- A crossing lies within a half: no end of it is in the other one. -/
def withinHalf (h : Half) (c : Nat × Nat) : Bool :=
  let side (i : Nat) : Bool := if i = 73 then h = .west else match islandHalf i with
    | some x => x = h
    | none => true
  side c.1 && side c.2

/-- Crossings that a park and an unpark of halves reset (Table 10-3). -/
def parkCrossings (halves : List Half) : List (Nat × Nat) :=
  seamCrossings ++ allCrossings.filter fun c => halves.any fun h => withinHalf h c

/-! ### What the sideband shows (R524, Table 17-5) -/

/-- SMBus command 02h. -/
def State.statusByte (s : State) : Nat :=
  let t := s.reg 0x4201 0
  b2n (bit t 0 || bit t 1) + b2n (bit t 3) * 2 + b2n (bit t 4) * 4 + b2n (s.reg 0x1030 0 = 3) * 8 + b2n (s.reg 0x4030 0 = 8) * 16

/-- SMB_ALERT_N is asserted when command 00h or 02h has changed. -/
def State.alertFrom (old s : State) : State :=
  if old.reg 0x4030 0 = s.reg 0x4030 0 && old.statusByte = s.statusByte then s else s.modPwr fun x => { x with alert := true }

def State.setInsertion (s : State) (v : Nat) : State := State.alertFrom s (s.setReg 0x4030 0 v)

/-- OD 1030h changes; a steward that runs notifies it (R481). -/
def State.setSteward (s : State) (v : Nat) : State :=
  let s' := State.alertFrom s (s.setReg 0x1030 0 v)
  if v = 2 || v = 3 then s'.notify 0x1030 0 [BitVec.ofNat 8 v] else s'

/-- A bit of OD 4201h. -/
def State.setThermal (s : State) (i : Nat) (on : Bool) : State :=
  let v := s.reg 0x4201 0
  State.alertFrom s (s.setReg 0x4201 0 (v - b2n (bit v i) * 2 ^ i + b2n on * 2 ^ i))

/-- OD 4020h: the state, and whether a transition runs. -/
def State.showPower (s : State) (v : Nat) (running : Bool) : State := s.setReg 0x4020 0 (v + b2n running * 128)

def State.powerState (s : State) : Nat := s.reg 0x4020 0 % 8

/-! ### The host port is lost (R520) -/

/-- A reset of an image aperture aborts the shared-store epoch and ends a shared-store restore (R437, R520). -/
def State.resetAperture (s : State) (p : Part) : State :=
  let s := s.abortWhere p fun i => i.tier = 2
  match (s.sec p).restore with
  | some r => if r.img.tier = 2 then s.restoreFail p else s
  | none => s

/-- A function after a reset; a request that is submitted is still carried out. -/
def HostFn.clear (x : HostFn) : HostFn := { HostFn.reset with orphans := x.orphans ++ (if x.busy then [x.req] else []) }

/-- The PCIe controller and every function's host side are reset, with the crossings of its domain (R277, R292, R520); the requests that wait are gone (assumption log 133). -/
def State.pcieReset (s : State) : State :=
  let s := State.resetCrossings { s with host := s.host.map HostFn.clear, hostHeld := [] } hostCrossings
  (List.finRange 4).foldl State.resetAperture (s.setReg 0x1200 0 0)

/-! ### Raising and lowering (R538, R539) -/

/-- The stages of R538; a rail that waits for another's power-good is a stage of its own. Rails are numbered as in Table 17-6, less 1. -/
def stages : List (List (Fin 14)) := [[3, 4], [5, 6, 7], [8, 9], [10], [11], [12], [13]]

def State.isEn (s : State) (r : Fin 14) : Bool := vget s.pwr.en r

def coreHalf (r : Fin 14) : Option Half := if r = 8 then some .west else if r = 9 then some .east else none

/-- An enable is asserted; a core regulator has been commanded to 0.75 V. -/
def State.raiseRail (s : State) (r : Fin 14) : State :=
  let s := s.modPwr fun x => { x with en := vset x.en r true }
  match coreHalf r with
  | some h => (s.modPwr fun x => { x with core := vmod x.core (halfNo h) fun c => { c with mv := 750, at_ := s.time, fails := 0 } }).emit (.vout h 750)
  | none => s

/-- The next stage starts. -/
def State.raiseNext (s : State) : State :=
  match s.pwr.up with
  | [] => s
  | g :: l => g.foldl State.raiseRail (s.modPwr fun x => { x with up := l, await := g })

/-- The stages that raise the rails of a list that are down. -/
def State.startRaise (s : State) (rails : List (Fin 14)) : State :=
  let l := (stages.map fun g => g.filter fun r => rails.contains r && !s.isEn r).filter (· ≠ [])
  (s.modPwr fun x => { x with up := l, await := [], down := [], decay := none }).raiseNext

/-- An enable is dropped, and its power-good with it. VDD_PCIE takes the host port along. -/
def State.dropRail (s : State) (r : Fin 14) : State :=
  let s := s.modPwr fun x => { x with en := vset x.en r false, pg := vset x.pg r false }
  if r = 3 then s.pcieReset else s

/-- The next enable of a lowering is dropped. -/
def State.lowerNext (s : State) : State :=
  match s.pwr.down with
  | [] => s
  | r :: l => (s.modPwr fun x => { x with down := l, decay := some r }).dropRail r

/-- Rails in the order in which they are lowered: the stages in reverse. -/
def lowerOrder : List (Fin 14) := [13, 12, 11, 10, 9, 8, 7, 6, 5]

/-- Rails that a park of halves lowers; DEEP-PARK lowers those of the links too (R539). -/
def parkRails (deep : Bool) (halves : List Half) : List (Fin 14) :=
  lowerOrder.filter fun r => (deep && (r = 11 || r = 10)) || (halves.contains .west && (r = 8 || r = 5)) || (halves.contains .east && (r = 9 || r = 6))

/-- Rails of stages 2 to 5. -/
def dieRails : List (Fin 14) := lowerOrder

def State.startLower (s : State) (rails : List (Fin 14)) : State :=
  (s.modPwr fun x => { x with up := [], await := [], down := rails.filter fun r => vget x.en r, decay := none }).lowerNext

/-! ### What the compute die and the towers lose (R487, R497 to R499) -/

/-- Bytes of towers, or of the stashes, zeroed with their poison gone. -/
def State.zeroTowers (s : State) : State := { s with mem := s.mem.filter fun e => 2 ^ 36 ≤ e.1, poison := [] }
def State.zeroStashes (s : State) : State := { s with mem := s.mem.filter fun e => e.1 < 2 ^ 36, stashPoison := [] }

/-- A tower after its base die has been reset: repairs stay. -/
def Tower.afterReset (x : Tower) : Tower :=
  { Tower.reset with sparesUsed := x.sparesUsed, bankMap := x.bankMap, gone := x.gone, retire := x.retire }

/-- What a partition keeps when the device's jobs are gone: the images that its tiers hold, the clean-required flag and, as a holder, its mirror slots. -/
def Secure.afterReset (x : Secure) (mirrors : Bool) : Secure :=
  { Secure.reset with
    images := x.images.filter fun i => i.complete, cleanReq := x.cleanReq, breach := x.breach
    mirror := if mirrors then x.mirror else [], mirrorNext := if mirrors then x.mirrorNext else 0 }

/-- Memory of faults, and of a vacancy that the next job restart still owes a spare, outlives the die (R30, R408, R416). -/
def Health.afterReset (x : Health) : Health := { Health.reset with faults := x.faults, isolate := x.isolate, lastEvent := x.lastEvent, vacant := x.vacant }

/-- Every port is DOWN with nothing in it; one that is retired stays so. A follower has no parent left (R377). -/
def State.portsDown (s : State) : State :=
  ((List.finRange 28).foldl (fun s q =>
    let v := s.portState q
    let s := s.modPort q fun _ => Port.reset
    if v = stDown || v = stRetired then s else s.setPortState q stDown) s).checkParent

/-- The compute die and the tower base dies lose everything that runs in them; tower contents stay. -/
def State.resetDie (s : State) : State :=
  let s := s.portsDown
  let s := { s with
    stations := Vector.replicate 18 Station.reset, mordants := [], fetches := [], writes := [], morOps := [], descs := [], xfers := [], hostHeld := []
    towers := s.towers.map Tower.afterReset, route := Vector.replicate 4 ⟨Vector.replicate 4 []⟩, fab := ⟨[], [], [], []⟩
    clk := { s.clk with
      stretch := Vector.replicate 73 0, pend := Vector.replicate 4 none, fenced := [], items := [], recal := [], stashBad := Vector.replicate 2 false
      meshBad := false, mesh := [], late := [] }
    pwr := { s.pwr with dieUp := false, stopped := Vector.replicate 2 false, raiseTo := Vector.replicate 4 none } }
  let s := (List.range 18).foldl (fun s i => s.setReg 0x4101 (i + 1) 0) s
  s.zeroStashes

/-- Statistics of the compute die and the towers take their defaults (Table 16-5); the time domain's and the host port's stay. -/
def State.dropStatistics (s : State) : State :=
  { s with dict := s.dict.filter fun e => e.1 / 256 < 0x9000 || e.1 / 256 = 0x9063 || e.1 / 256 = 0x90A0 || e.1 / 256 = 0x90A1 }

/-- The epochs in progress are gone with the die. -/
def State.forgetEpochs (s : State) : State :=
  (List.finRange 4).foldl (fun s p => State.noteEpoch s p (s.modSec p fun x => { x with epoch := none, commit := false, late := [] })) s

/-- Power is gone from the compute die and the towers: the device is in STEWARD-ONLY. Jobs that are loaded stay so until they are unloaded. -/
def State.enterStewardOnly (s : State) (rails : List (Fin 14)) : State :=
  let s := s.beatEnd.modPwr fun x => { x with up := [], await := [], down := [], decay := none, trans := none, parking := Vector.replicate 2 true }
  let s := (rails.filter s.isEn).foldl State.dropRail s
  ((s.resetDie.zeroTowers.forgetEpochs).dropStatistics).showPower 4 false

end Sys2Proof.Machine
end

