-- ==== Sys2Proof/Machine/Boot.lean ====
section
/-!
DEFINITION. The steward's boot and restart (R405, R407, R449 to R458) and its firmware (R459 to R463).
-/
namespace Sys2Proof.Machine

/-! ### Slots (R450, R459, R460, R462) -/

/-- Boot code 1, runtime 2 (Table 15-5). -/
def kindCode : FwKind → Nat
  | .bootcode => 1
  | .runtime => 2

def kindNo : FwKind → Fin 2
  | .bootcode => 0
  | .runtime => 1

/-- Slots A and B of a kind. -/
def slotsOf : FwKind → Fin 4 × Fin 4
  | .bootcode => (0, 1)
  | .runtime => (2, 3)

def State.slotState (s : State) (i : Fin 4) : Nat := (vget s.stw.slot i).toNat
def State.setSlot (s : State) (i : Fin 4) (v : Byte) : State := s.modStw fun x => { x with slot := vset x.slot i v }

/-- REL and SVN of an image. -/
def State.imageRel (s : State) (i : Fin 4) : Bool := bit (fwHeader (vget s.stw.fw i)) 11
def State.imageSvn (s : State) (i : Fin 4) : Nat := bits (fwHeader (vget s.stw.fw i)) 95 80

/-- Bytes that a slot holds (Table 15-2). -/
def slotSize : FwKind → Nat
  | .bootcode => 262144
  | .runtime => 3145728

/-- The conditions of R450 and R460; `sig` says whether the signature verifies. -/
def State.acceptable (s : State) (k : FwKind) (i : Fin 4) (sig : Bool) : Bool :=
  let h := fwHeader (vget s.stw.fw i)
  sig && bits h 7 0 = kindCode k && s.reg 0x1F03 0 ≤ s.imageSvn i && bit h (16 + s.reg 0x1002 0) && (s.imageRel i || bit (s.reg 0x2200 0) 1) &&
  (fwBytes (vget s.stw.fw i)).length ≤ slotSize k

/-- Slots in the order in which they are tried: A before B, but an activated one first (Table 15-6); empty and failed slots are not tried. -/
def State.tryOrder (s : State) (k : FwKind) : List (Fin 4) :=
  let ab := slotsOf k
  let l := if s.slotState ab.2 = 3 then [ab.2, ab.1] else [ab.1, ab.2]
  l.filter fun i => s.slotState i ≠ 0 && s.slotState i ≠ 4

/-- The first slot that is accepted becomes active; those refused before it are marked failed. -/
def State.pickSlot (k : FwKind) (sigs : Vector Bool 4) : List (Fin 4) → State → Option State
  | [], _ => none
  | i :: l, s => if s.acceptable k i (vget sigs i) then some (s.setSlot i 3) else State.pickSlot k sigs l (s.setSlot i 4)

/-- The first CDI: HMAC-SHA-384 over the device-secret derivative and the boot code's measurement (R464). -/
def State.bootCdi (s : State) : List Byte := Config.hmac384 s.stw.otpSecret (s.measurement 2)

/-- Step 2: the boot ROM derives the device key from the unique device secret, and locks the secret (R449, R464). -/
def State.deriveDevice (s : State) : State :=
  if s.stw.secretLocked then s else s.modStw fun x => { x with devKey := some (Config.keyPair x.otpSecret), secretLocked := true }

/-- Keys of the boot alias and the runtime alias, as the images that run give them (R464). The second CDI goes over the first one: PRESUMED, from TCG DICE (assumption log 15). -/
def State.deriveAliases (s : State) : State :=
  let c := s.bootCdi
  let m := s.measurement 3
  s.modStw fun x => { x with bootKey := some (Config.keyPair c), runKey := some (Config.keyPair (Config.hmac384 c m)) }

/-- The alias keys and certificates of this boot, as the slots that run give them (R464, R465), and OD 1F04h (R450). The device key certifies the boot alias, and that the runtime alias. -/
def State.showRunning (s : State) : State :=
  let b := s.activeSlot .bootcode
  let r := s.activeSlot .runtime
  let s := s.deriveAliases
  let cert (k : Option (List Byte)) (key m : List Byte) : List Byte := (Config.sign (k.getD []) (key ++ m)).take 2048
  let s := (s.setDom 0x1010 3 (cert s.stw.devKey (s.stw.bootKey.getD []) (s.measurement 2))).setDom 0x1010 4 (cert s.stw.bootKey (s.stw.runKey.getD []) (s.measurement 3))
  s.setReg 0x1F04 0 (b2n (s.imageRel b && s.imageRel r))

/-! ### Boot (R407, R449 to R454, R458, R527) -/

/-- Every loaded job ends without a record and is gone (R458, R487). -/
def State.endAllJobs (s : State) : State :=
  (List.finRange 4).foldl (fun s p =>
    let s := if jobLive (s.prt p) then s.endByCommand p else s
    if s.loaded p then s.unload p else s) s

/-- The die is held in reset: no job, every port stopped. The next boot finds it so and seals the set-up afresh (R451). -/
def State.holdDie (s : State) : State :=
  let s := s.endAllJobs.forgetEpochs.resetDie
  (s.modStw fun x => { x with fresh := true }).modPwr fun x => { x with trans := none }

/-- Recovery (R450). -/
def State.recover (s : State) : State := s.holdDie.setSteward 4

/-- A factory or protection entry with a double-bit error fails the boot (R407). -/
def bootEntry (key : Nat) : Bool := isKept .f key || isKept .p key || key = odKey 0x6010 0

/-- A target that answers as R527 asks. -/
def NandTarget.usable (t : NandTarget) : Bool := t.signature && t.crc && t.onfi5 && t.page = 16384 && 1536 ≤ t.spare

/-- The controller resets each chip enable and reads its ID and parameter page (R527). -/
def State.probeNand (s : State) : State :=
  (List.range 32).foldl (fun s n => [FlashCmd.reset, .readId, .readParameterPage].foldl (fun s c => s.emit (.flash (n / 4) (n % 4) c)) s) s

/-- OD 1211h: the pSLC MiB of the targets used, and their number. -/
def nandFound (l : List NandTarget) : Nat := (l.map fun t => t.mib.toNat).sum % 2 ^ 32 * 2 ^ 32 + l.length * 2 ^ 16

/-- What the NAND discovery shows (R510, R526, R527). Without a target, with two that differ in geometry, or with no prefix set, the Sepia tier is absent. -/
def State.findNand (s : State) (b : BootResult) : State :=
  let good := b.nand.filter NandTarget.usable
  let used := good.filter fun t => some t.geometry = good.head?.map (·.geometry)
  let there := bit (s.reg 0x1210 0) 15 && used ≠ [] && used.length = good.length
  let s := s.probeNand.modStw fun x => { x with nandTargets := used.map fun t => 4 * t.ch.val + t.ce.val, nandPrefix := BitVec.ofNat 8 (s.reg 0x1210 0) }
  let old := s.reg 0x617C 0
  let v := if !there then 2 else if old / 2 ^ 24 = 1 then 1 else 0
  let s := ((s.setReg 0x1211 0 (nandFound used)).saveReg 0x617C 0 (v * 2 ^ 24 + old % 2 ^ 24)).setReg 0x617E 0 (if there then b.rate.toNat else 0)
  let s := if v = 0 then s else s.abortTier fun _ i => i.tier = 1
  let s := s.modStw fun x => { x with nandSpare := b.spares, nandBlocks := b.blocks }
  if v ≠ 0 then s
  else b.images.foldl (fun s (p, i) =>
    if i.device.toNat = s.reg 0x1020 0 && i.complete && i.tier = 1 && !(s.sec p).images.contains i then s.modSec p fun x => { x with images := x.images ++ [i] } else s) s

/-- Towers keep their contents through a warm reset only under the same set-up (Table 16-6). -/
def State.sealFresh (s : State) : State :=
  let old := s.stw.sealed
  let s := s.sealPlan.planDiffers
  let s := if old = s.stw.sealed then s else s.zeroTowers
  s.saveReg 0x4004 0 s.pwr.cause

/-- Firmware that the unit's list does not hold now runs: the guarantee of every loaded job is broken (R387). -/
def State.firmwareBreach (old s : State) : State :=
  if old.reg 0x1F04 0 = 1 && s.reg 0x1F04 0 = 0 then
    (List.finRange 4).foldl (fun s p => if s.loaded p then s.raise (some p) 0x0D 0x0D01 (siteSteward noLoc2) else s) s
  else s

/-- Steps 1 to 5 of Table 15-3. -/
def State.bootSteps (b : BootResult) (s : State) : State :=
  if !b.selfTest then (s.holdDie.modStw fun x => { x with romHold := true }).setSteward 0
  else
    let s := State.deriveDevice (s.modStw fun x => { x with romHold := false, sigs := b.sigs.map some })
    match State.pickSlot .bootcode b.sigs (s.tryOrder .bootcode) s with
    | none => s.recover
    | some s1 =>
      if !b.factory || b.bad.any bootEntry then s1.recover
      else match State.pickSlot .runtime b.sigs (s1.tryOrder .runtime) s1 with
        | none => s1.recover
        | some s =>
          let s := s.modStw fun x => { x with poisoned := b.bad, badRecs := b.badRecs.map fun e => (e.1.val, fit 0 32 e.2) }
          let s := if s.stw.fresh then s.sealFresh else s.verifySeal
          let s := s.findNand b
          ((State.firmwareBreach s s.showRunning).modStw fun x => { x with runAt := s.time }).setSteward 1

/-! ### Restart (R455 to R457) -/

/-- The mailbox hardware answers the request that it holds with status 09h (R479). -/
def State.answerRestart (s : State) (f : Pf) : State :=
  let s := s.modFn f fun x => { x with orphans := [] }
  if !(s.fn f).busy then s
  else
    let q := parseRequest (s.fn f).req
    let b := message q.1.kind.toNat 0x80 9 q.2.1.toNat q.1.index.toNat q.1.sub.toNat q.1.off.toNat []
    ((s.emit (.response (.pf f) b)).modFn f fun x => { x with resp := b, done := true, busy := false }).vector f 0

/-- A port that is not UP is held in DOWN (R457). -/
def State.holdPort (s : State) (q : PortId) : State :=
  let v := s.portState q
  if v = stUp || v = stHeld || v = stRetired || v = stDown then s else s.portDown q

/-- The management cores restart: requests are answered, sessions and staging copies are lost, and the boot begins anew. -/
def State.restartSteward (s : State) : State :=
  let s := (List.finRange 5).foldl State.answerRestart s
  let s := (List.finRange 28).foldl State.holdPort s
  (s.modStw fun x => { x with
    romHold := false, downAt := if s.stewardUp then s.time else x.downAt, sessions := Vector.replicate 8 none, staging := Vector.replicate 5 [], inbox := [], spdm := []
    secretLocked := false, devKey := none, bootKey := none, runKey := none }).setSteward 0

/-- The steward is there to be restarted. -/
def State.stewardOn (s : State) : Bool := !s.pwr.off && !s.pwr.stwHeld

/-- A write of OD 1031h. -/
def execStewardRestart (via : Via) (s : State) : Host.Outcome State Fault Refusal :=
  command via 0x1031 0 [1] (fun _ => (0, fun s => (s.setReg 0x1031 0 0).restartSteward)) s

/-- The hardware watchdog expires. -/
def execWatchdogExpiry (s : State) : Host.Outcome State Fault Refusal :=
  if s.stewardOn then next s.restartSteward else noEvent s

/-- The management cores disagree (R405): the steward restarts, a record that belongs to no job waits for its step 6, and every rotation pass starts afresh. -/
def execStewardLockstepMismatch (s : State) : Host.Outcome State Fault Refusal :=
  if !s.stewardOn then noEvent s
  else
    let s := s.restartSteward.raise none 3 0x0302 (siteSteward noLoc2)
    next { s with
      health := s.health.map fun h => { h with passed := [], passFrom := s.time }
      parts := s.parts.map fun x => { x with passFrom := s.time } }

/-! ### Firmware (R461 to R463) -/

/-- A segment for OD 1F01h: staged, and with COMMIT written into the inactive slot of its kind. -/
def execImageStagingWrite (via : Via) (kind : FwKind) (off : Nat) (data : List Byte) (commit : Bool) (s : State) : Host.Outcome State Fault Refusal :=
  let sub := kindCode kind
  let r : DictReq := { writeReq 0x1F01 sub data with commit := commit, off := BitVec.ofNat 32 off }
  if 1024 < data.length || 2 ^ 32 ≤ off then noEvent s
  else serve via r data (fun s role =>
    let c := s.segmentStatus role r data (slotSize kind)
    let v := overlay (s.staged via 0x1F01 sub 0) off data
    (c, [], if c ≠ 0 then id else fun s =>
      if !commit then s.stage via 0x1F01 sub v
      else
        let i := s.inactiveSlot kind
        ((s.unstage via 0x1F01 sub).modStw fun x => { x with fw := vset x.fw i (lsPutBytes [] 0 v), sigs := vset x.sigs i none }).setSlot i 1)) s

def kinds : List FwKind := [.bootcode, .runtime]

/-- 01h of OD 1F02h: every inactive slot that has been written is verified. -/
def execFirmwareVerify (via : Via) (bootSig runSig : Bool) (s : State) : Host.Outcome State Fault Refusal :=
  command via 0x1F02 0 [1] (fun s =>
    let l := kinds.filter fun k => s.slotState (s.inactiveSlot k) = 1
    let sig (k : FwKind) : Bool := match k with
      | .bootcode => bootSig
      | .runtime => runSig
    let ok (k : FwKind) : Bool := s.acceptable k (s.inactiveSlot k) (sig k)
    if l = [] then refused 0x1F02 0
    else (0, fun s =>
      (l.foldl (fun s k => (s.setSlot (s.inactiveSlot k) (if ok k then 2 else 4)).modStw fun x => { x with sigs := vset x.sigs (s.inactiveSlot k) (some (sig k)) }) s).setReg 0x1F02 0 (if l.all ok then 0 else 3))) s

/-- A restore runs in some partition. -/
def State.restoring (s : State) : Bool := (List.finRange 4).any fun p => (s.sec p).restore.isSome

/-- A slot becomes the active one of its kind; the one that was is remembered and counts as written. -/
def State.activate (k : FwKind) (i : Fin 4) (s : State) : State :=
  let old := s.activeSlot k
  let s := (s.setSlot old 1).setSlot i 3
  s.modStw fun x => { x with prev := vset x.prev (kindNo k) (if old = (slotsOf k).1 then 0 else 1) }

/-- 02h of OD 1F02h: every verified inactive slot is activated, and the steward restarts (R462). -/
def execFirmwareActivate (via : Via) (s : State) : Host.Outcome State Fault Refusal :=
  command via 0x1F02 0 [2] (fun s =>
    let l := kinds.filter fun k => s.slotState (s.inactiveSlot k) = 2
    if l = [] || s.restoring then refused 0x1F02 0
    else (0, fun s => ((l.foldl (fun s k => State.activate k (s.inactiveSlot k) s) s).setReg 0x1F02 0 0).restartSteward)) s

/-- 04h of OD 1F02h: the floor rises to the smaller SVN of the images that run (R463). -/
def execRaiseRollbackFloor (via : Via) (s : State) : Host.Outcome State Fault Refusal :=
  command via 0x1F02 0 [4] (fun s =>
    let v := min (s.imageSvn (s.activeSlot .bootcode)) (s.imageSvn (s.activeSlot .runtime))
    if v ≤ s.reg 0x1F03 0 then refused 0x1F02 0 else (0, fun s => (s.setReg 0x1F02 0 0).setReg 0x1F03 0 v)) s

/-- The previous slot of a kind, where it differs from the active one and holds an image that has not failed. -/
def State.prevSlot (s : State) (k : FwKind) : Option (Fin 4) :=
  let i := if vget s.stw.prev (kindNo k) = 0 then (slotsOf k).1 else (slotsOf k).2
  if i = s.activeSlot k || s.slotState i = 0 || s.slotState i = 4 then none else some i

/-- 05h of OD 1F02h: back to the previous images, in the same way (R462). -/
def execFirmwareRevert (via : Via) (s : State) : Host.Outcome State Fault Refusal :=
  command via 0x1F02 0 [5] (fun s =>
    let l := kinds.filter fun k => (s.prevSlot k).isSome
    if l = [] || s.restoring then refused 0x1F02 0
    else (0, fun s => ((l.foldl (fun s k => match s.prevSlot k with
      | some i => State.activate k i s
      | none => s) s).setReg 0x1F02 0 0).restartSteward)) s

/-- The runtime has not reached step 6 within 2 s (R462): its slot failed, and the previous one is booted where R450 accepts it; with none left the steward recovers. Whether the signature of an
image verifies that has been written and not yet looked at is a free value (assumption log 14). -/
def execRuntimeStartTimeout (s : State) : Host.Outcome State Fault Refusal :=
  if s.reg 0x1030 0 ≠ 1 || !s.stewardOn || !s.passed s.stw.runAt 2000000000 then noEvent s
  else
    let i := s.activeSlot .runtime
    let j := s.inactiveSlot .runtime
    let sig := (vget s.stw.sigs j).getD (bit (Config.freeWord s.draws).toNat 0)
    let s := State.setSlot { s with draws := s.draws + 1 } i 4
    if s.slotState j = 0 || s.slotState j = 4 then next s.recover
    else if !s.acceptable .runtime j sig then next (s.setSlot j 4).recover
    else next ((s.setSlot j 3).showRunning.modStw fun x => { x with runAt := s.time })

end Sys2Proof.Machine
end

