-- ==== Sys2Proof/Machine/Control.lean ====
section
/-!
DEFINITION. The control instructions (R253, R254), an unlisted opcode (R247), and the end of a station's program.
-/
namespace Sys2Proof.Machine

/-- A control instruction that only changes the sequencer. -/
def ctlStep (s : State) (st : St) (npc : Nat) (f : Seqr → Seqr) : Chk :=
  .ok (s.modSt st fun x => { x with sq := f x.sq }) npc

/-- A double-bit error poisons its word in place (R207, R217, R411). An element of a tile that is not open holds nothing; register k0 holds nothing (R218). -/
def Station.sramError (x : Station) : SramWord → Station
  | .none => x
  | .localStore w => { x with lsPoison := setAdd x.lsPoison (w % (lsSize / 8)) }
  | .tile i el => { x with tiles := vmod x.tiles i fun t => t.map fun t => { t with poison := setAdd t.poison el } }
  | .scalar r => if r = 0 then x else { x with sq := { x.sq with kPoison := setAdd x.sq.kPoison r.val } }

/-- CTL.NOP (R253). `bad` is a word of the station's SRAM in which the issue finds a double-bit error: it is poisoned there before the sequencer reads the instruction, so that one in the
instruction's own word is consumed and the instruction does not issue (R217). -/
def execCtlNop (st : St) (bad : SramWord) (s : State) : Host.Outcome State Fault Refusal :=
  issue 0x00 (fun s _ st e => ctlStep s st (e.pc + 1) id) (s.modSt st fun x => x.sramError bad) st

/-- CTL.LI (R253): k[KD] := IMM64. -/
def execCtlLi (st : St) (s : State) : Host.Outcome State Fault Refusal :=
  issue 0x01 (fun s _ st e => ctlStep s st (e.pc + 1) fun q =>
    { q with
      k := kw q.k (fld e.word 12 8) (BitVec.ofNat 64 (fld e.word 127 64))
      kPoison := setDel q.kPoison (fld e.word 12 8) }) s st

/-- CTL.ADD (R253): k[KD] := k[KA] + k[KB] + sext(IMM32) modulo 2^64. -/
def execCtlAdd (st : St) (s : State) : Host.Outcome State Fault Refusal :=
  issue 0x02 (fun s _ st e => ctlStep s st (e.pc + 1) fun q =>
    { q with
      k := kw q.k (fld e.word 12 8) (kr e.k (fld e.word 17 13) + kr e.k (fld e.word 22 18) + sext32 (fld e.word 63 32))
      kPoison := setDel q.kPoison (fld e.word 12 8) }) s st

/-- CTL.BR (R253): fault 01h for a target beyond the program region or the reserved condition, else the branch. -/
def execCtlBr (st : St) (s : State) : Host.Outcome State Fault Refusal :=
  issue 0x03 (fun s p st e =>
    if fld e.word 25 23 = 7 then .fault noLoc2
    else if (s.prt p).prog * 256 ≤ fld e.word 63 32 then .fault noLoc2
    else ctlStep s st
      (if brCond (fld e.word 25 23) (kr e.k (fld e.word 17 13)) (kr e.k (fld e.word 22 18)) then fld e.word 63 32 else e.pc + 1) id) s st

/-- CTL.BASE (R222, R253): base := base + IMM32, unsigned. -/
def execCtlBase (st : St) (s : State) : Host.Outcome State Fault Refusal :=
  issue 0x04 (fun s _ st e => ctlStep s st (e.pc + 1) fun q => { q with base := q.base + BitVec.ofNat 64 (fld e.word 63 32) }) s st

/-- CTL.END (R253): issue stops; the instruction waits to fire. -/
def execCtlEnd (st : St) (s : State) : Host.Outcome State Fault Refusal :=
  issue 0x05 (fun s _ st e => ctlStep s st (e.pc + 1) fun q => { q with endPending := some e.pc }) s st

/-- Every queue of the station is empty and all fired work is complete (R253). An engine instruction counts as complete once its descriptor stands in the engine's queue, whose work goes on:
DESIGN CHOICE, the rule does not say whether it waits for the descriptor's mordant add (assumption log 142). -/
def State.idleForEnd (s : State) (st : St) : Bool :=
  let x := s.stn st
  (allUnits.all fun u => (x.queue u).isEmpty) && x.ringOps.isEmpty && x.arr.flight.isEmpty && x.arr.mmas.isEmpty &&
  x.arr.load.isNone && x.arr.refeed.isEmpty && x.arr.slice.isNone && x.drain.isNone && x.vec.op.isNone && x.morReads.isEmpty &&
  (s.inFlight st = 0) && (s.xfers.all fun x => x.st ≠ st || 32 < x.vat) && (s.morOps.all fun m => m.st ≠ some st) && (s.descs.all fun d => d.st ≠ st) &&
  x.cw.outq.isEmpty && x.ccw.outq.isEmpty && x.cw.fwd.isEmpty && x.ccw.fwd.isEmpty && x.cw.held.isEmpty && x.ccw.held.isEmpty &&
  ((List.finRange 64).all fun i => match vget x.tiles i with
    | some t => t.mergeQ.isEmpty
    | none => true)

/-- The steward's report when every active station has reported done (R484). A job that a fault of the beat ends does not end normally (R18). -/
def State.reportDone (s : State) (p : Part) : State :=
  if s.stewardUp && !s.struck p && (s.prt p).jobState = 3 && ((s.prt p).pos.all fun st => (s.stn st).sq.done) && (s.prt p).pos ≠ [] then
    (s.modPart p fun x => { x with endTime := s.time }).setJobState p 5
  else s

/-- CTL.END fires (R253, R254): fault 01h with a vat or tile open, else the station reports done. -/
def execCtlEndFire (st : St) (s : State) : Host.Outcome State Fault Refusal :=
  let x := s.stn st
  match x.sq.endPending, s.jobAt st with
  | some pc, some p =>
    if !s.idleForEnd st then noEvent s
    else if (x.vats.toList.any Option.isSome) || (x.tiles.toList.any Option.isSome) then next (s.faultFire st noLoc2 pc)
    else
      let s := s.modSt st fun y => { y with sq := { y.sq with endPending := none, stopped := true, done := true } }
      next ((s.emit (.done st)).reportDone p)
  | _, _ => noEvent s

/-- An opcode that Table 09-1 does not list raises fault 01h at issue (R247). -/
def execUnlistedOpcode (st : St) (s : State) : Host.Outcome State Fault Refusal :=
  match s.issuing st with
  | none => noEvent s
  | some p =>
    let x := s.stn st
    let prog := (s.prt p).prog
    if prog * 256 ≤ x.sq.pc then next (s.faultIssue st noLoc2 x.sq.pc)
    else
      let iw := x.instrAt prog x.sq.pc
      if iw.2 then next (s.faultWord st)
      else if listedOpcodes.contains (opc iw.1) then noEvent s
      else next (s.faultIssue st noLoc2 x.sq.pc)

end Sys2Proof.Machine
end

