-- ==== Sys2Proof/Machine/Resets.lean ====
section
/-!
DEFINITION. The reset kinds of Table 16-1 (R487, R488, R498 to R500).
-/
namespace Sys2Proof.Machine

/-! ### Cold -/

/-- Dictionary entries of the classes that a reset keeps; class S entries take their saved values, every other entry its default (Table 16-4). -/
def State.keepClasses (s : State) (ok : Nat → Bool) : State :=
  let s := s.loadSaved
  { s with dict := s.dict.filter fun e => ok e.1, doms := s.doms.filter fun e => ok e.1 }

def keptCold (key : Nat) : Bool := isKept .f key || isKept .u key || isKept .s key

/-- A retired port shows so in OD 5001h, whatever is reset (R500). -/
def State.showRetired (s : State) : State :=
  (List.finRange 28).foldl (fun s q => if s.reg 0x8041 (q.val + 1) = 0 then s else s.setPortState q stRetired) s

/-- A tower of which only the repairs are left. -/
def Tower.afterCold (x : Tower) : Tower := { Tower.reset with sparesUsed := x.sparesUsed, bankMap := x.bankMap, gone := x.gone, retire := x.retire }

/-- A cold reset begins: the device is as `State.reset` has it, but for what non-volatile memory holds (R487, R498, R499). `held` says that the sled holds STW_RESET_N. -/
def State.coldStart (s : State) (cause : Nat) (held : Bool) : State :=
  let s := s.beatEnd
  let k := s.keepClasses keptCold
  let s' : State := { State.reset with
    parts := s.parts.map fun x => { Partition.reset with sec := x.sec.afterReset false }
    health := s.health.map Health.afterReset
    towers := s.towers.map Tower.afterCold
    dict := k.dict, saved := s.saved, doms := k.doms, savedDoms := s.savedDoms
    faults := s.faults, faultHold := s.faultHold, faultLost := s.faultLost, acked := s.acked, seqNext := s.seqNext
    perst := s.perst, draws := s.draws, out := s.out, pending := s.pending
    pwr := { Power.reset with stwHeld := held, cause := cause, testEn := s.pwr.testEn, jtag := s.pwr.jtag }
    stw := { Steward.reset with
      fw := s.stw.fw, slot := s.stw.slot, prev := s.stw.prev, nandErases := s.stw.nandErases
      otpRoot := s.stw.otpRoot, otpSecret := s.stw.otpSecret, factorySig := s.stw.factorySig } }
  s'.showRetired

/-- The steward rails rise from OFF; the sled holds STW_RESET_N low (R490, R537). -/
def execPowerOn (s : State) : Host.Outcome State Fault Refusal :=
  if s.pwr.off then next (s.coldStart 1 true) else noEvent s

/-- COLD_RST_N. -/
def execColdResetInput (s : State) : Host.Outcome State Fault Refusal :=
  if s.stewardOn then next (s.coldStart 2 false) else noEvent s

/-- 02h of OD 4000h. -/
def execColdReset (via : Via) (s : State) : Host.Outcome State Fault Refusal :=
  command via 0x4000 0 [2] (fun _ => (0, fun s => s.coldStart 3 false)) s

/-- A steward rail fails (R543): the device is in OFF, where nothing runs and the time counter stands. -/
def execStewardRailFailure (s : State) : Host.Outcome State Fault Refusal :=
  if s.pwr.off then noEvent s
  else
    let s' := State.coldStart { s with beat := [] } 1 true
    next { s' with
      time := s.time, faultHold := [], faultLost := s.faultLost || s.faultHold ≠ [] || s.beat ≠ []
      pwr := { s'.pwr with off := true, en := Vector.replicate 14 false, pg := Vector.replicate 14 false } }

/-! ### Warm -/

/-- Entries that show hardware which a warm reset leaves alone: the management links, the PCIe link, the SMBus address, the time source and its holdover oscillator, sensors, rails,
package power (R488, R500); statistics of the host port's time records are class C and go. -/
def warmShows (idx : Nat) : Bool := [0x1132, 0x1200, 0x1220, 0x4200, 0x4220, 0x4222, 0x4231, 0x4402, 0x4403].contains idx

def keptWarm (key : Nat) : Bool := keptCold key || isKept .p key || warmShows (key / 256)

/-- The power side of a warm reset: rails stay as they are, and every transition and removal is abandoned. -/
def Power.afterWarm (x : Power) : Power :=
  { Power.reset with
    stwHeld := false, testEn := x.testEn, cause := 4, en := x.en, pg := x.pg, trip := x.trip, alert := x.alert, core := x.core.map fun c => { c with at_ := 0, stepAt := none, warnAt := 0 }
    jtag := x.jtag }

/-- A warm reset (R487, R488): GOODBYE, every job ends, the compute die is reset, the counter is 0, and the steward restarts to seal the set-up anew. A thermal emergency stays
latched (R542). -/
def State.warmStart (old : State) : State :=
  let s := (List.finRange 28).foldl (fun s q => if s.portUp q then s.goodbye q else s) old
  let s := s.endAllJobs
  let dark : Bool := s.powerState = 4
  let s := s.forgetEpochs.resetDie
  let s := if dark then s.zeroTowers else s
  let s := s.keepClasses keptWarm
  let s := { s with
    time := 0, parts := s.parts.map fun (x : Partition) => { Partition.reset with sec := x.sec.afterReset (!dark) }
    health := s.health.map Health.afterReset, pwr := s.pwr.afterWarm
    clk := { s.clk with timeSet := none, frameMark := none, windowMark := none, goodX := 0, badX := 0, alt := false } }
  let s := (s.modStw fun x => { x with fresh := true, outbox := [], hourAt := 0, hourBad := false, seen := [], signals := [] }).showRetired
  let s := if bit (old.reg 0x4201 0) 3 then s.setReg 0x4201 0 8 else s
  State.alertFrom old s.restartSteward

/-- 01h of OD 4000h. A unit that is ready for removal leaves that state by a cold reset alone (R507). -/
def execWarmReset (via : Via) (s : State) : Host.Outcome State Fault Refusal :=
  command via 0x4000 0 [1] (fun s =>
    if s.reg 0x4030 0 = 8 then refused 0x4000 0 else (0, fun s => s.warmStart)) s

/-! ### Seam, partition, job and port -/

/-- A power transition runs (R491). -/
def State.inTransition (s : State) : Bool := bit (s.reg 0x4020 0) 7

/-- 03h of OD 4000h (R43, R488). -/
def execSeamReset (via : Via) (s : State) : Host.Outcome State Fault Refusal :=
  command via 0x4000 0 [3] (fun s =>
    if s.anyLoaded || s.inTransition then refused 0x4000 0
    else (0, fun s => (s.setReg 0x4000 0 0).resetCrossings seamCrossings)) s

/-- A job ends without a record if it has not ended, and is unloaded. -/
def State.clearJob (s : State) (p : Part) : State :=
  let s := if jobLive (s.prt p) then s.endByCommand p else s
  if s.loaded p then s.unload p else s.jobDefaults p

/-- A port is reset (R487): GOODBYE, then its logic and its crossings. -/
def State.resetPort (s : State) (q : PortId) : State :=
  let s := (s.goodbye q).modPort q fun _ => Port.reset
  s.resetCrossings (portCrossings q)

/-- The partition's descriptors in every engine and tower, and those on their way. -/
def State.clearQueues (s : State) (p : Part) : State :=
  { s with
    towers := s.towers.map fun t => { t with xq := vset t.xq p [], mq := vset t.mq p [] }
    route := s.route.map fun g => { g with q := vset g.q p [] }
    descs := s.descs.filter fun d => d.part ≠ p }

/-- OD 4001h: the partition's job, active stations, descriptor queues, mordants, stash windows and ports; its epochs run on (R187, R488). -/
def execPartitionReset (via : Via) (p : Part) (s : State) : Host.Outcome State Fault Refusal :=
  command via 0x4001 (p.val + 1) [1] (fun _ => (0, fun s =>
    let s := ((s.setReg 0x4001 (p.val + 1) 0).clearJob p).clearQueues p
    let s := (s.activeStations p).foldl (fun s st => s.modSt st fun _ => Station.reset) s
    let s := (s.clearMordants p).zeroStash p
    (s.portsOf p).foldl State.resetPort s)) s

/-- OD 4002h. -/
def execJobReset (via : Via) (p : Part) (s : State) : Host.Outcome State Fault Refusal :=
  command via 0x4002 (p.val + 1) [1] (fun _ => (0, fun s => ((s.setReg 0x4002 (p.val + 1) 0).clearJob p).zeroStash p)) s

/-- OD 4003h. -/
def execPortReset (via : Via) (port : PortId) (s : State) : Host.Outcome State Fault Refusal :=
  command via 0x4003 (port.val + 1) [1] (fun _ => (0, fun s => (s.setReg 0x4003 (port.val + 1) 0).resetPort port)) s

end Sys2Proof.Machine
end

