-- ==== Sys2Proof/Machine/Power.lean ====
section
/-!
DEFINITION. Power states and their transitions (R490 to R497), staged rails (R504, R538, R539), power emergencies (R543), insertion and removal (R504, R505, R507), and the
runtime firmware's part of a boot (R449, R455).
-/
namespace Sys2Proof.Machine

/-! ### Halves and transitions -/

def bothHalves : List Half := [.west, .east]

def State.parkedHalves (s : State) : List Half := bothHalves.filter s.parked
def State.liveHalves (s : State) : List Half := bothHalves.filter fun h => !s.parked h

def setHalves (v : Vector Bool 2) (l : List Half) (b : Bool) : Vector Bool 2 := l.foldl (fun v h => vset v (halfNo h) b) v

def State.setParking (s : State) (l : List Half) (b : Bool) : State := s.modPwr fun x => { x with parking := setHalves x.parking l b }
def State.setStopped (s : State) (l : List Half) (b : Bool) : State := s.modPwr fun x => { x with stopped := setHalves x.stopped l b }

/-- The clocks of halves stop; what ran on a station of them, a direct slice too, is over (R279, R492). -/
def State.stopClocks (s : State) (l : List Half) : State :=
  (List.finRange 18).foldl (fun s st => if l.contains (stationHalf st) then s.setReg 0x4101 (st.val + 1) 0 else s) (s.setStopped l true)

/-- The phase of the transition that runs. -/
def State.phase (s : State) : Option Phase := s.pwr.trans.map (·.phase)

def State.setPhase (s : State) (f : Phase) : State := s.modPwr fun x => { x with trans := x.trans.map fun t => { t with phase := f, since := s.time } }

/-- The phase of the transition has lasted `n` ns. -/
def State.phaseFor (s : State) (n : Nat) : Bool := match s.pwr.trans with
  | some t => s.passed t.since n
  | none => false

/-- A transition begins: OD 4020h bit 7 is set, and OD 4021h reads 02h. -/
def State.beginTrans (s : State) (target : Nat) (halves : List Half) (f : Phase) : State :=
  ((s.showPower s.powerState true).setReg 0x4021 0 2).modPwr fun x => { x with trans := some ⟨target, halves, f, s.time⟩ }

/-! ### Removal (R507) -/

/-- Sources of the partner images that the mirror reserves hold (R508). -/
def State.mirrorSources (s : State) : List W16 :=
  (List.finRange 4).filterMap fun p =>
    if (s.sec p).mirror.any Option.isSome then some (BitVec.ofNat 16 (bits (s.reg 0x6177 (p.val + 1)) 47 32)) else none

/-- Step 1 of a removal, with its notices; a port in AUTH tells its partner (R327), and the force bit ends and unloads every job. -/
def State.startRemoval (s : State) (force : Bool) : State :=
  let s := (s.modPwr fun x => { x with removal := some force, removalWaits := false }).setInsertion 5
  let s := if force then s.endAllJobs else s
  let s := (List.finRange 28).foldl (fun s q => if s.portState q = stAuth then s.stopPort q else s) s
  s.mirrorSources.foldl (fun s d => s.tunnelSend d .removal) s

/-- A removal that waited for a transition starts. -/
def State.afterTrans (s : State) : State :=
  match s.pwr.removal with
  | some f => if s.pwr.removalWaits then s.startRemoval f else s
  | none => s

/-- The last step of a removal: only the steward rails remain. -/
def State.removalReady (s : State) : State :=
  let s := ([4, 3].filter s.isEn).foldl State.dropRail s
  (s.setReg 0x4032 0 0).setInsertion 8

/-- A transition has reached its state; one that a thermal emergency forced leaves OD 4021h as it is (R491). -/
def State.doneTrans (s : State) (v : Nat) : State :=
  let s := (s.showPower v false).modPwr fun x => { x with trans := none }
  let s := if s.reg 0x4021 0 = 2 then s.setReg 0x4021 0 0 else s
  if v = 4 && s.reg 0x4030 0 = 7 then s.removalReady else s.afterTrans

/-- A transition is abandoned (R492): the aborts of R493 end, and OD 4021h reads 03h. -/
def State.abandonTrans (s : State) : State :=
  match s.pwr.trans with
  | some t =>
    let s := (s.setParking t.halves false).modPwr fun x => { x with trans := none }
    ((s.showPower s.powerState false).setReg 0x4021 0 3).admitItems.afterTrans
  | none => s

/-! ### Lowering (R497, R539) -/

/-- The rails that a state lowers are down. -/
def State.loweringDone (s : State) : State :=
  match s.pwr.trans with
  | some t => if t.target = 4 then (s.enterStewardOnly []).doneTrans 4 else s.doneTrans t.target
  | none => s

/-- Rails that a transition to a state lowers: those of the parked halves, and for STEWARD-ONLY the rest of the die's. -/
def State.railsFor (s : State) (target : Nat) : List (Fin 14) :=
  let l := parkRails (decide (3 ≤ target)) s.parkedHalves
  if target = 4 then l ++ dieRails.filter fun r => !l.contains r else l

/-- Steps 9 to 11 of R492: the halves' clocks stop, and the rails go down one by one. -/
def State.beginLowering (s : State) (target : Nat) (halves : List Half) : State :=
  let s := ((s.setParking halves true).stopClocks halves).setPhase .lowering
  let s := s.startLower (s.railsFor target)
  if s.pwr.down = [] then s.loweringDone else s

/-- A rail has decayed, and the next enable drops. -/
def execRailDecayed (r : Rail) (s : State) : Host.Outcome State Fault Refusal :=
  if s.pwr.decay ≠ some r || !s.stewardUp then noEvent s
  else
    let s := s.modPwr fun x => { x with decay := none }
    if s.pwr.down = [] then next s
    else
      let s := s.lowerNext
      if s.pwr.down = [] then next s.loweringDone else next s

/-! ### Raising and unparking (R494, R497, R538) -/

/-- The unpark step of R48: every sub-ring takes its full form but that of a job that was loaded during the park. -/
def State.unparkRings (s : State) : State :=
  (List.finRange 4).foldl (fun s p => if s.loaded p && (s.prt p).parkForm then s else s.reformRing p) s

/-- The park step of R48: every sub-ring that crosses the seam takes the form of the live half. -/
def State.parkRings (s : State) : State := (List.finRange 4).foldl (fun s p => if s.crossesSeam p then s.reformRing p else s) s

/-- An unpark completes: the halves run again with stations and stash zeroed, their crossings calibrate, and their stations owe a rotation pass (R494, R495, R499). -/
def State.unpark (s : State) (halves : List Half) : State :=
  let mine (st : St) : Bool := halves.contains (stationHalf st)
  let s := (((s.resetCrossings (parkCrossings halves)).setParking halves false).setStopped halves false).unparkRings
  let s := (List.finRange 18).foldl (fun s st => if mine st then (s.modSt st fun _ => Station.reset).modHealth st fun h => { h with due := true } else s) s
  let s := halves.foldl (fun s h => s.zeroExtent (match h with
    | .west => 0x1000000000
    | .east => 0x1010000000) 0x6000000) s
  s.doneTrans 0

/-- Every rail of the stages is up: an unpark completes, or the compute die comes up. -/
def State.raiseDone (s : State) : State :=
  match s.pwr.trans with
  | some t => if t.phase ≠ .raising then s else if t.target = 0 && s.pwr.dieUp then s.unpark t.halves else s.setPhase .bringUp
  | none => if s.reg 0x4030 0 = 1 then s.setInsertion 2 else s

/-- A stage is complete: the next one starts, or every stage is done. -/
def State.continueRaise (s : State) : State := if s.pwr.up = [] then s.raiseDone else s.raiseNext

/-- Rails are raised; with none to raise the stages are done at once. -/
def State.raiseRails (s : State) (rails : List (Fin 14)) : State :=
  let s := s.startRaise rails
  if s.pwr.await = [] then s.raiseDone else s

/-- Every rail but the steward's. -/
def allRails : List (Fin 14) := [3, 4] ++ dieRails

/-- A power-good input asserts. A stage that completes while the steward restarts is continued by the runtime (R489). -/
def execPgAssert (r : Rail) (s : State) : Host.Outcome State Fault Refusal :=
  if s.pwr.off || !s.isEn r || vget s.pwr.pg r then noEvent s
  else
    let waited := s.pwr.await.contains r
    let s := s.modPwr fun x => { x with pg := vset x.pg r true, await := x.await.filter (· ≠ r) }
    if waited && s.pwr.await = [] && s.stewardUp then next s.continueRaise else next s

/-- Every loaded job faults with 0Ch at the steward (R542, R543). -/
def State.emergencyRecords (s : State) (detail loc2 : Nat) : State :=
  (List.finRange 4).foldl (fun s p => if s.loaded p then s.raise (some p) 0x0C detail (siteSteward loc2) else s) s

/-- A fall into STEWARD-ONLY with these enables dropped: a transition that runs ends so. -/
def State.fallToSteward (s : State) (rails : List (Fin 14)) : State :=
  let running := s.pwr.trans.isSome
  let s := s.enterStewardOnly rails
  let s := if running then s.setReg 0x4021 0 3 else s
  if s.reg 0x4030 0 = 7 then s.removalReady else s.afterTrans

/-- A power-good input does not assert in time (R504): the enables drop, and the device enters STEWARD-ONLY with code 09h. A power-up drops VDD_PCIE and VIO_FLASH too. -/
def execPgTimeout (r : Rail) (s : State) : Host.Outcome State Fault Refusal :=
  if !s.pwr.await.contains r || !s.stewardUp then noEvent s
  else
    let rails := if s.pwr.trans.isNone then dieRails ++ [4, 3] else dieRails
    let s := s.emergencyRecords 0x0C01 noLoc2
    let s := s.raise none 0x0C 0x0C01 (siteSteward noLoc2)
    next ((s.setInsertion 9).fallToSteward rails)

/-- A power emergency (R543). -/
def State.powerEmergency (s : State) (r : Rail) : State :=
  let s := s.emergencyRecords 0x0C01 (r.val + 1)
  (s.fallToSteward (dieRails ++ if r.val = 3 || r.val = 4 then [r] else [])).setThermal 4 true

/-- A power-good input falls while its enable is asserted (R543). -/
def execPgDeassert (r : Rail) (s : State) : Host.Outcome State Fault Refusal :=
  if s.pwr.off || r.val < 3 || !s.isEn r || !vget s.pwr.pg r then noEvent s else next (s.powerEmergency r)

/-! ### Parking (R492, R493, R496) -/

/-- A partition whose range holds a station of the half has a loaded job. -/
def State.holdsHalf (s : State) (h : Half) : Bool :=
  (List.finRange 4).any fun p => s.loaded p && (s.rangeList p).any fun st => stationHalf st = h

/-- A loaded job binds a tower or a port of the half, or declares a need for its stash. -/
def State.bindsHalf (s : State) (h : Half) (p : Part) : Bool :=
  let x := s.prt p
  s.loaded p && ((x.towers.any fun t => towerHalf t = h) || (x.ports.any fun q => portHalf q = h) || (match h with
    | .west => x.stashW ≠ 0
    | .east => x.stashE ≠ 0))

/-- An accepted request parks halves (steps 1 to 3); the jobs of a list end first. -/
def State.startPark (s : State) (target : Nat) (halves : List Half) (ends : List Part) : State :=
  let s := (s.beginTrans target halves .towers).setParking halves true
  ends.foldl (fun s p => if jobLive (s.prt p) then s.endByCommand p else s) s

/-- Work is left in a tower of the halves (step 4). -/
def State.towersBusy (s : State) (halves : List Half) : Bool :=
  (List.finRange 8).any fun t => halves.contains (towerHalf t) &&
    ((s.twr t).epochs.toList.any Option.isSome || (s.twr t).xq.toList.any (· ≠ []) || (s.twr t).mq.toList.any (· ≠ []))

def State.transHalves (s : State) : List Half := (s.pwr.trans.map (·.halves)).getD []
def State.transTarget (s : State) : Nat := (s.pwr.trans.map (·.target)).getD 0

/-- The towers are idle: the ports of the halves close, the rings take the forms of the live half, and the seam drains (steps 4 to 8). A park for DEEP-PARK omits step 7 (R496). -/
def execParkTowersIdle (s : State) : Host.Outcome State Fault Refusal :=
  if s.phase ≠ some .towers || s.towersBusy s.transHalves || !s.stewardUp then noEvent s
  else
    let l := s.transHalves
    let s := (List.finRange 28).foldl (fun s q => if l.contains (portHalf q) then s.goodbye q else s) s
    let s := if s.transTarget < 3 then s.parkRings else s
    next (s.setPhase .seam)

/-- 60 s have passed with work left (step 4). -/
def execParkTowerTimeout (s : State) : Host.Outcome State Fault Refusal :=
  if s.phase ≠ some .towers || !s.towersBusy s.transHalves || !s.phaseFor 60000000000 || !s.stewardUp then noEvent s else next s.abandonTrans

/-- The seam is empty and fenced; memories, clocks and rails are parked (steps 8 to 11). What has waited before the seam now goes into it and waits there (R291). The joint resets of the halves' crossings are applied and held: they calibrate at the unpark. -/
def execSeamDrained (s : State) : Host.Outcome State Fault Refusal :=
  if s.phase ≠ some .seam || !s.stewardUp || seamCrossings.any (fun c => s.crossingOwners c ≠ []) then noEvent s
  else
    let l := s.transHalves
    let gone := parkCrossings l
    let s := s.resetCrossings (gone.filter fun c => !seamCrossings.contains c)
    let s := { s with clk := { s.clk with
      fenced := (s.clk.fenced.filter fun (f : Fenced) => !gone.contains (f.a, f.b)) ++ seamCrossings.map fun (c : Nat × Nat) => (⟨c.1, c.2, [], false⟩ : Fenced)
      recal := s.clk.recal.filter fun c => !gone.contains c } }
    next (s.beginLowering s.transTarget l).admitItems

/-- The seam is not empty in time (step 8): the park is abandoned, and the ports may train again. -/
def execSeamDrainTimeout (s : State) : Host.Outcome State Fault Refusal :=
  if s.phase ≠ some .seam || !s.phaseFor 100000 || !s.stewardUp then noEvent s else next s.abandonTrans

/-! ### Requests (R491) -/

/-- The compute die comes up after a reset. -/
def State.comingUp (s : State) : Bool := s.reg 0x4030 0 = 1 || s.reg 0x4030 0 = 2

/-- A write of OD 4021h: refused while a transition or a removal runs or the die comes up; a request for the state in force completes at once. -/
def powerRequest (via : Via) (target : Nat) (force : Bool) (start : State → Option (State → State)) (s : State) : Host.Outcome State Fault Refusal :=
  command via 0x4021 0 [BitVec.ofNat 8 (target + b2n force * 128)] (fun s =>
    if s.inTransition || s.comingUp || s.pwr.removal.isSome then refused 0x4021 0
    else if s.powerState = target then (0, fun s => s.setReg 0x4021 0 0)
    else match start s with
      | some f => (0, f)
      | none => refused 0x4021 0) s

/-- HALF-PARK west or east, from RUN (R492). -/
def execPowerRequestHalfPark (via : Via) (h : Half) (force : Bool) (s : State) : Host.Outcome State Fault Refusal :=
  let target := (halfNo h).val + 1
  powerRequest via target force (fun s =>
    let bound := (List.finRange 4).filter (s.bindsHalf h)
    if s.powerState ≠ 0 || s.holdsHalf h || (bound ≠ [] && !force) then none
    else some fun s => s.startPark target [h] bound) s

/-- A park of every half that runs, on to `target`; from DEEP-PARK there is nothing left to park. -/
def State.parkAll (s : State) (target : Nat) : State := s.startPark target s.liveHalves (List.finRange 4)

/-- DEEP-PARK: from RUN and HALF-PARK a park (R496), from STEWARD-ONLY a power-up (R497). -/
def execPowerRequestDeepPark (via : Via) (force : Bool) (s : State) : Host.Outcome State Fault Refusal :=
  powerRequest via 3 force (fun s =>
    if s.powerState = 4 then some fun s => (s.beginTrans 3 bothHalves .raising).raiseRails allRails
    else if s.anyLoaded && !force then none
    else some fun s => s.parkAll 3) s

/-- The stage from DEEP-PARK to STEWARD-ONLY alone (R497). -/
def State.leaveDeep (s : State) : State := (s.beginTrans 4 [] .lowering).beginLowering 4 []

/-- STEWARD-ONLY, from RUN through DEEP-PARK, or from DEEP-PARK. -/
def execPowerRequestStewardOnly (via : Via) (force : Bool) (s : State) : Host.Outcome State Fault Refusal :=
  powerRequest via 4 force (fun s =>
    if s.powerState = 3 then some State.leaveDeep
    else if s.powerState ≠ 0 || (s.anyLoaded && !force) then none
    else some fun s => s.parkAll 4) s

/-- RUN: an unpark, or a power-up from STEWARD-ONLY (R494, R497). Refused while a thermal emergency is latched (R542). -/
def execPowerRequestRun (via : Via) (force : Bool) (s : State) : Host.Outcome State Fault Refusal :=
  powerRequest via 0 force (fun s =>
    if bit (s.reg 0x4201 0) 3 then none
    else some fun s => (s.beginTrans 0 s.parkedHalves .raising).raiseRails (if s.powerState = 4 then allRails else dieRails)) s

/-! ### The compute die comes up (R449, R497, R504) -/

/-- Code 03h, or 04h of a unit that is admitted. -/
def State.showReady (s : State) : State :=
  if s.reg 0x4030 0 = 2 || s.reg 0x4030 0 = 9 then s.setInsertion (if s.reg 0x4031 0 = 1 then 4 else 3) else s

/-- Every rail of the die is up. -/
def State.railsUp (s : State) : Bool := s.pwr.await = [] && s.pwr.up = [] && dieRails.all fun r => s.isEn r && vget s.pwr.pg r

/-- The device after a reset goes on to the state of OD 4022h, or to DEEP-PARK under a thermal emergency (R488, R542). -/
def State.afterUp (s : State) : State :=
  match s.pwr.trans with
  | some t => if t.target = 0 then s.doneTrans 0 else s.beginLowering 3 bothHalves
  | none => if s.reg 0x4022 0 = 3 || bit (s.reg 0x4201 0) 3 then (s.beginTrans 3 bothHalves .lowering).beginLowering 3 bothHalves else s

/-- The compute die and the towers are up: crossings calibrated, memories zeroed, sub-rings formed. `failed` names the crossings that fail (R282). -/
def execComputeDieReady (failed : List Crossing) (s : State) : Host.Outcome State Fault Refusal :=
  if s.pwr.dieUp || !s.railsUp || s.pwr.testEn || !s.stewardUp || !(s.reg 0x4030 0 = 2 || s.phase = some .bringUp) then noEvent s
  else
    let s := (s.modPwr fun x => { x with dieUp := true, parking := Vector.replicate 2 false, stopped := Vector.replicate 2 false }).setReg 0x4110 0 1
    let s := failed.foldl (fun s x => if allCrossings.contains (x.a.val, x.b.val) then s.crossingFailed x.a.val x.b.val else s) s
    let s := (List.finRange 4).foldl State.formRing s
    let s := s.showReady.showTargets
    let s := if s.reg 0x1030 0 = 3 then s else s.setSteward 3
    next s.afterUp

/-- The device's part of step 7 after a reset: rails that are down are raised, and the die comes up. -/
def State.bringUp (s : State) : State := ((s.modStw fun x => { x with fresh := false }).setInsertion 1).raiseRails allRails

/-- Held records are written in the order of detection (Table 15-4). -/
def State.writeHeldRecords (s : State) : State := s.faultHold.foldl State.logRec { s with faultHold := [] }

/-- Changes that fell into the restart are notified with the values they have now (Table 15-6). -/
def State.sendHeld (s : State) : State :=
  s.stw.unsent.foldl (fun s e =>
    let n := match odRow e.1 e.2 with
      | some r => r.bytes
      | none => 0
    s.notify e.1 e.2 (leBytes n (s.odValue e.1 e.2))) (s.modStw fun x => { x with unsent := [] })

/-- The commit timeout does not run while the source steward restarts (Table 15-4). -/
def State.resumeTimeouts (s : State) : State :=
  if s.stw.fresh then s
  else
    let later (t : W64) : W64 := t + (s.time - (if t < s.stw.downAt then s.stw.downAt else t))
    { s with parts := s.parts.map fun x => { x with sec := { x.sec with commitAt := later x.sec.commitAt, late := x.sec.late.map fun l => { l with commitAt := later l.commitAt } } } }

/-- The runtime takes up what the restart stopped (R455, R489), or brings the device up. -/
def State.resume (s : State) : State :=
  if s.stw.fresh then s.bringUp
  else
    let s := if s.pwr.await = [] && (s.phase = some .raising || s.reg 0x4030 0 = 1) then s.continueRaise else s
    if s.comingUp || s.reg 0x4030 0 = 9 then s else s.setSteward 3

/-- Step 6 of Table 15-3: the boot's first steps where they have not run, then held records, and the dictionary is available. -/
def execRuntimeReady (boot : BootResult) (s : State) : Host.Outcome State Fault Refusal :=
  if !s.stewardOn || s.stw.romHold || 2 ≤ s.reg 0x1030 0 then noEvent s
  else
    let s := if s.reg 0x1030 0 = 0 then s.bootSteps boot else s
    if s.reg 0x1030 0 ≠ 1 then next s
    else
      let s := s.setSteward 2
      let s := (List.finRange 4).foldl State.reportDone s.resumeTimeouts.writeHeldRecords
      next s.sendHeld.resume

/-- STW_RESET_N is released (R537). -/
def execStwResetNRelease (boot : BootResult) (s : State) : Host.Outcome State Fault Refusal :=
  if s.pwr.off || !s.pwr.stwHeld then noEvent s
  else next ((s.modPwr fun x => { x with stwHeld := false }).bootSteps boot)

/-! ### Insertion and removal (R504 to R507) -/

/-- A write of OD 4031h. -/
def execFabricAdmission (via : Via) (v : Byte) (s : State) : Host.Outcome State Fault Refusal :=
  command via 0x4031 0 [v] (fun _ =>
    if 1 < v.toNat then (3, id)
    else (0, fun s =>
      let s := s.setReg 0x4031 0 v.toNat
      if v = 1 && s.reg 0x4030 0 = 3 then s.setInsertion 4
      else if v = 0 && s.reg 0x4030 0 = 4 then s.setInsertion 3
      else s)) s

/-- A write of OD 4032h (R507); during a transition it waits (R489). -/
def execOrderlyRemoval (via : Via) (force : Bool) (s : State) : Host.Outcome State Fault Refusal :=
  command via 0x4032 0 [BitVec.ofNat 8 (1 + b2n force * 128)] (fun s =>
    if s.pwr.removal.isSome || s.comingUp then refused 0x4032 0
    else (0, fun s =>
      let s := s.setReg 0x4032 0 2
      if s.inTransition then s.modPwr fun x => { x with removal := some force, removalWaits := true } else s.startRemoval force)) s

/-- Steps 3 to 5: no job and no epoch is left; the ports close for good, and the device goes down to its steward rails. A way down that a thermal emergency has stopped in
DEEP-PARK goes on from there. -/
def execRemovalDrainComplete (s : State) : Host.Outcome State Fault Refusal :=
  if !s.removing || !(s.reg 0x4030 0 = 5 || (s.reg 0x4030 0 = 7 && s.powerState = 3)) || !s.stewardUp || s.anyLoaded || s.inTransition || (List.finRange 4).any s.epochOpen then noEvent s
  else
    let s := s.setInsertion 6
    let s := (List.finRange 28).foldl (fun s q => (s.closePort q).saveReg 0x5000 (q.val + 1) 0) s
    let s := s.setInsertion 7
    if s.powerState = 4 then next s.removalReady
    else if s.powerState = 3 then next s.leaveDeep
    else next (s.parkAll 4)

end Sys2Proof.Machine
end

