-- ==== Sys2Proof/Machine/Thermal.lean ====
section
/-!
DEFINITION. Package power (R533), core rail control (R534 to R536), temperature (R540 to R542) and rails out of range (R543).
-/
namespace Sys2Proof.Machine

/-! ### The package power limit (R533) -/

def State.setLim (s : State) (p : Part) (v : Option Nat) : State := (s.modPwr fun x => { x with lim := vset x.lim p v }).retarget p

/-- A cap 25 MHz higher; one at the partition's own setting is no cap. -/
def raiseCap (own : Nat) (c : Option Nat) : Option Nat := match c with
  | some v => if own ≤ v + 25 then none else some (v + 25)
  | none => none

/-- A cap `n` MHz lower, at least 400 MHz. -/
def lowerCap (own n : Nat) (c : Option Nat) : Option Nat := some (max 400 (c.getD own - n))

def State.ownMhz (s : State) (p : Part) : Nat := s.reg 0x4100 (p.val + 1)

/-- The mean of the last 10 ms against the limit. -/
def execPowerLimitCheck (watts : W16) (s : State) : Host.Outcome State Fault Refusal :=
  if !s.stewardUp then noEvent s
  else
    let s := s.setReg 0x4231 0 watts.toNat
    let limit := s.reg 0x4230 0
    let above := decide (limit < watts.toNat)
    let s := if above then (List.finRange 4).foldl (fun s p => s.setLim p (lowerCap (s.ownMhz p) 25 (vget s.pwr.lim p))) s
      else if watts.toNat * 100 < limit * 95 then (List.finRange 4).foldl (fun s p => s.setLim p (raiseCap (s.ownMhz p) (vget s.pwr.lim p))) s
      else s
    next (s.setThermal 2 (above || s.pwr.lim.toList.any Option.isSome))

/-! ### Core rails (R534 to R536) -/

def coreRail : Half → Rail
  | .west => 8
  | .east => 9

def State.core (s : State) (h : Half) : CoreRail := vget s.pwr.core (halfNo h)
def State.modCore (s : State) (h : Half) (f : CoreRail → CoreRail) : State := s.modPwr fun x => { x with core := vmod x.core (halfNo h) f }

/-- Raises that waited for their voltage are scheduled (R535). -/
def State.raisesDue (s : State) : State :=
  if !s.voltageReached then s
  else (List.finRange 4).foldl (fun s p => match vget s.pwr.raiseTo p with
    | some f => s.schedule4100 p f
    | none => s) s

/-- The next VOUT_COMMAND: at most 10 mV toward the target, at least 1 ms after the last. -/
def execCoreRailVoutCommand (h : Half) (s : State) : Host.Outcome State Fault Refusal :=
  let c := s.core h
  let t := s.railTarget h
  if !s.stewardUp || !vget s.pwr.pg (coreRail h) || !s.passed c.at_ 1000000 || c.mv = t then noEvent s
  else
    let mv := if c.mv < t then min t (c.mv + 10) else max t (c.mv - 10)
    next (((s.modCore h fun c => { c with mv := mv, at_ := s.time, fails := 0 }).emit (.vout h mv)).raisesDue)

/-- A regulator fails a command; the third in a row is a power emergency (R543). -/
def execPmbusCommandFailure (h : Half) (s : State) : Host.Outcome State Fault Refusal :=
  if !s.stewardUp || !s.isEn (coreRail h) then noEvent s
  else
    let n := (s.core h).fails + 1
    let s := s.modCore h fun c => { c with fails := n }
    if n < 3 then next s else next (s.powerEmergency (coreRail h))

/-- 24 h without a warning frame (R536). -/
def execCoreRailStepDecay (h : Half) (s : State) : Host.Outcome State Fault Refusal :=
  let sub := (halfNo h).val + 1
  if !s.stewardUp || s.reg 0x4221 sub = 0 || !s.passed (s.core h).warnAt dayNs then noEvent s
  else next (((s.saveReg 0x4221 sub (s.reg 0x4221 sub - 1)).modCore h fun c => { c with warnAt := s.time }).showTargets)

/-! ### Rails out of range (R543, Table 17-6) -/

/-- Recommended range in mV, and peak current in A, of a rail with a range of its own. -/
def railLimits : List (Nat × Nat × Nat) :=
  [(3135, 3465, 4), (1710, 1890, 3), (720, 780, 40), (820, 880, 16), (1140, 1260, 4), (770, 830, 180), (770, 830, 180), (720, 780, 220), (0, 0, 2300), (0, 0, 2300),
    (820, 880, 200), (1140, 1260, 36), (1710, 1890, 12), (1067, 1133, 200)]

/-- The reading is outside the rail's range, or above its peak. FFFFh is a current that no regulator supplies. -/
def State.railBad (s : State) (r : Rail) (mv amps : Nat) : Bool :=
  let l := railLimits.getD r.val (0, 0, 0)
  let volts := match coreHalf r with
    | some h =>
      let v := (s.core h).mv
      s.passed (s.core h).at_ 200000 && (v < 50 * (mv - v) || v < 50 * (v - mv))
    | none => mv < l.1 || l.2.1 < mv
  volts || (amps ≠ 0xFFFF && l.2.2 < amps)

/-- A rail is out of range: a power emergency, and the guarantee of every job that was loaded is void (R387, R543). -/
def execRailOutOfRange (r : Rail) (mv : W16) (amps : W16) (s : State) : Host.Outcome State Fault Refusal :=
  if s.pwr.off || r.val < 3 || !s.isEn r || !vget s.pwr.pg r || !s.railBad r mv.toNat amps.toNat then noEvent s
  else
    let told := (List.finRange 4).filter fun p => s.loaded p
    let s := (s.setReg 0x4220 (r.val + 1) (mv.toNat * 65536 + amps.toNat)).powerEmergency r
    next (told.foldl (fun s p => s.raise (some p) 0x0D 0x0D01 (siteSteward noLoc2)) s)

/-! ### Sensors (R540, Table 17-9) -/

/-- Halves that a sensor belongs to. -/
def sensorHalves (i : Nat) : List Half :=
  let side (w : Bool) : List Half := if w then [.west] else [.east]
  if i < 18 then side (i < 9) else if i < 34 then side (i < 26) else if i < 42 then side (i < 38) else if i < 50 then side (i < 46)
  else if i < 54 then side (i < 52) else if i < 56 then side (i = 54) else if i < 58 then [.west, .east] else []

def sensorsIn (h : Half) : List Nat := (List.range 64).filter fun i => (sensorHalves i).contains h

/-- Readings after trim and offset. -/
def State.readSensors (s : State) (l : List W16) : State :=
  l.zipIdx.foldl (fun s (x, i) =>
    s.setReg 0x4200 (i + 1) (BitVec.ofInt 16 (signed16 x.toNat + signed16 (s.reg 0x3020 (i + 1)) + signed16 (s.reg 0x3820 (i + 1)))).toNat) s

/-- A half is to be throttled, or is cool (Table 17-10). -/
def State.heats (s : State) (h : Half) : Bool := (sensorsIn h).any fun i => if isDram i then deg 95 ≤ s.sensor i else deg 105 ≤ s.sensor i
def State.cool (s : State) (h : Half) : Bool := (sensorsIn h).all fun i => if isDram i then s.sensor i < deg 90 else s.sensor i < deg 100

/-! ### Throttling (R541) -/

def State.throttle (s : State) (h : Half) : Throttle := vget s.pwr.thr (halfNo h)
def State.modThr (s : State) (h : Half) (f : Throttle → Throttle) : State := s.modPwr fun x => { x with thr := vmod x.thr (halfNo h) f }
def State.throttled (s : State) (h : Half) : Bool := bit (s.reg 0x4201 0) (halfNo h).val

/-- Partitions with an active station in the half. -/
def State.partsIn (s : State) (h : Half) : List Part := (List.finRange 4).filter fun p => (s.activeStations p).any fun st => stationHalf st = h

def State.setCap (s : State) (h : Half) (p : Part) (v : Option Nat) : State := (s.modThr h fun x => { x with caps := vset x.caps p v }).retarget p

/-- One step down of 50 MHz. -/
def State.stepDown (s : State) (h : Half) : State :=
  let s := s.modThr h fun x => { x with stepAt := s.time }
  (s.partsIn h).foldl (fun s p => s.setCap h p (lowerCap (s.ownMhz p) 50 (vget (s.throttle h).caps p))) s

/-- A half heats up: its throttle starts with its first step, and is counted. -/
def State.startThrottle (s : State) (h : Half) : State :=
  if s.throttled h || !s.heats h then s else (((s.setThermal (halfNo h).val true).count 0x90A1 0).stepDown h).breakHour

/-- Every 1 ms while the condition holds. -/
def execThrottleStep (h : Half) (s : State) : Host.Outcome State Fault Refusal :=
  if !s.stewardUp || !s.throttled h || !s.heats h || !s.passed (s.throttle h).stepAt 1000000 then noEvent s else next (s.stepDown h)

/-- Every 100 ms once the half has been cool for 100 ms: 25 MHz up, until no cap is left; the hour in which the throttle ends is not clean (R409). -/
def execThrottleRecoveryStep (h : Half) (s : State) : Host.Outcome State Fault Refusal :=
  let since : Bool := match (s.throttle h).cool with
    | some t => s.passed t 100000000
    | none => false
  if !s.stewardUp || !s.throttled h || !s.cool h || !since || !s.passed (s.throttle h).stepAt 100000000 then noEvent s
  else
    let s := s.modThr h fun x => { x with stepAt := s.time }
    let s := (List.finRange 4).foldl (fun s p => s.setCap h p (raiseCap (s.ownMhz p) (vget (s.throttle h).caps p))) s
    if (s.throttle h).caps.toList.any Option.isSome then next s else next (s.setThermal (halfNo h).val false).breakHour

/-- Times since which a half has been cool, and has had a die sensor at 110 °C. -/
def State.noteHeat (s : State) (h : Half) : State :=
  let hot := (sensorsIn h).any fun i => !isDram i && decide (deg 110 ≤ s.sensor i)
  s.modThr h fun x => { x with
    cool := if s.cool h then some (x.cool.getD s.time) else none
    hot := if hot then some (x.hot.getD s.time) else none }

/-! ### Emergency and trip (R542) -/

/-- The sensor that brings a thermal emergency. -/
def State.emergencySensor (s : State) : Option Nat :=
  let slow (h : Half) : Bool := match (s.throttle h).hot with
    | some t => s.passed t 10000000 && (s.partsIn h).all fun p => s.effectiveMhz p = 400
    | none => false
  (List.range 64).find? fun i =>
    if isDram i then deg 105 ≤ s.sensor i
    else deg 115 ≤ s.sensor i || (deg 110 ≤ s.sensor i && (sensorHalves i).any slow)

/-- A park to DEEP-PARK that nobody requested leaves OD 4021h alone. -/
def State.parkForced (s : State) : State := (s.parkAll 3).setReg 0x4021 0 (s.reg 0x4021 0)

/-- Rails stop moving. -/
def State.stopRails (s : State) : State := s.modPwr fun x => { x with up := [], await := [], down := [], decay := none }

def State.retargetTrans (s : State) (v : Nat) : State := s.modPwr fun x => { x with trans := x.trans.map fun t => { t with target := v } }

/-- The device goes to DEEP-PARK as with the force bit (R496); a transition that runs is abandoned, and OD 4021h reads 03h (R491, R542). -/
def State.forceDeep (s : State) : State :=
  match s.pwr.trans with
  | none => if s.pwr.dieUp && s.powerState < 3 then s.parkForced else s
  | some t =>
    let s := s.setReg 0x4021 0 3
    match t.phase with
    | .towers => s.abandonTrans.parkForced
    | .seam => s.abandonTrans.parkForced
    | .lowering =>
      if t.target < 3 then (s.stopRails.doneTrans t.target).parkForced
      else if t.target = 4 && [13, 12, 7].all s.isEn then (s.retargetTrans 3).beginLowering 3 []
      else s
    | .raising =>
      if !s.pwr.dieUp then s.retargetTrans 3
      else if s.powerState = 3 then (s.stopRails.retargetTrans 3).beginLowering 3 []
      else (s.stopRails.doneTrans s.powerState).parkForced
    | .bringUp => s.retargetTrans 3

/-- A thermal emergency is latched; while it is, no other one starts. -/
def State.thermalEmergency (s : State) (i : Nat) : State :=
  if bit (s.reg 0x4201 0) 3 then s
  else
    let s := s.emergencyRecords 0x0C00 (i + 1)
    ((s.setThermal 3 true).modPwr fun x => { x with coldSince := none }).forceDeep

/-- Hardware drops every enable but the steward's (R542). -/
def State.tripOff (s : State) (i : Nat) : State :=
  if s.pwr.trip then s
  else
    let s := s.emergencyRecords 0x0C00 (i + 1)
    let s := (s.modPwr fun x => { x with trip := true, coldSince := none }).setThermal 3 true
    s.fallToSteward (dieRails ++ [4, 3])

/-- The latch ends once every die sensor has read below 90 °C for 10 s. -/
def State.unlatch (s : State) : State :=
  let cold := (List.range 64).all fun i => isDram i || decide (s.sensor i < deg 90)
  let since := if cold then some (s.pwr.coldSince.getD s.time) else none
  let s := s.modPwr fun x => { x with coldSince := since }
  match since with
  | some t => if bit (s.reg 0x4201 0) 3 && s.passed t 10000000000 then s.setThermal 3 false else s
  | none => s

/-- The 64 sensors are read. The trip is hardware's; the rest is the steward's. A partition that comes to lie beyond the operating conditions has event 0Dh, which waits while the steward
restarts (R387, R456). -/
def execSensorSample (reading : List W16) (s : State) : Host.Outcome State Fault Refusal :=
  if s.pwr.off || s.pwr.stwHeld || reading.length ≠ 64 then noEvent s
  else
    let old := s
    let s := s.readSensors reading
    match (List.range 64).find? fun i => !isDram i && decide (deg 125 ≤ s.sensor i) with
    | some i => next (s.tripOff i)
    | none =>
      let s := (List.finRange 4).foldl (fun s p =>
        if s.loaded p && s.beyondFor p && !old.beyondFor p then s.raise (some p) 0x0D 0x0D01 (siteSteward noLoc2) else s) s
      if !s.stewardUp then next s
      else
        let s := bothHalves.foldl (fun s h => (s.noteHeat h).startThrottle h) s
        let s := s.unlatch
        match s.emergencySensor with
        | some i => next (s.thermalEmergency i)
        | none => next s

end Sys2Proof.Machine
end

