-- ==== Sys2Proof/Machine/HostPort.lean ====
section
/-!
DEFINITION. The host port: mailboxes and rings (R479), BAR2 (R513, R517 to R519), mordant doorbells and watches (R515, R516), its resets (R520 to R522).
-/
namespace Sys2Proof.Machine

/-- The PCIe link is up (OD 1200h). -/
def State.linkUp (s : State) : Bool := s.reg 0x1200 0 ≠ 0

/-- A function answers BAR accesses: the link is up and the function in D0. -/
def State.fnOn (s : State) (f : Pf) : Bool := s.linkUp && !(s.fn f).d3

/-! ### Mailboxes and rings (R479) -/

/-- A write of the status word: a 1 clears DONE, LOST or OVF (R15, Table 17-3). -/
def HostFn.clearStatus (w : Byte) (x : HostFn) : HostFn :=
  { x with done := x.done && !w.getLsbD 0, lost := x.lost && !w.getLsbD 2, ovf := x.ovf && !w.getLsbD 4 }

/-- A request is submitted; while BUSY the doorbell sets LOST, and while the steward restarts the hardware answers with status 09h. `w1c` is what the driver has written to the status word
before it (assumption log 134). -/
def execMailboxDoorbell (pf : Pf) (req : List Byte) (w1c : Byte) (s : State) : Host.Outcome State Fault Refusal :=
  if !s.fnOn pf || 1040 < req.length then noEvent s
  else if (s.fn pf).busy then next (s.modFn pf fun x => { x.clearStatus w1c with lost := true })
  else
    let s := s.modFn pf (HostFn.clearStatus w1c)
    let s := s.modFn pf fun x => { x with req := fit 0 1040 req, busy := true }
    if s.reg 0x1030 0 < 2 then next (s.answerRestart pf) else next s

/-- The host driver gives ring entries back, and clears what it has written to the status word. -/
def execNotificationRingTailWrite (pf : Pf) (v : W32) (w1c : Byte) (s : State) : Host.Outcome State Fault Refusal :=
  if !s.fnOn pf then noEvent s else next (s.modFn pf fun x => { x.clearStatus w1c with tail := v.toNat % 64 })

/-! ### Completions (R518) -/

def State.complete (s : State) (f : Pf) (c : Completion) (parts : List (List Byte × Bool)) : State := s.emit (.completion f c parts)

/-- A Completer Abort or a discarded write: AER and OD 90A0h. -/
def State.logRefused (s : State) (f : Pf) : State := (s.modFn f fun x => { x with aer := true }).count 0x90A0 (f.val + 1)

/-- A request is refused. A posted write gets no completion. -/
def State.abort (s : State) (f : Pf) (posted : Bool) : State :=
  let s := s.logRefused f
  if posted then s else s.complete f .abort []

def State.unsupported (s : State) (f : Pf) (posted : Bool) : State := if posted then s else s.complete f .unsupported []

/-- Partition of a function; PF0 has none. -/
def pfPart (f : Pf) : Option Part := if f.val = 0 then none else some (fin (f.val - 1))

/-- What becomes of a BAR2 or doorbell request before its address is looked at: the partition it may use, or its refusal. -/
inductive Admission where
  | serve (p : Part) | unsupported | abort
  deriving DecidableEq, Repr

/-- R513, R518, R520: in DEEP-PARK and STEWARD-ONLY every request of an enabled partition's function is aborted. -/
def State.admission (s : State) (f : Pf) : Admission :=
  match pfPart f with
  | none => .unsupported
  | some p =>
    if (s.fn f).d3 || (s.rangeOf p).isNone then .unsupported
    else if 3 ≤ s.powerState then .abort
    else .serve p

/-- A request that enters the mesh: aborted from the acceptance of a west park on, and where no compute die is up (R29, R493). One whose way is blocked waits at the crossing, and one for a
channel that carries maintenance for its end (R164, R289); it is served when nothing holds it any more (assumption log 133). `towers` says that it goes to memory of a tower. -/
def State.enterMesh (s : State) (f : Pf) (posted : Bool) (way : List (Nat × Nat)) (towers : Bool) (req : HostReq) (act : State → State) : State :=
  if s.parked .west || !s.pwr.dieUp then s.abort f posted
  else if way.any s.blocked || (towers && s.maintenance) then { s with hostHeld := s.hostHeld ++ [⟨f, way, req⟩] }
  else act s

/-- The way of a host access to a part of memory, and back when it reads. -/
def State.hostWay (s : State) (a n : Nat) (reads : Bool) : List (Nat × Nat) := (partsOf a n).flatMap fun x => s.wayTo (some 73) hostNode x.1 reads

/-- A request with its admission applied. -/
def hostRequest (f : Pf) (posted : Bool) (act : Part → State → State) (s : State) : Host.Outcome State Fault Refusal :=
  if !s.linkUp then noEvent s
  else match s.admission f with
    | .serve p => next (act p s)
    | .unsupported => next (s.unsupported f posted)
    | .abort => next (s.abort f posted)

/-- Bytes of one half of BAR2. -/
def State.barHalf (s : State) (f : Pf) : Nat := (s.fn f).cfg.bar2 * 2 ^ 29

/-! ### The memory aperture (R517, R518) -/

/-- The partition's tower windows end to end: device address and size. -/
def State.apertureWindows (s : State) (p : Part) : List (Nat × Nat) :=
  (List.finRange 8).filterMap fun t => (s.towerWindow p t).map fun w => (t.val * 2 ^ 33 + w.1, w.2 - w.1)

/-- The runs of device addresses that an extent covers; `none` beyond the windows. -/
def cutWindows : List (Nat × Nat) → Nat → Nat → Option (List (Nat × Nat))
  | _, _, 0 => some []
  | [], _, _ => none
  | (a, size) :: l, o, n =>
    if size ≤ o then cutWindows l (o - size) n
    else (cutWindows l 0 (n - min n (size - o))).map fun r => (a + o, min n (size - o)) :: r

/-- A run lies in a tower that is not there for the host: its half parked, or it retired or lost (R518). A request that the host port aborts reaches no node of the tower, so that R26 has
none to complete (DEDUCED, assumption log 132). -/
def State.runClosed (s : State) (r : Nat × Nat) : Bool :=
  let t : Twr := fin (r.1 / 2 ^ 33)
  s.parked (towerHalf t) || !s.towerServes t r.1

/-- Where the completions of a read are cut: places aligned to 256 B or the payload size, whichever is smaller. -/
def splitAt : Nat → Nat → Nat → List PByte → List (List Byte × Bool)
  | 0, _, _, _ => []
  | fuel + 1, unit, o, l =>
    if l = [] then []
    else
      let n := unit - o % unit
      (rawBytes (l.take n), anyPoison (l.take n)) :: splitAt fuel unit (o + n) (l.drop n)

def State.completions (s : State) (f : Pf) (o : Nat) (l : List PByte) : List (List Byte × Bool) :=
  splitAt (l.length + 1) (max 1 (min 256 (s.fn f).cfg.mps)) o l

/-- An access to the memory aperture: its runs, or its refusal. -/
def State.onAperture (s : State) (f : Pf) (p : Part) (off n : Nat) (posted : Bool) (req : HostReq) (act : List (Nat × Nat) → State → State) : State :=
  match cutWindows (s.apertureWindows p) off n with
  | none => s.unsupported f posted
  | some runs => if runs.any s.runClosed then s.abort f posted else s.enterMesh f posted (runs.flatMap fun r => s.hostWay r.1 r.2 !posted) true req (act runs)

/-- Reads run after run, with what the checks find (R166). -/
def State.readRuns (s : State) (e : MemEcc) (runs : List (Nat × Nat)) : List PByte × State :=
  runs.foldl (fun o r => let x := o.2.devRead e r.1 r.2; (o.1 ++ x.1, x.2)) ([], s)

def execBar2MemoryRead (pf : Pf) (off : Nat) (len : Nat) (e : MemEcc) (s : State) : Host.Outcome State Fault Refusal :=
  if s.barHalf pf < off + len || len = 0 then noEvent s
  else hostRequest pf false (fun p s => s.onAperture pf p off len false (.read off len e) fun runs s =>
    let r := s.readRuns e runs
    r.2.complete pf .done (r.2.completions pf off r.1)) s

/-- Writes run after run. -/
def State.writeRuns (e : MemEcc) : State → List (Nat × Nat) → List PByte → State
  | s, [], _ => s
  | s, r :: rs, l => State.writeRuns e ((s.devWrite e r.1 (l.take r.2)).getD s) rs (l.drop r.2)

/-- A write; EP poisons every word that it writes. One into a secured block is discarded. -/
def execBar2MemoryWrite (pf : Pf) (off : Nat) (data : List Byte) (ep : Bool) (e : MemEcc) (s : State) : Host.Outcome State Fault Refusal :=
  if s.barHalf pf < off + data.length || data = [] then noEvent s
  else hostRequest pf true (fun p s => s.onAperture pf p off data.length true (.write off data ep e) fun runs s =>
    if runs.any fun r => s.forbids r.1 r.2 then s.logRefused pf else s.writeRuns e runs (data.map fun b => ⟨b, ep⟩)) s

/-- One read and one write at the channel; the completion holds what was read. -/
def atomicOp (f : Pf) (off : Nat) (wide : Bool) (e : MemEcc) (req : HostReq) (g : Nat → Nat) (s : State) : Host.Outcome State Fault Refusal :=
  let n := if wide then 8 else 4
  if s.barHalf f < off + n then noEvent s
  else hostRequest f false (fun p s =>
    if off % n ≠ 0 then s.unsupported f false
    else s.onAperture f p off n false req fun runs s =>
      if runs.any fun r => s.forbids r.1 r.2 then s.abort f false
      else
        let r := s.readRuns e runs
        let old := r.1
        let s := r.2.complete f .done [(rawBytes old, anyPoison old)]
        if anyPoison old then s else s.writeRuns noFindings runs (clean (leBytes n (g (leP old))))) s

def execAtomicopFetchadd (pf : Pf) (off : Nat) (wide : Bool) (v : W64) (e : MemEcc) (s : State) : Host.Outcome State Fault Refusal :=
  atomicOp pf off wide e (.fetchAdd off wide v e) (fun old => old + v.toNat) s

def execAtomicopSwap (pf : Pf) (off : Nat) (wide : Bool) (v : W64) (e : MemEcc) (s : State) : Host.Outcome State Fault Refusal :=
  atomicOp pf off wide e (.swap off wide v e) (fun _ => v.toNat) s

def execAtomicopCas (pf : Pf) (off : Nat) (wide : Bool) (cmp v : W64) (e : MemEcc) (s : State) : Host.Outcome State Fault Refusal :=
  let m := if wide then 2 ^ 64 else 2 ^ 32
  atomicOp pf off wide e (.cas off wide cmp v e) (fun old => if old = cmp.toNat % m then v.toNat else old) s

/-! ### The image aperture (R519) -/

/-- Parts of the image aperture by 64 KiB unit: the header, a block, the commit record, nothing. -/
inductive ImagePart where
  | header | block (i : Nat) | commit | beyond
  deriving DecidableEq, Repr

def imagePart (nb o : Nat) : ImagePart :=
  let u := o / 65536
  if u = 0 then .header else if u ≤ nb then .block (u - 1) else if o < 65536 * (nb + 1) + 4 * nb then .commit else .beyond

/-- An extent cut at 64 KiB units: place and length of each piece. -/
def unitPieces : Nat → Nat → Nat → List (Nat × Nat)
  | 0, _, _ => []
  | fuel + 1, o, n =>
    if n = 0 then []
    else
      let k := min n (65536 - o % 65536)
      (o, k) :: unitPieces fuel (o + k) (n - k)

/-- Number of an image's block within its tower's directory. -/
def State.directoryIndex (s : State) (p : Part) (b : Twr × Nat) : Nat :=
  match vget (s.twr b.1).epochs p with
  | some e => e.blocks.findIdx fun x => x.addr = b.2
  | none => 0

/-- A host read of part of a block is a drain read: the bytes it has not read before count (R436); a block that it has read whole gives its CRC-32C. -/
def State.readBlockPart (s : State) (p : Part) (ecc : MemEcc) (i o n : Nat) : List PByte × State :=
  match (s.securedBlocks p)[i]? with
  | none => ([], s)
  | some b =>
    let s := s.sectorsRead b.1 ecc (b.2 + o) n
    let l := s.memRead (b.2 + o) n
    let k := s.directoryIndex p b
    match (vget (s.twr b.1).epochs p).bind fun e => e.blocks[k]? with
    | none => (l, s)
    | some x =>
      if spansFull x.reads 65536 then (l, s)
      else
        let s := s.modBlock b.1 p k fun x => { x with reads := spanAdd x.reads o (o + n) }
        let whole := spansFull (spanAdd x.reads o (o + n)) 65536
        (l, s.modSec p fun y => { y with epoch := y.epoch.map fun e => { e with
          poisoned := e.poisoned || anyPoison l
          crcs := if whole then e.crcs ++ [(i, BitVec.ofNat 32 (crc32c (rawBytes (s.memRead b.2 65536))))] else e.crcs } })

/-- Bytes of the commit record: one CRC-32C a block, in block order. -/
def commitBytes (i : Image) (nb : Nat) : List Byte :=
  (List.range nb).flatMap fun k => leBytes 4 (((i.crcs.find? fun e => e.1 = k).map fun e => e.2.toNat).getD 0)

/-- A piece of the image that the host reads; `none` is refused: a commit record before every block has been read, or a tower that is gone. -/
def State.readImagePiece (s : State) (p : Part) (ecc : MemEcc) (i : Image) (o n : Nat) : Option (List PByte × State) :=
  let nb := (s.securedBlocks p).length
  match imagePart nb o with
  | .header => some (clean (((Config.imageHeader p.val i).drop o).take n), s)
  | .block k =>
    let up := match (s.securedBlocks p)[k]? with
      | some b => s.towerServes b.1 b.2 && !s.parked (towerHalf b.1)
      | none => false
    if up then some (s.readBlockPart p ecc k (o % 65536) n) else none
  | .commit => if i.crcs.length < nb then none else some (clean (((commitBytes i nb).drop (o - 65536 * (nb + 1))).take n), s)
  | .beyond => none

def State.readImage (p : Part) (ecc : MemEcc) : List (Nat × Nat) → List PByte × State → Option (List PByte × State)
  | [], r => some r
  | x :: l, r => match (r.2.sec p).epoch with
    | none => none
    | some i => match r.2.readImagePiece p ecc i x.1 x.2 with
      | none => none
      | some y => State.readImage p ecc l (r.1 ++ y.1, y.2)

/-- The way of an access to the blocks of the image that an extent covers. -/
def State.imageWay (s : State) (p : Part) (off n : Nat) (reads : Bool) : List (Nat × Nat) :=
  (unitPieces (n / 65536 + 2) off n).flatMap fun x => match imagePart (s.securedBlocks p).length x.1 with
    | .block k => match (s.securedBlocks p)[k]? with
      | some b => s.hostWay (b.2 + x.1 % 65536) x.2 reads
      | none => []
    | _ => []

/-- A read of the image of an epoch that drains to the shared store. -/
def execImageApertureRead (pf : Pf) (off : Nat) (len : Nat) (e : MemEcc) (s : State) : Host.Outcome State Fault Refusal :=
  if s.barHalf pf < off + len || len = 0 then noEvent s
  else hostRequest pf false (fun p s =>
    match (s.sec p).epoch with
    | none => s.unsupported pf false
    | some i =>
      let nb := (s.securedBlocks p).length
      if i.tier ≠ 2 || 65536 * (nb + 1) + 4 * nb < off + len then s.unsupported pf false
      else s.enterMesh pf false (s.imageWay p off len true) (s.imageWay p off len true ≠ []) (.imageRead off len e) fun s =>
        match State.readImage p e (unitPieces (len / 65536 + 2) off len) ([], s) with
        | none => s.abort pf false
        | some r => r.2.complete pf .done (r.2.completions pf off r.1)) s

/-- The spans that the host has written of one unit. -/
def Restore.spans (r : Restore) (u : Nat) : List (Nat × Nat) := sget [] r.got u

/-- The image that a header spells, with the marks of the tier's entry for its step (R426, R438, R439): a header holds none (R423). A device that holds no entry for it, such as a replacement
unit, takes the store's word that it is complete, and has nothing by which to call it clean: DEDUCED (assumption log 23). -/
def State.sharedImage (s : State) (p : Part) (i : Image) : Image :=
  match (s.sec p).images.find? fun k => k.tier = 2 && k.complete && k.step = i.step && k.device = i.device with
  | some k => { i with tier := 2, complete := true, poisoned := k.poisoned, inconsistent := k.inconsistent, clean := k.clean, spoiled := k.spoiled, passOk := k.passOk }
  | none => { i with tier := 2, complete := true, clean := false }

/-- The header granule is there: the steward checks the image (R441, R445). How a header spells its image is not given (assumption log 23). -/
def State.headerThere (s : State) (p : Part) (r : Restore) : State :=
  let v := (s.sec p).req.toNat
  match Config.readHeader p.val ((List.range 65536).map fun i => sget 0 r.hdr i) with
  | none => s.restoreFail p
  | some i =>
    let i := { s.sharedImage p i with crcs := r.img.crcs }
    if i.device.toNat ≠ s.reg 0x1020 0 || !(reqStep v = 2 ^ 64 - 1 || i.step.toNat = reqStep v) then s.restoreFail p
    else if s.imageOk p v i then s.modSec p fun x => { x with restore := some { r with img := i, hdrOk := true } }
    else s.refuseImage p i

/-- The commit record is there: its CRCs. -/
def commitThere (r : Restore) (nb : Nat) : Restore :=
  { r with
    recOk := true
    img := { r.img with crcs := (List.range nb).map fun k => (k, BitVec.ofNat 32 (leNat ((List.range 4).map fun j => sget 0 r.hdr (65536 + 4 * k + j)))) } }

/-- A piece that the host writes. Header and commit record are kept until they are whole; a block lands in its range as it comes, and is checked when it is whole. -/
def State.writeImagePiece (s : State) (p : Part) (ecc : MemEcc) (o : Nat) (l : List Byte) : State :=
  match (s.sec p).restore with
  | none => s
  | some r =>
    let nb := (s.securedBlocks p).length
    let u := o / 65536
    match imagePart nb o with
    | .header =>
      if r.hdrOk then s
      else
        let sp := spanAdd (r.spans 0) o (o + l.length)
        let r := { r with hdr := lsPutBytes r.hdr o l, got := sput [] r.got 0 sp }
        let s := s.modSec p fun x => { x with restore := some r }
        if spansFull sp 65536 then s.headerThere p r else s
    | .commit =>
      let c := o - 65536 * (nb + 1)
      let sp := spanAdd (r.spans (nb + 1)) c (c + l.length)
      let r := { r with hdr := lsPutBytes r.hdr (65536 + c) l, got := sput [] r.got (nb + 1) sp }
      s.modSec p fun x => { x with restore := some (if spansFull sp (4 * nb) then commitThere r nb else r) }
    | .block k =>
      if !r.hdrOk || !r.recOk then s.restoreFail p
      else match (s.securedBlocks p)[k]? with
        | none => s
        | some b =>
          if r.landed.contains k then s
          else if s.forbids b.2 65536 then s.restoreForbidden p b.1
          else
            let sp := spanAdd (r.spans u) (o % 65536) (o % 65536 + l.length)
            let s := (s.devWrite ecc (b.2 + o % 65536) (clean l)).getD s
            let s := s.modSec p fun x => { x with restore := some { r with got := sput [] r.got u sp } }
            if spansFull sp 65536 then s.landBlock p k true (rawBytes (s.memRead b.2 65536)) else s
    | .beyond => s

def State.writeImage (p : Part) (ecc : MemEcc) : List (Nat × Nat) → List Byte → State → State
  | [], _, s => s
  | x :: l, d, s => State.writeImage p ecc l (d.drop x.2) (s.writeImagePiece p ecc x.1 (d.take x.2))

/-- A write during a restore from the shared store. -/
def execImageApertureWrite (pf : Pf) (off : Nat) (data : List Byte) (e : MemEcc) (s : State) : Host.Outcome State Fault Refusal :=
  if s.barHalf pf < off + data.length || data = [] then noEvent s
  else hostRequest pf true (fun p s =>
    match (s.sec p).restore with
    | none => s.unsupported pf true
    | some r =>
      let nb := (s.securedBlocks p).length
      if r.img.tier ≠ 2 || 65536 * (nb + 1) + 4 * nb < off + data.length then s.unsupported pf true
      else s.enterMesh pf true (s.imageWay p off data.length false) (s.imageWay p off data.length false ≠ []) (.imageWrite off data e) <| State.writeImage p e (unitPieces (data.length / 65536 + 2) off data.length) data) s

/-! ### Doorbells and watches (R515, R516) -/

/-- The mordant at offset `o` of the partition's range. -/
def State.mordantAt (s : State) (p : Part) (o : Nat) : Option Nat :=
  match s.morRange p with
  | some (a, z) => if o ≤ z - a then some (a + o) else none
  | none => none

/-- The mordant that a doorbell access names; `none` when it is refused. -/
def State.doorbellAt (s : State) (p : Part) (off size : Nat) : Option Nat := if size ≠ 8 || off % 8 ≠ 0 then none else s.mordantAt p (off / 8)

/-- The way of a doorbell access to the station that holds the mordant, and back when it reads. -/
def State.doorbellWay (s : State) (p : Part) (m : Nat) (reads : Bool) : List (Nat × Nat) :=
  match s.morHolder p m with
  | none => []
  | some st =>
    let c := nodeCol hostNode
    let d := nodeCol (stationNode st)
    (73, col c) :: columnsBetween c d ++ [(col d, st.val)] ++ (if reads then (st.val, col d) :: columnsBetween d c ++ [(col c, 73)] else [])

/-- A doorbell write; without a loaded job it is discarded. BAR2 writes are written at their channel when their command ends, so none is left to wait for. -/
def execMordantDoorbellWrite (pf : Pf) (off : Nat) (size : Nat) (v : W64) (s : State) : Host.Outcome State Fault Refusal :=
  hostRequest pf true (fun p s => match s.doorbellAt p off size with
    | none => s.unsupported pf true
    | some m => if s.loaded p then s.enterMesh pf true (s.doorbellWay p m false) false (.ring off size v) fun s => s.morAdd p m v.toNat else s) s

/-- A doorbell read: the counter, zero without a loaded job. -/
def execMordantDoorbellRead (pf : Pf) (off : Nat) (size : Nat) (s : State) : Host.Outcome State Fault Refusal :=
  hostRequest pf false (fun p s => match s.doorbellAt p off size with
    | none => s.unsupported pf false
    | some m =>
      if s.loaded p then s.enterMesh pf false (s.doorbellWay p m true) false (.look off size) fun s => s.complete pf .done [(leBytes 8 (s.mor m).count.toNat, false)]
      else s.complete pf .done [(leBytes 8 0, false)]) s

def State.watch (s : State) (f : Pf) (i : Nat) : Watch := sget watch0 (s.fn f).watches i
def State.setWatch (s : State) (f : Pf) (i : Nat) (w : Watch) : State := s.modFn f fun x => { x with watches := sput watch0 x.watches i w }

/-- The counter that a watch looks at has reached its threshold. -/
def State.watchReached (s : State) (p : Part) (w : Watch) : Bool :=
  s.loaded p && match s.mordantAt p w.mor.toNat with
    | some m => decide (w.thr.toNat ≤ (s.mor m).count.toNat)
    | none => false

/-- A watch fires: its vector, FIRED set, EN clear. -/
def State.fireWatch (s : State) (f : Pf) (i : Nat) : State :=
  (s.setWatch f i { s.watch f i with en := false, fired := true }).vector f (16 + i)

/-- EN is set: a counter that is there already fires the watch at once. A 1 in the FIRED bit of the word that the driver writes clears FIRED (R15). -/
def execWatchArm (pf : Pf) (i : Fin 432) (thr : W64) (mor : W16) (w1c : Bool) (s : State) : Host.Outcome State Fault Refusal :=
  match pfPart pf with
  | none => noEvent s
  | some p =>
    if !s.fnOn pf then noEvent s
    else
      let old := s.watch pf i.val
      let w : Watch := { thr := thr, mor := mor, en := true, fired := old.fired && !w1c }
      let s := s.setWatch pf i.val w
      if s.watchReached p w then next (s.fireWatch pf i.val) else next s

/-- An armed watch's counter reaches the threshold. -/
def execWatchFire (pf : Pf) (i : Fin 432) (s : State) : Host.Outcome State Fault Refusal :=
  match pfPart pf with
  | none => noEvent s
  | some p => if (s.watch pf i.val).en && s.watchReached p (s.watch pf i.val) then next (s.fireWatch pf i.val) else noEvent s

/-! ### Held requests (R164, R289) -/

/-- A request that has waited is made anew: it is served, refused, or waits on. -/
def hostServe (s : State) (x : HostItem) : State :=
  let f := x.fn
  let o : Host.Outcome State Fault Refusal := match x.req with
    | .read off len e => execBar2MemoryRead f off len e s
    | .write off data ep e => execBar2MemoryWrite f off data ep e s
    | .fetchAdd off wide v e => execAtomicopFetchadd f off wide v e s
    | .swap off wide v e => execAtomicopSwap f off wide v e s
    | .cas off wide c v e => execAtomicopCas f off wide c v e s
    | .imageRead off len e => execImageApertureRead f off len e s
    | .imageWrite off data e => execImageApertureWrite f off data e s
    | .ring off size v => execMordantDoorbellWrite f off size v s
    | .look off size => execMordantDoorbellRead f off size s
  match o with
  | .next t => t
  | _ => s

/-- The held requests in their order. -/
def State.serveHeld (s : State) : State := s.hostHeld.foldl hostServe { s with hostHeld := [] }

/-! ### Resets of the host port (R520, R522) -/

def execPerstNAssert (s : State) : Host.Outcome State Fault Refusal :=
  if s.perst then noEvent s else next (State.pcieReset { s with perst := true })

/-- The port leaves reset; its link trains from here. -/
def execPerstNDeassert (s : State) : Host.Outcome State Fault Refusal := next { s with perst := false }

def execHotReset (s : State) : Host.Outcome State Fault Refusal := if s.linkUp then next s.pcieReset else noEvent s
def execPcieLinkDown (s : State) : Host.Outcome State Fault Refusal := if s.linkUp then next s.pcieReset else noEvent s

/-- The link trains (R512), and the host configures the functions. -/
def execPcieLinkUp (rate : BitVec 4) (width : BitVec 5) (cfg : Vector PciCfg 5) (s : State) : Host.Outcome State Fault Refusal :=
  if s.perst || s.linkUp || !vget s.pwr.pg 3 || rate = 0 || 6 < rate.toNat || !([1, 2, 4, 8, 16].contains width.toNat) then noEvent s
  else
    let s := s.setReg 0x1200 0 (rate.toNat * 256 + width.toNat)
    next ((List.finRange 5).foldl (fun s f => s.modFn f fun x => { x with cfg := vget cfg f }) s)

/-- FLR of one function: its host side, with a new configuration, and its image aperture. -/
def execFunctionLevelReset (pf : Pf) (cfg : PciCfg) (s : State) : Host.Outcome State Fault Refusal :=
  if !s.linkUp then noEvent s
  else
    let s := s.modFn pf fun x => { x.clear with cfg := cfg }
    match pfPart pf with
    | some p => next (s.resetAperture p)
    | none => next s

def execD3hotEntry (pf : Pf) (s : State) : Host.Outcome State Fault Refusal := if s.linkUp then next (s.modFn pf fun x => { x with d3 := true }) else noEvent s
def execD0Entry (pf : Pf) (s : State) : Host.Outcome State Fault Refusal := if s.linkUp then next (s.modFn pf fun x => { x with d3 := false }) else noEvent s

/-- A PTM sample (R521). -/
def execPtmRequest (hostTime : W64) (s : State) : Host.Outcome State Fault Refusal :=
  if s.linkUp && s.host.toList.any fun x => x.cfg.ptm then next (s.setDom 0x4420 0 (leBytes 8 hostTime.toNat ++ leBytes 8 s.time.toNat)) else noEvent s

end Sys2Proof.Machine
end

