-- ==== Sys2Proof/Machine/Sideband.lean ====
section
/-!
DEFINITION. The SMBus sideband (R524), 1PPS (R530) and the test port (R531).
-/
namespace Sys2Proof.Machine

/-! ### SMBus (R524, Table 17-5) -/

/-- A read of the sideband, which NACKs before step 6 of Table 15-3. -/
def smbusRead (b : State → List Byte) (s : State) : Host.Outcome State Fault Refusal :=
  if s.pwr.off then noEvent s else next (s.emit (.smbus (if s.stewardUp then some (b s) else none)))

def execSmbusReadInsertionState (s : State) : Host.Outcome State Fault Refusal := smbusRead (fun s => leBytes 1 (s.reg 0x4030 0)) s
def execSmbusReadPowerState (s : State) : Host.Outcome State Fault Refusal := smbusRead (fun s => leBytes 1 (s.reg 0x4020 0)) s
def execSmbusReadStatus (s : State) : Host.Outcome State Fault Refusal := smbusRead (fun s => leBytes 1 s.statusByte) s

/-- The highest of some sensors, as an I16. -/
def State.highest (s : State) (ok : Nat → Bool) : Nat :=
  let l := ((List.range 64).filter ok).map s.sensor
  (BitVec.ofInt 16 (l.foldl max (-32768))).toNat

def execSmbusReadDieSensor (s : State) : Host.Outcome State Fault Refusal := smbusRead (fun s => leBytes 2 (s.highest fun i => !isDram i)) s
def execSmbusReadDramSensor (s : State) : Host.Outcome State Fault Refusal := smbusRead (fun s => leBytes 2 (s.highest isDram)) s
def execSmbusReadPackagePower (s : State) : Host.Outcome State Fault Refusal := smbusRead (fun s => leBytes 2 (s.reg 0x4231 0)) s
def execSmbusReadDeviceId (s : State) : Host.Outcome State Fault Refusal := smbusRead (fun s => leBytes 2 (s.reg 0x1020 0)) s
def execSmbusReadSerial (s : State) : Host.Outcome State Fault Refusal := smbusRead (fun s => leBytes 8 (s.reg 0x1001 0)) s

/-- The Alert Response Address read releases SMB_ALERT_N. -/
def execAlertResponseAddressRead (s : State) : Host.Outcome State Fault Refusal :=
  if s.pwr.off || !s.stewardUp then noEvent s else next (s.modPwr fun x => { x with alert := false })

/-- Every write is NACKed. -/
def execSmbusWrite (s : State) : Host.Outcome State Fault Refusal := if s.pwr.off then noEvent s else next (s.emit (.smbus none))

/-! ### 1PPS (R530) -/

/-- The counter passes a multiple of 10^9: PPS_OUT is high for 100 ms from here. -/
def execPpsOutPulse (s : State) : Host.Outcome State Fault Refusal :=
  if s.pwr.off || s.reg 0x4411 0 ≠ 1 || s.time.toNat % 1000000000 ≠ 0 || s.pwr.pps = some s.time then noEvent s
  else next (s.modPwr fun x => { x with pps := some s.time })

def execPpsInEdge (s : State) : Host.Outcome State Fault Refusal := if s.pwr.off then noEvent s else next (s.setReg 0x4410 0 s.time.toNat)

/-! ### The test port (R531) -/

/-- TEST_EN rises: the compute die and the towers are held in reset; the rail enables stay. -/
def execTestEnRise (s : State) : Host.Outcome State Fault Refusal :=
  if s.pwr.off || s.pwr.testEn then noEvent s
  else
    let s := s.holdDie
    next ((s.showPower s.powerState false).modPwr fun x => { x with testEn := true })

/-- TEST_EN falls: a cold reset. What OD 4004h records of it the spec does not say: a free value. -/
def execTestEnFall (s : State) : Host.Outcome State Fault Refusal :=
  if s.pwr.off || !s.pwr.testEn then noEvent s
  else
    let cause := (Config.freeWord s.draws).toNat % 256
    next (State.coldStart { (s.modPwr fun x => { x with testEn := false }) with draws := s.draws + 1 } cause false)

/-- An instruction that the test port accepts. -/
def jtag (i : JtagInstr) (ok : Bool) (s : State) : Host.Outcome State Fault Refusal :=
  if s.pwr.off || !ok then noEvent s
  else
    let s := s.modPwr fun x => { x with jtag := i }
    if i = .idcode then next (s.emit (.scan (some (BitVec.ofNat 32 (s.reg 0x1202 0))))) else next (s.emit (.scan none))

def execBypass (s : State) : Host.Outcome State Fault Refusal := jtag .bypass true s
def execIdcode (s : State) : Host.Outcome State Fault Refusal := jtag .idcode true s
def execSamplePreload (s : State) : Host.Outcome State Fault Refusal := jtag .samplePreload true s
def execExtest (s : State) : Host.Outcome State Fault Refusal := jtag .extest s.pwr.testEn s
def execClamp (s : State) : Host.Outcome State Fault Refusal := jtag .clamp s.pwr.testEn s
def execHighz (s : State) : Host.Outcome State Fault Refusal := jtag .highz s.pwr.testEn s
def execPrivateInstruction (s : State) : Host.Outcome State Fault Refusal := jtag .own (s.pwr.testEn && bit (s.reg 0x2200 0) 0) s

end Sys2Proof.Machine
end

