-- ==== Sys2Proof/Machine/Dispatch.lean ====
section
/-!
DEFINITION. One arm per command: each is one call of the command's meaning.
-/
namespace Sys2Proof.Machine

/-- The effect of a command on everything but the queue. -/
def exec (i : Instr) (s : State) : Host.Outcome State Fault Refusal :=
  match i with
  | .ctlNop st bad => Sys2Proof.Machine.execCtlNop st bad s
  | .ctlLi st => Sys2Proof.Machine.execCtlLi st s
  | .ctlAdd st => Sys2Proof.Machine.execCtlAdd st s
  | .ctlBr st => Sys2Proof.Machine.execCtlBr st s
  | .ctlBase st => Sys2Proof.Machine.execCtlBase st s
  | .ctlEnd st => Sys2Proof.Machine.execCtlEnd st s
  | .ctlEndFire st => Sys2Proof.Machine.execCtlEndFire st s
  | .unlistedOpcode st => Sys2Proof.Machine.execUnlistedOpcode st s
  | .vatOpen st => Sys2Proof.Machine.execVatOpen st s
  | .vatOpenFire st v => Sys2Proof.Machine.execVatOpenFire st v s
  | .vatFetch st => Sys2Proof.Machine.execVatFetch st s
  | .vatFetchFire st v => Sys2Proof.Machine.execVatFetchFire st v s
  | .vatSlotFull st v slot => Sys2Proof.Machine.execVatSlotFull st v slot s
  | .vatPut st => Sys2Proof.Machine.execVatPut st s
  | .vatPutFire st v => Sys2Proof.Machine.execVatPutFire st v s
  | .putWriteComplete k => Sys2Proof.Machine.execPutWriteComplete k s
  | .slotRelease st v slot => Sys2Proof.Machine.execSlotRelease st v slot s
  | .vatCancel st => Sys2Proof.Machine.execVatCancel st s
  | .vatCancelFire st v => Sys2Proof.Machine.execVatCancelFire st v s
  | .droppedFetchEnd st v slot => Sys2Proof.Machine.execDroppedFetchEnd st v slot s
  | .vatClose st => Sys2Proof.Machine.execVatClose st s
  | .vatCloseFire st v => Sys2Proof.Machine.execVatCloseFire st v s
  | .ringFeed st => Sys2Proof.Machine.execRingFeed st s
  | .ringFeedFire st l => Sys2Proof.Machine.execRingFeedFire st l s
  | .ringTake st => Sys2Proof.Machine.execRingTake st s
  | .ringTakeFire st l => Sys2Proof.Machine.execRingTakeFire st l s
  | .ringAdd st => Sys2Proof.Machine.execRingAdd st s
  | .ringAddFire st l => Sys2Proof.Machine.execRingAddFire st l s
  | .ringFlitArrival st l e => Sys2Proof.Machine.execRingFlitArrival st l e s
  | .ringCreditReturn st l => Sys2Proof.Machine.execRingCreditReturn st l s
  | .ringHeadStall st l => Sys2Proof.Machine.execRingHeadStall st l s
  | .arrShape st => Sys2Proof.Machine.execArrShape st s
  | .arrShapeFire st => Sys2Proof.Machine.execArrShapeFire st s
  | .arrLoad st => Sys2Proof.Machine.execArrLoad st s
  | .arrLoadFire st => Sys2Proof.Machine.execArrLoadFire st s
  | .arrLoadComplete st => Sys2Proof.Machine.execArrLoadComplete st s
  | .arrMma st => Sys2Proof.Machine.execArrMma st s
  | .arrMmaFire st => Sys2Proof.Machine.execArrMmaFire st s
  | .shadowRegistersFree st => Sys2Proof.Machine.execShadowRegistersFree st s
  | .productRowLeavesTree st err => Sys2Proof.Machine.execProductRowLeavesTree st err s
  | .witnessVerdict st => Sys2Proof.Machine.execWitnessVerdict st s
  | .kPassEnd st => Sys2Proof.Machine.execKPassEnd st s
  | .mergeComplete st tile => Sys2Proof.Machine.execMergeComplete st tile s
  | .accOpen st => Sys2Proof.Machine.execAccOpen st s
  | .accOpenFire st => Sys2Proof.Machine.execAccOpenFire st s
  | .accDrain st => Sys2Proof.Machine.execAccDrain st s
  | .accDrainFire st => Sys2Proof.Machine.execAccDrainFire st s
  | .drainComplete st => Sys2Proof.Machine.execDrainComplete st s
  | .vecSplit st => Sys2Proof.Machine.execVecSplit st s
  | .vecSplitFire st => Sys2Proof.Machine.execVecSplitFire st s
  | .vecPro st => Sys2Proof.Machine.execVecPro st s
  | .vecProFire st => Sys2Proof.Machine.execVecProFire st s
  | .vecEpi st => Sys2Proof.Machine.execVecEpi st s
  | .vecEpiFire st => Sys2Proof.Machine.execVecEpiFire st s
  | .vecOp st => Sys2Proof.Machine.execVecOp st s
  | .vecOpFire st => Sys2Proof.Machine.execVecOpFire st s
  | .vecNcomb st => Sys2Proof.Machine.execVecNcomb st s
  | .vecNcombFire st => Sys2Proof.Machine.execVecNcombFire st s
  | .vecSminit st => Sys2Proof.Machine.execVecSminit st s
  | .vecSminitFire st => Sys2Proof.Machine.execVecSminitFire st s
  | .vecRopeLoad st => Sys2Proof.Machine.execVecRopeLoad st s
  | .vecRopeLoadFire st => Sys2Proof.Machine.execVecRopeLoadFire st s
  | .engRoute st => Sys2Proof.Machine.execEngRoute st s
  | .engRouteFire st => Sys2Proof.Machine.execEngRouteFire st s
  | .engXpose st => Sys2Proof.Machine.execEngXpose st s
  | .engXposeFire st => Sys2Proof.Machine.execEngXposeFire st s
  | .engMadder st => Sys2Proof.Machine.execEngMadder st s
  | .engMadderFire st => Sys2Proof.Machine.execEngMadderFire st s
  | .netSend st => Sys2Proof.Machine.execNetSend st s
  | .netSendFire st => Sys2Proof.Machine.execNetSendFire st s
  | .morWait st => Sys2Proof.Machine.execMorWait st s
  | .morWaitFire st => Sys2Proof.Machine.execMorWaitFire st s
  | .morAdd st => Sys2Proof.Machine.execMorAdd st s
  | .morAddFire st => Sys2Proof.Machine.execMorAddFire st s
  | .morSet st => Sys2Proof.Machine.execMorSet st s
  | .morSetFire st => Sys2Proof.Machine.execMorSetFire st s
  | .morRead st => Sys2Proof.Machine.execMorRead st s
  | .morReadFire st => Sys2Proof.Machine.execMorReadFire st s
  | .mordantOperationArrival k => Sys2Proof.Machine.execMordantOperationArrival k s
  | .mordantTimeout st u => Sys2Proof.Machine.execMordantTimeout st u s
  | .chkKat st => Sys2Proof.Machine.execChkKat st s
  | .chkKatFire st => Sys2Proof.Machine.execChkKatFire st s
  | .testSliceEnd st b => Sys2Proof.Machine.execTestSliceEnd st b s
  | .directTestSlice st => Sys2Proof.Machine.execDirectTestSlice st s
  | .katQueueFill st count => Sys2Proof.Machine.execKatQueueFill st count s
  | .idleStationRotation st fail => Sys2Proof.Machine.execIdleStationRotation st fail s
  | .routeDescriptorArrival g => Sys2Proof.Machine.execRouteDescriptorArrival g s
  | .routeGather g p e => Sys2Proof.Machine.execRouteGather g p e s
  | .routeCombine g p e => Sys2Proof.Machine.execRouteCombine g p e s
  | .routeDescriptorComplete g p => Sys2Proof.Machine.execRouteDescriptorComplete g p s
  | .transposeDescriptorArrival t => Sys2Proof.Machine.execTransposeDescriptorArrival t s
  | .transposeRun t p e => Sys2Proof.Machine.execTransposeRun t p e s
  | .transposeComplete t p => Sys2Proof.Machine.execTransposeComplete t p s
  | .madderDescriptorArrival t => Sys2Proof.Machine.execMadderDescriptorArrival t s
  | .madderAdaptiveUpdate t p e => Sys2Proof.Machine.execMadderAdaptiveUpdate t p e s
  | .madderMomentumUpdate t p e => Sys2Proof.Machine.execMadderMomentumUpdate t p e s
  | .madderComplete t p => Sys2Proof.Machine.execMadderComplete t p s
  | .towerRead k i0 e => Sys2Proof.Machine.execTowerRead k i0 e s
  | .towerWrite k i0 e => Sys2Proof.Machine.execTowerWrite k i0 e s
  | .accumulatingWrite k i0 e => Sys2Proof.Machine.execAccumulatingWrite k i0 e s
  | .maintenanceWindow t c e => Sys2Proof.Machine.execMaintenanceWindow t c e s
  | .bankCopyComplete t c => Sys2Proof.Machine.execBankCopyComplete t c s
  | .towerLoss t => Sys2Proof.Machine.execTowerLoss t s
  | .retiredTowerAccess a => Sys2Proof.Machine.execRetiredTowerAccess a s
  | .stashRead k i0 e => Sys2Proof.Machine.execStashRead k i0 e s
  | .stashWrite k i0 => Sys2Proof.Machine.execStashWrite k i0 s
  | .securedBlockWrite t p e => Sys2Proof.Machine.execSecuredBlockWrite t p e s
  | .drainRead t p blk e => Sys2Proof.Machine.execDrainRead t p blk e s
  | .blockDrainComplete t p blk => Sys2Proof.Machine.execBlockDrainComplete t p blk s
  | .copyBackGranule t p blk g e => Sys2Proof.Machine.execCopyBackGranule t p blk g e s
  | .flitArrivalAtRouter node inp f => Sys2Proof.Machine.execFlitArrivalAtRouter node inp f s
  | .frameMark => Sys2Proof.Machine.execFrameMark s
  | .transferStart st u => Sys2Proof.Machine.execTransferStart st u s
  | .windowMark => Sys2Proof.Machine.execWindowMark s
  | .sightGapDeferredCheck port => Sys2Proof.Machine.execSightGapDeferredCheck port s
  | .holdStallLimit p => Sys2Proof.Machine.execHoldStallLimit p s
  | .testShareSpanEnd p => Sys2Proof.Machine.execTestShareSpanEnd p s
  | .stationClockSettingWrite via p mhz => Sys2Proof.Machine.execStationClockSettingWrite via p mhz s
  | .clockSettingChange p => Sys2Proof.Machine.execClockSettingChange p s
  | .replicaTrigger i0 => Sys2Proof.Machine.execReplicaTrigger i0 s
  | .hangDetected x => Sys2Proof.Machine.execHangDetected x s
  | .crossingRecalibrated x pass => Sys2Proof.Machine.execCrossingRecalibrated x pass s
  | .timeSet via value => Sys2Proof.Machine.execTimeSet via value s
  | .timeSetApplied => Sys2Proof.Machine.execTimeSetApplied s
  | .referenceLoss => Sys2Proof.Machine.execReferenceLoss s
  | .referenceLock => Sys2Proof.Machine.execReferenceLock s
  | .holdoverCrossCheck ok => Sys2Proof.Machine.execHoldoverCrossCheck ok s
  | .blockSlot port slot e => Sys2Proof.Machine.execBlockSlot port slot e s
  | .blockArrival port b => Sys2Proof.Machine.execBlockArrival port b s
  | .portAcceptsBlock port e => Sys2Proof.Machine.execPortAcceptsBlock port e s
  | .ackTimeout port => Sys2Proof.Machine.execAckTimeout port s
  | .receiveSilence port => Sys2Proof.Machine.execReceiveSilence port s
  | .holdSightGap port => Sys2Proof.Machine.execHoldSightGap port s
  | .lossOfSignal port lane => Sys2Proof.Machine.execLossOfSignal port lane s
  | .lossPersists port => Sys2Proof.Machine.execLossPersists port s
  | .laneDegradeWindow port lane w => Sys2Proof.Machine.execLaneDegradeWindow port lane w s
  | .spareLockLoss port => Sys2Proof.Machine.execSpareLockLoss port s
  | .spareCodewordDecode port lane => Sys2Proof.Machine.execSpareCodewordDecode port lane s
  | .trainingSetsDetected port sets => Sys2Proof.Machine.execTrainingSetsDetected port sets s
  | .equaliseComplete port rxOut txOut => Sys2Proof.Machine.execEqualiseComplete port rxOut txOut s
  | .equaliseTimeout port => Sys2Proof.Machine.execEqualiseTimeout port s
  | .alignComplete port => Sys2Proof.Machine.execAlignComplete port s
  | .alignTimeout port => Sys2Proof.Machine.execAlignTimeout port s
  | .authTimeout port => Sys2Proof.Machine.execAuthTimeout port s
  | .trainingRetry port rxFail txFail => Sys2Proof.Machine.execTrainingRetry port rxFail txFail s
  | .linkControlRepeat port => Sys2Proof.Machine.execLinkControlRepeat port s
  | .linkControlAck port amid => Sys2Proof.Machine.execLinkControlAck port amid s
  | .hello port ids h => Sys2Proof.Machine.execHello port ids h s
  | .chain port ids ok => Sys2Proof.Machine.execChain port ids ok s
  | .proof port ids ok => Sys2Proof.Machine.execProof port ids ok s
  | .verdict port ids code => Sys2Proof.Machine.execVerdict port ids code s
  | .swap port ids lane => Sys2Proof.Machine.execSwap port ids lane s
  | .swapDone port ids lane => Sys2Proof.Machine.execSwapDone port ids lane s
  | .spareBad port ids => Sys2Proof.Machine.execSpareBad port ids s
  | .retrain port ids => Sys2Proof.Machine.execRetrain port ids s
  | .goodbye port ids => Sys2Proof.Machine.execGoodbye port ids s
  | .portCommandRetrain via port => Sys2Proof.Machine.execPortCommandRetrain via port s
  | .portCommandOrderlyDown via port => Sys2Proof.Machine.execPortCommandOrderlyDown via port s
  | .portCommandReleaseHeld via port => Sys2Proof.Machine.execPortCommandReleaseHeld via port s
  | .portEnableWrite via port v => Sys2Proof.Machine.execPortEnableWrite via port v s
  | .timeSync port => Sys2Proof.Machine.execTimeSync port s
  | .timeReply port => Sys2Proof.Machine.execTimeReply port s
  | .write port e => Sys2Proof.Machine.execWrite port e s
  | .readRequest port e => Sys2Proof.Machine.execReadRequest port e s
  | .readResponse port => Sys2Proof.Machine.execReadResponse port s
  | .mordantAdd port => Sys2Proof.Machine.execMordantAdd port s
  | .mordantSet port => Sys2Proof.Machine.execMordantSet port s
  | .reduce src e => Sys2Proof.Machine.execReduce src e s
  | .multicastWrite port e => Sys2Proof.Machine.execMulticastWrite port e s
  | .fence port => Sys2Proof.Machine.execFence port s
  | .openWrite port e => Sys2Proof.Machine.execOpenWrite port e s
  | .openReadRequest port e => Sys2Proof.Machine.execOpenReadRequest port e s
  | .openReadResponse port => Sys2Proof.Machine.execOpenReadResponse port s
  | .openMordantAdd port => Sys2Proof.Machine.execOpenMordantAdd port s
  | .openMordantSet port => Sys2Proof.Machine.execOpenMordantSet port s
  | .credit port => Sys2Proof.Machine.execCredit port s
  | .managementTunnel port answers => Sys2Proof.Machine.execManagementTunnel port answers s
  | .scheduledBlockTransit port => Sys2Proof.Machine.execScheduledBlockTransit port s
  | .openBlockForward port => Sys2Proof.Machine.execOpenBlockForward port s
  | .commitRecordArrival port p step => Sys2Proof.Machine.execCommitRecordArrival port p step s
  | .partnerCompletion p => Sys2Proof.Machine.execPartnerCompletion p s
  | .commitTimeout p => Sys2Proof.Machine.execCommitTimeout p s
  | .securingMordantChange p e => Sys2Proof.Machine.execSecuringMordantChange p e s
  | .nandProgramComplete p ok => Sys2Proof.Machine.execNandProgramComplete p ok s
  | .nandEraseComplete p ok => Sys2Proof.Machine.execNandEraseComplete p ok s
  | .nandReadComplete p blk ok => Sys2Proof.Machine.execNandReadComplete p blk ok s
  | .sharedStoreCommit via p step => Sys2Proof.Machine.execSharedStoreCommit via p step s
  | .restoreArm via p req => Sys2Proof.Machine.execRestoreArm via p req s
  | .restoreBlockLands p blk data => Sys2Proof.Machine.execRestoreBlockLands p blk data s
  | .restoreComplete p => Sys2Proof.Machine.execRestoreComplete p s
  | .partnerTargetWrite via p v answer => Sys2Proof.Machine.execPartnerTargetWrite via p v answer s
  | .sequencerCompareMismatch st => Sys2Proof.Machine.execSequencerCompareMismatch st s
  | .stewardLockstepMismatch => Sys2Proof.Machine.execStewardLockstepMismatch s
  | .observationExpiry st => Sys2Proof.Machine.execObservationExpiry st s
  | .riskEstimateUpdate => Sys2Proof.Machine.execRiskEstimateUpdate s
  | .cleanHourTick => Sys2Proof.Machine.execCleanHourTick s
  | .logAcknowledge via seq => Sys2Proof.Machine.execLogAcknowledge via seq s
  | .jobLoad via p req iso e => Sys2Proof.Machine.execJobLoad via p req iso e s
  | .jobEnd via p => Sys2Proof.Machine.execJobEnd via p s
  | .jobUnload via p => Sys2Proof.Machine.execJobUnload via p s
  | .stewardRestart via => Sys2Proof.Machine.execStewardRestart via s
  | .watchdogExpiry => Sys2Proof.Machine.execWatchdogExpiry s
  | .runtimeReady boot => Sys2Proof.Machine.execRuntimeReady boot s
  | .runtimeStartTimeout => Sys2Proof.Machine.execRuntimeStartTimeout s
  | .imageStagingWrite via kind off data commit => Sys2Proof.Machine.execImageStagingWrite via kind off data commit s
  | .firmwareVerify via bootSig runSig => Sys2Proof.Machine.execFirmwareVerify via bootSig runSig s
  | .firmwareActivate via => Sys2Proof.Machine.execFirmwareActivate via s
  | .raiseRollbackFloor via => Sys2Proof.Machine.execRaiseRollbackFloor via s
  | .firmwareRevert via => Sys2Proof.Machine.execFirmwareRevert via s
  | .managementSessionHandshake t c => Sys2Proof.Machine.execManagementSessionHandshake t c s
  | .sessionIdleTimeout n => Sys2Proof.Machine.execSessionIdleTimeout n s
  | .dictionaryRead via r => Sys2Proof.Machine.execDictionaryRead via r s
  | .dictionaryWrite via r data => Sys2Proof.Machine.execDictionaryWrite via r data s
  | .domainWriteSegment via r data => Sys2Proof.Machine.execDomainWriteSegment via r data s
  | .domainWriteCommit via r data iso e => Sys2Proof.Machine.execDomainWriteCommit via r data iso e s
  | .getVersion via => Sys2Proof.Machine.execGetVersion via s
  | .getCapabilities via => Sys2Proof.Machine.execGetCapabilities via s
  | .negotiateAlgorithms via => Sys2Proof.Machine.execNegotiateAlgorithms via s
  | .getDigests via => Sys2Proof.Machine.execGetDigests via s
  | .getCertificate via slot off len => Sys2Proof.Machine.execGetCertificate via slot off len s
  | .challenge via nonce => Sys2Proof.Machine.execChallenge via nonce s
  | .getMeasurements via index signed nonce => Sys2Proof.Machine.execGetMeasurements via index signed nonce s
  | .keyExchange via => Sys2Proof.Machine.execKeyExchange via s
  | .finish via ok => Sys2Proof.Machine.execFinish via ok s
  | .heartbeat via => Sys2Proof.Machine.execHeartbeat via s
  | .keyUpdate via => Sys2Proof.Machine.execKeyUpdate via s
  | .endSession via => Sys2Proof.Machine.execEndSession via s
  | .mailboxDoorbell pf req w1c => Sys2Proof.Machine.execMailboxDoorbell pf req w1c s
  | .tunnelReassemblyTimeout src msg => Sys2Proof.Machine.execTunnelReassemblyTimeout src msg s
  | .tunnelResend k => Sys2Proof.Machine.execTunnelResend k s
  | .saveConfiguration via => Sys2Proof.Machine.execSaveConfiguration via s
  | .discardUnsaved via => Sys2Proof.Machine.execDiscardUnsaved via s
  | .restoreFactory via => Sys2Proof.Machine.execRestoreFactory via s
  | .restoreFactoryRepairMaps via => Sys2Proof.Machine.execRestoreFactoryRepairMaps via s
  | .powerOn => Sys2Proof.Machine.execPowerOn s
  | .coldResetInput => Sys2Proof.Machine.execColdResetInput s
  | .coldReset via => Sys2Proof.Machine.execColdReset via s
  | .warmReset via => Sys2Proof.Machine.execWarmReset via s
  | .seamReset via => Sys2Proof.Machine.execSeamReset via s
  | .partitionReset via p => Sys2Proof.Machine.execPartitionReset via p s
  | .jobReset via p => Sys2Proof.Machine.execJobReset via p s
  | .portReset via port => Sys2Proof.Machine.execPortReset via port s
  | .powerRequestHalfPark via h force => Sys2Proof.Machine.execPowerRequestHalfPark via h force s
  | .parkTowersIdle => Sys2Proof.Machine.execParkTowersIdle s
  | .parkTowerTimeout => Sys2Proof.Machine.execParkTowerTimeout s
  | .seamDrained => Sys2Proof.Machine.execSeamDrained s
  | .seamDrainTimeout => Sys2Proof.Machine.execSeamDrainTimeout s
  | .powerRequestRun via force => Sys2Proof.Machine.execPowerRequestRun via force s
  | .powerRequestDeepPark via force => Sys2Proof.Machine.execPowerRequestDeepPark via force s
  | .powerRequestStewardOnly via force => Sys2Proof.Machine.execPowerRequestStewardOnly via force s
  | .pgAssert r => Sys2Proof.Machine.execPgAssert r s
  | .pgTimeout r => Sys2Proof.Machine.execPgTimeout r s
  | .railDecayed r => Sys2Proof.Machine.execRailDecayed r s
  | .fabricAdmission via v => Sys2Proof.Machine.execFabricAdmission via v s
  | .orderlyRemoval via force => Sys2Proof.Machine.execOrderlyRemoval via force s
  | .removalDrainComplete => Sys2Proof.Machine.execRemovalDrainComplete s
  | .removalNotice dev => Sys2Proof.Machine.execRemovalNotice dev s
  | .bar2MemoryRead pf off len e => Sys2Proof.Machine.execBar2MemoryRead pf off len e s
  | .bar2MemoryWrite pf off data ep e => Sys2Proof.Machine.execBar2MemoryWrite pf off data ep e s
  | .atomicopFetchadd pf off wide v e => Sys2Proof.Machine.execAtomicopFetchadd pf off wide v e s
  | .atomicopSwap pf off wide v e => Sys2Proof.Machine.execAtomicopSwap pf off wide v e s
  | .atomicopCas pf off wide cmp v e => Sys2Proof.Machine.execAtomicopCas pf off wide cmp v e s
  | .imageApertureRead pf off len e => Sys2Proof.Machine.execImageApertureRead pf off len e s
  | .imageApertureWrite pf off data e => Sys2Proof.Machine.execImageApertureWrite pf off data e s
  | .mordantDoorbellWrite pf off size v => Sys2Proof.Machine.execMordantDoorbellWrite pf off size v s
  | .mordantDoorbellRead pf off size => Sys2Proof.Machine.execMordantDoorbellRead pf off size s
  | .watchArm pf i0 thr mor w1c => Sys2Proof.Machine.execWatchArm pf i0 thr mor w1c s
  | .watchFire pf i0 => Sys2Proof.Machine.execWatchFire pf i0 s
  | .perstNAssert => Sys2Proof.Machine.execPerstNAssert s
  | .hotReset => Sys2Proof.Machine.execHotReset s
  | .pcieLinkDown => Sys2Proof.Machine.execPcieLinkDown s
  | .functionLevelReset pf cfg => Sys2Proof.Machine.execFunctionLevelReset pf cfg s
  | .d3hotEntry pf => Sys2Proof.Machine.execD3hotEntry pf s
  | .ptmRequest hostTime => Sys2Proof.Machine.execPtmRequest hostTime s
  | .managementModeWrite via m v => Sys2Proof.Machine.execManagementModeWrite via m v s
  | .smbusReadInsertionState => Sys2Proof.Machine.execSmbusReadInsertionState s
  | .smbusReadPowerState => Sys2Proof.Machine.execSmbusReadPowerState s
  | .smbusReadStatus => Sys2Proof.Machine.execSmbusReadStatus s
  | .smbusReadDieSensor => Sys2Proof.Machine.execSmbusReadDieSensor s
  | .smbusReadDramSensor => Sys2Proof.Machine.execSmbusReadDramSensor s
  | .smbusReadPackagePower => Sys2Proof.Machine.execSmbusReadPackagePower s
  | .smbusReadDeviceId => Sys2Proof.Machine.execSmbusReadDeviceId s
  | .smbusReadSerial => Sys2Proof.Machine.execSmbusReadSerial s
  | .alertResponseAddressRead => Sys2Proof.Machine.execAlertResponseAddressRead s
  | .smbusWrite => Sys2Proof.Machine.execSmbusWrite s
  | .ppsOutPulse => Sys2Proof.Machine.execPpsOutPulse s
  | .ppsInEdge => Sys2Proof.Machine.execPpsInEdge s
  | .testEnRise => Sys2Proof.Machine.execTestEnRise s
  | .testEnFall => Sys2Proof.Machine.execTestEnFall s
  | .bypass => Sys2Proof.Machine.execBypass s
  | .idcode => Sys2Proof.Machine.execIdcode s
  | .samplePreload => Sys2Proof.Machine.execSamplePreload s
  | .extest => Sys2Proof.Machine.execExtest s
  | .clamp => Sys2Proof.Machine.execClamp s
  | .highz => Sys2Proof.Machine.execHighz s
  | .privateInstruction => Sys2Proof.Machine.execPrivateInstruction s
  | .powerLimitCheck watts => Sys2Proof.Machine.execPowerLimitCheck watts s
  | .coreRailStepDecay h => Sys2Proof.Machine.execCoreRailStepDecay h s
  | .sensorSample reading => Sys2Proof.Machine.execSensorSample reading s
  | .throttleStep h => Sys2Proof.Machine.execThrottleStep h s
  | .throttleRecoveryStep h => Sys2Proof.Machine.execThrottleRecoveryStep h s
  | .railOutOfRange r mv amps => Sys2Proof.Machine.execRailOutOfRange r mv amps s
  | .pgDeassert r => Sys2Proof.Machine.execPgDeassert r s
  | .pmbusCommandFailure h => Sys2Proof.Machine.execPmbusCommandFailure h s
  | .stewardRailFailure => Sys2Proof.Machine.execStewardRailFailure s
  | .stwResetNRelease boot => Sys2Proof.Machine.execStwResetNRelease boot s
  | .perstNDeassert => Sys2Proof.Machine.execPerstNDeassert s
  | .d0Entry pf => Sys2Proof.Machine.execD0Entry pf s
  | .pcieLinkUp rate width cfg => Sys2Proof.Machine.execPcieLinkUp rate width cfg s
  | .managementLinkUp m tenG => Sys2Proof.Machine.execManagementLinkUp m tenG s
  | .managementLinkDown m => Sys2Proof.Machine.execManagementLinkDown m s
  | .managementSessionClose n => Sys2Proof.Machine.execManagementSessionClose n s
  | .notificationRingTailWrite pf v w1c => Sys2Proof.Machine.execNotificationRingTailWrite pf v w1c s
  | .computeDieReady failed => Sys2Proof.Machine.execComputeDieReady failed s
  | .replicaWarningLevel i0 => Sys2Proof.Machine.execReplicaWarningLevel i0 s
  | .coreRailVoutCommand h => Sys2Proof.Machine.execCoreRailVoutCommand h s
  | .morReadRegisterWritten st => Sys2Proof.Machine.execMorReadRegisterWritten st s
  | .vecOpComplete st => Sys2Proof.Machine.execVecOpComplete st s
  | .coefficientRequest port lane set => Sys2Proof.Machine.execCoefficientRequest port lane set s

end Sys2Proof.Machine
end

