-- ==== Sys2Proof/Machine/Tick.lean ====
section
/-!
DEFINITION. What time alone does: the Krytno counter counts, a beat ends with its frame, a port that may train leaves DOWN, and host requests that nothing holds any more are served (R18, R164, R289, R294,
R321).
-/
namespace Sys2Proof.Machine

/-- A port in DOWN whose conditions hold goes to DETECT (R321). -/
def State.tickPort (s : State) (q : PortId) : State := if s.portState q = stDown && s.mayTrain q then s.setPortState q stDetect else s

/-- A frame of 512 ns is over, and the beat with it: its records are written (R18, assumption log 111). -/
def State.endOfFrame (s : State) : State := if s.time.toNat % 512 = 0 then s.beatEnd else s

/-- One nanosecond (assumption log 2). In OFF the counter stands (R490). -/
def tick (s : State) : State := if s.pwr.off then s else ((List.finRange 28).foldl State.tickPort { s with time := s.time + 1 }).endOfFrame.serveHeld

end Sys2Proof.Machine
end

