-- ==== Sys2Proof/Safety.lean ====
section
/-!
DEFINITION. The terms in which the statements speak: memory and register maps in canonical form, the fault log in order, and an instruction that is
next at a station and enters its queues.
-/
namespace Sys2Proof.Machine

/-- Memory in canonical form: addresses strictly rising, no byte listed at the value that an unlisted address reads as. -/
def Memory.wf (m : Sparse Byte) : Bool := swf 0 m

/-- Keys strictly rising from `lo`. -/
def risingFrom {α : Type} : Nat → Sparse α → Bool
  | _, [] => true
  | lo, e :: m => decide (lo ≤ e.1) && risingFrom (e.1 + 1) m

/-- The registers of the dictionary, each listed once. -/
def State.regsWf (s : State) : Bool := risingFrom 0 s.dict

/-- Records of the log from the oldest on, numbered from `n`. -/
def numbered : W16 → List FaultRec → Bool
  | _, [] => true
  | n, r :: l => decide (r.seq = n) && numbered (n + 1) l

/-- The fault log of R413 and R415: at most 4,096 records in the order of their SEQ, the next one following the newest; the acknowledged records are in it; at
most 1,024 records wait on the control spine (Table 15-4). -/
def State.logWf (s : State) : Bool :=
  decide (s.faults.length ≤ 4096) && numbered (s.seqNext - BitVec.ofNat 16 s.faults.length) s.faults &&
  decide (s.acked ≤ s.faults.length) && decide (s.faultHold.length ≤ 1024)

/-- The newest record: in the log, or on the control spine where the steward is restarting (`up` false). -/
def State.newest (s : State) (up : Bool) : Option FaultRec := if up then s.faults.getLast? else s.faultHold.getLast?

/-- The step from `s` to `t` ends with a record of the class, detail, location and program counter given, charged to partition `p` (or outside every job), at the time of the step (Table
13-6): among the records of its beat, which are written and end their job when the beat is over (R18), or newest in the log. The same fault found twice in a beat is one record. -/
def Records (s t : State) (p : Option Part) (cls detail : Nat) (x : Site) : Prop :=
  ∃ r, ((r ∈ t.beat ∧ (r.time = s.time ∨ r ∈ s.beat)) ∨ (t.newest s.stewardUp = some r ∧ r.time = s.time)) ∧ r.cls = BitVec.ofNat 8 cls ∧ r.detail = BitVec.ofNat 16 detail ∧ r.part = p.getD 0 ∧
    r.nojob = (p.isNone || decide ((s.prt (p.getD 0)).jobState = 0)) ∧
    r.lkind = x.lkind ∧ r.loc = BitVec.ofNat 8 x.loc ∧ r.loc2 = BitVec.ofNat 16 x.loc2 ∧ r.pc = BitVec.ofNat 32 x.pc

/-- The next instruction of the station is `w`, of opcode `op`, for the job of partition `p`, and nothing before the instruction's own checks stops it: it
lies in the program region and holds no poison (R216, R217), no register or queue makes it wait (R218, R219), no reserved bit is set (R246), it consumes no poison
(R411) and its calendar block passes (R249). -/
def State.readyFor (s : State) (st : St) (p : Part) (op : Nat) (w : W128) : Bool :=
  decide (s.issuing st = some p) && decide ((s.stn st).sq.pc < (s.prt p).prog * 256) &&
  decide ((s.stn st).instrAt (s.prt p).prog (s.stn st).sq.pc = (w, false)) && decide (opc w = op) &&
  !waitsPending (s.stn st).sq w && !(s.stn st).full (unitsFor w) && reservedClear w && !readsPoison (s.stn st).sq w &&
  !calFault s p (s.stn st).sq w

/-- A request `r` with the value `data` is served over `via`: the steward answers this path, the request is there and is no repeat, and the entry is served in the mode
the steward is in (R450, R477, R478). -/
def State.serves (s : State) (via : Via) (r : DictReq) (data : List Byte) : Bool :=
  s.answers via && s.asks via r data && (s.keptReply via).isNone && !(decide (s.reg 0x1030 0 = 4) && !inRecovery r.index.toNat)

/-- A write request that is served comes to its entry's own checks: those of access, role and header pass (R550). -/
def State.acceptsReq (s : State) (via : Via) (r : DictReq) (data : List Byte) : Bool := s.serves via r data && decide (s.writeStatus (s.roleOf via) r = 0)

/-- So for a plain write of a whole numeric entry. -/
def State.accepts (s : State) (via : Via) (idx sub : Nat) (data : List Byte) : Bool := s.acceptsReq via (writeReq idx sub data) data

/-- The state in which that request has been answered with a status (R477). -/
def State.answered (s : State) (via : Via) (idx sub : Nat) (data : List Byte) (status : Nat) : State := s.reply via (writeReq idx sub data) status []

/-- A write of a whole DOMAIN value in one segment with COMMIT. -/
def wholeReq (idx sub : Nat) (data : List Byte) : DictReq := { writeReq idx sub data with commit := true }

/-- The state in which that write has been answered, and its staging copy is gone (R477). -/
def State.answeredWhole (s : State) (via : Via) (idx sub : Nat) (data : List Byte) (status : Nat) : State :=
  (s.reply via (wholeReq idx sub data) status []).unstage via idx sub

/-- An SPDM message has come over `via`: on a management session, it keeps the session alive (R468). -/
def State.heardOn (s : State) (via : SpdmVia) : State :=
  match via with
  | .session n => s.modSess n fun x => { x with seen := s.time }
  | .doe _ => s

/-- The block `b` of type `tt` stands first among the scheduled blocks delivered at port `q`, for a loaded job of the port's partition `p`; its route entry `e` accepts it
and ends here, its mesh slot lies in range (R338, R347, R349), and neither a crossing on its way nor a channel under
maintenance holds it or its result (R164, R289). `s'` is the state without the block. -/
structure Delivered (s s' : State) (q : PortId) (tt : Nat) (p : Part) (b : Block) (e : Nat) : Prop where
  head : s.takeSched q tt = some (b, s')
  owner : s.portOwner q = some p
  loaded : s.loaded p = true
  entry : s.arrivalEntry p q b (decide (tt = 5)) = some e
  final : bits e 126 125 ≠ 1
  slot : (mu b.slot + bits e 76 69) % 1024 ≤ 959
  here : s'.blockWaits q b = false
  room : tt = 5 → s'.reduceWaits p (bits e 44 37) b = false

/-- The instruction as its queues hold it: issue number, pc, word and the registers read at issue (R218, R219). -/
def Station.entryFor (x : Station) (w : W128) : Entry := ⟨x.sq.nextSeq, x.sq.pc, w, x.sq.k, beatOf x.sq w, false, 0⟩

/-- The ARR.MMA `m` feeds its next operand row from the station `x` with the weights `wt` (R68, R265): it is the one in progress, or the one at the head of the queue,
which leaves the queue and swaps in the shadow registers if it asks for it. -/
def MmaAt (s : State) (st : St) (m : MmaRec) (wt : Weights) (x : Station) : Prop :=
  ((s.stn st).arr.mmas.getLast? = some m ∧ (s.stn st).arr.active = some wt ∧ m.fed < mmaRows m.e.word ∧ x = s.stn st) ∨
  ∃ e fa, (∀ q, (s.stn st).arr.mmas.getLast? = some q → mmaRows q.e.word ≤ q.fed) ∧ s.headOp st .array 0x32 = some e ∧
    (if fbit e.word 23 then (s.stn st).arr.shadow else (s.stn st).arr.active) = some wt ∧
    (if mmaDest e.word then mmaAcc (s.stn st) e.word
      else (vget (s.stn st).tiles (fin (mmaTile0 e.word))).bind fun t => Fmt.ofCode t.bk.fmt) = some fa ∧
    tilesFired (s.stn st) e.word = true ∧ (fbit e.word 23 = true → anyPoison wt.data = false) ∧ m = ⟨e, 0, [], fa, false⟩ ∧
    x = ((s.stn st).pop .array).modArr fun a => { a with
      mmas := a.mmas ++ [m]
      passes := a.passes ++ (if mmaDest e.word then [] else
        (List.range (mmaTiles e.word)).map fun j => ⟨e.seq, fin (mmaTile0 e.word + j), mmaM e.word, mmaM e.word, false⟩)
      active := some wt, shadow := if fbit e.word 23 then none else a.shadow, swapWait := a.swapWait || fbit e.word 23 }

/-- A drain writes row `r` of the ACC.DRAIN `e` from the station `x` (R82, R266): the next row of the one in progress, or the first of the one at the head of the queue,
which leaves the queue. -/
def DrainAt (s : State) (st : St) (e : Entry) (r : Nat) (x : Station) : Prop :=
  ((s.stn st).drain = some ⟨e, r⟩ ∧ x = s.stn st) ∨
  ((s.stn st).drain = none ∧ s.headOp st .acc 0x41 = some e ∧ drainStarts (s.stn st) e = true ∧ r = 0 ∧ x = (s.stn st).pop .acc)

/-- A VEC.OP runs row `m.row` of `m` from the station `x` (R129, R270): the next row of the one in progress, or the first of the one at the head of the queue, whose micro-ops are
read as it leaves the queue, once the pool is free of drains that were issued before it. -/
def VopAt (s : State) (st : St) (m : VecRec) (x : Station) : Prop :=
  ((s.stn st).vec.op = some m ∧ m.row < vopRows m.e.word ∧ x = s.stn st) ∨
  ∃ e us, (s.stn st).vec.op = none ∧ s.headOp st .vec 0x53 = some e ∧ epiBusy (s.stn st) = false ∧ (s.stn st).arr.slice = none ∧
    (∀ q ∈ (s.stn st).accQ, opc q.word = 0x41 → drainEpi q.word = true → e.seq ≤ q.seq) ∧
    uopList (s.stn st) e = some us ∧ us.all (uopAllowed .op) = true ∧ m = ⟨e, us, 0⟩ ∧ x = (s.stn st).pop .vec

/-- The instruction `w` has been issued: it stands last in each of its queues and in no other, the next pc and the next issue number follow, the scalar
registers keep their values, and no other station has changed (R216, R218, R219). -/
structure IssuedAt (s t : State) (st : St) (w : W128) : Prop where
  queued : ∀ u, (t.stn st).queue u = (s.stn st).queue u ++ (if unitsFor w |>.contains u then [(s.stn st).entryFor w] else [])
  pc : (t.stn st).sq.pc = (s.stn st).sq.pc + 1
  number : (t.stn st).sq.nextSeq = (s.stn st).sq.nextSeq + 1
  regs : (t.stn st).sq.k = (s.stn st).sq.k
  others : ∀ a, a ≠ st → t.stn a = s.stn a

end Sys2Proof.Machine

/-! ### What a command may touch -/

/-- The commands in which an instruction issues (R216, R217, R247). -/
def Sys2Proof.Instr.issues : Sys2Proof.Instr → Bool
  | .ctlNop .. | .ctlLi .. | .ctlAdd .. | .ctlBr .. | .ctlBase .. | .ctlEnd .. | .vatOpen .. | .vatFetch .. | .vatPut .. | .vatCancel ..
  | .vatClose .. | .ringFeed .. | .ringTake .. | .ringAdd .. | .arrShape .. | .arrLoad .. | .arrMma .. | .accOpen .. | .accDrain .. | .vecSplit ..
  | .vecPro .. | .vecEpi .. | .vecOp .. | .vecNcomb .. | .vecSminit .. | .vecRopeLoad .. | .engRoute .. | .engXpose .. | .engMadder .. | .netSend ..
  | .morWait .. | .morAdd .. | .morSet .. | .morRead .. | .chkKat .. | .unlistedOpcode .. => true
  | _ => false

/-- The commands whose meaning may store into a tower or a stash, correct or poison what they hold, or clear them (R161, R166, R167, R211, R213, R499). -/
def Sys2Proof.Instr.mayStore : Sys2Proof.Instr → Bool
  | .routeGather .. | .routeCombine .. | .transposeRun .. | .madderAdaptiveUpdate .. | .madderMomentumUpdate .. | .towerRead .. | .towerWrite ..
  | .accumulatingWrite .. | .maintenanceWindow .. | .stashRead .. | .stashWrite .. | .securedBlockWrite .. | .copyBackGranule ..
  | .drainRead .. | .readRequest .. | .openReadRequest .. | .securingMordantChange .. | .bar2MemoryRead .. | .imageApertureRead ..
  | .portAcceptsBlock .. | .write .. | .reduce .. | .multicastWrite .. | .openWrite .. | .restoreBlockLands .. | .jobLoad .. | .runtimeReady ..
  | .runtimeStartTimeout .. | .domainWriteCommit .. | .powerOn .. | .coldResetInput .. | .coldReset .. | .warmReset .. | .partitionReset ..
  | .jobReset .. | .seamDrained .. | .powerRequestRun .. | .powerRequestDeepPark .. | .powerRequestStewardOnly .. | .pgAssert .. | .pgTimeout ..
  | .railDecayed .. | .removalDrainComplete .. | .bar2MemoryWrite .. | .atomicopFetchadd .. | .atomicopSwap .. | .atomicopCas ..
  | .imageApertureWrite .. | .testEnRise .. | .testEnFall .. | .sensorSample .. | .railOutOfRange .. | .pgDeassert .. | .pmbusCommandFailure ..
  | .stewardRailFailure .. | .stwResetNRelease .. | .computeDieReady .. => true
  | _ => false

namespace Sys2Proof.Machine

/-- All that issue leaves alone, whatever it answers: memory and its poison, mordants, engines and what is on its way, the clock and power of the package, the
ports and the dictionary's DOMAIN values. -/
structure KeptAtIssue (s t : State) : Prop where
  mem : t.mem = s.mem
  poison : t.poison = s.poison
  stashPoison : t.stashPoison = s.stashPoison
  mordants : t.mordants = s.mordants
  writes : t.writes = s.writes
  morOps : t.morOps = s.morOps
  descs : t.descs = s.descs
  xfers : t.xfers = s.xfers
  time : t.time = s.time
  clk : t.clk = s.clk
  pwr : t.pwr = s.pwr
  perst : t.perst = s.perst
  ports : t.ports = s.ports
  fab : t.fab = s.fab
  doms : t.doms = s.doms
  savedDoms : t.savedDoms = s.savedDoms
  draws : t.draws = s.draws
  pending : t.pending = s.pending

/-- Memory, poison, mordants and the dictionary's registers in their one canonical form each. -/
structure State.Canonical (s : State) : Prop where
  mem : Memory.wf s.mem = true
  poison : Memory.wf s.poison = true
  stashPoison : s.stashPoison.Pairwise (· < ·)
  mordants : swf mordant0 s.mordants = true
  regs : s.regsWf = true

/-- Only entries of class S have saved values (R16, R473). -/
def State.savedOk (s : State) : Prop := (∀ e ∈ s.saved, isKept .s e.1 = true) ∧ ∀ e ∈ s.savedDoms, isKept .s e.1 = true

/-- The protection set-up of `t` is that of `s`: every entry from OD 2000h to 2FFFh but for the status entry OD 2FFEh (R453). -/
def SameSetup (s t : State) : Prop :=
  ∀ idx sub, 0x2000 ≤ idx → idx ≤ 0x2FFF → idx ≠ 0x2FFE → sub < 256 → t.reg idx sub = s.reg idx sub ∧ t.dom idx sub = s.dom idx sub

end Sys2Proof.Machine
end

