-- ==== Sys2Proof/Certificates/Slice0/Obligations.lean ====
section
/-!
DEFINITION. The statements of this slice. Each docstring names the rules of spec/ that it rests on; a sentence that begins “The model's” names what the spec leaves open and the log
entry of the choice.
-/
open Sys2Proof Sys2Proof.Machine

/-- A step takes the command at the front of the queue and runs its meaning on the state with the queue's rest. The queue is the model's (log entry 2). (00_scope.md) -/
def Obligations.StepRunsFrontCommand : Prop :=
  ∀ (c : Instr) (q : List Instr) (s : State), step { s with pending := c :: q } = exec c { s with pending := q }

/-- With an empty queue a step is one nanosecond (the model's choice, log entry 2): the counter counts, a beat ends with its frame (log entry 111), and held host requests are served (log entry 133). In OFF the counter stands. (R294, R490) -/
def Obligations.StepIdleCountsTime : Prop :=
  ∀ s : State, s.pending = [] → ∃ t, step s = .next t ∧
    (s.pwr.off = true → t = s) ∧
    (s.pwr.off = false → ∃ u : State, t = u.serveHeld ∧ (s.hostHeld = [] → t = u) ∧
      u.time = s.time + 1 ∧ u.mem = s.mem ∧ u.poison = s.poison ∧ u.mordants = s.mordants ∧ u.hostHeld = s.hostHeld ∧
      (u.time.toNat % 512 ≠ 0 ∨ s.beat = [] → u.stations = s.stations ∧ u.parts = s.parts ∧ u.faults = s.faults ∧ u.beat = s.beat) ∧
      (u.time.toNat % 512 = 0 → u.beat = []))

/-- The control instructions complete at issue: each changes its station's sequencer and nothing else. (R216, R217, R218, R222, R253) -/
def Obligations.ControlInstructions : Prop :=
  (∀ (s : State) (st : St) (p : Part) (w : W128), s.readyFor st p 0x00 w = true →
    exec (.ctlNop st .none) s = .next (s.modSt st fun x => { x with sq := { x.sq with
      pc := x.sq.pc + 1, nextSeq := x.sq.nextSeq + 1, dist := x.sq.dist + 1 } })) ∧
  (∀ (s : State) (st : St) (p : Part) (w : W128) (bad : SramWord), (s.modSt st fun x => x.sramError bad).readyFor st p 0x00 w = true →
    exec (.ctlNop st bad) s = .next (s.modSt st fun x => let x := x.sramError bad; { x with sq := { x.sq with
      pc := x.sq.pc + 1, nextSeq := x.sq.nextSeq + 1, dist := x.sq.dist + 1 } })) ∧
  (∀ (s : State) (st : St) (p : Part) (bad : SramWord), (s.modSt st fun x => x.sramError bad).issuing st = some p → (s.stn st).sq.pc < (s.prt p).prog * 256 →
    (((s.stn st).sramError bad).instrAt (s.prt p).prog (s.stn st).sq.pc).2 = true →
    ∃ t, exec (.ctlNop st bad) s = .next t ∧ Records s t (s.ownerOf st) 4 0x0400 (siteStation st noLoc2 (s.stn st).sq.pc) ∧
      (t.stn st).sq.pc = (s.stn st).sq.pc ∧ (t.stn st).sq.stopped = true) ∧
  (∀ (s : State) (st : St) (p : Part) (w : W128), s.readyFor st p 0x01 w = true →
    exec (.ctlLi st) s = .next (s.modSt st fun x => { x with sq := { x.sq with
      k := kw x.sq.k (fld w 12 8) (BitVec.ofNat 64 (fld w 127 64)), kPoison := setDel x.sq.kPoison (fld w 12 8)
      pc := x.sq.pc + 1, nextSeq := x.sq.nextSeq + 1, dist := x.sq.dist + 1 } })) ∧
  (∀ (s : State) (st : St) (p : Part) (w : W128), s.readyFor st p 0x02 w = true →
    exec (.ctlAdd st) s = .next (s.modSt st fun x => { x with sq := { x.sq with
      k := kw x.sq.k (fld w 12 8) (kr x.sq.k (fld w 17 13) + kr x.sq.k (fld w 22 18) + sext32 (fld w 63 32))
      kPoison := setDel x.sq.kPoison (fld w 12 8)
      pc := x.sq.pc + 1, nextSeq := x.sq.nextSeq + 1, dist := x.sq.dist + 1 } })) ∧
  (∀ (s : State) (st : St) (p : Part) (w : W128), s.readyFor st p 0x03 w = true →
    fld w 25 23 ≠ 7 → fld w 63 32 < (s.prt p).prog * 256 →
    exec (.ctlBr st) s = .next (s.modSt st fun x => { x with sq := { x.sq with
      pc := if brCond (fld w 25 23) (kr x.sq.k (fld w 17 13)) (kr x.sq.k (fld w 22 18)) then fld w 63 32 else x.sq.pc + 1
      nextSeq := x.sq.nextSeq + 1, dist := x.sq.dist + 1 } })) ∧
  (∀ (s : State) (st : St) (p : Part) (w : W128), s.readyFor st p 0x04 w = true →
    exec (.ctlBase st) s = .next (s.modSt st fun x => { x with sq := { x.sq with
      base := x.sq.base + BitVec.ofNat 64 (fld w 63 32)
      pc := x.sq.pc + 1, nextSeq := x.sq.nextSeq + 1, dist := x.sq.dist + 1 } })) ∧
  (∀ (s : State) (st : St) (p : Part) (w : W128), s.readyFor st p 0x05 w = true →
    exec (.ctlEnd st) s = .next (s.modSt st fun x => { x with sq := { x.sq with
      endPending := some x.sq.pc
      pc := x.sq.pc + 1, nextSeq := x.sq.nextSeq + 1, dist := x.sq.dist + 1 } }))

/-- The end of a station's program, and an opcode that no table lists. (R247, R250, R253, R254, R484) -/
def Obligations.ProgramEndsOrFaultsOnUnlisted : Prop :=
  (∀ (s : State) (st : St) (p : Part) (pc : Nat), (s.stn st).sq.endPending = some pc → s.jobAt st = some p → s.idleForEnd st = true →
    (∀ v, (s.stn st).vat v = none) → (∀ i, vget (s.stn st).tiles i = none) →
    ∃ t, exec (.ctlEndFire st) s = .next t ∧
      t.stn st = { s.stn st with sq := { (s.stn st).sq with endPending := none, stopped := true, done := true } } ∧
      (∀ a, a ≠ st → t.stn a = s.stn a) ∧
      (s.stewardUp = true → s.struck p = false → (∀ a ∈ (s.prt p).pos, a ≠ st → (s.stn a).sq.done = true) → (t.prt p).jobState = 5)) ∧
  (∀ (s : State) (st : St) (p : Part) (w : W128), s.issuing st = some p → (s.stn st).sq.pc < (s.prt p).prog * 256 →
    (s.stn st).instrAt (s.prt p).prog (s.stn st).sq.pc = (w, false) → listedOpcodes.contains (opc w) = false →
    ∃ t, exec (.unlistedOpcode st) s = .next t ∧ Records s t (s.ownerOf st) 1 0x0100 (siteStation st noLoc2 (s.stn st).sq.pc))

/-- The vat instructions at issue, with the checks of R192, R193, R197, R199, R204, R205, R255 to R257 met. (R192, R193, R197, R199, R204, R205, R219, R255, R256, R257) -/
def Obligations.VatInstructionsIssue : Prop :=
  (∀ (s : State) (st : St) (p : Part) (w : W128), s.readyFor st p 0x10 w = true →
    fld w 63 40 ≠ 0 → fld w 17 14 ≤ 13 → (s.stn st).book (fin (fld w 12 8)) = none →
    openBase w + openSlots w * openSize w ≤ progBase (s.prt p).prog →
    (∀ v b, (s.stn st).book v = some b → bookOverlap b (openBase w) (openSlots w * openSize w) = false) →
    overlap (spillBase (s.prt p)) ((s.prt p).spill * 4096) (openBase w) (openSlots w * openSize w) = false →
    ∃ t, exec (.vatOpen st) s = .next t ∧ IssuedAt s t st w ∧
      (t.stn st).book (fin (fld w 12 8)) = some ⟨openBase w, openSlots w, openSize w, fbit w 13, fld w 63 40, none, none, 0, 0, (s.stn st).sq.nextSeq⟩) ∧
  (∀ (s : State) (st : St) (p : Part) (w : W128) (b b' : VatBook), s.readyFor st p 0x11 w = true →
    (s.stn st).book (fin (fld w 12 8)) = some b → b.outbound = false → fetchSrc w ≠ 3 → fetchBytes w ≠ 0 → fetchBytes w ≤ b.size →
    (fetchHdr w = true → fetchSrc w ≠ 2) → b.produce .fetch = some b' → b.prods < b.len →
    (fetchSrc w = 0 → s.inWin p (kr (s.stn st).sq.k (fld w 17 13)).toNat (fetchBytes w + (if fetchHdr w then 4096 else 0)) = true ∧
      runFault (kr (s.stn st).sq.k (fld w 47 43)).toNat = false ∧
      s.openRunMeets (bits (kr (s.stn st).sq.k (fld w 47 43)).toNat 9 0) (bits (kr (s.stn st).sq.k (fld w 47 43)).toNat 19 10) = false) →
    (fetchSrc w = 2 → (kr (s.stn st).sq.k (fld w 17 13)).toNat + fetchBytes w ≤ progBase (s.prt p).prog) →
    (fetchSrc w = 1 → s.routeFault p (fld w 57 48) = false) →
    ∃ t, exec (.vatFetch st) s = .next t ∧ IssuedAt s t st w ∧ (t.stn st).book (fin (fld w 12 8)) = some b') ∧
  (∀ (s : State) (st : St) (p : Part) (w : W128) (b b' : VatBook), s.readyFor st p 0x12 w = true →
    (s.stn st).book (fin (fld w 12 8)) = some b → b.outbound = true → fetchSrc w = 0 → fetchBytes w ≠ 0 → fetchBytes w ≤ b.size →
    b.consume .put = some b' → b.conss < b.len →
    s.inWin p (kr (s.stn st).sq.k (fld w 17 13)).toNat (fetchBytes w) = true → (kr (s.stn st).sq.k (fld w 47 43)).toNat < 2 ^ 20 →
    (fbit w 40 = true → fetchBytes w % 4 = 0 ∧ (kr (s.stn st).sq.k (fld w 17 13)).toNat % 4 = 0 ∧ (kr (s.stn st).sq.k (fld w 17 13)).toNat < 2 ^ 36) →
    (fbit w 58 = true → s.inMorRange p ((kr (s.stn st).sq.k (fld w 63 59)).toNat % 65536) = true) →
    ∃ t, exec (.vatPut st) s = .next t ∧ IssuedAt s t st w ∧ (t.stn st).book (fin (fld w 12 8)) = some b') ∧
  (∀ (s : State) (st : St) (p : Part) (w : W128) (b : VatBook), s.readyFor st p 0x13 w = true →
    (s.stn st).book (fin (fld w 12 8)) = some b → (s.stn st).takePending (fin (fld w 12 8)) = false →
    ∃ t, exec (.vatCancel st) s = .next t ∧ IssuedAt s t st w ∧ (t.stn st).book (fin (fld w 12 8)) = some { b with prods := 0, conss := 0 }) ∧
  (∀ (s : State) (st : St) (p : Part) (w : W128) (b : VatBook), s.readyFor st p 0x14 w = true →
    (s.stn st).book (fin (fld w 12 8)) = some b →
    ∃ t, exec (.vatClose st) s = .next t ∧ IssuedAt s t st w ∧ (t.stn st).book (fin (fld w 12 8)) = none)

/-- The vat instructions as they fire. (R192, R194, R196, R197, R204, R205, R206, R224) -/
def Obligations.VatInstructionsFire : Prop :=
  (∀ (s : State) (st : St) (v : VatNo) (e : Entry), s.headOp st (.vat v) 0x10 = some e →
    (∀ i y, (s.stn st).vat i = some y → overlap y.base (y.slots.length * y.size) (openBase e.word) (openSlots e.word * openSize e.word) = false) →
    (s.stn st).openAhead e (openBase e.word) (openSlots e.word * openSize e.word) = false →
    exec (.vatOpenFire st v) s = .next (s.modSt st fun x => (x.pop (.vat v)).setVat v (some ⟨openBase e.word, openSize e.word, fbit e.word 13, fld e.word 63 40,
      0, 0, 0, 0, List.replicate (openSlots e.word) slot0, 0, 0, 0, e.seq⟩))) ∧
  (∀ (s : State) (st : St) (v : VatNo) (e : Entry) (y : Vat) (p : Part), s.headOp st (.vat v) 0x11 = some e → (s.stn st).vat v = some y → s.jobAt st = some p →
    tailFree y = true → s.inFlight st < 32 → (isCalendar e.word = true → e.started = true) →
    (fetchSrc e.word = 1 → s.ownRoute p (fld e.word 57 48) = true → s.ownKindFault p (fld e.word 57 48) false = false ∧
      s.reg 0x1020 0 = (kr e.k (fld e.word 47 43)).toNat % 65536 ∧
      s.inWin p (kr e.k (fld e.word 17 13)).toNat (fetchBytes e.word + if fetchHdr e.word then 4096 else 0) = true) →
    ∃ t f, exec (.vatFetchFire st v) s = .next t ∧ t.stn st = ((s.stn st).pop (.vat v)).setVat v (some y.claim) ∧ (∀ a, a ≠ st → t.stn a = s.stn a) ∧
      t.fetches = s.fetches ++ [f] ∧ f.st = st ∧ f.vat = v ∧ f.slot = y.tail ∧ f.addr = (kr e.k (fld e.word 17 13)).toNat ∧ f.bytes = fetchBytes e.word ∧
      f.hdr = fetchHdr e.word ∧ f.dropped = false ∧
      (fetchSrc e.word = 1 ∧ s.ownRoute p (fld e.word 57 48) = false → ∃ x, t.xfers = s.xfers ++ [x] ∧ x.kind = .readReq ∧ x.addr = f.addr ∧ x.bytes = f.bytes ∧ x.route = fld e.word 57 48) ∧
      (fetchSrc e.word ≠ 1 ∨ s.ownRoute p (fld e.word 57 48) = true → t.xfers = s.xfers)) ∧
  (∀ (s : State) (st : St) (v : VatNo) (e : Entry) (y : Vat) (p : Part), s.headOp st (.vat v) 0x11 = some e → (s.stn st).vat v = some y → s.jobAt st = some p →
    tailFree y = true → s.inFlight st < 32 → (isCalendar e.word = true → e.started = true) →
    fetchSrc e.word = 1 → s.ownRoute p (fld e.word 57 48) = true → s.inWin p (kr e.k (fld e.word 17 13)).toNat (fetchBytes e.word + if fetchHdr e.word then 4096 else 0) = false →
    ∃ t, exec (.vatFetchFire st v) s = .next t ∧ Records s t (s.ownerOf st) 1 0x0101 (siteStation st v.val e.pc)) ∧
  (∀ (s : State) (st : St) (v : VatNo) (e : Entry) (y : Vat) (p : Part), s.headOp st (.vat v) 0x12 = some e → (s.stn st).vat v = some y → s.jobAt st = some p →
    headFull y = true → s.inFlight st < 32 → e.started = true →
    ∃ t x, exec (.vatPutFire st v) s = .next t ∧ t.stn st = ((s.stn st).pop (.vat v)).setVat v (some (y.take true true)) ∧ (∀ a, a ≠ st → t.stn a = s.stn a) ∧
      t.writes = s.writes ++ [x] ∧ x.who = st ∧ x.part = p ∧ x.addr = (kr e.k (fld e.word 17 13)).toNat ∧ x.data = (s.stn st).slotRead y y.head 0 (fetchBytes e.word) ∧
      x.acc = fbit e.word 40 ∧ x.mordant.isSome = fbit e.word 58 ∧ x.written = false) ∧
  (∀ (s : State) (st : St) (v : VatNo) (e : Entry) (y : Vat), s.headOp st (.vat v) 0x13 = some e → (s.stn st).vat v = some y →
    (s.stn st).vatBusy v e.seq = false → (∀ sl ∈ y.slots, sl.st ≠ .taken) →
    ∃ t, exec (.vatCancelFire st v) s = .next t ∧ t.stn st = ((s.stn st).pop (.vat v)).setVat v (some { y with
        slots := y.slots.map Slot.cancelled, head := y.tail, claimed := 0, taken := 0, rd := y.tail, rdRow := 0, wrRow := 0 }) ∧
      (∀ a, a ≠ st → t.stn a = s.stn a) ∧ t.fetches = s.fetches.map fun f => if f.st = st ∧ f.vat = v then { f with dropped := true } else f) ∧
  (∀ (s : State) (st : St) (v : VatNo) (e : Entry) (y : Vat), s.headOp st (.vat v) 0x14 = some e → (s.stn st).vat v = some y →
    (s.stn st).vatBusy v e.seq = false → s.vatFlying st v = false → y.len ≤ y.taken → (∀ sl ∈ y.slots, sl.st = .free) →
    exec (.vatCloseFire st v) s = .next (s.modSt st fun x => { (x.pop (.vat v)).setVat v none with localVats := setDel x.localVats y.id, takeVats := setDel x.takeVats y.id }))

/-- The ends of transfers. (R194, R195, R198, R202, R204, R205, R206) -/
def Obligations.VatTransfersEnd : Prop :=
  (∀ (s : State) (st : St) (v : VatNo) (i : Nat) (f : Fetch) (d : List PByte) (y : Vat),
    s.fetches.find? (fun f => decide (f.st = st) && decide (f.vat = v) && decide (f.slot = i) && !f.dropped && f.data.isSome) = some f →
    f.data = some d → (s.stn st).vat v = some y →
    ∃ t, exec (.vatSlotFull st v i) s = .next t ∧
      t.stn st = ((s.stn st).lsWrite (y.addr i) ((if f.hdr then d.drop 64 else d).take f.bytes)).setVat v
        (some (y.setSlot i { slot0 with st := .full, count := f.bytes, header := if f.hdr then some (d.take 64) else none })) ∧
      (∀ a, a ≠ st → t.stn a = s.stn a) ∧ t.mem = s.mem) ∧
  (∀ (s : State) (k : Nat) (w : MemWrite), s.writes[k]? = some w → w.written = true →
    exec (.putWriteComplete k) s = .next { s with
      writes := s.writes.eraseIdx k
      morOps := s.morOps ++ (w.mordant.map fun m => ⟨some w.who, w.part, m, false, 1, false⟩).toList }) ∧
  (∀ (s : State) (st : St) (v : VatNo) (i : Nat) (y : Vat), (s.stn st).vat v = some y → i < y.slots.length → (y.slot i).st = .taken →
    (y.slot i).laneDone = true → (y.slot i).feedDone = true →
    exec (.slotRelease st v i) s = .next (s.modSt st fun x => x.setVat v (some (y.setSlot i slot0)))) ∧
  (∀ (s : State) (st : St) (v : VatNo) (i : Nat) (y : Vat) (f : Fetch), f ∈ s.fetches → f.st = st → f.vat = v → f.slot = i → f.dropped = true →
    (s.stn st).vat v = some y → (y.slot i).st = .dropping →
    ∃ t, exec (.droppedFetchEnd st v i) s = .next t ∧ t.stn st = (s.stn st).setVat v (some (y.setSlot i slot0)) ∧ f ∉ t.fetches)

/-- The ring instructions at issue, with the checks of R49, R76, R82, R193, R258 to R262 met. (R49, R76, R82, R193, R219, R258, R259, R260, R261, R262) -/
def Obligations.RingInstructionsIssue : Prop :=
  (∀ (s : State) (st : St) (p : Part) (w : W128) (b b' : VatBook), s.readyFor st p 0x20 w = true →
    ringModeOk w = true → ringFmt w ≤ 7 → fld w 35 27 + fld w 47 36 ≤ 511 → (ringLanes w = 3 → (s.prt p).closed = true) →
    (∀ l, onLane w l = true → feedHops w l ≤ (s.prt p).hopsBound st l) →
    (s.stn st).book (ringVat w) = some b → b.outbound = false → rowBytes (ringFmt w) (shapeK (s.stn st).arr.bkShape) ≤ b.size →
    b.consumeFeed (ringLocal w) = some b' →
    ∃ t, exec (.ringFeed st) s = .next t ∧ IssuedAt s t st w ∧ (t.stn st).book (ringVat w) = some b') ∧
  (∀ (s : State) (st : St) (p : Part) (w : W128) (b b' : VatBook), s.readyFor st p 0x21 w = true →
    ringModeOk w = true → ringFmt w ≤ 7 →
    (s.stn st).book (ringVat w) = some b → b.outbound = false → rowBytes (ringFmt w) (shapeK (s.stn st).arr.bkShape) ≤ b.size →
    b.produce .take = some b' →
    ∃ t, exec (.ringTake st) s = .next t ∧ IssuedAt s t st w ∧ (t.stn st).book (ringVat w) = some b' ∧
      (t.stn st).takeVats = setAdd (s.stn st).takeVats b.id) ∧
  (∀ (s : State) (st : St) (p : Part) (w : W128), s.readyFor st p 0x22 w = true →
    (s.stn st).arr.bkShape = 0 → addRole w < 2 → (addFmt w = 1 ∨ addFmt w = 2) → (addFmt w = 1 → addRm1 w % 2 = 1) →
    (addRole w = 0 → addNoprod w = false ∧ fld w 22 18 ≠ 0 ∧ fld w 22 18 ≤ (s.prt p).hopsBound st (addLane w)) →
    ∃ t, exec (.ringAdd st) s = .next t ∧ IssuedAt s t st w) ∧
  (∀ (s : State) (st : St) (p : Part) (w : W128) (b : TileBook), s.readyFor st p 0x22 w = true →
    (s.stn st).arr.bkShape = 0 → addRole w = 2 → (addFmt w = 1 ∨ addFmt w = 2) → (addFmt w = 1 → addRm1 w % 2 = 1) →
    vget (s.stn st).tbooks (addTile w) = some b → b.drained = false → b.shape = 0 → b.fmt = addFmt w → b.lease ≠ some .mma → b.issued < b.passes →
    fld w 31 23 + addRm1 w + 1 ≤ b.height →
    ∃ t, exec (.ringAdd st) s = .next t ∧ IssuedAt s t st w ∧
      vget (t.stn st).tbooks (addTile w) = some { b with issued := b.issued + 1, lease := some .ring })

/-- The lane's own events. While a hop's crossing is recalibrated it takes no flit (R292). (R33, R34, R37, R40, R292) -/
def Obligations.RingFlitsMove : Prop :=
  (∀ (s : State) (st : St) (l : Lane) (e : FlitEcc) (f : Flit) (rest : List Flit),
    ((s.stn st).lane l).stopped = false → ((s.stn st).lane l).rxq.length < 96 → (∀ c ∈ s.clk.recal, c.1 < 18 → c.2 ≠ st.val) →
    ((s.stn st).lane l).wire = f :: rest → e.sbDead = false →
    exec (.ringFlitArrival st l e) s = .next (s.modSt st fun x => x.modLane l fun y =>
      { y with wire := rest, rxq := y.rxq ++ [⟨{ f with hops := f.hops - 1, data := poisonWords f.data e.dead }, false⟩] })) ∧
  (∀ (s : State) (st : St) (l : Lane) (e : FlitEcc) (f : Flit) (rest : List Flit),
    ((s.stn st).lane l).stopped = false → ((s.stn st).lane l).rxq.length < 96 → (∀ c ∈ s.clk.recal, c.1 < 18 → c.2 ≠ st.val) →
    ((s.stn st).lane l).wire = f :: rest → e.sbDead = true →
    ∃ t, exec (.ringFlitArrival st l e) s = .next t ∧ ((t.stn st).lane l).stopped = true ∧ ((t.stn st).lane l).wire = rest ∧
      ((t.stn st).lane l).rxq = ((s.stn st).lane l).rxq ∧ Records s t (s.ownerOf st) 4 0x0402 (siteStation st (laneNo l) noPc)) ∧
  (∀ (s : State) (st u : St) (l : Lane) (p : Part), s.boundAt st = some p → (s.prt p).before st l = some u → ((s.stn st).lane l).owed ≠ 0 →
    exec (.ringCreditReturn st l) s = .next (((s.modSt st fun x => x.modLane l fun y => { y with owed := y.owed - 1 }).modSt u fun x =>
      x.modLane l fun y => { y with credits := y.credits + 1 }).flow u l)) ∧
  (∀ (s : State) (st : St) (l : Lane), ((s.stn st).lane l).rxq ≠ [] →
    ∃ t, exec (.ringHeadStall st l) s = .next t ∧ t.stations = s.stations ∧
      Records s t (s.ownerOf st) 0x0A 0x0A01 (siteStation st (laneNo l) noPc))

/-- The ring instructions as they fire: on the state they find, the step ends with the rows passed and the flits that have credits sent. (R38, R49, R50, R53, R54, R219, R260, R261, R262) -/
def Obligations.RingInstructionsFire : Prop :=
  (∀ (s : State) (st : St) (l : Lane) (p : Part) (e : Entry) (x' : Station) (op' : RingOp), s.jobAt st = some p → activeOp (s.stn st) l 0x20 = none →
    ringHead (s.stn st) l 0x20 = some e → feedGo st (s.jobCtx p) (popRing (s.stn st) e) (ringOp0 e) = .ok x' op' →
    exec (.ringFeedFire st l) s = .next (((s.modSt st fun _ => setOp x' op').flow st .cw).flow st .ccw)) ∧
  (∀ (s : State) (st : St) (l : Lane) (p : Part) (op op' : RingOp) (x' : Station), s.jobAt st = some p → activeOp (s.stn st) l 0x20 = some op →
    feedGo st (s.jobCtx p) (s.stn st) op = .ok x' op' →
    exec (.ringFeedFire st l) s = .next (((s.modSt st fun _ => setOp x' op').flow st .cw).flow st .ccw)) ∧
  (∀ (s : State) (st : St) (l : Lane) (p : Part) (e : Entry), s.jobAt st = some p → ringHead (s.stn st) l 0x21 = some e → openReady (s.stn st) l e = true →
    (∀ i f y, headFlit ((s.stn st).lane l) = some (i, f) → earliest (s.stn st) l f.tag = some y →
      (s.stn st).ringOps.find? (fun o => decide (o.e.seq = y.seq) && decide (opc y.word = 0x21)) = none) →
    exec (.ringTakeFire st l) s = .next (s.modSt st fun x => { popRing x e with ringOps := (popRing x e).ringOps ++ [ringOp0 e] })) ∧
  (∀ (s : State) (st : St) (l : Lane) (p : Part) (i : Nat) (f : Flit) (e : Entry) (op op' : RingOp) (x' : Station), s.jobAt st = some p →
    headFlit ((s.stn st).lane l) = some (i, f) → earliest (s.stn st) l f.tag = some e → opc e.word = 0x21 →
    (s.stn st).ringOps.find? (fun o => decide (o.e.seq = e.seq)) = some op → takeGo l (s.stn st) op f = .ok x' op' →
    exec (.ringTakeFire st l) s = .next ((s.modSt st fun _ => setOp (x'.modLane l fun y => takeFlit y i f) op').flow st l)) ∧
  (∀ (s : State) (st : St) (l : Lane) (p : Part) (op op' : RingOp) (pre post : List RingOp) (x' : Station), s.jobAt st = some p →
    (s.stn st).ringOps.filter (fun o => decide (opc o.e.word = 0x22) && onLane o.e.word l && !behindAdd (s.stn st) l o) = pre ++ op :: post →
    (∀ o ∈ pre, addGo st l (s.stn st) o = .wait) → addGo st l (s.stn st) op = .ok x' op' →
    exec (.ringAddFire st l) s = .next ((s.modSt st fun _ => setAddOp x' op').flow st l)) ∧
  (∀ (s : State) (st : St) (l : Lane) (op : RingOp) (bits : List W32), addRole op.e.word = 0 →
    stageRows ((s.stn st).lane l) (ringTag op.e.word) op.rows (addStep op.e.word) = some bits →
    addGo st l (s.stn st) op = .ok ((s.stn st).modLane l fun y =>
      let z := unstage y (ringTag op.e.word) op.rows (addStep op.e.word)
      { z with outq := z.outq ++ [⟨ringTag op.e.word, 1, st.val, fld op.e.word 22 18, op.rows, decide (addRm1 op.e.word < op.rows + addStep op.e.word),
        decide (l = .ccw), addFmt op.e.word, addPayload op.e.word bits⟩] }) { op with rows := op.rows + addStep op.e.word }) ∧
  (∀ (s : State) (st : St) (l : Lane) (p : Part) (op op' : RingOp) (i : Nat) (f : Flit) (x' : Station), s.jobAt st = some p →
    (∀ o ∈ (s.stn st).ringOps, opc o.e.word = 0x22 → onLane o.e.word l = true → behindAdd (s.stn st) l o = false → addGo st l (s.stn st) o = .wait) →
    addHead (s.stn st) l = some (op, i, f) → addTake l (s.stn st) op i f = .ok x' op' →
    exec (.ringAddFire st l) s = .next ((s.modSt st fun _ => setAddOp x' op').flow st l)) ∧
  (∀ (s : State) (st : St) (l : Lane) (p : Part) (e : Entry), s.jobAt st = some p →
    (∀ o ∈ (s.stn st).ringOps, opc o.e.word = 0x22 → onLane o.e.word l = true → behindAdd (s.stn st) l o = false → addGo st l (s.stn st) o = .wait) →
    (∀ op i f, addHead (s.stn st) l = some (op, i, f) → addTake l (s.stn st) op i f = .wait) → ringHead (s.stn st) l 0x22 = some e → openReady (s.stn st) l e = true →
    exec (.ringAddFire st l) s = .next (s.modSt st fun x => { popRing x e with ringOps := (popRing x e).ringOps ++ [ringOp0 e] }))

/-- The array and accumulator instructions at issue, with the checks of R61, R69, R76, R78, R80 to R82, R93, R113, R117, R132, R193, R258, R265 and R266 met. (R61, R69, R76, R78, R80, R81, R82, R113, R117, R132, R265, R266) -/
def Obligations.ArrayInstructionsIssue : Prop :=
  (∀ (s : State) (st : St) (p : Part) (w : W128), s.readyFor st p 0x30 w = true →
    ∃ t, exec (.arrShape st) s = .next t ∧ IssuedAt s t st w ∧
      ((t.stn st).arr.bkShape = fin (fld w 9 8) ∧ (t.stn st).arr.bkLoad = none ∧ (t.stn st).arr.bkActive = none)) ∧
  (∀ (s : State) (st : St) (p : Part) (w : W128) (b b' : VatBook) (f : Fmt), s.readyFor st p 0x31 w = true →
    (s.stn st).book (fin (fld w 12 8)) = some b → Fmt.ofCode (loadFmt w) = some f → b.outbound = false → (s.stn st).arr.bkLoad = none →
    loadK w ≤ shapeK (s.stn st).arr.bkShape → loadN w ≤ shapeN (s.stn st).arr.bkShape → (f.isMx = true → loadK w % 32 = 0) →
    rowBytes (loadFmt w) (if f.isMx then loadK w else loadN w) ≤ b.size → b.consume .load = some b' → b.conss < b.len →
    ∃ t, exec (.arrLoad st) s = .next t ∧ IssuedAt s t st w ∧
      (t.stn st).arr.bkLoad = some (loadK w, loadN w, loadFmt w) ∧ (t.stn st).book (fin (fld w 12 8)) = some b') ∧
  (∀ (s : State) (st : St) (p : Part) (w : W128) (wk wn wf : Nat) (fx fw fa : Fmt) (x1 x2 : Station), s.readyFor st p 0x32 w = true →
    (if fbit w 23 then (s.stn st).arr.bkLoad else (s.stn st).arr.bkActive) = some (wk, wn, wf) →
    Fmt.ofCode (mmaFx w) = some fx → Fmt.ofCode wf = some fw → mmaAcc (s.stn st) w = some fa →
    formatsAccepted fx fw fa (s.stn st).arr.bkShape = true → wk = mmaK w → mmaN w ≤ shapeN (s.stn st).arr.bkShape → (fx.isMx = true → mmaK w % 32 = 0) →
    (mmaDest w = true → mmaTagged w = false ∧ mmaTiles w = 1 ∧ (s.stn st).arr.bkShape = 0) →
    (mmaDest w = false → mmaTilesOk (s.stn st) w (s.stn st).arr.bkShape = true) → (fbit w 35 = true → mmaTagged w = true) →
    operandVat (s.stn st) (mmaVa w) (rowBytes (mmaFx w) (shapeK (s.stn st).arr.bkShape)) = some x1 →
    (if fbit w 35 then operandVat x1 (mmaVb w) (rowBytes (mmaFx w) (shapeK (s.stn st).arr.bkShape)) else some x1) = some x2 →
    ∃ t, exec (.arrMma st) s = .next t ∧ IssuedAt s t st w ∧
      (fbit w 23 = true → (t.stn st).arr.bkActive = some (wk, wn, wf) ∧ (t.stn st).arr.bkLoad = none) ∧
      (fbit w 23 = false → (t.stn st).arr.bkActive = (s.stn st).arr.bkActive ∧ (t.stn st).arr.bkLoad = (s.stn st).arr.bkLoad)) ∧
  (∀ (s : State) (st : St) (p : Part) (w : W128), s.readyFor st p 0x40 w = true →
    ((openBook (s.stn st) w).fmt = 1 ∨ (openBook (s.stn st) w).fmt = 2) → (openBook (s.stn st) w).passes ≠ 0 →
    ((openBook (s.stn st) w).faithful = true → (openBook (s.stn st) w).passes ≤ 2 ^ (openBook (s.stn st) w).depth) →
    vget (s.stn st).tbooks (openTile w) = none → storeUsed (s.stn st) + occupancy (openBook (s.stn st) w) ≤ accStore →
    spillOk (s.stn st) ((s.prt p).spill * 4096) (openBook (s.stn st) w) = true →
    ∃ t, exec (.accOpen st) s = .next t ∧ IssuedAt s t st w ∧ vget (t.stn st).tbooks (openTile w) = some (openBook (s.stn st) w)) ∧
  (∀ (s : State) (st : St) (p : Part) (w : W128) (b : TileBook) (v v' : VatBook), s.readyFor st p 0x41 w = true →
    vget (s.stn st).tbooks (drainTile w) = some b → (s.stn st).book (drainVat w) = some v → b.drained = false → b.issued = b.passes →
    pairOk (s.stn st) w b = true → drainFmt w ≤ 4 → v.outbound = true → rowBytes (drainFmt w) (shapeN b.shape) ≤ v.size → v.produce .drain = some v' →
    asideFault (s.stn st) w b = false →
    ∃ t, exec (.accDrain st) s = .next t ∧ IssuedAt s t st w ∧
      vget (t.stn st).tbooks (drainTile w) = some { b with drained := true } ∧ (t.stn st).book (drainVat w) = some v')

/-- The array and accumulator instructions as they fire. (R65, R66, R67, R68, R70, R76, R82, R107, R108, R265, R266, R395) -/
def Obligations.ArrayAndTilesFire : Prop :=
  (∀ (s : State) (st : St) (e : Entry), s.headOp st .array 0x30 = some e → (s.stn st).arr.empty = true → (s.stn st).arr.slice = none →
    ∃ x : Station, (x = match (s.stn st).arr.load with
        | some l => (s.stn st).slotDone (fin (fld l.e.word 12 8)) l.slot
        | none => s.stn st) ∧
      exec (.arrShapeFire st) s = .next (s.modSt st fun _ => (x.pop .array).modArr fun a =>
        { a with shape := fin (fld e.word 9 8), active := none, shadow := none, load := none, swapWait := false })) ∧
  (∀ (s : State) (st : St) (e : Entry) (y : Vat), s.headOp st .array 0x31 = some e → (s.stn st).vat (fin (fld e.word 12 8)) = some y →
    (s.stn st).arr.load = none → (s.stn st).arr.shadow = none → (s.stn st).arr.swapWait = false → (s.stn st).arr.slice = none → (∀ q ∈ (s.stn st).chkQ, e.seq ≤ q.seq) → headFull y = true →
    (s.stn st).vatFenced (fin (fld e.word 12 8) : VatNo).val e.seq = false →
    (fbit e.word 44 = false → ∃ h, (y.slot y.head).header = some h ∧ headerTag h = (kr e.k (fld e.word 43 39)).toNat % 2 ^ 32) →
    exec (.arrLoadFire st) s = .next (s.modSt st fun x => ((x.pop .array).setVat (fin (fld e.word 12 8)) (some (y.take false false))).modArr fun a =>
      { a with load := some ⟨e, y.head, { fmt := loadFmt e.word, k := loadK e.word, n := loadN e.word, shape := (s.stn st).arr.shape
                                          data := (s.stn st).slotRead y y.head 0 (blockBytes (loadFmt e.word) (loadK e.word) (loadN e.word)) }⟩ })) ∧
  (∀ (s : State) (st : St) (l : LoadRec), (s.stn st).arr.load = some l →
    ∃ t, exec (.arrLoadComplete st) s = .next t ∧ (t.stn st).arr.shadow = some l.w ∧ (t.stn st).arr.load = none ∧ t = { s with stations := t.stations } ∧
      ∀ a, a ≠ st → t.stn a = s.stn a) ∧
  (∀ (s : State) (st : St), (s.stn st).arr.swapWait = true →
    exec (.shadowRegistersFree st) s = .next (s.modSt st fun x => x.modArr fun a => { a with swapWait := false })) ∧
  (∀ (s : State) (st : St) (p : Part) (r : FlightRow) (rest : List FlightRow), (s.stn st).arr.slice = none → (s.stn st).arr.refeed = r :: rest → s.jobAt st = some p →
    exec (.arrMmaFire st) s = .next (s.modSt st fun x => x.modArr fun a => { a with refeed := rest, flight := a.flight ++ [r] })) ∧
  (∀ (s : State) (st : St) (p : Part) (m : MmaRec) (wt : Weights) (x : Station) (v : VatNo) (y : Vat) (data : List PByte) (tag : Option (W16 × Nat)) (raw : Bool)
    (j r : Nat) (fx fw : Fmt) (o : PathOut), (s.stn st).arr.slice = none → (s.stn st).arr.refeed = [] → s.jobAt st = some p →
    MmaAt s st m wt x →
    nextRow x m.e (rowBytes (mmaFx m.e.word) (shapeK x.arr.shape)) = (v, .row y data tag raw) →
    mmaTarget m.e.word m tag = some (j, r) → Fmt.ofCode (mmaFx m.e.word) = some fx → Fmt.ofCode wt.fmt = some fw →
    o = (if raw then prologue (x.setVat v (some y)) (s.jobCtx p) (mmaFx m.e.word) r data
      else ⟨x.setVat v (some y), data, Fl.none, false, false⟩) → o.fault = false → o.poison = false → anyPoison o.data = false →
    ∃ t fr, exec (.arrMmaFire st) s = .next t ∧ (t.stn st).arr.flight = o.x.arr.flight ++ [fr] ∧ fr.seq = m.e.seq ∧ fr.row = r ∧ fr.left = false ∧
      fr.tile = (if mmaDest m.e.word then none else some (fin (mmaTile0 m.e.word + j))) ∧
      fr.prod = (product fx fw m.fa o.x.arr.shape (mmaK m.e.word) (mmaN m.e.word) o.data wt).out ∧
      (t.stn st).arr.active = o.x.arr.active ∧ (t.stn st).arr.shadow = o.x.arr.shadow ∧
      t = { s with stations := t.stations } ∧ ∀ a, a ≠ st → t.stn a = s.stn a) ∧
  (∀ (s : State) (st : St) (e : Entry) (b : TileBook), s.headOp st .acc 0x40 = some e → vget (s.stn st).tbooks (openTile e.word) = some b →
    exec (.accOpenFire st) s = .next (s.modSt st fun x => setTile (x.pop .acc) (openTile e.word) (emptyTile b))) ∧
  (∀ (s : State) (st : St) (d : DrainRec) (t : Tile), (s.stn st).drain = some d → vget (s.stn st).tiles (drainTile d.e.word) = some t → t.bk.height ≤ d.row →
    exec (.drainComplete st) s = .next (s.modSt st fun x => { x with
      drain := none, tiles := vset x.tiles (drainTile d.e.word) none, tbooks := vset x.tbooks (drainTile d.e.word) none
      sq := x.sq.writeAt (fld d.e.word 38 34) d.e.seq (flagWord t.ovf t.nv) })) ∧
  (∀ (s : State) (st : St) (p : Part) (e : Entry) (r : Nat) (x0 : Station) (t : Tile) (y y' : Vat) (f fa : Fmt) (x x' : Station) (as : List Val) (bad2 : Bool) (o : DrainOut)
    (b : List PByte × Fl),
    s.jobAt st = some p → DrainAt s st e r x0 → vget x0.tiles (drainTile e.word) = some t → r < t.bk.height →
    x0.vat (drainVat e.word) = some y → Fmt.ofCode (drainFmt e.word) = some f → Fmt.ofCode t.bk.fmt = some fa →
    (y.wrRow = 0 → tailFree y = false → y.len ≤ y.claimed) →
    asideRow x0 e.word r (shapeN t.bk.shape) = .got x as bad2 →
    o = epilogue x (s.jobCtx p) e.word r (tileRow t fa r (shapeN t.bk.shape)) as (bad2 || tilePoisonIn t (r * shapeN t.bk.shape) (shapeN t.bk.shape)) →
    o.fault = false → o.poison = false →
    b = drainBytes f o.vs (fun c => !(drainEpi e.word && x.vec.epi.isSome) && t.poison.contains (r * shapeN t.bk.shape + c)) →
    putRow o.x y b.1 none ((flagWord (t.ovf || b.2.ovf || o.fl.ovf) (t.nv || b.2.nv || o.fl.nv)).toNat) = .done x' y' →
    ∃ u, exec (.accDrainFire st) s = .next u ∧ (u.stn st).drain = some ⟨e, r + 1⟩ ∧
      (u.stn st).vat (drainVat e.word) = some (if r + 1 = t.bk.height then y'.endFill else y') ∧ (u.stn st).ls = x'.ls ∧ u = { s with stations := u.stations } ∧
      ∀ a, a ≠ st → u.stn a = s.stn a)

/-- What happens to a product row. (R54, R62, R65, R82, R85, R107, R112, R114, R389, R393, R395, R396) -/
def Obligations.ProductRowsPassesAndVerdicts : Prop :=
  (∀ (s : State) (st : St) (err : Option ArrayError) (i : Nat) (r : FlightRow), (s.stn st).arr.flight.findIdx? (fun r => !r.left) = some i →
    (s.stn st).arr.flight[i]? = some r → r.void = true →
    exec (.productRowLeavesTree st err) s = .next (s.modSt st fun x => x.modArr fun a => { a with flight := a.flight.eraseIdx i })) ∧
  (∀ (s : State) (st : St) (err : Option ArrayError) (i : Nat) (r0 r : FlightRow), (s.stn st).arr.flight.findIdx? (fun r => !r.left) = some i →
    (s.stn st).arr.flight[i]? = some r0 → r0.void = false → r0.tile = none → r = { r0 with err := err.getD ArrayError.none } →
    (s.stn st).cw.adds.length < 32 → (s.stn st).ccw.adds.length < 32 →
    ∃ t, exec (.productRowLeavesTree st err) s = .next t ∧ t = { s with stations := t.stations } ∧
      (t.stn st).cw.adds = (s.stn st).cw.adds ++ [⟨r.tag, r.row, r.out.take 256, false, r.seq, false, false⟩] ∧
      (t.stn st).ccw.adds = (s.stn st).ccw.adds ++ [⟨r.tag, r.row, (r.out.drop 256).take 256, false, r.seq, false, false⟩] ∧
      ∀ a, a ≠ st → t.stn a = s.stn a) ∧
  (∀ (s : State) (st : St) (err : Option ArrayError) (i : Nat) (r0 r : FlightRow) (ti : Fin 64) (tl : Tile), (s.stn st).arr.flight.findIdx? (fun r => !r.left) = some i →
    (s.stn st).arr.flight[i]? = some r0 → r0.void = false → r0.tile = some ti → vget (s.stn st).tiles ti = some tl → r = { r0 with err := err.getD ArrayError.none } →
    r0.held = false → (∀ q ∈ (s.stn st).arr.passes, q.tile = ti → q.seq < r.seq → q.ended = true) → tl.mergeQ.length < 2 →
    tilePoisonIn tl (r.row * shapeN (s.stn st).arr.shape) r.n = false →
    ∃ t, exec (.productRowLeavesTree st err) s = .next t ∧ t = { s with stations := t.stations } ∧
      (t.stn st).tiles = (rowToTile (s.stn st) ti tl r (s.stn st).arr.shape).1.tiles ∧ ∀ a, a ≠ st → t.stn a = s.stn a) ∧
  (∀ (s : State) (st : St) (err : Option ArrayError) (i : Nat) (r0 : FlightRow) (ti : Fin 64), (s.stn st).arr.flight.findIdx? (fun r => !r.left) = some i →
    (s.stn st).arr.flight[i]? = some r0 → r0.void = false → r0.tile = some ti → vget (s.stn st).tiles ti ≠ none → r0.fx = .fp32 →
    exec (.productRowLeavesTree st err) s = .next (s.modSt st fun x => x.modArr fun a =>
      { a with flight := a.flight.set i { r0 with err := err.getD ArrayError.none, left := true } })) ∧
  (∀ (s : State) (st : St) (q : PassRec) (tl : Tile), (s.stn st).arr.passes.find? (fun p => decide (p.remaining = 0) && !p.ended) = some q →
    vget (s.stn st).tiles q.tile = some tl →
    ∃ t, exec (.kPassEnd st) s = .next t ∧ t = { s with stations := t.stations } ∧ vget (t.stn st).tiles q.tile = some (tl.passEnds q.seq) ∧
      ∀ a, a ≠ st → t.stn a = s.stn a) ∧
  (∀ (s : State) (st : St) (p : Part) (ti : Fin 64) (tl : Tile) (r : MergeRec) (rest : List MergeRec) (fa : Fmt) (o : Station × Tile × Fl × Bool), s.jobAt st = some p →
    vget (s.stn st).tiles ti = some tl → tl.mergeQ = r :: rest → Fmt.ofCode tl.bk.fmt = some fa →
    (∀ f ∈ (s.stn st).arr.flight ++ (s.stn st).arr.refeed, f.seq = r.seq → f.tile = some ti → f.void = true) → r.poison = [] →
    o = (if tl.bk.faithful then carryPass (s.stn st) tl fa r (spillBase (s.prt p) + tl.bk.spoff * 4096)
      else spill (s.stn st) tl fa r (spillBase (s.prt p) + tl.bk.spoff * 4096)) → o.2.2.2 = false →
    exec (.mergeComplete st ti) s = .next (s.modSt st fun _ =>
      (setTile o.1 ti ({ o.2.1 with mergeQ := rest, merged := tl.merged + 1 }.flag o.2.2.1)).flag o.2.2.1)) ∧
  (∀ (s : State) (st : St) (ti : Fin 64) (tl : Tile) (r : MergeRec) (rest : List MergeRec) (fa : Fmt),
    vget (s.stn st).tiles ti = some tl → tl.mergeQ = r :: rest → Fmt.ofCode tl.bk.fmt = some fa →
    (∀ f ∈ (s.stn st).arr.flight ++ (s.stn st).arr.refeed, f.seq = r.seq → f.tile = some ti → f.void = true) → r.poison ≠ [] →
    ∃ t, exec (.mergeComplete st ti) s = .next t ∧ t.stations = s.stations ∧ Records s t (s.ownerOf st) 4 0x0400 (siteStation st noLoc2 noPc)) ∧
  (∀ (s s' : State) (st : St) (r : FlightRow) (rest : List FlightRow) (m : MmaRec) (o : Station × FlightRow), (s.stn st).arr.flight = r :: rest → r.left = true →
    r.void = false → (s.stn st).arr.mmas.find? (fun m => decide (m.e.seq = r.seq)) = some m →
    ((∀ v ∈ rowVerdicts r (s.stn st).arr.shape, v.1 = true) → enterTile (s.stn st) r = some o → enterPoison (s.stn st) r = false →
      s' = (if (rowVerdicts r (s.stn st).arr.shape).any (·.2) then s.count 0x9011 (st.val + 1) 1 else s) →
      exec (.witnessVerdict st) s = .next ((if r.again then s'.maskedMismatch st else s').modSt st fun _ => clearRow o.1 o.2)) ∧
    ((∃ v ∈ rowVerdicts r (s.stn st).arr.shape, v.1 = false) → (r.tile = none → r.again = false) → (r.tile ≠ none → m.retried = false ∧ r.rerun = false) →
      exec (.witnessVerdict st) s = .next (s.modSt st fun x => retry x r)) ∧
    ((∃ v ∈ rowVerdicts r (s.stn st).arr.shape, v.1 = false) → (r.tile = none → r.again = true) → (r.tile ≠ none → m.retried = true ∨ r.rerun = true) →
      ∃ t, exec (.witnessVerdict st) s = .next t ∧ t.stations = s.stations ∧ Records s t (s.ownerOf st) 2 0x0200 (siteStation st noLoc2 r.pc)))

/-- The vector instructions at issue, with the checks of R132, R193, R216, R258, R267, R268 and R270 met. (R132, R193, R216, R219, R258, R267, R268, R270) -/
def Obligations.VectorInstructionsIssue : Prop :=
  (∀ (s : State) (st : St) (p : Part) (w : W128), s.readyFor st p 0x50 w = true → fld w 11 8 ≤ 8 →
    ∃ t, exec (.vecSplit st) s = .next t ∧ IssuedAt s t st w) ∧
  (∀ (s : State) (st : St) (p : Part) (w : W128), s.readyFor st p 0x51 w = true →
    (kr (s.stn st).sq.k (fld w 12 8)).toNat + 16 * (fld w 16 13 + 1) ≤ progBase (s.prt p).prog →
    ∃ t, exec (.vecPro st) s = .next t ∧ IssuedAt s t st w) ∧
  (∀ (s : State) (st : St) (p : Part) (w : W128), s.readyFor st p 0x52 w = true →
    (kr (s.stn st).sq.k (fld w 12 8)).toNat + 16 * (fld w 16 13 + 1) ≤ progBase (s.prt p).prog →
    (fbit w 101 = true → fld w 105 102 ≤ 2 ∧ ∃ b b', (s.stn st).book (fin (fld w 100 96)) = some b ∧ b.outbound = false ∧ b.consume .aside = some b') →
    ∃ t, exec (.vecEpi st) s = .next t ∧ IssuedAt s t st w) ∧
  (∀ (s : State) (st : St) (p : Part) (w : W128) (x1 x2 x3 : Station), s.readyFor st p 0x53 w = true →
    (kr (s.stn st).sq.k (fld w 12 8)).toNat + 16 * (fld w 16 13 + 1) ≤ progBase (s.prt p).prog →
    vopFin w ≤ 4 → vopFout w ≤ 4 → (vopRed w = true → 2 ^ Nat.log2 (vopCols w) = vopCols w) → (vopOut w = false → vopRows w = 1 ∧ vopCols w ≤ 1024) →
    vopIn (s.stn st) (vopVin w) (rowBytes (vopFin w) (vopCols w)) = some x1 →
    (if vopIn2 w then vopIn x1 (vopVin2 w) (rowBytes (vopFin w) (vopCols w)) else some x1) = some x2 →
    (if vopOut w then vopOutVat x2 (vopVout w) (rowBytes (vopFout w) (if vopRed w then 1 else vopCols w)) else some x2) = some x3 →
    ∃ t, exec (.vecOp st) s = .next t ∧ IssuedAt s t st w) ∧
  (∀ (s : State) (st : St) (p : Part) (w : W128), s.readyFor st p 0x54 w = true → fld w 87 64 ≠ 0 →
    (kr (s.stn st).sq.k (fld w 12 8)).toNat + fld w 34 23 * (kr (s.stn st).sq.k (fld w 17 13)).toNat + (if fbit w 35 then 16 else 8) * (fld w 60 37 + 1)
      ≤ progBase (s.prt p).prog →
    (kr (s.stn st).sq.k (fld w 22 18)).toNat + 8 * (fld w 60 37 + 1) ≤ progBase (s.prt p).prog →
    ∃ t, exec (.vecNcomb st) s = .next t ∧ IssuedAt s t st w) ∧
  (∀ (s : State) (st : St) (p : Part) (w : W128), s.readyFor st p 0x55 w = true → fld w 21 8 + fld w 35 22 ≤ 16383 →
    ∃ t, exec (.vecSminit st) s = .next t ∧ IssuedAt s t st w) ∧
  (∀ (s : State) (st : St) (p : Part) (w : W128), s.readyFor st p 0x56 w = true →
    (kr (s.stn st).sq.k (fld w 12 8)).toNat + 4096 ≤ progBase (s.prt p).prog →
    ∃ t, exec (.vecRopeLoad st) s = .next t ∧ IssuedAt s t st w)

/-- The vector instructions as they fire. (R129, R133, R135, R137, R138, R142, R267, R269, R270) -/
def Obligations.VectorInstructionsFire : Prop :=
  (∀ (s : State) (st : St) (e : Entry), s.headOp st .vec 0x50 = some e → epiBusy (s.stn st) = false → proBusy (s.stn st) = false →
    exec (.vecSplitFire st) s = .next (s.modSt st fun x => (x.pop .vec).modVec fun v => { v with split := fld e.word 11 8 })) ∧
  (∀ (s : State) (st : St) (e : Entry) (us : List W128), s.headOp st .vec 0x51 = some e → proBusy (s.stn st) = false → uopList (s.stn st) e = some us → us.all (uopAllowed .pro) = true →
    exec (.vecProFire st) s = .next (s.modSt st fun x => (x.pop .vec).modVec fun v => { v with pro := some ⟨e, us⟩ })) ∧
  (∀ (s : State) (st : St) (e : Entry) (us : List W128), s.headOp st .vec 0x52 = some e → epiBusy (s.stn st) = false → uopList (s.stn st) e = some us →
    us.all (uopAllowed .epi) = true →
    exec (.vecEpiFire st) s = .next (s.modSt st fun x => (x.pop .vec).modVec fun v => { v with epi := some ⟨e, us⟩ })) ∧
  (∀ (s : State) (st : St) (p : Part) (m : VecRec) (x x2 : Station) (y y2 : Vat) (data data2 : List PByte) (tag tag2 : Option (W16 × Nat)) (raw raw2 : Bool) (fi fo : Fmt)
    (o : RowSt) (vs : List Val) (fl : Fl), s.jobAt st = some p → VopAt s st m x →
    vopRow x m.e (vopVin m.e.word) = .row y data tag raw → Fmt.ofCode (vopFin m.e.word) = some fi → Fmt.ofCode (vopFout m.e.word) = some fo →
    (vopIn2 m.e.word = true → vopRow (x.setVat (vopVin m.e.word) (some y)) m.e (vopVin2 m.e.word) = .row y2 data2 tag2 raw2 ∧
      x2 = (x.setVat (vopVin m.e.word) (some y)).setVat (vopVin2 m.e.word) (some y2)) →
    (vopIn2 m.e.word = false → data2 = [] ∧ x2 = x.setVat (vopVin m.e.word) (some y)) →
    o = runProg x2 m.uops ⟨.op, m.row, m.row = 0, rowVals fi data, rowVals fi data2, false, m.e, s.jobCtx p⟩ → o.fault = false → o.poison = false →
    anyPoison data = false → anyPoison data2 = false →
    vs = (if vopRed m.e.word then [(sumTree (Nat.log2 (vopCols m.e.word)) o.run).1] else o.run) →
    fl = (o.fl.or (drainBytes fo vs fun _ => false).2).or (if vopRed m.e.word then ⟨(sumTree (Nat.log2 (vopCols m.e.word)) o.run).2,
      !(sumTree (Nat.log2 (vopCols m.e.word)) o.run).1.finite⟩ else Fl.none) →
    (vopOut m.e.word = false → exec (.vecOpFire st) s = .next (s.modSt st fun _ => (o.x.flag fl).modVec fun v => { v with op := some { m with row := m.row + 1 } })) ∧
    (∀ (yo yo' : Vat) (x' : Station), vopOut m.e.word = true → (o.x.flag fl).vat (vopVout m.e.word) = some yo →
      putRow (o.x.flag fl) yo (drainBytes fo vs fun _ => false).1 none = .done x' yo' →
      exec (.vecOpFire st) s = .next (s.modSt st fun _ =>
        (x'.setVat (vopVout m.e.word) (some (if m.row + 1 = vopRows m.e.word then yo'.endFill else yo'))).modVec fun v =>
          { v with op := some { m with row := m.row + 1 } }))) ∧
  (∀ (s : State) (st : St) (m : VecRec), (s.stn st).vec.op = some m → vopRows m.e.word ≤ m.row →
    exec (.vecOpComplete st) s = .next (s.modSt st fun x => x.modVec fun v => { v with op := none })) ∧
  (∀ (s : State) (st : St) (e : Entry) (o : Station × Fl × Bool), s.headOp st .vec 0x54 = some e →
    o = (List.range (fld e.word 60 37 + 1)).foldl (fun (o : Station × Fl × Bool) r =>
      let v := ncombRow o.1 e r
      (lsPutF32 (lsPutF32 o.1 ((kr e.k (fld e.word 22 18)).toNat + 8 * r) v.1) ((kr e.k (fld e.word 22 18)).toNat + 8 * r + 4) v.2.1, o.2.1.or v.2.2.1, o.2.2 || v.2.2.2))
      ((s.stn st).pop .vec, Fl.none, false) → o.2.2 = false →
    exec (.vecNcombFire st) s = .next (s.modSt st fun _ => o.1.flag o.2.1)) ∧
  (∀ (s : State) (st : St) (e : Entry), s.headOp st .vec 0x55 = some e →
    exec (.vecSminitFire st) s = .next (s.modSt st fun x => (List.range (fld e.word 35 22 + 1)).foldl
      (fun x i => smPut x (fld e.word 21 8 + i) (.inf true) (.num false 0)) (x.pop .vec))) ∧
  (∀ (s : State) (st : St) (e : Entry), s.headOp st .vec 0x56 = some e → (kr e.k (fld e.word 12 8)).toNat % 8 = 0 →
    (∀ i < 512, leP ((s.stn st).lsRead ((kr e.k (fld e.word 12 8)).toNat + 8 * i) 8) < 2 ^ 48) →
    ∃ t, exec (.vecRopeLoadFire st) s = .next t ∧ t = { s with stations := t.stations } ∧
      (t.stn st).vec.rope = ((List.range 512).map fun i => leP ((s.stn st).lsRead ((kr e.k (fld e.word 12 8)).toNat + 8 * i) 8)).zipIdx.foldl
        (fun m (f, i) => sput 0 m i (BitVec.ofNat 64 f)) [] ∧ ∀ a, a ≠ st → t.stn a = s.stn a)

/-- The instructions that command what lies outside the station, at issue. (R156, R193, R197, R219, R271, R272, R273, R274, R345) -/
def Obligations.OutsideInstructionsIssue : Prop :=
  (∀ (s : State) (st : St) (p : Part) (w : W128), s.readyFor st p 0x60 w = true → ∃ t, exec (.engRoute st) s = .next t ∧ IssuedAt s t st w) ∧
  (∀ (s : State) (st : St) (p : Part) (w : W128), s.readyFor st p 0x61 w = true → ∃ t, exec (.engXpose st) s = .next t ∧ IssuedAt s t st w) ∧
  (∀ (s : State) (st : St) (p : Part) (w : W128), s.readyFor st p 0x62 w = true → ∃ t, exec (.engMadder st) s = .next t ∧ IssuedAt s t st w) ∧
  (∀ (s : State) (st : St) (p : Part) (w : W128) (b b' : VatBook), s.readyFor st p 0x70 w = true → (s.stn st).book (netVat w) = some b → b.outbound = true →
    netFault s p ((s.stn st).entryFor w) = false → b.consume .send = some b' → b.conss < b.len →
    ∃ t, exec (.netSend st) s = .next t ∧ IssuedAt s t st w ∧ (t.stn st).book (netVat w) = some b') ∧
  (∀ (s : State) (st : St) (p : Part) (w : W128), s.readyFor st p 0x80 w = true → s.inMorRange p (morNo w) = true →
    ∃ t, exec (.morWait st) s = .next t ∧ IssuedAt s t st w) ∧
  (∀ (s : State) (st : St) (p : Part) (w : W128), s.readyFor st p 0x81 w = true → (morRem w = false → s.inMorRange p (morNo w) = true) →
    fbit w 45 = (morRem w || decide (s.morHolder p (morNo w) ≠ some st)) → (morRem w = true → s.routeFault p (fld w 44 35) = false) →
    ∃ t, exec (.morAdd st) s = .next t ∧ IssuedAt s t st w) ∧
  (∀ (s : State) (st : St) (p : Part) (w : W128), s.readyFor st p 0x82 w = true → (morRem w = false → s.inMorRange p (morNo w) = true) →
    fbit w 45 = (morRem w || decide (s.morHolder p (morNo w) ≠ some st)) → (morRem w = true → s.routeFault p (fld w 44 35) = false) →
    ∃ t, exec (.morSet st) s = .next t ∧ IssuedAt s t st w) ∧
  (∀ (s : State) (st : St) (p : Part) (w : W128), s.readyFor st p 0x83 w = true → s.inMorRange p (morNo w) = true →
    ∃ t, exec (.morRead st) s = .next t ∧ IssuedAt s t st w) ∧
  (∀ (s : State) (st : St) (p : Part) (w : W128), s.readyFor st p 0x90 w = true → (s.stn st).arr.bkLoad = none →
    ∃ t, exec (.chkKat st) s = .next t ∧ IssuedAt s t st w)

/-- The instructions that send data out of the station, as they fire. (R271, R272, R341, R343, R346) -/
def Obligations.EngineAndSendInstructionsFire : Prop :=
  (∀ (op len : Nat) (c : St → Instr) (s : State) (st : St) (p : Part) (e : Entry) (d : DescTo),
    ((op = 0x60 ∧ len = 64 ∧ c = Instr.engRouteFire) ∨ (op = 0x61 ∧ len = 64 ∧ c = Instr.engXposeFire) ∨ (op = 0x62 ∧ len = 128 ∧ c = Instr.engMadderFire)) →
    s.headOp st .eng op = some e → s.jobAt st = some p → e.started = true → descDest (s.stn st) e = some d →
    (kr e.k (fld e.word 12 8)).toNat % len = 0 → (kr e.k (fld e.word 12 8)).toNat + len ≤ progBase (s.prt p).prog → s.descCredit p d = true →
    exec (c st) s = .next { s.modSt st fun x => x.pop .eng with
      descs := s.descs ++ [⟨d, st, p, e.pc, BitVec.ofNat 1024 (leP ((s.stn st).lsRead (kr e.k (fld e.word 12 8)).toNat len)),
        anyPoison ((s.stn st).lsRead (kr e.k (fld e.word 12 8)).toNat len)⟩] }) ∧
  (∀ (s : State) (st : St) (p : Part) (e : Entry) (y : Vat), s.headOp st .net 0x70 = some e → s.jobAt st = some p → (s.stn st).vat (netVat e.word) = some y →
    e.started = true → headFull y = true → (s.stn st).vatFenced (netVat e.word).val e.seq = false → s.inFlight st < 32 →
    (netKind e.word ≠ 1 → (y.slot y.head).count % 16 = 0 ∧ (kr e.k (fld e.word 17 13)).toNat % 16 = 0) →
    ¬ (netKind e.word = 0 ∧ s.ownRoute p (netRoute e.word) = true) → (netKind e.word ≠ 2 → s.ownKindFault p (netRoute e.word) (netKind e.word = 1) = false) →
    ∃ t x, exec (.netSendFire st) s = .next t ∧ t.stn st = ((s.stn st).pop .net).setVat (netVat e.word) (some (y.take false false)) ∧
      (∀ a, a ≠ st → t.stn a = s.stn a) ∧ t.xfers = s.xfers ++ [x] ∧
      x.kind = (if netKind e.word = 1 then .reduce else if netKind e.word = 2 then .multicast else .write) ∧ x.route = (if netKind e.word = 2 then (kr e.k (fld e.word 22 18)).toNat % 65536 else netRoute e.word) ∧
      x.addr = (kr e.k (fld e.word 17 13)).toNat ∧ x.bytes = (y.slot y.head).count ∧ x.data = (s.stn st).slotRead y y.head 0 (y.slot y.head).count ∧
      x.last.isSome = netMen e.word) ∧
  (∀ (s : State) (st : St) (p : Part) (e : Entry) (y : Vat), s.headOp st .net 0x70 = some e → s.jobAt st = some p → (s.stn st).vat (netVat e.word) = some y →
    e.started = true → headFull y = true → (s.stn st).vatFenced (netVat e.word).val e.seq = false → s.inFlight st < 32 →
    (y.slot y.head).count % 16 = 0 → (kr e.k (fld e.word 17 13)).toNat % 16 = 0 →
    netKind e.word = 0 → s.ownRoute p (netRoute e.word) = true → s.ownKindFault p (netRoute e.word) false = false →
    s.inWin p (kr e.k (fld e.word 17 13)).toNat (y.slot y.head).count = true →
    (netMen e.word = true → (s.morAt p (s.morOffset p ((kr e.k (fld e.word 56 52)).toNat % 65536)).toNat).isSome = true) →
    ∃ t x, exec (.netSendFire st) s = .next t ∧ (∀ a, a ≠ st → t.stn a = s.stn a) ∧ t.writes = s.writes ++ [x] ∧ t.xfers = s.xfers ∧
      x.part = p ∧ x.addr = (kr e.k (fld e.word 17 13)).toNat ∧ x.data = (s.stn st).slotRead y y.head 0 (y.slot y.head).count ∧ x.acc = false ∧ x.mordant.isSome = netMen e.word) ∧
  (∀ (s : State) (st : St) (p : Part) (e : Entry) (y : Vat), s.headOp st .net 0x70 = some e → s.jobAt st = some p → (s.stn st).vat (netVat e.word) = some y →
    e.started = true → headFull y = true → (s.stn st).vatFenced (netVat e.word).val e.seq = false → s.inFlight st < 32 →
    netKind e.word = 0 → s.ownRoute p (netRoute e.word) = true → s.inWin p (kr e.k (fld e.word 17 13)).toNat (y.slot y.head).count = false →
    ∃ t, exec (.netSendFire st) s = .next t ∧ t.stations = s.stations ∧ Records s t (s.ownerOf st) 1 0x0101 (siteStation st (netVat e.word).val e.pc))

/-- The mordant instructions as they fire and their operations as they arrive. (R218, R233, R273, R357, R358, R359, R360, R361, R362) -/
def Obligations.MordantInstructionsFire : Prop :=
  (∀ (s : State) (st : St) (p : Part) (e : Entry), s.headOp st .mor 0x80 = some e → s.jobAt st = some p → (s.mor (morNo e.word)).failed = false →
    (kr e.k (morKv e.word)).toNat ≤ (s.mor (morNo e.word)).count.toNat →
    exec (.morWaitFire st) s = .next (s.modSt st fun x => x.pop .mor)) ∧
  (∀ (s : State) (st : St) (p : Part) (e : Entry), s.headOp st .mor 0x80 = some e → s.jobAt st = some p → (s.mor (morNo e.word)).failed = true →
    ∃ t, exec (.morWaitFire st) s = .next t ∧ Records s t (some p) 8 0x0801 (siteStation ((s.morHolder p (morNo e.word)).getD 0) noLoc2 e.pc)) ∧
  (∀ (op : Nat) (c : St → Instr) (s : State) (st : St) (p : Part) (e : Entry), (op = 0x81 ∧ c = Instr.morAddFire ∨ op = 0x82 ∧ c = Instr.morSetFire) →
    s.headOp st .mor op = some e → s.jobAt st = some p → (isCalendar e.word = true → e.started = true) →
    (morRem e.word = false → exec (c st) s = .next { s.modSt st fun x => x.pop .mor with
      morOps := s.morOps ++ [⟨some st, p, BitVec.ofNat 16 (morNo e.word), decide (op = 0x82), kr e.k (morKv e.word), false⟩] }) ∧
    (∀ m, morRem e.word = true → s.ownRoute p (fld e.word 44 35) = true → s.ownKindFault p (fld e.word 44 35) false = false →
      s.morAt p (s.morOffset p (morNo e.word)).toNat = some m →
      exec (c st) s = .next { s.modSt st fun x => x.pop .mor with morOps := s.morOps ++ [⟨some st, p, m, decide (op = 0x82), kr e.k (morKv e.word), false⟩] }) ∧
    (morRem e.word = true → s.ownRoute p (fld e.word 44 35) = true → s.morAt p (s.morOffset p (morNo e.word)).toNat = none →
      ∃ t, exec (c st) s = .next t ∧ t.stations = s.stations ∧ t.morOps = s.morOps ∧ Records s t (s.ownerOf st) 1 0x0101 (siteStation st noLoc2 e.pc))) ∧
  (∀ (op : Nat) (c : St → Instr) (s : State) (st : St) (p : Part) (e : Entry), (op = 0x81 ∧ c = Instr.morAddFire ∨ op = 0x82 ∧ c = Instr.morSetFire) →
    s.headOp st .mor op = some e → s.jobAt st = some p → (isCalendar e.word = true → e.started = true) → morRem e.word = true →
    s.ownRoute p (fld e.word 44 35) = false →
    ∃ t x, exec (c st) s = .next t ∧ t.stations = (s.modSt st fun x => x.pop .mor).stations ∧ t.xfers = s.xfers ++ [x] ∧
      x.kind = (if op = 0x82 then .morSet else .morAdd) ∧ x.value = kr e.k (morKv e.word) ∧ x.route = fld e.word 44 35 ∧ x.addr = (s.morOffset p (morNo e.word)).toNat) ∧
  (∀ (s : State) (st : St) (e : Entry), s.headOp st .mor 0x83 = some e →
    ∃ t, exec (.morReadFire st) s = .next t ∧ t = { s with stations := t.stations } ∧
      (t.stn st).morReads = (s.stn st).morReads ++ [⟨morKv e.word, (s.mor (morNo e.word)).count, e.seq⟩] ∧ (t.stn st).morQ = (s.stn st).morQ.drop 1) ∧
  (∀ (s : State) (st : St) (r : MorRead) (rest : List MorRead), (s.stn st).morReads = r :: rest →
    exec (.morReadRegisterWritten st) s = .next (s.modSt st fun x => { x with morReads := rest, sq := x.sq.writeAt r.reg r.seq r.value })) ∧
  (∀ (s : State) (k : Nat) (m : MorOp), s.morOps[k]? = some m → (∀ o ∈ s.morOps.take k, o.mor = m.mor → o.st ≠ m.st) → s.stuckMor m = none →
    (s.loaded m.part = false → exec (.mordantOperationArrival k) s = .next { s with morOps := s.morOps.eraseIdx k }) ∧
    (s.loaded m.part = true → m.poison = false → m.set = false →
      exec (.mordantOperationArrival k) s = .next ({ s with morOps := s.morOps.eraseIdx k }.morAdd m.part m.mor.toNat m.value.toNat)) ∧
    (s.loaded m.part = true → m.poison = false → m.set = false → (s.mor m.mor.toNat).count.toNat + m.value.toNat < 2 ^ 64 →
      exec (.mordantOperationArrival k) s = .next ({ s with morOps := s.morOps.eraseIdx k }.setMor m.mor.toNat { s.mor m.mor.toNat with count := (s.mor m.mor.toNat).count + m.value })) ∧
    (s.loaded m.part = true → m.poison = false → m.set = true →
      exec (.mordantOperationArrival k) s = .next ({ s with morOps := s.morOps.eraseIdx k }.setMor m.mor.toNat { s.mor m.mor.toNat with count := m.value })) ∧
    (s.loaded m.part = true → m.poison = true → ∃ t, exec (.mordantOperationArrival k) s = .next t ∧ t.mordants = s.mordants ∧
      Records s t (some m.part) 4 0x0400 (siteStation ((s.morHolder m.part m.mor.toNat).getD 0) noLoc2 noPc))) ∧
  (∀ (s : State) (st : St) (u : UnitQ) (p : Part) (e : Entry) (m : Nat) (v : W64), waitsOn (s.stn st) u = some (e, m, v) → s.jobAt st = some p →
    (s.mor m).failed = false → (s.mor m).count.toNat < v.toNat → (s.prt p).held = false → (s.prt p).morTimeout * 1000 ≤ (e.waited - 1) * 512 →
    ∃ t, exec (.mordantTimeout st u) s = .next t ∧ Records s t (s.ownerOf st) 5 0x0500 (siteStation st noLoc2 e.pc))

/-- Known-answer testing and observation. The values that a slice leaves in the test registers are free (log entry 14), and so are the kernels' seeds and expected signatures (log entry 121). (R155, R156, R157, R158, R279, R398, R399, R401, R402, R404, R408) -/
def Obligations.KnownAnswerTests : Prop :=
  (∀ (s : State) (st : St) (p : Part) (e : Entry), s.headOp st .chk 0x90 = some e → s.jobAt st = some p → katFree (s.stn st) = true → (s.prt p).held = false →
    ∃ t k, exec (.chkKatFire st) s = .next t ∧ k = ((s.hlt st).pick (s.observed st)).1 ∧ (t.stn st).arr.slice = some ⟨k, Config.kernelSeed k, (s.stn st).arr.shape, e.pc, false⟩ ∧
      (t.stn st).arr.shadow = some (testBlock (Config.kernelSeed k) k (s.stn st).arr.shape) ∧
      (t.stn st).chkQ = (s.stn st).chkQ.drop 1 ∧ t = { s with stations := t.stations, health := t.health } ∧ ∀ a, a ≠ st → t.stn a = s.stn a) ∧
  (∀ (s : State) (st : St) (c : Slice) (b : SliceBits), (s.stn st).arr.slice = some c → s.regsWf = true →
    ∃ t, exec (.testSliceEnd st b) s = .next t ∧ (t.stn st).arr.slice = none ∧ (t.stn st).arr.shadow = none ∧ (t.stn st).arr.active = (s.stn st).arr.active ∧ (t.stn st).arr.signature = sliceSigs b ∧
      t.reg 0x9020 (st.val + 1) = min (s.reg 0x9020 (st.val + 1) + 1) 0xFFFFFFFF ∧ t.mem = s.mem ∧ (t.stn st).ls = (s.stn st).ls ∧ (t.stn st).tiles = (s.stn st).tiles ∧
      (slicePasses c.kern c.shape b = true → t.faults = s.faults ∧ t.beat = s.beat) ∧
      (slicePasses c.kern c.shape b = false → c.direct = true → t.faults = s.faults ∧ t.beat = s.beat ∧ (t.hlt st).again = some c.kern ∧ (t.hlt st).isolate = true ∧ (t.hlt st).lastPass = none) ∧
      (slicePasses c.kern c.shape b = false → c.direct = false → Records s t (s.ownerOf st) 3 0x0300 (siteStation st noLoc2 c.pc) ∧ (t.hlt st).again = some c.kern) ∧
      ∀ a, a ≠ st → t.stn a = s.stn a) ∧
  (∀ (s : State) (st : St), s.stationIdle st = true → s.stewardUp = true → (s.stn st).arr.slice = none → s.regsWf = true →
    ∃ t k, exec (.directTestSlice st) s = .next t ∧ k = ((s.hlt st).pick (s.observed st)).1 ∧ (t.stn st).arr.slice = some ⟨k, Config.kernelSeed k, (s.stn st).arr.shape, noPc, true⟩ ∧
      t.reg 0x4101 (st.val + 1) = 1100 ∧ t = { s with stations := t.stations, health := t.health, dict := t.dict } ∧ ∀ a, a ≠ st → t.stn a = s.stn a) ∧
  (∀ (s : State) (st : St) (n : Nat), s.stewardUp = true → (s.hlt st).queue.length ≤ 8192 →
    ∃ t, exec (.katQueueFill st n) s = .next t ∧ (t.hlt st).queue.length = min 8192 ((s.hlt st).queue.length + n) ∧ t = { s with health := t.health }) ∧
  (∀ (s : State) (st : St), s.stationIdle st = true → s.stewardUp = true → (s.stn st).arr.slice = none → s.regsWf = true →
    ∃ t, exec (.idleStationRotation st none) s = .next t ∧ (t.hlt st).lastPass = some (s.time, s.time) ∧ t.faults = s.faults ∧ t.mem = s.mem ∧
      t.reg 0x9020 (st.val + 1) = min (s.reg 0x9020 (st.val + 1) + 65536) 0xFFFFFFFF) ∧
  (∀ (s : State) (st : St) (k : Nat) (b : SliceBits), s.stationIdle st = true → s.stewardUp = true → (s.stn st).arr.slice = none → k < 65536 → b.clear = false →
    ∃ t, exec (.idleStationRotation st (some (k, b))) s = .next t ∧ (t.hlt st).again = some k ∧ (t.hlt st).isolate = true ∧ (t.hlt st).lastPass = none ∧ t.faults = s.faults ∧ t.mem = s.mem) ∧
  (∀ (s : State) (st : St), ∃ t, exec (.sequencerCompareMismatch st) s = .next t ∧ (t.stn st).sq.stopped = true ∧
    Records s t (s.ownerOf st) 3 0x0301 (siteStation st noLoc2 (s.stn st).sq.pc)) ∧
  (∀ (s : State) (st : St), s.reg 0x7010 (st.val + 1) = 1 → s.stewardUp = true → s.passed (s.hlt st).lastEvent (3 * dayNs) = true → s.regsWf = true →
    ∃ t, exec (.observationExpiry st) s = .next t ∧ t.reg 0x7010 (st.val + 1) = 0 ∧ t.reg 0x7015 0 = 0 ∧ t = { s with dict := t.dict, saved := t.saved, stw := { s.stw with hourBad := true } })

/-- The routing engines (R150 to R154) and the transpose engines (R175 to R178), block by block (log entry 16). (R20, R150, R151, R152, R153, R154, R165, R175, R176, R177, R178) -/
def Obligations.RoutingAndTransposeEnginesRun : Prop :=
  ((∀ (s : State) (g : Eng) (d : DescFlight) (pre post : List DescFlight), s.descs = pre ++ d :: post → d.dst = .route g → s.stuckDesc d = none →
    (∀ o ∈ pre, o.dst = .route g → s.stuckDesc o ≠ none ∧ o.part ≠ d.part) →
    (jobHolds (s.prt d.part) = true →
      exec (.routeDescriptorArrival g) s = .next (State.setRouteQ { s with descs := pre ++ post } g d.part (s.routeQ g d.part ++ [d.enter]))) ∧
    (jobHolds (s.prt d.part) = false → exec (.routeDescriptorArrival g) s = .next { s with descs := pre ++ post })) ∧
  (∀ (op : Nat) (c : Eng → Part → MemEcc → Instr) (blk : MemEcc → Eng → Part → DescRec → State → Except Halt (DescRec × State))
    (s : State) (g : Eng) (p : Part) (e : MemEcc) (d : DescRec) (rest : List DescRec),
    (op = 0 ∧ c = Instr.routeGather ∧ blk = gatherNext ∨ op = 1 ∧ c = Instr.routeCombine ∧ blk = combineNext) →
    s.routeQ g p = d :: rest → (rtOp d = op ∨ op = 0 ∧ 1 < rtOp d) → (s.prt p).held = false → s.routeUp g = true → (d.checked = true → d.done < rtTotal d) →
    (∀ d' s2, routeTry (blk e g p) e g p d s = .ok (d', s2) → exec (c g p e) s = .next (s2.setRouteHead g p d')) ∧
    (∀ s1 n dt x, routeTry (blk e g p) e g p d s = .error (.fault s1 n dt x) → exec (c g p e) s = .next ((s1.setRouteQ g p rest).raise (some p) n dt x)) ∧
    (d.checked = false → d.poison = true → ∃ u, exec (c g p e) s = .next u ∧ u.routeQ g p = rest ∧ Records s u (some p) 4 0x0401 (routeSite g d))) ∧
  (∀ (s : State) (g : Eng) (p : Part) (d : DescRec) (rest : List DescRec), s.routeQ g p = d :: rest → d.checked = true → rtTotal d ≤ d.done →
    exec (.routeDescriptorComplete g p) s = .next { s.setRouteQ g p rest with
      morOps := s.morOps ++ [⟨none, p, BitVec.ofNat 16 (dfld d 399 384), false, 1, false⟩] })) ∧
  ((∀ (s : State) (t : Twr) (d : DescFlight) (pre post : List DescFlight), s.descs = pre ++ d :: post → d.dst = .transpose t → s.stuckDesc d = none →
    (∀ o ∈ pre, o.dst = .transpose t → s.stuckDesc o ≠ none ∧ o.part ≠ d.part) → s.towerUp t = true →
    (jobHolds (s.prt d.part) = true →
      exec (.transposeDescriptorArrival t) s = .next (State.setXq { s with descs := pre ++ post } t d.part (vget (s.twr t).xq d.part ++ [d.enter]))) ∧
    (jobHolds (s.prt d.part) = false → exec (.transposeDescriptorArrival t) s = .next { s with descs := pre ++ post })) ∧
  (∀ (s s1 : State) (t : Twr) (p : Part) (e : MemEcc) (d : DescRec) (rest : List DescRec), vget (s.twr t).xq p = d :: rest → (s.prt p).held = false → s.engineUp t p = true →
    (d.checked = true → d.done < xpRows d * xpCols d) → (d.checked = false → d.poison = false ∧ xposeOk s t p d = true) → s.xposeFree d = true →
    (List.range (xpNext d)).foldlM (fun s i => xposeElem e p (xposeEng t d) d s (d.done + i)) s = Except.ok s1 →
    exec (.transposeRun t p e) s = .next (s1.setXq t p ({ d with checked := true, done := d.done + xpNext d } :: rest))) ∧
  (∀ (s : State) (t : Twr) (p : Part) (e : MemEcc) (d : DescRec) (rest : List DescRec) (s1 : State) (n dt : Nat) (x : Site), vget (s.twr t).xq p = d :: rest → (s.prt p).held = false → s.engineUp t p = true →
    (d.checked = true → d.done < xpRows d * xpCols d) → (d.checked = false → d.poison = false ∧ xposeOk s t p d = true) → s.xposeFree d = true →
    (List.range (xpNext d)).foldlM (fun s i => xposeElem e p (xposeEng t d) d s (d.done + i)) s = Except.error (.fault s1 n dt x) →
    exec (.transposeRun t p e) s = .next ((s1.setXq t p rest).raise (some p) n dt x)) ∧
  (∀ (s : State) (t : Twr) (p : Part) (e : MemEcc) (d : DescRec) (rest : List DescRec), vget (s.twr t).xq p = d :: rest → (s.prt p).held = false → s.engineUp t p = true →
    d.checked = false →
    (d.poison = true → ∃ u, exec (.transposeRun t p e) s = .next u ∧ vget (u.twr t).xq p = rest ∧ Records s u (some p) 4 0x0401 (towerSite t 1 d.st.val d.pc)) ∧
    (d.poison = false → xposeOk s t p d = false →
      ∃ u, exec (.transposeRun t p e) s = .next u ∧ vget (u.twr t).xq p = rest ∧ Records s u (some p) 1 0x0102 (towerSite t 1 d.st.val d.pc))) ∧
  (∀ (s : State) (t : Twr) (p : Part) (d : DescRec) (rest : List DescRec), vget (s.twr t).xq p = d :: rest → d.checked = true → xpRows d * xpCols d ≤ d.done →
    exec (.transposeComplete t p) s = .next { s.setXq t p rest with
      morOps := s.morOps ++ [⟨none, p, BitVec.ofNat 16 (dfld d 287 272), false, 1, false⟩] }))

/-- The Madder engines, group by group (log entry 16). (R165, R179, R180, R182, R183, R184, R185, R187, R190, R421, R428) -/
def Obligations.MadderEngineRuns : Prop :=
  (∀ (s : State) (t : Twr) (d : DescFlight) (pre post : List DescFlight), s.descs = pre ++ d :: post → d.dst = .madder t → s.stuckDesc d = none →
    (∀ o ∈ pre, o.dst = .madder t → s.stuckDesc o ≠ none ∧ o.part ≠ d.part) → s.towerUp t = true →
    (jobHolds (s.prt d.part) = true →
      exec (.madderDescriptorArrival t) s = .next (State.setMq { s with descs := pre ++ post } t d.part (vget (s.twr t).mq d.part ++ [d.enter]))) ∧
    (jobHolds (s.prt d.part) = false → exec (.madderDescriptorArrival t) s = .next { s with descs := pre ++ post })) ∧
  (∀ (mode : Nat) (c : Twr → Part → MemEcc → Instr) (s : State) (t : Twr) (p : Part) (e : MemEcc) (d : DescRec) (rest : List DescRec),
    (mode = 0 ∧ c = Instr.madderAdaptiveUpdate ∨ mode = 1 ∧ c = Instr.madderMomentumUpdate) → vget (s.twr t).mq p = d :: rest → (mdMode d = mode ∨ mode = 0 ∧ 1 < mdMode d) → s.engineUp t p = true → d.wq = [] →
    (d.checked = true → d.done < mdCount d) → (d.checked = true ∨ d.poison = false ∧ madderOk s t p d = true → s.madderFree d (min 1024 (mdCount d - d.done)) = true) →
    (d.checked = false → s.awaitsOpen p (mdStep d) = false) → ((s.prt p).held = true → d.hold = true) →
    (∀ (s1 s2 : State) (d1 : DescRec) (es : List Elem) (fl : Fl) (o : List (Nat × List Byte) × State),
      (d.checked = false → d.poison = false → madderOk s t p d = true → s.stepBlocked p (mdStep d) = false) →
      (if d.checked then .ok (d, s) else madderStart e t p d s) = Except.ok (d1, s1) →
      groupElems e (towerSite t 0 d.st.val d.pc) d1 (min 1024 (mdCount d - d.done)) s1 = Except.ok (es, s2) →
      fl = (if d1.skip then Fl.none else es.foldl (fun f e => f.or e.fl) (groupCopies d1 es).2) →
      o = madderFlow e (madderGroup d1 (min 1024 (mdCount d - d.done)) es) s2 →
      exec (c t p e) s = .next ((o.2.orStatus d1.st fl.ovf fl.nv).setMq t p
        ({ d1 with done := d1.done + min 1024 (mdCount d - d.done), hold := false, wq := o.1 } :: rest))) ∧
    (d.checked = false → d.poison = false → madderOk s t p d = true → s.stepBlocked p (mdStep d) = true → d.hold = false →
      exec (c t p e) s = .next ((s.setMq t p ({ d with hold := true } :: rest)).count 0x9091 (p.val + 1))) ∧
    (∀ s1 n dt x, d.checked = false → (d.poison = false → madderOk s t p d = true → s.stepBlocked p (mdStep d) = false) → madderStart e t p d s = Except.error (.fault s1 n dt x) →
      exec (c t p e) s = .next ((s1.setMq t p rest).raise (some p) n dt x)) ∧
    (∀ (s1 s2 : State) (d1 : DescRec) (n dt : Nat) (x : Site), (d.checked = false → d.poison = false → madderOk s t p d = true → s.stepBlocked p (mdStep d) = false) →
      (if d.checked then .ok (d, s) else madderStart e t p d s) = Except.ok (d1, s1) →
      groupElems e (towerSite t 0 d.st.val d.pc) d1 (min 1024 (mdCount d - d.done)) s1 = Except.error (.fault s2 n dt x) →
      exec (c t p e) s = .next ((s2.setMq t p rest).raise (some p) n dt x))) ∧
  (∀ (s : State) (t : Twr) (p : Part) (d : DescRec) (rest : List DescRec), vget (s.twr t).mq p = d :: rest → d.checked = true → mdCount d ≤ d.done → d.wq = [] →
    exec (.madderComplete t p) s = .next { s.modTwr t fun x => { x with mq := vset x.mq p rest, settled := vset x.settled p (vget x.maxStep p) } with
      morOps := s.morOps ++ [⟨none, p, BitVec.ofNat 16 (dfld d 287 272), false, 1, false⟩] }) ∧
  (∀ (s : State) (t : Twr) (p : Part) (e : MemEcc) (d : DescRec) (rest : List DescRec) (w : Nat × List Byte) (l : List (Nat × List Byte)), vget (s.twr t).mq p = d :: rest →
    d.wq = w :: l → s.engineUp t p = true → (∀ a ∈ s.madderPlaces w.1, s.channelFree a w.2.length = true) →
    (∀ s1, s.madderWrite e w.1 w.2 = some s1 →
      exec (.securedBlockWrite t p e) s = .next ((madderFlow e l s1).2.setMq t p ({ d with hold := false, wq := (madderFlow e l s1).1 } :: rest))) ∧
    (s.madderWrite e w.1 w.2 = none → exec (.securedBlockWrite t p e) s = .next (s.setMq t p ({ d with hold := true } :: rest))))

/-- Tower and stash accesses, part by part (R163, R212). The bytes that a retired tower returns are free (log entry 14); the order of requests is that of the commands (log entry 119). (R26, R163, R164, R166, R167, R170, R174, R187, R188, R201, R212, R213) -/
def Obligations.TowersAndStashesServe : Prop :=
  (∀ (s s' : State) (k i : Nat) (e : MemEcc) (f : Fetch) (x : ReqPart), s.fetches[k]? = some f → f.parts[i]? = some x → f.remote = false → x.data = none →
    behind (f.ahead i) x.addr = false → s.fetchBehind k f x.addr = false → s.stuckPart f.st x.addr true = none → s' = s.findings e x.addr x.len →
    (∀ t off, place x.addr = .tower t off → s.maintenance = false → s.towerServes t x.addr = true →
      exec (.towerRead k i e) s = .next { s' with fetches := lset s'.fetches k (f.fill i x (carried e x.addr (s'.curRead x.addr x.len))) }) ∧
    (∀ east off, place x.addr = .stash east off →
      exec (.stashRead k i e) s = .next { s' with fetches := lset s'.fetches k (f.fill i x (carried e x.addr (s'.curRead x.addr x.len))) }) ∧
    (e = ⟨[], [], []⟩ → s' = s ∧ carried e x.addr (s'.curRead x.addr x.len) = s.curRead x.addr x.len)) ∧
  (∀ (s : State) (k i : Nat) (e : MemEcc) (w : MemWrite) (x : Nat × Nat) (t : Twr) (off : Nat), s.writes[k]? = some w → w.parts[i]? = some x → s.writeHeld k w i x = false →
    place x.1 = .tower t off → s.maintenance = false → s.towerServes t x.1 = true →
    (s.secured x.1 x.2 = false →
      (∀ s', w.acc = false → s' = (s.mergeFindings e x.1 x.2).towerWrite x.1 (carried e x.1 (w.bytes x)) →
        exec (.towerWrite k i e) s = .next { s' with writes := lset s'.writes k (w.served i) }) ∧
      (∀ s' o, w.acc = true → o = (chunks 4 (x.2 / 4) (carried e x.1 (w.bytes x))).zipIdx.foldl (fun (o : State × Fl) (y : List PByte × Nat) =>
          ((o.1.accWord (x.1 + 4 * y.2) y.1).1, o.2.or (o.1.accWord (x.1 + 4 * y.2) y.1).2)) (s.extentFindings e x.1 x.2, Fl.none) → s' = o.1.orStatus w.who o.2.ovf o.2.nv →
        exec (.accumulatingWrite k i e) s = .next { s' with writes := lset s'.writes k (w.served i) })) ∧
    (s.secured x.1 x.2 = true → ∃ u, exec (if w.acc then .accumulatingWrite k i e else .towerWrite k i e) s = .next u ∧ u.mem = s.mem ∧ u.poison = s.poison ∧
      u.writes = ldel s.writes k ∧ Records s u (some w.part) 1 0x0102 w.site)) ∧
  (∀ (s : State) (k i : Nat) (w : MemWrite) (x : Nat × Nat) (east : Bool) (off : Nat), s.writes[k]? = some w → w.parts[i]? = some x → s.writeHeld k w i x = false →
    place x.1 = .stash east off → exec (.stashWrite k i) s = .next { s.stashWrite x.1 (w.bytes x) with writes := lset s.writes k (w.served i) }) ∧
  (∀ (s : State) (k : Nat) (f : Fetch), s.fetches[k]? = some f → f.remote = false → (∃ x ∈ f.parts, x.data = none ∧ s.deadPart x.addr = true ∧ s.stuckPart f.st x.addr true = none) →
    exec (.retiredTowerAccess (.read k)) s = .next { s with fetches := lset s.fetches k (s.poisonParts f), draws := s.draws + f.bytes + 4096 }) ∧
  (∀ (s : State) (k : Nat) (w : MemWrite) (left : List (Nat × Nat)), s.writes[k]? = some w → left = w.parts.filter (fun x => !s.deadPart x.1 || (s.stuckPart w.who x.1 false).isSome) → left.length < w.parts.length →
    exec (.retiredTowerAccess (.write k)) s = .next { s with
      writes := if left = [] then ldel s.writes k else lset s.writes k { w with parts := left, mordant := none } }) ∧
  (∀ (s : State) (t : Twr) (madder : Bool) (d : DescFlight), s.descs.find? (fun d => decide (d.dst = if madder then .madder t else .transpose t)) = some d →
    (s.towerUp t = false ∨ vget (s.twr t).gone d.part = true) → s.stuckDesc d = none →
    ∃ u, exec (.retiredTowerAccess (if madder then .madder t else .transpose t)) s = .next u ∧ u.descs = s.descs.erase d ∧
      Records s u (some d.part) 1 0x0102 (towerSite t (if madder then 0 else 1) d.st.val d.pc))

/-- Tower upkeep. (R164, R169, R171, R172, R174) -/
def Obligations.TowerUpkeep : Prop :=
  (∀ (s s' : State) (t : Twr) (c : Fin 16) (e : MemEcc), s.maintenance = true → s.towerUp t = true → s.halfUp (towerHalf t) = true →
    vget (s.twr t).maint c ≠ some (s.time.toNat / 512) → s' = s.modTwr t (fun x => { x with maint := vset x.maint c (some (s.time.toNat / 512)) }) →
    (∀ cp, vget (s.twr t).copies c = some cp → exec (.maintenanceWindow t c e) s = .next (if 32768 ≤ cp.pieces then s' else s'.copyNext t c cp e)) ∧
    (vget (s.twr t).copies c = none → exec (.maintenanceWindow t c e) s = .next (s'.scrubNext t c e))) ∧
  (∀ (s : State) (t : Twr) (c : Fin 16) (cp : BankCopy), vget (s.twr t).copies c = some cp → 32768 ≤ cp.pieces → s.regsWf = true → s.reg 0x8031 (t.val + 1) < 2 ^ 64 →
    ∃ u, exec (.bankCopyComplete t c) s = .next u ∧ vget (u.twr t).sparesUsed c = cp.spare + 1 ∧
      sget 0 (u.twr t).bankMap (c.val * 32 + cp.bank) = cp.spare + 1 ∧ u.reg 0x8031 (t.val + 1) = s.reg 0x8031 (t.val + 1) - 1 ∧ u.mem = s.mem ∧
      ((s.twr t).retire.find? (fun k => k / 32 = c.val) = none → vget (u.twr t).copies c = none) ∧
      (∀ k, (s.twr t).retire.find? (fun k => k / 32 = c.val) = some k → cp.spare = 0 → vget (u.twr t).copies c = some ⟨k % 32, 1, 0⟩)) ∧
  (∀ (s : State) (t : Twr) (p : Part), s.towerUp t = true → (s.towerWindow p t).isSome = true → s.loaded p = true → s.regsWf = true →
    ∃ u, exec (.towerLoss t) s = .next u ∧ u.reg 0x8030 (t.val + 1) = 3 ∧ u.mem = s.mem ∧ Records s u (some p) 9 0x0901 (towerSite t 0xFF 0xFF noPc))

/-- Drains and copy-back of a securing epoch (Table 06-6). (R164, R165, R186, R187, R190, R428, R436, R438) -/
def Obligations.DrainsAndCopyBack : Prop :=
  (∀ (s s1 s2 s3 : State) (t : Twr) (p : Part) (k : Nat) (ecc : MemEcc) (e : TowerEpoch) (i : Image) (b : SecBlock), vget (s.twr t).epochs p = some e → (s.sec p).epoch = some i → e.blocks[k]? = some b →
    e.aborted = false → b.drained = false → nextDrain e = some k → s.maintenance = false → s.towerUp t = true → s.halfUp (towerHalf t) = true → s.tierTakes p i.tier = true → s.drainRun p t i.tier = true →
    s1 = s.sectorsRead t ecc b.addr 65536 → s2 = s1.modBlock t p k (fun b => { b with reads := [(0, 65536)] }) →
    s3 = s2.modSec p (fun x => { x with epoch := some { i with
      crcs := i.crcs ++ [(s1.imageIndex p t k, BitVec.ofNat 32 (crc32c (rawBytes (s1.memRead b.addr 65536))))]
      poisoned := i.poisoned || anyPoison (s1.memRead b.addr 65536) } }) →
    exec (.drainRead t p k ecc) s = .next (if i.tier = 0 then s3.sendPartner p t k (s1.memRead b.addr 65536) else s3)) ∧
  (∀ (s : State) (t : Twr) (p : Part) (k : Nat) (e : TowerEpoch) (b : SecBlock), vget (s.twr t).epochs p = some e → e.blocks[k]? = some b → spansFull b.reads 65536 = true →
    (b.st = .pending → exec (.blockDrainComplete t p k) s = .next (State.noteEpoch s p
      ((((s.modBlock t p k fun b => { b with st := .out }).closeEpoch t p).dropHold t p fun d => d.checked).sendCommit p))) ∧
    (b.st = .shadowed → exec (.blockDrainComplete t p k) s = .next (State.noteEpoch s p ((s.modBlock t p k fun b => { b with st := .returning }).sendCommit p)))) ∧
  (∀ (s s1 : State) (t : Twr) (p : Part) (k j : Nat) (g : Fin 16) (ecc : MemEcc) (e : TowerEpoch) (b : SecBlock), vget (s.twr t).epochs p = some e → e.blocks[k]? = some b →
    b.st = .returning → b.slot = some j → b.marks.contains g.val = true → s.towerUp t = true → s.halfUp (towerHalf t) = true →
    (∀ a ∈ [s.slotAddr t p j + g.val * 4096, b.addr + g.val * 4096], s.channelFree a 4096 = true ∧ s.engineWants a = false) →
    s1 = (s.sectorsRead t ecc (s.slotAddr t p j + g.val * 4096) 4096).copyGranule (s.slotAddr t p j + g.val * 4096) (b.addr + g.val * 4096) →
    (setDel b.marks g.val ≠ [] → exec (.copyBackGranule t p k g ecc) s = .next (State.noteEpoch s1 p
      (((s1.modBlock t p k fun _ => { b with marks := setDel b.marks g.val }).closeEpoch t p).dropHold t p fun _ => false))) ∧
    (setDel b.marks g.val = [] → exec (.copyBackGranule t p k g ecc) s = .next (State.noteEpoch s1 p
      (((s1.modBlock t p k fun _ => { b with marks := [], slot := none, st := .out }).closeEpoch t p).dropHold t p fun d => d.checked))))

/-- The calendar: frame and window marks, the start of transfers, the stall limit, sight gaps and the test share. (R222, R224, R229, R230, R232, R235, R287, R320, R362, R383) -/
def Obligations.CalendarMarks : Prop :=
  (∀ (s : State), s.time.toNat % 512 = 0 → s.clk.frameMark ≠ some s.time → (s.time.toNat % 4096 = 0 → s.clk.windowMark = some s.time) →
    ∃ t, exec .frameMark s = .next t ∧ t.clk = { s.clk with stretch := Vector.replicate 73 0, frameMark := some s.time } ∧ (∀ q, (t.port q).slot = 0) ∧
      ∀ p, (s.prt p).jobState = 3 → (t.prt p).frameOn = true ∧ (t.prt p).frameHeld = (s.prt p).held ∧
        (t.prt p).frame = if !(s.prt p).frameOn then 0 else if (s.prt p).frameHeld then (s.prt p).frame else (s.prt p).frame + 1) ∧
  (∀ (s : State), s.time.toNat % 4096 = 0 → s.clk.windowMark ≠ some s.time →
    ∃ t, exec .windowMark s = .next t ∧ t.clk = { s.clk with windowMark := some s.time } ∧ t.time = s.time ∧ t.mem = s.mem ∧ t.mordants = s.mordants ∧
      ∀ p, (t.prt p).held = (s.loaded p && ((s.prt p).asserted || s.sawHold p (s.windowNo - 1)))) ∧
  (∀ (s : State) (st : St) (u : UnitQ) (p : Part) (e : Entry) (q : List Entry), (s.stn st).queue u = e :: q → s.jobAt st = some p → isCalendar e.word = true → e.started = false → s.gateFailed e = false →
    (s.prt p).held = false → (s.prt p).frameOn = true → leadOver (s.prt p).frame e.beat = true → s.calReady p st u e = true →
    exec (.transferStart st u) s = .next (s.modSt st fun x => let y := x.setQueue u ({ e with started := true } :: q)
      { y with sq := { y.sq with raises := y.sq.raises.filter fun r => r.1 ≠ e.seq } })) ∧
  (∀ (s : State) (st : St) (u : UnitQ) (p : Part) (e : Entry) (q : List Entry), (s.stn st).queue u = e :: q → s.jobAt st = some p → isCalendar e.word = true → e.started = false →
    s.gateFailed e = true → ∃ t, exec (.transferStart st u) s = .next t ∧ t.stations = s.stations ∧
      Records s t (some p) 8 0x0801 (siteStation ((s.morHolder p (calGMor e.word)).getD 0) noLoc2 e.pc)) ∧
  (∀ (s : State) (p : Part), (s.prt p).held = true → 4096 + s.reg 0x6151 (p.val + 1) * 1000000 < (s.prt p).heldRun * 4096 + s.time.toNat % 4096 →
    ∃ u, u = (s.prt p).pos.foldl (fun s st => s.pruneRaises p st) s ∧
    exec (.holdStallLimit p) s = .next ((u.holdRaisers p).foldl (fun s l => s.raise (some p) 6 0x0602 l) u) ∧
    ∀ st ∈ (u.prt p).pos, ∀ r ∈ (u.stn st).sq.raises, siteStation st noLoc2 r.2 ∈ u.holdRaisers p) ∧
  (∀ (s : State) (p : Part), (s.prt p).jobState = 3 → (s.prt p).spanAt.toNat + 1048576 ≤ (s.prt p).frame.toNat →
    exec (.testShareSpanEnd p) s = .next ((s.prt p).pos.foldl (State.shareOf p) (s.modPart p fun x => { x with spanAt := x.spanAt + 1048576 }))) ∧
  (∀ (s : State) (q : PortId), s.portUp q = true → (s.port q).gap = false →
    exec (.holdSightGap q) s = .next ((s.modPort q fun x => { x with gap := true }).count 0x9075 (q.val + 1))) ∧
  (∀ (s : State) (q : PortId) (p : Part) (w : Nat), (s.port q).gapCheck = some w → s.portOwner q = some p → ((s.port q).seen.contains w = true ∨ s.loaded p = false) →
    ((s.port q).gap = true → (w + 1) * 4096 + 1000 ≤ s.time.toNat) →
    exec (.sightGapDeferredCheck q) s = .next (s.modPort q fun x => { x with gapCheck := none })) ∧
  (∀ (s : State) (q : PortId) (p : Part) (w : Nat), (s.port q).gapCheck = some w → s.portOwner q = some p → (s.port q).seen.contains w = false → s.loaded p = true →
    ((s.port q).gap = true → (w + 1) * 4096 + 1000 ≤ s.time.toNat) →
    ∃ t, exec (.sightGapDeferredCheck q) s = .next t ∧ (t.port q).gapCheck = none ∧ Records s t (some p) 6 0x0600 (sitePort q))

/-- Flits at the mesh's routers. (R22, R24, R25, R226, R227, R228, R288, R289) -/
def Obligations.MeshFlitsAtRouters : Prop :=
  (∀ (s : State) (n : Fin 192) (i : Dir) (f : MeshFlit), s.routerTakes n.val i f = true → f.routeDead = true →
    ∃ t, exec (.flitArrivalAtRouter n i f) s = .next t ∧ Records s t (some f.owner) 4 0x0402 (siteEdge n.val i)) ∧
  (∀ (s : State) (n : Fin 192) (i : Dir) (f : MeshFlit), s.routerTakes n.val i f = true → f.routeDead = false →
    ∃ t, exec (.flitArrivalAtRouter n i f) s = .next t ∧ t.mem = s.mem ∧ t.mordants = s.mordants ∧ t.stations = s.stations ∧
      (⟨n.val, i, f.out, flitSlot f, f.owner⟩ : MeshUse) ∈ t.clk.mesh ∧
      (∀ c, edgeCrossing n.val f.out = some c → s.blocked c = true → t.clk.items = s.clk.items ++ [⟨c.1, c.2, some f.owner, s.crossingOpen c⟩]) ∧
      ((∀ c, edgeCrossing n.val f.out = some c → s.blocked c = false) → t.clk.items = s.clk.items) ∧
      (flitSlot f < s.inputFrom n.val i (arrivalSlot f) → ∃ l ∈ t.clk.late, l.node = n.val ∧ l.inp = i ∧ l.out = f.out ∧ arrivalSlot f ≤ l.send) ∧
      (∀ u, (s.clk.mesh.filter fun u => decide (arrivalSlot f ≤ u.slot + 960)).find? (fun u => u.node = n.val && u.out = f.out && u.slot = flitSlot f) = some u →
        Records s t (some u.owner) 1 0x0102 (siteEdge n.val f.out) ∧ Records s t (some f.owner) 1 0x0102 (siteEdge n.val f.out)) ∧
      ((∀ u ∈ s.clk.mesh, ¬ (u.node = n.val ∧ u.out = f.out ∧ u.slot = flitSlot f)) →
        t.beat = s.beat ∧ t.faults = s.faults ∧
        (flitSlot f < s.inputFrom n.val i (arrivalSlot f) → t.dict = (s.count 0x9053 (n.val % 16 + 1)).dict) ∧
        (s.inputFrom n.val i (arrivalSlot f) ≤ flitSlot f → t.dict = s.dict)))

/-- Clock settings, stretch, the hang detector and recalibration. The model's: a margin sample leaves no state behind (R283 names none). (R278, R279, R280, R282, R283, R284, R285, R286, R290, R292, R300) -/
def Obligations.ClockSettingsAndIslands : Prop :=
  (∀ (s : State) (via : Via) (p : Part) (f : W16), s.accepts via 0x4100 (p.val + 1) (leBytes 2 f.toNat) = true → (f.toNat < 400 ∨ 1200 < f.toNat ∨ f.toNat % 25 ≠ 0) →
    exec (.stationClockSettingWrite via p f) s = .next (s.answered via 0x4100 (p.val + 1) (leBytes 2 f.toNat) 3)) ∧
  (∀ (s : State) (via : Via) (p : Part) (f : W16), s.accepts via 0x4100 (p.val + 1) (leBytes 2 f.toNat) = true → 400 ≤ f.toNat → f.toNat ≤ 1200 → f.toNat % 25 = 0 →
    exec (.stationClockSettingWrite via p f) s = .next (((s.answered via 0x4100 (p.val + 1) (leBytes 2 f.toNat) 0).setReg 0x4100 (p.val + 1) f.toNat).retarget p)) ∧
  (∀ (s : State) (p : Part) (f : Nat) (at_ : W64), vget s.clk.pend p = some (f, at_) → at_ ≤ s.time →
    exec (.clockSettingChange p) s = .next (State.setClocks { s with clk := { s.clk with pend := vset s.clk.pend p none } } p f)) ∧
  (∀ (s : State) (st : St), s.islandRuns st.val = true →
    exec (.replicaTrigger ⟨st.val, by omega⟩) s = .next (s.stretchOne st.val)) ∧
  (∀ (s : State) (i : Island) (all : List Nat), 18 ≤ i.val → i.val ≠ 72 → s.islandRuns i.val = true →
    all = (if inMeshGroup i.val then (List.range 73).filter (fun j => inMeshGroup j && s.islandRuns j) else [i.val]) →
    ((∀ j ∈ all, vget s.clk.stretch (fin j) ≠ 60) → exec (.replicaTrigger i) s = .next (all.foldl State.stretchOne s)) ∧
    (∀ j, all.find? (fun j => decide (vget s.clk.stretch (fin j) = 60)) = some j → ∃ t k, exec (.replicaTrigger i) s = .next t ∧
      k = (if vget s.clk.stretch i = 60 then i.val else j) ∧
      ∀ p, (s.prt p).jobState = 3 → (s.prt p).frameOn = true → Records s t (some p) 0x0C 0x0C02 ⟨5, k, noLoc2, noPc⟩)) ∧
  (∀ (s : State) (i : Island), i.val ≠ 72 → s.islandRuns i.val = true → exec (.replicaWarningLevel i) s = .next s) ∧
  (∀ (s : State) (x : Crossing), allCrossings.contains (x.a.val, x.b.val) = true → ringCrossing (x.a.val, x.b.val) = false →
    (∀ (p : Part), some p ∈ s.crossingOwners (x.a.val, x.b.val) → (∀ f ∈ s.clk.fenced, f.a = x.a.val → f.b = x.b.val → p ∉ f.reported) →
      ∃ t, exec (.hangDetected x) s = .next t ∧ (∃ f ∈ t.clk.fenced, f.a = x.a.val ∧ f.b = x.b.val ∧ p ∈ f.reported) ∧
        Records s t (some p) 0x0A 0x0A00 ⟨5, x.a.val, x.b.val, noPc⟩) ∧
    (none ∈ s.crossingOwners (x.a.val, x.b.val) → (∀ f ∈ s.clk.fenced, ¬ (f.a = x.a.val ∧ f.b = x.b.val)) →
      ∃ t, exec (.hangDetected x) s = .next t ∧ ∃ f ∈ t.clk.fenced, f.a = x.a.val ∧ f.b = x.b.val ∧ f.logged = true)) ∧
  (∀ (s s' : State) (x : Crossing), s.clk.recal.contains (x.a.val, x.b.val) = true →
    s' = { s with clk := { s.clk with recal := s.clk.recal.filter (· ≠ (x.a.val, x.b.val)) } } →
    exec (.crossingRecalibrated x false) s = .next (s'.crossingFailed x.a.val x.b.val) ∧
    exec (.crossingRecalibrated x true) s = .next (if s'.admitItems.reg 0x4110 0 = 0 ∧ s'.clk.recal = [] then s'.admitItems.setReg 0x4110 0 1 else s'.admitItems))

/-- Setting the time counter, the source of the time domain, and the fabric time service. The commands name the event that happens (log entry 7). (R294, R295, R296, R297, R298, R299, R312, R324, R376, R377, R378) -/
def Obligations.TimeCounterAndSource : Prop :=
  (∀ (s s' : State) (via : Via) (v : W64), s.accepts via 0x4401 0 (leBytes 8 v.toNat) = true → s.anyLoaded = false → s' = s.answered via 0x4401 0 (leBytes 8 v.toNat) 0 →
    exec (.timeSet via v) s = .next { s' with clk := { s'.clk with timeSet := some (v, s'.nextFrame) } }) ∧
  (∀ (s : State) (via : Via) (v : W64), s.accepts via 0x4401 0 (leBytes 8 v.toNat) = true → s.anyLoaded = true →
    exec (.timeSet via v) s = .next ((s.answered via 0x4401 0 (leBytes 8 v.toNat) 5).setReg 0x4401 0 1)) ∧
  (∀ (s : State) (v : W64), s.clk.timeSet = some (v, s.time) →
    (s.anyLoaded = false →
      exec .timeSetApplied s = .next (State.setReg { s with time := v, clk := { s.clk with timeSet := none, frameMark := none, windowMark := none } } 0x4401 0 0)) ∧
    (s.anyLoaded = true → exec .timeSetApplied s = .next (State.setReg { s with clk := { s.clk with timeSet := none } } 0x4401 0 1))) ∧
  (∀ (s s' : State), s.clk.refOk = true → s.pwr.off = false → s' = State.count { s with clk := { s.clk with refOk := false } } 0x9063 0 →
    exec .referenceLoss s = .next (if s.timeSource ≠ 0 then s' else if s.reg 0x4403 0 = 1 then s'.lastResort else s'.setReg 0x4402 0 2)) ∧
  (∀ (s : State), s.pwr.off = false → exec .referenceLock s = .next (State.setReg { s with clk := { s.clk with refOk := true } } 0x4402 0 0)) ∧
  (∀ (s s' : State), s.pwr.off = false → s' = State.setReg { s with clk := { s.clk with crossGood := 0 } } 0x4403 0 0 →
    exec (.holdoverCrossCheck true) s = .next (if s.reg 0x4403 0 = 0 then s
      else if s.clk.crossGood < 59999 then { s with clk := { s.clk with crossGood := s.clk.crossGood + 1 } }
      else if s.timeSource = 3 ∧ s.clk.refOk = false then s'.setReg 0x4402 0 1 else s')) ∧
  (∀ (s s' : State), s.pwr.off = false → s' = State.setReg { s with clk := { s.clk with crossGood := 0 } } 0x4403 0 1 →
    exec (.holdoverCrossCheck false) s = .next (if s.timeSource = 1 ∨ s.timeSource = 2 then s'.lastResort else s')) ∧
  (∀ (s s' u : State) (q : PortId) (tb : TimeBlock), s.takeTime q 0 = some (tb, s') → u = (s'.seePartner q tb).leaveLastResort →
    (s'.portState q = stAlign → exec (.timeSync q) s = .next (s'.modPort q fun x => { x with timeQ := x.timeQ ++ [s'.timePayload q 1 tb.sent tb.recd] })) ∧
    (s'.portUp q = true → u.timeParent ≠ some q →
      exec (.timeSync q) s = .next (u.modPort q fun x => { x with timeQ := x.timeQ ++ [u.timePayload q 1 tb.sent tb.recd] })) ∧
    (s'.portUp q = true → u.timeParent = some q → exec (.timeSync q) s = .next u)) ∧
  (∀ (s s' u v w : State) (q : PortId) (tb : TimeBlock), s.takeTime q 1 = some (tb, s') → u = (s'.seePartner q tb).leaveLastResort →
    v = u.setTimeStatus (tb.depth + 1) (decide (tb.source = 3)) u.aligned (shownOffset u.draws (offsetOf tb)) → w = State.exchange { v with draws := v.draws + 1 } (offsetOf tb) →
    (s'.portState q = stAlign → exec (.timeReply q) s = .next (s'.modPort q fun x => { x with wire := some (wireOf tb) })) ∧
    (s'.portUp q = true → u.timeParent ≠ some q → exec (.timeReply q) s = .next u) ∧
    (s'.portUp q = true → u.timeParent = some q → exec (.timeReply q) s = .next (if w.anyLoaded = false ∧ 65536 < (offsetOf tb).natAbs then
      { w with clk := { w.clk with timeSet := some (BitVec.ofInt 64 ((w.nextFrame.toNat : Int) + offsetOf tb / 256), w.nextFrame) } } else w)))

/-- Training of a port. The commands name the event that happens (log entry 7). The model's: whether a step meets the tap's limit is free; what its training sets ask for is free (log entry 124); the port's own latency is opaque (log entry 123). (R301, R302, R304, R321, R322, R324, R325) -/
def Obligations.PortTraining : Prop :=
  (∀ (s : State) (q : PortId) (sets : List (Fin 17 × BitVec 256)) (l : List (Nat × Nat)), l = sets.filterMap (fun x => (goodSet x.2).map fun v => (x.1.val, v)) →
    s.mayTrain q = true → (s.port q).failed = false → 16 ≤ l.length →
    ((s.portState q = stDown ∨ s.portState q = stDetect) →
      (∀ rev, laneOrder l = some rev → exec (.trainingSetsDetected q sets) s = .next ((((s.setPortFlags q (l.any fun x => bits x.2 182 181 = 2) rev).modPort q fun x =>
        { x with taps := [] }).startTraining q).setPortState q stEqualise)) ∧
      (laneOrder l = none → exec (.trainingSetsDetected q sets) s = .next ((s.setReg 0x5008 (q.val + 1) 9).trainingFailed q))) ∧
    (s.portState q = stEqualise ∨ s.portState q = stAlign → (∃ x ∈ l, bits x.2 182 181 = 2) → s.fallback q = false →
      exec (.trainingSetsDetected q sets) s = .next (s.toFallback q))) ∧
  (∀ (s : State) (q : PortId) (rx tx : Option (Fin 17)), s.portState q = stEqualise → (s.port q).failed = false →
    exec (.equaliseComplete q rx tx) s = .next ((s.assignLanes q (rx.map (·.val)) (tx.map (·.val))).setPortState q stAlign) ∧
    exec (.equaliseTimeout q) s = .next (if s.fallback q then s.trainingFailed q else s.toFallback q)) ∧
  (∀ (s : State) (q : PortId), s.portState q = stAlign → (s.port q).failed = false →
    exec (.alignTimeout q) s = .next (if s.fallback q then s.trainingFailed q else s.toFallback q) ∧
    ∀ w, (s.port q).wire = some w → exec (.alignComplete q) s = .next (
      let u := s.setReg 0x5003 (q.val + 1) ((w + Config.portPipe) / 64 % 65536)
      let v := (u.modPort q fun x => { x.say 1 (u.helloBody q) with
        auth := ⟨u.helloBody q, false, none, none, false, false⟩, failures := 0, timeQ := [], timeIn := [] }).setPortState q stAuth
      { v with draws := v.draws + 1 })) ∧
  (∀ (s u v : State) (q : PortId) (m n : Nat), (s.port q).failed = true → u = s.modPort q (fun x => { x with failed := false }) →
    v = u.modPort q (fun x => { x with failures := 0 }) →
    ((s.port q).failures < 3 → exec (.trainingRetry q m n) s = .next (u.setPortState q (if u.mayTrain q then stDetect else stDown))) ∧
    (3 ≤ (s.port q).failures → exec (.trainingRetry q m n) s = .next (
      if b2n (bit (v.reg 0x8040 (q.val + 1)) 1) < m ∨ b2n (bit (v.reg 0x8040 (q.val + 1)) 0) < n then (v.saveReg 0x8041 (q.val + 1) 1).setPortState q stRetired
      else v.setPortState q stHeld))) ∧
  (∀ (s : State) (q : PortId) (l : Fin 17) (set : BitVec 256) (v tap req : Nat) (ans : State → Nat → State) (put : Int → State), goodSet set = some v → s.portState q = stEqualise →
    tap = bits v 167 164 → req = bits v 163 162 →
    ans = (fun u csts => { u.emit (.training q l (u.ownSet q l.val tap csts)) with draws := u.draws + 1 }) →
    put = (fun k => s.modPort q fun x => { x with taps := sput 0 x.taps (l.val * 8 + tap) k }) →
    (req = 0 ∨ 4 < tap → exec (.coefficientRequest q l set) s = .next (ans s 0)) ∧
    (req = 3 → tap ≤ 4 → exec (.coefficientRequest q l set) s = .next (ans (put 0) 1)) ∧
    (req = 1 ∨ req = 2 → tap ≤ 4 → exec (.coefficientRequest q l set) s = .next (
      if (Config.freeWord s.draws).getLsbD 63 then ans s 2
      else ans (put (if req = 1 then sget 0 (s.port q).taps (l.val * 8 + tap) + 1 else sget 0 (s.port q).taps (l.val * 8 + tap) - 1)) 1)))

/-- Authentication of a port and the link control messages. The commands name the event that happens (log entry 7). (R325, R326, R327) -/
def Obligations.PortAuthentication : Prop :=
  (∀ (s u : State) (q : PortId) (ids : MsgIds) (h : HelloBody), s.portState q = stAuth → u = s.heard q ids →
    exec (.hello q ids h) s = .next (if u.portState q ≠ stAuth ∨ (u.port q).auth.hello.isSome then u
      else u.modPort q fun x => { x.say 2 u.chain with auth := { x.auth with hello := some h } })) ∧
  (∀ (s u : State) (q : PortId) (ids : MsgIds) (ok : Bool) (h : HelloBody), s.portState q = stAuth → (s.port q).auth.hello = some h → u = s.heard q ids →
    exec (.chain q ids ok) s = .next (if u.portState q ≠ stAuth ∨ (u.port q).auth.chainOk.isSome then u
      else u.modPort q fun x => { x.say 3 (u.signed (shaBytes (x.auth.own ++ helloBytes h ++ shaBytes u.chain))) with auth := { x.auth with chainOk := some ok } })) ∧
  (∀ (s u : State) (q : PortId) (ids : MsgIds) (ok c : Bool) (h : HelloBody), s.portState q = stAuth → (s.port q).auth.hello = some h → (s.port q).auth.chainOk = some c →
    u = s.heard q ids →
    exec (.proof q ids ok) s = .next (if u.portState q ≠ stAuth ∨ (u.port q).auth.sent then u else u.verdict q (authCode u q h c ok))) ∧
  (∀ (s : State) (q : PortId) (h : HelloBody), h.version = 1 → h.device.toNat ≠ s.reg 0x1020 0 → bits (s.reg 0x2120 (q.val + 1)) 31 16 ≤ h.device.toNat →
    h.device.toNat ≤ bits (s.reg 0x2120 (q.val + 1)) 47 32 → authCode s q h true true = 1 ∧ authCode s q h false true = 3 ∧ authCode s q h true false = 4) ∧
  (∀ (s u : State) (q : PortId) (ids : MsgIds) (code : Byte), s.portState q = stAuth → u = s.heard q ids →
    exec (.verdict q ids code) s = .next (if u.portState q ≠ stAuth then u
      else if code = 1 then (u.modPort q fun x => { x with auth := { x.auth with got := true } }).enterUp q
      else (u.ackNow q).refuse q code.toNat)) ∧
  (∀ (s : State) (q : PortId) (h : HelloBody), s.portState q = stAuth → (s.port q).auth.hello = some h → (s.port q).auth.sent = true → (s.port q).auth.refused = false →
    (s.port q).auth.got = true → (∀ m ∈ (s.port q).msgs, m.msg = 4 → 0 < m.sends) →
    s.enterUp q = (((s.modPort q fun x => { x.clear with msgs := x.msgs, ackDue := x.ackDue, refusals := 0, failures := 0 }).setPortState q stUp).setReg 0x5002 (q.val + 1)
      (h.device.toNat + h.port.toNat * 2 ^ 16))) ∧
  (∀ (s : State) (q : PortId), s.portState q = stAuth → exec (.authTimeout q) s = .next (if (s.port q).auth.refused then s.refuseEnd q else s.verdict q 8)) ∧
  (∀ (s : State) (q : PortId) (m : LinkMsg), (s.port q).msgs.find? (fun m => !m.due) = some m →
    (m.sends < 64 → exec (.linkControlRepeat q) s = .next (s.modPort q fun x => { x with msgs := x.msgs.map fun y => if y.mid = m.mid then { y with due := true } else y })) ∧
    (64 ≤ m.sends → exec (.linkControlRepeat q) s = .next (State.msgEnd (s.modPort q fun x => { x with msgs := x.msgs.filter fun y => y.mid ≠ m.mid }) q m true)) ∧
    ∀ u, (m.msg = 1 ∨ m.msg = 2 ∨ m.msg = 3 → State.msgEnd u q m true = u.refuse q 8) ∧ (m.msg = 4 → m.body ≠ [1] → State.msgEnd u q m true = u.refuseEnd q) ∧
      (m.msg = 4 → m.body = [1] → State.msgEnd u q m true = if u.portUp q then u.loseTo q stDown else u.portDown q) ∧
      (m.msg = 0x10 → State.msgEnd u q m true = u.loseTo q stDetect) ∧ (m.msg = 0x20 → State.msgEnd u q m true = u.retrain q) ∧
      (m.msg = 0x21 → State.msgEnd u q m true = u.loseTo q stDown)) ∧
  (∀ (s : State) (q : PortId) (a : Byte), exec (.linkControlAck q a) s = .next (s.cover q a)) ∧
  (∀ (s : State) (q : PortId) (a : Byte) (m : LinkMsg), (s.port q).msgs = [m] → 0 < m.sends → (a.toNat + 256 - m.mid) % 256 < 128 →
    s.cover q a = State.msgEnd (s.modPort q fun x => { x with msgs := [] }) q m false)

/-- Blocks on a port and what their failure leads to. The commands name the event that happens (log entry 7). (R307, R309, R310, R313, R314, R315, R317, R329, R331, R332, R333, R350) -/
def Obligations.BlocksOnAPort : Prop :=
  (∀ (s u : State) (q : PortId) (k : Fin 752) (e : BufferEcc), (s.port q).slot ≤ k.val → (s.fallback q = true → k.val % 2 = 0) → u = s.modPort q (fun x => { x with slot := k.val + 1 }) →
    (s.portState q = stAlign → (∀ b r, (s.port q).timeQ = b :: r → exec (.blockSlot q k e) s = .next (u.sendTime q b)) ∧
      ((s.port q).timeQ = [] → exec (.blockSlot q k e) s = .next (if (s.port q).wire.isNone then u.sendTime q (u.timePayload q 0 0 0) else u.sendIdle q))) ∧
    (s.portState q = stAuth ∨ s.portState q = stUp →
      (∀ m, (s.port q).msgs.find? (·.due) = some m → exec (.blockSlot q k e) s = .next ((u.sendMsg q m).enterUp q)) ∧
      ((s.port q).msgs.find? (·.due) = none → (s.port q).ackDue = true → exec (.blockSlot q k e) s = .next (u.ackNow q))) ∧
    (s.portState q = stAuth → (s.port q).msgs.find? (·.due) = none → (s.port q).ackDue = false → exec (.blockSlot q k e) s = .next (u.sendIdle q)) ∧
    (s.portState q = stUp → (s.port q).msgs.find? (·.due) = none → (s.port q).ackDue = false →
      (∀ b r, 704 ≤ k.val → (s.port q).timeQ = b :: r → exec (.blockSlot q k e) s = .next (u.sendTime q b)) ∧
      (k.val < 704 ∨ (s.port q).timeQ = [] →
        (∀ b, (s.port q).seqReady (slotTime s.frameNo k.val) (decide (704 ≤ k.val)) = some b → exec (.blockSlot q k e) s = .next (u.sendSeq q b e)) ∧
        ((s.port q).seqReady (slotTime s.frameNo k.val) (decide (704 ≤ k.val)) = none →
          exec (.blockSlot q k e) s = .next (if k.val < 704 ∨ (s.port q).unsent ≠ [] then u.sendIdle q else u.linkSlot q e))))) ∧
  (∀ (s : State) (q : PortId) (b : BitVec 2048), s.portState q = stAlign ∨ s.portState q = stAuth ∨ s.portState q = stUp →
    (leNat ((arrivedBytes b).drop 252) ≠ crc32c ((arrivedBytes b).take 252) →
      exec (.blockArrival q b) s = .next ((s.modPort q fun x => x.discard s.frameNo s.slotNow).count 0x9072 (q.val + 1))) ∧
    (leNat ((arrivedBytes b).drop 252) = crc32c ((arrivedBytes b).take 252) → ∀ (h : Nat) (pay : List Byte) (u v : State), h = leNat ((arrivedBytes b).take 12) →
      pay = ((arrivedBytes b).drop 12).take 240 → u = s.modPort q (fun x => { x with gap := false }) → v = (u.onHold q (bit h 40) (bits h 43 41)).onAck q (bits h 38 27) (bit h 39) →
      (s.portState q ≠ stUp → exec (.blockArrival q b) s = .next (u.unsequenced q (if bits h 2 0 = 0 then 1 else bits h 2 0) (bits h 26 15) pay)) ∧
      (s.portState q = stUp → exec (.blockArrival q b) s = .next (
        if bits h 2 0 ≠ 0 then v.unsequenced q (bits h 2 0) (bits h 26 15) pay
        else if bits h 26 15 = (v.port q).e then v.inOrder q h pay else v.modPort q fun x => x.discard v.frameNo v.slotNow)))) ∧
  (∀ (s u : State) (q : PortId), s.portUp q = true → (s.port q).oldest ≠ (s.port q).snd →
    u = ((s.modPort q fun x => { x with snd := x.oldest, tmo := x.tmo + 1, hold := true, replayAt := some (x.oldest, s.time) }).count 0x9073 (q.val + 1)).count 0x9074 (q.val + 1) →
    exec (.ackTimeout q) s = .next (if 7 ≤ (s.port q).tmo then u.askRetrain q else u)) ∧
  (∀ (s : State) (q : PortId), s.portUp q = true → (s.port q).los = [] → exec (.receiveSilence q) s = .next (s.askRetrain q)) ∧
  (∀ (s u : State) (q : PortId) (l : LaneLoss), s.portUp q = true → (s.port q).los.contains l.lane.val = false →
    u = (if l.lock then s else s.modPort q fun x => { x with los := setAdd x.los l.lane.val }) →
    (∀ w, (u.port q).rxSwap = some w → exec (.lossOfSignal q l) s = .next (
      if w.lane = l.lane.val then u.modPort q fun x => { x with rxSwap := some { w with degraded := false } } else u.loseTo q stDetect)) ∧
    ((u.port q).rxSwap = none → exec (.lossOfSignal q l) s = .next (
      if u.rxSpare q then u.modPort q fun x => { x.say 0x10 [BitVec.ofNat 8 l.lane.val] with rxSwap := some ⟨l.lane.val, false, 0⟩ }
      else if l.lock then u.loseTo q stDetect else u))) ∧
  (∀ (s : State) (q : PortId), s.portUp q = true → 1 < (s.port q).los.length ∨ (s.port q).los ≠ [] ∧ (s.port q).rxSwap = none →
    exec (.lossPersists q) s = .next (s.loseTo q stDetect)) ∧
  (∀ (s u : State) (q : PortId) (l : Fin 16) (w : LaneWindow), (w.full = true → s.portUp q = true) →
    u = (s.count 0x9070 (q.val + 1) w.corrected).count 0x9071 (q.val + 1) w.dead →
    (w.full = false ∨ w.symbols ≤ u.reg 0x5006 0 → exec (.laneDegradeWindow q l w) s = .next u) ∧
    (w.full = true → u.reg 0x5006 0 < w.symbols →
      (∀ x, (u.port q).rxSwap = some x → exec (.laneDegradeWindow q l w) s = .next (if x.lane = l.val then u else u.askRetrain q)) ∧
      ((u.port q).rxSwap = none → exec (.laneDegradeWindow q l w) s = .next (
        if u.rxSpare q then u.modPort q fun x => { x.say 0x10 [BitVec.ofNat 8 l.val] with rxSwap := some ⟨l.val, true, 0⟩ } else u.askRetrain q))))

/-- Sparing, retraining and the orderly stop. The commands name the event that happens (log entry 7). (R325, R328, R329, R330, R332, R334, R335) -/
def Obligations.SparesAndStops : Prop :=
  (∀ (s : State) (q : PortId), s.portUp q = true → s.rxSpare q = true → (s.port q).rxSwap = none →
    exec (.spareLockLoss q) s = .next ((s.modPort q fun x => x.say 0x12 []).useRxSpare q)) ∧
  (∀ (s : State) (q : PortId) (l : Fin 16) (w : RxSwap), s.portUp q = true → (s.port q).rxSwap = some w → w.lane = l.val →
    (w.degraded = true → w.good < 63 → exec (.spareCodewordDecode q l) s = .next (s.modPort q fun x => { x with rxSwap := some { w with good := w.good + 1 } })) ∧
    (w.degraded = false ∨ 63 ≤ w.good → exec (.spareCodewordDecode q l) s = .next (((s.modPort q fun x =>
      { x.say 0x11 [BitVec.ofNat 8 l.val] with rxSwap := none, los := setDel x.los l.val }).useRxSpare q).mapRx q l.val))) ∧
  (∀ (s u : State) (q : PortId) (ids : MsgIds) (l : Fin 16), s.portUp q = true → u = s.heard q ids →
    (u.portUp q = true →
      (((s.port q).amid + 256 - ids.mid.toNat) % 256 < 128 ∨ (u.port q).txSwap = some l.val → exec (.swap q ids l) s = .next u) ∧
      (128 ≤ ((s.port q).amid + 256 - ids.mid.toNat) % 256 → (u.port q).txSwap ≠ some l.val → exec (.swap q ids l) s = .next (
        if u.txSpare q = true ∧ (u.port q).txSwap = none then u.modPort q fun x => { x with txSwap := some l.val }
        else if (Config.freeWord u.draws).getLsbD 0 then { u with draws := u.draws + 1 }.loseTo q stDetect else { u with draws := u.draws + 1 }.askRetrain q)) ∧
      exec (.swapDone q ids l) s = .next (if (u.port q).txSwap = some l.val then ((u.modPort q fun x => { x with txSwap := none }).useTxSpare q).mapTx q l.val else u) ∧
      exec (.spareBad q ids) s = .next (u.useTxSpare q) ∧
      exec (.retrain q ids) s = .next ((u.tellNow q 0x20 []).retrain q) ∧
      exec (.goodbye q ids) s = .next ((u.ackNow q).loseTo q stDetect)) ∧
    (u.portUp q = false → exec (.swap q ids l) s = .next u ∧ exec (.swapDone q ids l) s = .next u ∧ exec (.spareBad q ids) s = .next u ∧ exec (.retrain q ids) s = .next u ∧
      exec (.goodbye q ids) s = .next u))

/-- Delivered scheduled blocks. (R27, R338, R341, R342, R344, R346, R347, R349, R356, R361, R368) -/
def Obligations.ScheduledBlocksAtDestination : Prop :=
  (∀ (s s' : State) (q : PortId) (p : Part) (b : Block) (e : Nat) (ecc : MemEcc),
    (Delivered s s' q 0 p b e → exec (.write q ecc) s = .next (s'.blockWrite ecc p q b (bits b.net 33 2 * 16) (bit b.net 0)).1) ∧
    (Delivered s s' q 1 p b e → exec (.readRequest q ecc) s = .next (s'.respond ecc p q b (bits e 36 27))) ∧
    (Delivered s s' q 2 p b e → exec (.readResponse q) s = .next (s'.fetchBlock p q (bits b.net 33 29) (bits b.net 28 24) (bits b.net 23 10) b)) ∧
    (Delivered s s' q 3 p b e → exec (.mordantAdd q) s = .next (s'.remoteMor p q b (bits b.net 33 18) false)) ∧
    (Delivered s s' q 4 p b e → exec (.mordantSet q) s = .next (s'.remoteMor p q b (bits b.net 33 18) true)) ∧
    (Delivered s s' q 5 p b e → exec (.reduce (.port q) ecc) s = .next (
      if (grpEng (s'.groupEntry p (bits e 44 37))).val = q.val / 7 then s'.reduceBlock ecc p (bits e 44 37) b else s'.faultPort p q))) ∧
  (∀ (s : State) (k : Nat) (x : Xfer) (e : Nat) (ecc : MemEcc), s.xfers[k]? = some x → x.kind = .reduce → e = s.routeEntry x.part x.route → bits e 126 125 = 3 → bits e 48 45 = 1 →
    s.halfUp (engHalf (grpEng (s.groupEntry x.part (bits e 44 37)))) = true → s.stuckXfer x = none →
    s.reduceWaits x.part (bits e 44 37) (xferBlock s x x.blk) = false →
    exec (.reduce (.own k) ecc) s = .next ((s.xferStep k x).reduceBlock ecc x.part (bits e 44 37) (xferBlock s x x.blk))) ∧
  (∀ (s s2 : State) (q : PortId) (p : Part) (b : Block) (a n : Nat) (short : Bool) (ecc : MemEcc), blockLen short b.data = some n →
    (s.inWin p a n = true → s.devWrite ecc a (marked b (b.data.take n)) = some s2 → s.blockWrite ecc p q b a short = (s2.mirrorTouch p a, true)) ∧
    (s.inWin p a n = false → Records s (s.blockWrite ecc p q b a short).1 (some p) 1 0x0102 (sitePort q))) ∧
  (∀ (s : State) (q : PortId) (p : Part) (b : Block) (route n : Nat) (r : ReadReq) (ecc : MemEcc), r = readReqOf b.data → r.rdev = s.reg 0x1020 0 → r.bytes ≠ 0 → r.bytes ≤ 2097152 → r.st ≤ 17 →
    n = r.bytes + (if r.hdr then 4096 else 0) → s.inWin p r.src n = true →
    ∃ x, (s.respond ecc p q b route).xfers.getLast? = some x ∧ x.kind = .readResp ∧ x.part = p ∧ x.route = route ∧ x.dest = r.qdev ∧
      x.data = (s.readSource ecc r).1 ∧ x.bytes = r.bytes) ∧
  (∀ (s : State) (q : PortId) (p : Part) (b : Block) (off a z : Nat) (set : Bool), s.morRange p = some (a, z) → off ≤ z - a →
    s.remoteMor p q b off set = { s with morOps := s.morOps ++ [⟨none, p, BitVec.ofNat 16 (a + off), set, BitVec.ofNat 64 (leNat (b.data.take 8)), b.poison⟩] }) ∧
  (∀ (s s' : State) (q : PortId) (p : Part) (b : Block) (tt : Nat) (ecc : MemEcc) (c : Instr),
    ((tt, c) = (0, Instr.write q ecc) ∨ (tt, c) = (1, Instr.readRequest q ecc) ∨ (tt, c) = (2, Instr.readResponse q) ∨ (tt, c) = (3, Instr.mordantAdd q) ∨
      (tt, c) = (4, Instr.mordantSet q) ∨ (tt, c) = (5, Instr.reduce (.port q) ecc)) → s.takeSched q tt = some (b, s') → s.portOwner q = some p →
    (s.loaded p = false → exec c s = .next (s'.count 0x9082 (p.val + 1))) ∧
    (s.loaded p = true → s.arrivalEntry p q b (decide (tt = 5)) = none → ∃ t, exec c s = .next t ∧ Records s' t (some p) 1 0x0102 (sitePort q)))

/-- Transit, multicast trees, credits, and the blocks that a port takes from the device. (R316, R323, R347, R348, R349, R351, R353, R364, R365, R366) -/
def Obligations.BlocksInTransit : Prop :=
  (∀ (s s' : State) (q : PortId) (p : Part) (b : Block) (e : Nat) (l : List Block), (s.port q).inSched = b :: l → s' = s.modPort q (fun x => { x with inSched := l }) →
    bits b.net 47 44 ≤ 5 → s.portOwner q = some p → s.loaded p = true → s.arrivalEntry p q b (decide (bits b.net 47 44 = 5)) = some e → bits e 126 125 = 1 →
    (∀ sl fr, transitSlot b.slot b.frame (bits e 86 77) (bits e 76 69) = some (sl, fr) → bits e 115 111 < 28 →
      exec (.scheduledBlockTransit q) s = .next (s'.schedule p (fin (bits e 115 111)) { b with slot := sl, frame := fr })) ∧
    (transitSlot b.slot b.frame (bits e 86 77) (bits e 76 69) = none → exec (.scheduledBlockTransit q) s = .next (s'.faultPort p q))) ∧
  (∀ (s s' : State) (q : PortId) (p : Part) (b : Block) (tree sl fr : Nat) (ecc : MemEcc), s.takeSched q 6 = some (b, s') → s.portOwner q = some p → s.loaded p = true → tree = bits b.net 43 33 →
    s.branch p tree none = none → (bit (s.treeEntry p tree) 125 = true → s'.blockWaits q b = false) →
    bit (s.treeEntry p tree) 127 = true → bit (s.treeEntry p tree) 126 = false → bits (s.treeEntry p tree) 124 120 = q.val →
    treeSlot (s.treeEntry p tree) b.slot b.frame = some (sl, fr) →
    exec (.multicastWrite q ecc) s = .next (((treePorts (s.treeEntry p tree)).foldl (fun s o => s.branchOut p tree o { b with slot := sl, frame := fr }) s').treeDeliver ecc p q (s.treeEntry p tree) b none)) ∧
  (∀ (s s' : State) (q : PortId) (p : Part) (b : Block) (c : BranchBuf) (ecc : MemEcc), s.takeSched q 6 = some (b, s') → s.portOwner q = some p → s.loaded p = true →
    s.branch p (bits b.net 43 33) none = some c → exec (.multicastWrite q ecc) s = .next s') ∧
  (∀ (s s' : State) (q : PortId) (p : Part) (b : Block), s.takeSched q 7 = some (b, s') → s.portOwner q = some p → s.loaded p = true →
    ∃ t, exec (.fence q) s = .next t ∧ (∃ c, t.branch p (bits b.net 43 33) none = some c ∧ c.fenced = true) ∧ Records s t (some p) 8 0x0801 (sitePort q) ∧
      (∀ o ∈ treePorts (s.treeEntry p (bits b.net 43 33)), ∃ l, (t.port o).fences = l ++ [fenceBlock (bits b.net 43 33)]) ∧
      ∀ a z f, s.morRange p = some (a, z) → bit (s.treeEntry p (bits b.net 43 33)) 125 = true → f = bits (s.treeEntry p (bits b.net 43 33)) 43 28 → f ≠ 0xFFFF → f ≤ z - a →
        (t.mor (a + f)).failed = true) ∧
  (∀ (s s' : State) (q : PortId) (b : Block), s.takeSched q 0xD = some (b, s') →
    exec (.credit q) s = .next (s'.modPort q fun x => { x with credits := Vector.ofFn fun i => min 16 (vget x.credits i + bits b.net (43 - 11 * i.val) (33 - 11 * i.val)) })) ∧
  (∀ (s : State) (q : PortId) (ecc : MemEcc), s.portUp q = true → s.restricted q = false →
    (∀ b l, (s.port q).outSched = b :: l → exec (.portAcceptsBlock q ecc) s = .next (
      if (s.port q).buf.length < 4095 then s.modPort q fun x => { x with outSched := l, buf := x.buf ++ [b] } else s.askRetrain q)) ∧
    (∀ c, (s.port q).outSched = [] → s.behindOn q < 704 → s.keptFor q = some c → exec (.portAcceptsBlock q ecc) s = .next (
      if (s.port q).buf.length < 4095 then (s.modBranch c.part c.tree c.port fun c => { c with blocks := c.blocks.drop 1 }).acceptBlock q (c.blocks.headD (fenceBlock 0)) else s.askRetrain q))) ∧
  (∀ (s s' : State) (q : PortId) (k : Nat) (y : Xfer) (ecc : MemEcc), s.portUp q = true →
    (s.restricted q = true ∨ (s.port q).outSched = [] ∧ (704 ≤ s.behindOn q ∨ s.keptFor q = none)) →
    s.xfers.findIdx? (fun y => s.leavesBy q y && (!s.restricted q || (y.route = openRoute && y.kind ≠ .multicast))) = some k → s.xfers[k]? = some y → s' = s.emitXfer ecc q k y →
    exec (.portAcceptsBlock q ecc) s = .next (match (s'.port q).outSched with
      | b :: l => if !s.restricted q && (s'.port q).buf.length < 4095 then (s'.modPort q fun x => { x with outSched := l }).acceptBlock q b else s'
      | [] => s')) ∧
  (∀ (s : State) (q : PortId) (k : Nat) (y : Xfer) (ecc : MemEcc), s.portUp q = false → s.xfers.findIdx? s.noWayOut = some k → s.xfers[k]? = some y →
    exec (.portAcceptsBlock q ecc) s = .next (s.emitXfer ecc q k y))

/-- Open traffic. (R164, R289, R338, R342, R344, R351, R352, R353, R354) -/
def Obligations.OpenTraffic : Prop :=
  (∀ (s s' : State) (q : PortId) (b : Block) (p : Part) (tt : Nat) (ecc : MemEcc) (c : Instr) (f : State),
    (tt, c, f) = (8, Instr.openWrite q ecc, s'.openWrite ecc p q b) ∨ (tt, c, f) = (9, Instr.openReadRequest q ecc, s'.respond ecc p q b openRoute) ∨
      (tt, c, f) = (0xA, Instr.openReadResponse q, s'.fetchBlock p q (bits b.net 23 19) (bits b.net 18 14) (bits b.net 13 0) b) ∨
      (tt, c, f) = (0xB, Instr.openMordantAdd q, s'.remoteMor p q b (bits b.net 23 8) false) ∨
      (tt, c, f) = (0xC, Instr.openMordantSet q, s'.remoteMor p q b (bits b.net 23 8) true) →
    s.takeOpen q (fun b => bits b.net 47 44 = tt && blkDev b = s.reg 0x1020 0) = some (b, s') → p = fin (bits b.net 27 26) →
    (s'.loaded p = true → s'.blockWaits q b = false → exec c s = .next f) ∧
    (s'.loaded p = false → exec c s = .next (s'.count 0x9082 (p.val + 1)))) ∧
  (∀ (s : State) (q : PortId) (p : Part) (b : Block) (n : Nat) (ecc : MemEcc), blockLen (bit b.net 0) b.data = some n →
    ((bit (s.reg 0x5201 (p.val + 1)) 63 = false ∨ bits (s.reg 0x5201 (p.val + 1)) 59 32 * 16 < bits b.net 23 1 * 16 + n) →
      Records s (s.openWrite ecc p q b) (some p) 1 0x0102 (sitePort q)) ∧
    (bit (s.reg 0x5201 (p.val + 1)) 63 = true → bits b.net 23 1 * 16 + n ≤ bits (s.reg 0x5201 (p.val + 1)) 59 32 * 16 →
      s.openWrite ecc p q b = (s.blockWrite ecc p q b (bits (s.reg 0x5201 (p.val + 1)) 31 0 * 16 + bits b.net 23 1 * 16) (bit b.net 0)).1)) ∧
  (∀ (s s' : State) (q : PortId) (b : Block) (e : Nat), s.takeOpen q (fun b => blkDev b ≠ s.reg 0x1020 0) = some (b, s') → e = domNat (s'.dom 0x5200 0) (blkDev b) 1 →
    (bit e 7 = true → bits e 4 0 ≤ 27 → s'.portUp (fin (bits e 4 0)) = true → ∀ vc, vc = (if bit e 6 then bits b.net 25 24 / 2 * 2 + 1 else bits b.net 25 24) →
      exec (.openBlockForward q) s = .next (s'.modPort (fin (bits e 4 0)) fun x => { x with outOpen := vmod x.outOpen (fin vc) fun l => l ++ [b.onChannel vc] })) ∧
    (bit e 7 = false ∨ 27 < bits e 4 0 ∨ s'.portUp (fin (bits e 4 0)) = false → exec (.openBlockForward q) s = .next (s'.count 0x9080 (q.val + 1))))

/-- Port commands and tunnel messages. (R321, R327, R332, R333, R335, R480, R510) -/
def Obligations.PortCommandsAndTunnel : Prop :=
  (∀ (s : State) (via : Via) (q : PortId), s.accepts via 0x5005 (q.val + 1) [1] = true → s.portUp q = true →
    exec (.portCommandRetrain via q) s = .next ((((s.answered via 0x5005 (q.val + 1) [1] 0).setReg 0x5005 (q.val + 1) 0).askRetrain q).setReg 0x5005 (q.val + 1) 2)) ∧
  (∀ (s : State) (via : Via) (q : PortId), s.accepts via 0x5005 (q.val + 1) [1] = true → s.portUp q = false →
    exec (.portCommandRetrain via q) s = .next ((s.answered via 0x5005 (q.val + 1) [1] 5).setReg 0x5005 (q.val + 1) 1)) ∧
  (∀ (s u : State) (via : Via) (q : PortId), s.accepts via 0x5005 (q.val + 1) [2] = true → s.portState q ≠ stHeld → s.portState q ≠ stRetired →
    u = (s.answered via 0x5005 (q.val + 1) [2] 0).setReg 0x5005 (q.val + 1) 0 →
    exec (.portCommandOrderlyDown via q) s = .next (if u.portUp q then (u.askGoodbye q).setReg 0x5005 (q.val + 1) 2 else u.goodbye q)) ∧
  (∀ (s : State) (via : Via) (q : PortId), s.accepts via 0x5005 (q.val + 1) [3] = true → s.portState q = stHeld →
    exec (.portCommandReleaseHeld via q) s = .next (((s.answered via 0x5005 (q.val + 1) [3] 0).setReg 0x5005 (q.val + 1) 0).setPortState q stDown)) ∧
  (∀ (s : State) (via : Via) (q : PortId), s.accepts via 0x5000 (q.val + 1) [0] = true →
    exec (.portEnableWrite via q 0) s = .next (((s.answered via 0x5000 (q.val + 1) [0] 0).setReg 0x5000 (q.val + 1) 0).stopPort q)) ∧
  (∀ (s : State) (via : Via) (q : PortId), s.accepts via 0x5000 (q.val + 1) [1] = true →
    exec (.portEnableWrite via q 1) s = .next ((s.answered via 0x5000 (q.val + 1) [1] 0).setReg 0x5000 (q.val + 1) 1)) ∧
  (∀ (s : State) (via : Via) (q : PortId) (v : Byte), s.accepts via 0x5000 (q.val + 1) [v] = true → 1 < v.toNat →
    exec (.portEnableWrite via q v) s = .next (s.answered via 0x5000 (q.val + 1) [v] 3)) ∧
  (∀ (s s' : State) (q : PortId) (a : Option W16) (b : Block), s.stewardUp = true → s.takeOpen q (fun b => bits b.net 47 44 = 0xE && blkDev b = s.reg 0x1020 0) = some (b, s') →
    exec (.managementTunnel q a) s = .next (if b.poison ∨ (fragOf b.data).ok = false then s' else s'.reassemble (fragOf b.data) a)) ∧
  (∀ (s : State) (src msg : W16), (∃ r ∈ s.stw.inbox, r.src = src ∧ r.id = msg ∧ s.passed r.since 100000000 = true) →
    exec (.tunnelReassemblyTimeout src msg) s = .next (s.modStw fun x => { x with inbox := x.inbox.filter fun r => !(r.src = src && r.id = msg) })) ∧
  (∀ (s : State) (k : Nat) (m : TunnelMsg), s.stw.outbox[k]? = some m → s.stewardUp = true → s.passed m.at_ 200000000 = true →
    (m.sends < 16 →
      exec (.tunnelResend k) s = .next ((s.modStw fun x => { x with outbox := lset x.outbox k { m with sends := m.sends + 1, at_ := s.time } }).sendFragment m.dest m.id)) ∧
    (16 ≤ m.sends → ∀ u, u = s.modStw (fun x => { x with outbox := ldel x.outbox k }) →
      exec (.tunnelResend k) s = .next (match m.body with
        | .reserve p => if bits (u.reg 0x6176 (p.val + 1)) 47 32 = m.dest.toNat then u.losePartner p else u
        | _ => u)))

/-- The securing commands. The commands name the event that happens (log entry 7). The model's: where the commit record lies in a slot is free (log entry 14); an image may still be completed after its epoch has closed (log entry 67), and an epoch that no tier takes counts (log entry 143); which target of the flash port holds a unit is opaque (log entry 135). (R424, R425, R430, R431, R432, R433, R434, R435, R436, R437, R508, R525) -/
def Obligations.SecuringEpochs : Prop :=
  (∀ (s : State) (p : Part) (a z : Nat) (e : MemEcc), s.morRange p = some (a, z) → (s.prt p).jobState = 3 → s.reg 0x6171 (p.val + 1) ≠ 0xFFFF → s.reg 0x6171 (p.val + 1) ≤ z - a →
    (s.mor (a + s.reg 0x6171 (p.val + 1))).count ≠ 0 → (s.sec p).high < (s.mor (a + s.reg 0x6171 (p.val + 1))).count →
    exec (.securingMordantChange p e) s = .next (((s.modSec p fun x => { x with high := (s.mor (a + s.reg 0x6171 (p.val + 1))).count }).secureStep p
      ((s.mor (a + s.reg 0x6171 (p.val + 1))).count.toNat - 1) e).sendCommit p)) ∧
  (∀ (s : State) (p : Part) (step : Nat) (e : MemEcc), step % s.interval p ≠ 0 → s.secureStep p step e = s) ∧
  (∀ (s u : State) (p : Part) (step : Nat) (e : MemEcc), step % s.interval p = 0 → s.epochOpen p = false → u = s.modSec p (fun x => { x with j := x.j + 1 }) →
    (s.tiersUp p = [] → Records s (s.secureStep p step e) (some p) 0x0D 0x0D04 (siteSteward noLoc2)) ∧
    (s.tiersUp p ≠ [] → s.stepBeyond p step = none → s.secureStep p step e = match u.chooseTier p (u.sec p).j with
      | none => u
      | some tier => State.openEpoch u p (BitVec.ofNat 64 step) tier e)) ∧
  (∀ (s : State) (p : Part), s.stewardUp = true →
    (∀ k, (s.sec p).late.findIdx? (fun l => decide (l.img.tier = 0) && l.commit) = some k → exec (.partnerCompletion p) s = .next (s.completeLate p k)) ∧
    (∀ k, (s.sec p).late.findIdx? (fun l => decide (l.img.tier = 0) && l.commit && s.passed l.commitAt 100000000) = some k →
      exec (.commitTimeout p) s = .next ((s.modSec p fun x => { x with late := ldel x.late k }).count 0x9092 (p.val + 1))) ∧
    (∀ i, (s.sec p).epoch = some i → i.tier = 0 → (s.sec p).commit = true →
      ((s.sec p).late.findIdx? (fun l => decide (l.img.tier = 0) && l.commit) = none → exec (.partnerCompletion p) s = .next (s.completeImage p)) ∧
      ((s.sec p).late.findIdx? (fun l => decide (l.img.tier = 0) && l.commit && s.passed l.commitAt 100000000) = none → s.passed (s.sec p).commitAt 100000000 = true →
        exec (.commitTimeout p) s = .next (s.abortEpoch p)))) ∧
  (∀ (s u : State) (p : Part) (k : Option Nat) (ready pos : Nat), s.nandWork p = some (k, ready, pos) → s.nandNext = some p → s.stewardUp = true → s.sepiaUp = true →
    u = ((s.yieldSepia p).flashOp p pos .pageProgram).modStw (fun x => { x with nandTurn := p }) →
    exec (.nandProgramComplete p false) s = .next u ∧
    (k = none → exec (.nandProgramComplete p true) s = .next (if pos + 1 = u.unitsAll p then u.completeImage p else u.modSec p fun x => { x with nandPos := pos + 1 })) ∧
    (∀ j, k = some j → exec (.nandProgramComplete p true) s = .next (if pos + 1 = u.unitsAll p then u.completeLate p j
      else u.modSec p fun x => { x with late := x.late.mapIdx fun m l => if m = j then { l with nandPos := pos + 1 } else l }))) ∧
  (∀ (s u v : State) (p : Part) (ok : Bool) (mean : Nat), s.sepiaUp = true → s.stewardUp = true → s.reg 0x6178 (p.val + 1) ≠ 0 →
    u = (s.flashOp p s.stw.nandErases .blockErase).modStw (fun x => if ok then { x with nandErases := x.nandErases + 1 } else { x with nandSpare := x.nandSpare - 1 }) →
    mean = min (u.stw.nandErases / max 1 u.stw.nandBlocks) (2 ^ 24 - 1) → v = u.saveReg 0x617C 0 mean →
    exec (.nandEraseComplete p ok) s = .next (if v.reg 0x617D 0 ≤ mean ∨ (ok = false ∧ v.stw.nandSpare = 0) then v.retireSepia else v)) ∧
  (∀ (s : State) (p : Part) (k : Nat) (ok : Bool) (r : Restore), (s.sec p).restore = some r → r.img.tier = 1 → s.stewardUp = true → (∀ e ∈ r.read, e.1 ≠ k) → k < (s.securedBlocks p).length →
    exec (.nandReadComplete p k ok) s = .next (((List.range 4).foldl (fun s i => s.flashOp p (1 + 4 * k + i) .read) s).modSec p fun x =>
      { x with restore := some { r with read := r.read ++ [(k, ok)] } })) ∧
  (∀ (s : State) (via : Via) (p : Part) (step : W64), s.accepts via 0x617F (p.val + 1) (leBytes 8 step.toNat) = true →
    (∀ k, (s.sec p).late.findIdx? (fun l => decide (l.img.tier = 2) && decide (l.img.step = step)) = some k →
      exec (.sharedStoreCommit via p step) s = .next (((s.answered via 0x617F (p.val + 1) (leBytes 8 step.toNat) 0).setReg 0x617F (p.val + 1) 0).completeLate p k)) ∧
    ((s.sec p).late.findIdx? (fun l => decide (l.img.tier = 2) && decide (l.img.step = step)) = none → ∀ i, (s.sec p).epoch = some i → i.tier = 2 → i.step = step → s.undrained p = 0 →
      exec (.sharedStoreCommit via p step) s = .next (((s.answered via 0x617F (p.val + 1) (leBytes 8 step.toNat) 0).setReg 0x617F (p.val + 1) 0).completeImage p)) ∧
    ((s.sec p).late.findIdx? (fun l => decide (l.img.tier = 2) && decide (l.img.step = step)) = none → (∀ i, (s.sec p).epoch = some i → ¬ (i.tier = 2 ∧ i.step = step ∧ s.undrained p = 0)) →
      exec (.sharedStoreCommit via p step) s = .next ((s.answered via 0x617F (p.val + 1) (leBytes 8 step.toNat) 5).setReg 0x617F (p.val + 1) 1))) ∧
  (∀ (s u : State) (via : Via) (p : Part) (v : W64) (dev : W16) (a : Option (List (List W64))), s.accepts via 0x6176 (p.val + 1) (leBytes 8 v.toNat) = true → bits v.toNat 63 58 = 0 →
    bits v.toNat 31 0 = 0 → dev = BitVec.ofNat 16 (bits v.toNat 47 32) → dev.toNat ≠ s.reg 0x1020 0 → s.loaded p = false →
    u = (((s.answered via 0x6176 (p.val + 1) (leBytes 8 v.toNat) 0).setReg 0x6176 (p.val + 1) v.toNat).modSec p fun x => { x with reserve := none, slotTurn := 0 }).tunnelSend dev (.reserve p) →
    exec (.partnerTargetWrite via p v a) s = .next (match a with
      | none => u
      | some l => (u.modStw fun x => { x with outbox := x.outbox.dropLast }).modSec p fun x => { x with reserve := some l })) ∧
  (∀ (s : State) (q : PortId) (p : Part) (step : W64) (n : Nat), s.portUp q = true → s.portOwner q = some p → s.loaded p = true → bit (s.reg 0x6177 (p.val + 1)) 63 = true →
    n = (if bit (s.reg 0x6177 (p.val + 1)) 62 then 2 else 1) → s.stewardUp = true →
    exec (.commitRecordArrival q p step) s = .next ((s.modSec p fun x =>
      { x with mirror := (fit none n x.mirror).set (x.mirrorNext % n) (some step), mirrorNext := (x.mirrorNext + 1) % n }).tunnelSend
        (BitVec.ofNat 16 (bits (s.reg 0x6177 (p.val + 1)) 47 32)) (.completion p step))) ∧
  (∀ (s : State) (dev : W16), s.stewardUp = true → exec (.removalNotice dev) s = .next ((s.partnersAt dev).foldl State.losePartner s))

/-- Jobs, restores and the steward's hourly counts. (R240, R409, R415, R440, R441, R442, R483, R484, R485) -/
def Obligations.RestoresAndJobs : Prop :=
  (∀ (s : State) (via : Via) (p : Part) (req : W128) (iso : List RestartFinding) (e : MemEcc), s.acceptsReq via (wholeReq 0x6001 (p.val + 1) (leBytes 16 req.toNat)) (leBytes 16 req.toNat) = true →
    s.loadStatus p req.toNat = 0 → exec (.jobLoad via p req iso e) s = .next ((s.answeredWhole via 0x6001 (p.val + 1) (leBytes 16 req.toNat) 0).jobLoad p req.toNat iso e)) ∧
  (∀ (s : State) (via : Via) (p : Part) (req : W128) (iso : List RestartFinding) (e : MemEcc), s.acceptsReq via (wholeReq 0x6001 (p.val + 1) (leBytes 16 req.toNat)) (leBytes 16 req.toNat) = true →
    bits req.toNat 31 0 = 0 → s.loaded p = true → exec (.jobLoad via p req iso e) s = .next (s.answeredWhole via 0x6001 (p.val + 1) (leBytes 16 req.toNat) 5)) ∧
  (∀ (s : State) (via : Via) (p : Part), s.accepts via 0x6002 (p.val + 1) [1] = true → jobLive (s.prt p) = true →
    exec (.jobEnd via p) s = .next (((s.answered via 0x6002 (p.val + 1) [1] 0).setReg 0x6002 (p.val + 1) 0).endByCommand p)) ∧
  (∀ (s : State) (via : Via) (p : Part), s.accepts via 0x6002 (p.val + 1) [1] = true → jobLive (s.prt p) = false →
    exec (.jobEnd via p) s = .next ((s.answered via 0x6002 (p.val + 1) [1] 5).setReg 0x6002 (p.val + 1) 1)) ∧
  (∀ (s : State) (via : Via) (p : Part), s.accepts via 0x6003 (p.val + 1) [1] = true → s.loaded p = true → jobLive (s.prt p) = false →
    exec (.jobUnload via p) s = .next (((s.answered via 0x6003 (p.val + 1) [1] 0).setReg 0x6003 (p.val + 1) 0).unload p)) ∧
  (∀ (s : State) (via : Via) (p : Part), s.accepts via 0x6003 (p.val + 1) [1] = true → (s.loaded p = false ∨ jobLive (s.prt p) = true) →
    exec (.jobUnload via p) s = .next ((s.answered via 0x6003 (p.val + 1) [1] 5).setReg 0x6003 (p.val + 1) 1)) ∧
  (∀ (s : State) (p : Part), (jobLive (s.beatEnd.prt p) = true → ((s.endByCommand p).prt p).jobState = 7 ∧ ((s.endByCommand p).prt p).faultRaise = true) ∧
    ((s.unload p).prt p).jobState = 0 ∧ ((s.unload p).prt p).pos = []) ∧
  (∀ (s : State) (via : Via) (p : Part) (req : BitVec 256), s.acceptsReq via (wholeReq 0x6179 (p.val + 1) (leBytes 32 req.toNat)) (leBytes 32 req.toNat) = true → s.armStatus p req.toNat = 0 →
    exec (.restoreArm via p req) s = .next ((s.answeredWhole via 0x6179 (p.val + 1) (leBytes 32 req.toNat) 0).armRestore p req.toNat)) ∧
  (∀ (s : State) (p : Part) (k : Nat) (data : List Byte) (r : Restore) (b : Twr × Nat), (s.sec p).restore = some r → r.landed.contains k = false →
    (s.securedBlocks p)[k]? = some b → data.length = 65536 → r.img.tier ≠ 2 → (r.img.tier = 1 → ∃ ok, r.read.find? (fun e => e.1 = k) = some (k, ok)) →
    ((r.img.tier = 1 → r.read.find? (fun e => e.1 = k) = some (k, true)) → ((r.img.crcs.find? fun e => e.1 = k).map fun e => e.2.toNat) = some (crc32c data) →
      (s.forbids b.2 65536 = false → exec (.restoreBlockLands p k data) s = .next (State.modSec (if s.towerServes b.1 b.2 then s.towerWrite b.2 (clean data) else s) p fun x =>
        { x with restore := some { r with landed := setAdd r.landed k } })) ∧
      (s.forbids b.2 65536 = true → exec (.restoreBlockLands p k data) s = .next (s.restoreForbidden p b.1))) ∧
    ((r.img.tier = 1 ∧ r.read.find? (fun e => e.1 = k) = some (k, false)) ∨ ((r.img.crcs.find? fun e => e.1 = k).map fun e => e.2.toNat) ≠ some (crc32c data) →
      ∃ t, exec (.restoreBlockLands p k data) s = .next t ∧ (t.sec p).restore = none ∧ (t.sec p).arm = 3 ∧ Records s t (some p) 0x0B 0x0B00 (siteSteward noLoc2))) ∧
  (∀ (s : State) (p : Part) (r : Restore), (s.sec p).restore = some r → r.hdrOk = true → r.recOk = true → (s.securedBlocks p).length ≤ r.landed.length →
    exec (.restoreComplete p) s = .next (State.startBound (s.modSec p fun x => { x with restore := none, arm := 0, sc := some (r.img.step.toNat : Int), j := 0, high := r.img.step + 1, cleanReq := false, images := if x.images.contains { r.img with complete := true } then x.images else { r.img with complete := true } :: x.images }) p)) ∧
  (∀ (s : State), s.stewardUp = true → exec .riskEstimateUpdate s = .next ((List.finRange 4).foldl (fun u p => u.setReg 0x7013 (p.val + 1) (u.riskOf p)) s.noteAll)) ∧
  (∀ (s : State), s.stewardUp = true → s.passed s.stw.hourAt hourNs = true →
    exec .cleanHourTick s = .next ((s.modStw fun x => { x with hourAt := s.time, hourBad := false }).saveReg 0x7015 0
      (if s.hourBroken then 0 else if s.reg 0x4020 0 % 8 < 3 ∧ s.rotatedInHour = true then min (s.reg 0x7015 0 + 1) 0xFFFFFFFF else s.reg 0x7015 0))) ∧
  (∀ (s : State) (via : Via) (q : W16), s.accepts via 0x7002 0 (leBytes 2 q.toNat) = true →
    (∀ k, s.faults.findIdx? (fun r => r.seq = q) = some k → ∃ t, exec (.logAcknowledge via q) s = .next t ∧ t.acked = max s.acked (k + 1) ∧ t.faults = s.faults) ∧
    (s.faults.findIdx? (fun r => r.seq = q) = none → exec (.logAcknowledge via q) s = .next (s.answered via 0x7002 0 (leBytes 2 q.toNat) 3)))

/-- Restarts of the steward. The model's: whether the signature of an image that has been written and not been looked at verifies is free (log entry 14). (R405, R450, R455, R456, R457, R462, R479) -/
def Obligations.StewardRestarts : Prop :=
  (∀ (s : State) (via : Via), s.accepts via 0x1031 0 [1] = true → exec (.stewardRestart via) s = .next (((s.answered via 0x1031 0 [1] 0).setReg 0x1031 0 0).restartSteward)) ∧
  (∀ (s : State), s.stewardOn = true → exec .watchdogExpiry s = .next s.restartSteward) ∧
  (∀ (s : State), s.stewardOn = true → s.regsWf = true → ∃ t r, exec .stewardLockstepMismatch s = .next t ∧ t.faultHold.getLast? = some r ∧ r.cls = 3 ∧ r.detail = 0x0302 ∧ r.nojob = true ∧
    t.faults = s.faults ∧ (∀ st, (t.hlt st).passed = []) ∧ ∀ p, (t.prt p).jobState = (s.prt p).jobState) ∧
  (∀ (s : State), (s.regsWf = true → s.restartSteward.reg 0x1030 0 = 0) ∧ (∀ n : Fin 8, vget s.restartSteward.stw.sessions n = none) ∧ (∀ f : Pf, vget s.restartSteward.stw.staging f = []) ∧
    s.restartSteward.mem = s.mem ∧ s.restartSteward.poison = s.poison ∧ s.restartSteward.mordants = s.mordants ∧ s.restartSteward.stations = s.stations ∧
    s.restartSteward.parts = s.parts ∧ s.restartSteward.faults = s.faults ∧ s.restartSteward.time = s.time) ∧
  (∀ (s u : State) (j : Fin 4) (sig : Bool), s.reg 0x1030 0 = 1 → s.stewardOn = true → s.passed s.stw.runAt 2000000000 = true → j = s.inactiveSlot .runtime →
    sig = (vget s.stw.sigs j).getD (bit (Config.freeWord s.draws).toNat 0) → u = State.setSlot { s with draws := s.draws + 1 } (s.activeSlot .runtime) 4 →
    exec .runtimeStartTimeout s = .next (if u.slotState j = 0 ∨ u.slotState j = 4 then u.recover else if u.acceptable .runtime j sig = false then (u.setSlot j 4).recover
      else ((u.setSlot j 3).showRunning.modStw fun x => { x with runAt := s.time })))

/-- Firmware slots and their commands. (R459, R460, R461, R462, R463) -/
def Obligations.FirmwareCommands : Prop :=
  (∀ (s : State) (via : Via) (k : FwKind) (off : Nat) (data : List Byte) (c : Bool) (r : DictReq), r = { writeReq 0x1F01 (kindCode k) data with commit := c, off := BitVec.ofNat 32 off } →
    data.length ≤ 1024 → off < 2 ^ 32 → s.acceptsReq via r data = true → off + data.length ≤ slotSize k →
    exec (.imageStagingWrite via k off data c) s = .next (
      let v := overlay (s.staged via 0x1F01 (kindCode k) 0) off data
      let u := s.reply via r 0 []
      if c then ((u.unstage via 0x1F01 (kindCode k)).modStw fun x => { x with fw := vset x.fw (u.inactiveSlot k) (lsPutBytes [] 0 v), sigs := vset x.sigs (u.inactiveSlot k) none }).setSlot (u.inactiveSlot k) 1
      else u.stage via 0x1F01 (kindCode k) v)) ∧
  (∀ (s : State) (via : Via) (a b : Bool) (l : List FwKind) (ok : FwKind → Bool), s.accepts via 0x1F02 0 [1] = true → l = kinds.filter (fun k => s.slotState (s.inactiveSlot k) = 1) →
    (∀ k, ok k = s.acceptable k (s.inactiveSlot k) (if k = .bootcode then a else b)) →
    (l ≠ [] → exec (.firmwareVerify via a b) s = .next ((l.foldl (fun s k => (s.setSlot (s.inactiveSlot k) (if ok k then 2 else 4)).modStw fun x =>
      { x with sigs := vset x.sigs (s.inactiveSlot k) (some (if k = .bootcode then a else b)) }) (s.answered via 0x1F02 0 [1] 0)).setReg 0x1F02 0
      (if l.all ok then 0 else 3))) ∧
    (l = [] → exec (.firmwareVerify via a b) s = .next ((s.answered via 0x1F02 0 [1] 5).setReg 0x1F02 0 1))) ∧
  (∀ (s : State) (via : Via) (l : List FwKind), s.accepts via 0x1F02 0 [2] = true → l = kinds.filter (fun k => s.slotState (s.inactiveSlot k) = 2) →
    (l ≠ [] → s.restoring = false → exec (.firmwareActivate via) s = .next
      (((l.foldl (fun s k => State.activate k (s.inactiveSlot k) s) (s.answered via 0x1F02 0 [2] 0)).setReg 0x1F02 0 0).restartSteward)) ∧
    (l = [] ∨ s.restoring = true → exec (.firmwareActivate via) s = .next ((s.answered via 0x1F02 0 [2] 5).setReg 0x1F02 0 1))) ∧
  (∀ (s : State) (via : Via) (v : Nat), s.accepts via 0x1F02 0 [4] = true → v = min (s.imageSvn (s.activeSlot .bootcode)) (s.imageSvn (s.activeSlot .runtime)) →
    exec (.raiseRollbackFloor via) s = .next (if s.reg 0x1F03 0 < v then ((s.answered via 0x1F02 0 [4] 0).setReg 0x1F02 0 0).setReg 0x1F03 0 v
      else (s.answered via 0x1F02 0 [4] 5).setReg 0x1F02 0 1)) ∧
  (∀ (s : State) (via : Via) (l : List FwKind), s.accepts via 0x1F02 0 [5] = true → l = kinds.filter (fun k => (s.prevSlot k).isSome) →
    (l ≠ [] → s.restoring = false → exec (.firmwareRevert via) s = .next
      (((l.foldl (fun s k => match s.prevSlot k with
        | some i => State.activate k i s
        | none => s) (s.answered via 0x1F02 0 [5] 0)).setReg 0x1F02 0 0).restartSteward)) ∧
    (l = [] ∨ s.restoring = true → exec (.firmwareRevert via) s = .next ((s.answered via 0x1F02 0 [5] 5).setReg 0x1F02 0 1)))

/-- SPDM requests. The model's: the response codes are those of the SPDM standard (log entry 77); the bodies of capabilities and algorithms are left out. (R464, R465, R466, R467) -/
def Obligations.SpdmMessages : Prop :=
  (∀ (s : State) (via : SpdmVia), s.spdmPath via = true →
    exec (.getVersion via) s = .next ((s.heardOn via).emit (.spdm via spdmVersion [0x12, 0x13])) ∧
    exec (.getCapabilities via) s = .next ((s.heardOn via).emit (.spdm via spdmCapabilities [])) ∧
    exec (.negotiateAlgorithms via) s = .next ((s.heardOn via).emit (.spdm via spdmAlgorithms [])) ∧
    exec (.getDigests via) s = .next ((s.heardOn via).emit (.spdm via spdmDigests (measure s.chain)))) ∧
  (∀ (s : State) (via : SpdmVia) (off len : Nat), s.spdmPath via = true → off ≤ s.chain.length →
    exec (.getCertificate via 0 off len) s = .next ((s.heardOn via).emit (.spdm via spdmCertificate ((s.chain.drop off).take len)))) ∧
  (∀ (s : State) (via : SpdmVia) (slot : Byte) (off len : Nat), s.spdmPath via = true → (slot ≠ 0 ∨ s.chain.length < off) →
    exec (.getCertificate via slot off len) s = .next ((s.heardOn via).emit (.spdm via spdmError []))) ∧
  (∀ (s : State) (via : SpdmVia) (n : BitVec 256), s.spdmPath via = true →
    exec (.challenge via n) s = .next ((s.heardOn via).emit (.spdm via spdmChallengeAuth (measure s.chain ++ s.signed (leBytes 32 n.toNat ++ measure s.chain))))) ∧
  (∀ (s : State) (via : SpdmVia) (i : Byte) (sg : Bool) (n : BitVec 256) (body : List Byte), s.spdmPath via = true →
    body = (if i = 0 then [7] else if i = 0xFF then (List.range 7).flatMap fun j => s.measurement (j + 1) else s.measurement i.toNat) →
    exec (.getMeasurements via i sg n) s = .next ((s.heardOn via).emit (if 7 < i.toNat ∧ i ≠ 0xFF then .spdm via spdmError []
      else .spdm via spdmMeasurements (body ++ (if sg then s.signed (leBytes 32 n.toNat ++ body) else []))))) ∧
  (∀ (s : State) (via : SpdmVia), s.spdmPath via = true → ∃ t, exec (.keyExchange via) s = .next t ∧ t.secured? via false = true ∧ t.secured? via true = false) ∧
  (∀ (s : State) (via : SpdmVia), s.spdmPath via = true → s.secured? via false = true →
    (∃ t, exec (.finish via true) s = .next t ∧ t.secured? via true = true) ∧ ∃ t, exec (.finish via false) s = .next t ∧ t.secured? via true = false ∧ t.secured? via false = false) ∧
  (∀ (s : State) (via : SpdmVia) (ok : Bool), s.spdmPath via = true → s.secured? via false = false → exec (.finish via ok) s = .next ((s.heardOn via).emit (.spdm via spdmError []))) ∧
  (∀ (s : State) (via : SpdmVia), s.spdmPath via = true → s.secured? via true = true →
    exec (.heartbeat via) s = .next ((s.heardOn via).emit (.spdm via spdmHeartbeatAck [])) ∧
    (∃ t, exec (.keyUpdate via) s = .next t ∧ t.secured? via true = true ∧ t.out = s.out ++ [Output.spdm via spdmKeyUpdateAck []]) ∧
    ∃ t, exec (.endSession via) s = .next t ∧ t.secured? via true = false ∧ t.out = s.out ++ [Output.spdm via spdmEndSessionAck []]) ∧
  (∀ (s : State) (via : SpdmVia), s.spdmPath via = true → s.secured? via true = false →
    exec (.heartbeat via) s = .next ((s.heardOn via).emit (.spdm via spdmError [])) ∧
    exec (.keyUpdate via) s = .next ((s.heardOn via).emit (.spdm via spdmError [])) ∧
    exec (.endSession via) s = .next ((s.heardOn via).emit (.spdm via spdmError [])))

/-- Requests of the dictionary that no other row serves. The model's: that the source of a reserve is told of a change of OD 6177h as of a removal (log entry 143). (R470, R475, R476, R477, R478, R550) -/
def Obligations.DictionaryRequests : Prop :=
  (∀ (s : State) (via : Via) (r : DictReq) (v : List Byte), s.serves via r [] = true → r.kind = 1 → readHeader r = 0 →
    s.odRead (s.roleOf via) r.index.toNat r.sub.toNat r.off.toNat r.len.toNat = (0, v) → exec (.dictionaryRead via r) s = .next (s.reply via r 0 v)) ∧
  (∀ (s : State) (via : Via) (r : DictReq), s.serves via r [] = true → r.kind ≠ 1 → r.kind ≠ 2 → (r.kind = 3 → r.ver ≠ 1) → exec (.dictionaryRead via r) s = .next (s.reply via r 0x0B [])) ∧
  (∀ (s : State) (via : Via) (r : DictReq), s.serves via r [] = true → r.kind = 1 → readHeader r = 0 → r.sub ≠ 0 → odRow r.index.toNat r.sub.toNat = none →
    exec (.dictionaryRead via r) s = .next (s.reply via r 1 [])) ∧
  (∀ (s : State) (via : Via) (r : DictReq) (data : List Byte), plainWrite r data = true → s.acceptsReq via r data = true → r.ver = 1 → r.off = 0 → r.len.toNat = data.length →
    data.length = entryBytes r.index.toNat r.sub.toNat → hasRows r.index.toNat = false →
    exec (.dictionaryWrite via r data) s = .next (if s.valueStatus r.index.toNat r.sub.toNat (leNat data) = 0 then (s.reply via r 0 []).writeEntry r.index.toNat r.sub.toNat (leNat data)
      else s.reply via r (s.valueStatus r.index.toNat r.sub.toNat (leNat data)) [])) ∧
  (∀ (s u : State) (idx sub v : Nat), u = s.setReg idx sub v → (s.reg idx sub = v ∨ (idx ≠ 0x5400 ∧ idx ≠ 0x5500 ∧ idx ≠ 0x6177) → s.writeEntry idx sub v = u) ∧
    (s.reg 0x5400 sub ≠ v → s.writeEntry 0x5400 sub v = (s.setReg 0x5400 sub v).roleChanged) ∧
    (s.reg 0x5500 sub ≠ v → s.writeEntry 0x5500 sub v = (s.setReg 0x5500 sub v).groupWritten (fin (sub - 1))) ∧
    (s.reg 0x6177 sub ≠ v → s.writeEntry 0x6177 sub v = (s.setReg 0x6177 sub v).reserveChanged (fin (sub - 1)) (s.reg 0x6177 sub))) ∧
  (∀ (s : State) (via : Via) (r : DictReq) (data : List Byte) (e : OdRow), plainWrite r data = true → s.serves via r data = true → r.ver = 1 →
    odRow r.index.toNat r.sub.toNat = some e → (e.acc = .ro ∨ s.mayWrite (s.roleOf via) r.index.toNat r.sub.toNat = false) →
    exec (.dictionaryWrite via r data) s = .next (s.reply via r 2 [])) ∧
  (∀ (s : State) (via : Via) (r : DictReq) (data : List Byte), domainWrite r data false = true → s.acceptsReq via r data = true → r.ver = 1 → data.length ≤ 1024 →
    r.len.toNat = data.length → r.off.toNat + data.length ≤ domLen r.index.toNat r.sub.toNat →
    exec (.domainWriteSegment via r data) s = .next ((s.reply via r 0 []).stage via r.index.toNat r.sub.toNat
      (overlay ((s.reply via r 0 []).staged via r.index.toNat r.sub.toNat (domLen r.index.toNat r.sub.toNat)) r.off.toNat data))) ∧
  (∀ (s u : State) (via : Via) (r : DictReq) (data v : List Byte) (iso : List RestartFinding) (e : MemEcc), domainWrite r data true = true → s.acceptsReq via r data = true → r.ver = 1 → data.length ≤ 1024 →
    r.len.toNat = data.length → r.off.toNat + data.length ≤ domLen r.index.toNat r.sub.toNat →
    v = overlay (s.staged via r.index.toNat r.sub.toNat (domLen r.index.toNat r.sub.toNat)) r.off.toNat data → u = (s.reply via r (s.wholeStatus r.index.toNat r.sub.toNat v) []).unstage via r.index.toNat r.sub.toNat →
    exec (.domainWriteCommit via r data iso e) s = .next (if s.wholeStatus r.index.toNat r.sub.toNat v = 0 then u.applyDomain r.index.toNat r.sub.toNat v iso e else u)) ∧
  (∀ (s : State) (n : Fin 8) (q : W16) (r : DictReq) (b : List Byte), r.kind = 1 → s.answers (.session n q) = true → s.asks (.session n q) r [] = true → s.keptReply (.session n q) = some b →
    exec (.dictionaryRead (.session n q) r) s = .next (s.emit (.response (.session n q) b)))

/-- Saved values, factory values and management sessions. (R468, R469, R473, R474, R482, R523) -/
def Obligations.SavedValuesAndSessions : Prop :=
  (∀ (s : State) (via : Via), s.accepts via 0x1050 0 [1] = true →
    exec (.saveConfiguration via) s = .next (((s.answered via 0x1050 0 [1] 0).setReg 0x1050 0 0).saveAll)) ∧
  (∀ (s : State) (via : Via), s.accepts via 0x1050 0 [2] = true →
    exec (.discardUnsaved via) s = .next (State.followSaved (s.answered via 0x1050 0 [2] 0) ((s.answered via 0x1050 0 [2] 0).setReg 0x1050 0 0).loadSaved.planDiffers)) ∧
  (∀ (s : State), s.saveAll.saved = s.dict.filter (fun e => isKept .s e.1) ∧ s.saveAll.dict = s.dict) ∧
  (∀ (s : State) (via : Via), s.accepts via 0x3F00 0 [1] = true → ∃ t, exec (.restoreFactory via) s = .next t ∧ (∀ e ∈ t.dict, isKept .u e.1 = false) ∧ ∀ e ∈ t.doms, isKept .u e.1 = false) ∧
  (∀ (s : State) (via : Via), s.accepts via 0x8F00 0 [1] = true → s.anyLoaded = false →
    exec (.restoreFactoryRepairMaps via) s = .next ((List.finRange 18).foldl State.factoryStation ((s.answered via 0x8F00 0 [1] 0).setReg 0x8F00 0 0))) ∧
  (∀ (s : State) (via : Via), s.accepts via 0x8F00 0 [1] = true → s.anyLoaded = true →
    exec (.restoreFactoryRepairMaps via) s = .next ((s.answered via 0x8F00 0 [1] 5).setReg 0x8F00 0 1)) ∧
  (∀ (s : State) (t : SessTransport) (c : ClientCert) (r : Role) (n : Fin 8), s.carries t = true → s.certRole c = some r →
    (List.finRange 8).find? (fun n => (vget s.stw.sessions n).isNone) = some n →
    exec (.managementSessionHandshake t c) s = .next (s.modStw fun x => { x with sessions := vset x.sessions n (some ⟨t, r, s.time, [], []⟩) })) ∧
  (∀ (s : State) (n : Fin 8) (x : Session), vget s.stw.sessions n = some x →
    exec (.managementSessionClose n) s = .next (s.closeSession n) ∧ (s.passed x.seen 60000000000 = true → exec (.sessionIdleTimeout n) s = .next (s.closeSession n))) ∧
  (∀ (s : State) (via : Via) (m : Fin 2) (v : Byte), s.accepts via 0x1130 (m.val + 1) [v] = true → v.toNat ≤ 1 →
    (s.reg 0x1130 (m.val + 1) = v.toNat → exec (.managementModeWrite via m v) s = .next (s.answered via 0x1130 (m.val + 1) [v] 0)) ∧
    (s.reg 0x1130 (m.val + 1) ≠ v.toNat → exec (.managementModeWrite via m v) s = .next ((((s.answered via 0x1130 (m.val + 1) [v] 0).setReg 0x1130 (m.val + 1) v.toNat).setReg 0x1132 (m.val + 1) 0).closeSessions fun t => t = .mgmt m))) ∧
  (∀ (s : State) (via : Via) (m : Fin 2) (v : Byte), s.accepts via 0x1130 (m.val + 1) [v] = true → 1 < v.toNat →
    exec (.managementModeWrite via m v) s = .next (s.answered via 0x1130 (m.val + 1) [v] 3)) ∧
  (∀ (s : State) (m : Fin 2), s.pwr.off = false → s.pwr.stwHeld = false →
    (s.reg 0x1130 (m.val + 1) = 0 → exec (.managementLinkUp m true) s = .next (s.setReg 0x1132 (m.val + 1) 3)) ∧
    (s.reg 0x1130 (m.val + 1) ≠ 0 → exec (.managementLinkUp m false) s = .next (s.setReg 0x1132 (m.val + 1) 1))) ∧
  (∀ (s : State) (m : Fin 2), s.pwr.off = false → exec (.managementLinkDown m) s = .next (s.setReg 0x1132 (m.val + 1) 0))

/-- Requests of OD 4021h and the steps of a park. (R491, R492, R493, R496, R497, R539, R542) -/
def Obligations.PowerTransitions : Prop :=
  (∀ (s : State) (via : Via) (h : Half) (force : Bool) (d : List Byte), d = [BitVec.ofNat 8 (((halfNo h).val + 1) + b2n force * 128)] → s.accepts via 0x4021 0 d = true →
    exec (.powerRequestHalfPark via h force) s = .next (if s.inTransition || s.comingUp || s.pwr.removal.isSome then (s.answered via 0x4021 0 d 5).setReg 0x4021 0 1
      else if s.powerState = ((halfNo h).val + 1) then (s.answered via 0x4021 0 d 0).setReg 0x4021 0 0
      else if s.powerState ≠ 0 ∨ s.holdsHalf h = true ∨ ((∃ p, s.bindsHalf h p = true) ∧ force = false) then (s.answered via 0x4021 0 d 5).setReg 0x4021 0 1
      else (s.answered via 0x4021 0 d 0).startPark ((halfNo h).val + 1) [h] ((List.finRange 4).filter (s.bindsHalf h)))) ∧
  (∀ (s : State) (via : Via) (force : Bool) (d : List Byte), d = [BitVec.ofNat 8 (0 + b2n force * 128)] → s.accepts via 0x4021 0 d = true →
    exec (.powerRequestRun via force) s = .next (if s.inTransition || s.comingUp || s.pwr.removal.isSome then (s.answered via 0x4021 0 d 5).setReg 0x4021 0 1
      else if s.powerState = 0 then (s.answered via 0x4021 0 d 0).setReg 0x4021 0 0
      else if bit (s.reg 0x4201 0) 3 then (s.answered via 0x4021 0 d 5).setReg 0x4021 0 1
      else let u := s.answered via 0x4021 0 d 0; (u.beginTrans 0 u.parkedHalves .raising).raiseRails (if u.powerState = 4 then allRails else dieRails))) ∧
  (∀ (s : State) (via : Via) (force : Bool) (d : List Byte), d = [BitVec.ofNat 8 (3 + b2n force * 128)] → s.accepts via 0x4021 0 d = true →
    exec (.powerRequestDeepPark via force) s = .next (if s.inTransition || s.comingUp || s.pwr.removal.isSome then (s.answered via 0x4021 0 d 5).setReg 0x4021 0 1
      else if s.powerState = 3 then (s.answered via 0x4021 0 d 0).setReg 0x4021 0 0
      else if s.powerState = 4 then ((s.answered via 0x4021 0 d 0).beginTrans 3 bothHalves .raising).raiseRails allRails
      else if s.anyLoaded && !force then (s.answered via 0x4021 0 d 5).setReg 0x4021 0 1
      else (s.answered via 0x4021 0 d 0).parkAll 3)) ∧
  (∀ (s : State) (via : Via) (force : Bool) (d : List Byte), d = [BitVec.ofNat 8 (4 + b2n force * 128)] → s.accepts via 0x4021 0 d = true →
    exec (.powerRequestStewardOnly via force) s = .next (if s.inTransition || s.comingUp || s.pwr.removal.isSome then (s.answered via 0x4021 0 d 5).setReg 0x4021 0 1
      else if s.powerState = 4 then (s.answered via 0x4021 0 d 0).setReg 0x4021 0 0
      else if s.powerState = 3 then (s.answered via 0x4021 0 d 0).leaveDeep
      else if s.powerState ≠ 0 || (s.anyLoaded && !force) then (s.answered via 0x4021 0 d 5).setReg 0x4021 0 1
      else (s.answered via 0x4021 0 d 0).parkAll 4)) ∧
  (∀ (s u : State), s.phase = some .towers → s.towersBusy s.transHalves = false → s.stewardUp = true →
    u = (List.finRange 28).foldl (fun u q => if s.transHalves.contains (portHalf q) then u.goodbye q else u) s →
    exec .parkTowersIdle s = .next ((if u.transTarget < 3 then u.parkRings else u).setPhase .seam)) ∧
  (∀ (s : State), s.phase = some .towers → s.towersBusy s.transHalves = true → s.phaseFor 60000000000 = true → s.stewardUp = true → exec .parkTowerTimeout s = .next s.abandonTrans) ∧
  (∀ (s : State), s.phase = some .seam → s.phaseFor 100000 = true → s.stewardUp = true → exec .seamDrainTimeout s = .next s.abandonTrans) ∧
  (∀ (s : State), s.pwr.trans ≠ none → s.pwr.removal = none → s.abandonTrans.pwr.trans = none ∧ s.abandonTrans.reg 0x4021 0 = 3) ∧
  (∀ (s u : State), s.phase = some .seam → s.stewardUp = true → (∀ c ∈ seamCrossings, s.crossingOwners c = []) →
    u = s.resetCrossings ((parkCrossings s.transHalves).filter fun c => !seamCrossings.contains c) →
    exec .seamDrained s = .next (State.beginLowering { u with clk := { u.clk with
      fenced := (u.clk.fenced.filter fun f => !(parkCrossings s.transHalves).contains (f.a, f.b)) ++ seamCrossings.map fun c => ⟨c.1, c.2, [], false⟩
      recal := u.clk.recal.filter fun c => !(parkCrossings s.transHalves).contains c } } s.transTarget s.transHalves).admitItems) ∧
  (∀ (s u : State) (r : Rail), s.pwr.decay = some r → s.stewardUp = true → u = (s.modPwr fun x => { x with decay := none }) →
    exec (.railDecayed r) s = .next (if s.pwr.down = [] then u else if u.lowerNext.pwr.down = [] then u.lowerNext.loweringDone else u.lowerNext))

/-- Power-up, power emergencies, the steward's start, admission and removal. (R449, R455, R489, R504, R505, R507, R538, R543) -/
def Obligations.PowerUpAndRemoval : Prop :=
  (∀ (s u : State) (r : Rail), s.pwr.off = false → s.isEn r = true → vget s.pwr.pg r = false →
    u = (s.modPwr fun x => { x with pg := vset x.pg r true, await := x.await.filter (· ≠ r) }) →
    exec (.pgAssert r) s = .next (if s.pwr.await.contains r && u.pwr.await = [] && s.stewardUp then u.continueRaise else u)) ∧
  (∀ (s : State) (r : Rail), s.pwr.await.contains r = true → s.stewardUp = true →
    exec (.pgTimeout r) s = .next ((((s.emergencyRecords 0x0C01 noLoc2).raise none 0x0C 0x0C01 (siteSteward noLoc2)).setInsertion 9).fallToSteward
      (if s.pwr.trans = none then dieRails ++ [4, 3] else dieRails))) ∧
  (∀ (s : State) (r : Rail), s.pwr.off = false → 3 ≤ r.val → s.isEn r = true → vget s.pwr.pg r = true → exec (.pgDeassert r) s = .next (s.powerEmergency r)) ∧
  (∀ (s u : State) (b : BootResult), s.stewardOn = true → s.stw.romHold = false → s.reg 0x1030 0 < 2 → u = (if s.reg 0x1030 0 = 0 then s.bootSteps b else s) →
    exec (.runtimeReady b) s = .next (if u.reg 0x1030 0 = 1 then ((List.finRange 4).foldl State.reportDone (u.setSteward 2).resumeTimeouts.writeHeldRecords).sendHeld.resume else u)) ∧
  (∀ (s : State) (b : BootResult), s.pwr.off = false → s.pwr.stwHeld = true → exec (.stwResetNRelease b) s = .next (State.bootSteps b (s.modPwr fun x => { x with stwHeld := false }))) ∧
  (∀ (s u v : State) (failed : List Crossing), s.pwr.dieUp = false → s.railsUp = true → s.pwr.testEn = false → s.stewardUp = true → (s.reg 0x4030 0 = 2 ∨ s.phase = some .bringUp) →
    u = (s.modPwr fun x => { x with dieUp := true, parking := Vector.replicate 2 false, stopped := Vector.replicate 2 false }).setReg 0x4110 0 1 →
    v = ((List.finRange 4).foldl State.formRing ((failed.filter fun x => allCrossings.contains (x.a.val, x.b.val)).foldl (fun s x => s.crossingFailed x.a.val x.b.val) u)).showReady.showTargets →
    exec (.computeDieReady failed) s = .next (if v.reg 0x1030 0 = 3 then v else v.setSteward 3).afterUp) ∧
  (∀ (s u : State) (via : Via) (v : Byte), s.accepts via 0x4031 0 [v] = true → u = s.answered via 0x4031 0 [v] (if 1 < v.toNat then 3 else 0) →
    exec (.fabricAdmission via v) s = .next (if 1 < v.toNat then u
      else if v = 1 ∧ u.reg 0x4030 0 = 3 then (u.setReg 0x4031 0 1).setInsertion 4
      else if v = 0 ∧ u.reg 0x4030 0 = 4 then (u.setReg 0x4031 0 0).setInsertion 3
      else u.setReg 0x4031 0 v.toNat)) ∧
  (∀ (s u : State) (via : Via) (force : Bool) (d : List Byte), d = [BitVec.ofNat 8 (1 + b2n force * 128)] → s.accepts via 0x4032 0 d = true → u = (s.answered via 0x4032 0 d 0).setReg 0x4032 0 2 →
    exec (.orderlyRemoval via force) s = .next (if s.pwr.removal.isSome || s.comingUp then (s.answered via 0x4032 0 d 5).setReg 0x4032 0 1
      else if u.inTransition then u.modPwr fun x => { x with removal := some force, removalWaits := true }
      else u.startRemoval force)) ∧
  (∀ (s v : State), s.removing = true → (s.reg 0x4030 0 = 5 ∨ (s.reg 0x4030 0 = 7 ∧ s.powerState = 3)) → s.stewardUp = true → s.anyLoaded = false → s.inTransition = false → (∀ p, s.epochOpen p = false) →
    v = ((List.finRange 28).foldl (fun u q => (State.closePort u q).saveReg 0x5000 (q.val + 1) 0) (s.setInsertion 6)).setInsertion 7 →
    exec .removalDrainComplete s = .next (if v.powerState = 4 then v.removalReady else if v.powerState = 3 then v.leaveDeep else v.parkAll 4))

/-- The reset kinds. (R43, R487, R488, R490, R498, R499, R500, R507, R543) -/
def Obligations.ResetKinds : Prop :=
  (∀ (s : State), s.pwr.off = true → exec .powerOn s = .next (s.coldStart 1 true)) ∧
  (∀ (s : State), s.stewardOn = true → exec .coldResetInput s = .next (s.coldStart 2 false)) ∧
  (∀ (s : State) (via : Via), s.accepts via 0x4000 0 [2] = true → exec (.coldReset via) s = .next ((s.answered via 0x4000 0 [2] 0).coldStart 3 false)) ∧
  (∀ (s t : State) (c : Nat) (h : Bool), t = s.coldStart c h →
    t.mem = [] ∧ t.poison = [] ∧ t.stashPoison = [] ∧ t.mordants = [] ∧ t.time = 0 ∧ t.faults = s.beatEnd.faults ∧ t.seqNext = s.beatEnd.seqNext ∧ t.saved = s.beatEnd.saved ∧ t.pwr.cause = c ∧ t.pwr.stwHeld = h ∧
    t.stw.fw = s.stw.fw ∧ (∀ p, (t.prt p).jobState = 0) ∧ ∀ st, t.stn st = Station.reset) ∧
  (∀ (s : State), s.pwr.off = false → ∃ t, exec .stewardRailFailure s = .next t ∧ t.pwr.off = true ∧ t.time = s.time ∧ t.mem = [] ∧ t.mordants = [] ∧ t.faults = s.faults ∧
    t.faultLost = (s.faultLost || s.faultHold ≠ [] || s.beat ≠ []) ∧ ∀ r, vget t.pwr.en r = false ∧ vget t.pwr.pg r = false) ∧
  (∀ (s : State) (via : Via), s.accepts via 0x4000 0 [1] = true → exec (.warmReset via) s = .next (if s.reg 0x4030 0 = 8 then (s.answered via 0x4000 0 [1] 5).setReg 0x4000 0 1
      else (s.answered via 0x4000 0 [1] 0).warmStart)) ∧
  (∀ (s : State), s.warmStart.mordants = [] ∧ s.warmStart.time = 0 ∧ (∀ p, (s.warmStart.prt p).jobState = 0) ∧ ∀ st, s.warmStart.stn st = Station.reset) ∧
  (∀ (s : State) (via : Via), s.accepts via 0x4000 0 [3] = true → exec (.seamReset via) s = .next (if s.anyLoaded || s.inTransition then (s.answered via 0x4000 0 [3] 5).setReg 0x4000 0 1
      else ((s.answered via 0x4000 0 [3] 0).setReg 0x4000 0 0).resetCrossings seamCrossings)) ∧
  (∀ (s : State) (via : Via) (p : Part), s.accepts via 0x4001 (p.val + 1) [1] = true → exec (.partitionReset via p) s = .next (
    let u := (((s.answered via 0x4001 (p.val + 1) [1] 0).setReg 0x4001 (p.val + 1) 0).clearJob p).clearQueues p
    let u := ((((u.activeStations p).foldl (fun v st => v.modSt st fun _ => Station.reset) u).clearMordants p).zeroStash p)
    (u.portsOf p).foldl State.resetPort u)) ∧
  (∀ (s : State) (via : Via) (p : Part), s.accepts via 0x4002 (p.val + 1) [1] = true →
    exec (.jobReset via p) s = .next ((((s.answered via 0x4002 (p.val + 1) [1] 0).setReg 0x4002 (p.val + 1) 0).clearJob p).zeroStash p)) ∧
  (∀ (s : State) (via : Via) (q : PortId), s.accepts via 0x4003 (q.val + 1) [1] = true →
    exec (.portReset via q) s = .next (((s.answered via 0x4003 (q.val + 1) [1] 0).setReg 0x4003 (q.val + 1) 0).resetPort q))

/-- Package power, core rails and temperature. (R533, R534, R535, R536, R540, R541, R542, R543) -/
def Obligations.PowerLimitThrottleAndRails : Prop :=
  (∀ (s u v : State) (w : W16), s.stewardUp = true → u = s.setReg 0x4231 0 w.toNat →
    v = (if u.reg 0x4230 0 < w.toNat then (List.finRange 4).foldl (fun v p => v.setLim p (lowerCap (v.ownMhz p) 25 (vget v.pwr.lim p))) u
      else if w.toNat * 100 < u.reg 0x4230 0 * 95 then (List.finRange 4).foldl (fun v p => v.setLim p (raiseCap (v.ownMhz p) (vget v.pwr.lim p))) u else u) →
    exec (.powerLimitCheck w) s = .next (v.setThermal 2 (decide (u.reg 0x4230 0 < w.toNat) || v.pwr.lim.toList.any Option.isSome))) ∧
  (∀ (own n : Nat) (c : Option Nat), ∃ v, lowerCap own n c = some v ∧ 400 ≤ v ∧ v ≤ max 400 (c.getD own)) ∧
  (∀ (s : State) (h : Half) (mv : Nat), s.stewardUp = true → vget s.pwr.pg (coreRail h) = true → s.passed (s.core h).at_ 1000000 = true → (s.core h).mv ≠ s.railTarget h →
    mv = (if (s.core h).mv < s.railTarget h then min (s.railTarget h) ((s.core h).mv + 10) else max (s.railTarget h) ((s.core h).mv - 10)) →
    exec (.coreRailVoutCommand h) s = .next (((s.modCore h fun c => { c with mv := mv, at_ := s.time, fails := 0 }).emit (.vout h mv)).raisesDue)) ∧
  (∀ (s u : State) (h : Half), s.stewardUp = true → s.isEn (coreRail h) = true → u = (s.modCore h fun c => { c with fails := (s.core h).fails + 1 }) →
    exec (.pmbusCommandFailure h) s = .next (if (s.core h).fails < 2 then u else u.powerEmergency (coreRail h))) ∧
  (∀ (s : State) (h : Half), s.stewardUp = true → s.reg 0x4221 ((halfNo h).val + 1) ≠ 0 → s.passed (s.core h).warnAt 86400000000000 = true →
    exec (.coreRailStepDecay h) s = .next (((s.saveReg 0x4221 ((halfNo h).val + 1) (s.reg 0x4221 ((halfNo h).val + 1) - 1)).modCore h fun c => { c with warnAt := s.time }).showTargets)) ∧
  (∀ (s : State) (h : Half), s.stewardUp = true → s.throttled h = true → s.heats h = true → s.passed (s.throttle h).stepAt 1000000 = true →
    exec (.throttleStep h) s = .next (s.stepDown h)) ∧
  (∀ (s : State) (h : Half) (t : W64), s.stewardUp = true → s.throttled h = true → s.cool h = true → (s.throttle h).cool = some t → s.passed t 100000000 = true →
    s.passed (s.throttle h).stepAt 100000000 = true →
    exec (.throttleRecoveryStep h) s = .next (
      let u := (List.finRange 4).foldl (fun v p => State.setCap v h p (raiseCap (v.ownMhz p) (vget (v.throttle h).caps p))) (s.modThr h fun x => { x with stepAt := s.time })
      if (u.throttle h).caps.toList.any Option.isSome then u else (u.setThermal (halfNo h).val false).breakHour)) ∧
  (∀ (s : State) (r : Rail) (mv a : W16), s.pwr.off = false → 3 ≤ r.val → s.isEn r = true → vget s.pwr.pg r = true → s.railBad r mv.toNat a.toNat = true →
    exec (.railOutOfRange r mv a) s = .next (((List.finRange 4).filter s.loaded).foldl (fun u p => u.raise (some p) 0x0D 0x0D01 (siteSteward noLoc2))
      ((s.setReg 0x4220 (r.val + 1) (mv.toNat * 65536 + a.toNat)).powerEmergency r))) ∧
  (∀ (s u v w : State) (l : List W16), s.pwr.off = false → s.pwr.stwHeld = false → l.length = 64 → u = s.readSensors l →
    v = (List.finRange 4).foldl (fun x p => if x.loaded p && x.beyondFor p && !s.beyondFor p then x.raise (some p) 0x0D 0x0D01 (siteSteward noLoc2) else x) u →
    w = (bothHalves.foldl (fun x h => (x.noteHeat h).startThrottle h) v).unlatch →
    exec (.sensorSample l) s = .next (match (List.range 64).find? fun i => !isDram i && decide (deg 125 ≤ u.sensor i) with
      | some i => u.tripOff i
      | none => if u.stewardUp then (match w.emergencySensor with
          | some i => w.thermalEmergency i
          | none => w) else v))

/-- Mailboxes and the host port's own events. (R479, R512, R520, R521, R522) -/
def Obligations.HostPortAndMailbox : Prop :=
  (∀ (s u : State) (f : Pf) (b : List Byte) (c : Byte), s.fnOn f = true → b.length ≤ 1040 → u = (s.modFn f fun x => { x.clearStatus c with req := fit 0 1040 b, busy := true }) →
    exec (.mailboxDoorbell f b c) s = .next (if (s.fn f).busy then s.modFn f fun x => { x.clearStatus c with lost := true }
      else if s.reg 0x1030 0 < 2 then u.answerRestart f else u)) ∧
  (∀ (c : Byte) (x : HostFn), x.clearStatus c = { x with done := x.done && !c.getLsbD 0, lost := x.lost && !c.getLsbD 2, ovf := x.ovf && !c.getLsbD 4 }) ∧
  (∀ (s : State) (f : Pf) (v : W32) (c : Byte), s.fnOn f = true → exec (.notificationRingTailWrite f v c) s = .next (s.modFn f fun x => { x.clearStatus c with tail := v.toNat % 64 })) ∧
  (∀ (s : State), s.perst = false → exec .perstNAssert s = .next (State.pcieReset { s with perst := true })) ∧
  (∀ (s : State), exec .perstNDeassert s = .next { s with perst := false }) ∧
  (∀ (s : State), s.linkUp = true → exec .hotReset s = .next s.pcieReset ∧ exec .pcieLinkDown s = .next s.pcieReset) ∧
  (∀ (s : State), (∀ p, (s.sec p).epoch = none ∧ (s.sec p).restore = none) → (s.regsWf = true → s.pcieReset.reg 0x1200 0 = 0) ∧ s.pcieReset.mem = s.mem ∧ s.pcieReset.mordants = s.mordants ∧ s.pcieReset.stations = s.stations ∧ s.pcieReset.faults = s.faults) ∧
  (∀ (s : State) (r : BitVec 4) (w : BitVec 5) (c : Vector PciCfg 5), s.perst = false → s.linkUp = false → vget s.pwr.pg 3 = true → 1 ≤ r.toNat → r.toNat ≤ 6 →
    w.toNat ∈ [1, 2, 4, 8, 16] → exec (.pcieLinkUp r w c) s = .next ((List.finRange 5).foldl (fun u f => u.modFn f fun x => { x with cfg := vget c f })
      (s.setReg 0x1200 0 (r.toNat * 256 + w.toNat)))) ∧
  (∀ (s u : State) (f : Pf) (c : PciCfg), s.linkUp = true → u = (s.modFn f fun x => { x.clear with cfg := c }) →
    exec (.functionLevelReset f c) s = .next (match pfPart f with
      | some p => u.resetAperture p
      | none => u)) ∧
  (∀ (s : State) (f : Pf), s.linkUp = true → exec (.d3hotEntry f) s = .next (s.modFn f fun x => { x with d3 := true }) ∧
    exec (.d0Entry f) s = .next (s.modFn f fun x => { x with d3 := false })) ∧
  (∀ (s : State) (v : W64) (f : Pf), s.linkUp = true → (s.fn f).cfg.ptm = true →
    exec (.ptmRequest v) s = .next (s.setDom 0x4420 0 (leBytes 8 v.toNat ++ leBytes 8 s.time.toNat)))

/-- BAR2, doorbells and watches. The model's: how a held request is served (log entry 133), and that the host port aborts a request for a retired tower (log entry 132). (R29, R164, R289, R513, R515, R516, R517, R518, R519) -/
def Obligations.HostAccesses : Prop :=
  (∀ (s : State) (f : Pf) (posted : Bool) (act : Part → State → State), s.linkUp = true →
    hostRequest f posted act s = .next (match s.admission f with
      | .serve p => act p s
      | .unsupported => s.unsupported f posted
      | .abort => s.abort f posted)) ∧
  (∀ (s : State) (f : Pf) (p : Part), s.admission f = .serve p ↔ f.val = p.val + 1 ∧ (s.fn f).d3 = false ∧ (s.rangeOf p).isSome = true ∧ s.powerState < 3) ∧
  (∀ (s : State) (f : Pf) (posted towers : Bool) (way : List (Nat × Nat)) (req : HostReq) (act : State → State),
    s.enterMesh f posted way towers req act = (if s.parked .west || !s.pwr.dieUp then s.abort f posted
      else if way.any s.blocked || (towers && s.maintenance) then { s with hostHeld := s.hostHeld ++ [⟨f, way, req⟩] } else act s)) ∧
  (∀ (s : State) (f : Pf) (p : Part) (off n : Nat) (posted : Bool) (req : HostReq) (act : List (Nat × Nat) → State → State),
    s.onAperture f p off n posted req act = (match cutWindows (s.apertureWindows p) off n with
      | none => s.unsupported f posted
      | some runs => if runs.any s.runClosed then s.abort f posted else s.enterMesh f posted (runs.flatMap fun r => s.hostWay r.1 r.2 !posted) true req (act runs))) ∧
  (∀ (s : State) (f : Pf) (off n : Nat) (e : MemEcc), s.linkUp = true → off + n ≤ s.barHalf f → n ≠ 0 →
    exec (.bar2MemoryRead f off n e) s = hostRequest f false (fun p u => u.onAperture f p off n false (.read off n e) fun runs v =>
      (v.readRuns e runs).2.complete f .done ((v.readRuns e runs).2.completions f off (v.readRuns e runs).1)) s) ∧
  (∀ (s : State) (f : Pf) (off : Nat) (data : List Byte) (ep : Bool) (e : MemEcc), s.linkUp = true → off + data.length ≤ s.barHalf f → data ≠ [] →
    exec (.bar2MemoryWrite f off data ep e) s = hostRequest f true (fun p u => u.onAperture f p off data.length true (.write off data ep e) fun runs v =>
      if runs.any fun r => v.forbids r.1 r.2 then v.logRefused f else v.writeRuns e runs (data.map fun b => ⟨b, ep⟩)) s) ∧
  (∀ (s : State) (f : Pf) (p : Part) (off n : Nat) (runs : List (Nat × Nat)) (e : MemEcc), s.linkUp = true → s.admission f = .serve p → off + n ≤ s.barHalf f → n ≠ 0 →
    cutWindows (s.apertureWindows p) off n = some runs → (∀ r ∈ runs, s.runClosed r = false) → s.parked .west = false → s.pwr.dieUp = true → s.maintenance = false → (∀ r ∈ runs, ∀ c ∈ s.hostWay r.1 r.2 true, s.blocked c = false) →
    ∃ u l, s.readRuns e runs = (l, u) ∧ exec (.bar2MemoryRead f off n e) s = .next (u.complete f .done (u.completions f off l))) ∧
  (∀ (s : State) (f : Pf) (p : Part) (off : Nat) (data : List Byte) (ep : Bool) (runs : List (Nat × Nat)) (e : MemEcc), s.linkUp = true → s.admission f = .serve p → off + data.length ≤ s.barHalf f →
    data ≠ [] → cutWindows (s.apertureWindows p) off data.length = some runs → (∀ r ∈ runs, s.runClosed r = false ∧ s.forbids r.1 r.2 = false) → s.parked .west = false → s.pwr.dieUp = true → s.maintenance = false →
    (∀ r ∈ runs, ∀ c ∈ s.hostWay r.1 r.2 false, s.blocked c = false) →
    exec (.bar2MemoryWrite f off data ep e) s = .next (s.writeRuns e runs (data.map fun b => ⟨b, ep⟩))) ∧
  (∀ (s : State) (f : Pf) (p : Part) (off n : Nat) (wide : Bool) (v c : W64) (e : MemEcc) (runs : List (Nat × Nat)) (u : State) (old : List PByte) (g : Nat → Nat) (i : Instr), n = (if wide then 8 else 4) →
    off + n ≤ s.barHalf f → s.linkUp = true → s.admission f = .serve p →
    (i = .atomicopFetchadd f off wide v e ∧ g = (fun x => x + v.toNat) ∨ i = .atomicopSwap f off wide v e ∧ g = (fun _ => v.toNat) ∨
      i = .atomicopCas f off wide c v e ∧ g = (fun x => if x = c.toNat % (if wide then 2 ^ 64 else 2 ^ 32) then v.toNat else x)) →
    (off % n ≠ 0 → exec i s = .next (s.unsupported f false)) ∧
    (off % n = 0 → cutWindows (s.apertureWindows p) off n = some runs → (∀ r ∈ runs, s.runClosed r = false) → s.parked .west = false → s.pwr.dieUp = true → s.maintenance = false →
      (∀ r ∈ runs, ∀ c ∈ s.hostWay r.1 r.2 true, s.blocked c = false) → s.readRuns e runs = (old, u) →
      exec i s = .next (if runs.any fun r => s.forbids r.1 r.2 then s.abort f false
        else if anyPoison old then u.complete f .done [(rawBytes old, true)]
        else (u.complete f .done [(rawBytes old, false)]).writeRuns noFindings runs (clean (leBytes n (g (leP old))))))) ∧
  (∀ (s : State) (f : Pf) (p : Part) (off n : Nat) (e : MemEcc), off + n ≤ s.barHalf f → n ≠ 0 → s.linkUp = true → s.admission f = .serve p →
    exec (.imageApertureRead f off n e) s = .next (match (s.sec p).epoch with
      | none => s.unsupported f false
      | some i => if i.tier ≠ 2 ∨ 65536 * ((s.securedBlocks p).length + 1) + 4 * (s.securedBlocks p).length < off + n then s.unsupported f false
        else s.enterMesh f false (s.imageWay p off n true) (s.imageWay p off n true ≠ []) (.imageRead off n e) fun u => match State.readImage p e (unitPieces (n / 65536 + 2) off n) ([], u) with
          | none => u.abort f false
          | some r => r.2.complete f .done (r.2.completions f off r.1))) ∧
  (∀ (s : State) (f : Pf) (p : Part) (off : Nat) (data : List Byte) (e : MemEcc), off + data.length ≤ s.barHalf f → data ≠ [] → s.linkUp = true → s.admission f = .serve p →
    exec (.imageApertureWrite f off data e) s = .next (match (s.sec p).restore with
      | none => s.unsupported f true
      | some r => if r.img.tier ≠ 2 ∨ 65536 * ((s.securedBlocks p).length + 1) + 4 * (s.securedBlocks p).length < off + data.length then s.unsupported f true
        else s.enterMesh f true (s.imageWay p off data.length false) (s.imageWay p off data.length false ≠ []) (.imageWrite off data e) (State.writeImage p e (unitPieces (data.length / 65536 + 2) off data.length) data))) ∧
  (∀ (s : State) (f : Pf) (p : Part) (off size : Nat) (v : W64), s.linkUp = true → s.admission f = .serve p →
    exec (.mordantDoorbellWrite f off size v) s = .next (match s.doorbellAt p off size with
      | none => s.unsupported f true
      | some m => if s.loaded p then s.enterMesh f true (s.doorbellWay p m false) false (.ring off size v) (fun u => u.morAdd p m v.toNat) else s)) ∧
  (∀ (s : State) (f : Pf) (p : Part) (off size : Nat), s.linkUp = true → s.admission f = .serve p →
    exec (.mordantDoorbellRead f off size) s = .next (match s.doorbellAt p off size with
      | none => s.unsupported f false
      | some m => if s.loaded p then s.enterMesh f false (s.doorbellWay p m true) false (.look off size) (fun u => u.complete f .done [(leBytes 8 (u.mor m).count.toNat, false)])
        else s.complete f .done [(leBytes 8 0, false)])) ∧
  (∀ (s : State) (p : Part) (o a z size : Nat), s.morRange p = some (a, z) → s.doorbellAt p (8 * o) 8 = (if o ≤ z - a then some (a + o) else none) ∧ (size ≠ 8 → s.doorbellAt p (8 * o) size = none)) ∧
  (∀ (s u : State) (f : Pf) (p : Part) (i : Fin 432) (t : W64) (m : W16) (c : Bool) (w : Watch), pfPart f = some p → s.fnOn f = true →
    w = { thr := t, mor := m, en := true, fired := (s.watch f i.val).fired && !c } → u = s.setWatch f i.val w →
    exec (.watchArm f i t m c) s = .next (if u.watchReached p w then u.fireWatch f i.val else u)) ∧
  (∀ (s : State) (f : Pf) (p : Part) (i : Fin 432), pfPart f = some p → (s.watch f i.val).en = true → s.watchReached p (s.watch f i.val) = true →
    exec (.watchFire f i) s = .next (s.fireWatch f i.val))

/-- The sideband, 1PPS and the test port. The model's: what OD 4004h records after a fall of TEST_EN is free (log entry 14). (R524, R530, R531) -/
def Obligations.SidebandPulsesAndTestPort : Prop :=
  (∀ (s : State), s.pwr.off = false → s.stewardUp = true →
    exec .smbusReadInsertionState s = .next (s.emit (.smbus (some (leBytes 1 (s.reg 0x4030 0))))) ∧
    exec .smbusReadPowerState s = .next (s.emit (.smbus (some (leBytes 1 (s.reg 0x4020 0))))) ∧
    exec .smbusReadStatus s = .next (s.emit (.smbus (some (leBytes 1 s.statusByte)))) ∧
    exec .smbusReadDieSensor s = .next (s.emit (.smbus (some (leBytes 2 (s.highest fun i => !isDram i))))) ∧
    exec .smbusReadDramSensor s = .next (s.emit (.smbus (some (leBytes 2 (s.highest isDram))))) ∧
    exec .smbusReadPackagePower s = .next (s.emit (.smbus (some (leBytes 2 (s.reg 0x4231 0))))) ∧
    exec .smbusReadDeviceId s = .next (s.emit (.smbus (some (leBytes 2 (s.reg 0x1020 0))))) ∧
    exec .smbusReadSerial s = .next (s.emit (.smbus (some (leBytes 8 (s.reg 0x1001 0)))))) ∧
  (∀ (s : State) (i : Instr), s.pwr.off = false → s.stewardUp = false → i ∈ [Instr.smbusReadInsertionState, .smbusReadPowerState, .smbusReadStatus, .smbusReadDieSensor,
    .smbusReadDramSensor, .smbusReadPackagePower, .smbusReadDeviceId, .smbusReadSerial] → exec i s = .next (s.emit (.smbus none))) ∧
  (∀ (s : State), s.pwr.off = false → exec .smbusWrite s = .next (s.emit (.smbus none)) ∧ exec .ppsInEdge s = .next (s.setReg 0x4410 0 s.time.toNat)) ∧
  (∀ (s : State), s.pwr.off = false → s.stewardUp = true → exec .alertResponseAddressRead s = .next (s.modPwr fun x => { x with alert := false })) ∧
  (∀ (s : State), s.pwr.off = false → s.reg 0x4411 0 = 1 → s.time.toNat % 1000000000 = 0 → s.pwr.pps ≠ some s.time →
    exec .ppsOutPulse s = .next (s.modPwr fun x => { x with pps := some s.time })) ∧
  (∀ (s : State), s.pwr.off = false → s.pwr.testEn = false → exec .testEnRise s = .next ((s.holdDie.showPower s.holdDie.powerState false).modPwr fun x => { x with testEn := true })) ∧
  (∀ (s : State), s.pwr.off = false → s.pwr.testEn = true → ∃ c t, exec .testEnFall s = .next t ∧
    t = State.coldStart { (s.modPwr fun x => { x with testEn := false }) with draws := s.draws + 1 } c false ∧ c < 256 ∧ t.pwr.testEn = false) ∧
  (∀ (s : State), s.pwr.off = false →
    exec .bypass s = .next ((s.modPwr fun x => { x with jtag := .bypass }).emit (.scan none)) ∧
    exec .idcode s = .next ((s.modPwr fun x => { x with jtag := .idcode }).emit (.scan (some (BitVec.ofNat 32 (s.reg 0x1202 0))))) ∧
    exec .samplePreload s = .next ((s.modPwr fun x => { x with jtag := .samplePreload }).emit (.scan none))) ∧
  (∀ (s : State), s.pwr.off = false → s.pwr.testEn = true →
    exec .extest s = .next ((s.modPwr fun x => { x with jtag := .extest }).emit (.scan none)) ∧
    exec .clamp s = .next ((s.modPwr fun x => { x with jtag := .clamp }).emit (.scan none)) ∧
    exec .highz s = .next ((s.modPwr fun x => { x with jtag := .highz }).emit (.scan none)) ∧
    (bit (s.reg 0x2200 0) 0 = true → exec .privateInstruction s = .next ((s.modPwr fun x => { x with jtag := .own }).emit (.scan none)))) ∧
  (∀ (s : State) (i : Instr), s.pwr.testEn = false → i ∈ [Instr.extest, .clamp, .highz, .privateInstruction] → exec i s = .next s)

/-- State.reset is the package right after a cold reset has begun: time 0, no job, memory zeroed without poison, every entry at its default, every port DOWN, the time source acquiring, the boot ROM running. That a unit comes from the factory with an empty log and no saved value is the model's choice (log entry 3). (R16, R90, R294, R358, R415, R449, R487, R498, R499) -/
def Obligations.ResetState : Prop :=
  State.reset.time = 0 ∧ State.reset.pending = [] ∧ State.reset.faults = [] ∧ State.reset.reg 0x1030 0 = 0 ∧ State.reset.reg 0x4402 0 = 1 ∧
  (∀ p, State.reset.loaded p = false ∧ State.reset.odValue 0x6000 (p.val + 1) = 0) ∧
  (∀ a, State.reset.byte a = 0 ∧ State.reset.sector a = 0) ∧ State.reset.stashPoison = [] ∧
  (∀ m, (State.reset.mor m).count = 0 ∧ (State.reset.mor m).failed = false) ∧
  (∀ idx sub, State.reset.reg idx sub = odDflt idx sub ∧ State.reset.dom idx sub = []) ∧
  (∀ q : PortId, State.reset.portState q = stDown) ∧
  State.reset.Canonical ∧ State.reset.logWf = true ∧ State.reset.savedOk

/-- The log holds the last 4,096 records, SEQ counts up by one a record, and at most 1,024 records wait while the steward restarts: every step keeps this. (R413, R415, R456) -/
def Obligations.LogStaysInOrder : Prop :=
  ∀ s t : State, s.logWf = true → step s = .next t → t.logWf = true

/-- Equal memories, mordants and registers are equal data: every step keeps the one form in which the model lists them. A write of zero leaves no entry. (R161, R167, R211, R213, R358, R359) -/
def Obligations.StateStaysCanonical : Prop :=
  ∀ s t : State, s.Canonical → step s = .next t → t.Canonical

/-- No writer can write an entry from OD 2000h to 2FFFh once the set-up is sealed; only a warm or cold reset reopens it. OD 2FFEh reports its state and is set by the device. (R451, R453, R454, R482) -/
def Obligations.SealedSetupStays : Prop :=
  ∀ (c : Instr) (s t : State), s.savedOk → s.reg 0x2FFF 0 = 1 → s.stw.fresh = false → exec c s = .next t →
    t.savedOk ∧ (t.stw.fresh = true ∨ SameSetup s t)

/-- Issue changes the station and, where it raises a fault, what a fault changes. Every other part of the machine is as before. (R206, R216, R217, R218, R219, R250, R253, R276) -/
def Obligations.IssueFrame : Prop :=
  ∀ (c : Instr) (s t : State), c.issues = true → exec c s = .next t → KeptAtIssue s t

/-- For every form that stores nothing, every address reads as before and no poison comes or goes. (R161, R166, R167, R170, R211, R213, R499) -/
def Obligations.MemoryFrame : Prop :=
  ∀ (c : Instr) (s t : State), c.mayStore = false → exec c s = .next t →
    (∀ a, t.byte a = s.byte a) ∧ (∀ a, t.sector a = s.sector a) ∧ t.stashPoison = s.stashPoison

/-- A write is served part by part (R163); the extent of a part is its address and its length. Outside it every byte reads as before, and beyond the sectors (towers) or words (stashes) it touches no poison changes; inside a plain write reads back. (R12, R161, R167, R170, R187, R213) -/
def Obligations.StoreFrame : Prop :=
  ∀ (s t : State) (k i : Nat) (e : MemEcc) (w : MemWrite) (x : Nat × Nat), s.writes[k]? = some w → w.parts[i]? = some x →
    (exec (.towerWrite k i e) s = .next t ∨ exec (.accumulatingWrite k i e) s = .next t ∨ exec (.stashWrite k i) s = .next t →
      (∀ a, a < x.1 ∨ x.1 + x.2 ≤ a → t.byte a = s.byte a) ∧
      (∀ a, a / 64 < x.1 / 64 ∨ x.1 + x.2 ≤ a / 64 * 64 → t.sector a = s.sector a) ∧
      (∀ a, a / 8 < x.1 / 8 ∨ x.1 + x.2 ≤ a / 8 * 8 → t.stashPoison.contains (a / 8) = s.stashPoison.contains (a / 8))) ∧
    (Memory.wf s.mem = true → s.writeHeld k w i x = false →
      (∀ h o, place x.1 = .tower h o → w.acc = false → s.maintenance = false → s.towerServes h x.1 = true → s.secured x.1 x.2 = false →
        ∃ t, exec (.towerWrite k i e) s = .next t ∧ ∀ j b, (w.bytes x)[j]? = some b → t.byte (x.1 + j) = b.b) ∧
      (∀ v o, place x.1 = .stash v o →
        ∃ t, exec (.stashWrite k i) s = .next t ∧ ∀ j b, (w.bytes x)[j]? = some b → t.byte (x.1 + j) = b.b))

/-- When CTL.END fires at a station of a running job that no fault of the beat ends, with no vat or tile open, every other station of the job done and the steward up, OD 6000h becomes 05h and OD 6004h the time. The first fault of a beat, of any class but 0Dh, for a job that is loading, restoring or running is kept as the beat's record; at the end of the beat the job ends: OD 6000h becomes 06h, and OD 6005h holds the SEQ of that record, which is the newest of the log with the steward up. (R484) -/
def Obligations.JobEnds : Prop :=
  (∀ (s : State) (st : St) (p : Part) (pc : Nat), (s.stn st).sq.endPending = some pc → s.jobAt st = some p → s.idleForEnd st = true →
    (s.stn st).vats.toList.any Option.isSome = false → (s.stn st).tiles.toList.any Option.isSome = false → s.stewardUp = true → s.struck p = false →
    (∀ a ∈ (s.prt p).pos, a ≠ st → (s.stn a).sq.done = true) →
    ∃ t, exec (.ctlEndFire st) s = .next t ∧ t.odValue 0x6000 (p.val + 1) = 5 ∧ t.odValue 0x6004 (p.val + 1) = s.time.toNat ∧
      t.faults = s.faults ∧ t.mem = s.mem ∧ t.mordants = s.mordants ∧ (∀ q, q ≠ p → t.prt q = s.prt q) ∧ ∀ a, a ≠ st → t.stn a = s.stn a) ∧
  (∀ (s t u : State) (p : Part) (cls detail : Nat) (x : Site), jobLive (s.prt p) = true → cls ≠ 0x0D → s.beat = [] → t = s.raise (some p) cls detail x → u = t.beatEnd →
    t.beat = [s.faultRec (some p) cls detail x] ∧ t.odValue 0x6000 (p.val + 1) = s.odValue 0x6000 (p.val + 1) ∧ u.beat = [] ∧
    u.odValue 0x6000 (p.val + 1) = 6 ∧ u.odValue 0x6005 (p.val + 1) = (if s.stewardUp then s.seqNext else s.seqNext + BitVec.ofNat 16 s.faultHold.length).toNat ∧
    (s.stewardUp = true → ∃ r, u.faults.getLast? = some r ∧ r.seq = s.seqNext ∧ r.cls = BitVec.ofNat 8 cls ∧ r.part = p ∧ r.nojob = false))

/-- The operation that reaches its mordant without poison, none before it from its station and no crossing in its way, for a loaded job: an add leaves counter + operand, or at a sum above FFFF_FFFF_FFFF_FFFFh that value with one more in OD 9081h; a set leaves its operand; no record is made and no other mordant changes. A MOR.WAIT on a mordant that has not failed leaves its queue exactly when the counter is, as an unsigned number, at or above its threshold, and a gate on such a mordant is met exactly then. (R359) -/
def Obligations.MordantArithmetic : Prop :=
  (∀ (s : State) (k : Nat) (m : MorOp), s.morOps[k]? = some m → m.poison = false → s.loaded m.part = true → s.stuckMor m = none →
    (∀ o ∈ s.morOps.take k, ¬(o.mor = m.mor ∧ o.st = m.st)) → swf mordant0 s.mordants = true →
    ∃ t, exec (.mordantOperationArrival k) s = .next t ∧ t.faults = s.faults ∧ t.morOps = s.morOps.eraseIdx k ∧
      (∀ n, n ≠ m.mor.toNat → t.mor n = s.mor n) ∧ (t.mor m.mor.toNat).failed = (s.mor m.mor.toNat).failed ∧
      (m.set = true → (t.mor m.mor.toNat).count = m.value ∧ t.dict = s.dict) ∧
      (m.set = false → (s.mor m.mor.toNat).count.toNat + m.value.toNat < 2 ^ 64 →
        (t.mor m.mor.toNat).count.toNat = (s.mor m.mor.toNat).count.toNat + m.value.toNat ∧ t.dict = s.dict) ∧
      (m.set = false → 2 ^ 64 ≤ (s.mor m.mor.toNat).count.toNat + m.value.toNat →
        (t.mor m.mor.toNat).count.toNat = 0xFFFFFFFFFFFFFFFF ∧
        t.odValue 0x9081 (m.part.val + 1) = min (s.odValue 0x9081 (m.part.val + 1) + 1) 0xFFFFFFFF)) ∧
  (∀ (s : State) (st : St) (p : Part) (e : Entry) (l : List Entry), (s.stn st).queue .mor = e :: l → opc e.word = 0x80 → s.headOp st .mor 0x80 = some e →
    s.jobAt st = some p → (s.mor (morNo e.word)).failed = false →
    exec (.morWaitFire st) s = .next (if (kr e.k (morKv e.word)).toNat ≤ (s.mor (morNo e.word)).count.toNat then s.modSt st (·.pop .mor) else s)) ∧
  (∀ (s : State) (e : Entry), calGate e.word = true → (s.mor (calGMor e.word)).failed = false →
    (gateMet s e = true ↔ (kr e.k (calGK e.word)).toNat ≤ (s.mor (calGMor e.word)).count.toNat))

/-- An ARR.LOAD at the head of its queue with NOTAG = 0, the load path and the shadow registers free, no swap or slice under way, no CHK.KAT before it and its vat's head slot Full with a header: when the header's TAG is k[KT][31:0], the load of the block begins with the bytes of its slot, nothing outside the station changes, and the active weights stay; when it is not, fault 01h is recorded at the station with the vat and the pc of that ARR.LOAD, and no weight is loaded: no load is under way, the shadow registers stay empty and the active weights stay. (R70) -/
def Obligations.CopyVersionTag : Prop :=
  ∀ (s : State) (st : St) (e : Entry) (y : Vat) (h : List PByte), s.headOp st .array 0x31 = some e → (s.stn st).vat (fin (fld e.word 12 8)) = some y →
    (s.stn st).arr.load = none → (s.stn st).arr.shadow = none → (s.stn st).arr.swapWait = false → (s.stn st).arr.slice = none → (∀ q ∈ (s.stn st).chkQ, e.seq ≤ q.seq) → headFull y = true →
    (s.stn st).vatFenced (fin (fld e.word 12 8) : VatNo).val e.seq = false → fbit e.word 44 = false → (y.slot y.head).header = some h →
    (headerTag h = (kr e.k (fld e.word 43 39)).toNat % 2 ^ 32 →
      ∃ t, exec (.arrLoadFire st) s = .next t ∧ t = { s with stations := t.stations } ∧ (∀ a, a ≠ st → t.stn a = s.stn a) ∧
        (t.stn st).arr.shadow = none ∧ (t.stn st).arr.active = (s.stn st).arr.active ∧
        ∃ l, (t.stn st).arr.load = some l ∧ l.w.data = (s.stn st).slotRead y y.head 0 (blockBytes (loadFmt e.word) (loadK e.word) (loadN e.word))) ∧
    (headerTag h ≠ (kr e.k (fld e.word 43 39)).toNat % 2 ^ 32 →
      ∃ t, exec (.arrLoadFire st) s = .next t ∧
        Records s t (s.ownerOf st) 1 0x0101 (siteStation st (fin (fld e.word 12 8) : VatNo).val e.pc) ∧
        (t.stn st).arr.load = none ∧ (t.stn st).arr.shadow = none ∧ (t.stn st).arr.active = (s.stn st).arr.active)
end

