-- ==== Sys2Proof/Laws/Dispatch.lean ====
section
/-!
SUPPORT. One equation per command: `exec` calls its meaning.
-/
namespace Sys2Proof.Machine

theorem exec_ctlNop (st : St) (bad : SramWord) (s : State) : exec (.ctlNop st bad) s = execCtlNop st bad s := rfl
theorem exec_ctlLi (st : St) (s : State) : exec (.ctlLi st) s = execCtlLi st s := rfl
theorem exec_ctlAdd (st : St) (s : State) : exec (.ctlAdd st) s = execCtlAdd st s := rfl
theorem exec_ctlBr (st : St) (s : State) : exec (.ctlBr st) s = execCtlBr st s := rfl
theorem exec_ctlBase (st : St) (s : State) : exec (.ctlBase st) s = execCtlBase st s := rfl
theorem exec_ctlEnd (st : St) (s : State) : exec (.ctlEnd st) s = execCtlEnd st s := rfl
theorem exec_ctlEndFire (st : St) (s : State) : exec (.ctlEndFire st) s = execCtlEndFire st s := rfl
theorem exec_unlistedOpcode (st : St) (s : State) : exec (.unlistedOpcode st) s = execUnlistedOpcode st s := rfl
theorem exec_vatOpen (st : St) (s : State) : exec (.vatOpen st) s = execVatOpen st s := rfl
theorem exec_vatOpenFire (st : St) (v : VatNo) (s : State) : exec (.vatOpenFire st v) s = execVatOpenFire st v s := rfl
theorem exec_vatFetch (st : St) (s : State) : exec (.vatFetch st) s = execVatFetch st s := rfl
theorem exec_vatFetchFire (st : St) (v : VatNo) (s : State) : exec (.vatFetchFire st v) s = execVatFetchFire st v s := rfl
theorem exec_vatSlotFull (st : St) (v : VatNo) (slot : Nat) (s : State) : exec (.vatSlotFull st v slot) s = execVatSlotFull st v slot s := rfl
theorem exec_vatPut (st : St) (s : State) : exec (.vatPut st) s = execVatPut st s := rfl
theorem exec_vatPutFire (st : St) (v : VatNo) (s : State) : exec (.vatPutFire st v) s = execVatPutFire st v s := rfl
theorem exec_putWriteComplete (k : Nat) (s : State) : exec (.putWriteComplete k) s = execPutWriteComplete k s := rfl
theorem exec_slotRelease (st : St) (v : VatNo) (slot : Nat) (s : State) : exec (.slotRelease st v slot) s = execSlotRelease st v slot s := rfl
theorem exec_vatCancel (st : St) (s : State) : exec (.vatCancel st) s = execVatCancel st s := rfl
theorem exec_vatCancelFire (st : St) (v : VatNo) (s : State) : exec (.vatCancelFire st v) s = execVatCancelFire st v s := rfl
theorem exec_droppedFetchEnd (st : St) (v : VatNo) (slot : Nat) (s : State) : exec (.droppedFetchEnd st v slot) s = execDroppedFetchEnd st v slot s := rfl
theorem exec_vatClose (st : St) (s : State) : exec (.vatClose st) s = execVatClose st s := rfl
theorem exec_vatCloseFire (st : St) (v : VatNo) (s : State) : exec (.vatCloseFire st v) s = execVatCloseFire st v s := rfl
theorem exec_ringFeed (st : St) (s : State) : exec (.ringFeed st) s = execRingFeed st s := rfl
theorem exec_ringFeedFire (st : St) (l : Lane) (s : State) : exec (.ringFeedFire st l) s = execRingFeedFire st l s := rfl
theorem exec_ringTake (st : St) (s : State) : exec (.ringTake st) s = execRingTake st s := rfl
theorem exec_ringTakeFire (st : St) (l : Lane) (s : State) : exec (.ringTakeFire st l) s = execRingTakeFire st l s := rfl
theorem exec_ringAdd (st : St) (s : State) : exec (.ringAdd st) s = execRingAdd st s := rfl
theorem exec_ringAddFire (st : St) (l : Lane) (s : State) : exec (.ringAddFire st l) s = execRingAddFire st l s := rfl
theorem exec_ringFlitArrival (st : St) (l : Lane) (e : FlitEcc) (s : State) : exec (.ringFlitArrival st l e) s = execRingFlitArrival st l e s := rfl
theorem exec_ringCreditReturn (st : St) (l : Lane) (s : State) : exec (.ringCreditReturn st l) s = execRingCreditReturn st l s := rfl
theorem exec_ringHeadStall (st : St) (l : Lane) (s : State) : exec (.ringHeadStall st l) s = execRingHeadStall st l s := rfl
theorem exec_arrShape (st : St) (s : State) : exec (.arrShape st) s = execArrShape st s := rfl
theorem exec_arrShapeFire (st : St) (s : State) : exec (.arrShapeFire st) s = execArrShapeFire st s := rfl
theorem exec_arrLoad (st : St) (s : State) : exec (.arrLoad st) s = execArrLoad st s := rfl
theorem exec_arrLoadFire (st : St) (s : State) : exec (.arrLoadFire st) s = execArrLoadFire st s := rfl
theorem exec_arrLoadComplete (st : St) (s : State) : exec (.arrLoadComplete st) s = execArrLoadComplete st s := rfl
theorem exec_arrMma (st : St) (s : State) : exec (.arrMma st) s = execArrMma st s := rfl
theorem exec_arrMmaFire (st : St) (s : State) : exec (.arrMmaFire st) s = execArrMmaFire st s := rfl
theorem exec_shadowRegistersFree (st : St) (s : State) : exec (.shadowRegistersFree st) s = execShadowRegistersFree st s := rfl
theorem exec_productRowLeavesTree (st : St) (err : Option ArrayError) (s : State) : exec (.productRowLeavesTree st err) s = execProductRowLeavesTree st err s := rfl
theorem exec_witnessVerdict (st : St) (s : State) : exec (.witnessVerdict st) s = execWitnessVerdict st s := rfl
theorem exec_kPassEnd (st : St) (s : State) : exec (.kPassEnd st) s = execKPassEnd st s := rfl
theorem exec_mergeComplete (st : St) (tile : Fin 64) (s : State) : exec (.mergeComplete st tile) s = execMergeComplete st tile s := rfl
theorem exec_accOpen (st : St) (s : State) : exec (.accOpen st) s = execAccOpen st s := rfl
theorem exec_accOpenFire (st : St) (s : State) : exec (.accOpenFire st) s = execAccOpenFire st s := rfl
theorem exec_accDrain (st : St) (s : State) : exec (.accDrain st) s = execAccDrain st s := rfl
theorem exec_accDrainFire (st : St) (s : State) : exec (.accDrainFire st) s = execAccDrainFire st s := rfl
theorem exec_drainComplete (st : St) (s : State) : exec (.drainComplete st) s = execDrainComplete st s := rfl
theorem exec_vecSplit (st : St) (s : State) : exec (.vecSplit st) s = execVecSplit st s := rfl
theorem exec_vecSplitFire (st : St) (s : State) : exec (.vecSplitFire st) s = execVecSplitFire st s := rfl
theorem exec_vecPro (st : St) (s : State) : exec (.vecPro st) s = execVecPro st s := rfl
theorem exec_vecProFire (st : St) (s : State) : exec (.vecProFire st) s = execVecProFire st s := rfl
theorem exec_vecEpi (st : St) (s : State) : exec (.vecEpi st) s = execVecEpi st s := rfl
theorem exec_vecEpiFire (st : St) (s : State) : exec (.vecEpiFire st) s = execVecEpiFire st s := rfl
theorem exec_vecOp (st : St) (s : State) : exec (.vecOp st) s = execVecOp st s := rfl
theorem exec_vecOpFire (st : St) (s : State) : exec (.vecOpFire st) s = execVecOpFire st s := rfl
theorem exec_vecNcomb (st : St) (s : State) : exec (.vecNcomb st) s = execVecNcomb st s := rfl
theorem exec_vecNcombFire (st : St) (s : State) : exec (.vecNcombFire st) s = execVecNcombFire st s := rfl
theorem exec_vecSminit (st : St) (s : State) : exec (.vecSminit st) s = execVecSminit st s := rfl
theorem exec_vecSminitFire (st : St) (s : State) : exec (.vecSminitFire st) s = execVecSminitFire st s := rfl
theorem exec_vecRopeLoad (st : St) (s : State) : exec (.vecRopeLoad st) s = execVecRopeLoad st s := rfl
theorem exec_vecRopeLoadFire (st : St) (s : State) : exec (.vecRopeLoadFire st) s = execVecRopeLoadFire st s := rfl
theorem exec_engRoute (st : St) (s : State) : exec (.engRoute st) s = execEngRoute st s := rfl
theorem exec_engRouteFire (st : St) (s : State) : exec (.engRouteFire st) s = execEngRouteFire st s := rfl
theorem exec_engXpose (st : St) (s : State) : exec (.engXpose st) s = execEngXpose st s := rfl
theorem exec_engXposeFire (st : St) (s : State) : exec (.engXposeFire st) s = execEngXposeFire st s := rfl
theorem exec_engMadder (st : St) (s : State) : exec (.engMadder st) s = execEngMadder st s := rfl
theorem exec_engMadderFire (st : St) (s : State) : exec (.engMadderFire st) s = execEngMadderFire st s := rfl
theorem exec_netSend (st : St) (s : State) : exec (.netSend st) s = execNetSend st s := rfl
theorem exec_netSendFire (st : St) (s : State) : exec (.netSendFire st) s = execNetSendFire st s := rfl
theorem exec_morWait (st : St) (s : State) : exec (.morWait st) s = execMorWait st s := rfl
theorem exec_morWaitFire (st : St) (s : State) : exec (.morWaitFire st) s = execMorWaitFire st s := rfl
theorem exec_morAdd (st : St) (s : State) : exec (.morAdd st) s = execMorAdd st s := rfl
theorem exec_morAddFire (st : St) (s : State) : exec (.morAddFire st) s = execMorAddFire st s := rfl
theorem exec_morSet (st : St) (s : State) : exec (.morSet st) s = execMorSet st s := rfl
theorem exec_morSetFire (st : St) (s : State) : exec (.morSetFire st) s = execMorSetFire st s := rfl
theorem exec_morRead (st : St) (s : State) : exec (.morRead st) s = execMorRead st s := rfl
theorem exec_morReadFire (st : St) (s : State) : exec (.morReadFire st) s = execMorReadFire st s := rfl
theorem exec_mordantOperationArrival (k : Nat) (s : State) : exec (.mordantOperationArrival k) s = execMordantOperationArrival k s := rfl
theorem exec_mordantTimeout (st : St) (u : UnitQ) (s : State) : exec (.mordantTimeout st u) s = execMordantTimeout st u s := rfl
theorem exec_chkKat (st : St) (s : State) : exec (.chkKat st) s = execChkKat st s := rfl
theorem exec_chkKatFire (st : St) (s : State) : exec (.chkKatFire st) s = execChkKatFire st s := rfl
theorem exec_testSliceEnd (st : St) (b : SliceBits) (s : State) : exec (.testSliceEnd st b) s = execTestSliceEnd st b s := rfl
theorem exec_directTestSlice (st : St) (s : State) : exec (.directTestSlice st) s = execDirectTestSlice st s := rfl
theorem exec_katQueueFill (st : St) (count : Nat) (s : State) : exec (.katQueueFill st count) s = execKatQueueFill st count s := rfl
theorem exec_idleStationRotation (st : St) (fail : Option (Nat × SliceBits)) (s : State) : exec (.idleStationRotation st fail) s = execIdleStationRotation st fail s := rfl
theorem exec_routeDescriptorArrival (g : Eng) (s : State) : exec (.routeDescriptorArrival g) s = execRouteDescriptorArrival g s := rfl
theorem exec_routeGather (g : Eng) (p : Part) (e : MemEcc) (s : State) : exec (.routeGather g p e) s = execRouteGather g p e s := rfl
theorem exec_routeCombine (g : Eng) (p : Part) (e : MemEcc) (s : State) : exec (.routeCombine g p e) s = execRouteCombine g p e s := rfl
theorem exec_routeDescriptorComplete (g : Eng) (p : Part) (s : State) : exec (.routeDescriptorComplete g p) s = execRouteDescriptorComplete g p s := rfl
theorem exec_transposeDescriptorArrival (t : Twr) (s : State) : exec (.transposeDescriptorArrival t) s = execTransposeDescriptorArrival t s := rfl
theorem exec_transposeRun (t : Twr) (p : Part) (e : MemEcc) (s : State) : exec (.transposeRun t p e) s = execTransposeRun t p e s := rfl
theorem exec_transposeComplete (t : Twr) (p : Part) (s : State) : exec (.transposeComplete t p) s = execTransposeComplete t p s := rfl
theorem exec_madderDescriptorArrival (t : Twr) (s : State) : exec (.madderDescriptorArrival t) s = execMadderDescriptorArrival t s := rfl
theorem exec_madderAdaptiveUpdate (t : Twr) (p : Part) (e : MemEcc) (s : State) : exec (.madderAdaptiveUpdate t p e) s = execMadderAdaptiveUpdate t p e s := rfl
theorem exec_madderMomentumUpdate (t : Twr) (p : Part) (e : MemEcc) (s : State) : exec (.madderMomentumUpdate t p e) s = execMadderMomentumUpdate t p e s := rfl
theorem exec_madderComplete (t : Twr) (p : Part) (s : State) : exec (.madderComplete t p) s = execMadderComplete t p s := rfl
theorem exec_towerRead (k : Nat) (i0 : Nat) (e : MemEcc) (s : State) : exec (.towerRead k i0 e) s = execTowerRead k i0 e s := rfl
theorem exec_towerWrite (k : Nat) (i0 : Nat) (e : MemEcc) (s : State) : exec (.towerWrite k i0 e) s = execTowerWrite k i0 e s := rfl
theorem exec_accumulatingWrite (k : Nat) (i0 : Nat) (e : MemEcc) (s : State) : exec (.accumulatingWrite k i0 e) s = execAccumulatingWrite k i0 e s := rfl
theorem exec_maintenanceWindow (t : Twr) (c : Fin 16) (e : MemEcc) (s : State) : exec (.maintenanceWindow t c e) s = execMaintenanceWindow t c e s := rfl
theorem exec_bankCopyComplete (t : Twr) (c : Fin 16) (s : State) : exec (.bankCopyComplete t c) s = execBankCopyComplete t c s := rfl
theorem exec_towerLoss (t : Twr) (s : State) : exec (.towerLoss t) s = execTowerLoss t s := rfl
theorem exec_retiredTowerAccess (a : TowerAccess) (s : State) : exec (.retiredTowerAccess a) s = execRetiredTowerAccess a s := rfl
theorem exec_stashRead (k : Nat) (i0 : Nat) (e : MemEcc) (s : State) : exec (.stashRead k i0 e) s = execStashRead k i0 e s := rfl
theorem exec_stashWrite (k : Nat) (i0 : Nat) (s : State) : exec (.stashWrite k i0) s = execStashWrite k i0 s := rfl
theorem exec_securedBlockWrite (t : Twr) (p : Part) (e : MemEcc) (s : State) : exec (.securedBlockWrite t p e) s = execSecuredBlockWrite t p e s := rfl
theorem exec_drainRead (t : Twr) (p : Part) (blk : Nat) (e : MemEcc) (s : State) : exec (.drainRead t p blk e) s = execDrainRead t p blk e s := rfl
theorem exec_blockDrainComplete (t : Twr) (p : Part) (blk : Nat) (s : State) : exec (.blockDrainComplete t p blk) s = execBlockDrainComplete t p blk s := rfl
theorem exec_copyBackGranule (t : Twr) (p : Part) (blk : Nat) (g : Fin 16) (e : MemEcc) (s : State) : exec (.copyBackGranule t p blk g e) s = execCopyBackGranule t p blk g e s := rfl
theorem exec_flitArrivalAtRouter (node : Fin 192) (inp : Dir) (f : MeshFlit) (s : State) : exec (.flitArrivalAtRouter node inp f) s = execFlitArrivalAtRouter node inp f s := rfl
theorem exec_frameMark (s : State) : exec (.frameMark) s = execFrameMark s := rfl
theorem exec_transferStart (st : St) (u : UnitQ) (s : State) : exec (.transferStart st u) s = execTransferStart st u s := rfl
theorem exec_windowMark (s : State) : exec (.windowMark) s = execWindowMark s := rfl
theorem exec_sightGapDeferredCheck (port : PortId) (s : State) : exec (.sightGapDeferredCheck port) s = execSightGapDeferredCheck port s := rfl
theorem exec_holdStallLimit (p : Part) (s : State) : exec (.holdStallLimit p) s = execHoldStallLimit p s := rfl
theorem exec_testShareSpanEnd (p : Part) (s : State) : exec (.testShareSpanEnd p) s = execTestShareSpanEnd p s := rfl
theorem exec_stationClockSettingWrite (via : Via) (p : Part) (mhz : W16) (s : State) : exec (.stationClockSettingWrite via p mhz) s = execStationClockSettingWrite via p mhz s := rfl
theorem exec_clockSettingChange (p : Part) (s : State) : exec (.clockSettingChange p) s = execClockSettingChange p s := rfl
theorem exec_replicaTrigger (i0 : Island) (s : State) : exec (.replicaTrigger i0) s = execReplicaTrigger i0 s := rfl
theorem exec_hangDetected (x : Crossing) (s : State) : exec (.hangDetected x) s = execHangDetected x s := rfl
theorem exec_crossingRecalibrated (x : Crossing) (pass : Bool) (s : State) : exec (.crossingRecalibrated x pass) s = execCrossingRecalibrated x pass s := rfl
theorem exec_timeSet (via : Via) (value : W64) (s : State) : exec (.timeSet via value) s = execTimeSet via value s := rfl
theorem exec_timeSetApplied (s : State) : exec (.timeSetApplied) s = execTimeSetApplied s := rfl
theorem exec_referenceLoss (s : State) : exec (.referenceLoss) s = execReferenceLoss s := rfl
theorem exec_referenceLock (s : State) : exec (.referenceLock) s = execReferenceLock s := rfl
theorem exec_holdoverCrossCheck (ok : Bool) (s : State) : exec (.holdoverCrossCheck ok) s = execHoldoverCrossCheck ok s := rfl
theorem exec_blockSlot (port : PortId) (slot : Fin 752) (e : BufferEcc) (s : State) : exec (.blockSlot port slot e) s = execBlockSlot port slot e s := rfl
theorem exec_blockArrival (port : PortId) (b : BitVec 2048) (s : State) : exec (.blockArrival port b) s = execBlockArrival port b s := rfl
theorem exec_portAcceptsBlock (port : PortId) (e : MemEcc) (s : State) : exec (.portAcceptsBlock port e) s = execPortAcceptsBlock port e s := rfl
theorem exec_ackTimeout (port : PortId) (s : State) : exec (.ackTimeout port) s = execAckTimeout port s := rfl
theorem exec_receiveSilence (port : PortId) (s : State) : exec (.receiveSilence port) s = execReceiveSilence port s := rfl
theorem exec_holdSightGap (port : PortId) (s : State) : exec (.holdSightGap port) s = execHoldSightGap port s := rfl
theorem exec_lossOfSignal (port : PortId) (lane : LaneLoss) (s : State) : exec (.lossOfSignal port lane) s = execLossOfSignal port lane s := rfl
theorem exec_lossPersists (port : PortId) (s : State) : exec (.lossPersists port) s = execLossPersists port s := rfl
theorem exec_laneDegradeWindow (port : PortId) (lane : Fin 16) (w : LaneWindow) (s : State) : exec (.laneDegradeWindow port lane w) s = execLaneDegradeWindow port lane w s := rfl
theorem exec_spareLockLoss (port : PortId) (s : State) : exec (.spareLockLoss port) s = execSpareLockLoss port s := rfl
theorem exec_spareCodewordDecode (port : PortId) (lane : Fin 16) (s : State) : exec (.spareCodewordDecode port lane) s = execSpareCodewordDecode port lane s := rfl
theorem exec_trainingSetsDetected (port : PortId) (sets : List (Fin 17 × BitVec 256)) (s : State) : exec (.trainingSetsDetected port sets) s = execTrainingSetsDetected port sets s := rfl
theorem exec_equaliseComplete (port : PortId) (rxOut : Option (Fin 17)) (txOut : Option (Fin 17)) (s : State) : exec (.equaliseComplete port rxOut txOut) s = execEqualiseComplete port rxOut txOut s := rfl
theorem exec_equaliseTimeout (port : PortId) (s : State) : exec (.equaliseTimeout port) s = execEqualiseTimeout port s := rfl
theorem exec_alignComplete (port : PortId) (s : State) : exec (.alignComplete port) s = execAlignComplete port s := rfl
theorem exec_alignTimeout (port : PortId) (s : State) : exec (.alignTimeout port) s = execAlignTimeout port s := rfl
theorem exec_authTimeout (port : PortId) (s : State) : exec (.authTimeout port) s = execAuthTimeout port s := rfl
theorem exec_trainingRetry (port : PortId) (rxFail : Nat) (txFail : Nat) (s : State) : exec (.trainingRetry port rxFail txFail) s = execTrainingRetry port rxFail txFail s := rfl
theorem exec_linkControlRepeat (port : PortId) (s : State) : exec (.linkControlRepeat port) s = execLinkControlRepeat port s := rfl
theorem exec_linkControlAck (port : PortId) (amid : Byte) (s : State) : exec (.linkControlAck port amid) s = execLinkControlAck port amid s := rfl
theorem exec_hello (port : PortId) (ids : MsgIds) (h : HelloBody) (s : State) : exec (.hello port ids h) s = execHello port ids h s := rfl
theorem exec_chain (port : PortId) (ids : MsgIds) (ok : Bool) (s : State) : exec (.chain port ids ok) s = execChain port ids ok s := rfl
theorem exec_proof (port : PortId) (ids : MsgIds) (ok : Bool) (s : State) : exec (.proof port ids ok) s = execProof port ids ok s := rfl
theorem exec_verdict (port : PortId) (ids : MsgIds) (code : Byte) (s : State) : exec (.verdict port ids code) s = execVerdict port ids code s := rfl
theorem exec_swap (port : PortId) (ids : MsgIds) (lane : Fin 16) (s : State) : exec (.swap port ids lane) s = execSwap port ids lane s := rfl
theorem exec_swapDone (port : PortId) (ids : MsgIds) (lane : Fin 16) (s : State) : exec (.swapDone port ids lane) s = execSwapDone port ids lane s := rfl
theorem exec_spareBad (port : PortId) (ids : MsgIds) (s : State) : exec (.spareBad port ids) s = execSpareBad port ids s := rfl
theorem exec_retrain (port : PortId) (ids : MsgIds) (s : State) : exec (.retrain port ids) s = execRetrain port ids s := rfl
theorem exec_goodbye (port : PortId) (ids : MsgIds) (s : State) : exec (.goodbye port ids) s = execGoodbye port ids s := rfl
theorem exec_portCommandRetrain (via : Via) (port : PortId) (s : State) : exec (.portCommandRetrain via port) s = execPortCommandRetrain via port s := rfl
theorem exec_portCommandOrderlyDown (via : Via) (port : PortId) (s : State) : exec (.portCommandOrderlyDown via port) s = execPortCommandOrderlyDown via port s := rfl
theorem exec_portCommandReleaseHeld (via : Via) (port : PortId) (s : State) : exec (.portCommandReleaseHeld via port) s = execPortCommandReleaseHeld via port s := rfl
theorem exec_portEnableWrite (via : Via) (port : PortId) (v : Byte) (s : State) : exec (.portEnableWrite via port v) s = execPortEnableWrite via port v s := rfl
theorem exec_timeSync (port : PortId) (s : State) : exec (.timeSync port) s = execTimeSync port s := rfl
theorem exec_timeReply (port : PortId) (s : State) : exec (.timeReply port) s = execTimeReply port s := rfl
theorem exec_write (port : PortId) (e : MemEcc) (s : State) : exec (.write port e) s = execWrite port e s := rfl
theorem exec_readRequest (port : PortId) (e : MemEcc) (s : State) : exec (.readRequest port e) s = execReadRequest port e s := rfl
theorem exec_readResponse (port : PortId) (s : State) : exec (.readResponse port) s = execReadResponse port s := rfl
theorem exec_mordantAdd (port : PortId) (s : State) : exec (.mordantAdd port) s = execMordantAdd port s := rfl
theorem exec_mordantSet (port : PortId) (s : State) : exec (.mordantSet port) s = execMordantSet port s := rfl
theorem exec_reduce (src : ReduceSrc) (e : MemEcc) (s : State) : exec (.reduce src e) s = execReduce src e s := rfl
theorem exec_multicastWrite (port : PortId) (e : MemEcc) (s : State) : exec (.multicastWrite port e) s = execMulticastWrite port e s := rfl
theorem exec_fence (port : PortId) (s : State) : exec (.fence port) s = execFence port s := rfl
theorem exec_openWrite (port : PortId) (e : MemEcc) (s : State) : exec (.openWrite port e) s = execOpenWrite port e s := rfl
theorem exec_openReadRequest (port : PortId) (e : MemEcc) (s : State) : exec (.openReadRequest port e) s = execOpenReadRequest port e s := rfl
theorem exec_openReadResponse (port : PortId) (s : State) : exec (.openReadResponse port) s = execOpenReadResponse port s := rfl
theorem exec_openMordantAdd (port : PortId) (s : State) : exec (.openMordantAdd port) s = execOpenMordantAdd port s := rfl
theorem exec_openMordantSet (port : PortId) (s : State) : exec (.openMordantSet port) s = execOpenMordantSet port s := rfl
theorem exec_credit (port : PortId) (s : State) : exec (.credit port) s = execCredit port s := rfl
theorem exec_managementTunnel (port : PortId) (answers : Option W16) (s : State) : exec (.managementTunnel port answers) s = execManagementTunnel port answers s := rfl
theorem exec_scheduledBlockTransit (port : PortId) (s : State) : exec (.scheduledBlockTransit port) s = execScheduledBlockTransit port s := rfl
theorem exec_openBlockForward (port : PortId) (s : State) : exec (.openBlockForward port) s = execOpenBlockForward port s := rfl
theorem exec_commitRecordArrival (port : PortId) (p : Part) (step : W64) (s : State) : exec (.commitRecordArrival port p step) s = execCommitRecordArrival port p step s := rfl
theorem exec_partnerCompletion (p : Part) (s : State) : exec (.partnerCompletion p) s = execPartnerCompletion p s := rfl
theorem exec_commitTimeout (p : Part) (s : State) : exec (.commitTimeout p) s = execCommitTimeout p s := rfl
theorem exec_securingMordantChange (p : Part) (e : MemEcc) (s : State) : exec (.securingMordantChange p e) s = execSecuringMordantChange p e s := rfl
theorem exec_nandProgramComplete (p : Part) (ok : Bool) (s : State) : exec (.nandProgramComplete p ok) s = execNandProgramComplete p ok s := rfl
theorem exec_nandEraseComplete (p : Part) (ok : Bool) (s : State) : exec (.nandEraseComplete p ok) s = execNandEraseComplete p ok s := rfl
theorem exec_nandReadComplete (p : Part) (blk : Nat) (ok : Bool) (s : State) : exec (.nandReadComplete p blk ok) s = execNandReadComplete p blk ok s := rfl
theorem exec_sharedStoreCommit (via : Via) (p : Part) (step : W64) (s : State) : exec (.sharedStoreCommit via p step) s = execSharedStoreCommit via p step s := rfl
theorem exec_restoreArm (via : Via) (p : Part) (req : BitVec 256) (s : State) : exec (.restoreArm via p req) s = execRestoreArm via p req s := rfl
theorem exec_restoreBlockLands (p : Part) (blk : Nat) (data : List Byte) (s : State) : exec (.restoreBlockLands p blk data) s = execRestoreBlockLands p blk data s := rfl
theorem exec_restoreComplete (p : Part) (s : State) : exec (.restoreComplete p) s = execRestoreComplete p s := rfl
theorem exec_partnerTargetWrite (via : Via) (p : Part) (v : W64) (answer : Option (List (List W64))) (s : State) : exec (.partnerTargetWrite via p v answer) s = execPartnerTargetWrite via p v answer s := rfl
theorem exec_sequencerCompareMismatch (st : St) (s : State) : exec (.sequencerCompareMismatch st) s = execSequencerCompareMismatch st s := rfl
theorem exec_stewardLockstepMismatch (s : State) : exec (.stewardLockstepMismatch) s = execStewardLockstepMismatch s := rfl
theorem exec_observationExpiry (st : St) (s : State) : exec (.observationExpiry st) s = execObservationExpiry st s := rfl
theorem exec_riskEstimateUpdate (s : State) : exec (.riskEstimateUpdate) s = execRiskEstimateUpdate s := rfl
theorem exec_cleanHourTick (s : State) : exec (.cleanHourTick) s = execCleanHourTick s := rfl
theorem exec_logAcknowledge (via : Via) (seq : W16) (s : State) : exec (.logAcknowledge via seq) s = execLogAcknowledge via seq s := rfl
theorem exec_jobLoad (via : Via) (p : Part) (req : W128) (iso : List RestartFinding) (e : MemEcc) (s : State) : exec (.jobLoad via p req iso e) s = execJobLoad via p req iso e s := rfl
theorem exec_jobEnd (via : Via) (p : Part) (s : State) : exec (.jobEnd via p) s = execJobEnd via p s := rfl
theorem exec_jobUnload (via : Via) (p : Part) (s : State) : exec (.jobUnload via p) s = execJobUnload via p s := rfl
theorem exec_stewardRestart (via : Via) (s : State) : exec (.stewardRestart via) s = execStewardRestart via s := rfl
theorem exec_watchdogExpiry (s : State) : exec (.watchdogExpiry) s = execWatchdogExpiry s := rfl
theorem exec_runtimeReady (boot : BootResult) (s : State) : exec (.runtimeReady boot) s = execRuntimeReady boot s := rfl
theorem exec_runtimeStartTimeout (s : State) : exec (.runtimeStartTimeout) s = execRuntimeStartTimeout s := rfl
theorem exec_imageStagingWrite (via : Via) (kind : FwKind) (off : Nat) (data : List Byte) (commit : Bool) (s : State) : exec (.imageStagingWrite via kind off data commit) s = execImageStagingWrite via kind off data commit s := rfl
theorem exec_firmwareVerify (via : Via) (bootSig : Bool) (runSig : Bool) (s : State) : exec (.firmwareVerify via bootSig runSig) s = execFirmwareVerify via bootSig runSig s := rfl
theorem exec_firmwareActivate (via : Via) (s : State) : exec (.firmwareActivate via) s = execFirmwareActivate via s := rfl
theorem exec_raiseRollbackFloor (via : Via) (s : State) : exec (.raiseRollbackFloor via) s = execRaiseRollbackFloor via s := rfl
theorem exec_firmwareRevert (via : Via) (s : State) : exec (.firmwareRevert via) s = execFirmwareRevert via s := rfl
theorem exec_managementSessionHandshake (t : SessTransport) (c : ClientCert) (s : State) : exec (.managementSessionHandshake t c) s = execManagementSessionHandshake t c s := rfl
theorem exec_sessionIdleTimeout (n : Fin 8) (s : State) : exec (.sessionIdleTimeout n) s = execSessionIdleTimeout n s := rfl
theorem exec_dictionaryRead (via : Via) (r : DictReq) (s : State) : exec (.dictionaryRead via r) s = execDictionaryRead via r s := rfl
theorem exec_dictionaryWrite (via : Via) (r : DictReq) (data : List Byte) (s : State) : exec (.dictionaryWrite via r data) s = execDictionaryWrite via r data s := rfl
theorem exec_domainWriteSegment (via : Via) (r : DictReq) (data : List Byte) (s : State) : exec (.domainWriteSegment via r data) s = execDomainWriteSegment via r data s := rfl
theorem exec_domainWriteCommit (via : Via) (r : DictReq) (data : List Byte) (iso : List RestartFinding) (e : MemEcc) (s : State) : exec (.domainWriteCommit via r data iso e) s = execDomainWriteCommit via r data iso e s := rfl
theorem exec_getVersion (via : SpdmVia) (s : State) : exec (.getVersion via) s = execGetVersion via s := rfl
theorem exec_getCapabilities (via : SpdmVia) (s : State) : exec (.getCapabilities via) s = execGetCapabilities via s := rfl
theorem exec_negotiateAlgorithms (via : SpdmVia) (s : State) : exec (.negotiateAlgorithms via) s = execNegotiateAlgorithms via s := rfl
theorem exec_getDigests (via : SpdmVia) (s : State) : exec (.getDigests via) s = execGetDigests via s := rfl
theorem exec_getCertificate (via : SpdmVia) (slot : Byte) (off : Nat) (len : Nat) (s : State) : exec (.getCertificate via slot off len) s = execGetCertificate via slot off len s := rfl
theorem exec_challenge (via : SpdmVia) (nonce : BitVec 256) (s : State) : exec (.challenge via nonce) s = execChallenge via nonce s := rfl
theorem exec_getMeasurements (via : SpdmVia) (index : Byte) (signed : Bool) (nonce : BitVec 256) (s : State) : exec (.getMeasurements via index signed nonce) s = execGetMeasurements via index signed nonce s := rfl
theorem exec_keyExchange (via : SpdmVia) (s : State) : exec (.keyExchange via) s = execKeyExchange via s := rfl
theorem exec_finish (via : SpdmVia) (ok : Bool) (s : State) : exec (.finish via ok) s = execFinish via ok s := rfl
theorem exec_heartbeat (via : SpdmVia) (s : State) : exec (.heartbeat via) s = execHeartbeat via s := rfl
theorem exec_keyUpdate (via : SpdmVia) (s : State) : exec (.keyUpdate via) s = execKeyUpdate via s := rfl
theorem exec_endSession (via : SpdmVia) (s : State) : exec (.endSession via) s = execEndSession via s := rfl
theorem exec_mailboxDoorbell (pf : Pf) (req : List Byte) (w1c : Byte) (s : State) : exec (.mailboxDoorbell pf req w1c) s = execMailboxDoorbell pf req w1c s := rfl
theorem exec_tunnelReassemblyTimeout (src : W16) (msg : W16) (s : State) : exec (.tunnelReassemblyTimeout src msg) s = execTunnelReassemblyTimeout src msg s := rfl
theorem exec_tunnelResend (k : Nat) (s : State) : exec (.tunnelResend k) s = execTunnelResend k s := rfl
theorem exec_saveConfiguration (via : Via) (s : State) : exec (.saveConfiguration via) s = execSaveConfiguration via s := rfl
theorem exec_discardUnsaved (via : Via) (s : State) : exec (.discardUnsaved via) s = execDiscardUnsaved via s := rfl
theorem exec_restoreFactory (via : Via) (s : State) : exec (.restoreFactory via) s = execRestoreFactory via s := rfl
theorem exec_restoreFactoryRepairMaps (via : Via) (s : State) : exec (.restoreFactoryRepairMaps via) s = execRestoreFactoryRepairMaps via s := rfl
theorem exec_powerOn (s : State) : exec (.powerOn) s = execPowerOn s := rfl
theorem exec_coldResetInput (s : State) : exec (.coldResetInput) s = execColdResetInput s := rfl
theorem exec_coldReset (via : Via) (s : State) : exec (.coldReset via) s = execColdReset via s := rfl
theorem exec_warmReset (via : Via) (s : State) : exec (.warmReset via) s = execWarmReset via s := rfl
theorem exec_seamReset (via : Via) (s : State) : exec (.seamReset via) s = execSeamReset via s := rfl
theorem exec_partitionReset (via : Via) (p : Part) (s : State) : exec (.partitionReset via p) s = execPartitionReset via p s := rfl
theorem exec_jobReset (via : Via) (p : Part) (s : State) : exec (.jobReset via p) s = execJobReset via p s := rfl
theorem exec_portReset (via : Via) (port : PortId) (s : State) : exec (.portReset via port) s = execPortReset via port s := rfl
theorem exec_powerRequestHalfPark (via : Via) (h : Half) (force : Bool) (s : State) : exec (.powerRequestHalfPark via h force) s = execPowerRequestHalfPark via h force s := rfl
theorem exec_parkTowersIdle (s : State) : exec (.parkTowersIdle) s = execParkTowersIdle s := rfl
theorem exec_parkTowerTimeout (s : State) : exec (.parkTowerTimeout) s = execParkTowerTimeout s := rfl
theorem exec_seamDrained (s : State) : exec (.seamDrained) s = execSeamDrained s := rfl
theorem exec_seamDrainTimeout (s : State) : exec (.seamDrainTimeout) s = execSeamDrainTimeout s := rfl
theorem exec_powerRequestRun (via : Via) (force : Bool) (s : State) : exec (.powerRequestRun via force) s = execPowerRequestRun via force s := rfl
theorem exec_powerRequestDeepPark (via : Via) (force : Bool) (s : State) : exec (.powerRequestDeepPark via force) s = execPowerRequestDeepPark via force s := rfl
theorem exec_powerRequestStewardOnly (via : Via) (force : Bool) (s : State) : exec (.powerRequestStewardOnly via force) s = execPowerRequestStewardOnly via force s := rfl
theorem exec_pgAssert (r : Rail) (s : State) : exec (.pgAssert r) s = execPgAssert r s := rfl
theorem exec_pgTimeout (r : Rail) (s : State) : exec (.pgTimeout r) s = execPgTimeout r s := rfl
theorem exec_railDecayed (r : Rail) (s : State) : exec (.railDecayed r) s = execRailDecayed r s := rfl
theorem exec_fabricAdmission (via : Via) (v : Byte) (s : State) : exec (.fabricAdmission via v) s = execFabricAdmission via v s := rfl
theorem exec_orderlyRemoval (via : Via) (force : Bool) (s : State) : exec (.orderlyRemoval via force) s = execOrderlyRemoval via force s := rfl
theorem exec_removalDrainComplete (s : State) : exec (.removalDrainComplete) s = execRemovalDrainComplete s := rfl
theorem exec_removalNotice (dev : W16) (s : State) : exec (.removalNotice dev) s = execRemovalNotice dev s := rfl
theorem exec_bar2MemoryRead (pf : Pf) (off : Nat) (len : Nat) (e : MemEcc) (s : State) : exec (.bar2MemoryRead pf off len e) s = execBar2MemoryRead pf off len e s := rfl
theorem exec_bar2MemoryWrite (pf : Pf) (off : Nat) (data : List Byte) (ep : Bool) (e : MemEcc) (s : State) : exec (.bar2MemoryWrite pf off data ep e) s = execBar2MemoryWrite pf off data ep e s := rfl
theorem exec_atomicopFetchadd (pf : Pf) (off : Nat) (wide : Bool) (v : W64) (e : MemEcc) (s : State) : exec (.atomicopFetchadd pf off wide v e) s = execAtomicopFetchadd pf off wide v e s := rfl
theorem exec_atomicopSwap (pf : Pf) (off : Nat) (wide : Bool) (v : W64) (e : MemEcc) (s : State) : exec (.atomicopSwap pf off wide v e) s = execAtomicopSwap pf off wide v e s := rfl
theorem exec_atomicopCas (pf : Pf) (off : Nat) (wide : Bool) (cmp : W64) (v : W64) (e : MemEcc) (s : State) : exec (.atomicopCas pf off wide cmp v e) s = execAtomicopCas pf off wide cmp v e s := rfl
theorem exec_imageApertureRead (pf : Pf) (off : Nat) (len : Nat) (e : MemEcc) (s : State) : exec (.imageApertureRead pf off len e) s = execImageApertureRead pf off len e s := rfl
theorem exec_imageApertureWrite (pf : Pf) (off : Nat) (data : List Byte) (e : MemEcc) (s : State) : exec (.imageApertureWrite pf off data e) s = execImageApertureWrite pf off data e s := rfl
theorem exec_mordantDoorbellWrite (pf : Pf) (off : Nat) (size : Nat) (v : W64) (s : State) : exec (.mordantDoorbellWrite pf off size v) s = execMordantDoorbellWrite pf off size v s := rfl
theorem exec_mordantDoorbellRead (pf : Pf) (off : Nat) (size : Nat) (s : State) : exec (.mordantDoorbellRead pf off size) s = execMordantDoorbellRead pf off size s := rfl
theorem exec_watchArm (pf : Pf) (i0 : Fin 432) (thr : W64) (mor : W16) (w1c : Bool) (s : State) : exec (.watchArm pf i0 thr mor w1c) s = execWatchArm pf i0 thr mor w1c s := rfl
theorem exec_watchFire (pf : Pf) (i0 : Fin 432) (s : State) : exec (.watchFire pf i0) s = execWatchFire pf i0 s := rfl
theorem exec_perstNAssert (s : State) : exec (.perstNAssert) s = execPerstNAssert s := rfl
theorem exec_hotReset (s : State) : exec (.hotReset) s = execHotReset s := rfl
theorem exec_pcieLinkDown (s : State) : exec (.pcieLinkDown) s = execPcieLinkDown s := rfl
theorem exec_functionLevelReset (pf : Pf) (cfg : PciCfg) (s : State) : exec (.functionLevelReset pf cfg) s = execFunctionLevelReset pf cfg s := rfl
theorem exec_d3hotEntry (pf : Pf) (s : State) : exec (.d3hotEntry pf) s = execD3hotEntry pf s := rfl
theorem exec_ptmRequest (hostTime : W64) (s : State) : exec (.ptmRequest hostTime) s = execPtmRequest hostTime s := rfl
theorem exec_managementModeWrite (via : Via) (m : Fin 2) (v : Byte) (s : State) : exec (.managementModeWrite via m v) s = execManagementModeWrite via m v s := rfl
theorem exec_smbusReadInsertionState (s : State) : exec (.smbusReadInsertionState) s = execSmbusReadInsertionState s := rfl
theorem exec_smbusReadPowerState (s : State) : exec (.smbusReadPowerState) s = execSmbusReadPowerState s := rfl
theorem exec_smbusReadStatus (s : State) : exec (.smbusReadStatus) s = execSmbusReadStatus s := rfl
theorem exec_smbusReadDieSensor (s : State) : exec (.smbusReadDieSensor) s = execSmbusReadDieSensor s := rfl
theorem exec_smbusReadDramSensor (s : State) : exec (.smbusReadDramSensor) s = execSmbusReadDramSensor s := rfl
theorem exec_smbusReadPackagePower (s : State) : exec (.smbusReadPackagePower) s = execSmbusReadPackagePower s := rfl
theorem exec_smbusReadDeviceId (s : State) : exec (.smbusReadDeviceId) s = execSmbusReadDeviceId s := rfl
theorem exec_smbusReadSerial (s : State) : exec (.smbusReadSerial) s = execSmbusReadSerial s := rfl
theorem exec_alertResponseAddressRead (s : State) : exec (.alertResponseAddressRead) s = execAlertResponseAddressRead s := rfl
theorem exec_smbusWrite (s : State) : exec (.smbusWrite) s = execSmbusWrite s := rfl
theorem exec_ppsOutPulse (s : State) : exec (.ppsOutPulse) s = execPpsOutPulse s := rfl
theorem exec_ppsInEdge (s : State) : exec (.ppsInEdge) s = execPpsInEdge s := rfl
theorem exec_testEnRise (s : State) : exec (.testEnRise) s = execTestEnRise s := rfl
theorem exec_testEnFall (s : State) : exec (.testEnFall) s = execTestEnFall s := rfl
theorem exec_bypass (s : State) : exec (.bypass) s = execBypass s := rfl
theorem exec_idcode (s : State) : exec (.idcode) s = execIdcode s := rfl
theorem exec_samplePreload (s : State) : exec (.samplePreload) s = execSamplePreload s := rfl
theorem exec_extest (s : State) : exec (.extest) s = execExtest s := rfl
theorem exec_clamp (s : State) : exec (.clamp) s = execClamp s := rfl
theorem exec_highz (s : State) : exec (.highz) s = execHighz s := rfl
theorem exec_privateInstruction (s : State) : exec (.privateInstruction) s = execPrivateInstruction s := rfl
theorem exec_powerLimitCheck (watts : W16) (s : State) : exec (.powerLimitCheck watts) s = execPowerLimitCheck watts s := rfl
theorem exec_coreRailStepDecay (h : Half) (s : State) : exec (.coreRailStepDecay h) s = execCoreRailStepDecay h s := rfl
theorem exec_sensorSample (reading : List W16) (s : State) : exec (.sensorSample reading) s = execSensorSample reading s := rfl
theorem exec_throttleStep (h : Half) (s : State) : exec (.throttleStep h) s = execThrottleStep h s := rfl
theorem exec_throttleRecoveryStep (h : Half) (s : State) : exec (.throttleRecoveryStep h) s = execThrottleRecoveryStep h s := rfl
theorem exec_railOutOfRange (r : Rail) (mv : W16) (amps : W16) (s : State) : exec (.railOutOfRange r mv amps) s = execRailOutOfRange r mv amps s := rfl
theorem exec_pgDeassert (r : Rail) (s : State) : exec (.pgDeassert r) s = execPgDeassert r s := rfl
theorem exec_pmbusCommandFailure (h : Half) (s : State) : exec (.pmbusCommandFailure h) s = execPmbusCommandFailure h s := rfl
theorem exec_stewardRailFailure (s : State) : exec (.stewardRailFailure) s = execStewardRailFailure s := rfl
theorem exec_stwResetNRelease (boot : BootResult) (s : State) : exec (.stwResetNRelease boot) s = execStwResetNRelease boot s := rfl
theorem exec_perstNDeassert (s : State) : exec (.perstNDeassert) s = execPerstNDeassert s := rfl
theorem exec_d0Entry (pf : Pf) (s : State) : exec (.d0Entry pf) s = execD0Entry pf s := rfl
theorem exec_pcieLinkUp (rate : BitVec 4) (width : BitVec 5) (cfg : Vector PciCfg 5) (s : State) : exec (.pcieLinkUp rate width cfg) s = execPcieLinkUp rate width cfg s := rfl
theorem exec_managementLinkUp (m : Fin 2) (tenG : Bool) (s : State) : exec (.managementLinkUp m tenG) s = execManagementLinkUp m tenG s := rfl
theorem exec_managementLinkDown (m : Fin 2) (s : State) : exec (.managementLinkDown m) s = execManagementLinkDown m s := rfl
theorem exec_managementSessionClose (n : Fin 8) (s : State) : exec (.managementSessionClose n) s = execManagementSessionClose n s := rfl
theorem exec_notificationRingTailWrite (pf : Pf) (v : W32) (w1c : Byte) (s : State) : exec (.notificationRingTailWrite pf v w1c) s = execNotificationRingTailWrite pf v w1c s := rfl
theorem exec_computeDieReady (failed : List Crossing) (s : State) : exec (.computeDieReady failed) s = execComputeDieReady failed s := rfl
theorem exec_replicaWarningLevel (i0 : Island) (s : State) : exec (.replicaWarningLevel i0) s = execReplicaWarningLevel i0 s := rfl
theorem exec_coreRailVoutCommand (h : Half) (s : State) : exec (.coreRailVoutCommand h) s = execCoreRailVoutCommand h s := rfl
theorem exec_morReadRegisterWritten (st : St) (s : State) : exec (.morReadRegisterWritten st) s = execMorReadRegisterWritten st s := rfl
theorem exec_vecOpComplete (st : St) (s : State) : exec (.vecOpComplete st) s = execVecOpComplete st s := rfl
theorem exec_coefficientRequest (port : PortId) (lane : Fin 17) (set : BitVec 256) (s : State) : exec (.coefficientRequest port lane set) s = execCoefficientRequest port lane set s := rfl

end Sys2Proof.Machine
end

