-- ==== Sys2Proof/Laws/State.lean ====
section
/-!
SUPPORT. One lemma per field and update: what each update of one part of the state leaves as it was, and what a changed part reads as.
-/
namespace Sys2Proof.Machine

/-! ### Vectors indexed by a number of their own range -/

@[simp] theorem vget_vset_same {α : Type} {n : Nat} (v : Vector α n) (i : Fin n) (x : α) : vget (vset v i x) i = x := by
  simp [vget, vset]

theorem vget_vset_other {α : Type} {n : Nat} (v : Vector α n) (i j : Fin n) (x : α) (h : j ≠ i) : vget (vset v i x) j = vget v j := by
  have h' : i.val ≠ j.val := fun e => h (Fin.ext e.symm)
  simp [vget, vset, Vector.getElem_set_ne _ _ h']

theorem vget_vset {α : Type} {n : Nat} (v : Vector α n) (i j : Fin n) (x : α) : vget (vset v i x) j = if j = i then x else vget v j := by
  split
  · next h => rw [h, vget_vset_same]
  · next h => exact vget_vset_other v i j x h

@[simp] theorem vget_vmod_same {α : Type} {n : Nat} (v : Vector α n) (i : Fin n) (f : α → α) : vget (vmod v i f) i = f (vget v i) := by
  simp [vmod]

theorem vget_vmod_other {α : Type} {n : Nat} (v : Vector α n) (i j : Fin n) (f : α → α) (h : j ≠ i) : vget (vmod v i f) j = vget v j :=
  vget_vset_other _ _ _ _ h

@[simp] theorem vget_replicate {α : Type} {n : Nat} (x : α) (i : Fin n) : vget (Vector.replicate n x) i = x := by
  simp [vget]

/-! ### The changed part -/

@[simp] theorem State.stn_modSt_same (s : State) (i : St) (f : Station → Station) : (s.modSt i f).stn i = f (s.stn i) :=
  vget_vmod_same _ _ _
theorem State.stn_modSt_other (s : State) (i j : St) (f : Station → Station) (h : j ≠ i) : (s.modSt i f).stn j = s.stn j :=
  vget_vmod_other _ _ _ _ h

@[simp] theorem State.prt_modPart_same (s : State) (i : Part) (f : Partition → Partition) : (s.modPart i f).prt i = f (s.prt i) :=
  vget_vmod_same _ _ _
theorem State.prt_modPart_other (s : State) (i j : Part) (f : Partition → Partition) (h : j ≠ i) : (s.modPart i f).prt j = s.prt j :=
  vget_vmod_other _ _ _ _ h

@[simp] theorem State.twr_modTwr_same (s : State) (i : Twr) (f : Tower → Tower) : (s.modTwr i f).twr i = f (s.twr i) :=
  vget_vmod_same _ _ _
theorem State.twr_modTwr_other (s : State) (i j : Twr) (f : Tower → Tower) (h : j ≠ i) : (s.modTwr i f).twr j = s.twr j :=
  vget_vmod_other _ _ _ _ h

@[simp] theorem State.fn_modFn_same (s : State) (i : Pf) (f : HostFn → HostFn) : (s.modFn i f).fn i = f (s.fn i) :=
  vget_vmod_same _ _ _
theorem State.fn_modFn_other (s : State) (i j : Pf) (f : HostFn → HostFn) (h : j ≠ i) : (s.modFn i f).fn j = s.fn j :=
  vget_vmod_other _ _ _ _ h

@[simp] theorem State.hlt_modHealth_same (s : State) (i : St) (f : Health → Health) : (s.modHealth i f).hlt i = f (s.hlt i) :=
  vget_vmod_same _ _ _
theorem State.hlt_modHealth_other (s : State) (i j : St) (f : Health → Health) (h : j ≠ i) : (s.modHealth i f).hlt j = s.hlt j :=
  vget_vmod_other _ _ _ _ h

/-! ### modSt -/

@[simp] theorem State.modSt_time (s : State) (i : St) (f : Station → Station) : (s.modSt i f).time = s.time := rfl
@[simp] theorem State.modSt_parts (s : State) (i : St) (f : Station → Station) : (s.modSt i f).parts = s.parts := rfl
@[simp] theorem State.modSt_mordants (s : State) (i : St) (f : Station → Station) : (s.modSt i f).mordants = s.mordants := rfl
@[simp] theorem State.modSt_mem (s : State) (i : St) (f : Station → Station) : (s.modSt i f).mem = s.mem := rfl
@[simp] theorem State.modSt_poison (s : State) (i : St) (f : Station → Station) : (s.modSt i f).poison = s.poison := rfl
@[simp] theorem State.modSt_stashPoison (s : State) (i : St) (f : Station → Station) : (s.modSt i f).stashPoison = s.stashPoison := rfl
@[simp] theorem State.modSt_fetches (s : State) (i : St) (f : Station → Station) : (s.modSt i f).fetches = s.fetches := rfl
@[simp] theorem State.modSt_writes (s : State) (i : St) (f : Station → Station) : (s.modSt i f).writes = s.writes := rfl
@[simp] theorem State.modSt_morOps (s : State) (i : St) (f : Station → Station) : (s.modSt i f).morOps = s.morOps := rfl
@[simp] theorem State.modSt_descs (s : State) (i : St) (f : Station → Station) : (s.modSt i f).descs = s.descs := rfl
@[simp] theorem State.modSt_xfers (s : State) (i : St) (f : Station → Station) : (s.modSt i f).xfers = s.xfers := rfl
@[simp] theorem State.modSt_towers (s : State) (i : St) (f : Station → Station) : (s.modSt i f).towers = s.towers := rfl
@[simp] theorem State.modSt_route (s : State) (i : St) (f : Station → Station) : (s.modSt i f).route = s.route := rfl
@[simp] theorem State.modSt_clk (s : State) (i : St) (f : Station → Station) : (s.modSt i f).clk = s.clk := rfl
@[simp] theorem State.modSt_pwr (s : State) (i : St) (f : Station → Station) : (s.modSt i f).pwr = s.pwr := rfl
@[simp] theorem State.modSt_stw (s : State) (i : St) (f : Station → Station) : (s.modSt i f).stw = s.stw := rfl
@[simp] theorem State.modSt_host (s : State) (i : St) (f : Station → Station) : (s.modSt i f).host = s.host := rfl
@[simp] theorem State.modSt_hostHeld (s : State) (i : St) (f : Station → Station) : (s.modSt i f).hostHeld = s.hostHeld := rfl
@[simp] theorem State.modSt_perst (s : State) (i : St) (f : Station → Station) : (s.modSt i f).perst = s.perst := rfl
@[simp] theorem State.modSt_ports (s : State) (i : St) (f : Station → Station) : (s.modSt i f).ports = s.ports := rfl
@[simp] theorem State.modSt_fab (s : State) (i : St) (f : Station → Station) : (s.modSt i f).fab = s.fab := rfl
@[simp] theorem State.modSt_health (s : State) (i : St) (f : Station → Station) : (s.modSt i f).health = s.health := rfl
@[simp] theorem State.modSt_dict (s : State) (i : St) (f : Station → Station) : (s.modSt i f).dict = s.dict := rfl
@[simp] theorem State.modSt_saved (s : State) (i : St) (f : Station → Station) : (s.modSt i f).saved = s.saved := rfl
@[simp] theorem State.modSt_doms (s : State) (i : St) (f : Station → Station) : (s.modSt i f).doms = s.doms := rfl
@[simp] theorem State.modSt_savedDoms (s : State) (i : St) (f : Station → Station) : (s.modSt i f).savedDoms = s.savedDoms := rfl
@[simp] theorem State.modSt_beat (s : State) (i : St) (f : Station → Station) : (s.modSt i f).beat = s.beat := rfl
@[simp] theorem State.modSt_faults (s : State) (i : St) (f : Station → Station) : (s.modSt i f).faults = s.faults := rfl
@[simp] theorem State.modSt_faultHold (s : State) (i : St) (f : Station → Station) : (s.modSt i f).faultHold = s.faultHold := rfl
@[simp] theorem State.modSt_faultLost (s : State) (i : St) (f : Station → Station) : (s.modSt i f).faultLost = s.faultLost := rfl
@[simp] theorem State.modSt_acked (s : State) (i : St) (f : Station → Station) : (s.modSt i f).acked = s.acked := rfl
@[simp] theorem State.modSt_seqNext (s : State) (i : St) (f : Station → Station) : (s.modSt i f).seqNext = s.seqNext := rfl
@[simp] theorem State.modSt_draws (s : State) (i : St) (f : Station → Station) : (s.modSt i f).draws = s.draws := rfl
@[simp] theorem State.modSt_out (s : State) (i : St) (f : Station → Station) : (s.modSt i f).out = s.out := rfl
@[simp] theorem State.modSt_pending (s : State) (i : St) (f : Station → Station) : (s.modSt i f).pending = s.pending := rfl
@[simp] theorem State.modSt_prt (s : State) (i : St) (f : Station → Station) (j : Part) : (s.modSt i f).prt j = s.prt j := rfl
@[simp] theorem State.modSt_twr (s : State) (i : St) (f : Station → Station) (j : Twr) : (s.modSt i f).twr j = s.twr j := rfl
@[simp] theorem State.modSt_fn (s : State) (i : St) (f : Station → Station) (j : Pf) : (s.modSt i f).fn j = s.fn j := rfl
@[simp] theorem State.modSt_hlt (s : State) (i : St) (f : Station → Station) (j : St) : (s.modSt i f).hlt j = s.hlt j := rfl
@[simp] theorem State.modSt_reg (s : State) (i : St) (f : Station → Station) (x y : Nat) : (s.modSt i f).reg x y = s.reg x y := rfl
@[simp] theorem State.modSt_dom (s : State) (i : St) (f : Station → Station) (x y : Nat) : (s.modSt i f).dom x y = s.dom x y := rfl

/-! ### modPart -/

@[simp] theorem State.modPart_time (s : State) (i : Part) (f : Partition → Partition) : (s.modPart i f).time = s.time := rfl
@[simp] theorem State.modPart_stations (s : State) (i : Part) (f : Partition → Partition) : (s.modPart i f).stations = s.stations := rfl
@[simp] theorem State.modPart_mordants (s : State) (i : Part) (f : Partition → Partition) : (s.modPart i f).mordants = s.mordants := rfl
@[simp] theorem State.modPart_mem (s : State) (i : Part) (f : Partition → Partition) : (s.modPart i f).mem = s.mem := rfl
@[simp] theorem State.modPart_poison (s : State) (i : Part) (f : Partition → Partition) : (s.modPart i f).poison = s.poison := rfl
@[simp] theorem State.modPart_stashPoison (s : State) (i : Part) (f : Partition → Partition) : (s.modPart i f).stashPoison = s.stashPoison := rfl
@[simp] theorem State.modPart_fetches (s : State) (i : Part) (f : Partition → Partition) : (s.modPart i f).fetches = s.fetches := rfl
@[simp] theorem State.modPart_writes (s : State) (i : Part) (f : Partition → Partition) : (s.modPart i f).writes = s.writes := rfl
@[simp] theorem State.modPart_morOps (s : State) (i : Part) (f : Partition → Partition) : (s.modPart i f).morOps = s.morOps := rfl
@[simp] theorem State.modPart_descs (s : State) (i : Part) (f : Partition → Partition) : (s.modPart i f).descs = s.descs := rfl
@[simp] theorem State.modPart_xfers (s : State) (i : Part) (f : Partition → Partition) : (s.modPart i f).xfers = s.xfers := rfl
@[simp] theorem State.modPart_towers (s : State) (i : Part) (f : Partition → Partition) : (s.modPart i f).towers = s.towers := rfl
@[simp] theorem State.modPart_route (s : State) (i : Part) (f : Partition → Partition) : (s.modPart i f).route = s.route := rfl
@[simp] theorem State.modPart_clk (s : State) (i : Part) (f : Partition → Partition) : (s.modPart i f).clk = s.clk := rfl
@[simp] theorem State.modPart_pwr (s : State) (i : Part) (f : Partition → Partition) : (s.modPart i f).pwr = s.pwr := rfl
@[simp] theorem State.modPart_stw (s : State) (i : Part) (f : Partition → Partition) : (s.modPart i f).stw = s.stw := rfl
@[simp] theorem State.modPart_host (s : State) (i : Part) (f : Partition → Partition) : (s.modPart i f).host = s.host := rfl
@[simp] theorem State.modPart_hostHeld (s : State) (i : Part) (f : Partition → Partition) : (s.modPart i f).hostHeld = s.hostHeld := rfl
@[simp] theorem State.modPart_perst (s : State) (i : Part) (f : Partition → Partition) : (s.modPart i f).perst = s.perst := rfl
@[simp] theorem State.modPart_ports (s : State) (i : Part) (f : Partition → Partition) : (s.modPart i f).ports = s.ports := rfl
@[simp] theorem State.modPart_fab (s : State) (i : Part) (f : Partition → Partition) : (s.modPart i f).fab = s.fab := rfl
@[simp] theorem State.modPart_health (s : State) (i : Part) (f : Partition → Partition) : (s.modPart i f).health = s.health := rfl
@[simp] theorem State.modPart_dict (s : State) (i : Part) (f : Partition → Partition) : (s.modPart i f).dict = s.dict := rfl
@[simp] theorem State.modPart_saved (s : State) (i : Part) (f : Partition → Partition) : (s.modPart i f).saved = s.saved := rfl
@[simp] theorem State.modPart_doms (s : State) (i : Part) (f : Partition → Partition) : (s.modPart i f).doms = s.doms := rfl
@[simp] theorem State.modPart_savedDoms (s : State) (i : Part) (f : Partition → Partition) : (s.modPart i f).savedDoms = s.savedDoms := rfl
@[simp] theorem State.modPart_beat (s : State) (i : Part) (f : Partition → Partition) : (s.modPart i f).beat = s.beat := rfl
@[simp] theorem State.modPart_faults (s : State) (i : Part) (f : Partition → Partition) : (s.modPart i f).faults = s.faults := rfl
@[simp] theorem State.modPart_faultHold (s : State) (i : Part) (f : Partition → Partition) : (s.modPart i f).faultHold = s.faultHold := rfl
@[simp] theorem State.modPart_faultLost (s : State) (i : Part) (f : Partition → Partition) : (s.modPart i f).faultLost = s.faultLost := rfl
@[simp] theorem State.modPart_acked (s : State) (i : Part) (f : Partition → Partition) : (s.modPart i f).acked = s.acked := rfl
@[simp] theorem State.modPart_seqNext (s : State) (i : Part) (f : Partition → Partition) : (s.modPart i f).seqNext = s.seqNext := rfl
@[simp] theorem State.modPart_draws (s : State) (i : Part) (f : Partition → Partition) : (s.modPart i f).draws = s.draws := rfl
@[simp] theorem State.modPart_out (s : State) (i : Part) (f : Partition → Partition) : (s.modPart i f).out = s.out := rfl
@[simp] theorem State.modPart_pending (s : State) (i : Part) (f : Partition → Partition) : (s.modPart i f).pending = s.pending := rfl
@[simp] theorem State.modPart_stn (s : State) (i : Part) (f : Partition → Partition) (j : St) : (s.modPart i f).stn j = s.stn j := rfl
@[simp] theorem State.modPart_twr (s : State) (i : Part) (f : Partition → Partition) (j : Twr) : (s.modPart i f).twr j = s.twr j := rfl
@[simp] theorem State.modPart_fn (s : State) (i : Part) (f : Partition → Partition) (j : Pf) : (s.modPart i f).fn j = s.fn j := rfl
@[simp] theorem State.modPart_hlt (s : State) (i : Part) (f : Partition → Partition) (j : St) : (s.modPart i f).hlt j = s.hlt j := rfl
@[simp] theorem State.modPart_reg (s : State) (i : Part) (f : Partition → Partition) (x y : Nat) : (s.modPart i f).reg x y = s.reg x y := rfl
@[simp] theorem State.modPart_dom (s : State) (i : Part) (f : Partition → Partition) (x y : Nat) : (s.modPart i f).dom x y = s.dom x y := rfl

/-! ### modTwr -/

@[simp] theorem State.modTwr_time (s : State) (i : Twr) (f : Tower → Tower) : (s.modTwr i f).time = s.time := rfl
@[simp] theorem State.modTwr_stations (s : State) (i : Twr) (f : Tower → Tower) : (s.modTwr i f).stations = s.stations := rfl
@[simp] theorem State.modTwr_parts (s : State) (i : Twr) (f : Tower → Tower) : (s.modTwr i f).parts = s.parts := rfl
@[simp] theorem State.modTwr_mordants (s : State) (i : Twr) (f : Tower → Tower) : (s.modTwr i f).mordants = s.mordants := rfl
@[simp] theorem State.modTwr_mem (s : State) (i : Twr) (f : Tower → Tower) : (s.modTwr i f).mem = s.mem := rfl
@[simp] theorem State.modTwr_poison (s : State) (i : Twr) (f : Tower → Tower) : (s.modTwr i f).poison = s.poison := rfl
@[simp] theorem State.modTwr_stashPoison (s : State) (i : Twr) (f : Tower → Tower) : (s.modTwr i f).stashPoison = s.stashPoison := rfl
@[simp] theorem State.modTwr_fetches (s : State) (i : Twr) (f : Tower → Tower) : (s.modTwr i f).fetches = s.fetches := rfl
@[simp] theorem State.modTwr_writes (s : State) (i : Twr) (f : Tower → Tower) : (s.modTwr i f).writes = s.writes := rfl
@[simp] theorem State.modTwr_morOps (s : State) (i : Twr) (f : Tower → Tower) : (s.modTwr i f).morOps = s.morOps := rfl
@[simp] theorem State.modTwr_descs (s : State) (i : Twr) (f : Tower → Tower) : (s.modTwr i f).descs = s.descs := rfl
@[simp] theorem State.modTwr_xfers (s : State) (i : Twr) (f : Tower → Tower) : (s.modTwr i f).xfers = s.xfers := rfl
@[simp] theorem State.modTwr_route (s : State) (i : Twr) (f : Tower → Tower) : (s.modTwr i f).route = s.route := rfl
@[simp] theorem State.modTwr_clk (s : State) (i : Twr) (f : Tower → Tower) : (s.modTwr i f).clk = s.clk := rfl
@[simp] theorem State.modTwr_pwr (s : State) (i : Twr) (f : Tower → Tower) : (s.modTwr i f).pwr = s.pwr := rfl
@[simp] theorem State.modTwr_stw (s : State) (i : Twr) (f : Tower → Tower) : (s.modTwr i f).stw = s.stw := rfl
@[simp] theorem State.modTwr_host (s : State) (i : Twr) (f : Tower → Tower) : (s.modTwr i f).host = s.host := rfl
@[simp] theorem State.modTwr_hostHeld (s : State) (i : Twr) (f : Tower → Tower) : (s.modTwr i f).hostHeld = s.hostHeld := rfl
@[simp] theorem State.modTwr_perst (s : State) (i : Twr) (f : Tower → Tower) : (s.modTwr i f).perst = s.perst := rfl
@[simp] theorem State.modTwr_ports (s : State) (i : Twr) (f : Tower → Tower) : (s.modTwr i f).ports = s.ports := rfl
@[simp] theorem State.modTwr_fab (s : State) (i : Twr) (f : Tower → Tower) : (s.modTwr i f).fab = s.fab := rfl
@[simp] theorem State.modTwr_health (s : State) (i : Twr) (f : Tower → Tower) : (s.modTwr i f).health = s.health := rfl
@[simp] theorem State.modTwr_dict (s : State) (i : Twr) (f : Tower → Tower) : (s.modTwr i f).dict = s.dict := rfl
@[simp] theorem State.modTwr_saved (s : State) (i : Twr) (f : Tower → Tower) : (s.modTwr i f).saved = s.saved := rfl
@[simp] theorem State.modTwr_doms (s : State) (i : Twr) (f : Tower → Tower) : (s.modTwr i f).doms = s.doms := rfl
@[simp] theorem State.modTwr_savedDoms (s : State) (i : Twr) (f : Tower → Tower) : (s.modTwr i f).savedDoms = s.savedDoms := rfl
@[simp] theorem State.modTwr_beat (s : State) (i : Twr) (f : Tower → Tower) : (s.modTwr i f).beat = s.beat := rfl
@[simp] theorem State.modTwr_faults (s : State) (i : Twr) (f : Tower → Tower) : (s.modTwr i f).faults = s.faults := rfl
@[simp] theorem State.modTwr_faultHold (s : State) (i : Twr) (f : Tower → Tower) : (s.modTwr i f).faultHold = s.faultHold := rfl
@[simp] theorem State.modTwr_faultLost (s : State) (i : Twr) (f : Tower → Tower) : (s.modTwr i f).faultLost = s.faultLost := rfl
@[simp] theorem State.modTwr_acked (s : State) (i : Twr) (f : Tower → Tower) : (s.modTwr i f).acked = s.acked := rfl
@[simp] theorem State.modTwr_seqNext (s : State) (i : Twr) (f : Tower → Tower) : (s.modTwr i f).seqNext = s.seqNext := rfl
@[simp] theorem State.modTwr_draws (s : State) (i : Twr) (f : Tower → Tower) : (s.modTwr i f).draws = s.draws := rfl
@[simp] theorem State.modTwr_out (s : State) (i : Twr) (f : Tower → Tower) : (s.modTwr i f).out = s.out := rfl
@[simp] theorem State.modTwr_pending (s : State) (i : Twr) (f : Tower → Tower) : (s.modTwr i f).pending = s.pending := rfl
@[simp] theorem State.modTwr_stn (s : State) (i : Twr) (f : Tower → Tower) (j : St) : (s.modTwr i f).stn j = s.stn j := rfl
@[simp] theorem State.modTwr_prt (s : State) (i : Twr) (f : Tower → Tower) (j : Part) : (s.modTwr i f).prt j = s.prt j := rfl
@[simp] theorem State.modTwr_fn (s : State) (i : Twr) (f : Tower → Tower) (j : Pf) : (s.modTwr i f).fn j = s.fn j := rfl
@[simp] theorem State.modTwr_hlt (s : State) (i : Twr) (f : Tower → Tower) (j : St) : (s.modTwr i f).hlt j = s.hlt j := rfl
@[simp] theorem State.modTwr_reg (s : State) (i : Twr) (f : Tower → Tower) (x y : Nat) : (s.modTwr i f).reg x y = s.reg x y := rfl
@[simp] theorem State.modTwr_dom (s : State) (i : Twr) (f : Tower → Tower) (x y : Nat) : (s.modTwr i f).dom x y = s.dom x y := rfl

/-! ### modPort -/

@[simp] theorem State.modPort_time (s : State) (i : PortId) (f : Port → Port) : (s.modPort i f).time = s.time := rfl
@[simp] theorem State.modPort_stations (s : State) (i : PortId) (f : Port → Port) : (s.modPort i f).stations = s.stations := rfl
@[simp] theorem State.modPort_parts (s : State) (i : PortId) (f : Port → Port) : (s.modPort i f).parts = s.parts := rfl
@[simp] theorem State.modPort_mordants (s : State) (i : PortId) (f : Port → Port) : (s.modPort i f).mordants = s.mordants := rfl
@[simp] theorem State.modPort_mem (s : State) (i : PortId) (f : Port → Port) : (s.modPort i f).mem = s.mem := rfl
@[simp] theorem State.modPort_poison (s : State) (i : PortId) (f : Port → Port) : (s.modPort i f).poison = s.poison := rfl
@[simp] theorem State.modPort_stashPoison (s : State) (i : PortId) (f : Port → Port) : (s.modPort i f).stashPoison = s.stashPoison := rfl
@[simp] theorem State.modPort_fetches (s : State) (i : PortId) (f : Port → Port) : (s.modPort i f).fetches = s.fetches := rfl
@[simp] theorem State.modPort_writes (s : State) (i : PortId) (f : Port → Port) : (s.modPort i f).writes = s.writes := rfl
@[simp] theorem State.modPort_morOps (s : State) (i : PortId) (f : Port → Port) : (s.modPort i f).morOps = s.morOps := rfl
@[simp] theorem State.modPort_descs (s : State) (i : PortId) (f : Port → Port) : (s.modPort i f).descs = s.descs := rfl
@[simp] theorem State.modPort_xfers (s : State) (i : PortId) (f : Port → Port) : (s.modPort i f).xfers = s.xfers := rfl
@[simp] theorem State.modPort_towers (s : State) (i : PortId) (f : Port → Port) : (s.modPort i f).towers = s.towers := rfl
@[simp] theorem State.modPort_route (s : State) (i : PortId) (f : Port → Port) : (s.modPort i f).route = s.route := rfl
@[simp] theorem State.modPort_clk (s : State) (i : PortId) (f : Port → Port) : (s.modPort i f).clk = s.clk := rfl
@[simp] theorem State.modPort_pwr (s : State) (i : PortId) (f : Port → Port) : (s.modPort i f).pwr = s.pwr := rfl
@[simp] theorem State.modPort_stw (s : State) (i : PortId) (f : Port → Port) : (s.modPort i f).stw = s.stw := rfl
@[simp] theorem State.modPort_host (s : State) (i : PortId) (f : Port → Port) : (s.modPort i f).host = s.host := rfl
@[simp] theorem State.modPort_hostHeld (s : State) (i : PortId) (f : Port → Port) : (s.modPort i f).hostHeld = s.hostHeld := rfl
@[simp] theorem State.modPort_perst (s : State) (i : PortId) (f : Port → Port) : (s.modPort i f).perst = s.perst := rfl
@[simp] theorem State.modPort_fab (s : State) (i : PortId) (f : Port → Port) : (s.modPort i f).fab = s.fab := rfl
@[simp] theorem State.modPort_health (s : State) (i : PortId) (f : Port → Port) : (s.modPort i f).health = s.health := rfl
@[simp] theorem State.modPort_dict (s : State) (i : PortId) (f : Port → Port) : (s.modPort i f).dict = s.dict := rfl
@[simp] theorem State.modPort_saved (s : State) (i : PortId) (f : Port → Port) : (s.modPort i f).saved = s.saved := rfl
@[simp] theorem State.modPort_doms (s : State) (i : PortId) (f : Port → Port) : (s.modPort i f).doms = s.doms := rfl
@[simp] theorem State.modPort_savedDoms (s : State) (i : PortId) (f : Port → Port) : (s.modPort i f).savedDoms = s.savedDoms := rfl
@[simp] theorem State.modPort_beat (s : State) (i : PortId) (f : Port → Port) : (s.modPort i f).beat = s.beat := rfl
@[simp] theorem State.modPort_faults (s : State) (i : PortId) (f : Port → Port) : (s.modPort i f).faults = s.faults := rfl
@[simp] theorem State.modPort_faultHold (s : State) (i : PortId) (f : Port → Port) : (s.modPort i f).faultHold = s.faultHold := rfl
@[simp] theorem State.modPort_faultLost (s : State) (i : PortId) (f : Port → Port) : (s.modPort i f).faultLost = s.faultLost := rfl
@[simp] theorem State.modPort_acked (s : State) (i : PortId) (f : Port → Port) : (s.modPort i f).acked = s.acked := rfl
@[simp] theorem State.modPort_seqNext (s : State) (i : PortId) (f : Port → Port) : (s.modPort i f).seqNext = s.seqNext := rfl
@[simp] theorem State.modPort_draws (s : State) (i : PortId) (f : Port → Port) : (s.modPort i f).draws = s.draws := rfl
@[simp] theorem State.modPort_out (s : State) (i : PortId) (f : Port → Port) : (s.modPort i f).out = s.out := rfl
@[simp] theorem State.modPort_pending (s : State) (i : PortId) (f : Port → Port) : (s.modPort i f).pending = s.pending := rfl
@[simp] theorem State.modPort_stn (s : State) (i : PortId) (f : Port → Port) (j : St) : (s.modPort i f).stn j = s.stn j := rfl
@[simp] theorem State.modPort_prt (s : State) (i : PortId) (f : Port → Port) (j : Part) : (s.modPort i f).prt j = s.prt j := rfl
@[simp] theorem State.modPort_twr (s : State) (i : PortId) (f : Port → Port) (j : Twr) : (s.modPort i f).twr j = s.twr j := rfl
@[simp] theorem State.modPort_fn (s : State) (i : PortId) (f : Port → Port) (j : Pf) : (s.modPort i f).fn j = s.fn j := rfl
@[simp] theorem State.modPort_hlt (s : State) (i : PortId) (f : Port → Port) (j : St) : (s.modPort i f).hlt j = s.hlt j := rfl
@[simp] theorem State.modPort_reg (s : State) (i : PortId) (f : Port → Port) (x y : Nat) : (s.modPort i f).reg x y = s.reg x y := rfl
@[simp] theorem State.modPort_dom (s : State) (i : PortId) (f : Port → Port) (x y : Nat) : (s.modPort i f).dom x y = s.dom x y := rfl

/-! ### modFn -/

@[simp] theorem State.modFn_time (s : State) (i : Pf) (f : HostFn → HostFn) : (s.modFn i f).time = s.time := rfl
@[simp] theorem State.modFn_stations (s : State) (i : Pf) (f : HostFn → HostFn) : (s.modFn i f).stations = s.stations := rfl
@[simp] theorem State.modFn_parts (s : State) (i : Pf) (f : HostFn → HostFn) : (s.modFn i f).parts = s.parts := rfl
@[simp] theorem State.modFn_mordants (s : State) (i : Pf) (f : HostFn → HostFn) : (s.modFn i f).mordants = s.mordants := rfl
@[simp] theorem State.modFn_mem (s : State) (i : Pf) (f : HostFn → HostFn) : (s.modFn i f).mem = s.mem := rfl
@[simp] theorem State.modFn_poison (s : State) (i : Pf) (f : HostFn → HostFn) : (s.modFn i f).poison = s.poison := rfl
@[simp] theorem State.modFn_stashPoison (s : State) (i : Pf) (f : HostFn → HostFn) : (s.modFn i f).stashPoison = s.stashPoison := rfl
@[simp] theorem State.modFn_fetches (s : State) (i : Pf) (f : HostFn → HostFn) : (s.modFn i f).fetches = s.fetches := rfl
@[simp] theorem State.modFn_writes (s : State) (i : Pf) (f : HostFn → HostFn) : (s.modFn i f).writes = s.writes := rfl
@[simp] theorem State.modFn_morOps (s : State) (i : Pf) (f : HostFn → HostFn) : (s.modFn i f).morOps = s.morOps := rfl
@[simp] theorem State.modFn_descs (s : State) (i : Pf) (f : HostFn → HostFn) : (s.modFn i f).descs = s.descs := rfl
@[simp] theorem State.modFn_xfers (s : State) (i : Pf) (f : HostFn → HostFn) : (s.modFn i f).xfers = s.xfers := rfl
@[simp] theorem State.modFn_towers (s : State) (i : Pf) (f : HostFn → HostFn) : (s.modFn i f).towers = s.towers := rfl
@[simp] theorem State.modFn_route (s : State) (i : Pf) (f : HostFn → HostFn) : (s.modFn i f).route = s.route := rfl
@[simp] theorem State.modFn_clk (s : State) (i : Pf) (f : HostFn → HostFn) : (s.modFn i f).clk = s.clk := rfl
@[simp] theorem State.modFn_pwr (s : State) (i : Pf) (f : HostFn → HostFn) : (s.modFn i f).pwr = s.pwr := rfl
@[simp] theorem State.modFn_stw (s : State) (i : Pf) (f : HostFn → HostFn) : (s.modFn i f).stw = s.stw := rfl
@[simp] theorem State.modFn_hostHeld (s : State) (i : Pf) (f : HostFn → HostFn) : (s.modFn i f).hostHeld = s.hostHeld := rfl
@[simp] theorem State.modFn_perst (s : State) (i : Pf) (f : HostFn → HostFn) : (s.modFn i f).perst = s.perst := rfl
@[simp] theorem State.modFn_ports (s : State) (i : Pf) (f : HostFn → HostFn) : (s.modFn i f).ports = s.ports := rfl
@[simp] theorem State.modFn_fab (s : State) (i : Pf) (f : HostFn → HostFn) : (s.modFn i f).fab = s.fab := rfl
@[simp] theorem State.modFn_health (s : State) (i : Pf) (f : HostFn → HostFn) : (s.modFn i f).health = s.health := rfl
@[simp] theorem State.modFn_dict (s : State) (i : Pf) (f : HostFn → HostFn) : (s.modFn i f).dict = s.dict := rfl
@[simp] theorem State.modFn_saved (s : State) (i : Pf) (f : HostFn → HostFn) : (s.modFn i f).saved = s.saved := rfl
@[simp] theorem State.modFn_doms (s : State) (i : Pf) (f : HostFn → HostFn) : (s.modFn i f).doms = s.doms := rfl
@[simp] theorem State.modFn_savedDoms (s : State) (i : Pf) (f : HostFn → HostFn) : (s.modFn i f).savedDoms = s.savedDoms := rfl
@[simp] theorem State.modFn_beat (s : State) (i : Pf) (f : HostFn → HostFn) : (s.modFn i f).beat = s.beat := rfl
@[simp] theorem State.modFn_faults (s : State) (i : Pf) (f : HostFn → HostFn) : (s.modFn i f).faults = s.faults := rfl
@[simp] theorem State.modFn_faultHold (s : State) (i : Pf) (f : HostFn → HostFn) : (s.modFn i f).faultHold = s.faultHold := rfl
@[simp] theorem State.modFn_faultLost (s : State) (i : Pf) (f : HostFn → HostFn) : (s.modFn i f).faultLost = s.faultLost := rfl
@[simp] theorem State.modFn_acked (s : State) (i : Pf) (f : HostFn → HostFn) : (s.modFn i f).acked = s.acked := rfl
@[simp] theorem State.modFn_seqNext (s : State) (i : Pf) (f : HostFn → HostFn) : (s.modFn i f).seqNext = s.seqNext := rfl
@[simp] theorem State.modFn_draws (s : State) (i : Pf) (f : HostFn → HostFn) : (s.modFn i f).draws = s.draws := rfl
@[simp] theorem State.modFn_out (s : State) (i : Pf) (f : HostFn → HostFn) : (s.modFn i f).out = s.out := rfl
@[simp] theorem State.modFn_pending (s : State) (i : Pf) (f : HostFn → HostFn) : (s.modFn i f).pending = s.pending := rfl
@[simp] theorem State.modFn_stn (s : State) (i : Pf) (f : HostFn → HostFn) (j : St) : (s.modFn i f).stn j = s.stn j := rfl
@[simp] theorem State.modFn_prt (s : State) (i : Pf) (f : HostFn → HostFn) (j : Part) : (s.modFn i f).prt j = s.prt j := rfl
@[simp] theorem State.modFn_twr (s : State) (i : Pf) (f : HostFn → HostFn) (j : Twr) : (s.modFn i f).twr j = s.twr j := rfl
@[simp] theorem State.modFn_hlt (s : State) (i : Pf) (f : HostFn → HostFn) (j : St) : (s.modFn i f).hlt j = s.hlt j := rfl
@[simp] theorem State.modFn_reg (s : State) (i : Pf) (f : HostFn → HostFn) (x y : Nat) : (s.modFn i f).reg x y = s.reg x y := rfl
@[simp] theorem State.modFn_dom (s : State) (i : Pf) (f : HostFn → HostFn) (x y : Nat) : (s.modFn i f).dom x y = s.dom x y := rfl

/-! ### modHealth -/

@[simp] theorem State.modHealth_time (s : State) (i : St) (f : Health → Health) : (s.modHealth i f).time = s.time := rfl
@[simp] theorem State.modHealth_stations (s : State) (i : St) (f : Health → Health) : (s.modHealth i f).stations = s.stations := rfl
@[simp] theorem State.modHealth_parts (s : State) (i : St) (f : Health → Health) : (s.modHealth i f).parts = s.parts := rfl
@[simp] theorem State.modHealth_mordants (s : State) (i : St) (f : Health → Health) : (s.modHealth i f).mordants = s.mordants := rfl
@[simp] theorem State.modHealth_mem (s : State) (i : St) (f : Health → Health) : (s.modHealth i f).mem = s.mem := rfl
@[simp] theorem State.modHealth_poison (s : State) (i : St) (f : Health → Health) : (s.modHealth i f).poison = s.poison := rfl
@[simp] theorem State.modHealth_stashPoison (s : State) (i : St) (f : Health → Health) : (s.modHealth i f).stashPoison = s.stashPoison := rfl
@[simp] theorem State.modHealth_fetches (s : State) (i : St) (f : Health → Health) : (s.modHealth i f).fetches = s.fetches := rfl
@[simp] theorem State.modHealth_writes (s : State) (i : St) (f : Health → Health) : (s.modHealth i f).writes = s.writes := rfl
@[simp] theorem State.modHealth_morOps (s : State) (i : St) (f : Health → Health) : (s.modHealth i f).morOps = s.morOps := rfl
@[simp] theorem State.modHealth_descs (s : State) (i : St) (f : Health → Health) : (s.modHealth i f).descs = s.descs := rfl
@[simp] theorem State.modHealth_xfers (s : State) (i : St) (f : Health → Health) : (s.modHealth i f).xfers = s.xfers := rfl
@[simp] theorem State.modHealth_towers (s : State) (i : St) (f : Health → Health) : (s.modHealth i f).towers = s.towers := rfl
@[simp] theorem State.modHealth_route (s : State) (i : St) (f : Health → Health) : (s.modHealth i f).route = s.route := rfl
@[simp] theorem State.modHealth_clk (s : State) (i : St) (f : Health → Health) : (s.modHealth i f).clk = s.clk := rfl
@[simp] theorem State.modHealth_pwr (s : State) (i : St) (f : Health → Health) : (s.modHealth i f).pwr = s.pwr := rfl
@[simp] theorem State.modHealth_stw (s : State) (i : St) (f : Health → Health) : (s.modHealth i f).stw = s.stw := rfl
@[simp] theorem State.modHealth_host (s : State) (i : St) (f : Health → Health) : (s.modHealth i f).host = s.host := rfl
@[simp] theorem State.modHealth_hostHeld (s : State) (i : St) (f : Health → Health) : (s.modHealth i f).hostHeld = s.hostHeld := rfl
@[simp] theorem State.modHealth_perst (s : State) (i : St) (f : Health → Health) : (s.modHealth i f).perst = s.perst := rfl
@[simp] theorem State.modHealth_ports (s : State) (i : St) (f : Health → Health) : (s.modHealth i f).ports = s.ports := rfl
@[simp] theorem State.modHealth_fab (s : State) (i : St) (f : Health → Health) : (s.modHealth i f).fab = s.fab := rfl
@[simp] theorem State.modHealth_dict (s : State) (i : St) (f : Health → Health) : (s.modHealth i f).dict = s.dict := rfl
@[simp] theorem State.modHealth_saved (s : State) (i : St) (f : Health → Health) : (s.modHealth i f).saved = s.saved := rfl
@[simp] theorem State.modHealth_doms (s : State) (i : St) (f : Health → Health) : (s.modHealth i f).doms = s.doms := rfl
@[simp] theorem State.modHealth_savedDoms (s : State) (i : St) (f : Health → Health) : (s.modHealth i f).savedDoms = s.savedDoms := rfl
@[simp] theorem State.modHealth_beat (s : State) (i : St) (f : Health → Health) : (s.modHealth i f).beat = s.beat := rfl
@[simp] theorem State.modHealth_faults (s : State) (i : St) (f : Health → Health) : (s.modHealth i f).faults = s.faults := rfl
@[simp] theorem State.modHealth_faultHold (s : State) (i : St) (f : Health → Health) : (s.modHealth i f).faultHold = s.faultHold := rfl
@[simp] theorem State.modHealth_faultLost (s : State) (i : St) (f : Health → Health) : (s.modHealth i f).faultLost = s.faultLost := rfl
@[simp] theorem State.modHealth_acked (s : State) (i : St) (f : Health → Health) : (s.modHealth i f).acked = s.acked := rfl
@[simp] theorem State.modHealth_seqNext (s : State) (i : St) (f : Health → Health) : (s.modHealth i f).seqNext = s.seqNext := rfl
@[simp] theorem State.modHealth_draws (s : State) (i : St) (f : Health → Health) : (s.modHealth i f).draws = s.draws := rfl
@[simp] theorem State.modHealth_out (s : State) (i : St) (f : Health → Health) : (s.modHealth i f).out = s.out := rfl
@[simp] theorem State.modHealth_pending (s : State) (i : St) (f : Health → Health) : (s.modHealth i f).pending = s.pending := rfl
@[simp] theorem State.modHealth_stn (s : State) (i : St) (f : Health → Health) (j : St) : (s.modHealth i f).stn j = s.stn j := rfl
@[simp] theorem State.modHealth_prt (s : State) (i : St) (f : Health → Health) (j : Part) : (s.modHealth i f).prt j = s.prt j := rfl
@[simp] theorem State.modHealth_twr (s : State) (i : St) (f : Health → Health) (j : Twr) : (s.modHealth i f).twr j = s.twr j := rfl
@[simp] theorem State.modHealth_fn (s : State) (i : St) (f : Health → Health) (j : Pf) : (s.modHealth i f).fn j = s.fn j := rfl
@[simp] theorem State.modHealth_reg (s : State) (i : St) (f : Health → Health) (x y : Nat) : (s.modHealth i f).reg x y = s.reg x y := rfl
@[simp] theorem State.modHealth_dom (s : State) (i : St) (f : Health → Health) (x y : Nat) : (s.modHealth i f).dom x y = s.dom x y := rfl

/-! ### modStw -/

@[simp] theorem State.modStw_time (s : State) (f : Steward → Steward) : (s.modStw f).time = s.time := rfl
@[simp] theorem State.modStw_stations (s : State) (f : Steward → Steward) : (s.modStw f).stations = s.stations := rfl
@[simp] theorem State.modStw_parts (s : State) (f : Steward → Steward) : (s.modStw f).parts = s.parts := rfl
@[simp] theorem State.modStw_mordants (s : State) (f : Steward → Steward) : (s.modStw f).mordants = s.mordants := rfl
@[simp] theorem State.modStw_mem (s : State) (f : Steward → Steward) : (s.modStw f).mem = s.mem := rfl
@[simp] theorem State.modStw_poison (s : State) (f : Steward → Steward) : (s.modStw f).poison = s.poison := rfl
@[simp] theorem State.modStw_stashPoison (s : State) (f : Steward → Steward) : (s.modStw f).stashPoison = s.stashPoison := rfl
@[simp] theorem State.modStw_fetches (s : State) (f : Steward → Steward) : (s.modStw f).fetches = s.fetches := rfl
@[simp] theorem State.modStw_writes (s : State) (f : Steward → Steward) : (s.modStw f).writes = s.writes := rfl
@[simp] theorem State.modStw_morOps (s : State) (f : Steward → Steward) : (s.modStw f).morOps = s.morOps := rfl
@[simp] theorem State.modStw_descs (s : State) (f : Steward → Steward) : (s.modStw f).descs = s.descs := rfl
@[simp] theorem State.modStw_xfers (s : State) (f : Steward → Steward) : (s.modStw f).xfers = s.xfers := rfl
@[simp] theorem State.modStw_towers (s : State) (f : Steward → Steward) : (s.modStw f).towers = s.towers := rfl
@[simp] theorem State.modStw_route (s : State) (f : Steward → Steward) : (s.modStw f).route = s.route := rfl
@[simp] theorem State.modStw_clk (s : State) (f : Steward → Steward) : (s.modStw f).clk = s.clk := rfl
@[simp] theorem State.modStw_pwr (s : State) (f : Steward → Steward) : (s.modStw f).pwr = s.pwr := rfl
@[simp] theorem State.modStw_host (s : State) (f : Steward → Steward) : (s.modStw f).host = s.host := rfl
@[simp] theorem State.modStw_hostHeld (s : State) (f : Steward → Steward) : (s.modStw f).hostHeld = s.hostHeld := rfl
@[simp] theorem State.modStw_perst (s : State) (f : Steward → Steward) : (s.modStw f).perst = s.perst := rfl
@[simp] theorem State.modStw_ports (s : State) (f : Steward → Steward) : (s.modStw f).ports = s.ports := rfl
@[simp] theorem State.modStw_fab (s : State) (f : Steward → Steward) : (s.modStw f).fab = s.fab := rfl
@[simp] theorem State.modStw_health (s : State) (f : Steward → Steward) : (s.modStw f).health = s.health := rfl
@[simp] theorem State.modStw_dict (s : State) (f : Steward → Steward) : (s.modStw f).dict = s.dict := rfl
@[simp] theorem State.modStw_saved (s : State) (f : Steward → Steward) : (s.modStw f).saved = s.saved := rfl
@[simp] theorem State.modStw_doms (s : State) (f : Steward → Steward) : (s.modStw f).doms = s.doms := rfl
@[simp] theorem State.modStw_savedDoms (s : State) (f : Steward → Steward) : (s.modStw f).savedDoms = s.savedDoms := rfl
@[simp] theorem State.modStw_beat (s : State) (f : Steward → Steward) : (s.modStw f).beat = s.beat := rfl
@[simp] theorem State.modStw_faults (s : State) (f : Steward → Steward) : (s.modStw f).faults = s.faults := rfl
@[simp] theorem State.modStw_faultHold (s : State) (f : Steward → Steward) : (s.modStw f).faultHold = s.faultHold := rfl
@[simp] theorem State.modStw_faultLost (s : State) (f : Steward → Steward) : (s.modStw f).faultLost = s.faultLost := rfl
@[simp] theorem State.modStw_acked (s : State) (f : Steward → Steward) : (s.modStw f).acked = s.acked := rfl
@[simp] theorem State.modStw_seqNext (s : State) (f : Steward → Steward) : (s.modStw f).seqNext = s.seqNext := rfl
@[simp] theorem State.modStw_draws (s : State) (f : Steward → Steward) : (s.modStw f).draws = s.draws := rfl
@[simp] theorem State.modStw_out (s : State) (f : Steward → Steward) : (s.modStw f).out = s.out := rfl
@[simp] theorem State.modStw_pending (s : State) (f : Steward → Steward) : (s.modStw f).pending = s.pending := rfl
@[simp] theorem State.modStw_stn (s : State) (f : Steward → Steward) (j : St) : (s.modStw f).stn j = s.stn j := rfl
@[simp] theorem State.modStw_prt (s : State) (f : Steward → Steward) (j : Part) : (s.modStw f).prt j = s.prt j := rfl
@[simp] theorem State.modStw_twr (s : State) (f : Steward → Steward) (j : Twr) : (s.modStw f).twr j = s.twr j := rfl
@[simp] theorem State.modStw_fn (s : State) (f : Steward → Steward) (j : Pf) : (s.modStw f).fn j = s.fn j := rfl
@[simp] theorem State.modStw_hlt (s : State) (f : Steward → Steward) (j : St) : (s.modStw f).hlt j = s.hlt j := rfl
@[simp] theorem State.modStw_reg (s : State) (f : Steward → Steward) (x y : Nat) : (s.modStw f).reg x y = s.reg x y := rfl
@[simp] theorem State.modStw_dom (s : State) (f : Steward → Steward) (x y : Nat) : (s.modStw f).dom x y = s.dom x y := rfl

/-! ### modPwr -/

@[simp] theorem State.modPwr_time (s : State) (f : Power → Power) : (s.modPwr f).time = s.time := rfl
@[simp] theorem State.modPwr_stations (s : State) (f : Power → Power) : (s.modPwr f).stations = s.stations := rfl
@[simp] theorem State.modPwr_parts (s : State) (f : Power → Power) : (s.modPwr f).parts = s.parts := rfl
@[simp] theorem State.modPwr_mordants (s : State) (f : Power → Power) : (s.modPwr f).mordants = s.mordants := rfl
@[simp] theorem State.modPwr_mem (s : State) (f : Power → Power) : (s.modPwr f).mem = s.mem := rfl
@[simp] theorem State.modPwr_poison (s : State) (f : Power → Power) : (s.modPwr f).poison = s.poison := rfl
@[simp] theorem State.modPwr_stashPoison (s : State) (f : Power → Power) : (s.modPwr f).stashPoison = s.stashPoison := rfl
@[simp] theorem State.modPwr_fetches (s : State) (f : Power → Power) : (s.modPwr f).fetches = s.fetches := rfl
@[simp] theorem State.modPwr_writes (s : State) (f : Power → Power) : (s.modPwr f).writes = s.writes := rfl
@[simp] theorem State.modPwr_morOps (s : State) (f : Power → Power) : (s.modPwr f).morOps = s.morOps := rfl
@[simp] theorem State.modPwr_descs (s : State) (f : Power → Power) : (s.modPwr f).descs = s.descs := rfl
@[simp] theorem State.modPwr_xfers (s : State) (f : Power → Power) : (s.modPwr f).xfers = s.xfers := rfl
@[simp] theorem State.modPwr_towers (s : State) (f : Power → Power) : (s.modPwr f).towers = s.towers := rfl
@[simp] theorem State.modPwr_route (s : State) (f : Power → Power) : (s.modPwr f).route = s.route := rfl
@[simp] theorem State.modPwr_clk (s : State) (f : Power → Power) : (s.modPwr f).clk = s.clk := rfl
@[simp] theorem State.modPwr_stw (s : State) (f : Power → Power) : (s.modPwr f).stw = s.stw := rfl
@[simp] theorem State.modPwr_host (s : State) (f : Power → Power) : (s.modPwr f).host = s.host := rfl
@[simp] theorem State.modPwr_hostHeld (s : State) (f : Power → Power) : (s.modPwr f).hostHeld = s.hostHeld := rfl
@[simp] theorem State.modPwr_perst (s : State) (f : Power → Power) : (s.modPwr f).perst = s.perst := rfl
@[simp] theorem State.modPwr_ports (s : State) (f : Power → Power) : (s.modPwr f).ports = s.ports := rfl
@[simp] theorem State.modPwr_fab (s : State) (f : Power → Power) : (s.modPwr f).fab = s.fab := rfl
@[simp] theorem State.modPwr_health (s : State) (f : Power → Power) : (s.modPwr f).health = s.health := rfl
@[simp] theorem State.modPwr_dict (s : State) (f : Power → Power) : (s.modPwr f).dict = s.dict := rfl
@[simp] theorem State.modPwr_saved (s : State) (f : Power → Power) : (s.modPwr f).saved = s.saved := rfl
@[simp] theorem State.modPwr_doms (s : State) (f : Power → Power) : (s.modPwr f).doms = s.doms := rfl
@[simp] theorem State.modPwr_savedDoms (s : State) (f : Power → Power) : (s.modPwr f).savedDoms = s.savedDoms := rfl
@[simp] theorem State.modPwr_beat (s : State) (f : Power → Power) : (s.modPwr f).beat = s.beat := rfl
@[simp] theorem State.modPwr_faults (s : State) (f : Power → Power) : (s.modPwr f).faults = s.faults := rfl
@[simp] theorem State.modPwr_faultHold (s : State) (f : Power → Power) : (s.modPwr f).faultHold = s.faultHold := rfl
@[simp] theorem State.modPwr_faultLost (s : State) (f : Power → Power) : (s.modPwr f).faultLost = s.faultLost := rfl
@[simp] theorem State.modPwr_acked (s : State) (f : Power → Power) : (s.modPwr f).acked = s.acked := rfl
@[simp] theorem State.modPwr_seqNext (s : State) (f : Power → Power) : (s.modPwr f).seqNext = s.seqNext := rfl
@[simp] theorem State.modPwr_draws (s : State) (f : Power → Power) : (s.modPwr f).draws = s.draws := rfl
@[simp] theorem State.modPwr_out (s : State) (f : Power → Power) : (s.modPwr f).out = s.out := rfl
@[simp] theorem State.modPwr_pending (s : State) (f : Power → Power) : (s.modPwr f).pending = s.pending := rfl
@[simp] theorem State.modPwr_stn (s : State) (f : Power → Power) (j : St) : (s.modPwr f).stn j = s.stn j := rfl
@[simp] theorem State.modPwr_prt (s : State) (f : Power → Power) (j : Part) : (s.modPwr f).prt j = s.prt j := rfl
@[simp] theorem State.modPwr_twr (s : State) (f : Power → Power) (j : Twr) : (s.modPwr f).twr j = s.twr j := rfl
@[simp] theorem State.modPwr_fn (s : State) (f : Power → Power) (j : Pf) : (s.modPwr f).fn j = s.fn j := rfl
@[simp] theorem State.modPwr_hlt (s : State) (f : Power → Power) (j : St) : (s.modPwr f).hlt j = s.hlt j := rfl
@[simp] theorem State.modPwr_reg (s : State) (f : Power → Power) (x y : Nat) : (s.modPwr f).reg x y = s.reg x y := rfl
@[simp] theorem State.modPwr_dom (s : State) (f : Power → Power) (x y : Nat) : (s.modPwr f).dom x y = s.dom x y := rfl

/-! ### emit -/

@[simp] theorem State.emit_time (s : State) (o : Output) : (s.emit o).time = s.time := rfl
@[simp] theorem State.emit_stations (s : State) (o : Output) : (s.emit o).stations = s.stations := rfl
@[simp] theorem State.emit_parts (s : State) (o : Output) : (s.emit o).parts = s.parts := rfl
@[simp] theorem State.emit_mordants (s : State) (o : Output) : (s.emit o).mordants = s.mordants := rfl
@[simp] theorem State.emit_mem (s : State) (o : Output) : (s.emit o).mem = s.mem := rfl
@[simp] theorem State.emit_poison (s : State) (o : Output) : (s.emit o).poison = s.poison := rfl
@[simp] theorem State.emit_stashPoison (s : State) (o : Output) : (s.emit o).stashPoison = s.stashPoison := rfl
@[simp] theorem State.emit_fetches (s : State) (o : Output) : (s.emit o).fetches = s.fetches := rfl
@[simp] theorem State.emit_writes (s : State) (o : Output) : (s.emit o).writes = s.writes := rfl
@[simp] theorem State.emit_morOps (s : State) (o : Output) : (s.emit o).morOps = s.morOps := rfl
@[simp] theorem State.emit_descs (s : State) (o : Output) : (s.emit o).descs = s.descs := rfl
@[simp] theorem State.emit_xfers (s : State) (o : Output) : (s.emit o).xfers = s.xfers := rfl
@[simp] theorem State.emit_towers (s : State) (o : Output) : (s.emit o).towers = s.towers := rfl
@[simp] theorem State.emit_route (s : State) (o : Output) : (s.emit o).route = s.route := rfl
@[simp] theorem State.emit_clk (s : State) (o : Output) : (s.emit o).clk = s.clk := rfl
@[simp] theorem State.emit_pwr (s : State) (o : Output) : (s.emit o).pwr = s.pwr := rfl
@[simp] theorem State.emit_stw (s : State) (o : Output) : (s.emit o).stw = s.stw := rfl
@[simp] theorem State.emit_host (s : State) (o : Output) : (s.emit o).host = s.host := rfl
@[simp] theorem State.emit_hostHeld (s : State) (o : Output) : (s.emit o).hostHeld = s.hostHeld := rfl
@[simp] theorem State.emit_perst (s : State) (o : Output) : (s.emit o).perst = s.perst := rfl
@[simp] theorem State.emit_ports (s : State) (o : Output) : (s.emit o).ports = s.ports := rfl
@[simp] theorem State.emit_fab (s : State) (o : Output) : (s.emit o).fab = s.fab := rfl
@[simp] theorem State.emit_health (s : State) (o : Output) : (s.emit o).health = s.health := rfl
@[simp] theorem State.emit_dict (s : State) (o : Output) : (s.emit o).dict = s.dict := rfl
@[simp] theorem State.emit_saved (s : State) (o : Output) : (s.emit o).saved = s.saved := rfl
@[simp] theorem State.emit_doms (s : State) (o : Output) : (s.emit o).doms = s.doms := rfl
@[simp] theorem State.emit_savedDoms (s : State) (o : Output) : (s.emit o).savedDoms = s.savedDoms := rfl
@[simp] theorem State.emit_beat (s : State) (o : Output) : (s.emit o).beat = s.beat := rfl
@[simp] theorem State.emit_faults (s : State) (o : Output) : (s.emit o).faults = s.faults := rfl
@[simp] theorem State.emit_faultHold (s : State) (o : Output) : (s.emit o).faultHold = s.faultHold := rfl
@[simp] theorem State.emit_faultLost (s : State) (o : Output) : (s.emit o).faultLost = s.faultLost := rfl
@[simp] theorem State.emit_acked (s : State) (o : Output) : (s.emit o).acked = s.acked := rfl
@[simp] theorem State.emit_seqNext (s : State) (o : Output) : (s.emit o).seqNext = s.seqNext := rfl
@[simp] theorem State.emit_draws (s : State) (o : Output) : (s.emit o).draws = s.draws := rfl
@[simp] theorem State.emit_pending (s : State) (o : Output) : (s.emit o).pending = s.pending := rfl
@[simp] theorem State.emit_stn (s : State) (o : Output) (j : St) : (s.emit o).stn j = s.stn j := rfl
@[simp] theorem State.emit_prt (s : State) (o : Output) (j : Part) : (s.emit o).prt j = s.prt j := rfl
@[simp] theorem State.emit_twr (s : State) (o : Output) (j : Twr) : (s.emit o).twr j = s.twr j := rfl
@[simp] theorem State.emit_fn (s : State) (o : Output) (j : Pf) : (s.emit o).fn j = s.fn j := rfl
@[simp] theorem State.emit_hlt (s : State) (o : Output) (j : St) : (s.emit o).hlt j = s.hlt j := rfl
@[simp] theorem State.emit_reg (s : State) (o : Output) (x y : Nat) : (s.emit o).reg x y = s.reg x y := rfl
@[simp] theorem State.emit_dom (s : State) (o : Output) (x y : Nat) : (s.emit o).dom x y = s.dom x y := rfl

/-! ### setReg -/

@[simp] theorem State.setReg_time (s : State) (a b c : Nat) : (s.setReg a b c).time = s.time := rfl
@[simp] theorem State.setReg_stations (s : State) (a b c : Nat) : (s.setReg a b c).stations = s.stations := rfl
@[simp] theorem State.setReg_parts (s : State) (a b c : Nat) : (s.setReg a b c).parts = s.parts := rfl
@[simp] theorem State.setReg_mordants (s : State) (a b c : Nat) : (s.setReg a b c).mordants = s.mordants := rfl
@[simp] theorem State.setReg_mem (s : State) (a b c : Nat) : (s.setReg a b c).mem = s.mem := rfl
@[simp] theorem State.setReg_poison (s : State) (a b c : Nat) : (s.setReg a b c).poison = s.poison := rfl
@[simp] theorem State.setReg_stashPoison (s : State) (a b c : Nat) : (s.setReg a b c).stashPoison = s.stashPoison := rfl
@[simp] theorem State.setReg_fetches (s : State) (a b c : Nat) : (s.setReg a b c).fetches = s.fetches := rfl
@[simp] theorem State.setReg_writes (s : State) (a b c : Nat) : (s.setReg a b c).writes = s.writes := rfl
@[simp] theorem State.setReg_morOps (s : State) (a b c : Nat) : (s.setReg a b c).morOps = s.morOps := rfl
@[simp] theorem State.setReg_descs (s : State) (a b c : Nat) : (s.setReg a b c).descs = s.descs := rfl
@[simp] theorem State.setReg_xfers (s : State) (a b c : Nat) : (s.setReg a b c).xfers = s.xfers := rfl
@[simp] theorem State.setReg_towers (s : State) (a b c : Nat) : (s.setReg a b c).towers = s.towers := rfl
@[simp] theorem State.setReg_route (s : State) (a b c : Nat) : (s.setReg a b c).route = s.route := rfl
@[simp] theorem State.setReg_clk (s : State) (a b c : Nat) : (s.setReg a b c).clk = s.clk := rfl
@[simp] theorem State.setReg_pwr (s : State) (a b c : Nat) : (s.setReg a b c).pwr = s.pwr := rfl
@[simp] theorem State.setReg_stw (s : State) (a b c : Nat) : (s.setReg a b c).stw = s.stw := rfl
@[simp] theorem State.setReg_host (s : State) (a b c : Nat) : (s.setReg a b c).host = s.host := rfl
@[simp] theorem State.setReg_hostHeld (s : State) (a b c : Nat) : (s.setReg a b c).hostHeld = s.hostHeld := rfl
@[simp] theorem State.setReg_perst (s : State) (a b c : Nat) : (s.setReg a b c).perst = s.perst := rfl
@[simp] theorem State.setReg_ports (s : State) (a b c : Nat) : (s.setReg a b c).ports = s.ports := rfl
@[simp] theorem State.setReg_fab (s : State) (a b c : Nat) : (s.setReg a b c).fab = s.fab := rfl
@[simp] theorem State.setReg_health (s : State) (a b c : Nat) : (s.setReg a b c).health = s.health := rfl
@[simp] theorem State.setReg_saved (s : State) (a b c : Nat) : (s.setReg a b c).saved = s.saved := rfl
@[simp] theorem State.setReg_doms (s : State) (a b c : Nat) : (s.setReg a b c).doms = s.doms := rfl
@[simp] theorem State.setReg_savedDoms (s : State) (a b c : Nat) : (s.setReg a b c).savedDoms = s.savedDoms := rfl
@[simp] theorem State.setReg_beat (s : State) (a b c : Nat) : (s.setReg a b c).beat = s.beat := rfl
@[simp] theorem State.setReg_faults (s : State) (a b c : Nat) : (s.setReg a b c).faults = s.faults := rfl
@[simp] theorem State.setReg_faultHold (s : State) (a b c : Nat) : (s.setReg a b c).faultHold = s.faultHold := rfl
@[simp] theorem State.setReg_faultLost (s : State) (a b c : Nat) : (s.setReg a b c).faultLost = s.faultLost := rfl
@[simp] theorem State.setReg_acked (s : State) (a b c : Nat) : (s.setReg a b c).acked = s.acked := rfl
@[simp] theorem State.setReg_seqNext (s : State) (a b c : Nat) : (s.setReg a b c).seqNext = s.seqNext := rfl
@[simp] theorem State.setReg_draws (s : State) (a b c : Nat) : (s.setReg a b c).draws = s.draws := rfl
@[simp] theorem State.setReg_out (s : State) (a b c : Nat) : (s.setReg a b c).out = s.out := rfl
@[simp] theorem State.setReg_pending (s : State) (a b c : Nat) : (s.setReg a b c).pending = s.pending := rfl
@[simp] theorem State.setReg_stn (s : State) (a b c : Nat) (j : St) : (s.setReg a b c).stn j = s.stn j := rfl
@[simp] theorem State.setReg_prt (s : State) (a b c : Nat) (j : Part) : (s.setReg a b c).prt j = s.prt j := rfl
@[simp] theorem State.setReg_twr (s : State) (a b c : Nat) (j : Twr) : (s.setReg a b c).twr j = s.twr j := rfl
@[simp] theorem State.setReg_fn (s : State) (a b c : Nat) (j : Pf) : (s.setReg a b c).fn j = s.fn j := rfl
@[simp] theorem State.setReg_hlt (s : State) (a b c : Nat) (j : St) : (s.setReg a b c).hlt j = s.hlt j := rfl
@[simp] theorem State.setReg_dom (s : State) (a b c : Nat) (x y : Nat) : (s.setReg a b c).dom x y = s.dom x y := rfl

/-! ### setDom -/

@[simp] theorem State.setDom_time (s : State) (a b : Nat) (v : List Byte) : (s.setDom a b v).time = s.time := rfl
@[simp] theorem State.setDom_stations (s : State) (a b : Nat) (v : List Byte) : (s.setDom a b v).stations = s.stations := rfl
@[simp] theorem State.setDom_parts (s : State) (a b : Nat) (v : List Byte) : (s.setDom a b v).parts = s.parts := rfl
@[simp] theorem State.setDom_mordants (s : State) (a b : Nat) (v : List Byte) : (s.setDom a b v).mordants = s.mordants := rfl
@[simp] theorem State.setDom_mem (s : State) (a b : Nat) (v : List Byte) : (s.setDom a b v).mem = s.mem := rfl
@[simp] theorem State.setDom_poison (s : State) (a b : Nat) (v : List Byte) : (s.setDom a b v).poison = s.poison := rfl
@[simp] theorem State.setDom_stashPoison (s : State) (a b : Nat) (v : List Byte) : (s.setDom a b v).stashPoison = s.stashPoison := rfl
@[simp] theorem State.setDom_fetches (s : State) (a b : Nat) (v : List Byte) : (s.setDom a b v).fetches = s.fetches := rfl
@[simp] theorem State.setDom_writes (s : State) (a b : Nat) (v : List Byte) : (s.setDom a b v).writes = s.writes := rfl
@[simp] theorem State.setDom_morOps (s : State) (a b : Nat) (v : List Byte) : (s.setDom a b v).morOps = s.morOps := rfl
@[simp] theorem State.setDom_descs (s : State) (a b : Nat) (v : List Byte) : (s.setDom a b v).descs = s.descs := rfl
@[simp] theorem State.setDom_xfers (s : State) (a b : Nat) (v : List Byte) : (s.setDom a b v).xfers = s.xfers := rfl
@[simp] theorem State.setDom_towers (s : State) (a b : Nat) (v : List Byte) : (s.setDom a b v).towers = s.towers := rfl
@[simp] theorem State.setDom_route (s : State) (a b : Nat) (v : List Byte) : (s.setDom a b v).route = s.route := rfl
@[simp] theorem State.setDom_clk (s : State) (a b : Nat) (v : List Byte) : (s.setDom a b v).clk = s.clk := rfl
@[simp] theorem State.setDom_pwr (s : State) (a b : Nat) (v : List Byte) : (s.setDom a b v).pwr = s.pwr := rfl
@[simp] theorem State.setDom_stw (s : State) (a b : Nat) (v : List Byte) : (s.setDom a b v).stw = s.stw := rfl
@[simp] theorem State.setDom_host (s : State) (a b : Nat) (v : List Byte) : (s.setDom a b v).host = s.host := rfl
@[simp] theorem State.setDom_hostHeld (s : State) (a b : Nat) (v : List Byte) : (s.setDom a b v).hostHeld = s.hostHeld := rfl
@[simp] theorem State.setDom_perst (s : State) (a b : Nat) (v : List Byte) : (s.setDom a b v).perst = s.perst := rfl
@[simp] theorem State.setDom_ports (s : State) (a b : Nat) (v : List Byte) : (s.setDom a b v).ports = s.ports := rfl
@[simp] theorem State.setDom_fab (s : State) (a b : Nat) (v : List Byte) : (s.setDom a b v).fab = s.fab := rfl
@[simp] theorem State.setDom_health (s : State) (a b : Nat) (v : List Byte) : (s.setDom a b v).health = s.health := rfl
@[simp] theorem State.setDom_dict (s : State) (a b : Nat) (v : List Byte) : (s.setDom a b v).dict = s.dict := rfl
@[simp] theorem State.setDom_saved (s : State) (a b : Nat) (v : List Byte) : (s.setDom a b v).saved = s.saved := rfl
@[simp] theorem State.setDom_savedDoms (s : State) (a b : Nat) (v : List Byte) : (s.setDom a b v).savedDoms = s.savedDoms := rfl
@[simp] theorem State.setDom_beat (s : State) (a b : Nat) (v : List Byte) : (s.setDom a b v).beat = s.beat := rfl
@[simp] theorem State.setDom_faults (s : State) (a b : Nat) (v : List Byte) : (s.setDom a b v).faults = s.faults := rfl
@[simp] theorem State.setDom_faultHold (s : State) (a b : Nat) (v : List Byte) : (s.setDom a b v).faultHold = s.faultHold := rfl
@[simp] theorem State.setDom_faultLost (s : State) (a b : Nat) (v : List Byte) : (s.setDom a b v).faultLost = s.faultLost := rfl
@[simp] theorem State.setDom_acked (s : State) (a b : Nat) (v : List Byte) : (s.setDom a b v).acked = s.acked := rfl
@[simp] theorem State.setDom_seqNext (s : State) (a b : Nat) (v : List Byte) : (s.setDom a b v).seqNext = s.seqNext := rfl
@[simp] theorem State.setDom_draws (s : State) (a b : Nat) (v : List Byte) : (s.setDom a b v).draws = s.draws := rfl
@[simp] theorem State.setDom_out (s : State) (a b : Nat) (v : List Byte) : (s.setDom a b v).out = s.out := rfl
@[simp] theorem State.setDom_pending (s : State) (a b : Nat) (v : List Byte) : (s.setDom a b v).pending = s.pending := rfl
@[simp] theorem State.setDom_stn (s : State) (a b : Nat) (v : List Byte) (j : St) : (s.setDom a b v).stn j = s.stn j := rfl
@[simp] theorem State.setDom_prt (s : State) (a b : Nat) (v : List Byte) (j : Part) : (s.setDom a b v).prt j = s.prt j := rfl
@[simp] theorem State.setDom_twr (s : State) (a b : Nat) (v : List Byte) (j : Twr) : (s.setDom a b v).twr j = s.twr j := rfl
@[simp] theorem State.setDom_fn (s : State) (a b : Nat) (v : List Byte) (j : Pf) : (s.setDom a b v).fn j = s.fn j := rfl
@[simp] theorem State.setDom_hlt (s : State) (a b : Nat) (v : List Byte) (j : St) : (s.setDom a b v).hlt j = s.hlt j := rfl
@[simp] theorem State.setDom_reg (s : State) (a b : Nat) (v : List Byte) (x y : Nat) : (s.setDom a b v).reg x y = s.reg x y := rfl

/-! ### setMor -/

@[simp] theorem State.setMor_time (s : State) (a : Nat) (v : Mordant) : (s.setMor a v).time = s.time := rfl
@[simp] theorem State.setMor_stations (s : State) (a : Nat) (v : Mordant) : (s.setMor a v).stations = s.stations := rfl
@[simp] theorem State.setMor_parts (s : State) (a : Nat) (v : Mordant) : (s.setMor a v).parts = s.parts := rfl
@[simp] theorem State.setMor_mem (s : State) (a : Nat) (v : Mordant) : (s.setMor a v).mem = s.mem := rfl
@[simp] theorem State.setMor_poison (s : State) (a : Nat) (v : Mordant) : (s.setMor a v).poison = s.poison := rfl
@[simp] theorem State.setMor_stashPoison (s : State) (a : Nat) (v : Mordant) : (s.setMor a v).stashPoison = s.stashPoison := rfl
@[simp] theorem State.setMor_fetches (s : State) (a : Nat) (v : Mordant) : (s.setMor a v).fetches = s.fetches := rfl
@[simp] theorem State.setMor_writes (s : State) (a : Nat) (v : Mordant) : (s.setMor a v).writes = s.writes := rfl
@[simp] theorem State.setMor_morOps (s : State) (a : Nat) (v : Mordant) : (s.setMor a v).morOps = s.morOps := rfl
@[simp] theorem State.setMor_descs (s : State) (a : Nat) (v : Mordant) : (s.setMor a v).descs = s.descs := rfl
@[simp] theorem State.setMor_xfers (s : State) (a : Nat) (v : Mordant) : (s.setMor a v).xfers = s.xfers := rfl
@[simp] theorem State.setMor_towers (s : State) (a : Nat) (v : Mordant) : (s.setMor a v).towers = s.towers := rfl
@[simp] theorem State.setMor_route (s : State) (a : Nat) (v : Mordant) : (s.setMor a v).route = s.route := rfl
@[simp] theorem State.setMor_clk (s : State) (a : Nat) (v : Mordant) : (s.setMor a v).clk = s.clk := rfl
@[simp] theorem State.setMor_pwr (s : State) (a : Nat) (v : Mordant) : (s.setMor a v).pwr = s.pwr := rfl
@[simp] theorem State.setMor_stw (s : State) (a : Nat) (v : Mordant) : (s.setMor a v).stw = s.stw := rfl
@[simp] theorem State.setMor_host (s : State) (a : Nat) (v : Mordant) : (s.setMor a v).host = s.host := rfl
@[simp] theorem State.setMor_hostHeld (s : State) (a : Nat) (v : Mordant) : (s.setMor a v).hostHeld = s.hostHeld := rfl
@[simp] theorem State.setMor_perst (s : State) (a : Nat) (v : Mordant) : (s.setMor a v).perst = s.perst := rfl
@[simp] theorem State.setMor_ports (s : State) (a : Nat) (v : Mordant) : (s.setMor a v).ports = s.ports := rfl
@[simp] theorem State.setMor_fab (s : State) (a : Nat) (v : Mordant) : (s.setMor a v).fab = s.fab := rfl
@[simp] theorem State.setMor_health (s : State) (a : Nat) (v : Mordant) : (s.setMor a v).health = s.health := rfl
@[simp] theorem State.setMor_dict (s : State) (a : Nat) (v : Mordant) : (s.setMor a v).dict = s.dict := rfl
@[simp] theorem State.setMor_saved (s : State) (a : Nat) (v : Mordant) : (s.setMor a v).saved = s.saved := rfl
@[simp] theorem State.setMor_doms (s : State) (a : Nat) (v : Mordant) : (s.setMor a v).doms = s.doms := rfl
@[simp] theorem State.setMor_savedDoms (s : State) (a : Nat) (v : Mordant) : (s.setMor a v).savedDoms = s.savedDoms := rfl
@[simp] theorem State.setMor_beat (s : State) (a : Nat) (v : Mordant) : (s.setMor a v).beat = s.beat := rfl
@[simp] theorem State.setMor_faults (s : State) (a : Nat) (v : Mordant) : (s.setMor a v).faults = s.faults := rfl
@[simp] theorem State.setMor_faultHold (s : State) (a : Nat) (v : Mordant) : (s.setMor a v).faultHold = s.faultHold := rfl
@[simp] theorem State.setMor_faultLost (s : State) (a : Nat) (v : Mordant) : (s.setMor a v).faultLost = s.faultLost := rfl
@[simp] theorem State.setMor_acked (s : State) (a : Nat) (v : Mordant) : (s.setMor a v).acked = s.acked := rfl
@[simp] theorem State.setMor_seqNext (s : State) (a : Nat) (v : Mordant) : (s.setMor a v).seqNext = s.seqNext := rfl
@[simp] theorem State.setMor_draws (s : State) (a : Nat) (v : Mordant) : (s.setMor a v).draws = s.draws := rfl
@[simp] theorem State.setMor_out (s : State) (a : Nat) (v : Mordant) : (s.setMor a v).out = s.out := rfl
@[simp] theorem State.setMor_pending (s : State) (a : Nat) (v : Mordant) : (s.setMor a v).pending = s.pending := rfl
@[simp] theorem State.setMor_stn (s : State) (a : Nat) (v : Mordant) (j : St) : (s.setMor a v).stn j = s.stn j := rfl
@[simp] theorem State.setMor_prt (s : State) (a : Nat) (v : Mordant) (j : Part) : (s.setMor a v).prt j = s.prt j := rfl
@[simp] theorem State.setMor_twr (s : State) (a : Nat) (v : Mordant) (j : Twr) : (s.setMor a v).twr j = s.twr j := rfl
@[simp] theorem State.setMor_fn (s : State) (a : Nat) (v : Mordant) (j : Pf) : (s.setMor a v).fn j = s.fn j := rfl
@[simp] theorem State.setMor_hlt (s : State) (a : Nat) (v : Mordant) (j : St) : (s.setMor a v).hlt j = s.hlt j := rfl
@[simp] theorem State.setMor_reg (s : State) (a : Nat) (v : Mordant) (x y : Nat) : (s.setMor a v).reg x y = s.reg x y := rfl
@[simp] theorem State.setMor_dom (s : State) (a : Nat) (v : Mordant) (x y : Nat) : (s.setMor a v).dom x y = s.dom x y := rfl

/-! ### putByte -/

@[simp] theorem State.putByte_time (s : State) (a : Nat) (v : Byte) : (s.putByte a v).time = s.time := rfl
@[simp] theorem State.putByte_stations (s : State) (a : Nat) (v : Byte) : (s.putByte a v).stations = s.stations := rfl
@[simp] theorem State.putByte_parts (s : State) (a : Nat) (v : Byte) : (s.putByte a v).parts = s.parts := rfl
@[simp] theorem State.putByte_mordants (s : State) (a : Nat) (v : Byte) : (s.putByte a v).mordants = s.mordants := rfl
@[simp] theorem State.putByte_poison (s : State) (a : Nat) (v : Byte) : (s.putByte a v).poison = s.poison := rfl
@[simp] theorem State.putByte_stashPoison (s : State) (a : Nat) (v : Byte) : (s.putByte a v).stashPoison = s.stashPoison := rfl
@[simp] theorem State.putByte_fetches (s : State) (a : Nat) (v : Byte) : (s.putByte a v).fetches = s.fetches := rfl
@[simp] theorem State.putByte_writes (s : State) (a : Nat) (v : Byte) : (s.putByte a v).writes = s.writes := rfl
@[simp] theorem State.putByte_morOps (s : State) (a : Nat) (v : Byte) : (s.putByte a v).morOps = s.morOps := rfl
@[simp] theorem State.putByte_descs (s : State) (a : Nat) (v : Byte) : (s.putByte a v).descs = s.descs := rfl
@[simp] theorem State.putByte_xfers (s : State) (a : Nat) (v : Byte) : (s.putByte a v).xfers = s.xfers := rfl
@[simp] theorem State.putByte_towers (s : State) (a : Nat) (v : Byte) : (s.putByte a v).towers = s.towers := rfl
@[simp] theorem State.putByte_route (s : State) (a : Nat) (v : Byte) : (s.putByte a v).route = s.route := rfl
@[simp] theorem State.putByte_clk (s : State) (a : Nat) (v : Byte) : (s.putByte a v).clk = s.clk := rfl
@[simp] theorem State.putByte_pwr (s : State) (a : Nat) (v : Byte) : (s.putByte a v).pwr = s.pwr := rfl
@[simp] theorem State.putByte_stw (s : State) (a : Nat) (v : Byte) : (s.putByte a v).stw = s.stw := rfl
@[simp] theorem State.putByte_host (s : State) (a : Nat) (v : Byte) : (s.putByte a v).host = s.host := rfl
@[simp] theorem State.putByte_hostHeld (s : State) (a : Nat) (v : Byte) : (s.putByte a v).hostHeld = s.hostHeld := rfl
@[simp] theorem State.putByte_perst (s : State) (a : Nat) (v : Byte) : (s.putByte a v).perst = s.perst := rfl
@[simp] theorem State.putByte_ports (s : State) (a : Nat) (v : Byte) : (s.putByte a v).ports = s.ports := rfl
@[simp] theorem State.putByte_fab (s : State) (a : Nat) (v : Byte) : (s.putByte a v).fab = s.fab := rfl
@[simp] theorem State.putByte_health (s : State) (a : Nat) (v : Byte) : (s.putByte a v).health = s.health := rfl
@[simp] theorem State.putByte_dict (s : State) (a : Nat) (v : Byte) : (s.putByte a v).dict = s.dict := rfl
@[simp] theorem State.putByte_saved (s : State) (a : Nat) (v : Byte) : (s.putByte a v).saved = s.saved := rfl
@[simp] theorem State.putByte_doms (s : State) (a : Nat) (v : Byte) : (s.putByte a v).doms = s.doms := rfl
@[simp] theorem State.putByte_savedDoms (s : State) (a : Nat) (v : Byte) : (s.putByte a v).savedDoms = s.savedDoms := rfl
@[simp] theorem State.putByte_beat (s : State) (a : Nat) (v : Byte) : (s.putByte a v).beat = s.beat := rfl
@[simp] theorem State.putByte_faults (s : State) (a : Nat) (v : Byte) : (s.putByte a v).faults = s.faults := rfl
@[simp] theorem State.putByte_faultHold (s : State) (a : Nat) (v : Byte) : (s.putByte a v).faultHold = s.faultHold := rfl
@[simp] theorem State.putByte_faultLost (s : State) (a : Nat) (v : Byte) : (s.putByte a v).faultLost = s.faultLost := rfl
@[simp] theorem State.putByte_acked (s : State) (a : Nat) (v : Byte) : (s.putByte a v).acked = s.acked := rfl
@[simp] theorem State.putByte_seqNext (s : State) (a : Nat) (v : Byte) : (s.putByte a v).seqNext = s.seqNext := rfl
@[simp] theorem State.putByte_draws (s : State) (a : Nat) (v : Byte) : (s.putByte a v).draws = s.draws := rfl
@[simp] theorem State.putByte_out (s : State) (a : Nat) (v : Byte) : (s.putByte a v).out = s.out := rfl
@[simp] theorem State.putByte_pending (s : State) (a : Nat) (v : Byte) : (s.putByte a v).pending = s.pending := rfl
@[simp] theorem State.putByte_stn (s : State) (a : Nat) (v : Byte) (j : St) : (s.putByte a v).stn j = s.stn j := rfl
@[simp] theorem State.putByte_prt (s : State) (a : Nat) (v : Byte) (j : Part) : (s.putByte a v).prt j = s.prt j := rfl
@[simp] theorem State.putByte_twr (s : State) (a : Nat) (v : Byte) (j : Twr) : (s.putByte a v).twr j = s.twr j := rfl
@[simp] theorem State.putByte_fn (s : State) (a : Nat) (v : Byte) (j : Pf) : (s.putByte a v).fn j = s.fn j := rfl
@[simp] theorem State.putByte_hlt (s : State) (a : Nat) (v : Byte) (j : St) : (s.putByte a v).hlt j = s.hlt j := rfl
@[simp] theorem State.putByte_reg (s : State) (a : Nat) (v : Byte) (x y : Nat) : (s.putByte a v).reg x y = s.reg x y := rfl
@[simp] theorem State.putByte_dom (s : State) (a : Nat) (v : Byte) (x y : Nat) : (s.putByte a v).dom x y = s.dom x y := rfl

/-! ### setSector -/

@[simp] theorem State.setSector_time (s : State) (a : Nat) (v : Byte) : (s.setSector a v).time = s.time := rfl
@[simp] theorem State.setSector_stations (s : State) (a : Nat) (v : Byte) : (s.setSector a v).stations = s.stations := rfl
@[simp] theorem State.setSector_parts (s : State) (a : Nat) (v : Byte) : (s.setSector a v).parts = s.parts := rfl
@[simp] theorem State.setSector_mordants (s : State) (a : Nat) (v : Byte) : (s.setSector a v).mordants = s.mordants := rfl
@[simp] theorem State.setSector_mem (s : State) (a : Nat) (v : Byte) : (s.setSector a v).mem = s.mem := rfl
@[simp] theorem State.setSector_stashPoison (s : State) (a : Nat) (v : Byte) : (s.setSector a v).stashPoison = s.stashPoison := rfl
@[simp] theorem State.setSector_fetches (s : State) (a : Nat) (v : Byte) : (s.setSector a v).fetches = s.fetches := rfl
@[simp] theorem State.setSector_writes (s : State) (a : Nat) (v : Byte) : (s.setSector a v).writes = s.writes := rfl
@[simp] theorem State.setSector_morOps (s : State) (a : Nat) (v : Byte) : (s.setSector a v).morOps = s.morOps := rfl
@[simp] theorem State.setSector_descs (s : State) (a : Nat) (v : Byte) : (s.setSector a v).descs = s.descs := rfl
@[simp] theorem State.setSector_xfers (s : State) (a : Nat) (v : Byte) : (s.setSector a v).xfers = s.xfers := rfl
@[simp] theorem State.setSector_towers (s : State) (a : Nat) (v : Byte) : (s.setSector a v).towers = s.towers := rfl
@[simp] theorem State.setSector_route (s : State) (a : Nat) (v : Byte) : (s.setSector a v).route = s.route := rfl
@[simp] theorem State.setSector_clk (s : State) (a : Nat) (v : Byte) : (s.setSector a v).clk = s.clk := rfl
@[simp] theorem State.setSector_pwr (s : State) (a : Nat) (v : Byte) : (s.setSector a v).pwr = s.pwr := rfl
@[simp] theorem State.setSector_stw (s : State) (a : Nat) (v : Byte) : (s.setSector a v).stw = s.stw := rfl
@[simp] theorem State.setSector_host (s : State) (a : Nat) (v : Byte) : (s.setSector a v).host = s.host := rfl
@[simp] theorem State.setSector_hostHeld (s : State) (a : Nat) (v : Byte) : (s.setSector a v).hostHeld = s.hostHeld := rfl
@[simp] theorem State.setSector_perst (s : State) (a : Nat) (v : Byte) : (s.setSector a v).perst = s.perst := rfl
@[simp] theorem State.setSector_ports (s : State) (a : Nat) (v : Byte) : (s.setSector a v).ports = s.ports := rfl
@[simp] theorem State.setSector_fab (s : State) (a : Nat) (v : Byte) : (s.setSector a v).fab = s.fab := rfl
@[simp] theorem State.setSector_health (s : State) (a : Nat) (v : Byte) : (s.setSector a v).health = s.health := rfl
@[simp] theorem State.setSector_dict (s : State) (a : Nat) (v : Byte) : (s.setSector a v).dict = s.dict := rfl
@[simp] theorem State.setSector_saved (s : State) (a : Nat) (v : Byte) : (s.setSector a v).saved = s.saved := rfl
@[simp] theorem State.setSector_doms (s : State) (a : Nat) (v : Byte) : (s.setSector a v).doms = s.doms := rfl
@[simp] theorem State.setSector_savedDoms (s : State) (a : Nat) (v : Byte) : (s.setSector a v).savedDoms = s.savedDoms := rfl
@[simp] theorem State.setSector_beat (s : State) (a : Nat) (v : Byte) : (s.setSector a v).beat = s.beat := rfl
@[simp] theorem State.setSector_faults (s : State) (a : Nat) (v : Byte) : (s.setSector a v).faults = s.faults := rfl
@[simp] theorem State.setSector_faultHold (s : State) (a : Nat) (v : Byte) : (s.setSector a v).faultHold = s.faultHold := rfl
@[simp] theorem State.setSector_faultLost (s : State) (a : Nat) (v : Byte) : (s.setSector a v).faultLost = s.faultLost := rfl
@[simp] theorem State.setSector_acked (s : State) (a : Nat) (v : Byte) : (s.setSector a v).acked = s.acked := rfl
@[simp] theorem State.setSector_seqNext (s : State) (a : Nat) (v : Byte) : (s.setSector a v).seqNext = s.seqNext := rfl
@[simp] theorem State.setSector_draws (s : State) (a : Nat) (v : Byte) : (s.setSector a v).draws = s.draws := rfl
@[simp] theorem State.setSector_out (s : State) (a : Nat) (v : Byte) : (s.setSector a v).out = s.out := rfl
@[simp] theorem State.setSector_pending (s : State) (a : Nat) (v : Byte) : (s.setSector a v).pending = s.pending := rfl
@[simp] theorem State.setSector_stn (s : State) (a : Nat) (v : Byte) (j : St) : (s.setSector a v).stn j = s.stn j := rfl
@[simp] theorem State.setSector_prt (s : State) (a : Nat) (v : Byte) (j : Part) : (s.setSector a v).prt j = s.prt j := rfl
@[simp] theorem State.setSector_twr (s : State) (a : Nat) (v : Byte) (j : Twr) : (s.setSector a v).twr j = s.twr j := rfl
@[simp] theorem State.setSector_fn (s : State) (a : Nat) (v : Byte) (j : Pf) : (s.setSector a v).fn j = s.fn j := rfl
@[simp] theorem State.setSector_hlt (s : State) (a : Nat) (v : Byte) (j : St) : (s.setSector a v).hlt j = s.hlt j := rfl
@[simp] theorem State.setSector_reg (s : State) (a : Nat) (v : Byte) (x y : Nat) : (s.setSector a v).reg x y = s.reg x y := rfl
@[simp] theorem State.setSector_dom (s : State) (a : Nat) (v : Byte) (x y : Nat) : (s.setSector a v).dom x y = s.dom x y := rfl

end Sys2Proof.Machine
end

