-- ==== Sys2Proof/Laws/Ops.lean ====
section
/-!
SUPPORT. What the operations that every family shares can change: notifications, fault records, the end of a job. Each relation says that a state differs from
another in the named parts alone.
-/
namespace Sys2Proof.Machine

/-- `t` differs from `s` at most in what a notification changes. -/
def OutOnly (s t : State) : Prop :=
  t = { s with host := t.host, out := t.out, stw := t.stw }

theorem OutOnly.refl (s : State) : OutOnly s s := rfl

theorem OutOnly.trans {s t u : State} (h : OutOnly s t) (k : OutOnly t u) : OutOnly s u := by
  unfold OutOnly at *
  rw [h] at k
  exact k

theorem OutOnly.foldl {α : Type} (f : State → α → State) (h : ∀ s a, OutOnly s (f s a)) (l : List α) (s : State) : OutOnly s (l.foldl f s) := by
  induction l generalizing s with
  | nil => rfl
  | cons a l ih => exact (h s a).trans (ih _)

theorem OutOnly.time {s t : State} (h : OutOnly s t) : t.time = s.time := (congrArg State.time h :)
theorem OutOnly.stations {s t : State} (h : OutOnly s t) : t.stations = s.stations := (congrArg State.stations h :)
theorem OutOnly.parts {s t : State} (h : OutOnly s t) : t.parts = s.parts := (congrArg State.parts h :)
theorem OutOnly.mordants {s t : State} (h : OutOnly s t) : t.mordants = s.mordants := (congrArg State.mordants h :)
theorem OutOnly.mem {s t : State} (h : OutOnly s t) : t.mem = s.mem := (congrArg State.mem h :)
theorem OutOnly.poison {s t : State} (h : OutOnly s t) : t.poison = s.poison := (congrArg State.poison h :)
theorem OutOnly.stashPoison {s t : State} (h : OutOnly s t) : t.stashPoison = s.stashPoison := (congrArg State.stashPoison h :)
theorem OutOnly.fetches {s t : State} (h : OutOnly s t) : t.fetches = s.fetches := (congrArg State.fetches h :)
theorem OutOnly.writes {s t : State} (h : OutOnly s t) : t.writes = s.writes := (congrArg State.writes h :)
theorem OutOnly.morOps {s t : State} (h : OutOnly s t) : t.morOps = s.morOps := (congrArg State.morOps h :)
theorem OutOnly.descs {s t : State} (h : OutOnly s t) : t.descs = s.descs := (congrArg State.descs h :)
theorem OutOnly.xfers {s t : State} (h : OutOnly s t) : t.xfers = s.xfers := (congrArg State.xfers h :)
theorem OutOnly.towers {s t : State} (h : OutOnly s t) : t.towers = s.towers := (congrArg State.towers h :)
theorem OutOnly.route {s t : State} (h : OutOnly s t) : t.route = s.route := (congrArg State.route h :)
theorem OutOnly.clk {s t : State} (h : OutOnly s t) : t.clk = s.clk := (congrArg State.clk h :)
theorem OutOnly.pwr {s t : State} (h : OutOnly s t) : t.pwr = s.pwr := (congrArg State.pwr h :)
theorem OutOnly.hostHeld {s t : State} (h : OutOnly s t) : t.hostHeld = s.hostHeld := (congrArg State.hostHeld h :)
theorem OutOnly.perst {s t : State} (h : OutOnly s t) : t.perst = s.perst := (congrArg State.perst h :)
theorem OutOnly.ports {s t : State} (h : OutOnly s t) : t.ports = s.ports := (congrArg State.ports h :)
theorem OutOnly.fab {s t : State} (h : OutOnly s t) : t.fab = s.fab := (congrArg State.fab h :)
theorem OutOnly.health {s t : State} (h : OutOnly s t) : t.health = s.health := (congrArg State.health h :)
theorem OutOnly.dict {s t : State} (h : OutOnly s t) : t.dict = s.dict := (congrArg State.dict h :)
theorem OutOnly.saved {s t : State} (h : OutOnly s t) : t.saved = s.saved := (congrArg State.saved h :)
theorem OutOnly.doms {s t : State} (h : OutOnly s t) : t.doms = s.doms := (congrArg State.doms h :)
theorem OutOnly.savedDoms {s t : State} (h : OutOnly s t) : t.savedDoms = s.savedDoms := (congrArg State.savedDoms h :)
theorem OutOnly.beat {s t : State} (h : OutOnly s t) : t.beat = s.beat := (congrArg State.beat h :)
theorem OutOnly.faults {s t : State} (h : OutOnly s t) : t.faults = s.faults := (congrArg State.faults h :)
theorem OutOnly.faultHold {s t : State} (h : OutOnly s t) : t.faultHold = s.faultHold := (congrArg State.faultHold h :)
theorem OutOnly.faultLost {s t : State} (h : OutOnly s t) : t.faultLost = s.faultLost := (congrArg State.faultLost h :)
theorem OutOnly.acked {s t : State} (h : OutOnly s t) : t.acked = s.acked := (congrArg State.acked h :)
theorem OutOnly.seqNext {s t : State} (h : OutOnly s t) : t.seqNext = s.seqNext := (congrArg State.seqNext h :)
theorem OutOnly.draws {s t : State} (h : OutOnly s t) : t.draws = s.draws := (congrArg State.draws h :)
theorem OutOnly.pending {s t : State} (h : OutOnly s t) : t.pending = s.pending := (congrArg State.pending h :)

/-- `t` differs from `s` at most in what a fault record changes. -/
def RecordOnly (s t : State) : Prop :=
  t = { s with host := t.host, out := t.out, stw := t.stw, dict := t.dict, saved := t.saved, faults := t.faults, acked := t.acked, seqNext := t.seqNext, faultLost := t.faultLost, faultHold := t.faultHold }

theorem RecordOnly.refl (s : State) : RecordOnly s s := rfl

theorem RecordOnly.trans {s t u : State} (h : RecordOnly s t) (k : RecordOnly t u) : RecordOnly s u := by
  unfold RecordOnly at *
  rw [h] at k
  exact k

theorem RecordOnly.foldl {α : Type} (f : State → α → State) (h : ∀ s a, RecordOnly s (f s a)) (l : List α) (s : State) : RecordOnly s (l.foldl f s) := by
  induction l generalizing s with
  | nil => rfl
  | cons a l ih => exact (h s a).trans (ih _)

theorem RecordOnly.time {s t : State} (h : RecordOnly s t) : t.time = s.time := (congrArg State.time h :)
theorem RecordOnly.stations {s t : State} (h : RecordOnly s t) : t.stations = s.stations := (congrArg State.stations h :)
theorem RecordOnly.parts {s t : State} (h : RecordOnly s t) : t.parts = s.parts := (congrArg State.parts h :)
theorem RecordOnly.mordants {s t : State} (h : RecordOnly s t) : t.mordants = s.mordants := (congrArg State.mordants h :)
theorem RecordOnly.mem {s t : State} (h : RecordOnly s t) : t.mem = s.mem := (congrArg State.mem h :)
theorem RecordOnly.poison {s t : State} (h : RecordOnly s t) : t.poison = s.poison := (congrArg State.poison h :)
theorem RecordOnly.stashPoison {s t : State} (h : RecordOnly s t) : t.stashPoison = s.stashPoison := (congrArg State.stashPoison h :)
theorem RecordOnly.fetches {s t : State} (h : RecordOnly s t) : t.fetches = s.fetches := (congrArg State.fetches h :)
theorem RecordOnly.writes {s t : State} (h : RecordOnly s t) : t.writes = s.writes := (congrArg State.writes h :)
theorem RecordOnly.morOps {s t : State} (h : RecordOnly s t) : t.morOps = s.morOps := (congrArg State.morOps h :)
theorem RecordOnly.descs {s t : State} (h : RecordOnly s t) : t.descs = s.descs := (congrArg State.descs h :)
theorem RecordOnly.xfers {s t : State} (h : RecordOnly s t) : t.xfers = s.xfers := (congrArg State.xfers h :)
theorem RecordOnly.towers {s t : State} (h : RecordOnly s t) : t.towers = s.towers := (congrArg State.towers h :)
theorem RecordOnly.route {s t : State} (h : RecordOnly s t) : t.route = s.route := (congrArg State.route h :)
theorem RecordOnly.clk {s t : State} (h : RecordOnly s t) : t.clk = s.clk := (congrArg State.clk h :)
theorem RecordOnly.pwr {s t : State} (h : RecordOnly s t) : t.pwr = s.pwr := (congrArg State.pwr h :)
theorem RecordOnly.hostHeld {s t : State} (h : RecordOnly s t) : t.hostHeld = s.hostHeld := (congrArg State.hostHeld h :)
theorem RecordOnly.perst {s t : State} (h : RecordOnly s t) : t.perst = s.perst := (congrArg State.perst h :)
theorem RecordOnly.ports {s t : State} (h : RecordOnly s t) : t.ports = s.ports := (congrArg State.ports h :)
theorem RecordOnly.fab {s t : State} (h : RecordOnly s t) : t.fab = s.fab := (congrArg State.fab h :)
theorem RecordOnly.health {s t : State} (h : RecordOnly s t) : t.health = s.health := (congrArg State.health h :)
theorem RecordOnly.doms {s t : State} (h : RecordOnly s t) : t.doms = s.doms := (congrArg State.doms h :)
theorem RecordOnly.savedDoms {s t : State} (h : RecordOnly s t) : t.savedDoms = s.savedDoms := (congrArg State.savedDoms h :)
theorem RecordOnly.beat {s t : State} (h : RecordOnly s t) : t.beat = s.beat := (congrArg State.beat h :)
theorem RecordOnly.draws {s t : State} (h : RecordOnly s t) : t.draws = s.draws := (congrArg State.draws h :)
theorem RecordOnly.pending {s t : State} (h : RecordOnly s t) : t.pending = s.pending := (congrArg State.pending h :)

/-- `t` differs from `s` at most in what raising a fault changes. -/
def RaiseOnly (s t : State) : Prop :=
  t = { s with host := t.host, out := t.out, stw := t.stw, dict := t.dict, saved := t.saved, faults := t.faults, acked := t.acked, seqNext := t.seqNext, faultLost := t.faultLost, faultHold := t.faultHold, parts := t.parts, health := t.health, beat := t.beat }

theorem RaiseOnly.refl (s : State) : RaiseOnly s s := rfl

theorem RaiseOnly.trans {s t u : State} (h : RaiseOnly s t) (k : RaiseOnly t u) : RaiseOnly s u := by
  unfold RaiseOnly at *
  rw [h] at k
  exact k

theorem RaiseOnly.foldl {α : Type} (f : State → α → State) (h : ∀ s a, RaiseOnly s (f s a)) (l : List α) (s : State) : RaiseOnly s (l.foldl f s) := by
  induction l generalizing s with
  | nil => rfl
  | cons a l ih => exact (h s a).trans (ih _)

theorem RaiseOnly.time {s t : State} (h : RaiseOnly s t) : t.time = s.time := (congrArg State.time h :)
theorem RaiseOnly.stations {s t : State} (h : RaiseOnly s t) : t.stations = s.stations := (congrArg State.stations h :)
theorem RaiseOnly.mordants {s t : State} (h : RaiseOnly s t) : t.mordants = s.mordants := (congrArg State.mordants h :)
theorem RaiseOnly.mem {s t : State} (h : RaiseOnly s t) : t.mem = s.mem := (congrArg State.mem h :)
theorem RaiseOnly.poison {s t : State} (h : RaiseOnly s t) : t.poison = s.poison := (congrArg State.poison h :)
theorem RaiseOnly.stashPoison {s t : State} (h : RaiseOnly s t) : t.stashPoison = s.stashPoison := (congrArg State.stashPoison h :)
theorem RaiseOnly.fetches {s t : State} (h : RaiseOnly s t) : t.fetches = s.fetches := (congrArg State.fetches h :)
theorem RaiseOnly.writes {s t : State} (h : RaiseOnly s t) : t.writes = s.writes := (congrArg State.writes h :)
theorem RaiseOnly.morOps {s t : State} (h : RaiseOnly s t) : t.morOps = s.morOps := (congrArg State.morOps h :)
theorem RaiseOnly.descs {s t : State} (h : RaiseOnly s t) : t.descs = s.descs := (congrArg State.descs h :)
theorem RaiseOnly.xfers {s t : State} (h : RaiseOnly s t) : t.xfers = s.xfers := (congrArg State.xfers h :)
theorem RaiseOnly.towers {s t : State} (h : RaiseOnly s t) : t.towers = s.towers := (congrArg State.towers h :)
theorem RaiseOnly.route {s t : State} (h : RaiseOnly s t) : t.route = s.route := (congrArg State.route h :)
theorem RaiseOnly.clk {s t : State} (h : RaiseOnly s t) : t.clk = s.clk := (congrArg State.clk h :)
theorem RaiseOnly.pwr {s t : State} (h : RaiseOnly s t) : t.pwr = s.pwr := (congrArg State.pwr h :)
theorem RaiseOnly.hostHeld {s t : State} (h : RaiseOnly s t) : t.hostHeld = s.hostHeld := (congrArg State.hostHeld h :)
theorem RaiseOnly.perst {s t : State} (h : RaiseOnly s t) : t.perst = s.perst := (congrArg State.perst h :)
theorem RaiseOnly.ports {s t : State} (h : RaiseOnly s t) : t.ports = s.ports := (congrArg State.ports h :)
theorem RaiseOnly.fab {s t : State} (h : RaiseOnly s t) : t.fab = s.fab := (congrArg State.fab h :)
theorem RaiseOnly.doms {s t : State} (h : RaiseOnly s t) : t.doms = s.doms := (congrArg State.doms h :)
theorem RaiseOnly.savedDoms {s t : State} (h : RaiseOnly s t) : t.savedDoms = s.savedDoms := (congrArg State.savedDoms h :)
theorem RaiseOnly.draws {s t : State} (h : RaiseOnly s t) : t.draws = s.draws := (congrArg State.draws h :)
theorem RaiseOnly.pending {s t : State} (h : RaiseOnly s t) : t.pending = s.pending := (congrArg State.pending h :)

/-- `t` differs from `s` at most in what the end of a beat and of a job changes. -/
def EndOnly (s t : State) : Prop :=
  t = { s with host := t.host, out := t.out, stw := t.stw, dict := t.dict, saved := t.saved, faults := t.faults, acked := t.acked, seqNext := t.seqNext, faultLost := t.faultLost, faultHold := t.faultHold, parts := t.parts, health := t.health, beat := t.beat, stations := t.stations, fetches := t.fetches, towers := t.towers, route := t.route }

theorem EndOnly.refl (s : State) : EndOnly s s := rfl

theorem EndOnly.trans {s t u : State} (h : EndOnly s t) (k : EndOnly t u) : EndOnly s u := by
  unfold EndOnly at *
  rw [h] at k
  exact k

theorem EndOnly.foldl {α : Type} (f : State → α → State) (h : ∀ s a, EndOnly s (f s a)) (l : List α) (s : State) : EndOnly s (l.foldl f s) := by
  induction l generalizing s with
  | nil => rfl
  | cons a l ih => exact (h s a).trans (ih _)

theorem EndOnly.time {s t : State} (h : EndOnly s t) : t.time = s.time := (congrArg State.time h :)
theorem EndOnly.mordants {s t : State} (h : EndOnly s t) : t.mordants = s.mordants := (congrArg State.mordants h :)
theorem EndOnly.mem {s t : State} (h : EndOnly s t) : t.mem = s.mem := (congrArg State.mem h :)
theorem EndOnly.poison {s t : State} (h : EndOnly s t) : t.poison = s.poison := (congrArg State.poison h :)
theorem EndOnly.stashPoison {s t : State} (h : EndOnly s t) : t.stashPoison = s.stashPoison := (congrArg State.stashPoison h :)
theorem EndOnly.writes {s t : State} (h : EndOnly s t) : t.writes = s.writes := (congrArg State.writes h :)
theorem EndOnly.morOps {s t : State} (h : EndOnly s t) : t.morOps = s.morOps := (congrArg State.morOps h :)
theorem EndOnly.descs {s t : State} (h : EndOnly s t) : t.descs = s.descs := (congrArg State.descs h :)
theorem EndOnly.xfers {s t : State} (h : EndOnly s t) : t.xfers = s.xfers := (congrArg State.xfers h :)
theorem EndOnly.clk {s t : State} (h : EndOnly s t) : t.clk = s.clk := (congrArg State.clk h :)
theorem EndOnly.pwr {s t : State} (h : EndOnly s t) : t.pwr = s.pwr := (congrArg State.pwr h :)
theorem EndOnly.hostHeld {s t : State} (h : EndOnly s t) : t.hostHeld = s.hostHeld := (congrArg State.hostHeld h :)
theorem EndOnly.perst {s t : State} (h : EndOnly s t) : t.perst = s.perst := (congrArg State.perst h :)
theorem EndOnly.ports {s t : State} (h : EndOnly s t) : t.ports = s.ports := (congrArg State.ports h :)
theorem EndOnly.fab {s t : State} (h : EndOnly s t) : t.fab = s.fab := (congrArg State.fab h :)
theorem EndOnly.doms {s t : State} (h : EndOnly s t) : t.doms = s.doms := (congrArg State.doms h :)
theorem EndOnly.savedDoms {s t : State} (h : EndOnly s t) : t.savedDoms = s.savedDoms := (congrArg State.savedDoms h :)
theorem EndOnly.draws {s t : State} (h : EndOnly s t) : t.draws = s.draws := (congrArg State.draws h :)
theorem EndOnly.pending {s t : State} (h : EndOnly s t) : t.pending = s.pending := (congrArg State.pending h :)

theorem OutOnly.record {s t : State} (h : OutOnly s t) : RecordOnly s t := by
  unfold OutOnly at h; unfold RecordOnly; rw [h]

theorem RecordOnly.raise {s t : State} (h : RecordOnly s t) : RaiseOnly s t := by
  unfold RecordOnly at h; unfold RaiseOnly; rw [h]

theorem OutOnly.raise {s t : State} (h : OutOnly s t) : RaiseOnly s t := h.record.raise

theorem RaiseOnly.ends {s t : State} (h : RaiseOnly s t) : EndOnly s t := by
  unfold RaiseOnly at h; unfold EndOnly; rw [h]

theorem State.setReg_only (s : State) (i b v : Nat) : RecordOnly s (s.setReg i b v) := rfl
theorem State.count_only (s : State) (i b n : Nat) : RecordOnly s (s.count i b n) := rfl
theorem State.saveReg_only (s : State) (i b v : Nat) : RecordOnly s (s.saveReg i b v) := rfl
theorem State.emit_only (s : State) (o : Output) : OutOnly s (s.emit o) := rfl
theorem State.modFn_only (s : State) (f : Pf) (g : HostFn → HostFn) : OutOnly s (s.modFn f g) := rfl
theorem State.modStw_only (s : State) (g : Steward → Steward) : OutOnly s (s.modStw g) := rfl
theorem State.modSt_only (s : State) (i : St) (g : Station → Station) : EndOnly s (s.modSt i g) := rfl
theorem State.modPart_only (s : State) (i : Part) (g : Partition → Partition) : RaiseOnly s (s.modPart i g) := rfl
theorem State.modHealth_only (s : State) (i : St) (g : Health → Health) : RaiseOnly s (s.modHealth i g) := rfl
theorem State.abandonEngines_only (s : State) (p : Part) : EndOnly s (s.abandonEngines p) := rfl
theorem State.clearWatches_only (s : State) (p : Part) : OutOnly s (s.clearWatches p) := rfl

theorem State.vector_only (s : State) (f : Pf) (v : Nat) : OutOnly s (s.vector f v) := by
  unfold State.vector; split <;> rfl

theorem State.notifyFn_only (s : State) (i b : Nat) (v : List Byte) (f : Pf) : OutOnly s (s.notifyFn i b v f) := by
  unfold State.notifyFn
  split
  · rfl
  · dsimp only
    split
    · rfl
    · exact (State.modFn_only _ _ _).trans (State.vector_only _ _ _)

/-- A notification changes the rings, what leaves the package, and what the steward keeps back. -/
theorem State.notify_only (s : State) (i b : Nat) (v : List Byte) : OutOnly s (s.notify i b v) := by
  unfold State.notify
  split
  · rfl
  · dsimp only
    have h := OutOnly.foldl (fun s f => s.notifyFn i b v f) (fun s f => s.notifyFn_only i b v f) (List.finRange 5) s
    split
    · exact h.trans rfl
    · exact h

theorem State.logRec_only (s : State) (r : FaultRec) : RecordOnly s (s.logRec r) := by
  simp only [State.logRec]
  refine RecordOnly.trans ?_ (State.notify_only _ _ _ _).record
  exact rfl

theorem State.record_only (s : State) (r : FaultRec) : RecordOnly s (s.record r) := by
  unfold State.record
  split
  · exact s.logRec_only r
  · split <;> rfl

theorem State.breakHour_only (s : State) : RaiseOnly s s.breakHour := ((State.modStw_only _ _).record.trans (State.saveReg_only _ _ _ _)).raise

theorem RaiseOnly.ite {c : Prop} [Decidable c] {s t u : State} (h : RaiseOnly s t) (k : RaiseOnly s u) : RaiseOnly s (if c then t else u) := by
  split <;> assumption

theorem EndOnly.ite {c : Prop} [Decidable c] {s t u : State} (h : EndOnly s t) (k : EndOnly s u) : EndOnly s (if c then t else u) := by
  split <;> assumption

theorem State.dropFetches_only (s : State) (l : List St) : EndOnly s (s.dropFetches l) := by
  simp only [State.dropFetches]
  exact (EndOnly.foldl (fun (s : State) (f : Fetch) => s.count 0x9040 (f.st.val + 1)) (fun _ _ => (State.count_only _ _ _ _).raise.ends) _ s).trans rfl

theorem State.setJobState_only (s : State) (p : Part) (v : Byte) : RaiseOnly s (s.setJobState p v) :=
  (State.modPart_only _ _ _).trans (State.notify_only _ _ _ _).raise

theorem State.endJob_only (s : State) (p : Part) (v : Byte) : EndOnly s (s.endJob p v) := by
  simp only [State.endJob]
  refine EndOnly.trans ?_ (State.setJobState_only _ _ _).ends
  refine EndOnly.trans ?_ (State.modPart_only _ _ _).ends
  refine EndOnly.trans ?_ (State.clearWatches_only _ _).raise.ends
  refine EndOnly.trans ?_ (State.dropFetches_only _ _)
  exact EndOnly.foldl (fun (s : State) (st : St) => s.modSt st Station.jobEnd) (fun _ _ => State.modSt_only _ _ _) _ s

theorem State.suspect_only (s : State) (x : St) : RaiseOnly s (s.suspect x) := by
  simp only [State.suspect]
  refine RaiseOnly.trans ?_ (State.breakHour_only _)
  refine RaiseOnly.trans ?_ (State.modHealth_only _ _ _)
  exact RaiseOnly.ite (State.saveReg_only _ _ _ _).raise (RaiseOnly.refl s)

theorem State.maskedMismatch_only (s : State) (x : St) : RaiseOnly s (s.maskedMismatch x) := by
  have h : RaiseOnly s ((s.count 0x9010 (x.val + 1)).modHealth x fun h => { h with masked := within s.time dayNs h.masked ++ [s.time] }) :=
    (State.count_only _ _ _ _).raise.trans (State.modHealth_only _ _ _)
  simp only [State.maskedMismatch]
  exact RaiseOnly.ite (h.trans (State.suspect_only _ _)) h

theorem State.noteFault_only (s : State) (p : Option Part) (c d : Nat) (x : Site) (e : Bool) : RaiseOnly s (s.noteFault p c d x e) := by
  have h1 : ∀ (u : State) (b : Bool) (i : Part) (g : State → Partition → Partition), RaiseOnly u (if b = true then u.modPart i (g u) else u) := fun u b i g =>
    RaiseOnly.ite (State.modPart_only _ _ _) (RaiseOnly.refl u)
  have h2 : ∀ (u : State) (i : Nat), RaiseOnly u (if c = 0x0D then u.count 0x7016 i else u) := fun u i =>
    RaiseOnly.ite (State.count_only _ _ _ _).raise (RaiseOnly.refl u)
  simp only [State.noteFault]
  refine (((h1 s e (p.getD 0) fun _ x => { x with faultRaise := true }).trans (h1 _ p.isSome (p.getD 0) fun u x => { x with sec := x.sec.onFault c d u.time e })).trans (h2 _ ((p.getD 0).val + 1))).trans ?_
  exact RaiseOnly.ite ((State.suspect_only _ _).trans (State.modHealth_only _ _ _)) (RaiseOnly.ite (State.breakHour_only _) (RaiseOnly.refl _))

/-- Raising a fault or event changes the beat's records or the fault log, what its partition and its station keep of it, the registers, and what leaves the package. -/
theorem State.raise_only (s : State) (p : Option Part) (c d : Nat) (x : Site) : RaiseOnly s (s.raise p c d x) := by
  have h : ∀ (e live : Bool) (r : FaultRec),
      RaiseOnly s (if live = true then { s.noteFault p c d x e with beat := beatAdd (s.noteFault p c d x e).beat r } else (s.noteFault p c d x e).record r) := fun e live r =>
    (s.noteFault_only p c d x e).trans (RaiseOnly.ite rfl (State.record_only _ _).raise)
  exact RaiseOnly.ite (RaiseOnly.refl s) (h _ _ _)

/-- The end of a beat writes its records and ends the jobs that they end. -/
theorem State.writeRec_only (s : State) (r : FaultRec) : EndOnly s (s.writeRec r) := by
  unfold State.writeRec
  split
  · dsimp only
    refine EndOnly.trans ?_ (State.count_only _ _ _ _).raise.ends
    refine EndOnly.trans ?_ (State.abandonEngines_only _ _)
    refine EndOnly.trans ?_ (State.endJob_only _ _ _)
    exact ((State.modPart_only _ _ _).trans (State.record_only _ _).raise).ends
  · exact (State.record_only _ _).raise.ends

theorem State.beatEnd_only (s : State) : EndOnly s s.beatEnd := by
  unfold State.beatEnd
  exact EndOnly.trans (t := { s with beat := [] }) rfl (EndOnly.foldl State.writeRec State.writeRec_only _ _)

theorem State.faultAt_only (s : State) (x : St) (c d l k : Nat) : RaiseOnly s (s.faultAt x c d l k) := s.raise_only _ _ _ _
theorem State.faultIssue_only (s : State) (x : St) (l k : Nat) : RaiseOnly s (s.faultIssue x l k) := s.raise_only _ _ _ _
theorem State.faultFire_only (s : State) (x : St) (l k : Nat) : RaiseOnly s (s.faultFire x l k) := s.raise_only _ _ _ _
theorem State.faultPoison_only (s : State) (x : St) (l k : Nat) : RaiseOnly s (s.faultPoison x l k) := s.raise_only _ _ _ _

/-! ### notify -/

@[simp] theorem State.notify_time (s : State) (i b : Nat) (v : List Byte) : (s.notify i b v).time = s.time := (State.notify_only s i b v).time
@[simp] theorem State.notify_stations (s : State) (i b : Nat) (v : List Byte) : (s.notify i b v).stations = s.stations := (State.notify_only s i b v).stations
@[simp] theorem State.notify_parts (s : State) (i b : Nat) (v : List Byte) : (s.notify i b v).parts = s.parts := (State.notify_only s i b v).parts
@[simp] theorem State.notify_mordants (s : State) (i b : Nat) (v : List Byte) : (s.notify i b v).mordants = s.mordants := (State.notify_only s i b v).mordants
@[simp] theorem State.notify_mem (s : State) (i b : Nat) (v : List Byte) : (s.notify i b v).mem = s.mem := (State.notify_only s i b v).mem
@[simp] theorem State.notify_poison (s : State) (i b : Nat) (v : List Byte) : (s.notify i b v).poison = s.poison := (State.notify_only s i b v).poison
@[simp] theorem State.notify_stashPoison (s : State) (i b : Nat) (v : List Byte) : (s.notify i b v).stashPoison = s.stashPoison := (State.notify_only s i b v).stashPoison
@[simp] theorem State.notify_fetches (s : State) (i b : Nat) (v : List Byte) : (s.notify i b v).fetches = s.fetches := (State.notify_only s i b v).fetches
@[simp] theorem State.notify_writes (s : State) (i b : Nat) (v : List Byte) : (s.notify i b v).writes = s.writes := (State.notify_only s i b v).writes
@[simp] theorem State.notify_morOps (s : State) (i b : Nat) (v : List Byte) : (s.notify i b v).morOps = s.morOps := (State.notify_only s i b v).morOps
@[simp] theorem State.notify_descs (s : State) (i b : Nat) (v : List Byte) : (s.notify i b v).descs = s.descs := (State.notify_only s i b v).descs
@[simp] theorem State.notify_xfers (s : State) (i b : Nat) (v : List Byte) : (s.notify i b v).xfers = s.xfers := (State.notify_only s i b v).xfers
@[simp] theorem State.notify_towers (s : State) (i b : Nat) (v : List Byte) : (s.notify i b v).towers = s.towers := (State.notify_only s i b v).towers
@[simp] theorem State.notify_route (s : State) (i b : Nat) (v : List Byte) : (s.notify i b v).route = s.route := (State.notify_only s i b v).route
@[simp] theorem State.notify_clk (s : State) (i b : Nat) (v : List Byte) : (s.notify i b v).clk = s.clk := (State.notify_only s i b v).clk
@[simp] theorem State.notify_pwr (s : State) (i b : Nat) (v : List Byte) : (s.notify i b v).pwr = s.pwr := (State.notify_only s i b v).pwr
@[simp] theorem State.notify_hostHeld (s : State) (i b : Nat) (v : List Byte) : (s.notify i b v).hostHeld = s.hostHeld := (State.notify_only s i b v).hostHeld
@[simp] theorem State.notify_perst (s : State) (i b : Nat) (v : List Byte) : (s.notify i b v).perst = s.perst := (State.notify_only s i b v).perst
@[simp] theorem State.notify_ports (s : State) (i b : Nat) (v : List Byte) : (s.notify i b v).ports = s.ports := (State.notify_only s i b v).ports
@[simp] theorem State.notify_fab (s : State) (i b : Nat) (v : List Byte) : (s.notify i b v).fab = s.fab := (State.notify_only s i b v).fab
@[simp] theorem State.notify_health (s : State) (i b : Nat) (v : List Byte) : (s.notify i b v).health = s.health := (State.notify_only s i b v).health
@[simp] theorem State.notify_dict (s : State) (i b : Nat) (v : List Byte) : (s.notify i b v).dict = s.dict := (State.notify_only s i b v).dict
@[simp] theorem State.notify_saved (s : State) (i b : Nat) (v : List Byte) : (s.notify i b v).saved = s.saved := (State.notify_only s i b v).saved
@[simp] theorem State.notify_doms (s : State) (i b : Nat) (v : List Byte) : (s.notify i b v).doms = s.doms := (State.notify_only s i b v).doms
@[simp] theorem State.notify_savedDoms (s : State) (i b : Nat) (v : List Byte) : (s.notify i b v).savedDoms = s.savedDoms := (State.notify_only s i b v).savedDoms
@[simp] theorem State.notify_beat (s : State) (i b : Nat) (v : List Byte) : (s.notify i b v).beat = s.beat := (State.notify_only s i b v).beat
@[simp] theorem State.notify_faults (s : State) (i b : Nat) (v : List Byte) : (s.notify i b v).faults = s.faults := (State.notify_only s i b v).faults
@[simp] theorem State.notify_faultHold (s : State) (i b : Nat) (v : List Byte) : (s.notify i b v).faultHold = s.faultHold := (State.notify_only s i b v).faultHold
@[simp] theorem State.notify_faultLost (s : State) (i b : Nat) (v : List Byte) : (s.notify i b v).faultLost = s.faultLost := (State.notify_only s i b v).faultLost
@[simp] theorem State.notify_acked (s : State) (i b : Nat) (v : List Byte) : (s.notify i b v).acked = s.acked := (State.notify_only s i b v).acked
@[simp] theorem State.notify_seqNext (s : State) (i b : Nat) (v : List Byte) : (s.notify i b v).seqNext = s.seqNext := (State.notify_only s i b v).seqNext
@[simp] theorem State.notify_draws (s : State) (i b : Nat) (v : List Byte) : (s.notify i b v).draws = s.draws := (State.notify_only s i b v).draws
@[simp] theorem State.notify_pending (s : State) (i b : Nat) (v : List Byte) : (s.notify i b v).pending = s.pending := (State.notify_only s i b v).pending

/-! ### record -/

@[simp] theorem State.record_time (s : State) (r : FaultRec) : (s.record r).time = s.time := (State.record_only s r).time
@[simp] theorem State.record_stations (s : State) (r : FaultRec) : (s.record r).stations = s.stations := (State.record_only s r).stations
@[simp] theorem State.record_parts (s : State) (r : FaultRec) : (s.record r).parts = s.parts := (State.record_only s r).parts
@[simp] theorem State.record_mordants (s : State) (r : FaultRec) : (s.record r).mordants = s.mordants := (State.record_only s r).mordants
@[simp] theorem State.record_mem (s : State) (r : FaultRec) : (s.record r).mem = s.mem := (State.record_only s r).mem
@[simp] theorem State.record_poison (s : State) (r : FaultRec) : (s.record r).poison = s.poison := (State.record_only s r).poison
@[simp] theorem State.record_stashPoison (s : State) (r : FaultRec) : (s.record r).stashPoison = s.stashPoison := (State.record_only s r).stashPoison
@[simp] theorem State.record_fetches (s : State) (r : FaultRec) : (s.record r).fetches = s.fetches := (State.record_only s r).fetches
@[simp] theorem State.record_writes (s : State) (r : FaultRec) : (s.record r).writes = s.writes := (State.record_only s r).writes
@[simp] theorem State.record_morOps (s : State) (r : FaultRec) : (s.record r).morOps = s.morOps := (State.record_only s r).morOps
@[simp] theorem State.record_descs (s : State) (r : FaultRec) : (s.record r).descs = s.descs := (State.record_only s r).descs
@[simp] theorem State.record_xfers (s : State) (r : FaultRec) : (s.record r).xfers = s.xfers := (State.record_only s r).xfers
@[simp] theorem State.record_towers (s : State) (r : FaultRec) : (s.record r).towers = s.towers := (State.record_only s r).towers
@[simp] theorem State.record_route (s : State) (r : FaultRec) : (s.record r).route = s.route := (State.record_only s r).route
@[simp] theorem State.record_clk (s : State) (r : FaultRec) : (s.record r).clk = s.clk := (State.record_only s r).clk
@[simp] theorem State.record_pwr (s : State) (r : FaultRec) : (s.record r).pwr = s.pwr := (State.record_only s r).pwr
@[simp] theorem State.record_hostHeld (s : State) (r : FaultRec) : (s.record r).hostHeld = s.hostHeld := (State.record_only s r).hostHeld
@[simp] theorem State.record_perst (s : State) (r : FaultRec) : (s.record r).perst = s.perst := (State.record_only s r).perst
@[simp] theorem State.record_ports (s : State) (r : FaultRec) : (s.record r).ports = s.ports := (State.record_only s r).ports
@[simp] theorem State.record_fab (s : State) (r : FaultRec) : (s.record r).fab = s.fab := (State.record_only s r).fab
@[simp] theorem State.record_health (s : State) (r : FaultRec) : (s.record r).health = s.health := (State.record_only s r).health
@[simp] theorem State.record_doms (s : State) (r : FaultRec) : (s.record r).doms = s.doms := (State.record_only s r).doms
@[simp] theorem State.record_savedDoms (s : State) (r : FaultRec) : (s.record r).savedDoms = s.savedDoms := (State.record_only s r).savedDoms
@[simp] theorem State.record_beat (s : State) (r : FaultRec) : (s.record r).beat = s.beat := (State.record_only s r).beat
@[simp] theorem State.record_draws (s : State) (r : FaultRec) : (s.record r).draws = s.draws := (State.record_only s r).draws
@[simp] theorem State.record_pending (s : State) (r : FaultRec) : (s.record r).pending = s.pending := (State.record_only s r).pending

/-! ### setJobState -/

@[simp] theorem State.setJobState_time (s : State) (p : Part) (v : Byte) : (s.setJobState p v).time = s.time := (State.notify_only (s.modPart p fun x => { x with jobState := v }) 0x6000 (p.val + 1) [v]).time
@[simp] theorem State.setJobState_stations (s : State) (p : Part) (v : Byte) : (s.setJobState p v).stations = s.stations := (State.notify_only (s.modPart p fun x => { x with jobState := v }) 0x6000 (p.val + 1) [v]).stations
@[simp] theorem State.setJobState_mordants (s : State) (p : Part) (v : Byte) : (s.setJobState p v).mordants = s.mordants := (State.notify_only (s.modPart p fun x => { x with jobState := v }) 0x6000 (p.val + 1) [v]).mordants
@[simp] theorem State.setJobState_mem (s : State) (p : Part) (v : Byte) : (s.setJobState p v).mem = s.mem := (State.notify_only (s.modPart p fun x => { x with jobState := v }) 0x6000 (p.val + 1) [v]).mem
@[simp] theorem State.setJobState_poison (s : State) (p : Part) (v : Byte) : (s.setJobState p v).poison = s.poison := (State.notify_only (s.modPart p fun x => { x with jobState := v }) 0x6000 (p.val + 1) [v]).poison
@[simp] theorem State.setJobState_stashPoison (s : State) (p : Part) (v : Byte) : (s.setJobState p v).stashPoison = s.stashPoison := (State.notify_only (s.modPart p fun x => { x with jobState := v }) 0x6000 (p.val + 1) [v]).stashPoison
@[simp] theorem State.setJobState_fetches (s : State) (p : Part) (v : Byte) : (s.setJobState p v).fetches = s.fetches := (State.notify_only (s.modPart p fun x => { x with jobState := v }) 0x6000 (p.val + 1) [v]).fetches
@[simp] theorem State.setJobState_writes (s : State) (p : Part) (v : Byte) : (s.setJobState p v).writes = s.writes := (State.notify_only (s.modPart p fun x => { x with jobState := v }) 0x6000 (p.val + 1) [v]).writes
@[simp] theorem State.setJobState_morOps (s : State) (p : Part) (v : Byte) : (s.setJobState p v).morOps = s.morOps := (State.notify_only (s.modPart p fun x => { x with jobState := v }) 0x6000 (p.val + 1) [v]).morOps
@[simp] theorem State.setJobState_descs (s : State) (p : Part) (v : Byte) : (s.setJobState p v).descs = s.descs := (State.notify_only (s.modPart p fun x => { x with jobState := v }) 0x6000 (p.val + 1) [v]).descs
@[simp] theorem State.setJobState_xfers (s : State) (p : Part) (v : Byte) : (s.setJobState p v).xfers = s.xfers := (State.notify_only (s.modPart p fun x => { x with jobState := v }) 0x6000 (p.val + 1) [v]).xfers
@[simp] theorem State.setJobState_towers (s : State) (p : Part) (v : Byte) : (s.setJobState p v).towers = s.towers := (State.notify_only (s.modPart p fun x => { x with jobState := v }) 0x6000 (p.val + 1) [v]).towers
@[simp] theorem State.setJobState_route (s : State) (p : Part) (v : Byte) : (s.setJobState p v).route = s.route := (State.notify_only (s.modPart p fun x => { x with jobState := v }) 0x6000 (p.val + 1) [v]).route
@[simp] theorem State.setJobState_clk (s : State) (p : Part) (v : Byte) : (s.setJobState p v).clk = s.clk := (State.notify_only (s.modPart p fun x => { x with jobState := v }) 0x6000 (p.val + 1) [v]).clk
@[simp] theorem State.setJobState_pwr (s : State) (p : Part) (v : Byte) : (s.setJobState p v).pwr = s.pwr := (State.notify_only (s.modPart p fun x => { x with jobState := v }) 0x6000 (p.val + 1) [v]).pwr
@[simp] theorem State.setJobState_hostHeld (s : State) (p : Part) (v : Byte) : (s.setJobState p v).hostHeld = s.hostHeld := (State.notify_only (s.modPart p fun x => { x with jobState := v }) 0x6000 (p.val + 1) [v]).hostHeld
@[simp] theorem State.setJobState_perst (s : State) (p : Part) (v : Byte) : (s.setJobState p v).perst = s.perst := (State.notify_only (s.modPart p fun x => { x with jobState := v }) 0x6000 (p.val + 1) [v]).perst
@[simp] theorem State.setJobState_ports (s : State) (p : Part) (v : Byte) : (s.setJobState p v).ports = s.ports := (State.notify_only (s.modPart p fun x => { x with jobState := v }) 0x6000 (p.val + 1) [v]).ports
@[simp] theorem State.setJobState_fab (s : State) (p : Part) (v : Byte) : (s.setJobState p v).fab = s.fab := (State.notify_only (s.modPart p fun x => { x with jobState := v }) 0x6000 (p.val + 1) [v]).fab
@[simp] theorem State.setJobState_health (s : State) (p : Part) (v : Byte) : (s.setJobState p v).health = s.health := (State.notify_only (s.modPart p fun x => { x with jobState := v }) 0x6000 (p.val + 1) [v]).health
@[simp] theorem State.setJobState_dict (s : State) (p : Part) (v : Byte) : (s.setJobState p v).dict = s.dict := (State.notify_only (s.modPart p fun x => { x with jobState := v }) 0x6000 (p.val + 1) [v]).dict
@[simp] theorem State.setJobState_saved (s : State) (p : Part) (v : Byte) : (s.setJobState p v).saved = s.saved := (State.notify_only (s.modPart p fun x => { x with jobState := v }) 0x6000 (p.val + 1) [v]).saved
@[simp] theorem State.setJobState_doms (s : State) (p : Part) (v : Byte) : (s.setJobState p v).doms = s.doms := (State.notify_only (s.modPart p fun x => { x with jobState := v }) 0x6000 (p.val + 1) [v]).doms
@[simp] theorem State.setJobState_savedDoms (s : State) (p : Part) (v : Byte) : (s.setJobState p v).savedDoms = s.savedDoms := (State.notify_only (s.modPart p fun x => { x with jobState := v }) 0x6000 (p.val + 1) [v]).savedDoms
@[simp] theorem State.setJobState_beat (s : State) (p : Part) (v : Byte) : (s.setJobState p v).beat = s.beat := (State.notify_only (s.modPart p fun x => { x with jobState := v }) 0x6000 (p.val + 1) [v]).beat
@[simp] theorem State.setJobState_faults (s : State) (p : Part) (v : Byte) : (s.setJobState p v).faults = s.faults := (State.notify_only (s.modPart p fun x => { x with jobState := v }) 0x6000 (p.val + 1) [v]).faults
@[simp] theorem State.setJobState_faultHold (s : State) (p : Part) (v : Byte) : (s.setJobState p v).faultHold = s.faultHold := (State.notify_only (s.modPart p fun x => { x with jobState := v }) 0x6000 (p.val + 1) [v]).faultHold
@[simp] theorem State.setJobState_faultLost (s : State) (p : Part) (v : Byte) : (s.setJobState p v).faultLost = s.faultLost := (State.notify_only (s.modPart p fun x => { x with jobState := v }) 0x6000 (p.val + 1) [v]).faultLost
@[simp] theorem State.setJobState_acked (s : State) (p : Part) (v : Byte) : (s.setJobState p v).acked = s.acked := (State.notify_only (s.modPart p fun x => { x with jobState := v }) 0x6000 (p.val + 1) [v]).acked
@[simp] theorem State.setJobState_seqNext (s : State) (p : Part) (v : Byte) : (s.setJobState p v).seqNext = s.seqNext := (State.notify_only (s.modPart p fun x => { x with jobState := v }) 0x6000 (p.val + 1) [v]).seqNext
@[simp] theorem State.setJobState_draws (s : State) (p : Part) (v : Byte) : (s.setJobState p v).draws = s.draws := (State.notify_only (s.modPart p fun x => { x with jobState := v }) 0x6000 (p.val + 1) [v]).draws
@[simp] theorem State.setJobState_pending (s : State) (p : Part) (v : Byte) : (s.setJobState p v).pending = s.pending := (State.notify_only (s.modPart p fun x => { x with jobState := v }) 0x6000 (p.val + 1) [v]).pending

/-! ### raise -/

@[simp] theorem State.raise_time (s : State) (p : Option Part) (c d : Nat) (x : Site) : (s.raise p c d x).time = s.time := (State.raise_only s p c d x).time
@[simp] theorem State.raise_stations (s : State) (p : Option Part) (c d : Nat) (x : Site) : (s.raise p c d x).stations = s.stations := (State.raise_only s p c d x).stations
@[simp] theorem State.raise_mordants (s : State) (p : Option Part) (c d : Nat) (x : Site) : (s.raise p c d x).mordants = s.mordants := (State.raise_only s p c d x).mordants
@[simp] theorem State.raise_mem (s : State) (p : Option Part) (c d : Nat) (x : Site) : (s.raise p c d x).mem = s.mem := (State.raise_only s p c d x).mem
@[simp] theorem State.raise_poison (s : State) (p : Option Part) (c d : Nat) (x : Site) : (s.raise p c d x).poison = s.poison := (State.raise_only s p c d x).poison
@[simp] theorem State.raise_stashPoison (s : State) (p : Option Part) (c d : Nat) (x : Site) : (s.raise p c d x).stashPoison = s.stashPoison := (State.raise_only s p c d x).stashPoison
@[simp] theorem State.raise_fetches (s : State) (p : Option Part) (c d : Nat) (x : Site) : (s.raise p c d x).fetches = s.fetches := (State.raise_only s p c d x).fetches
@[simp] theorem State.raise_writes (s : State) (p : Option Part) (c d : Nat) (x : Site) : (s.raise p c d x).writes = s.writes := (State.raise_only s p c d x).writes
@[simp] theorem State.raise_morOps (s : State) (p : Option Part) (c d : Nat) (x : Site) : (s.raise p c d x).morOps = s.morOps := (State.raise_only s p c d x).morOps
@[simp] theorem State.raise_descs (s : State) (p : Option Part) (c d : Nat) (x : Site) : (s.raise p c d x).descs = s.descs := (State.raise_only s p c d x).descs
@[simp] theorem State.raise_xfers (s : State) (p : Option Part) (c d : Nat) (x : Site) : (s.raise p c d x).xfers = s.xfers := (State.raise_only s p c d x).xfers
@[simp] theorem State.raise_towers (s : State) (p : Option Part) (c d : Nat) (x : Site) : (s.raise p c d x).towers = s.towers := (State.raise_only s p c d x).towers
@[simp] theorem State.raise_route (s : State) (p : Option Part) (c d : Nat) (x : Site) : (s.raise p c d x).route = s.route := (State.raise_only s p c d x).route
@[simp] theorem State.raise_clk (s : State) (p : Option Part) (c d : Nat) (x : Site) : (s.raise p c d x).clk = s.clk := (State.raise_only s p c d x).clk
@[simp] theorem State.raise_pwr (s : State) (p : Option Part) (c d : Nat) (x : Site) : (s.raise p c d x).pwr = s.pwr := (State.raise_only s p c d x).pwr
@[simp] theorem State.raise_hostHeld (s : State) (p : Option Part) (c d : Nat) (x : Site) : (s.raise p c d x).hostHeld = s.hostHeld := (State.raise_only s p c d x).hostHeld
@[simp] theorem State.raise_perst (s : State) (p : Option Part) (c d : Nat) (x : Site) : (s.raise p c d x).perst = s.perst := (State.raise_only s p c d x).perst
@[simp] theorem State.raise_ports (s : State) (p : Option Part) (c d : Nat) (x : Site) : (s.raise p c d x).ports = s.ports := (State.raise_only s p c d x).ports
@[simp] theorem State.raise_fab (s : State) (p : Option Part) (c d : Nat) (x : Site) : (s.raise p c d x).fab = s.fab := (State.raise_only s p c d x).fab
@[simp] theorem State.raise_doms (s : State) (p : Option Part) (c d : Nat) (x : Site) : (s.raise p c d x).doms = s.doms := (State.raise_only s p c d x).doms
@[simp] theorem State.raise_savedDoms (s : State) (p : Option Part) (c d : Nat) (x : Site) : (s.raise p c d x).savedDoms = s.savedDoms := (State.raise_only s p c d x).savedDoms
@[simp] theorem State.raise_draws (s : State) (p : Option Part) (c d : Nat) (x : Site) : (s.raise p c d x).draws = s.draws := (State.raise_only s p c d x).draws
@[simp] theorem State.raise_pending (s : State) (p : Option Part) (c d : Nat) (x : Site) : (s.raise p c d x).pending = s.pending := (State.raise_only s p c d x).pending

/-! ### faultAt -/

@[simp] theorem State.faultAt_time (s : State) (x : St) (c d l k : Nat) : (s.faultAt x c d l k).time = s.time := (State.faultAt_only s x c d l k).time
@[simp] theorem State.faultAt_stations (s : State) (x : St) (c d l k : Nat) : (s.faultAt x c d l k).stations = s.stations := (State.faultAt_only s x c d l k).stations
@[simp] theorem State.faultAt_mordants (s : State) (x : St) (c d l k : Nat) : (s.faultAt x c d l k).mordants = s.mordants := (State.faultAt_only s x c d l k).mordants
@[simp] theorem State.faultAt_mem (s : State) (x : St) (c d l k : Nat) : (s.faultAt x c d l k).mem = s.mem := (State.faultAt_only s x c d l k).mem
@[simp] theorem State.faultAt_poison (s : State) (x : St) (c d l k : Nat) : (s.faultAt x c d l k).poison = s.poison := (State.faultAt_only s x c d l k).poison
@[simp] theorem State.faultAt_stashPoison (s : State) (x : St) (c d l k : Nat) : (s.faultAt x c d l k).stashPoison = s.stashPoison := (State.faultAt_only s x c d l k).stashPoison
@[simp] theorem State.faultAt_fetches (s : State) (x : St) (c d l k : Nat) : (s.faultAt x c d l k).fetches = s.fetches := (State.faultAt_only s x c d l k).fetches
@[simp] theorem State.faultAt_writes (s : State) (x : St) (c d l k : Nat) : (s.faultAt x c d l k).writes = s.writes := (State.faultAt_only s x c d l k).writes
@[simp] theorem State.faultAt_morOps (s : State) (x : St) (c d l k : Nat) : (s.faultAt x c d l k).morOps = s.morOps := (State.faultAt_only s x c d l k).morOps
@[simp] theorem State.faultAt_descs (s : State) (x : St) (c d l k : Nat) : (s.faultAt x c d l k).descs = s.descs := (State.faultAt_only s x c d l k).descs
@[simp] theorem State.faultAt_xfers (s : State) (x : St) (c d l k : Nat) : (s.faultAt x c d l k).xfers = s.xfers := (State.faultAt_only s x c d l k).xfers
@[simp] theorem State.faultAt_towers (s : State) (x : St) (c d l k : Nat) : (s.faultAt x c d l k).towers = s.towers := (State.faultAt_only s x c d l k).towers
@[simp] theorem State.faultAt_route (s : State) (x : St) (c d l k : Nat) : (s.faultAt x c d l k).route = s.route := (State.faultAt_only s x c d l k).route
@[simp] theorem State.faultAt_clk (s : State) (x : St) (c d l k : Nat) : (s.faultAt x c d l k).clk = s.clk := (State.faultAt_only s x c d l k).clk
@[simp] theorem State.faultAt_pwr (s : State) (x : St) (c d l k : Nat) : (s.faultAt x c d l k).pwr = s.pwr := (State.faultAt_only s x c d l k).pwr
@[simp] theorem State.faultAt_hostHeld (s : State) (x : St) (c d l k : Nat) : (s.faultAt x c d l k).hostHeld = s.hostHeld := (State.faultAt_only s x c d l k).hostHeld
@[simp] theorem State.faultAt_perst (s : State) (x : St) (c d l k : Nat) : (s.faultAt x c d l k).perst = s.perst := (State.faultAt_only s x c d l k).perst
@[simp] theorem State.faultAt_ports (s : State) (x : St) (c d l k : Nat) : (s.faultAt x c d l k).ports = s.ports := (State.faultAt_only s x c d l k).ports
@[simp] theorem State.faultAt_fab (s : State) (x : St) (c d l k : Nat) : (s.faultAt x c d l k).fab = s.fab := (State.faultAt_only s x c d l k).fab
@[simp] theorem State.faultAt_doms (s : State) (x : St) (c d l k : Nat) : (s.faultAt x c d l k).doms = s.doms := (State.faultAt_only s x c d l k).doms
@[simp] theorem State.faultAt_savedDoms (s : State) (x : St) (c d l k : Nat) : (s.faultAt x c d l k).savedDoms = s.savedDoms := (State.faultAt_only s x c d l k).savedDoms
@[simp] theorem State.faultAt_draws (s : State) (x : St) (c d l k : Nat) : (s.faultAt x c d l k).draws = s.draws := (State.faultAt_only s x c d l k).draws
@[simp] theorem State.faultAt_pending (s : State) (x : St) (c d l k : Nat) : (s.faultAt x c d l k).pending = s.pending := (State.faultAt_only s x c d l k).pending

/-! ### faultIssue -/

@[simp] theorem State.faultIssue_time (s : State) (x : St) (l k : Nat) : (s.faultIssue x l k).time = s.time := (State.faultIssue_only s x l k).time
@[simp] theorem State.faultIssue_stations (s : State) (x : St) (l k : Nat) : (s.faultIssue x l k).stations = s.stations := (State.faultIssue_only s x l k).stations
@[simp] theorem State.faultIssue_mordants (s : State) (x : St) (l k : Nat) : (s.faultIssue x l k).mordants = s.mordants := (State.faultIssue_only s x l k).mordants
@[simp] theorem State.faultIssue_mem (s : State) (x : St) (l k : Nat) : (s.faultIssue x l k).mem = s.mem := (State.faultIssue_only s x l k).mem
@[simp] theorem State.faultIssue_poison (s : State) (x : St) (l k : Nat) : (s.faultIssue x l k).poison = s.poison := (State.faultIssue_only s x l k).poison
@[simp] theorem State.faultIssue_stashPoison (s : State) (x : St) (l k : Nat) : (s.faultIssue x l k).stashPoison = s.stashPoison := (State.faultIssue_only s x l k).stashPoison
@[simp] theorem State.faultIssue_fetches (s : State) (x : St) (l k : Nat) : (s.faultIssue x l k).fetches = s.fetches := (State.faultIssue_only s x l k).fetches
@[simp] theorem State.faultIssue_writes (s : State) (x : St) (l k : Nat) : (s.faultIssue x l k).writes = s.writes := (State.faultIssue_only s x l k).writes
@[simp] theorem State.faultIssue_morOps (s : State) (x : St) (l k : Nat) : (s.faultIssue x l k).morOps = s.morOps := (State.faultIssue_only s x l k).morOps
@[simp] theorem State.faultIssue_descs (s : State) (x : St) (l k : Nat) : (s.faultIssue x l k).descs = s.descs := (State.faultIssue_only s x l k).descs
@[simp] theorem State.faultIssue_xfers (s : State) (x : St) (l k : Nat) : (s.faultIssue x l k).xfers = s.xfers := (State.faultIssue_only s x l k).xfers
@[simp] theorem State.faultIssue_towers (s : State) (x : St) (l k : Nat) : (s.faultIssue x l k).towers = s.towers := (State.faultIssue_only s x l k).towers
@[simp] theorem State.faultIssue_route (s : State) (x : St) (l k : Nat) : (s.faultIssue x l k).route = s.route := (State.faultIssue_only s x l k).route
@[simp] theorem State.faultIssue_clk (s : State) (x : St) (l k : Nat) : (s.faultIssue x l k).clk = s.clk := (State.faultIssue_only s x l k).clk
@[simp] theorem State.faultIssue_pwr (s : State) (x : St) (l k : Nat) : (s.faultIssue x l k).pwr = s.pwr := (State.faultIssue_only s x l k).pwr
@[simp] theorem State.faultIssue_hostHeld (s : State) (x : St) (l k : Nat) : (s.faultIssue x l k).hostHeld = s.hostHeld := (State.faultIssue_only s x l k).hostHeld
@[simp] theorem State.faultIssue_perst (s : State) (x : St) (l k : Nat) : (s.faultIssue x l k).perst = s.perst := (State.faultIssue_only s x l k).perst
@[simp] theorem State.faultIssue_ports (s : State) (x : St) (l k : Nat) : (s.faultIssue x l k).ports = s.ports := (State.faultIssue_only s x l k).ports
@[simp] theorem State.faultIssue_fab (s : State) (x : St) (l k : Nat) : (s.faultIssue x l k).fab = s.fab := (State.faultIssue_only s x l k).fab
@[simp] theorem State.faultIssue_doms (s : State) (x : St) (l k : Nat) : (s.faultIssue x l k).doms = s.doms := (State.faultIssue_only s x l k).doms
@[simp] theorem State.faultIssue_savedDoms (s : State) (x : St) (l k : Nat) : (s.faultIssue x l k).savedDoms = s.savedDoms := (State.faultIssue_only s x l k).savedDoms
@[simp] theorem State.faultIssue_draws (s : State) (x : St) (l k : Nat) : (s.faultIssue x l k).draws = s.draws := (State.faultIssue_only s x l k).draws
@[simp] theorem State.faultIssue_pending (s : State) (x : St) (l k : Nat) : (s.faultIssue x l k).pending = s.pending := (State.faultIssue_only s x l k).pending

/-! ### faultFire -/

@[simp] theorem State.faultFire_time (s : State) (x : St) (l k : Nat) : (s.faultFire x l k).time = s.time := (State.faultFire_only s x l k).time
@[simp] theorem State.faultFire_stations (s : State) (x : St) (l k : Nat) : (s.faultFire x l k).stations = s.stations := (State.faultFire_only s x l k).stations
@[simp] theorem State.faultFire_mordants (s : State) (x : St) (l k : Nat) : (s.faultFire x l k).mordants = s.mordants := (State.faultFire_only s x l k).mordants
@[simp] theorem State.faultFire_mem (s : State) (x : St) (l k : Nat) : (s.faultFire x l k).mem = s.mem := (State.faultFire_only s x l k).mem
@[simp] theorem State.faultFire_poison (s : State) (x : St) (l k : Nat) : (s.faultFire x l k).poison = s.poison := (State.faultFire_only s x l k).poison
@[simp] theorem State.faultFire_stashPoison (s : State) (x : St) (l k : Nat) : (s.faultFire x l k).stashPoison = s.stashPoison := (State.faultFire_only s x l k).stashPoison
@[simp] theorem State.faultFire_fetches (s : State) (x : St) (l k : Nat) : (s.faultFire x l k).fetches = s.fetches := (State.faultFire_only s x l k).fetches
@[simp] theorem State.faultFire_writes (s : State) (x : St) (l k : Nat) : (s.faultFire x l k).writes = s.writes := (State.faultFire_only s x l k).writes
@[simp] theorem State.faultFire_morOps (s : State) (x : St) (l k : Nat) : (s.faultFire x l k).morOps = s.morOps := (State.faultFire_only s x l k).morOps
@[simp] theorem State.faultFire_descs (s : State) (x : St) (l k : Nat) : (s.faultFire x l k).descs = s.descs := (State.faultFire_only s x l k).descs
@[simp] theorem State.faultFire_xfers (s : State) (x : St) (l k : Nat) : (s.faultFire x l k).xfers = s.xfers := (State.faultFire_only s x l k).xfers
@[simp] theorem State.faultFire_towers (s : State) (x : St) (l k : Nat) : (s.faultFire x l k).towers = s.towers := (State.faultFire_only s x l k).towers
@[simp] theorem State.faultFire_route (s : State) (x : St) (l k : Nat) : (s.faultFire x l k).route = s.route := (State.faultFire_only s x l k).route
@[simp] theorem State.faultFire_clk (s : State) (x : St) (l k : Nat) : (s.faultFire x l k).clk = s.clk := (State.faultFire_only s x l k).clk
@[simp] theorem State.faultFire_pwr (s : State) (x : St) (l k : Nat) : (s.faultFire x l k).pwr = s.pwr := (State.faultFire_only s x l k).pwr
@[simp] theorem State.faultFire_hostHeld (s : State) (x : St) (l k : Nat) : (s.faultFire x l k).hostHeld = s.hostHeld := (State.faultFire_only s x l k).hostHeld
@[simp] theorem State.faultFire_perst (s : State) (x : St) (l k : Nat) : (s.faultFire x l k).perst = s.perst := (State.faultFire_only s x l k).perst
@[simp] theorem State.faultFire_ports (s : State) (x : St) (l k : Nat) : (s.faultFire x l k).ports = s.ports := (State.faultFire_only s x l k).ports
@[simp] theorem State.faultFire_fab (s : State) (x : St) (l k : Nat) : (s.faultFire x l k).fab = s.fab := (State.faultFire_only s x l k).fab
@[simp] theorem State.faultFire_doms (s : State) (x : St) (l k : Nat) : (s.faultFire x l k).doms = s.doms := (State.faultFire_only s x l k).doms
@[simp] theorem State.faultFire_savedDoms (s : State) (x : St) (l k : Nat) : (s.faultFire x l k).savedDoms = s.savedDoms := (State.faultFire_only s x l k).savedDoms
@[simp] theorem State.faultFire_draws (s : State) (x : St) (l k : Nat) : (s.faultFire x l k).draws = s.draws := (State.faultFire_only s x l k).draws
@[simp] theorem State.faultFire_pending (s : State) (x : St) (l k : Nat) : (s.faultFire x l k).pending = s.pending := (State.faultFire_only s x l k).pending

/-! ### faultPoison -/

@[simp] theorem State.faultPoison_time (s : State) (x : St) (l k : Nat) : (s.faultPoison x l k).time = s.time := (State.faultPoison_only s x l k).time
@[simp] theorem State.faultPoison_stations (s : State) (x : St) (l k : Nat) : (s.faultPoison x l k).stations = s.stations := (State.faultPoison_only s x l k).stations
@[simp] theorem State.faultPoison_mordants (s : State) (x : St) (l k : Nat) : (s.faultPoison x l k).mordants = s.mordants := (State.faultPoison_only s x l k).mordants
@[simp] theorem State.faultPoison_mem (s : State) (x : St) (l k : Nat) : (s.faultPoison x l k).mem = s.mem := (State.faultPoison_only s x l k).mem
@[simp] theorem State.faultPoison_poison (s : State) (x : St) (l k : Nat) : (s.faultPoison x l k).poison = s.poison := (State.faultPoison_only s x l k).poison
@[simp] theorem State.faultPoison_stashPoison (s : State) (x : St) (l k : Nat) : (s.faultPoison x l k).stashPoison = s.stashPoison := (State.faultPoison_only s x l k).stashPoison
@[simp] theorem State.faultPoison_fetches (s : State) (x : St) (l k : Nat) : (s.faultPoison x l k).fetches = s.fetches := (State.faultPoison_only s x l k).fetches
@[simp] theorem State.faultPoison_writes (s : State) (x : St) (l k : Nat) : (s.faultPoison x l k).writes = s.writes := (State.faultPoison_only s x l k).writes
@[simp] theorem State.faultPoison_morOps (s : State) (x : St) (l k : Nat) : (s.faultPoison x l k).morOps = s.morOps := (State.faultPoison_only s x l k).morOps
@[simp] theorem State.faultPoison_descs (s : State) (x : St) (l k : Nat) : (s.faultPoison x l k).descs = s.descs := (State.faultPoison_only s x l k).descs
@[simp] theorem State.faultPoison_xfers (s : State) (x : St) (l k : Nat) : (s.faultPoison x l k).xfers = s.xfers := (State.faultPoison_only s x l k).xfers
@[simp] theorem State.faultPoison_towers (s : State) (x : St) (l k : Nat) : (s.faultPoison x l k).towers = s.towers := (State.faultPoison_only s x l k).towers
@[simp] theorem State.faultPoison_route (s : State) (x : St) (l k : Nat) : (s.faultPoison x l k).route = s.route := (State.faultPoison_only s x l k).route
@[simp] theorem State.faultPoison_clk (s : State) (x : St) (l k : Nat) : (s.faultPoison x l k).clk = s.clk := (State.faultPoison_only s x l k).clk
@[simp] theorem State.faultPoison_pwr (s : State) (x : St) (l k : Nat) : (s.faultPoison x l k).pwr = s.pwr := (State.faultPoison_only s x l k).pwr
@[simp] theorem State.faultPoison_hostHeld (s : State) (x : St) (l k : Nat) : (s.faultPoison x l k).hostHeld = s.hostHeld := (State.faultPoison_only s x l k).hostHeld
@[simp] theorem State.faultPoison_perst (s : State) (x : St) (l k : Nat) : (s.faultPoison x l k).perst = s.perst := (State.faultPoison_only s x l k).perst
@[simp] theorem State.faultPoison_ports (s : State) (x : St) (l k : Nat) : (s.faultPoison x l k).ports = s.ports := (State.faultPoison_only s x l k).ports
@[simp] theorem State.faultPoison_fab (s : State) (x : St) (l k : Nat) : (s.faultPoison x l k).fab = s.fab := (State.faultPoison_only s x l k).fab
@[simp] theorem State.faultPoison_doms (s : State) (x : St) (l k : Nat) : (s.faultPoison x l k).doms = s.doms := (State.faultPoison_only s x l k).doms
@[simp] theorem State.faultPoison_savedDoms (s : State) (x : St) (l k : Nat) : (s.faultPoison x l k).savedDoms = s.savedDoms := (State.faultPoison_only s x l k).savedDoms
@[simp] theorem State.faultPoison_draws (s : State) (x : St) (l k : Nat) : (s.faultPoison x l k).draws = s.draws := (State.faultPoison_only s x l k).draws
@[simp] theorem State.faultPoison_pending (s : State) (x : St) (l k : Nat) : (s.faultPoison x l k).pending = s.pending := (State.faultPoison_only s x l k).pending

/-! ### count -/

@[simp] theorem State.count_time (s : State) (a b n : Nat) : (s.count a b n).time = s.time := rfl
@[simp] theorem State.count_stations (s : State) (a b n : Nat) : (s.count a b n).stations = s.stations := rfl
@[simp] theorem State.count_parts (s : State) (a b n : Nat) : (s.count a b n).parts = s.parts := rfl
@[simp] theorem State.count_mordants (s : State) (a b n : Nat) : (s.count a b n).mordants = s.mordants := rfl
@[simp] theorem State.count_mem (s : State) (a b n : Nat) : (s.count a b n).mem = s.mem := rfl
@[simp] theorem State.count_poison (s : State) (a b n : Nat) : (s.count a b n).poison = s.poison := rfl
@[simp] theorem State.count_stashPoison (s : State) (a b n : Nat) : (s.count a b n).stashPoison = s.stashPoison := rfl
@[simp] theorem State.count_fetches (s : State) (a b n : Nat) : (s.count a b n).fetches = s.fetches := rfl
@[simp] theorem State.count_writes (s : State) (a b n : Nat) : (s.count a b n).writes = s.writes := rfl
@[simp] theorem State.count_morOps (s : State) (a b n : Nat) : (s.count a b n).morOps = s.morOps := rfl
@[simp] theorem State.count_descs (s : State) (a b n : Nat) : (s.count a b n).descs = s.descs := rfl
@[simp] theorem State.count_xfers (s : State) (a b n : Nat) : (s.count a b n).xfers = s.xfers := rfl
@[simp] theorem State.count_towers (s : State) (a b n : Nat) : (s.count a b n).towers = s.towers := rfl
@[simp] theorem State.count_route (s : State) (a b n : Nat) : (s.count a b n).route = s.route := rfl
@[simp] theorem State.count_clk (s : State) (a b n : Nat) : (s.count a b n).clk = s.clk := rfl
@[simp] theorem State.count_pwr (s : State) (a b n : Nat) : (s.count a b n).pwr = s.pwr := rfl
@[simp] theorem State.count_stw (s : State) (a b n : Nat) : (s.count a b n).stw = s.stw := rfl
@[simp] theorem State.count_host (s : State) (a b n : Nat) : (s.count a b n).host = s.host := rfl
@[simp] theorem State.count_hostHeld (s : State) (a b n : Nat) : (s.count a b n).hostHeld = s.hostHeld := rfl
@[simp] theorem State.count_perst (s : State) (a b n : Nat) : (s.count a b n).perst = s.perst := rfl
@[simp] theorem State.count_ports (s : State) (a b n : Nat) : (s.count a b n).ports = s.ports := rfl
@[simp] theorem State.count_fab (s : State) (a b n : Nat) : (s.count a b n).fab = s.fab := rfl
@[simp] theorem State.count_health (s : State) (a b n : Nat) : (s.count a b n).health = s.health := rfl
@[simp] theorem State.count_saved (s : State) (a b n : Nat) : (s.count a b n).saved = s.saved := rfl
@[simp] theorem State.count_doms (s : State) (a b n : Nat) : (s.count a b n).doms = s.doms := rfl
@[simp] theorem State.count_savedDoms (s : State) (a b n : Nat) : (s.count a b n).savedDoms = s.savedDoms := rfl
@[simp] theorem State.count_beat (s : State) (a b n : Nat) : (s.count a b n).beat = s.beat := rfl
@[simp] theorem State.count_faults (s : State) (a b n : Nat) : (s.count a b n).faults = s.faults := rfl
@[simp] theorem State.count_faultHold (s : State) (a b n : Nat) : (s.count a b n).faultHold = s.faultHold := rfl
@[simp] theorem State.count_faultLost (s : State) (a b n : Nat) : (s.count a b n).faultLost = s.faultLost := rfl
@[simp] theorem State.count_acked (s : State) (a b n : Nat) : (s.count a b n).acked = s.acked := rfl
@[simp] theorem State.count_seqNext (s : State) (a b n : Nat) : (s.count a b n).seqNext = s.seqNext := rfl
@[simp] theorem State.count_draws (s : State) (a b n : Nat) : (s.count a b n).draws = s.draws := rfl
@[simp] theorem State.count_out (s : State) (a b n : Nat) : (s.count a b n).out = s.out := rfl
@[simp] theorem State.count_pending (s : State) (a b n : Nat) : (s.count a b n).pending = s.pending := rfl

/-! ### saveReg -/

@[simp] theorem State.saveReg_time (s : State) (a b v : Nat) : (s.saveReg a b v).time = s.time := rfl
@[simp] theorem State.saveReg_stations (s : State) (a b v : Nat) : (s.saveReg a b v).stations = s.stations := rfl
@[simp] theorem State.saveReg_parts (s : State) (a b v : Nat) : (s.saveReg a b v).parts = s.parts := rfl
@[simp] theorem State.saveReg_mordants (s : State) (a b v : Nat) : (s.saveReg a b v).mordants = s.mordants := rfl
@[simp] theorem State.saveReg_mem (s : State) (a b v : Nat) : (s.saveReg a b v).mem = s.mem := rfl
@[simp] theorem State.saveReg_poison (s : State) (a b v : Nat) : (s.saveReg a b v).poison = s.poison := rfl
@[simp] theorem State.saveReg_stashPoison (s : State) (a b v : Nat) : (s.saveReg a b v).stashPoison = s.stashPoison := rfl
@[simp] theorem State.saveReg_fetches (s : State) (a b v : Nat) : (s.saveReg a b v).fetches = s.fetches := rfl
@[simp] theorem State.saveReg_writes (s : State) (a b v : Nat) : (s.saveReg a b v).writes = s.writes := rfl
@[simp] theorem State.saveReg_morOps (s : State) (a b v : Nat) : (s.saveReg a b v).morOps = s.morOps := rfl
@[simp] theorem State.saveReg_descs (s : State) (a b v : Nat) : (s.saveReg a b v).descs = s.descs := rfl
@[simp] theorem State.saveReg_xfers (s : State) (a b v : Nat) : (s.saveReg a b v).xfers = s.xfers := rfl
@[simp] theorem State.saveReg_towers (s : State) (a b v : Nat) : (s.saveReg a b v).towers = s.towers := rfl
@[simp] theorem State.saveReg_route (s : State) (a b v : Nat) : (s.saveReg a b v).route = s.route := rfl
@[simp] theorem State.saveReg_clk (s : State) (a b v : Nat) : (s.saveReg a b v).clk = s.clk := rfl
@[simp] theorem State.saveReg_pwr (s : State) (a b v : Nat) : (s.saveReg a b v).pwr = s.pwr := rfl
@[simp] theorem State.saveReg_stw (s : State) (a b v : Nat) : (s.saveReg a b v).stw = s.stw := rfl
@[simp] theorem State.saveReg_host (s : State) (a b v : Nat) : (s.saveReg a b v).host = s.host := rfl
@[simp] theorem State.saveReg_hostHeld (s : State) (a b v : Nat) : (s.saveReg a b v).hostHeld = s.hostHeld := rfl
@[simp] theorem State.saveReg_perst (s : State) (a b v : Nat) : (s.saveReg a b v).perst = s.perst := rfl
@[simp] theorem State.saveReg_ports (s : State) (a b v : Nat) : (s.saveReg a b v).ports = s.ports := rfl
@[simp] theorem State.saveReg_fab (s : State) (a b v : Nat) : (s.saveReg a b v).fab = s.fab := rfl
@[simp] theorem State.saveReg_health (s : State) (a b v : Nat) : (s.saveReg a b v).health = s.health := rfl
@[simp] theorem State.saveReg_doms (s : State) (a b v : Nat) : (s.saveReg a b v).doms = s.doms := rfl
@[simp] theorem State.saveReg_savedDoms (s : State) (a b v : Nat) : (s.saveReg a b v).savedDoms = s.savedDoms := rfl
@[simp] theorem State.saveReg_beat (s : State) (a b v : Nat) : (s.saveReg a b v).beat = s.beat := rfl
@[simp] theorem State.saveReg_faults (s : State) (a b v : Nat) : (s.saveReg a b v).faults = s.faults := rfl
@[simp] theorem State.saveReg_faultHold (s : State) (a b v : Nat) : (s.saveReg a b v).faultHold = s.faultHold := rfl
@[simp] theorem State.saveReg_faultLost (s : State) (a b v : Nat) : (s.saveReg a b v).faultLost = s.faultLost := rfl
@[simp] theorem State.saveReg_acked (s : State) (a b v : Nat) : (s.saveReg a b v).acked = s.acked := rfl
@[simp] theorem State.saveReg_seqNext (s : State) (a b v : Nat) : (s.saveReg a b v).seqNext = s.seqNext := rfl
@[simp] theorem State.saveReg_draws (s : State) (a b v : Nat) : (s.saveReg a b v).draws = s.draws := rfl
@[simp] theorem State.saveReg_out (s : State) (a b v : Nat) : (s.saveReg a b v).out = s.out := rfl
@[simp] theorem State.saveReg_pending (s : State) (a b v : Nat) : (s.saveReg a b v).pending = s.pending := rfl

end Sys2Proof.Machine
end

