-- ==== Sys2Proof/Laws/Registers.lean ====
section
/-!
SUPPORT. The dictionary's registers: a register reads as it was written last, and a write leaves every other register alone, while the map of
registers keeps its keys rising.
-/
namespace Sys2Proof.Machine

theorem risingFrom_mono {α : Type} (m : Sparse α) (a b : Nat) (h : a ≤ b) (hr : risingFrom b m = true) : risingFrom a m = true := by
  cases m with
  | nil => rfl
  | cons e m => simp [risingFrom] at hr ⊢; exact ⟨by omega, hr.2⟩

theorem find_rising {α : Type} (m : Sparse α) (lo k : Nat) (h : k < lo) (hr : risingFrom lo m = true) : m.find? (fun e => e.1 = k) = none := by
  induction m generalizing lo with
  | nil => rfl
  | cons e m ih =>
    simp [risingFrom] at hr
    rw [List.find?_cons_of_neg (by simp; omega)]
    exact ih (e.1 + 1) (by omega) hr.2

theorem risingFrom_sput {α : Type} [DecidableEq α] (d : α) (m : Sparse α) (lo k : Nat) (x : α) (h : lo ≤ k) (hr : risingFrom lo m = true) :
    risingFrom lo (sput d m k x) = true := by
  induction m generalizing lo with
  | nil => simp only [sput]; split <;> simp [risingFrom, h]
  | cons e m ih =>
    obtain ⟨a, v⟩ := e
    simp [risingFrom] at hr
    simp only [sput]
    split
    · split
      · simp [risingFrom, hr]
      · simp [risingFrom, h, hr]; omega
    · split
      · split
        · exact risingFrom_mono _ _ _ (by omega) hr.2
        · simp [risingFrom, h]; exact risingFrom_mono _ _ _ (by omega) hr.2
      · simp [risingFrom, hr.1]; exact ih (a + 1) (by omega) hr.2

/-- What a key reads as after a write to a map with rising keys. -/
theorem find_sput_same {α : Type} [DecidableEq α] (d : α) (m : Sparse α) (lo k : Nat) (x : α) (hr : risingFrom lo m = true) :
    (sput d m k x).find? (fun e => e.1 = k) = if x = d then none else some (k, x) := by
  induction m generalizing lo with
  | nil => simp only [sput]; split <;> simp
  | cons e m ih =>
    obtain ⟨a, v⟩ := e
    simp [risingFrom] at hr
    simp only [sput]
    split
    · next h =>
      split
      · rw [List.find?_cons_of_neg (by simp; omega)]; exact find_rising m (a + 1) k (by omega) hr.2
      · simp
    · split
      · next h h' =>
        split
        · exact find_rising m (a + 1) k (by omega) hr.2
        · simp
      · next h h' => rw [List.find?_cons_of_neg (by simpa using Ne.symm h')]; exact ih (a + 1) hr.2

theorem find_sput_other {α : Type} [DecidableEq α] (d : α) (m : Sparse α) (k j : Nat) (x : α) (h : j ≠ k) :
    (sput d m k x).find? (fun e => e.1 = j) = m.find? (fun e => e.1 = j) := by
  induction m with
  | nil => simp only [sput]; split <;> simp [Ne.symm h]
  | cons e m ih =>
    obtain ⟨a, v⟩ := e
    simp only [sput]
    split
    · split
      · rfl
      · rw [List.find?_cons_of_neg (by simpa using Ne.symm h)]
    · split
      · next h1 h2 =>
        subst h2
        split <;> simp [Ne.symm h]
      · simp only [List.find?_cons, ih]

theorem odDflt_lt (i b : Nat) : odDflt i b < 2 ^ 64 := by
  have h : odRows.all (fun r => decide (r.dflt < 2 ^ 64)) = true := by decide
  unfold odDflt
  split
  · decide
  · split
    · next r hr => exact of_decide_eq_true (List.all_eq_true.1 h r (List.mem_of_find?_eq_some hr))
    · decide

/-- A register reads as it was written. -/
theorem State.reg_setReg_same (s : State) (i b v : Nat) (hv : v < 2 ^ 64) (hr : risingFrom 0 s.dict = true) : (s.setReg i b v).reg i b = v := by
  simp only [State.reg, State.setReg, dictPut, find_sput_same _ _ 0 _ _ hr]
  split
  · next h =>
    split at h
    · cases h
    · cases h; simp; omega
  · next h =>
    split at h
    · next h' =>
      have := congrArg BitVec.toNat h'
      have hd := odDflt_lt i b
      simp at this; omega
    · cases h

/-- A write leaves every other register alone. -/
theorem State.reg_setReg_other (s : State) (i b j c v : Nat) (h : odKey j c ≠ odKey i b) : (s.setReg i b v).reg j c = s.reg j c := by
  simp only [State.reg, State.setReg, dictPut, find_sput_other _ _ _ _ _ h]

theorem State.setReg_rising (s : State) (i b v : Nat) (hr : risingFrom 0 s.dict = true) : risingFrom 0 (s.setReg i b v).dict = true :=
  risingFrom_sput _ _ _ _ _ (Nat.zero_le _) hr

theorem State.count_rising (s : State) (i b n : Nat) (hr : risingFrom 0 s.dict = true) : risingFrom 0 (s.count i b n).dict = true :=
  s.setReg_rising _ _ _ hr

/-- A counter after a count. -/
theorem State.reg_count_same (s : State) (i b n : Nat) (hr : risingFrom 0 s.dict = true) :
    (s.count i b n).reg i b = min (s.reg i b + n) 0xFFFFFFFF :=
  s.reg_setReg_same _ _ _ (by omega) hr

end Sys2Proof.Machine
end

