-- ==== Sys2Proof/Laws/Faults.lean ====
section
/-!
SUPPORT. What raising a fault records.
-/
namespace Sys2Proof.Machine

/-- A record ends the log, or the records that wait for the steward; but for SEQ and LOST it is the record given. -/
theorem State.record_newest (s : State) (r : FaultRec) : ∃ n l, (s.record r).newest s.stewardUp = some { r with seq := n, lost := l } := by
  unfold State.record State.newest
  cases hu : s.stewardUp
  · simp only [Bool.false_eq_true, if_false]
    split
    · exact ⟨r.seq, r.lost, by simp⟩
    · exact ⟨r.seq, r.lost, by simp⟩
  · simp only [if_true]
    refine ⟨s.seqNext, r.lost || s.faultLost || logLost s, ?_⟩
    simp only [State.logRec]
    rw [(State.notify_only _ _ _ _).faults]
    simp

theorem mem_beatAdd (r : FaultRec) : ∀ l : List FaultRec, r ∈ beatAdd l r
  | [] => by simp [beatAdd]
  | q :: l => by
    simp only [beatAdd]
    split
    · simp
    · exact List.mem_cons_of_mem _ (mem_beatAdd r l)

theorem State.stewardUp_of_reg {s t : State} (h : t.reg 0x1030 0 = s.reg 0x1030 0) : t.stewardUp = s.stewardUp := by unfold State.stewardUp; rw [h]

theorem State.count_stewardUp (s : State) (i b n : Nat) (h : 0x1030 < i) : (s.count i b n).stewardUp = s.stewardUp :=
  State.stewardUp_of_reg (s.reg_setReg_other i b 0x1030 0 _ (by unfold odKey; omega))

theorem State.saveReg_stewardUp (s : State) (i b v : Nat) (h : 0x1030 < i) : (s.saveReg i b v).stewardUp = s.stewardUp :=
  State.stewardUp_of_reg (s.reg_setReg_other i b 0x1030 0 _ (by unfold odKey; omega))

theorem State.suspect_stewardUp (s : State) (x : St) : (s.suspect x).stewardUp = s.stewardUp := by
  simp only [State.suspect, State.breakHour]
  rw [State.saveReg_stewardUp _ _ _ _ (by decide)]
  split
  · exact State.saveReg_stewardUp _ _ _ _ (by decide)
  · rfl

theorem State.modPart_stewardUp (s : State) (i : Part) (f : Partition → Partition) : (s.modPart i f).stewardUp = s.stewardUp := rfl
theorem State.modHealth_stewardUp (s : State) (i : St) (f : Health → Health) : (s.modHealth i f).stewardUp = s.stewardUp := rfl
theorem State.breakHour_stewardUp (s : State) : s.breakHour.stewardUp = s.stewardUp := State.saveReg_stewardUp _ _ _ _ (by decide)
theorem State.breach_stewardUp (s : State) (i : Nat) : (s.count 0x7016 i).stewardUp = s.stewardUp := State.count_stewardUp _ _ _ _ (by decide)

theorem State.noteFault_stewardUp (s : State) (p : Option Part) (c d : Nat) (x : Site) (e : Bool) : (s.noteFault p c d x e).stewardUp = s.stewardUp := by
  simp only [State.noteFault, apply_ite State.stewardUp, State.modPart_stewardUp, State.modHealth_stewardUp, State.breakHour_stewardUp, State.breach_stewardUp,
    State.suspect_stewardUp, ite_self]

/-- The record that raising a fault leaves. -/
theorem State.raise_records (s : State) (p : Option Part) (cls detail : Nat) (x : Site) : Records s (s.raise p cls detail x) p cls detail x := by
  simp only [State.raise]
  split
  · next h =>
    simp only [Bool.and_eq_true, List.any_eq_true] at h
    obtain ⟨_, r, hr, h⟩ := h
    simp only [FaultRec.same, Bool.and_eq_true, decide_eq_true_eq] at h
    obtain ⟨⟨⟨⟨⟨⟨⟨⟨-, h1⟩, h2⟩, h3⟩, h4⟩, h5⟩, h6⟩, h7⟩, h8⟩ := h
    exact ⟨r, .inl ⟨hr, .inr hr⟩, h1 ▸ rfl, h7 ▸ rfl, h2 ▸ rfl, h3 ▸ rfl, h4 ▸ rfl, h5 ▸ rfl, h6 ▸ rfl, h8 ▸ rfl⟩
  · split
    · exact ⟨s.faultRec p cls detail x, .inl ⟨mem_beatAdd _ _, .inl rfl⟩, rfl, rfl, rfl, rfl, rfl, rfl, rfl, rfl⟩
    · obtain ⟨n, l, h⟩ := State.record_newest (s.noteFault p cls detail x ((!(s.faultRec p cls detail x).nojob && jobLive (s.prt (p.getD 0))) && cls ≠ 0x0D)) (s.faultRec p cls detail x)
      rw [State.noteFault_stewardUp] at h
      exact ⟨_, .inr ⟨h, rfl⟩, rfl, rfl, rfl, rfl, rfl, rfl, rfl, rfl⟩

end Sys2Proof.Machine
end

