-- ==== Sys2Proof/Laws/Memory.lean ====
section
/-!
SUPPORT. Sparse maps in canonical form: a read after a write, and every operation of memory keeps the form.
-/
namespace Sys2Proof.Machine

/-! ### One write to a sparse map -/

theorem swfFrom_le {α : Type} [DecidableEq α] {d : α} {lo lo' : Nat} (hl : lo' ≤ lo) : ∀ {m : Sparse α}, swfFrom d lo m = true → swfFrom d lo' m = true
  | [], _ => rfl
  | (k, v) :: m, h => by simp [swfFrom] at h ⊢; exact ⟨⟨by omega, h.1.2⟩, h.2⟩

theorem sput_swfFrom {α : Type} [DecidableEq α] {d : α} : ∀ {lo : Nat} {m : Sparse α} {a : Nat} {x : α}, lo ≤ a → swfFrom d lo m = true →
    swfFrom d lo (sput d m a x) = true
  | lo, [], a, x, hl, _ => by
    by_cases hx : x = d <;> simp [sput, swfFrom, hx, hl]
  | lo, (k, v) :: m, a, x, hl, h => by
    simp only [swfFrom, Bool.and_eq_true, decide_eq_true_eq] at h
    obtain ⟨⟨h1, h2⟩, h3⟩ := h
    by_cases hk : a < k
    · by_cases hx : x = d
      · simp [sput, swfFrom, hk, hx, h1, h2, h3]
      · simp [sput, swfFrom, hk, hx, hl, h2, h3]
    · by_cases he : a = k
      · subst he
        by_cases hx : x = d
        · simp only [sput, hx, Nat.lt_irrefl, if_true, if_false]; exact swfFrom_le (by omega) h3
        · simp [sput, swfFrom, hx, hl, h3]
      · simp only [sput, hk, he, if_false, swfFrom, Bool.and_eq_true, decide_eq_true_eq]
        exact ⟨⟨h1, h2⟩, sput_swfFrom (by omega) h3⟩

theorem sput_swf {α : Type} [DecidableEq α] {d : α} {m : Sparse α} (h : swf d m = true) (a : Nat) (x : α) : swf d (sput d m a x) = true :=
  sput_swfFrom (Nat.zero_le a) h

theorem filter_swfFrom {α : Type} [DecidableEq α] {d : α} (f : Nat × α → Bool) : ∀ {lo : Nat} {m : Sparse α}, swfFrom d lo m = true →
    swfFrom d lo (m.filter f) = true
  | _, [], _ => rfl
  | lo, (k, v) :: m, h => by
    simp only [swfFrom, Bool.and_eq_true, decide_eq_true_eq] at h
    obtain ⟨⟨h1, h2⟩, h3⟩ := h
    by_cases hf : f (k, v)
    · simp [hf, swfFrom, h1, h2, filter_swfFrom f h3]
    · simp only [hf, List.filter_cons_of_neg, Bool.false_eq_true, not_false_eq_true]
      exact swfFrom_le (by omega) (filter_swfFrom f h3)

theorem filter_swf {α : Type} [DecidableEq α] {d : α} {m : Sparse α} (h : swf d m = true) (f : Nat × α → Bool) : swf d (m.filter f) = true :=
  filter_swfFrom f h

/-- A place other than the one written reads as before, whatever the map's form. -/
theorem sget_sput_other {α : Type} [DecidableEq α] (d : α) {a b : Nat} (hb : b ≠ a) (x : α) : ∀ m : Sparse α, sget d (sput d m a x) b = sget d m b
  | [] => by by_cases hx : x = d <;> simp [sput, sget, hx, hb]
  | (k, v) :: m => by
    by_cases hk : a < k
    · by_cases hx : x = d <;> simp [sput, sget, hk, hx, hb]
    · by_cases he : a = k
      · subst he; by_cases hx : x = d <;> simp [sput, sget, hx, hb]
      · simp only [sput, hk, he, if_false, sget, sget_sput_other d hb x m]

theorem sget_below {α : Type} [DecidableEq α] {d : α} {a : Nat} : ∀ {lo : Nat} {m : Sparse α}, a < lo → swfFrom d lo m = true → sget d m a = d
  | _, [], _, _ => rfl
  | lo, (k, v) :: m, h, hm => by
    simp only [swfFrom, Bool.and_eq_true, decide_eq_true_eq] at hm
    simp only [sget, show a ≠ k by omega, if_false]
    exact sget_below (by omega) hm.2

theorem sget_sput_from {α : Type} [DecidableEq α] {d : α} {a : Nat} {x : α} : ∀ {lo : Nat} {m : Sparse α}, swfFrom d lo m = true →
    sget d (sput d m a x) a = x
  | _, [], _ => by by_cases hx : x = d <;> simp [sput, sget, hx]
  | lo, (k, v) :: m, h => by
    simp only [swfFrom, Bool.and_eq_true, decide_eq_true_eq] at h
    by_cases hk : a < k
    · by_cases hx : x = d
      · simp only [sput, hk, hx, if_true, sget, show a ≠ k by omega, if_false]; exact sget_below (by omega) h.2
      · simp [sput, hk, hx, sget]
    · by_cases he : a = k
      · subst he
        by_cases hx : x = d
        · simp only [sput, hx, Nat.lt_irrefl, if_true, if_false]; exact sget_below (by omega) h.2
        · simp [sput, sget, hx]
      · simp only [sput, hk, he, if_false, sget]; exact sget_sput_from h.2

/-- The place written reads as what was written. -/
theorem sget_sput {α : Type} [DecidableEq α] {d : α} {m : Sparse α} (h : swf d m = true) (a : Nat) (x : α) : sget d (sput d m a x) a = x :=
  sget_sput_from h

/-! ### Bytes of memory -/

theorem State.byte_putByte {s : State} (h : Memory.wf s.mem = true) (a : Nat) (b : Byte) : (s.putByte a b).byte a = b := sget_sput h a b
theorem State.byte_putByte_other (s : State) {a c : Nat} (hc : c ≠ a) (b : Byte) : (s.putByte a b).byte c = s.byte c := sget_sput_other 0 hc b s.mem
theorem State.putByte_wf {s : State} (h : Memory.wf s.mem = true) (a : Nat) (b : Byte) : Memory.wf (s.putByte a b).mem = true := sput_swf h a b

theorem State.putBytes_wf {l : List Byte} : ∀ {s : State} {a : Nat}, Memory.wf s.mem = true → Memory.wf (s.putBytes a l).mem = true := by
  induction l with
  | nil => exact fun h => h
  | cons b l ih => exact fun h => ih (State.putByte_wf h _ _)

/-- Every byte outside the extent reads as before. -/
theorem State.byte_putBytes_other {l : List Byte} : ∀ {s : State} {a c : Nat}, (c < a ∨ a + l.length ≤ c) → (s.putBytes a l).byte c = s.byte c := by
  induction l with
  | nil => exact fun _ => rfl
  | cons b l ih =>
    intro s a c h
    simp only [List.length_cons] at h
    exact (ih (s := s.putByte a b) (by omega)).trans (State.byte_putByte_other s (by omega) b)

/-- A byte of the extent reads as what was written there. -/
theorem State.byte_putBytes {l : List Byte} : ∀ {s : State} {a : Nat}, Memory.wf s.mem = true → ∀ {i : Nat} {b : Byte}, l[i]? = some b →
    (s.putBytes a l).byte (a + i) = b := by
  induction l with
  | nil => intro s a _ i b h; simp at h
  | cons x l ih =>
    intro s a hs i b h
    cases i with
    | zero =>
      simp at h; subst h
      exact (State.byte_putBytes_other (s := s.putByte a x) (by omega)).trans (State.byte_putByte hs a x)
    | succ i =>
      have := ih (s := s.putByte a x) (a := a + 1) (State.putByte_wf hs a x) (i := i) (b := b) (by simpa using h)
      rwa [show a + 1 + i = a + (i + 1) by omega] at this

theorem foldl_mem {α : Type} (f : State → α → State) (hf : ∀ s a, (f s a).mem = s.mem) : ∀ (l : List α) (s : State), (l.foldl f s).mem = s.mem
  | [], _ => rfl
  | a :: l, s => (foldl_mem f hf l (f s a)).trans (hf s a)

theorem foldl_poison_wf {α : Type} (f : State → α → State) (hf : ∀ s a, Memory.wf s.poison = true → Memory.wf (f s a).poison = true) :
    ∀ (l : List α) (s : State), Memory.wf s.poison = true → Memory.wf (l.foldl f s).poison = true
  | [], _, h => h
  | a :: l, s, h => foldl_poison_wf f hf l (f s a) (hf s a h)

theorem State.setSector_wf {s : State} (h : Memory.wf s.poison = true) (k : Nat) (x : Byte) : Memory.wf (s.setSector k x).poison = true := sput_swf h k x

theorem State.putBytes_only (l : List Byte) : ∀ (s : State) (a : Nat), s.putBytes a l = { s with mem := (s.putBytes a l).mem } := by
  induction l with
  | nil => intro s a; rfl
  | cons b l ih =>
    intro s a
    simp only [State.putBytes]
    rw [ih]; rfl

theorem State.towerWrite_bytes (s : State) (a : Nat) (l : List PByte) : (s.towerWrite a l).mem = (s.putBytes a (rawBytes l)).mem := by
  have h : ∀ (l : List Byte) (s t : State) (a : Nat), t.mem = s.mem → (t.putBytes a l).mem = (s.putBytes a l).mem := by
    intro l
    induction l with
    | nil => exact fun _ _ _ h => h
    | cons b l ih => intro s t a h; exact ih _ _ _ (by simp [State.putByte, h])
  refine h _ _ _ _ (foldl_mem _ ?_ _ _)
  intro s k; dsimp only; split <;> (try split) <;> rfl

theorem State.stashWrite_bytes (s : State) (a : Nat) (l : List PByte) : (s.stashWrite a l).mem = (s.putBytes a (rawBytes l)).mem := by
  have h : ∀ (l : List Byte) (s t : State) (a : Nat), t.mem = s.mem → (t.putBytes a l).mem = (s.putBytes a l).mem := by
    intro l
    induction l with
    | nil => exact fun _ _ _ h => h
    | cons b l ih => intro s t a h; exact ih _ _ _ (by simp [State.putByte, h])
  refine h _ _ _ _ (foldl_mem _ ?_ _ _)
  intro s k; dsimp only; split <;> (try split) <;> rfl

/-! ### Every operation of memory keeps its form -/

theorem State.towerWrite_wf {s : State} (h : Memory.wf s.mem = true) (a : Nat) (l : List PByte) : Memory.wf (s.towerWrite a l).mem = true := by
  rw [State.towerWrite_bytes]; exact State.putBytes_wf h

theorem State.stashWrite_wf {s : State} (h : Memory.wf s.mem = true) (a : Nat) (l : List PByte) : Memory.wf (s.stashWrite a l).mem = true := by
  rw [State.stashWrite_bytes]; exact State.putBytes_wf h

theorem State.memWrite_wf {s : State} (h : Memory.wf s.mem = true) (a : Nat) (l : List PByte) : Memory.wf (s.memWrite a l).mem = true := by
  unfold State.memWrite
  split
  · exact State.towerWrite_wf h a l
  · exact State.stashWrite_wf h a l
  · exact h

theorem State.towerWrite_poison_wf {s : State} (h : Memory.wf s.poison = true) (a : Nat) (l : List PByte) :
    Memory.wf (s.towerWrite a l).poison = true := by
  simp only [State.towerWrite]
  rw [State.putBytes_only]
  refine foldl_poison_wf _ ?_ _ _ h
  intro s k h; split <;> (try split) <;> first | exact h | exact State.setSector_wf h _ _

theorem State.zeroExtent_wf {s : State} (h : Memory.wf s.mem = true) (a n : Nat) : Memory.wf (s.zeroExtent a n).mem = true := filter_swf h _
theorem State.zeroTowers_wf {s : State} (h : Memory.wf s.mem = true) : Memory.wf s.zeroTowers.mem = true := filter_swf h _
theorem State.zeroStashes_wf {s : State} (h : Memory.wf s.mem = true) : Memory.wf s.zeroStashes.mem = true := filter_swf h _

theorem State.setMor_wf {s : State} (h : swf mordant0 s.mordants = true) (m : Nat) (x : Mordant) : swf mordant0 (s.setMor m x).mordants = true :=
  sput_swf h m x

theorem State.mor_setMor {s : State} (h : swf mordant0 s.mordants = true) (m : Nat) (x : Mordant) : (s.setMor m x).mor m = x := sget_sput h m x
theorem State.mor_setMor_other (s : State) {m n : Nat} (h : n ≠ m) (x : Mordant) : (s.setMor m x).mor n = s.mor n := sget_sput_other mordant0 h x s.mordants

theorem reset_memory_wf : Memory.wf State.reset.mem = true := rfl

end Sys2Proof.Machine
end

