-- ==== Sys2Proof/Laws/Sequencer.lean ====
section
/-!
SUPPORT. The shared operation of issue: what it answers for an instruction that is ready, everything it can answer, and the unit queues.
-/
namespace Sys2Proof.Machine

/-- Issue of an instruction that is ready comes to its own checks. -/
theorem issue_of_ready {s : State} {st : St} {p : Part} {op : Nat} {w : W128} (h : s.readyFor st p op w = true)
    (body : State → Part → St → Entry → Chk) {s' : State} {npc : Nat} (hb : body s p st ((s.stn st).entryFor w) = .ok s' npc) :
    issue op body s st = .next (s'.modSt st fun y => { y with sq := y.sq.issued w npc }) := by
  simp [State.readyFor] at h
  obtain ⟨⟨⟨⟨⟨⟨⟨⟨h1, h2⟩, h3⟩, h4⟩, h5⟩, h6⟩, h7⟩, h8⟩, h9⟩ := h
  simp only [issue, h1, h3, h4, h5, h6, h7, h8, h9]
  simp only [Station.entryFor] at hb
  simp [Nat.not_le.2 h2, hb, next]

/-- The outcomes of issue: nothing, a fault at the instruction, or the instruction's own effect with the sequencer past it. -/
theorem issue_cases (op : Nat) (body : State → Part → St → Entry → Chk) (s t : State) (st : St) (h : issue op body s st = .next t) :
    t = s ∨ (∃ l, t = s.faultIssue st l (s.stn st).sq.pc) ∨ (t = s.faultPoison st noLoc2 (s.stn st).sq.pc ∨ t = s.faultWord st) ∨
    ∃ p w s' npc, s.issuing st = some p ∧ (s.stn st).instrAt (s.prt p).prog (s.stn st).sq.pc = (w, false) ∧ opc w = op ∧
      body s p st ((s.stn st).entryFor w) = .ok s' npc ∧ t = s'.modSt st fun y => { y with sq := y.sq.issued w npc } := by
  unfold issue at h
  simp only [noEvent, next] at h
  split at h
  · cases h; exact .inl rfl
  · next p hp =>
    split at h
    · cases h; exact .inr (.inl ⟨_, rfl⟩)
    · split at h
      · cases h; exact .inr (.inr (.inl (.inr rfl)))
      · next hpo =>
        split at h
        · cases h; exact .inl rfl
        · next hop =>
          split at h
          · cases h; exact .inl rfl
          · split at h
            · cases h; exact .inr (.inl ⟨_, rfl⟩)
            · split at h
              · cases h; exact .inr (.inr (.inl (.inl rfl)))
              · split at h
                · cases h; exact .inr (.inl ⟨_, rfl⟩)
                · split at h
                  · cases h; exact .inr (.inl ⟨_, rfl⟩)
                  · cases h; exact .inl rfl
                  · next s' npc hb =>
                    cases h
                    refine .inr (.inr (.inr ⟨p, _, s', npc, hp, ?_, ?_, hb, rfl⟩))
                    · exact Prod.ext rfl (by simpa using hpo)
                    · simpa using hop

/-! ### Unit queues -/

theorem Station.queue_setQueue (x : Station) (u v : UnitQ) (q : List Entry) : (x.setQueue u q).queue v = if v = u then q else x.queue v := by
  rcases u with a | (_ | _) | _ | _ | _ | _ | _ | _ | _ <;> rcases v with b | (_ | _) | _ | _ | _ | _ | _ | _ | _ <;>
    simp [Station.queue, Station.setQueue, Station.modLane, Station.lane, vget_vset]

theorem Station.setQueue_sq (x : Station) (u : UnitQ) (q : List Entry) : (x.setQueue u q).sq = x.sq := by
  rcases u with a | a | _ | _ | _ | _ | _ | _ | _ <;> try rfl
  cases a <;> rfl

theorem unitsFor_nodup (w : W128) : (unitsFor w).Nodup := by
  unfold unitsFor
  split <;> try simp
  split
  · simp
  · split <;> simp

theorem Station.queue_push (x : Station) (us : List UnitQ) (e : Entry) (hn : us.Nodup) (u : UnitQ) :
    (x.push us e).queue u = x.queue u ++ (if us.contains u then [e] else []) := by
  induction us generalizing x with
  | nil => simp [Station.push]
  | cons v us ih =>
    have := ih (x.setQueue v (x.queue v ++ [e])) hn.of_cons
    simp only [Station.push, List.foldl_cons] at this ⊢
    rw [this, Station.queue_setQueue]
    have hv : v ∉ us := (List.nodup_cons.1 hn).1
    by_cases h : u = v
    · subst h; simp [hv]
    · simp [h]

theorem Station.push_sq (x : Station) (us : List UnitQ) (e : Entry) : (x.push us e).sq = x.sq := by
  induction us generalizing x with
  | nil => rfl
  | cons v us ih =>
    have := ih (x.setQueue v (x.queue v ++ [e]))
    simp only [Station.push, List.foldl_cons] at this ⊢
    rw [this, Station.setQueue_sq]

/-- An instruction whose own checks end in `enqueue`, with a change of the station that touches neither its queues nor its sequencer, is issued. -/
theorem issue_enqueue {s : State} {st : St} {p : Part} {op : Nat} {w : W128} (h : s.readyFor st p op w = true)
    (body : State → Part → St → Entry → Chk) (f : Station → Station)
    (hq : ∀ u, (f (s.stn st)).queue u = (s.stn st).queue u) (hs : (f (s.stn st)).sq = (s.stn st).sq)
    (hb : body s p st ((s.stn st).entryFor w) = enqueue (s.modSt st f) st ((s.stn st).entryFor w)) :
    ∃ t, issue op body s st = .next t ∧ IssuedAt s t st w ∧
      ∃ y : Seqr, t.stn st = { (f (s.stn st)).push (unitsFor w) ((s.stn st).entryFor w) with sq := y } := by
  refine ⟨_, issue_of_ready h body hb, ⟨?_, ?_, ?_, ?_, ?_⟩, ?_⟩
  · intro u
    have hq' : ∀ (y : Station) (z : Seqr), ({ y with sq := z } : Station).queue u = y.queue u := by
      intro y z; rcases u with a | (_ | _) | _ | _ | _ | _ | _ | _ | _ <;> rfl
    have hw : ((s.stn st).entryFor w).word = w := rfl
    simp only [State.stn_modSt_same, hq', hw, Station.queue_push _ _ _ (unitsFor_nodup w), hq]
  · simp [Seqr.issued, Station.entryFor]
  · simp [Seqr.issued, Station.push_sq, hs]
  · simp [Seqr.issued, Station.push_sq, hs]
  · intro a ha
    simp [State.stn_modSt_other _ _ _ _ ha]
  · exact ⟨_, by rw [State.stn_modSt_same, State.stn_modSt_same, State.stn_modSt_same]; rfl⟩

theorem Station.push_book (x : Station) (us : List UnitQ) (e : Entry) (v : VatNo) : (x.push us e).book v = x.book v := by
  induction us generalizing x with
  | nil => rfl
  | cons u us ih =>
    have := ih (x.setQueue u (x.queue u ++ [e]))
    simp only [Station.push, List.foldl_cons] at this ⊢
    rw [this]
    rcases u with a | (_ | _) | _ | _ | _ | _ | _ | _ | _ <;> rfl

theorem Station.push_tbooks (x : Station) (us : List UnitQ) (e : Entry) : (x.push us e).tbooks = x.tbooks := by
  induction us generalizing x with
  | nil => rfl
  | cons u us ih =>
    have := ih (x.setQueue u (x.queue u ++ [e]))
    simp only [Station.push, List.foldl_cons] at this ⊢
    rw [this]
    rcases u with a | (_ | _) | _ | _ | _ | _ | _ | _ | _ <;> rfl

theorem Station.push_takeVats (x : Station) (us : List UnitQ) (e : Entry) : (x.push us e).takeVats = x.takeVats := by
  induction us generalizing x with
  | nil => rfl
  | cons u us ih =>
    have := ih (x.setQueue u (x.queue u ++ [e]))
    simp only [Station.push, List.foldl_cons] at this ⊢
    rw [this]
    rcases u with a | (_ | _) | _ | _ | _ | _ | _ | _ | _ <;> rfl

/-- What the checks at issue see of the array. -/
theorem Station.push_bkShape (x : Station) (us : List UnitQ) (e : Entry) :
    (x.push us e).arr.bkShape = x.arr.bkShape ∧ (x.push us e).arr.bkLoad = x.arr.bkLoad ∧ (x.push us e).arr.bkActive = x.arr.bkActive := by
  induction us generalizing x with
  | nil => exact ⟨rfl, rfl, rfl⟩
  | cons u us ih =>
    have := ih (x.setQueue u (x.queue u ++ [e]))
    simp only [Station.push, List.foldl_cons] at this ⊢
    rw [this.1, this.2.1, this.2.2]
    rcases u with a | (_ | _) | _ | _ | _ | _ | _ | _ | _ <;> exact ⟨rfl, rfl, rfl⟩

theorem modSt_id (s : State) (st : St) : s.modSt st (fun x => x) = s := by
  simp [State.modSt, vmod, vset, vget]

end Sys2Proof.Machine
end

