-- ==== Sys2Proof/Machine/Lands.lean ====
section
/-!
DEFINITION. The lands of the package (R545, R546, Tables 17-12 to 17-14). No command depends on them.
-/
namespace Sys2Proof.Machine

/-- Signals of a flash channel (Table 17-13). -/
inductive FlashLand where
  | dq (i : Nat) | dqsT | dqsC | reT | reC | weN | cle | ale | wpN | ceN (i : Nat) | rbN (i : Nat)
  deriving DecidableEq, Repr

/-- Other signals of the east edge (Table 17-14). -/
inductive EdgeLand where
  | mgTx (m : Fin 2) (neg : Bool) | mgRx (m : Fin 2) (neg : Bool) | refclk (neg : Bool) | ppsIn | ppsOut | testEn | tck | tms | tdi | tdo | trstN | smbClk | smbDat | smbAlertN | smbAddr (i : Fin 2)
  | flZq | flVrefq | pmbClk | pmbDat | pmbAlertN | stwResetN | coldRstN | presentN | thermTripN | en (r : Rail) | pg (r : Rail)
  deriving DecidableEq, Repr

/-- What a land carries. -/
inductive Land where
  | gnd
  | rail (r : Rail)
  | linkTx (q : Nat) (lane : Nat) (neg : Bool)
  | linkRx (q : Nat) (lane : Nat) (neg : Bool)
  | pcieTx (lane : Nat) (neg : Bool)
  | pcieRx (lane : Nat) (neg : Bool)
  | pcieRefclk (neg : Bool)
  | perstN
  | flash (ch : Nat) (x : FlashLand)
  | edge (x : EdgeLand)
  deriving DecidableEq, Repr

/-- The `i`-th land of a Lomkeva quadrant whose first port is `q`. -/
def linkLand (q i : Nat) : Land :=
  if 714 ≤ i then .gnd
  else match i % 6 with
    | 0 => .linkTx (q + i / 102) (i / 6 % 17) false
    | 1 => .linkTx (q + i / 102) (i / 6 % 17) true
    | 3 => .linkRx (q + i / 102) (i / 6 % 17) false
    | 4 => .linkRx (q + i / 102) (i / 6 % 17) true
    | _ => .gnd

/-- A land of a centre group, `c` columns in from the inner border of its edge group, of the half whose rails are `sram` and `core`. -/
def centreLand (sram core : Rail) (row c : Nat) : Land :=
  let i := c / 2
  let r := if row < 53 then row else 105 - row
  if r ≤ 20 then .rail 13
  else if r = 21 then .rail 7
  else if r = 22 then .rail (if i < 16 then 7 else 12)
  else if r ≤ 25 then .rail (if r = 25 && decide (i < 12) then 11 else 10)
  else if r ≤ 28 then .rail sram
  else .rail core

/-- Column `c` (0 to 5) of a row of the west edge. -/
def westLand (row c : Nat) : Land :=
  if row < 83 then
    let k := (row - 19) / 4
    match (row - 19) % 4, c with
    | 0, 1 => .pcieTx k false
    | 0, 2 => .pcieTx k true
    | 2, 1 => .pcieRx k false
    | 2, 2 => .pcieRx k true
    | 0, 4 => .rail 3
    | 2, 4 => .rail 3
    | _, _ => .gnd
  else if c = 4 then .rail 3
  else match row, c with
    | 83, 1 => .pcieRefclk false
    | 83, 2 => .pcieRefclk true
    | 84, 0 => .perstN
    | _, _ => .gnd

/-- The lands of a flash channel, row by row (Table 17-13); `none` is GND. -/
def flashLands (j : Nat) : List Land :=
  let f (x : FlashLand) : Land := .flash j x
  [.gnd, f (.dq 0), f (.dq 1), f (.dq 2), f (.dq 3), .gnd, .rail 4, f (.dq 4), f (.dq 5), f (.dq 6), f (.dq 7), .gnd,
   .gnd, f .dqsT, f .dqsC, f .reT, f .reC, .rail 4, f .weN, f .cle, f .ale, f .wpN, .gnd, .gnd,
   f (.ceN 0), f (.ceN 1), f (.ceN 2), f (.ceN 3), .rail 4, .gnd, f (.rbN 0), f (.rbN 1), f (.rbN 2), f (.rbN 3), .gnd, .gnd]

/-- The other lands of the east edge, from row 67 on (Table 17-14). -/
def otherLands : List Land :=
  let e (x : EdgeLand) : Land := .edge x
  ([0, 1] : List (Fin 2)).flatMap (fun m => [e (.mgTx m false), e (.mgTx m true), .gnd, e (.mgRx m false), e (.mgRx m true), .gnd]) ++ List.replicate 6 .gnd ++
  [e (.refclk false), e (.refclk true), .gnd, e .ppsIn, e .ppsOut, e .testEn, e .tck, e .tms, e .tdi, e .tdo, e .trstN, e .smbClk, e .smbDat, e .smbAlertN,
   e (.smbAddr 0), e (.smbAddr 1), e .flZq, e .flVrefq] ++
  [e .pmbClk, e .pmbDat, e .pmbAlertN, e .stwResetN, e .coldRstN, e .presentN, e .thermTripN] ++
  ([3, 4, 5, 6, 7, 8, 9, 10, 11, 12, 13] : List Rail).flatMap (fun r => [e (.en r), e (.pg r)]) ++ [.gnd] ++
  List.replicate 8 (.rail 0) ++ List.replicate 8 (.rail 1) ++ List.replicate 24 (.rail 2) ++ List.replicate 14 .gnd

/-- Column `c` (0 to 5) of a row of the east edge. -/
def eastLand (row c : Nat) : Land :=
  if row < 67 then (flashLands ((row - 19) / 6)).getD ((row - 19) % 6 * 6 + c) .gnd
  else otherLands.getD ((row - 67) * 6 + c) .gnd

/-- The land in a row (1 to 104) and a column (1 to 108). -/
def landAt (row col : Nat) : Land :=
  let c := if col ≤ 54 then col - 1 else 108 - col
  if row ≤ 18 then linkLand (if col ≤ 54 then 0 else 21) (18 * c + (row - 1))
  else if 87 ≤ row then linkLand (if col ≤ 54 then 7 else 14) (18 * c + (104 - row))
  else if col ≤ 6 then westLand row c
  else if 103 ≤ col then eastLand row (col - 103)
  else if (row + col) % 2 = 0 then .gnd
  else if col ≤ 54 then centreLand 5 8 row (c - 6) else centreLand 6 9 row (c - 6)

end Sys2Proof.Machine
end

