-- ==== Sys2Proof/WellFormed.lean ====
section
/-!
DEFINITION. What a command's operands must be to spell a row of the table. A command whose event cannot occur in a state is well formed all the same: `exec` leaves that state as it
is (assumption log 5).
-/
namespace Sys2Proof

/-- A ring flit carries 128 payload words of 64 bits (R33, R34); a word is corrected or dead. -/
def FlitEcc.ok (e : FlitEcc) : Bool := (e.dead.all fun i => decide (i < 128)) && decide e.dead.Nodup && decide (e.corrected + e.dead.length ≤ 128) && !(e.sbCorrected && e.sbDead)

/-- A unit of memory is named once, corrected or dead (R166, R213). -/
def MemEcc.ok (e : MemEcc) : Bool := decide (e.corrected ++ e.dead).Nodup && decide e.transit.Nodup

/-- A flit arrives in a slot of its frame, launched in one (R226). -/
def MeshFlit.ok (f : MeshFlit) : Bool := decide (f.slot < 960) && decide (f.atSlot < 1024)

/-- A crossing has two ends. -/
def Crossing.ok (x : Crossing) : Bool := x.a ≠ x.b

/-- An access inside half of the largest BAR2 (R512, R517). -/
def inBar (off n : Nat) : Bool := decide (0 < n) && decide (off + n ≤ 2 ^ 36)

/-- An access inside the doorbell area (Table 17-2). -/
def inDoorbells (off size : Nat) : Bool := decide (0 < size) && decide (off + size ≤ 524288)

/-- A write to the status word names its write-1-to-clear bits alone (Table 17-3). -/
def statusW1c (w : Byte) : Bool := w &&& 0xEA = 0

/-- Rates and widths of OD 1200h. -/
def linkOk (rate : BitVec 4) (width : BitVec 5) : Bool := rate ≠ 0 && decide (rate.toNat ≤ 6) && [1, 2, 4, 8, 16].contains width.toNat

/-- Sizes that BAR2 can take, and payload sizes of PCI Express (Table 17-1). -/
def PciCfg.ok (c : PciCfg) : Bool := [1, 2, 4, 8, 16, 32, 64, 128].contains c.bar2 && [128, 256, 512, 1024, 2048, 4096].contains c.mps

/-- What a boot finds: entries of the dictionary, records of 32 B, and each chip enable at most once. -/
def BootResult.ok (b : BootResult) : Bool :=
  (b.bad.all fun k => decide (k < 2 ^ 24)) && (b.badRecs.all fun e => e.2.length = 32) && decide (b.nand.map fun t => (t.ch, t.ce)).Nodup

/-- An array error names each of the 512 columns, each column of a sub-row and each witness band once. -/
def ArrayError.ok (e : ArrayError) : Bool :=
  (e.cols.all fun c => decide (c.1 < 512)) && (e.subs.all fun c => decide (c.2.1 < 512)) && decide (e.cols.map (·.1)).Nodup && decide (e.subs.map fun c => (c.1, c.2.1)).Nodup &&
  decide (e.wit.map (·.1)).Nodup

/-- The operands of a command are in range. -/
def Instr.wf (i : Instr) : Bool :=
  match i with
  | .vatSlotFull _ _ slot => decide (slot < 16)
  | .slotRelease _ _ slot => decide (slot < 16)
  | .droppedFetchEnd _ _ slot => decide (slot < 16)
  | .productRowLeavesTree _ (some e) => e.ok
  | .productRowLeavesTree _ none => true
  | .ringFlitArrival _ _ e => e.ok
  | .katQueueFill _ count => decide (0 < count)
  | .idleStationRotation _ fail => match fail with | some f => decide (f.1 < 65536) | none => true
  | .routeGather _ _ e => e.ok
  | .routeCombine _ _ e => e.ok
  | .transposeRun _ _ e => e.ok
  | .madderAdaptiveUpdate _ _ e => e.ok
  | .madderMomentumUpdate _ _ e => e.ok
  | .towerRead _ _ e => e.ok
  | .towerWrite _ _ e => e.ok
  | .accumulatingWrite _ _ e => e.ok
  | .maintenanceWindow _ _ e => e.ok
  | .stashRead _ _ e => e.ok
  | .securedBlockWrite _ _ e => e.ok
  | .drainRead _ _ _ e => e.ok
  | .copyBackGranule _ _ _ _ e => e.ok
  | .flitArrivalAtRouter _ _ f => f.ok
  | .hangDetected x => x.ok
  | .crossingRecalibrated x _ => x.ok
  | .portAcceptsBlock _ e => e.ok
  | .trainingSetsDetected _ sets => decide (sets.map (·.1)).Nodup
  | .trainingRetry _ rxFail txFail => decide (rxFail ≤ 17) && decide (txFail ≤ 17)
  | .write _ e => e.ok
  | .readRequest _ e => e.ok
  | .reduce _ e => e.ok
  | .multicastWrite _ e => e.ok
  | .openWrite _ e => e.ok
  | .openReadRequest _ e => e.ok
  | .securingMordantChange _ e => e.ok
  | .restoreBlockLands _ _ data => data.length = 65536
  | .jobLoad _ _ _ _ e => e.ok
  | .runtimeReady boot => boot.ok
  | .imageStagingWrite _ _ off data _ => decide (off < 2 ^ 32) && decide (data.length ≤ 1024)
  | .dictionaryWrite _ _ data => decide (data.length ≤ 1024)
  | .domainWriteSegment _ _ data => decide (data.length ≤ 1024)
  | .domainWriteCommit _ _ data _ e => decide (data.length ≤ 1024) && e.ok
  | .getCertificate _ _ off len => decide (off < 65536) && decide (len < 65536)
  | .mailboxDoorbell _ req w1c => decide (req.length ≤ 1040) && statusW1c w1c
  | .bar2MemoryRead _ off len e => inBar off len && e.ok
  | .bar2MemoryWrite _ off data _ e => inBar off data.length && e.ok
  | .atomicopFetchadd _ off wide _ e => inBar off (if wide then 8 else 4) && e.ok
  | .atomicopSwap _ off wide _ e => inBar off (if wide then 8 else 4) && e.ok
  | .atomicopCas _ off wide _ _ e => inBar off (if wide then 8 else 4) && e.ok
  | .imageApertureRead _ off len e => inBar off len && e.ok
  | .imageApertureWrite _ off data e => inBar off data.length && e.ok
  | .mordantDoorbellWrite _ off size _ => inDoorbells off size
  | .mordantDoorbellRead _ off size => inDoorbells off size
  | .watchArm pf _ _ _ _ => pf ≠ 0
  | .watchFire pf _ => pf ≠ 0
  | .functionLevelReset _ cfg => cfg.ok
  | .sensorSample reading => reading.length = 64
  | .railOutOfRange r _ _ => decide (3 ≤ r.val)
  | .stwResetNRelease boot => boot.ok
  | .pcieLinkUp rate width cfg => linkOk rate width && cfg.toList.all PciCfg.ok
  | .notificationRingTailWrite _ v w1c => decide (v.toNat < 64) && statusW1c w1c
  | .computeDieReady failed => failed.all Crossing.ok
  | .ctlNop .. | .ctlLi .. | .ctlAdd .. | .ctlBr .. | .ctlBase .. => true
  | .ctlEnd .. | .ctlEndFire .. | .unlistedOpcode .. | .vatOpen .. | .vatOpenFire .. => true
  | .vatFetch .. | .vatFetchFire .. | .vatPut .. | .vatPutFire .. | .putWriteComplete .. => true
  | .vatCancel .. | .vatCancelFire .. | .vatClose .. | .vatCloseFire .. | .ringFeed .. => true
  | .ringFeedFire .. | .ringTake .. | .ringTakeFire .. | .ringAdd .. | .ringAddFire .. => true
  | .ringCreditReturn .. | .ringHeadStall .. | .arrShape .. | .arrShapeFire .. | .arrLoad .. => true
  | .arrLoadFire .. | .arrLoadComplete .. | .arrMma .. | .arrMmaFire .. | .shadowRegistersFree .. => true
  | .witnessVerdict .. | .kPassEnd .. | .mergeComplete .. | .accOpen .. => true
  | .accOpenFire .. | .accDrain .. | .accDrainFire .. | .drainComplete .. | .vecSplit .. => true
  | .vecSplitFire .. | .vecPro .. | .vecProFire .. | .vecEpi .. | .vecEpiFire .. => true
  | .vecOp .. | .vecOpFire .. | .vecNcomb .. | .vecNcombFire .. | .vecSminit .. => true
  | .vecSminitFire .. | .vecRopeLoad .. | .vecRopeLoadFire .. | .engRoute .. | .engRouteFire .. => true
  | .engXpose .. | .engXposeFire .. | .engMadder .. | .engMadderFire .. | .netSend .. => true
  | .netSendFire .. | .morWait .. | .morWaitFire .. | .morAdd .. | .morAddFire .. => true
  | .morSet .. | .morSetFire .. | .morRead .. | .morReadFire .. | .mordantOperationArrival .. => true
  | .mordantTimeout .. | .chkKat .. | .chkKatFire .. | .testSliceEnd .. | .directTestSlice .. => true
  | .routeDescriptorArrival .. | .routeDescriptorComplete .. | .transposeDescriptorArrival .. | .transposeComplete .. | .madderDescriptorArrival .. => true
  | .madderComplete .. | .bankCopyComplete .. | .towerLoss .. | .retiredTowerAccess .. | .stashWrite .. => true
  | .blockDrainComplete .. | .frameMark | .transferStart .. | .windowMark | .sightGapDeferredCheck .. => true
  | .holdStallLimit .. | .testShareSpanEnd .. | .stationClockSettingWrite .. | .clockSettingChange .. | .replicaTrigger .. => true
  | .timeSet .. | .timeSetApplied | .referenceLoss | .referenceLock | .holdoverCrossCheck .. => true
  | .blockSlot .. | .blockArrival .. | .ackTimeout .. | .receiveSilence .. | .holdSightGap .. => true
  | .lossOfSignal .. | .lossPersists .. | .laneDegradeWindow .. | .spareLockLoss .. | .spareCodewordDecode .. => true
  | .equaliseComplete .. | .equaliseTimeout .. | .alignComplete .. | .alignTimeout .. | .authTimeout .. => true
  | .linkControlRepeat .. | .linkControlAck .. | .hello .. | .chain .. | .proof .. => true
  | .verdict .. | .swap .. | .swapDone .. | .spareBad .. | .retrain .. => true
  | .goodbye .. | .portCommandRetrain .. | .portCommandOrderlyDown .. | .portCommandReleaseHeld .. | .portEnableWrite .. => true
  | .timeSync .. | .timeReply .. | .readResponse .. | .mordantAdd .. | .mordantSet .. => true
  | .fence .. | .openReadResponse .. | .openMordantAdd .. | .openMordantSet .. | .credit .. => true
  | .managementTunnel .. | .scheduledBlockTransit .. | .openBlockForward .. | .commitRecordArrival .. | .partnerCompletion .. => true
  | .commitTimeout .. | .nandProgramComplete .. | .nandEraseComplete .. | .nandReadComplete .. | .sharedStoreCommit .. => true
  | .restoreArm .. | .restoreComplete .. | .partnerTargetWrite .. | .sequencerCompareMismatch .. | .stewardLockstepMismatch => true
  | .observationExpiry .. | .riskEstimateUpdate | .cleanHourTick | .logAcknowledge .. | .jobEnd .. => true
  | .jobUnload .. | .stewardRestart .. | .watchdogExpiry | .runtimeStartTimeout | .firmwareVerify .. => true
  | .firmwareActivate .. | .raiseRollbackFloor .. | .firmwareRevert .. | .managementSessionHandshake .. | .sessionIdleTimeout .. => true
  | .dictionaryRead .. | .getVersion .. | .getCapabilities .. | .negotiateAlgorithms .. | .getDigests .. => true
  | .challenge .. | .getMeasurements .. | .keyExchange .. | .finish .. | .heartbeat .. => true
  | .keyUpdate .. | .endSession .. | .tunnelReassemblyTimeout .. | .tunnelResend .. | .saveConfiguration .. => true
  | .discardUnsaved .. | .restoreFactory .. | .restoreFactoryRepairMaps .. | .powerOn | .coldResetInput => true
  | .coldReset .. | .warmReset .. | .seamReset .. | .partitionReset .. | .jobReset .. => true
  | .portReset .. | .powerRequestHalfPark .. | .parkTowersIdle | .parkTowerTimeout | .seamDrained => true
  | .seamDrainTimeout | .powerRequestRun .. | .powerRequestDeepPark .. | .powerRequestStewardOnly .. | .pgAssert .. => true
  | .pgTimeout .. | .railDecayed .. | .fabricAdmission .. | .orderlyRemoval .. | .removalDrainComplete => true
  | .removalNotice .. | .perstNAssert | .hotReset | .pcieLinkDown | .d3hotEntry .. => true
  | .ptmRequest .. | .managementModeWrite .. | .smbusReadInsertionState | .smbusReadPowerState | .smbusReadStatus => true
  | .smbusReadDieSensor | .smbusReadDramSensor | .smbusReadPackagePower | .smbusReadDeviceId | .smbusReadSerial => true
  | .alertResponseAddressRead | .smbusWrite | .ppsOutPulse | .ppsInEdge | .testEnRise => true
  | .testEnFall | .bypass | .idcode | .samplePreload | .extest => true
  | .clamp | .highz | .privateInstruction | .powerLimitCheck .. | .coreRailStepDecay .. => true
  | .throttleStep .. | .throttleRecoveryStep .. | .pgDeassert .. | .pmbusCommandFailure .. | .stewardRailFailure => true
  | .perstNDeassert | .d0Entry .. | .managementLinkUp .. | .managementLinkDown .. | .managementSessionClose .. => true
  | .replicaWarningLevel .. | .coreRailVoutCommand .. | .morReadRegisterWritten .. | .vecOpComplete .. | .coefficientRequest .. => true

end Sys2Proof
end

