-- ==== Sys2Proof/Tests/Slice0.lean ====
section
/-!
SUPPORT. Tests of this slice: for each statement with hypotheses, states and operands that meet all of them together; for each check of WellFormed, a command that it refuses.
-/
set_option maxRecDepth 20000
namespace Sys2Proof.Tests
open Sys2Proof Sys2Proof.Machine

/-! ### Small states -/

/-- A word with the fields given by their lowest bits. -/
def word (l : List (Nat × Nat)) : W128 := BitVec.ofNat 128 (l.map fun e => e.2 * 2 ^ e.1).sum

/-- The stations `pos` run a job of partition 0 with one page of program and two of spill space. -/
def job (pos : List St) : State :=
  pos.foldl (fun s st => s.modSt st fun x => { x with sq := { x.sq with stopped := false } })
    (State.reset.modPart 0 fun x => { x with jobState := 3, pos := pos, prog := 1, spill := 2 })

/-- The dictionary is available. -/
def up (s : State) : State := s.setReg 0x1030 0 3

/-- Partition 0 has the stations 0 to 7, the first 16 MiB of every tower, 16 MiB of the west stash and the mordants 8 to 15. -/
def windows (s : State) : State :=
  ((((s.setReg 0x2100 1 (2 ^ 15 + 7 * 256)).setReg 0x2110 1 (2 ^ 15 + 16)).setReg 0x2111 1 (2 ^ 15 + 16)).setReg 0x2130 1 (2 ^ 63 + 8 * 2 ^ 16 + 15)).setDom 0x2140 1
    ((List.replicate 8 [(0 : Byte), 0, 1, 0x80]).flatten)

/-- Station 0 of a job of station 0 alone, with `w` as the instruction at pc 0. -/
def at0 (w : W128) : State := (windows (job [0])).modSt 0 fun x => x.lsWrite (progBase 1) (clean (leBytes 16 w.toNat))

/-- A register of station 0 holds a value. -/
def reg0 (k : Nat) (v : W64) (s : State) : State := s.modSt 0 fun x => { x with sq := { x.sq with k := kw x.sq.k k v } }

def book0 (v : VatNo) (b : VatBook) (s : State) : State := s.modSt 0 fun x => x.setBook v (some b)
def tbook0 (i : Fin 64) (b : TileBook) (s : State) : State := s.modSt 0 fun x => { x with tbooks := vset x.tbooks i (some b) }
def vat0 (v : VatNo) (y : Vat) (s : State) : State := s.modSt 0 fun x => x.setVat v (some y)
def put0 (u : UnitQ) (e : Entry) (s : State) : State := s.modSt 0 fun x => x.setQueue u [e]
def lane0 (l : Lane) (f : LaneSt → LaneSt) (s : State) : State := s.modSt 0 fun x => x.modLane l f

/-- An entry of a queue, its transfer started, with registers at 0. -/
def entry (w : W128) : Entry := ⟨0, 0, w, Vector.replicate 32 0, 0, true, 0⟩
def entryK (w : W128) (k : Nat) (v : W64) : Entry := { entry w with k := kw (Vector.replicate 32 0) k v }

/-- A vat of three slots of 4 KiB at local store 0 whose head slot is in the state given. -/
def vat3 (out : Bool) (st : SlotState) : Vat := ⟨0, 4096, out, 4, 0, 0, 0, 0, [{ slot0 with st := st, laneDone := true, feedDone := true }, slot0, slot0], 0, 0, 0, 0⟩
def vatBook (out : Bool) : VatBook := ⟨0, 3, 4096, out, 4, none, none, 0, 0, 0⟩

/-- An operator's session with the running steward. -/
def oper (s : State) : State := up (s.modStw fun x => { x with sessions := vset x.sessions 0 (some ⟨.mgmt 0, .operator, 0, [], []⟩) })
def via0 : Via := .session 0 7
/-- The compute die runs. -/
def live (s : State) : State := s.modPwr fun x => { x with dieUp := true }
/-- It runs with the clock of station 0, outside the maintenance window of a frame. -/
def on (s : State) : State := { live (s.setReg 0x4101 1 1000) with time := 100 }
/-- No check finds anything. -/
def fine : MemEcc := ⟨[], [], []⟩
/-- The first entry of partition 0's route table, and an entry that ends in this device's memory or in a reduce group. -/
def route0 (e : Nat) (s : State) : State := s.setDom 0x5100 1 (leBytes 16 e)
def ownMemory : Nat := 2 ^ 127 + 3 * 2 ^ 125
def ownGroup : Nat := ownMemory + 2 ^ 45
/-- A port of partition 0 in the state given. -/
def port (q : PortId) (st : Nat) (s : State) : State := (s.setReg 0x2120 (q.val + 1) (2 ^ 63 + 2 ^ 55)).setReg 0x5001 (q.val + 1) st

/-! ### Steps -/

/-- An empty queue with the device in OFF and out of it. -/
theorem test_idle : let s := State.reset.modPwr fun x => { x with off := true }
    s.pending = [] ∧ s.pwr.off = true ∧ State.reset.pending = [] ∧ State.reset.pwr.off = false ∧ State.reset.hostHeld = [] ∧ State.reset.beat = [] := by decide

/-! ### Issue and control -/

theorem test_ready_control :
    (at0 0x00).readyFor 0 0 0x00 0x00 = true ∧ (at0 (word [(0, 1), (8, 31), (64, 2 ^ 64 - 1)])).readyFor 0 0 0x01 (word [(0, 1), (8, 31), (64, 2 ^ 64 - 1)]) = true ∧
    (at0 (word [(0, 2), (8, 31), (13, 31), (18, 31), (32, 2 ^ 32 - 1)])).readyFor 0 0 0x02 (word [(0, 2), (8, 31), (13, 31), (18, 31), (32, 2 ^ 32 - 1)]) = true ∧
    (at0 (word [(0, 4), (32, 2 ^ 32 - 1)])).readyFor 0 0 0x04 (word [(0, 4), (32, 2 ^ 32 - 1)]) = true ∧ (at0 5).readyFor 0 0 0x05 5 = true ∧ (at0 0).issuing 0 = some 0 := by decide

/-- A CTL.NOP whose issue finds a bad word: a scalar register that it does not read, and its own word. -/
theorem test_nop_bad : let s := at0 0x00; let w : SramWord := .localStore (progBase 1 / 8)
    (s.modSt 0 fun x => x.sramError (.scalar 3)).readyFor 0 0 0x00 0x00 = true ∧ (s.modSt 0 fun x => x.sramError w).issuing 0 = some 0 ∧
    (s.stn 0).sq.pc < (s.prt 0).prog * 256 ∧ (((s.stn 0).sramError w).instrAt (s.prt 0).prog (s.stn 0).sq.pc).2 = true := by decide

theorem test_ready_branch : let w := word [(0, 3), (23, 6), (32, 255)]
    (at0 w).readyFor 0 0 0x03 w = true ∧ fld w 25 23 ≠ 7 ∧ fld w 63 32 < ((at0 w).prt 0).prog * 256 := by decide

theorem test_end_fires : let s := up ((job [0]).modSt 0 fun x => { x with sq := { x.sq with endPending := some 7 } })
    (s.stn 0).sq.endPending = some 7 ∧ s.jobAt 0 = some 0 ∧ s.idleForEnd 0 = true ∧ (∀ v, (s.stn 0).vat v = none) ∧ (∀ i, vget (s.stn 0).tiles i = none) ∧
    s.stewardUp = true ∧ s.struck 0 = false ∧ (∀ a ∈ (s.prt 0).pos, a ≠ 0 → (s.stn a).sq.done = true) := by decide

theorem test_unlisted : let s := at0 0xFF
    s.issuing 0 = some 0 ∧ (s.stn 0).sq.pc < (s.prt 0).prog * 256 ∧ (s.stn 0).instrAt (s.prt 0).prog (s.stn 0).sq.pc = (0xFF, false) ∧
    listedOpcodes.contains (opc 0xFF) = false := by decide

/-! ### Vats -/

theorem test_vat_open : let w := word [(0, 0x10), (8, 31), (14, 13), (40, 1)]; let s := at0 w
    s.readyFor 0 0 0x10 w = true ∧ fld w 63 40 ≠ 0 ∧ fld w 17 14 ≤ 13 ∧ (∀ v, (s.stn 0).book v = none) ∧
    openBase w + openSlots w * openSize w ≤ progBase (s.prt 0).prog ∧
    overlap (spillBase (s.prt 0)) ((s.prt 0).spill * 4096) (openBase w) (openSlots w * openSize w) = false := by decide

/-- A fetch of a whole slot from a tower window, with the header granule before it. -/
theorem test_vat_fetch_tower : let w := word [(0, 0x11), (8, 3), (18, 4096), (40, 1), (43, 1), (96, 1)]; let b := vatBook false
    let s := reg0 1 1024 (book0 3 b (at0 w))
    s.readyFor 0 0 0x11 w = true ∧ (s.stn 0).book (fin (fld w 12 8)) = some b ∧ b.outbound = false ∧ fetchSrc w ≠ 3 ∧ fetchBytes w ≠ 0 ∧ fetchBytes w ≤ b.size ∧
    (fetchHdr w = true → fetchSrc w ≠ 2) ∧ b.produce .fetch = some { b with prod := some .fetch, prods := 1 } ∧ b.prods < b.len ∧
    fetchSrc w = 0 ∧ s.inWin 0 (kr (s.stn 0).sq.k (fld w 17 13)).toNat (fetchBytes w + (if fetchHdr w then 4096 else 0)) = true ∧
    runFault (kr (s.stn 0).sq.k (fld w 47 43)).toNat = false ∧
    s.openRunMeets (bits (kr (s.stn 0).sq.k (fld w 47 43)).toNat 9 0) (bits (kr (s.stn 0).sq.k (fld w 47 43)).toNat 19 10) = false := by decide

/-- From another device, over an open route, and from the last bytes of local store before the program. -/
theorem test_vat_fetch_elsewhere : let r := word [(0, 0x11), (8, 3), (18, 4096), (41, 1), (48, 0x3FF), (96, 1)]; let l := word [(0, 0x11), (8, 3), (13, 4), (18, 4096), (41, 2)]
    let b := vatBook false; let s := book0 3 b (at0 r); let u := reg0 4 (BitVec.ofNat 64 (progBase 1 - 4096)) (book0 3 b (at0 l))
    s.readyFor 0 0 0x11 r = true ∧ fetchSrc r = 1 ∧ s.routeFault 0 (fld r 57 48) = false ∧ fetchHdr r = false ∧
    u.readyFor 0 0 0x11 l = true ∧ fetchSrc l = 2 ∧ (kr (u.stn 0).sq.k (fld l 17 13)).toNat + fetchBytes l ≤ progBase (u.prt 0).prog := by decide

/-- A put of a whole slot that accumulates and adds to a mordant, up to the end of the window. -/
theorem test_vat_put : let w := word [(0, 0x12), (8, 3), (13, 4), (18, 4096), (40, 1), (58, 1), (59, 5), (96, 1)]; let b := vatBook true
    let s := reg0 5 15 (reg0 4 (2 ^ 24 - 4096) (book0 3 b (at0 w)))
    s.readyFor 0 0 0x12 w = true ∧ (s.stn 0).book (fin (fld w 12 8)) = some b ∧ b.outbound = true ∧ fetchSrc w = 0 ∧ fetchBytes w ≠ 0 ∧ fetchBytes w ≤ b.size ∧
    b.consume .put = some { b with cons := some .put, conss := 1 } ∧ b.conss < b.len ∧
    s.inWin 0 (kr (s.stn 0).sq.k (fld w 17 13)).toNat (fetchBytes w) = true ∧ (kr (s.stn 0).sq.k (fld w 47 43)).toNat < 2 ^ 20 ∧
    (fbit w 40 = true ∧ fetchBytes w % 4 = 0 ∧ (kr (s.stn 0).sq.k (fld w 17 13)).toNat % 4 = 0 ∧ (kr (s.stn 0).sq.k (fld w 17 13)).toNat < 2 ^ 36) ∧
    (fbit w 58 = true ∧ s.inMorRange 0 ((kr (s.stn 0).sq.k (fld w 63 59)).toNat % 65536) = true) := by decide

theorem test_vat_cancel_close : let w := word [(0, 0x13), (8, 3)]; let c := word [(0, 0x14), (8, 3)]; let s := book0 3 (vatBook false) (at0 w); let u := book0 3 (vatBook false) (at0 c)
    s.readyFor 0 0 0x13 w = true ∧ (s.stn 0).book (fin (fld w 12 8)) = some (vatBook false) ∧ (s.stn 0).takePending (fin (fld w 12 8)) = false ∧
    u.readyFor 0 0 0x14 c = true ∧ (u.stn 0).book (fin (fld c 12 8)) = some (vatBook false) := by decide

theorem test_vat_fires : let o := word [(0, 0x10), (8, 3), (40, 1)]; let f := word [(0, 0x11), (8, 3), (18, 4096)]; let p := word [(0, 0x12), (8, 3), (18, 4096)]
    let so := put0 (.vat 3) (entry o) (job [0]); let sf := vat0 3 (vat3 false .free) (put0 (.vat 3) (entry f) (job [0])); let sp := vat0 3 (vat3 true .full) (put0 (.vat 3) (entry p) (job [0]))
    so.headOp 0 (.vat 3) 0x10 = some (entry o) ∧ (∀ i, (so.stn 0).vat i = none) ∧ (so.stn 0).openAhead (entry o) (openBase o) (openSlots o * openSize o) = false ∧
    sf.headOp 0 (.vat 3) 0x11 = some (entry f) ∧ (sf.stn 0).vat 3 = some (vat3 false .free) ∧ sf.jobAt 0 = some 0 ∧ tailFree (vat3 false .free) = true ∧ sf.inFlight 0 < 32 ∧
    (isCalendar f = true ∧ (entry f).started = true) ∧
    sp.headOp 0 (.vat 3) 0x12 = some (entry p) ∧ (sp.stn 0).vat 3 = some (vat3 true .full) ∧ headFull (vat3 true .full) = true ∧ sp.inFlight 0 < 32 := by decide

/-- A fetch over a route that ends in this device, from an address inside the partition's window and from one outside it. -/
theorem test_vat_fetch_own : let f := word [(0, 0x11), (8, 3), (18, 4096), (41, 1)]; let g (e : Entry) : State := route0 ownMemory (vat0 3 (vat3 false .free) (put0 (.vat 3) e (windows (job [0]))))
    let s := g (entry f); let u := g (entryK (word [(0, 0x11), (8, 3), (13, 4), (18, 4096), (41, 1)]) 4 (2 ^ 30))
    s.headOp 0 (.vat 3) 0x11 = some (entry f) ∧ (s.stn 0).vat 3 = some (vat3 false .free) ∧ s.jobAt 0 = some 0 ∧ tailFree (vat3 false .free) = true ∧ s.inFlight 0 < 32 ∧
    fetchSrc f = 1 ∧ s.ownRoute 0 (fld f 57 48) = true ∧ s.ownKindFault 0 (fld f 57 48) false = false ∧ s.reg 0x1020 0 = 0 ∧ s.inWin 0 0 4096 = true ∧
    u.ownRoute 0 0 = true ∧ u.inWin 0 (2 ^ 30) 4096 = false ∧ (job [0]).ownRoute 0 0 = false := by decide

theorem test_vat_ends : let c := word [(0, 0x13), (8, 3)]; let e := word [(0, 0x14), (8, 3)]; let y := { vat3 false .full with taken := 4 }; let z := { vat3 false .free with taken := 4 }
    let sc := vat0 3 y (put0 (.vat 3) (entry c) (job [0])); let se := vat0 3 z (put0 (.vat 3) (entry e) (job [0]))
    sc.headOp 0 (.vat 3) 0x13 = some (entry c) ∧ (sc.stn 0).vat 3 = some y ∧ (sc.stn 0).vatBusy 3 0 = false ∧ (∀ sl ∈ y.slots, sl.st ≠ .taken) ∧
    se.headOp 0 (.vat 3) 0x14 = some (entry e) ∧ (se.stn 0).vat 3 = some z ∧ (se.stn 0).vatBusy 3 0 = false ∧ se.vatFlying 0 3 = false ∧ z.len ≤ z.taken ∧ (∀ sl ∈ z.slots, sl.st = .free) := by decide

/-- A fetch whose bytes have come, a write that is written, a slot whose readers are done, and a fetch that was dropped. -/
theorem test_vat_transfers : let f : Fetch := ⟨0, 3, 0, 0, 0, 4096, false, false, [], 0, [], some [⟨7, false⟩], false, 0, (0, 0), []⟩; let g := { f with dropped := true }
    let s := { vat0 3 (vat3 false .claimed) (job [0]) with fetches := [f] }; let d := { vat0 3 (vat3 false .dropping) (job [0]) with fetches := [g] }
    let w : MemWrite := ⟨0, 0, 0, 3, 0, [], false, some 8, true, []⟩; let m := { job [0] with writes := [w] }; let t := vat0 3 (vat3 false .taken) (job [0])
    s.fetches.find? (fun f => decide (f.st = 0) && decide (f.vat = 3) && decide (f.slot = 0) && !f.dropped && f.data.isSome) = some f ∧ f.data = some [⟨7, false⟩] ∧
    (s.stn 0).vat 3 = some (vat3 false .claimed) ∧ m.writes[0]? = some w ∧ w.written = true ∧
    (t.stn 0).vat 3 = some (vat3 false .taken) ∧ 0 < (vat3 false .taken).slots.length ∧ ((vat3 false .taken).slot 0).st = .taken ∧
    ((vat3 false .taken).slot 0).laneDone = true ∧ ((vat3 false .taken).slot 0).feedDone = true ∧
    g ∈ d.fetches ∧ (d.stn 0).vat 3 = some (vat3 false .dropping) ∧ ((vat3 false .dropping).slot 0).st = .dropping := by decide
/-! ### The ring -/

theorem test_ring_feed_take : let w := word [(0, 0x20), (8, 3), (13, 3), (15, 2), (21, 0), (53, 1), (112, 9)]; let b := { vatBook false with len := 2 ^ 23 }
    let v := word [(0, 0x21), (8, 3), (13, 3), (15, 2), (48, 7), (36, 4095), (112, 9)]
    let g (s : State) : State := s.modPart 0 fun x => { x with pos := (List.finRange 18), form := 1 }
    let s := g (book0 3 b (at0 w)); let u := g (book0 3 b (at0 v))
    s.readyFor 0 0 0x20 w = true ∧ ringModeOk w = true ∧ ringFmt w ≤ 7 ∧ fld w 35 27 + fld w 47 36 ≤ 511 ∧ ringLanes w = 3 ∧ (s.prt 0).closed = true ∧
    (∀ l ∈ [Lane.cw, .ccw], onLane w l = true ∧ feedHops w l ≤ (s.prt 0).hopsBound 0 l) ∧ (s.stn 0).book (ringVat w) = some b ∧ b.outbound = false ∧
    rowBytes (ringFmt w) (shapeK (s.stn 0).arr.bkShape) ≤ b.size ∧ b.consumeFeed (ringLocal w) = some { b with cons := some .feedLocal, conss := 1 } ∧
    u.readyFor 0 0 0x21 v = true ∧ ringModeOk v = true ∧ ringFmt v = 7 ∧ (u.stn 0).book (ringVat v) = some b ∧
    rowBytes (ringFmt v) (shapeK (u.stn 0).arr.bkShape) ≤ b.size ∧ b.produce .take = some { b with prod := some .take, prods := 1 } := by decide

/-- An injecting station at the end of its bound, a station that adds and forwards, and a tile that takes the last pass in its last rows. -/
theorem test_ring_add : let w := word [(0, 0x22), (18, 1), (32, 1), (41, 1)]; let m := word [(0, 0x22), (15, 1), (17, 1), (41, 2)]
    let v := word [(0, 0x22), (8, 63), (15, 2), (17, 1), (23, 511), (41, 2)]
    let b : TileBook := ⟨512, 2, 0, false, 1, false, 4, 4, 3, some .ring, 0, false⟩
    let g (s : State) : State := s.modPart 0 fun x => { x with pos := [0, 1] }
    let s := g (at0 w); let t := g (at0 m); let u := g (tbook0 63 b (at0 v))
    s.readyFor 0 0 0x22 w = true ∧ (s.stn 0).arr.bkShape = 0 ∧ addRole w < 2 ∧ addFmt w = 1 ∧ addRm1 w % 2 = 1 ∧ addRole w = 0 ∧ addNoprod w = false ∧ fld w 22 18 ≠ 0 ∧
    fld w 22 18 ≤ (s.prt 0).hopsBound 0 (addLane w) ∧
    t.readyFor 0 0 0x22 m = true ∧ (t.stn 0).arr.bkShape = 0 ∧ addRole m = 1 ∧ addFmt m = 2 ∧
    u.readyFor 0 0 0x22 v = true ∧ (u.stn 0).arr.bkShape = 0 ∧ addRole v = 2 ∧ addFmt v = 2 ∧ vget (u.stn 0).tbooks (addTile v) = some b ∧ b.drained = false ∧ b.shape = 0 ∧
    b.fmt = addFmt v ∧ b.lease ≠ some .mma ∧ b.issued < b.passes ∧ fld v 31 23 + addRm1 v + 1 ≤ b.height := by decide

/-- A flit on the wire of a lane. -/
def flit (hops mode fmt : Nat) (d : List PByte) : Flit := ⟨9, mode, 0, hops, 0, true, false, fmt, d⟩

theorem test_ring_moves : let f := flit 3 0 3 []; let s := lane0 .cw (fun y => { y with wire := [f], rxq := List.replicate 95 ⟨f, true⟩ }) (job [0, 1])
    let u := lane0 .ccw (fun y => { y with owed := 1 }) (job [0, 1])
    ((s.stn 0).lane .cw).stopped = false ∧ ((s.stn 0).lane .cw).rxq.length < 96 ∧ s.clk.recal = [] ∧ ((s.stn 0).lane .cw).wire = [f] ∧ (⟨0, [], false, true⟩ : FlitEcc).sbDead = true ∧ ((s.stn 0).lane .cw).rxq ≠ [] ∧
    u.boundAt 0 = some 0 ∧ (u.prt 0).before 0 .ccw = some 1 ∧ ((u.stn 0).lane .ccw).owed ≠ 0 ∧ ((u.stn 1).lane .ccw).rxq = [] ∧ ((u.stn 1).lane .ccw).outq = [] := by decide

def isOk : FeedRes → Bool
  | .ok _ _ => true
  | _ => false

/-- A feed of one row to the next station begins, and one that has begun goes on. -/
theorem test_ring_feed_fires : let w := word [(0, 0x20), (8, 3), (13, 0), (17, 1), (48, 3), (112, 9)]; let e := entry w
    let y := { vat3 false .full with slots := [{ slot0 with st := .full, count := 64 }, slot0, slot0] }
    let g (s : State) : State := vat0 3 y (s.modSt 0 fun x => { x with arr := { x.arr with shape := 3 } })
    let s := g (put0 (.ring .cw) e (job [0, 1])); let u := g ((job [0, 1]).modSt 0 fun x => { x with ringOps := [ringOp0 e] })
    s.jobAt 0 = some 0 ∧ activeOp (s.stn 0) .cw 0x20 = none ∧ ringHead (s.stn 0) .cw 0x20 = some e ∧
    isOk (feedGo 0 (s.jobCtx 0) (popRing (s.stn 0) e) (ringOp0 e)) = true ∧
    activeOp (u.stn 0) .cw 0x20 = some (ringOp0 e) ∧ isOk (feedGo 0 (u.jobCtx 0) (u.stn 0) (ringOp0 e)) = true := by decide

/-- A RING.TAKE leaves its queue once its flit has come, and then takes the last flit of a row. -/
theorem test_ring_take_fires : let w := word [(0, 0x21), (8, 3), (48, 3), (112, 9)]; let e := entry w; let f := flit 0 0 3 (List.replicate 64 ⟨0, false⟩)
    let g (s : State) : State := vat0 3 (vat3 false .free) (s.modSt 0 fun x => { x with arr := { x.arr with shape := 3 } })
    let s := lane0 .cw (fun y => { y with rxq := [⟨f, false⟩] }) (g (put0 (.ring .cw) e (job [0, 1]))); let u := lane0 .cw (fun y => { y with rxq := [⟨f, false⟩] }) (g ((job [0, 1]).modSt 0 fun x => { x with ringOps := [ringOp0 e] }))
    s.jobAt 0 = some 0 ∧ ringHead (s.stn 0) .cw 0x21 = some e ∧ openReady (s.stn 0) .cw e = true ∧ (s.stn 0).ringOps = [] ∧
    u.jobAt 0 = some 0 ∧ headFlit ((u.stn 0).lane .cw) = some (0, f) ∧ earliest (u.stn 0) .cw f.tag = some e ∧ opc e.word = 0x21 ∧
    (u.stn 0).ringOps.find? (fun o => decide (o.e.seq = e.seq)) = some (ringOp0 e) ∧ isOk (takeGo .cw (u.stn 0) (ringOp0 e) f) = true := by decide

def isAdded : AddRes → Bool
  | .ok _ _ => true
  | _ => false
def addWaits : AddRes → Bool
  | .wait => true
  | _ => false

/-- A RING.ADD that injects what its array made fires, waits for its row, and sends it; one in the middle of its circuit takes the flit at the head of the lane. -/
theorem test_ring_add_fires : let w := word [(0, 0x22), (18, 1), (41, 2), (112, 9)]; let op := ringOp0 (entry w)
    let m := ringOp0 (entry (word [(0, 0x22), (15, 1), (17, 1), (41, 2), (112, 9)])); let f := flit 3 1 2 []
    let t := put0 (.ring .cw) (entry w) (job [0, 1]); let r := (job [0, 1]).modSt 0 fun x => { x with ringOps := [op] }
    let s := lane0 .cw (fun y => { y with adds := [⟨9, 0, [5], true, 0, false, false⟩] }) r
    let u := lane0 .cw (fun y => { y with rxq := [⟨f, false⟩] }) ((job [0, 1]).modSt 0 fun x => { x with ringOps := [m] })
    t.jobAt 0 = some 0 ∧ (t.stn 0).ringOps = [] ∧ addHead (t.stn 0) .cw = none ∧ ringHead (t.stn 0) .cw 0x22 = some (entry w) ∧ openReady (t.stn 0) .cw (entry w) = true ∧
    s.jobAt 0 = some 0 ∧ (s.stn 0).ringOps.filter (fun o => decide (opc o.e.word = 0x22) && onLane o.e.word .cw && !behindAdd (s.stn 0) .cw o) = [op] ∧ addRole op.e.word = 0 ∧
    stageRows ((s.stn 0).lane .cw) (ringTag op.e.word) op.rows (addStep op.e.word) = some [5] ∧ isAdded (addGo 0 .cw (s.stn 0) op) = true ∧
    u.jobAt 0 = some 0 ∧ addWaits (addGo 0 .cw (u.stn 0) m) = true ∧ addHead (u.stn 0) .cw = some (m, 0, f) ∧ isAdded (addTake .cw (u.stn 0) m 0 f) = true := by decide
/-! ### The array and the tiles -/

/-- A tile of one pass of 64 rows, FP32. -/
def tbook (issued : Nat) (lease : Option Lease) : TileBook := ⟨64, 2, 0, false, 1, false, 1, 1, issued, lease, 0, false⟩

theorem test_array_issue : let h := word [(0, 0x30), (8, 3)]; let l := word [(0, 0x31), (8, 3), (13, 511), (22, 511), (35, 0)]; let b := { vatBook false with size := 4096 }
    let s := at0 h; let u := book0 3 b (at0 l)
    s.readyFor 0 0 0x30 h = true ∧
    u.readyFor 0 0 0x31 l = true ∧ (u.stn 0).book (fin (fld l 12 8)) = some b ∧ Fmt.ofCode (loadFmt l) = some .bf16 ∧ b.outbound = false ∧ (u.stn 0).arr.bkLoad = none ∧
    loadK l ≤ shapeK (u.stn 0).arr.bkShape ∧ loadN l ≤ shapeN (u.stn 0).arr.bkShape ∧ (Fmt.bf16.isMx = true → loadK l % 32 = 0) ∧
    rowBytes (loadFmt l) (if Fmt.bf16.isMx then loadK l else loadN l) ≤ b.size ∧ b.consume .load = some { b with cons := some .load, conss := 1 } ∧ b.conss < b.len := by decide

/-- An ARR.MMA into tile 63 that takes the block of the load in progress, and one to the add stage with rows of two vats. -/
theorem test_mma_issue : let w := word [(0, 0x32), (8, 63), (23, 1), (25, 3), (37, 63), (55, 511), (64, 511)]; let v := word [(0, 0x32), (24, 1), (25, 3), (37, 63), (55, 511), (64, 511), (81, 2)]
    let b := vatBook false; let g (s : State) : State := s.modSt 0 fun x => { x with arr := { x.arr with bkLoad := some (512, 512, 0), bkActive := some (512, 512, 0) } }
    let s := g (tbook0 63 (tbook 0 none) (book0 3 b (at0 w))); let u := g (book0 3 b (at0 v))
    s.readyFor 0 0 0x32 w = true ∧ (if fbit w 23 then (s.stn 0).arr.bkLoad else (s.stn 0).arr.bkActive) = some (512, 512, 0) ∧ Fmt.ofCode (mmaFx w) = some .bf16 ∧
    mmaAcc (s.stn 0) w = some .fp32 ∧ formatsAccepted .bf16 .bf16 .fp32 (s.stn 0).arr.bkShape = true ∧ 512 = mmaK w ∧ mmaN w ≤ shapeN (s.stn 0).arr.bkShape ∧
    mmaDest w = false ∧ mmaTilesOk (s.stn 0) w (s.stn 0).arr.bkShape = true ∧ fbit w 35 = false ∧
    (operandVat (s.stn 0) (mmaVa w) (rowBytes (mmaFx w) (shapeK (s.stn 0).arr.bkShape))).isSome = true ∧
    u.readyFor 0 0 0x32 v = true ∧ mmaDest v = true ∧ mmaTagged v = false ∧ mmaTiles v = 1 ∧ (u.stn 0).arr.bkShape = 0 ∧ mmaAcc (u.stn 0) v = some .fp32 ∧
    (operandVat (u.stn 0) (mmaVa v) (rowBytes (mmaFx v) (shapeK (u.stn 0).arr.bkShape))).isSome = true := by decide

theorem test_tile_issue : let o := word [(0, 0x40), (8, 63), (16, 2), (34, 1)]; let d := word [(0, 0x41), (8, 63), (16, 3), (21, 2)]; let v := vatBook true
    let s := at0 o; let u := book0 3 v (tbook0 63 (tbook 1 (some .mma)) (at0 d)); let b := openBook (s.stn 0) o
    s.readyFor 0 0 0x40 o = true ∧ b.fmt = 2 ∧ b.passes ≠ 0 ∧ (b.faithful = true → b.passes ≤ 2 ^ b.depth) ∧ vget (s.stn 0).tbooks (openTile o) = none ∧
    storeUsed (s.stn 0) + occupancy b ≤ accStore ∧ spillOk (s.stn 0) ((s.prt 0).spill * 4096) b = true ∧
    u.readyFor 0 0 0x41 d = true ∧ asideFault (u.stn 0) d (tbook 1 (some .mma)) = false ∧ vget (u.stn 0).tbooks (drainTile d) = some (tbook 1 (some .mma)) ∧ (u.stn 0).book (drainVat d) = some v ∧
    pairOk (u.stn 0) d (tbook 1 (some .mma)) = true ∧ drainFmt d ≤ 4 ∧ v.outbound = true ∧ rowBytes (drainFmt d) (shapeN 0) ≤ v.size ∧
    v.produce .drain = some { v with prod := some .drain, prods := 1 } := by decide

theorem test_array_fires : let h := word [(0, 0x30), (8, 3)]; let l := word [(0, 0x31), (8, 3), (44, 1)]; let y := vat3 false .full
    let s := put0 .array (entry h) (job [0]); let u := vat0 3 y (put0 .array (entry l) (job [0])); let wt : Weights := ⟨0, 512, 512, 0, []⟩
    let c := (job [0]).modSt 0 fun x => { x with arr := { x.arr with load := some ⟨entry l, 0, wt⟩, swapWait := true } }
    s.headOp 0 .array 0x30 = some (entry h) ∧ (s.stn 0).arr.empty = true ∧ (s.stn 0).arr.slice = none ∧ (s.stn 0).arr.load = none ∧
    u.headOp 0 .array 0x31 = some (entry l) ∧ (u.stn 0).vat (fin (fld l 12 8)) = some y ∧ (u.stn 0).arr.shadow = none ∧ (u.stn 0).arr.swapWait = false ∧ (u.stn 0).chkQ = [] ∧ headFull y = true ∧
    (u.stn 0).vatFenced (fin (fld l 12 8) : VatNo).val 0 = false ∧ fbit l 44 = true ∧
    (c.stn 0).arr.load = some ⟨entry l, 0, wt⟩ ∧ (c.stn 0).arr.swapWait = true := by decide

/-- A block whose tag is 7 meets a KT of 7, and one of 9 (R70). -/
theorem test_copy_version_tag : let l := word [(0, 0x31), (8, 3), (39, 1)]; let h : List PByte := clean [7, 0, 0, 0, 0, 0, 0, 0]
    let y := { vat3 false .full with slots := [{ slot0 with st := .full, header := some h }, slot0, slot0] }
    let e := entryK l 1 7; let b := entryK l 1 9; let s := vat0 3 y (put0 .array e (job [0])); let u := vat0 3 y (put0 .array b (job [0]))
    s.headOp 0 .array 0x31 = some e ∧ u.headOp 0 .array 0x31 = some b ∧ (s.stn 0).vat (fin (fld l 12 8)) = some y ∧ (u.stn 0).vat (fin (fld l 12 8)) = some y ∧
    (u.stn 0).arr.load = none ∧ (u.stn 0).arr.shadow = none ∧ (u.stn 0).arr.swapWait = false ∧ (u.stn 0).arr.slice = none ∧ headFull y = true ∧
    (s.stn 0).arr.load = none ∧ (s.stn 0).arr.shadow = none ∧ (s.stn 0).arr.swapWait = false ∧ (s.stn 0).arr.slice = none ∧
    (s.stn 0).vatFenced (fin (fld l 12 8) : VatNo).val 0 = false ∧ (u.stn 0).vatFenced (fin (fld l 12 8) : VatNo).val 0 = false ∧ fbit l 44 = false ∧
    (y.slot y.head).header = some h ∧ headerTag h = (kr e.k (fld l 43 39)).toNat % 2 ^ 32 ∧ headerTag h ≠ (kr b.k (fld l 43 39)).toNat % 2 ^ 32 := by decide

def gotRow : Got → Option (List PByte)
  | .row _ d _ _ => some d
  | _ => none

/-- A row of the pipeline for the add stage, void or not. -/
def row0 (tile : Option (Fin 64)) (left void : Bool) (wit : List BandWit) : FlightRow :=
  ⟨0, 5, tile, 0, 9, 1, .bf16, .bf16, .fp32, [0], [], ArrayError.none, wit, false, [], false, false, left, void, false, false⟩
def flying (r : FlightRow) (s : State) : State := s.modSt 0 fun x => { x with arr := { x.arr with flight := [r] } }

/-- A row of a retry, and the first row of an ARR.MMA of K = 64 elements in E4M3. -/
theorem test_mma_fires : let w := word [(0, 0x32), (24, 1), (25, 3), (55, 63), (77, 3), (81, 2)]; let m : MmaRec := ⟨entry w, 0, [], .fp32, false⟩; let wt : Weights := ⟨3, 64, 1, 3, []⟩
    let y := { vat3 false .full with slots := [{ slot0 with st := .full, count := 64 }, slot0, slot0] }
    let r := (job [0]).modSt 0 fun x => { x with arr := { x.arr with refeed := [row0 none false false []] } }
    let s := vat0 3 y ((job [0]).modSt 0 fun x => { x with arr := { x.arr with shape := 3, mmas := [m], active := some wt } })
    (r.stn 0).arr.slice = none ∧ (r.stn 0).arr.refeed = [row0 none false false []] ∧ r.jobAt 0 = some 0 ∧
    (s.stn 0).arr.slice = none ∧ (s.stn 0).arr.refeed = [] ∧ s.jobAt 0 = some 0 ∧ (s.stn 0).arr.mmas.getLast? = some m ∧ (s.stn 0).arr.active = some wt ∧
    m.fed < mmaRows m.e.word ∧ gotRow (nextRow (s.stn 0) m.e (rowBytes (mmaFx m.e.word) (shapeK (s.stn 0).arr.shape))).2 = some (List.replicate 64 ⟨0, false⟩) ∧
    mmaTarget m.e.word m none = some (0, 0) ∧ Fmt.ofCode (mmaFx m.e.word) = some .e4m3 ∧ Fmt.ofCode wt.fmt = some .e4m3 ∧
    (let o := prologue (s.stn 0) (s.jobCtx 0) (mmaFx m.e.word) 0 (List.replicate 64 ⟨0, false⟩)
     o.fault = false ∧ o.poison = false ∧ anyPoison o.data = false) := by decide

/-- The first row of an ARR.MMA that is next in the queue: with the active block, and with the one that waits in the shadow registers. -/
theorem test_mma_starts : let w := word [(0, 0x32), (24, 1), (25, 3), (55, 63), (77, 3), (81, 2)]; let u := word [(0, 0x32), (23, 1), (24, 1), (25, 3), (55, 63), (77, 3), (81, 2)]
    let wt : Weights := ⟨3, 64, 1, 3, []⟩
    let g (e : Entry) (a b : Option Weights) : State := put0 .array e ((job [0]).modSt 0 fun x => { x with arr := { x.arr with shape := 3, active := a, shadow := b } })
    let s := g (entry w) (some wt) none; let t := g (entry u) none (some wt)
    (s.stn 0).arr.mmas = [] ∧ s.headOp 0 .array 0x32 = some (entry w) ∧ (if fbit w 23 then (s.stn 0).arr.shadow else (s.stn 0).arr.active) = some wt ∧ mmaDest w = true ∧
    mmaAcc (s.stn 0) w = some .fp32 ∧ tilesFired (s.stn 0) w = true ∧
    t.headOp 0 .array 0x32 = some (entry u) ∧ (if fbit u 23 then (t.stn 0).arr.shadow else (t.stn 0).arr.active) = some wt ∧ tilesFired (t.stn 0) u = true ∧ anyPoison wt.data = false := by decide

def tile0 (ended : Nat) (q : List MergeRec) : Tile := ⟨{ tbook 1 (some .mma) with faithful := true }, [], [], false, false, ended, [], q, 0, false⟩

theorem test_tile_fires : let o := word [(0, 0x40), (8, 63), (16, 2), (34, 1)]; let d := word [(0, 0x41), (8, 63), (16, 3), (21, 2)]
    let s := tbook0 63 (tbook 0 none) (put0 .acc (entry o) (job [0]))
    let u := (job [0]).modSt 0 fun x => { x with drain := some ⟨entry d, 64⟩, tiles := vset x.tiles 63 (some (tile0 1 [])) }
    s.headOp 0 .acc 0x40 = some (entry o) ∧ vget (s.stn 0).tbooks (openTile o) = some (tbook 0 none) ∧
    (u.stn 0).drain = some ⟨entry d, 64⟩ ∧ vget (u.stn 0).tiles (drainTile d) = some (tile0 1 []) ∧ (tile0 1 []).bk.height ≤ 64 := by decide

/-- The first row of a drain that is next in its queue, and the last row of one in progress, of a tile of shape 0 into a vat. -/
def isGot : Aside → Bool
  | .got _ l b => decide (l = []) && !b
  | _ => false

theorem test_drain_row : let d := word [(0, 0x41), (8, 63), (16, 3), (21, 2)]; let y := vat3 true .free
    let q := put0 .acc (entry d) ((job [0]).modSt 0 fun x => { x with tiles := vset x.tiles 63 (some (tile0 1 [])) })
    let s := vat0 3 y ((job [0]).modSt 0 fun x => { x with drain := some ⟨entry d, 63⟩, tiles := vset x.tiles 63 (some (tile0 1 [])) })
    q.headOp 0 .acc 0x41 = some (entry d) ∧ (q.stn 0).drain = none ∧ drainStarts (q.stn 0) (entry d) = true ∧
    s.jobAt 0 = some 0 ∧ (s.stn 0).drain = some ⟨entry d, 63⟩ ∧ isGot (asideRow (s.stn 0) d 63 512) = true ∧ vget (s.stn 0).tiles (drainTile d) = some (tile0 1 []) ∧ 63 < (tile0 1 []).bk.height ∧
    (s.stn 0).vat (drainVat d) = some y ∧ Fmt.ofCode (drainFmt d) = some .fp32 ∧ Fmt.ofCode (tile0 1 []).bk.fmt = some .fp32 ∧ tailFree y = true ∧
    drainPair d = false ∧ (s.stn 0).vec.epi = none ∧
    (epilogue (s.stn 0) (s.jobCtx 0) d 63 [.num false 0] [] false).fault = false ∧ (epilogue (s.stn 0) (s.jobCtx 0) d 63 [.num false 0] [] false).poison = false ∧
    (match putRow (s.stn 0) y (List.replicate 2048 ⟨0, false⟩) none with | .done _ _ => true | _ => false) = true := by decide

theorem test_product_rows : let a := row0 none false false []; let v := row0 none false true []; let t := row0 (some 63) false false []; let h := { t with fx := .fp32 }
    let s := flying v (job [0]); let u := flying a (job [0]); let g (r : FlightRow) : State := flying r ((job [0]).modSt 0 fun x => { x with tiles := vset x.tiles 63 (some (tile0 0 [])) })
    let x := g t; let y := g h
    (s.stn 0).arr.flight.findIdx? (fun r => !r.left) = some 0 ∧ (s.stn 0).arr.flight[0]? = some v ∧ v.void = true ∧
    (u.stn 0).arr.flight.findIdx? (fun r => !r.left) = some 0 ∧ (u.stn 0).arr.flight[0]? = some a ∧ a.void = false ∧ a.tile = none ∧
    (u.stn 0).cw.adds.length < 32 ∧ (u.stn 0).ccw.adds.length < 32 ∧
    (x.stn 0).arr.flight.findIdx? (fun r => !r.left) = some 0 ∧ (x.stn 0).arr.flight[0]? = some t ∧ t.tile = some 63 ∧ vget (x.stn 0).tiles 63 = some (tile0 0 []) ∧ t.held = false ∧
    (y.stn 0).arr.flight.findIdx? (fun r => !r.left) = some 0 ∧ (y.stn 0).arr.flight[0]? = some h ∧ h.void = false ∧ h.tile = some 63 ∧ vget (y.stn 0).tiles 63 ≠ none ∧ h.fx = .fp32 ∧
    (x.stn 0).arr.passes = [] ∧ (tile0 0 []).mergeQ.length < 2 ∧ tilePoisonIn (tile0 0 []) (t.row * shapeN (x.stn 0).arr.shape) t.n = false := by decide

theorem test_pass_and_merge : let q : PassRec := ⟨0, 63, 64, 0, false⟩; let m : MergeRec := ⟨0, [], []⟩; let bad : MergeRec := ⟨0, [], [5]⟩
    let s := (job [0]).modSt 0 fun x => { x with arr := { x.arr with passes := [q] }, tiles := vset x.tiles 63 (some (tile0 0 [m])) }
    (s.stn 0).arr.passes.find? (fun p => decide (p.remaining = 0) && !p.ended) = some q ∧ vget (s.stn 0).tiles q.tile = some (tile0 0 [m]) ∧
    (tile0 0 [m]).mergeQ = m :: [] ∧ Fmt.ofCode (tile0 0 [m]).bk.fmt = some .fp32 ∧ (tile0 0 [m]).bk.faithful = true ∧
    (s.stn 0).arr.flight ++ (s.stn 0).arr.refeed = [] ∧ s.jobAt 0 = some 0 ∧
    (let u := (job [0]).modSt 0 fun x => { x with tiles := vset x.tiles 63 (some (tile0 0 [bad])) }
     vget (u.stn 0).tiles 63 = some (tile0 0 [bad]) ∧ (tile0 0 [bad]).mergeQ = bad :: [] ∧ bad.poison ≠ [] ∧ (u.stn 0).arr.flight ++ (u.stn 0).arr.refeed = []) ∧
    (carryPass (s.stn 0) (tile0 0 [m]) .fp32 m (spillBase (s.prt 0))).2.2.2 = false ∧ (spill (s.stn 0) (tile0 0 [m]) .fp32 m (spillBase (s.prt 0))).2.2.2 = false := by decide

/-- A row without a band to compare, one that was held for its verdict, and one whose sum of 0 is not the witness of 1. -/
theorem test_verdicts : let ok := row0 none true false []; let bad := row0 (some 63) true false [⟨0x3F800000, 0, false, false⟩]; let again := { bad with rerun := true }
    let m : MmaRec := ⟨entry 0, 1, [], .fp32, false⟩; let g (r : FlightRow) : State := (job [0]).modSt 0 fun x => { x with arr := { x.arr with flight := [r], mmas := [m] } }
    ((g ok).stn 0).arr.flight = [ok] ∧ ok.left = true ∧ ok.void = false ∧ ((g ok).stn 0).arr.mmas.find? (fun m => decide (m.e.seq = ok.seq)) = some m ∧
    (∀ v ∈ rowVerdicts ok 0, v = (true, false)) ∧ ok.again = false ∧
    enterTile ((g ok).stn 0) ok = some ((g ok).stn 0, ok) ∧ enterPoison ((g ok).stn 0) ok = false ∧
    (let r := { row0 (some 63) true false [] with fx := .fp32 }; let s := (g r).modSt 0 fun x => { x with tiles := vset x.tiles 63 (some (tile0 0 [])) }
     (s.stn 0).arr.flight = [r] ∧ r.left = true ∧ r.held = true ∧ rowVerdicts r 0 = [] ∧ (enterTile (s.stn 0) r).isSome = true ∧ enterPoison (s.stn 0) r = false) ∧
    ((g bad).stn 0).arr.flight = [bad] ∧ bad.left = true ∧ bad.void = false ∧ bad.tile ≠ none ∧ m.retried = false ∧ bad.rerun = false ∧
    ((g again).stn 0).arr.flight = [again] ∧ again.rerun = true := by decide

theorem test_verdict_fails : rowVerdicts (row0 (some 63) true false [⟨0x3F800000, 0, false, false⟩]) 0 = [(false, false)] := by with_unfolding_all decide
/-! ### The vector unit -/

theorem test_vector_issue : let a := word [(0, 0x50), (8, 8)]; let b := word [(0, 0x51), (8, 4), (13, 15)]; let c := word [(0, 0x52), (8, 4), (13, 15), (96, 3), (101, 1), (102, 2)]
    let v := vatBook false; let k : W64 := BitVec.ofNat 64 (progBase 1 - 256); let s := reg0 4 k (at0 b); let u := reg0 4 k (book0 3 v (at0 c))
    (at0 a).readyFor 0 0 0x50 a = true ∧ fld a 11 8 ≤ 8 ∧
    s.readyFor 0 0 0x51 b = true ∧ (kr (s.stn 0).sq.k (fld b 12 8)).toNat + 16 * (fld b 16 13 + 1) ≤ progBase (s.prt 0).prog ∧
    u.readyFor 0 0 0x52 c = true ∧ (kr (u.stn 0).sq.k (fld c 12 8)).toNat + 16 * (fld c 16 13 + 1) ≤ progBase (u.prt 0).prog ∧ fbit c 101 = true ∧ fld c 105 102 ≤ 2 ∧
    (u.stn 0).book (fin (fld c 100 96)) = some v ∧ v.outbound = false ∧ v.consume .aside = some { v with cons := some .aside, conss := 1 } := by decide

/-- A reduction of 1,024 columns into a vat with a second input, and a row without an output. -/
theorem test_vec_op_issue : let w := word [(0, 0x53), (17, 3), (22, 5), (28, 1), (29, 1), (30, 1023), (42, 2), (46, 2), (64, 2 ^ 24 - 1), (88, 4), (93, 1)]; let v := word [(0, 0x53), (17, 3), (30, 1023), (42, 4)]
    let s := book0 5 (vatBook true) (book0 4 (vatBook false) (book0 3 (vatBook false) (at0 w))); let u := book0 3 (vatBook false) (at0 v)
    s.readyFor 0 0 0x53 w = true ∧ (kr (s.stn 0).sq.k (fld w 12 8)).toNat + 16 * (fld w 16 13 + 1) ≤ progBase (s.prt 0).prog ∧ vopFin w ≤ 4 ∧ vopFout w ≤ 4 ∧
    vopRed w = true ∧ 2 ^ Nat.log2 (vopCols w) = vopCols w ∧ vopOut w = true ∧ vopIn2 w = true ∧
    (do let a ← vopIn (s.stn 0) (vopVin w) (rowBytes (vopFin w) (vopCols w)); let b ← vopIn a (vopVin2 w) (rowBytes (vopFin w) (vopCols w)); vopOutVat b (vopVout w) (rowBytes (vopFout w) 1)).isSome = true ∧
    u.readyFor 0 0 0x53 v = true ∧ vopOut v = false ∧ vopRows v = 1 ∧ vopCols v = 1024 ∧ vopIn2 v = false ∧ (vopIn (u.stn 0) (vopVin v) (rowBytes (vopFin v) (vopCols v))).isSome = true := by decide

theorem test_vector_issue_stores : let n := word [(0, 0x54), (13, 5), (18, 4), (23, 2047), (35, 1), (37, 0), (64, 1), (96, 0x3F800000)]; let m := word [(0, 0x55), (8, 16383), (22, 0)]; let r := word [(0, 0x56), (8, 4)]
    let s := reg0 4 (BitVec.ofNat 64 (progBase 1 - 8)) (reg0 5 16 (at0 n)); let u := reg0 4 (BitVec.ofNat 64 (progBase 1 - 4096)) (at0 r)
    s.readyFor 0 0 0x54 n = true ∧ fld n 87 64 ≠ 0 ∧
    (kr (s.stn 0).sq.k (fld n 12 8)).toNat + fld n 34 23 * (kr (s.stn 0).sq.k (fld n 17 13)).toNat + (if fbit n 35 then 16 else 8) * (fld n 60 37 + 1) ≤ progBase (s.prt 0).prog ∧
    (kr (s.stn 0).sq.k (fld n 22 18)).toNat + 8 * (fld n 60 37 + 1) ≤ progBase (s.prt 0).prog ∧
    (at0 m).readyFor 0 0 0x55 m = true ∧ fld m 21 8 + fld m 35 22 ≤ 16383 ∧
    u.readyFor 0 0 0x56 r = true ∧ (kr (u.stn 0).sq.k (fld r 12 8)).toNat + 4096 ≤ progBase (u.prt 0).prog := by decide

theorem test_vector_fires : let a := word [(0, 0x50), (8, 8)]; let b := word [(0, 0x51)]; let c := word [(0, 0x52)]; let g (w : W128) : State := put0 .vec (entry w) (job [0])
    (g a).headOp 0 .vec 0x50 = some (entry a) ∧ epiBusy ((g a).stn 0) = false ∧ proBusy ((g a).stn 0) = false ∧
    (g b).headOp 0 .vec 0x51 = some (entry b) ∧ proBusy ((g b).stn 0) = false ∧ uopList ((g b).stn 0) (entry b) = some [0] ∧ [(0 : W128)].all (uopAllowed .pro) = true ∧
    (g c).headOp 0 .vec 0x52 = some (entry c) ∧ epiBusy ((g c).stn 0) = false ∧ uopList ((g c).stn 0) (entry c) = some [0] ∧ [(0 : W128)].all (uopAllowed .epi) = true := by decide

/-- The one row of a VEC.OP of one column without output, and a VEC.OP that has run it. -/
theorem test_vec_op_fires : let w := word [(0, 0x53), (17, 3), (42, 2)]; let y := vat3 false .full; let e := entry w
    let s := vat0 3 { y with slots := [{ slot0 with st := .full, count := 4 }, slot0, slot0] } (put0 .vec e (job [0])); let u := (job [0]).modSt 0 fun x => { x with vec := { x.vec with op := some ⟨e, [0], 1⟩ } }
    s.jobAt 0 = some 0 ∧ (s.stn 0).vec.op = none ∧ s.headOp 0 .vec 0x53 = some e ∧ epiBusy (s.stn 0) = false ∧ (s.stn 0).arr.slice = none ∧ (s.stn 0).accQ = [] ∧ uopList (s.stn 0) e = some [0] ∧
    [(0 : W128)].all (uopAllowed .op) = true ∧ vopIn2 w = false ∧ vopOut w = false ∧ gotRow (vopRow ((s.stn 0).pop .vec) e (vopVin w)) = some (List.replicate 4 ⟨0, false⟩) ∧
    Fmt.ofCode (vopFin w) = some .fp32 ∧ Fmt.ofCode (vopFout w) = some .bf16 ∧ (u.stn 0).vec.op = some ⟨e, [0], 1⟩ ∧ vopRows w ≤ 1 := by decide

/-- A list of one micro-op that does no arithmetic neither faults nor consumes poison. -/
theorem test_uop_runs : let i : RowIn := ⟨.op, 0, true, rowVals .fp32 (List.replicate 4 ⟨0, false⟩), rowVals .fp32 [], false, entry 0, (job [0]).jobCtx 0⟩
    (runProg Station.reset [0] i).fault = false ∧ (runProg Station.reset [0] i).poison = false := by with_unfolding_all decide

theorem test_vector_stores_fire : let n := word [(0, 0x54), (64, 1)]; let m := word [(0, 0x55), (8, 16383)]; let r := word [(0, 0x56)]; let g (w : W128) : State := put0 .vec (entry w) (job [0])
    (g n).headOp 0 .vec 0x54 = some (entry n) ∧ (g m).headOp 0 .vec 0x55 = some (entry m) ∧ (g r).headOp 0 .vec 0x56 = some (entry r) ∧
    (kr (entry r).k (fld r 12 8)).toNat % 8 = 0 ∧ leP (((g r).stn 0).lsRead 4088 8) < 2 ^ 48 ∧ ((g r).stn 0).ls = [] ∧ ((g n).stn 0).lsPoison = [] := by decide
/-! ### Engines, sends, mordants and known-answer tests -/

theorem test_outside_issue : let g := word [(0, 0x60), (13, 3), (96, 928)]; let x := word [(0, 0x61), (96, 1)]; let m := word [(0, 0x62), (96, 1)]; let k := word [(0, 0x90)]
    (at0 g).readyFor 0 0 0x60 g = true ∧ (at0 x).readyFor 0 0 0x61 x = true ∧ (at0 m).readyFor 0 0 0x62 m = true ∧
    (at0 k).readyFor 0 0 0x90 k = true ∧ ((at0 k).stn 0).arr.bkLoad = none := by decide

theorem test_net_send_issue : let w := word [(0, 0x70), (8, 3), (41, 0x3FF), (51, 1), (96, 1)]; let b := { vatBook true with cons := some .send, conss := 3 }; let s := book0 3 b (at0 w)
    s.readyFor 0 0 0x70 w = true ∧ (s.stn 0).book (netVat w) = some b ∧ b.outbound = true ∧ netFault s 0 ((s.stn 0).entryFor w) = false ∧
    b.consume .send = some { b with conss := 4 } ∧ b.conss < b.len := by decide

/-- The last mordant of the range, at station 0 itself; an operation on another device's mordant names a route and is a calendar instruction. -/
theorem test_mordant_issue : let wt := word [(0, 0x80), (8, 15)]; let rd := word [(0, 0x83), (8, 8)]; let ad := word [(0, 0x81), (8, 15)]; let st := word [(0, 0x82), (8, 15), (29, 1), (35, 0x3FF), (45, 1), (96, 1)]
    (at0 wt).readyFor 0 0 0x80 wt = true ∧ (at0 wt).inMorRange 0 (morNo wt) = true ∧ (at0 rd).readyFor 0 0 0x83 rd = true ∧ (at0 rd).inMorRange 0 (morNo rd) = true ∧
    (at0 ad).readyFor 0 0 0x81 ad = true ∧ morRem ad = false ∧ (at0 ad).inMorRange 0 (morNo ad) = true ∧ fbit ad 45 = (morRem ad || decide ((at0 ad).morHolder 0 (morNo ad) ≠ some 0)) ∧
    (at0 st).readyFor 0 0 0x82 st = true ∧ morRem st = true ∧ fbit st 45 = true ∧ (at0 st).routeFault 0 (fld st 44 35) = false := by decide

theorem test_engine_fires : let g := word [(0, 0x60), (13, 3)]; let x := word [(0, 0x61)]; let m := word [(0, 0x62)]; let f (w : W128) : State := put0 .eng (entry w) (job [0])
    (f g).headOp 0 .eng 0x60 = some (entry g) ∧ (f g).jobAt 0 = some 0 ∧ (entry g).started = true ∧ descDest ((f g).stn 0) (entry g) = some (.route 3) ∧
    (kr (entry g).k (fld g 12 8)).toNat % 64 = 0 ∧ (kr (entry g).k (fld g 12 8)).toNat + 64 ≤ progBase ((f g).prt 0).prog ∧ (f g).descCredit 0 (.route 3) = true ∧
    (f x).headOp 0 .eng 0x61 = some (entry x) ∧ descDest ((f x).stn 0) (entry x) = some (.transpose 0) ∧ (f x).descCredit 0 (.transpose 0) = true ∧
    (kr (entry m).k (fld m 12 8)).toNat % 128 = 0 ∧ (kr (entry m).k (fld m 12 8)).toNat + 128 ≤ progBase ((f m).prt 0).prog ∧
    (f m).headOp 0 .eng 0x62 = some (entry m) ∧ descDest ((f m).stn 0) (entry m) = some (.madder 0) ∧ (f m).descCredit 0 (.madder 0) = true := by decide

/-- A send over an open route, and one on a route of role 11b, which ends in the device's own memory. -/
theorem test_send_fires : let w := word [(0, 0x70), (8, 3), (41, 0x3FF)]; let l := word [(0, 0x70), (8, 3), (41, 5)]; let y := { vat3 true .full with slots := [{ slot0 with st := .full, count := 4096 }, slot0, slot0] }
    let f (w : W128) : State := vat0 3 y (put0 .net (entry w) (job [0]))
    let k := word [(0, 0x70), (8, 3), (13, 4), (41, 5)]; let at5 (s : State) : State := s.setDom 0x5100 1 (List.replicate (16 * 5 + 15) 0 ++ [0x60])
    let s := windows (at5 (f l)); let z := windows (at5 (vat0 3 y (put0 .net (entryK k 4 (2 ^ 30)) (job [0]))))
    (f w).headOp 0 .net 0x70 = some (entry w) ∧ (f w).jobAt 0 = some 0 ∧ ((f w).stn 0).vat (netVat w) = some y ∧ headFull y = true ∧ ((f w).stn 0).vatFenced (netVat w).val 0 = false ∧
    (f w).inFlight 0 < 32 ∧ (entry w).started = true ∧ (y.slot y.head).count % 16 = 0 ∧ (kr (entry w).k (fld w 17 13)).toNat % 16 = 0 ∧ (f w).ownRoute 0 (netRoute w) = false ∧ (f w).ownKindFault 0 (netRoute w) false = false ∧
    s.headOp 0 .net 0x70 = some (entry l) ∧ netKind l = 0 ∧ s.ownRoute 0 (netRoute l) = true ∧ s.ownKindFault 0 (netRoute l) false = false ∧ s.inWin 0 0 4096 = true ∧ netMen l = false ∧
    z.headOp 0 .net 0x70 = some (entryK k 4 (2 ^ 30)) ∧ z.ownRoute 0 (netRoute k) = true ∧ z.inWin 0 (kr (entryK k 4 (2 ^ 30)).k (fld k 17 13)).toNat 4096 = false := by decide

theorem test_mordant_fires : let wt := word [(0, 0x80), (8, 9)]; let ad := word [(0, 0x81), (8, 9)]; let st := word [(0, 0x82), (8, 9), (29, 1), (35, 0x3FF), (45, 1)]; let rd := word [(0, 0x83), (8, 9)]; let own := word [(0, 0x81), (8, 15), (29, 1)]; let low := word [(0, 0x82), (8, 16), (29, 1)]
    let f (w : W128) : State := put0 .mor (entry w) (windows (job [0])); let bad := (f wt).setMor 9 ⟨0, true⟩; let r : MorRead := ⟨4, 7, 1⟩
    (f wt).headOp 0 .mor 0x80 = some (entry wt) ∧ (f wt).jobAt 0 = some 0 ∧ ((f wt).mor 9).failed = false ∧ (kr (entry wt).k (morKv wt)).toNat ≤ ((f wt).mor 9).count.toNat ∧
    bad.headOp 0 .mor 0x80 = some (entry wt) ∧ (bad.mor (morNo wt)).failed = true ∧
    (f ad).headOp 0 .mor 0x81 = some (entry ad) ∧ isCalendar ad = false ∧ morRem ad = false ∧
    (f st).headOp 0 .mor 0x82 = some (entry st) ∧ isCalendar st = true ∧ (entry st).started = true ∧ morRem st = true ∧ (f st).ownRoute 0 (fld st 44 35) = false ∧
    (let u := route0 ownMemory (f own); let v := route0 ownMemory (f low)
     u.headOp 0 .mor 0x81 = some (entry own) ∧ isCalendar own = false ∧ morRem own = true ∧ u.ownRoute 0 (fld own 44 35) = true ∧ u.ownKindFault 0 (fld own 44 35) false = false ∧
     u.morAt 0 (u.morOffset 0 (morNo own)).toNat = some 15 ∧ v.ownRoute 0 (fld low 44 35) = true ∧ v.morAt 0 (v.morOffset 0 (morNo low)).toNat = none) ∧
    (f rd).headOp 0 .mor 0x83 = some (entry rd) ∧ (((f rd).modSt 0 fun x => { x with morReads := [r] }).stn 0).morReads = [r] := by decide

/-- An add that reaches the top and one past it, a set, a wait and a gate one below and at their thresholds. -/
theorem test_mordant_operations : let a : MorOp := ⟨some 0, 0, 9, false, 2, false⟩; let b : MorOp := { a with set := true }
    let s := { (windows (job [0])).setMor 9 ⟨BitVec.ofNat 64 (2 ^ 64 - 3), false⟩ with morOps := [a] }; let u := { (windows (job [0])).setMor 9 ⟨BitVec.ofNat 64 (2 ^ 64 - 2), false⟩ with morOps := [a, { b with st := some 1 }] }
    let e := entryK (word [(0, 0x80), (8, 9), (24, 4)]) 4 (BitVec.ofNat 64 (2 ^ 64 - 2)); let f (s : State) : State := put0 .mor e s
    let c : MorOp := { a with poison := true }; let z := { windows (job [0]) with morOps := [c] }; let g := { windows State.reset with morOps := [a] }; let ew := { e with waited := 3 }
    let h := (put0 .mor ew s).modPart 0 fun x => { x with morTimeout := 1 }
    s.morOps[0]? = some a ∧ s.stuckMor a = none ∧ (on (u.setReg 0x4101 2 1000)).stuckMor { b with st := some 1 } = none ∧ z.morOps[0]? = some c ∧ z.stuckMor c = none ∧ z.loaded 0 = true ∧
    g.morOps[0]? = some a ∧ g.stuckMor a = none ∧ g.loaded 0 = false ∧ s.loaded a.part = true ∧ a.poison = false ∧ a.set = false ∧ (s.mor 9).count.toNat + a.value.toNat < 2 ^ 64 ∧ swf mordant0 s.mordants = true ∧
    2 ^ 64 ≤ (u.mor 9).count.toNat + a.value.toNat ∧ u.morOps[1]? = some { b with st := some 1 } ∧ (∀ o ∈ u.morOps.take 1, o.mor = 9 → o.st ≠ some 1) ∧
    waitsOn (h.stn 0) .mor = some (ew, 9, BitVec.ofNat 64 (2 ^ 64 - 2)) ∧ h.jobAt 0 = some 0 ∧ (h.mor 9).count.toNat < 2 ^ 64 - 2 ∧ (h.mor 9).failed = false ∧
    (h.prt 0).held = false ∧ (h.prt 0).morTimeout * 1000 ≤ (ew.waited - 1) * 512 ∧
    (f u).headOp 0 .mor 0x80 = some e ∧ (kr e.k (morKv e.word)).toNat ≤ ((f u).mor (morNo e.word)).count.toNat ∧
    calGate (word [(0, 0x81), (111, 1)]) = true := by decide

theorem test_kat : let w := word [(0, 0x90)]; let s := put0 .chk (entry w) (job [0]); let c : Slice := ⟨3, 7, 0, 0, false⟩
    let u := (job [0]).modSt 0 fun x => { x with arr := { x.arr with slice := some c } }; let i := up (live State.reset); let o := { (up State.reset).setReg 0x7010 1 1 with time := BitVec.ofNat 64 (3 * dayNs) }
    s.headOp 0 .chk 0x90 = some (entry w) ∧ s.jobAt 0 = some 0 ∧ katFree (s.stn 0) = true ∧ (s.prt 0).held = false ∧
    (u.stn 0).arr.slice = some c ∧ c.direct = false ∧ u.regsWf = true ∧
    i.stationIdle 0 = true ∧ i.stewardUp = true ∧ (i.stn 0).arr.slice = none ∧ (i.hlt 0).queue.length ≤ 8192 ∧ i.regsWf = true ∧
    o.reg 0x7010 1 = 1 ∧ o.stewardUp = true ∧ o.passed (o.hlt 0).lastEvent (3 * dayNs) = true ∧ o.regsWf = true := by decide

/-! ### Descriptors -/

def wide (l : List (Nat × Nat)) : BitVec 1024 := BitVec.ofNat 1024 (l.map fun e => e.2 <<< e.1).sum
def gatherWord (op : Nat) : BitVec 1024 := wide [(0, 131072), (64, 65536), (192, 16384), (256, 256), (288, 1), (312, 1), (316, op), (336, 2 * op), (352, 1), (384, 8), (448, 32768)]
def xposeWord (dst : Nat) : BitVec 1024 := wide [(268, 3), (272, 8), (320, 1), (352, 1), (384, dst)]
def madderWord (mode : Nat) : BitVec 1024 := wide [(262, 2), (264, 2), (268, mode), (272, 8), (288, 1), (384, 0x3F800000), (448, 0x3F800000), (576, 32768), (704, 16384), (768, 12288),
  (832, 8192), (896, 4096)]
def desc (b : BitVec 1024) (poison checked : Bool) (done : Nat) : DescRec := ⟨0, 5, b, poison, checked, done, [], 0, 0, false, false, 0, []⟩
/-- A fault of an engine, not a wait. -/
def faulted {α : Type} : Except Halt α → Bool
  | .error (.fault _ _ _ _) => true
  | _ => false
def ran {ε α : Type} : Except ε α → Bool
  | .ok _ => true
  | .error _ => false

/-- A gather begins and a combine goes on, one block of 256 bytes each; one whose fields are bad faults; a descriptor whose blocks have all moved ends. -/
theorem test_routing_engine : let f : DescFlight := ⟨.route 3, 0, 0, 5, gatherWord 0, false⟩; let d := desc (gatherWord 0) false false 0; let c := desc (gatherWord 1) false true 0
    let t := { on (windows (job [0])) with descs := [f] }; let s := on (windows (job [0]))
    t.descs = [] ++ f :: [] ∧ f.dst = .route 3 ∧ t.stuckDesc f = none ∧ jobHolds (t.prt f.part) = true ∧ jobHolds (State.reset.prt f.part) = false ∧
    (s.setRouteQ 3 0 [d]).routeQ 3 0 = [d] ∧ rtOp d = 0 ∧ (s.prt 0).held = false ∧ s.routeUp 3 = true ∧ d.checked = false ∧ ({ d with poison := true } : DescRec).checked = false ∧
    (s.setRouteQ 3 0 [c]).routeQ 3 0 = [c] ∧ rtOp c = 1 ∧ c.checked = true ∧ c.done < rtTotal c ∧ rtTotal c ≤ 1 := by decide +kernel

theorem test_gather_block : ran (routeTry (gatherNext fine 3 0) fine 3 0 (desc (gatherWord 0) false false 0) (on (windows (job [0])))) = true := by decide +kernel
theorem test_combine_block : ran (routeTry (combineNext fine 3 0) fine 3 0 (desc (gatherWord 1) false true 0) (on (windows (job [0])))) = true := by decide +kernel
theorem test_gather_fails : faulted (routeTry (gatherNext fine 3 0) fine 3 0 (desc (gatherWord 0) false true 0) (on (job [0]))) = true := by decide +kernel

/-- One element, a poisoned descriptor, and one whose destination lies in no window; a descriptor that has moved its element. -/
theorem test_transpose_engine : let f : DescFlight := ⟨.transpose 0, 0, 0, 5, xposeWord 4096, false⟩; let d := desc (xposeWord 4096) false false 0; let bad := desc (xposeWord (2 ^ 37)) false false 0
    let t := { on (windows (job [0])) with descs := [f] }; let s := on (windows (job [0]))
    t.descs = [] ++ f :: [] ∧ f.dst = .transpose 0 ∧ t.stuckDesc f = none ∧ t.towerUp 0 = true ∧ jobHolds (t.prt f.part) = true ∧
    vget ((s.setXq 0 0 [d]).twr 0).xq 0 = [d] ∧ (s.prt 0).held = false ∧ s.engineUp 0 0 = true ∧ d.poison = false ∧ xposeOk s 0 0 d = true ∧ s.xposeFree d = true ∧
    ran ((List.range (xpNext d)).foldlM (fun s i => xposeElem fine 0 (xposeEng 0 d) d s (d.done + i)) s) = true ∧
    (desc (xposeWord 4096) true false 0).poison = true ∧ xposeOk s 0 0 bad = false ∧ xpRows d * xpCols d ≤ 1 := by decide +kernel

/-- The destination of a transpose that has passed its checks has become secured. -/
theorem test_transpose_fails : let d := desc (xposeWord 4096) false true 0; let s := (on (windows (job [0]))).modTwr 0 fun x => { x with epochs := vset x.epochs 0 (some ⟨[⟨0, .pending, none, [], []⟩], false⟩) }
    d.done < xpRows d * xpCols d ∧ s.xposeFree d = true ∧
    faulted ((List.range (xpNext d)).foldlM (fun s i => xposeElem fine 0 (xposeEng 0 d) d s (d.done + i)) s) = true := by decide +kernel

theorem test_madder_queue : let f : DescFlight := ⟨.madder 0, 0, 0, 5, madderWord 0, false⟩; let d := desc (madderWord 0) false false 0; let m := desc (madderWord 1) false true 0
    let t := { on (windows (job [0])) with descs := [f] }; let s := on (windows (job [0])); let b := (s.setReg 0x6171 1 0).modPart 0 fun x => { x with sec := { x.sec with sc := some (-17) } }
    t.descs = [] ++ f :: [] ∧ f.dst = .madder 0 ∧ t.stuckDesc f = none ∧ t.towerUp 0 = true ∧ jobHolds (t.prt f.part) = true ∧
    vget ((s.setMq 0 0 [d]).twr 0).mq 0 = [d] ∧ mdMode d = 0 ∧ s.engineUp 0 0 = true ∧ d.wq = [] ∧ d.checked = false ∧ d.hold = false ∧ d.poison = false ∧ madderOk s 0 0 d = true ∧
    s.stepBlocked 0 (mdStep d) = false ∧ b.stepBlocked 0 (mdStep d) = true ∧ madderOk b 0 0 d = true ∧ (s.prt 0).held = false ∧
    vget ((s.setMq 0 0 [m]).twr 0).mq 0 = [m] ∧ mdMode m = 1 ∧ m.done < mdCount m ∧ s.madderFree m 1 = true ∧ s.madderFree d 1 = true ∧ s.awaitsOpen 0 (mdStep d) = false ∧  mdCount m ≤ 1 := by decide +kernel

/-- The one element of an adaptive and of a momentum update is computed; a poisoned descriptor fails its checks, and a poisoned element its group. -/
theorem test_madder_updates : let s := on (windows (job [0])); let site := towerSite 0 0 0 5; let d := desc (madderWord 0) false false 0; let m := desc (madderWord 1) false true 0
    (match madderStart fine 0 0 d s with
     | .ok (d1, s1) => ran (groupElems fine site d1 (min 1024 (mdCount d1 - d1.done)) s1)
     | .error _ => false) = true ∧
    ran (groupElems fine site m 1 s) = true ∧ faulted (madderStart fine 0 0 { d with poison := true } s) = true ∧
    faulted (groupElems fine site m 1 (s.setSector 0 towerPoison)) = true := by decide +kernel

/-- A write of an update into a secured block: the block is Out, or Pending with no slot free. -/
theorem test_secured_write : let w : Nat × List Byte := (4096, [1, 2, 3, 4]); let d := { desc (madderWord 0) false true 1 with wq := [w] }
    let o : SecBlock := { addr := 0, st := .out, slot := none, marks := [], reads := [] }; let q := { o with st := .pending }
    let s (b : SecBlock) : State := ((on (windows (job [0]))).setMq 0 0 [d]).modTwr 0 fun x => { x with epochs := vset x.epochs 0 (some ⟨[b], false⟩) }
    vget ((s o).twr 0).mq 0 = [d] ∧ d.wq = [w] ∧ (s o).engineUp 0 0 = true ∧ (∀ a ∈ (s o).madderPlaces w.1, (s o).channelFree a w.2.length = true) ∧ ((s o).madderWrite fine w.1 w.2).isSome = true ∧
    (∀ a ∈ (s q).madderPlaces w.1, (s q).channelFree a w.2.length = true) ∧ ((s q).madderWrite fine w.1 w.2) = none ∧ d.checked = true ∧ mdCount d ≤ d.done := by decide +kernel
/-! ### Towers and stashes -/

def fetch0 (a : Nat) : Fetch := ⟨0, 3, 0, 0, a, 4, false, false, [], 0, [], none, false, 0, (0, 1), [⟨a, 4, none⟩]⟩
def write0 (a : Nat) (acc : Bool) : MemWrite := ⟨0, 0, 5, 3, a, [⟨1, false⟩, ⟨2, true⟩, ⟨3, false⟩, ⟨4, false⟩], acc, none, false, [(a, 4)]⟩
/-- The last bytes of tower 0, and the first of the east stash. -/
def lastByte : Nat := 2 ^ 33 - 4
def eastStash : Nat := 0x1010000000

theorem test_tower_accesses : let s := { on (windows (job [0])) with fetches := [fetch0 lastByte], writes := [write0 lastByte false] }; let sa := { s with writes := [write0 lastByte true] }; let e : SecBlock := ⟨2 ^ 33 - 65536, .pending, none, [], []⟩
    let u := sa.modTwr 0 fun x => { x with epochs := vset x.epochs 0 (some ⟨[e], false⟩) }
    s.fetches[0]? = some (fetch0 lastByte) ∧ (fetch0 lastByte).parts[0]? = some ⟨lastByte, 4, none⟩ ∧ behind ((fetch0 lastByte).ahead 0) lastByte = false ∧ s.fetchBehind 0 (fetch0 lastByte) lastByte = false ∧ s.stuckPart 0 lastByte true = none ∧
    place lastByte = .tower 0 lastByte ∧ s.maintenance = false ∧ s.towerServes 0 lastByte = true ∧ s.writes[0]? = some (write0 lastByte false) ∧
    sa.writes[0]? = some (write0 lastByte true) ∧ s.writeHeld 0 (write0 lastByte false) 0 (lastByte, 4) = false ∧ sa.writeHeld 0 (write0 lastByte true) 0 (lastByte, 4) = false ∧
    s.secured lastByte 4 = false ∧ u.secured lastByte 4 = true ∧ u.towerServes 0 lastByte = true ∧ u.writeHeld 0 (write0 lastByte true) 0 (lastByte, 4) = false := by decide

theorem test_retired_and_stash : let f : DescFlight := ⟨.madder 0, 0, 0, 5, 0, false⟩; let s := { on (windows (job [0])) with fetches := [fetch0 64, fetch0 eastStash], writes := [write0 64 false, write0 eastStash false], descs := [f] }
    let u := s.modTwr 0 fun x => { x with lost := true }
    u.towerUp 0 = false ∧ u.deadPart 64 = true ∧ u.fetches[0]? = some (fetch0 64) ∧ u.writes[0]? = some (write0 64 false) ∧ (write0 64 false).parts.filter (fun x => !u.deadPart x.1 || (u.stuckPart 0 x.1 false).isSome) = [] ∧ u.stuckPart 0 64 true = none ∧ u.stuckDesc f = none ∧
    u.descs.find? (fun d => decide (d.dst = .madder 0)) = some f ∧
    s.fetches[1]? = some (fetch0 eastStash) ∧ place eastStash = .stash true 0 ∧ behind ((fetch0 eastStash).ahead 0) eastStash = false ∧ s.fetchBehind 1 (fetch0 eastStash) eastStash = false ∧ s.stuckPart 0 eastStash true = none ∧
    s.writes[1]? = some (write0 eastStash false) ∧ s.writeHeld 1 (write0 eastStash false) 0 (eastStash, 4) = false := by decide

/-- A stash write leaves its neighbours and its poison marks one word. -/
theorem test_stash_write_bytes : let s := State.reset.stashWrite eastStash (write0 eastStash false).data
    s.byte eastStash = 1 ∧ s.byte (eastStash + 3) = 4 ∧ s.byte (eastStash + 4) = 0 ∧ s.stashPoison = [eastStash / 8] := by decide

theorem test_tower_write_bytes : let s := State.reset.towerWrite lastByte (write0 lastByte false).data
    s.byte lastByte = 1 ∧ s.byte (lastByte - 1) = 0 ∧ s.byte (lastByte + 4) = 0 ∧ s.sector lastByte = carriedPoison ∧ s.sector (lastByte - 64) = 0 := by decide

theorem test_tower_upkeep : let cp : BankCopy := ⟨31, 1, 32767⟩; let fin_ : BankCopy := ⟨31, 1, 32768⟩; let g (c : BankCopy) : State := (on (windows (job [0]))).modTwr 7 fun x => { x with copies := vset x.copies 15 (some c) }
    let s := { g cp with time := 512 + 15 }; let u := g fin_
    s.maintenance = true ∧ s.towerUp 7 = true ∧ s.halfUp (towerHalf 7) = true ∧ vget (s.twr 7).maint 15 = none ∧ vget (s.twr 7).copies 15 = some cp ∧ vget (s.twr 7).copies 14 = none ∧
    (u.twr 7).retire.find? (fun k => k / 32 = (15 : Fin 16).val) = none ∧
    vget (u.twr 7).copies 15 = some fin_ ∧ 32768 ≤ fin_.pieces ∧ u.regsWf = true ∧ u.reg 0x8031 8 < 2 ^ 64 ∧
    u.towerUp 7 = true ∧ (u.towerWindow 0 7).isSome = true ∧ (∀ q, q ≠ 0 → u.towerWindow q 7 = none) ∧ u.loaded 0 = true := by decide

def image0 (tier : Nat) : Image := ⟨tier, 3, 0, 0, [], 0, [], [], false, false, false, false, false, false⟩

theorem test_drains : let b : SecBlock := ⟨65536, .pending, none, [], []⟩; let d : SecBlock := ⟨65536, .pending, none, [], [(0, 65536)]⟩; let h : SecBlock := ⟨65536, .shadowed, some 2, [15], [(0, 65536)]⟩
    let r : SecBlock := ⟨65536, .returning, some 2, [3, 15], [(0, 65536)]⟩; let i := image0 1
    let g (b : SecBlock) : State := ((up (on (windows (job [0])))).setDom 0x6174 1 (List.replicate 128 0xFF)).modTwr 0 fun x => { x with epochs := vset x.epochs 0 (some ⟨[b], false⟩) }; let s := (g b).modSec 0 fun x => { x with epoch := some i }
    vget (s.twr 0).epochs 0 = some ⟨[b], false⟩ ∧ (s.sec 0).epoch = some i ∧ b.drained = false ∧ nextDrain ⟨[b], false⟩ = some 0 ∧ s.towerUp 0 = true ∧ s.tierTakes 0 i.tier = true ∧ s.drainRun 0 0 i.tier = true ∧ i.tier ≠ 0 ∧
    vget ((g d).twr 0).epochs 0 = some ⟨[d], false⟩ ∧ spansFull d.reads 65536 = true ∧ d.st = .pending ∧ spansFull h.reads 65536 = true ∧ h.st = .shadowed ∧
    s.maintenance = false ∧ s.halfUp (towerHalf 0) = true ∧ r.st = .returning ∧ r.slot = some 2 ∧ r.marks.contains 15 = true ∧ setDel r.marks 15 ≠ [] ∧ setDel [15] 15 = ([] : List Nat) ∧
    (∀ a ∈ [(g r).slotAddr 0 0 2 + 15 * 4096, r.addr + 15 * 4096], (g r).channelFree a 4096 = true ∧ (g r).engineWants a = false) := by decide

/-! ### The calendar, the mesh and the clock -/

theorem test_frame_and_window : let s := { job [0] with time := 4096, clk := { (job [0]).clk with windowMark := some 4096 } }; let u := { job [0] with time := 4096 }
    s.time.toNat % 512 = 0 ∧ s.clk.frameMark ≠ some s.time ∧ s.time.toNat % 4096 = 0 ∧ s.clk.windowMark = some s.time ∧ (∀ st : St, vget s.clk.stretch (fin st.val) < s.reg 0x7040 0) ∧
    (s.prt 0).jobState = 3 ∧ u.time.toNat % 4096 = 0 ∧ u.clk.windowMark ≠ some u.time := by decide

theorem test_transfer_start : let e := { entry (word [(0, 0x60), (96, 1)]) with started := false }; let s := put0 .eng e ((job [0]).modPart 0 fun x => { x with frame := 16, frameOn := true })
    (s.stn 0).queue .eng = e :: [] ∧ s.jobAt 0 = some 0 ∧ isCalendar e.word = true ∧ e.started = false ∧ (s.prt 0).held = false ∧ (s.prt 0).frameOn = true ∧
    s.gateFailed e = false ∧ leadOver (s.prt 0).frame e.beat = true ∧ s.calReady 0 0 .eng e = true ∧
    (let g := { entry (word [(0, 0x60), (96, 1), (111, 1), (112, 9)]) with started := false }; let u := (put0 .eng g (windows (job [0]))).setMor 9 ⟨0, true⟩
     (u.stn 0).queue .eng = g :: [] ∧ u.jobAt 0 = some 0 ∧ isCalendar g.word = true ∧ g.started = false ∧ u.gateFailed g = true) := by decide

theorem test_hold_limits : let s := (job [0]).modPart 0 fun x => { x with held := true, heldRun := 2 ^ 20 }; let u := (job [0]).modPart 0 fun x => { x with frame := 1048576 }
    let g := port 27 stUp (job [0]); let c (l : List Nat) : State := g.modPort 27 fun x => { x with gapCheck := some 9, seen := l }
    (s.prt 0).held = true ∧ 4096 + s.reg 0x6151 1 * 1000000 < (s.prt 0).heldRun * 4096 + s.time.toNat % 4096 ∧
    (u.prt 0).jobState = 3 ∧ (u.prt 0).spanAt.toNat + 1048576 ≤ (u.prt 0).frame.toNat ∧ g.portUp 27 = true ∧ (g.port 27).gap = false ∧
    ((c [9]).port 27).gapCheck = some 9 ∧ (c [9]).portOwner 27 = some 0 ∧ ((c [9]).port 27).seen.contains 9 = true ∧
    ((c []).port 27).seen.contains 9 = false ∧ ((c []).port 27).gap = false ∧ ((c [9]).port 27).gap = false ∧ (c []).loaded 0 = true := by decide

/-- A flit of partition 1 in its slot, one a slot late, one that meets another of its own partition in the last slot. -/
theorem test_mesh_flits : let f : MeshFlit := ⟨1, 0, 2, 1, .west, 1, 5, 1, false⟩; let l : MeshFlit := { f with atSlot := 6 }; let u : MeshUse := ⟨191, .south, .west, 965, 1⟩
    let o := on State.reset; let s := { o with clk := { o.clk with mesh := [u] } }; let h := { o with clk := { o.clk with fenced := [⟨col 15, col 14, [], false⟩] } }
    o.routerTakes 191 .south f = true ∧ f.routeDead = false ∧ o.inputFrom 191 .south (arrivalSlot f) ≤ flitSlot f ∧ (∀ u ∈ o.clk.mesh, ¬ (u.node = 191 ∧ u.out = f.out ∧ u.slot = flitSlot f)) ∧
    flitSlot l < o.inputFrom 191 .south (arrivalSlot l) ∧ o.routerTakes 191 .south l = true ∧ edgeCrossing 191 f.out = some (col 15, col 14) ∧ o.blocked (col 15, col 14) = false ∧
    h.routerTakes 191 .south f = true ∧ h.blocked (col 15, col 14) = true ∧ s.routerTakes 191 .south f = true ∧
    (s.clk.mesh.filter fun u => decide (arrivalSlot f ≤ u.slot + 960)).find? (fun u => u.node = 191 && u.out = f.out && u.slot = flitSlot f) = some u := by decide

theorem test_clock_settings : let s := oper State.reset; let v : W16 := 1200; let w : W16 := 1201; let c := { State.reset with clk := { State.reset.clk with pend := vset State.reset.clk.pend 3 (some (400, 0)) } }
    s.accepts via0 0x4100 4 (leBytes 2 w.toNat) = true ∧ 1200 < w.toNat ∧ s.accepts via0 0x4100 4 (leBytes 2 v.toNat) = true ∧ 400 ≤ v.toNat ∧ v.toNat ≤ 1200 ∧ v.toNat % 25 = 0 ∧
    vget c.clk.pend 3 = some (400, 0) ∧ (0 : W64) ≤ c.time := by decide

theorem test_islands : let s := (live (job [0])).setReg 0x4101 18 1200; let q := (live ((job [0]).modPart 0 fun x => { x with frameOn := true })); let u := { q with clk := { q.clk with stretch := vset q.clk.stretch 61 60 } }
    let x : Crossing := ⟨72, 17⟩; let r := { s with clk := { s.clk with recal := [(72, 17)] } }
    let z := live (job [0]); let h := { z with clk := { z.clk with items := [⟨72, 17, some 1, true⟩, ⟨72, 17, none, true⟩] } }
    s.islandRuns 17 = true ∧ inMeshGroup 0x1F = true ∧ s.islandRuns 0x1F = true ∧ vget s.clk.stretch 0x1F ≠ 60 ∧
    u.islandRuns (0x22 + 27) = true ∧ vget u.clk.stretch (fin (0x22 + 27)) = 60 ∧ (u.prt 0).jobState = 3 ∧ (u.prt 0).frameOn = true ∧ (∀ r, r ≠ 0 → (u.prt r).jobState ≠ 3) ∧
    allCrossings.contains (x.a.val, x.b.val) = true ∧ ringCrossing (x.a.val, x.b.val) = false ∧ some 1 ∈ h.crossingOwners (x.a.val, x.b.val) ∧ none ∈ h.crossingOwners (x.a.val, x.b.val) ∧ h.clk.fenced = [] ∧ h.islandRuns 17 = false ∧
    [(17 : Nat)].find? (fun j => decide (vget s.clk.stretch (fin j) = 60)) = none ∧ [0x22 + 27].find? (fun j => decide (vget u.clk.stretch (fin j) = 60)) = some 61 ∧ r.clk.recal = [(x.a.val, x.b.val)] ∧ r.clk.recal.contains (x.a.val, x.b.val) = true ∧ r.reg 0x4110 0 = 0 := by decide

theorem test_time_source : let s := oper State.reset; let l := oper (job [0]); let v : W64 := BitVec.ofNat 64 (2 ^ 64 - 1); let a := { s with clk := { s.clk with timeSet := some (v, s.time) } }; let z := { l with clk := { l.clk with timeSet := some (v, l.time) } }
    let ok := s.setReg 0x4402 0 0; let bad := ok.setReg 0x4403 0 1; let g := { bad with clk := { bad.clk with crossGood := 59999 } }; let two := s.setReg 0x4402 0 2
    s.accepts via0 0x4401 0 (leBytes 8 v.toNat) = true ∧ s.anyLoaded = false ∧ l.accepts via0 0x4401 0 (leBytes 8 v.toNat) = true ∧ l.anyLoaded = true ∧
    a.clk.timeSet = some (v, a.time) ∧ a.anyLoaded = false ∧ z.clk.timeSet = some (v, z.time) ∧ z.anyLoaded = true ∧ ok.clk.refOk = true ∧ ok.pwr.off = false ∧ ok.timeSource = 0 ∧ ok.reg 0x4403 0 = 0 ∧ bad.timeSource = 0 ∧ bad.reg 0x4403 0 = 1 ∧
    g.clk.crossGood = 59999 ∧ g.timeSource ≠ 3 ∧ two.timeSource = 2 := by decide

/-- A sync from a child, and a reply from the parent of the device at the bound of 256 ns. -/
theorem test_time_exchange : let s := port 27 stUp State.reset; let u := s.setReg 0x5400 0 0x1F1B; let a := port 27 stAlign State.reset
    let l (k : Nat) : List Byte := stampBytes 131072 ++ s.timePayload 27 k 0 0; let tb (k : Nat) : TimeBlock := ⟨k, 1, 0, 0xFFFF, 131072, 0, 0, 0⟩
    let g (k : Nat) (s : State) : State := s.modPort 27 fun x => { x with timeIn := [(l k, 0)] }
    let ok (k : Nat) (s : State) (f : State → Bool) : Bool := match (g k s).takeTime 27 k with
      | some (x, t) => decide (x = tb k) && f t
      | none => false
    let child (k : Nat) (t : State) : Bool := t.portUp 27 && decide (((t.seePartner 27 (tb k)).leaveLastResort).timeParent ≠ some 27)
    let follows (k : Nat) (t : State) : Bool := t.portUp 27 && decide (((t.seePartner 27 (tb k)).leaveLastResort).timeParent = some 27)
    ok 0 s (child 0) = true ∧ ok 1 s (child 1) = true ∧ ok 0 u (follows 0) = true ∧ ok 1 u (follows 1) = true ∧
    ok 0 a (fun t => t.portState 27 = stAlign) = true ∧ ok 1 a (fun t => t.portState 27 = stAlign) = true ∧ (offsetOf (tb 1)).natAbs = 65536 := by decide
/-! ### Ports -/

/-- A port of partition 0 that may train. -/
def trainable (q : PortId) (st : Nat) : State := (port q st (up (live State.reset))).setReg 0x5000 (q.val + 1) 1
def withPort (q : PortId) (f : Port → Port) (s : State) : State := s.modPort q f
def hello0 : HelloBody := ⟨1, 9, 3, 0, 0⟩
def opened (net slot : Nat) : Block := ⟨net, slot, 0, false, []⟩

/-- A training set of the lane given, with its CHK. -/
def set0 (rate lane tap req : Nat) : BitVec 256 := withChk (setMark * 2 ^ 192 + lane * 2 ^ 183 + rate * 2 ^ 181 + tap * 2 ^ 164 + req * 2 ^ 162)
def sets0 (rate : Nat) (f : Nat → Nat) : List (Fin 17 × BitVec 256) := (List.finRange 16).map fun i => (fin i.val, set0 rate (f i.val) 0 0)

theorem test_training_sets : let g (l : List (Fin 17 × BitVec 256)) := l.filterMap fun x => (goodSet x.2).map fun v => (x.1.val, v)
    let a := g (sets0 1 id); let b := g (sets0 1 fun i => 16 - i); let c := g (sets0 1 fun _ => 3); let d := g (sets0 2 id)
    16 ≤ a.length ∧ laneOrder a = some false ∧ 16 ≤ b.length ∧ laneOrder b = some true ∧ 16 ≤ c.length ∧ laneOrder c = none ∧ 16 ≤ d.length ∧ (∃ x ∈ d, bits x.2 182 181 = 2) ∧
    (∀ r ∈ [0, 1, 2, 3], (goodSet (set0 1 16 4 r)).map (fun v => (bits v 167 164, bits v 163 162)) = some (4, r)) ∧
    (goodSet (set0 1 16 5 1)).map (fun v => (bits v 167 164, bits v 163 162)) = some (5, 1) ∧ goodSet (set0 3 0 0 0) = none := by decide +kernel

theorem test_port_training : let q : PortId := 27; let w := withPort q (fun x => { x with wire := some 64 }) (trainable q stAlign)
    (trainable q stDown).mayTrain q = true ∧ (trainable q stDown).portState q = stDown ∧ (trainable q stEqualise).portState q = stEqualise ∧ ((trainable q stEqualise).port q).failed = false ∧
    (trainable q stEqualise).mayTrain q = true ∧ (trainable q stEqualise).fallback q = false ∧ (trainable q (stAlign + 64)).portState q = stAlign ∧
    (trainable q (stAlign + 64)).fallback q = true ∧ ((trainable q (stAlign + 64)).port q).failed = false ∧
    w.portState q = stAlign ∧ (w.port q).failed = false ∧ (w.port q).wire = some 64 ∧
    (withPort q (fun x => { x with failed := true, failures := 2 }) (trainable q stEqualise)).mayTrain q = true ∧
    ((withPort q (fun x => { x with failed := true, failures := 2 }) (trainable q stEqualise)).port q).failures < 3 ∧
    3 ≤ ((withPort q (fun x => { x with failed := true, failures := 3 }) (trainable q stEqualise)).port q).failures ∧
    ((withPort q (fun x => { x with failed := true, failures := 3 }) (trainable q stEqualise)).port q).failed = true := by decide

theorem test_port_authentication : let q : PortId := 27; let g (h : Option HelloBody) (c : Option Bool) (b v : Bool) : State := withPort q (fun x => { x with auth := ⟨[], false, h, c, b, v⟩ }) (trainable q stAuth)
    let s := (g (some hello0) none false false).setReg 0x2120 28 (2 ^ 63 + 2 ^ 55 + 9 * 2 ^ 32 + 9 * 2 ^ 16); let m (k : Nat) : LinkMsg := ⟨255, 3, [], 0, k, false⟩; let c (k : Nat) : State := withPort q (fun x => { x with msgs := [m k] }) (trainable q stAuth)
    let ids : MsgIds := ⟨1, 0⟩
    (g none none false false).portState q = stAuth ∧ (((g none none false false).heard q ids).port q).auth.hello = none ∧ ((g none none false false).heard q ids).portState q = stAuth ∧
    (s.port q).auth.hello = some hello0 ∧ ((s.heard q ids).port q).auth.chainOk = none ∧
    ((g (some hello0) (some true) false false).port q).auth.chainOk = some true ∧ (((g (some hello0) (some true) false false).heard q ids).port q).auth.sent = false ∧
    hello0.version = 1 ∧ hello0.device.toNat ≠ s.reg 0x1020 0 ∧ bits (s.reg 0x2120 (q.val + 1)) 31 16 ≤ hello0.device.toNat ∧ hello0.device.toNat ≤ bits (s.reg 0x2120 (q.val + 1)) 47 32 ∧
    ((g (some hello0) (some true) true true).port q).auth.sent = true ∧ ((g (some hello0) (some true) true true).port q).auth.got = true ∧
    ((g (some hello0) (some true) true true).port q).auth.refused = false ∧ ((g (some hello0) (some true) true true).port q).msgs = [] ∧
    ((c 63).port q).msgs.find? (fun m => !m.due) = some (m 63) ∧ ((c 64).port q).msgs.find? (fun m => !m.due) = some (m 64) ∧
    (m 64).msg = 3 ∧ ((c 1).port q).msgs = [m 1] ∧ ((0 : Byte).toNat + 256 - (m 1).mid) % 256 < 128 := by decide

theorem test_block_slots : let q : PortId := 27; let b := opened 0 0x3FF; let m : LinkMsg := ⟨3, 1, [], 0, 0, true⟩; let s := withPort q (fun x => { x with slot := 751 }) (trainable q stAuth)
    let u := withPort q (fun x => { x with msgs := [m] }) (trainable q (stUp + 64)); let v := withPort q (fun x => { x with buf := [b] }) (trainable q stUp)
    let a := trainable q stAlign; let c := withPort q (fun x => { x with timeQ := [[1]] }) a; let d := withPort q (fun x => { x with wire := some 1 }) a
    let k := withPort q (fun x => { x with ackDue := true }) (trainable q stUp); let t := withPort q (fun x => { x with timeQ := [[1]] }) (trainable q stUp)
    s.portState q = stAuth ∧ (s.port q).slot ≤ 751 ∧ s.fallback q = false ∧ (s.port q).msgs.find? (·.due) = none ∧ (s.port q).ackDue = false ∧
    a.portState q = stAlign ∧ (a.port q).slot ≤ 703 ∧ a.fallback q = false ∧ (a.port q).timeQ = [] ∧ (a.port q).wire = none ∧ (c.port q).timeQ = [[1]] ∧ (d.port q).wire = some 1 ∧
    u.portState q = stUp ∧ u.fallback q = true ∧ (u.port q).slot ≤ 750 ∧ 750 % 2 = 0 ∧ (u.port q).msgs.find? (·.due) = some m ∧
    k.portState q = stUp ∧ (k.port q).msgs.find? (·.due) = none ∧ (k.port q).ackDue = true ∧ t.portState q = stUp ∧ (t.port q).msgs.find? (·.due) = none ∧ (t.port q).timeQ = [[1]] ∧ (t.port q).ackDue = false ∧
    (t.port q).seqReady (slotTime t.frameNo 703) false = none ∧ (trainable q stUp).portState q = stUp ∧ ((trainable q stUp).port q).seqReady (slotTime t.frameNo 704) true = none ∧
    v.portState q = stUp ∧ (v.port q).slot ≤ 703 ∧ (v.port q).msgs.find? (·.due) = none ∧ (v.port q).ackDue = false ∧ (v.port q).seqReady (slotTime v.frameNo 703) false = some b := by decide

/-- An arriving block of zeros with its CRC-32C, which is of type 0 and carries the SEQ that is expected; and one with a wrong CRC. -/
theorem test_block_arrival : let good := BitVec.ofNat 2048 (leNat (List.replicate 252 0 ++ leBytes 4 (crc32c (List.replicate 252 0)))); let s := trainable 27 stUp
    s.portState 27 = stUp ∧ leNat ((arrivedBytes good).drop 252) = crc32c ((arrivedBytes good).take 252) ∧ bits (leNat ((arrivedBytes good).take 12)) 2 0 = 0 ∧
    bits (leNat ((arrivedBytes good).take 12)) 26 15 = (s.port 27).e ∧ leNat ((arrivedBytes 0).drop 252) ≠ crc32c ((arrivedBytes 0).take 252) := by decide +kernel

theorem test_loss_and_spares : let q : PortId := 27; let s := (trainable q stUp).setReg 0x8040 28 3; let n := s.setReg 0x8040 28 0; let g (f : Port → Port) : State := withPort q f s; let l : Fin 16 := 15
    let w (t : Nat) : State := g fun x => { x with oldest := 4095, snd := 0, tmo := t }
    s.portUp q = true ∧ s.rxSpare q = true ∧ s.txSpare q = true ∧ n.portUp q = true ∧ n.txSpare q = false ∧ n.rxSpare q = false ∧ (s.port q).los = [] ∧ (s.port q).los.contains l.val = false ∧ (s.port q).rxSwap = none ∧
    (w 6).portUp q = true ∧ (w 7).portUp q = true ∧ ((w 7).port q).oldest ≠ ((w 7).port q).snd ∧ ((trainable q stAuth).heard q ⟨1, 0⟩).portUp q = false ∧ ((w 6).port q).oldest ≠ ((w 6).port q).snd ∧ ((w 6).port q).tmo < 7 ∧ ((w 7).port q).tmo = 7 ∧
    (g fun x => { x with los := [3, 15] }).portUp q = true ∧ 1 < ((g fun x => { x with los := [3, 15] }).port q).los.length ∧ ((g fun x => { x with los := [3], rxSwap := none }).port q).los ≠ [] ∧ (s.heard q ⟨1, 0⟩).portUp q = true ∧
    ((g fun x => { x with txSwap := some l.val }).port q).txSwap = some l.val := by decide

/-- A lane that the port takes a spare for: by loss of signal, which ends with a good codeword, and by degradation, which ends with the 64th; and what else may happen with the spare in use. -/
theorem test_lane_swaps : let q : PortId := 27; let s := (trainable q stUp).setReg 0x8040 28 3; let l : LaneLoss := ⟨15, false⟩; let k : LaneLoss := ⟨15, true⟩
    let w (d : Bool) (n : Nat) : RxSwap := ⟨15, d, n⟩; let g (x : RxSwap) : State := withPort q (fun y => { y with rxSwap := some x }) s
    let full : LaneWindow := { corrected := 1, dead := 1, symbols := s.reg 0x5006 0 + 1, full := true }; let cut : LaneWindow := { full with full := false }
    s.portUp q = true ∧ (s.port q).los.contains l.lane.val = false ∧ l.lock = false ∧ k.lock = true ∧ (s.port q).rxSwap = none ∧ s.rxSpare q = true ∧ (s.setReg 0x8040 28 0).rxSpare q = false ∧
    ((g (w true 3)).port q).rxSwap = some (w true 3) ∧ (w true 3).lane = l.lane.val ∧ (g (w true 3)).portUp q = true ∧ (w true 62).good < 63 ∧ 63 ≤ (w true 63).good ∧ (w false 0).degraded = false ∧
    full.full = true ∧ s.reg 0x5006 0 < full.symbols ∧ cut.full = false := by decide

/-- A SWAP that is new, one that repeats what has been heard, and one with a swap of another lane under way. -/
theorem test_swap_heard : let q : PortId := 27; let s := withPort q (fun x => { x with amid := 0 }) ((trainable q stUp).setReg 0x8040 28 3); let n : MsgIds := ⟨1, 0⟩; let o : MsgIds := ⟨0, 0⟩
    let z := withPort q (fun x => { x with txSwap := some 3 }) s
    128 ≤ ((s.port q).amid + 256 - n.mid.toNat) % 256 ∧ ((s.heard q n).port q).txSwap ≠ some 15 ∧ ((s.port q).amid + 256 - o.mid.toNat) % 256 < 128 ∧
    (s.heard q n).portUp q = true ∧ (s.heard q n).txSpare q = true ∧ ((s.heard q n).port q).txSwap = none ∧ ((z.heard q n).port q).txSwap = some 3 ∧ (z.heard q n).portUp q = true := by decide

/-! ### Fabric traffic -/

/-- A loaded partition 0 whose port 27 has delivered one scheduled block; route 0 has the entry given and tree 0 the tree entry given. -/
def arrived (entry tree : Nat) (b : Block) : State :=
  withPort 27 (fun x => { x with inSched := [b] }) (((port 27 stUp (on (windows (job [0])))).setDom 0x5100 1 (leBytes 16 entry)).setDom 0x5101 1 (leBytes 16 tree))
/-- The state without the block. -/
def taken (s : State) : State := withPort 27 (fun x => { x with inSched := [] }) s
def finalEntry : Nat := 2 ^ 127 + 2 ^ 126 + 27 * 2 ^ 116
def reduceEntry : Nat := finalEntry + 2 ^ 45
def transitEntry : Nat := 2 ^ 127 + 2 ^ 125 + 27 * 2 ^ 116 + 26 * 2 ^ 111
def blk (tt low : Nat) (data : List Byte) : Block := ⟨tt * 2 ^ 44 + low, 0, 0, false, data⟩
def readBody (dev bytes st : Nat) : List Byte := leBytes 24 (bytes * 2 ^ 64 + st * 2 ^ 96 + 2 ^ 112 + dev * 2 ^ 160)

theorem deliver (s s' : State) (q : PortId) (tt : Nat) (p : Part) (b : Block) (e : Nat) (h1 : s.takeSched q tt = some (b, s')) (h2 : s.portOwner q = some p ∧ s.loaded p = true ∧
    s.arrivalEntry p q b (decide (tt = 5)) = some e ∧ bits e 126 125 ≠ 1 ∧ (mu b.slot + bits e 76 69) % 1024 ≤ 959 ∧ s'.blockWaits q b = false ∧ (tt = 5 → s'.reduceWaits p (bits e 44 37) b = false)) : Delivered s s' q tt p b e :=
  ⟨h1, h2.1, h2.2.1, h2.2.2.1, h2.2.2.2.1, h2.2.2.2.2.1, h2.2.2.2.2.2.1, h2.2.2.2.2.2.2⟩

def write0s : Block := blk 0 (0x10000 * 4 / 16) (List.replicate 240 1)
def shortBad : Block := blk 0 1 (List.replicate 240 1)
def outside : Block := blk 0 (2 ^ 30) (List.replicate 240 1)
def request0 : Block := blk 1 0 (readBody 0 256 17)
def plain (tt : Nat) : Block := blk tt 0 (List.replicate 240 1)

theorem test_scheduled_writes :
    Delivered (arrived finalEntry 0 write0s) (taken (arrived finalEntry 0 write0s)) 27 0 0 write0s finalEntry ∧
    Delivered (arrived finalEntry 0 outside) (taken (arrived finalEntry 0 outside)) 27 0 0 outside finalEntry ∧
    (blockLen (bit write0s.net 0) write0s.data = some 240 ∧ (taken (arrived finalEntry 0 write0s)).inWin 0 (bits write0s.net 33 2 * 16) 240 = true ∧
    ((taken (arrived finalEntry 0 write0s)).devWrite fine (bits write0s.net 33 2 * 16) (marked write0s (write0s.data.take 240))).isSome = true ∧
    blockLen (bit outside.net 0) outside.data = some 240 ∧ (taken (arrived finalEntry 0 outside)).inWin 0 (bits outside.net 33 2 * 16) 240 = false ∧
    (arrived 0 0 write0s).portOwner 27 = some 0 ∧ (arrived 0 0 write0s).loaded 0 = true ∧ (arrived 0 0 write0s).arrivalEntry 0 27 write0s false = none ∧
    (withPort 27 (fun x => { x with inSched := [write0s] }) (port 27 stUp State.reset)).loaded 0 = false ∧ (port 27 stUp State.reset).portOwner 27 = some 0) ∧
    (arrived 0 0 write0s).takeSched 27 0 = some (write0s, taken (arrived 0 0 write0s)) :=
  ⟨deliver _ _ _ _ _ _ _ rfl (by decide), deliver _ _ _ _ _ _ _ rfl (by decide), by decide, rfl⟩

theorem test_scheduled_reads_and_operations :
    Delivered (arrived finalEntry 0 request0) (taken (arrived finalEntry 0 request0)) 27 1 0 request0 finalEntry ∧
    Delivered (arrived finalEntry 0 (plain 2)) (taken (arrived finalEntry 0 (plain 2))) 27 2 0 (plain 2) finalEntry ∧
    Delivered (arrived finalEntry 0 (plain 3)) (taken (arrived finalEntry 0 (plain 3))) 27 3 0 (plain 3) finalEntry ∧
    Delivered (arrived finalEntry 0 (plain 4)) (taken (arrived finalEntry 0 (plain 4))) 27 4 0 (plain 4) finalEntry ∧
    Delivered (arrived reduceEntry 0 (plain 5)) (taken (arrived reduceEntry 0 (plain 5))) 27 5 0 (plain 5) reduceEntry ∧
    let s := taken (arrived finalEntry 0 request0); let r := readReqOf request0.data
    r.rdev = s.reg 0x1020 0 ∧ r.bytes = 256 ∧ r.st = 17 ∧ s.inWin 0 r.src (r.bytes + if r.hdr then 4096 else 0) = true ∧
    s.morRange 0 = some (8, 15) ∧ bits (plain 3).net 33 18 ≤ 15 - 8 ∧ (grpEng (s.groupEntry 0 (bits reduceEntry 44 37))).val ≠ (27 : PortId).val / 7 :=
  ⟨deliver _ _ _ _ _ _ _ rfl (by decide), deliver _ _ _ _ _ _ _ rfl (by decide), deliver _ _ _ _ _ _ _ rfl (by decide), deliver _ _ _ _ _ _ _ rfl (by decide),
   deliver _ _ _ _ _ _ _ rfl (by decide), by decide⟩

def tree0 : Nat := 2 ^ 127 + 2 ^ 125 + 27 * 2 ^ 120 % 2 ^ 125 + 5 * 2 ^ 28
def mcast : Block := blk 6 0 (List.replicate 240 1)
def fence7 : Block := blk 7 0 []
def branched (b : Block) : State := { arrived 0 tree0 b with fab := { (arrived 0 tree0 b).fab with branches := [⟨0, 0, none, [], false⟩] } }

theorem test_blocks_in_transit : let q : PortId := 27; let s := arrived transitEntry 0 (plain 0)
    ((s.port q).inSched = [plain 0] ∧ s.portOwner q = some 0 ∧ s.loaded 0 = true ∧ s.arrivalEntry 0 q (plain 0) false = some transitEntry ∧ bits transitEntry 126 125 = 1 ∧
    (transitSlot 0 0 (bits transitEntry 86 77) (bits transitEntry 76 69)).isSome = true ∧ bits transitEntry 115 111 = 26) ∧
    ((arrived 0 tree0 mcast).branch 0 0 none = none ∧ (arrived 0 tree0 mcast).treeEntry 0 0 = tree0 ∧ bit tree0 127 = true ∧ bit tree0 126 = false ∧ bits tree0 124 120 = q.val ∧
    (treeSlot tree0 0 0).isSome = true ∧ (branched mcast).portOwner q = some 0 ∧ (branched mcast).loaded 0 = true ∧ ((branched mcast).branch 0 0 none).isSome = true ∧
    (arrived 0 tree0 fence7).portOwner q = some 0 ∧ (arrived 0 tree0 fence7).loaded 0 = true ∧ (arrived 0 tree0 fence7).morRange 0 = some (8, 15) ∧ bit tree0 125 = true ∧ bits tree0 43 28 = 5 ∧
    (taken (arrived 0 tree0 mcast)).blockWaits q mcast = false ∧ bits mcast.net 43 33 = 0 ∧ bits fence7.net 43 33 = 0) ∧
    (arrived 0 tree0 mcast).takeSched q 6 = some (mcast, taken (arrived 0 tree0 mcast)) ∧ (branched mcast).takeSched q 6 = some (mcast, taken (branched mcast)) ∧
    (arrived 0 tree0 fence7).takeSched q 7 = some (fence7, taken (arrived 0 tree0 fence7)) ∧ (arrived 0 0 (plain 13)).takeSched q 0xD = some (plain 13, taken (arrived 0 0 (plain 13))) :=
  ⟨by decide, by decide, rfl, rfl, rfl, rfl⟩

theorem test_port_buffer : let b := plain 0; let s (n : Nat) := withPort 27 (fun x => { x with outSched := [b], buf := List.replicate n b }) (port 27 stUp State.reset)
    (s 0).portUp 27 = true ∧ (s 0).restricted 27 = false ∧ ((s 0).port 27).outSched = [b] ∧ ((s 0).port 27).buf.length < 4095 ∧ (s 4095).portUp 27 = true ∧ ((s 4095).port 27).outSched = [b] ∧
    4095 ≤ ((s 4095).port 27).buf.length :=
  ⟨by decide, by decide, rfl, Nat.zero_lt_succ _, by decide, rfl, (List.length_replicate ..).symm ▸ Nat.le_refl _⟩

def xfer0 : Xfer := ⟨.write, 0, 0, 0, 3, 0, 0, 0, 0, [], 0, 0, 0, 0, false, 0, 0, 0, 0, 0, 0, 0, none⟩

/-- A branch with a kept block, a transfer on its way out, a restricted port with an open transfer, and an open transfer whose port is down. -/
theorem test_port_sources : let u := port 27 stUp (on (windows (job [0]))); let c : BranchBuf := ⟨0, 0, some 27, [plain 6], false⟩; let k := { u with fab := { u.fab with branches := [c] } }
    let y : Xfer := { xfer0 with kind := .write, data := [⟨1, false⟩], bytes := 1, route := 0 }; let o : Xfer := { y with route := openRoute, dest := 1 }
    let e := (u.setDom 0x5100 1 (leBytes 16 (2 ^ 127 + 27 * 2 ^ 111))).setDom 0x5200 0 [0, 0x80 + 27]; let g (y : Xfer) : State := { e with xfers := [y] }
    k.portUp 27 = true ∧ k.restricted 27 = false ∧ (k.port 27).outSched = [] ∧ k.behindOn 27 < 704 ∧ k.keptFor 27 = some c ∧ (k.port 27).buf.length < 4095 ∧
    (g y).keptFor 27 = none ∧ (g y).xfers.findIdx? (fun y => (g y).leavesBy 27 y && (!(g y).restricted 27 || (y.route = openRoute && y.kind ≠ .multicast))) = some 0 ∧
    ((port 27 (stUp + 128) (g o)).restricted 27 = true) ∧ (port 27 (stUp + 128) (g o)).portUp 27 = true ∧
    (port 27 (stUp + 128) (g o)).xfers.findIdx? (fun y => (port 27 (stUp + 128) (g o)).leavesBy 27 y && (!(port 27 (stUp + 128) (g o)).restricted 27 || (y.route = openRoute && y.kind ≠ .multicast))) = some 0 ∧
    (port 27 stDown (g o)).portUp 27 = false ∧ (port 27 stDown (g o)).xfers.findIdx? (port 27 stDown (g o)).noWayOut = some 0 := by decide

/-- A reduction within the device. -/
theorem test_own_reduction : let e : Nat := 2 ^ 127 + 3 * 2 ^ 125 + 2 ^ 45; let x : Xfer := { xfer0 with kind := .reduce, data := [⟨1, false⟩], bytes := 1 }
    let s := { (on (windows (job [0]))).setDom 0x5100 1 (leBytes 16 e) with xfers := [x] }
    s.xfers[0]? = some x ∧ x.kind = .reduce ∧ s.routeEntry x.part x.route = e ∧ bits e 126 125 = 3 ∧ bits e 48 45 = 1 ∧ s.halfUp (engHalf (grpEng (s.groupEntry x.part (bits e 44 37)))) = true ∧ s.stuckXfer x = none ∧
    s.reduceWaits x.part (bits e 44 37) (xferBlock s x x.blk) = false := by decide

/-- An open block of partition 0 on channel 0 that a port has delivered. -/
def openArrived (s : State) (b : Block) : State := withPort 27 (fun x => { x with inOpen := #v[[b], [], [], []] }) s
def openTaken (s : State) : State := withPort 27 (fun x => { x with inOpen := #v[[], [], [], []], owed := #v[1, 0, 0, 0] }) s
def ob (tt dev : Nat) : Block := ⟨tt * 2 ^ 44 + dev * 2 ^ 28, 0, 0, false, List.replicate 240 1⟩
def opens : State := (port 26 stUp (port 27 stUp (on (windows (job [0]))))).setDom 0x5200 0 [0, 0x80 + 26, 0]

theorem test_open_traffic : let q : PortId := 27; let i := port 27 stUp State.reset
    ((opens.loaded 0 = true ∧ i.loaded 0 = false ∧ opens.reg 0x1020 0 = 0 ∧ bits (ob 8 0).net 27 26 = 0 ∧ blockLen (bit (ob 8 0).net 0) (ob 8 0).data = some 240 ∧ bit (opens.reg 0x5201 1) 63 = false ∧
    domNat (opens.dom 0x5200 0) (blkDev (ob 8 1)) 1 = 0x80 + 26 ∧ bit (0x80 + 26) 7 = true ∧ bits (0x80 + 26) 4 0 = 26 ∧ bit (0x80 + 26) 6 = false ∧ opens.portUp 26 = true ∧
    bit (domNat (opens.dom 0x5200 0) (blkDev (ob 8 2)) 1) 7 = false ∧ blkDev (ob 8 2) = 2) ∧ (∀ tt ∈ [8, 9, 0xA, 0xB, 0xC], opens.blockWaits q (ob tt 0) = false) ∧
    bits (ob 8 0).net 47 44 = 8 ∧ blkDev (ob 8 0) = 0) ∧
    (∀ tt ∈ [8, 9, 0xA, 0xB, 0xC], ((openArrived opens (ob tt 0)).takeOpen q (fun b => bits b.net 47 44 = tt && blkDev b = opens.reg 0x1020 0)).map Prod.fst = some (ob tt 0)) ∧
    ((openArrived i (ob 8 0)).takeOpen q (fun b => bits b.net 47 44 = 8 && blkDev b = i.reg 0x1020 0)).map Prod.fst = some (ob 8 0) ∧
    ∀ d ∈ [1, 2], ((openArrived opens (ob 8 d)).takeOpen q (fun b => blkDev b ≠ opens.reg 0x1020 0)).map Prod.fst = some (ob 8 d) := by decide

/-! ### Port commands and the management tunnel -/

theorem test_port_commands : let q : PortId := 27; let s := oper (port q stUp State.reset); let d := oper (port q stDown State.reset); let h := oper (port q stHeld State.reset)
    s.accepts via0 0x5005 (q.val + 1) [1] = true ∧ s.portUp q = true ∧ d.accepts via0 0x5005 (q.val + 1) [1] = true ∧ d.portUp q = false ∧
    s.accepts via0 0x5005 (q.val + 1) [2] = true ∧ s.portState q ≠ stHeld ∧ s.portState q ≠ stRetired ∧ h.accepts via0 0x5005 (q.val + 1) [3] = true ∧ h.portState q = stHeld ∧
    s.accepts via0 0x5000 (q.val + 1) [0] = true ∧ s.accepts via0 0x5000 (q.val + 1) [1] = true ∧ s.accepts via0 0x5000 (q.val + 1) [2] = true ∧ 1 < (2 : Byte).toNat ∧ h.accepts via0 0x5000 (q.val + 1) [255] = true := by decide

def tunnelBlock : Block := { ob 0xE 0 with data := leBytes 12 (1 + 5 * 2 ^ 16 + 7 * 2 ^ 48 + 2 * 2 ^ 72 + 228 * 2 ^ 80) ++ List.replicate 228 0 }
def boxed (b : TunnelBody) (n : Nat) : State := ({ up State.reset with time := 200000000 }).modStw fun x => { x with outbox := [⟨9, 7, b, n, 0⟩], inbox := [⟨5, 7, 2, [], 0⟩] }

theorem test_tunnel : let s := openArrived (up (port 27 stUp State.reset)) tunnelBlock; let r := (boxed (.reserve 1) 16).setReg 0x6176 2 (9 * 2 ^ 32)
    s.stewardUp = true ∧ (s.takeOpen 27 (fun b => bits b.net 47 44 = 0xE && blkDev b = s.reg 0x1020 0)).map Prod.fst = some tunnelBlock ∧ tunnelBlock.poison = false ∧ (fragOf tunnelBlock.data).ok = true ∧
    (∃ r ∈ (boxed .removal 1).stw.inbox, r.src = 5 ∧ r.id = 7 ∧ (boxed .removal 1).passed r.since 100000000 = true) ∧ (boxed .removal 15).stw.outbox[0]? = some ⟨9, 7, .removal, 15, 0⟩ ∧ (boxed .removal 15).stewardUp = true ∧ 15 < 16 ∧
    r.stw.outbox[0]? = some ⟨9, 7, .reserve 1, 16, 0⟩ ∧ r.passed 0 200000000 = true ∧ r.stewardUp = true ∧ bits (r.reg 0x6176 ((1 : Part).val + 1)) 47 32 = (9 : W16).toNat := by decide

/-! ### Securing -/

/-- Partition 0 has one secured block, block 0 of tower 0. -/
def secured1 : State := ((up (windows (job [0]))).setDom 0x6173 1 (leBytes 8 (2 ^ 63 + 2 ^ 32))).modPart 0 fun x => { x with towers := [0] }
/-- An image of a tier with the CRCs given. -/
def imageOf (tier : Nat) (l : List (Nat × W32)) : Image := { image0 tier with crcs := l }
def restoring1 (i : Image) (l : List Nat) : State := secured1.modSec 0 fun x => { x with restore := some ⟨i, l, [], [], [], true, true⟩ }
def epoch1 (tier : Nat) (c : Bool) : State := (secured1.setReg 0x617C 0 0).modSec 0 fun x => { x with epoch := some (image0 tier), commit := c }

theorem test_epochs : let s := (secured1.setReg 0x6171 1 1).setMor 9 ⟨5, false⟩; let q := epoch1 1 false
    s.morRange 0 = some (8, 15) ∧ (s.prt 0).jobState = 3 ∧ s.reg 0x6171 1 = 1 ∧ (s.mor (8 + 1)).count = 5 ∧ (s.sec 0).high < 5 ∧
    (secured1.setReg 0x6170 1 32).interval 0 = 2 ∧ 1 % 2 ≠ 0 ∧ s.epochOpen 0 = false ∧ s.tiersUp 0 = [] ∧ 2 % s.interval 0 = 0 ∧
    (let w := s.setReg 0x6175 1 (2 ^ 13); w.epochOpen 0 = false ∧ w.tiersUp 0 ≠ [] ∧ w.stepBeyond 0 2 = none) ∧
    ((epoch1 0 true).sec 0).epoch = some (image0 0) ∧ (image0 0).tier = 0 ∧ ((epoch1 0 true).sec 0).commit = true ∧ (epoch1 0 true).stewardUp = true ∧ ((epoch1 0 true).sec 0).late = [] ∧
    q.nandWork 0 = some (none, q.unitsReady 0, 0) ∧ q.nandNext = some 0 ∧ q.stewardUp = true ∧ q.sepiaUp = true ∧ q.stepHeld 0 = false ∧ (q.sec 0).nandPos + 1 < q.unitsAll 0 ∧
    (q.setReg 0x6178 1 1).reg 0x6178 1 ≠ 0 ∧ (q.setReg 0x6178 1 1).sepiaUp = true ∧ State.passed { epoch1 0 true with time := 100000000 } 0 100000000 = true ∧
    s.reg 0x6171 1 ≠ 0xFFFF ∧ s.reg 0x6171 1 ≤ 15 - 8 := by decide

/-- Images whose epochs have closed and that are still to be completed, one for each tier. -/
theorem test_late_images : let l (t : Nat) : LateImage := ⟨image0 t, true, 0, 3⟩; let g (t : Nat) : State := { secured1.setReg 0x617C 0 0 with time := 100000000 }.modSec 0 fun x => { x with late := [l t] }; let o := oper (g 2)
    ((g 0).sec 0).late.findIdx? (fun l => decide (l.img.tier = 0) && l.commit) = some 0 ∧ (g 0).stewardUp = true ∧ (g 1).sepiaUp = true ∧ (g 1).stewardUp = true ∧
    ((g 0).sec 0).late.findIdx? (fun l => decide (l.img.tier = 0) && l.commit && (g 0).passed l.commitAt 100000000) = some 0 ∧
    (g 1).nandWork 0 = some (some 0, (g 1).unitsAll 0, 3) ∧ (g 1).nandNext = some 0 ∧
    o.accepts via0 0x617F 1 (leBytes 8 (3 : W64).toNat) = true ∧ (o.sec 0).late.findIdx? (fun l => decide (l.img.tier = 2) && decide (l.img.step = 3)) = some 0 := by decide

/-- A block of an image of Cask Sepia that NAND has read, and one it could not correct; the block is secured by a newer epoch. -/
theorem test_read_blocks : let r (ok : Bool) : Restore := ⟨image0 1, [], [(0, ok)], [], [], true, true⟩; let s := secured1.modSec 0 fun x => { x with restore := some (r true) }
    let b : SecBlock := ⟨0, .pending, none, [], []⟩; let h := (on s).modTwr 0 fun x => { x with epochs := vset x.epochs 0 (some ⟨[b], false⟩) }
    (r true).img.tier = 1 ∧ (r true).landed.contains 0 = false ∧ s.securedBlocks 0 = [(0, 0)] ∧ (r true).read.find? (fun e => e.1 = 0) = some (0, true) ∧ (r false).read.find? (fun e => e.1 = 0) = some (0, false) ∧
    h.securedBlocks 0 = [(0, 0)] ∧ (on s).forbids 0 65536 = false ∧ h.forbids 0 65536 = true := by decide

theorem test_tiers : let s := oper (epoch1 2 false); let n := oper secured1; let r := restoring1 (image0 1) []; let v : W64 := 9 * 2 ^ 32; let i := oper State.reset
    ((r.sec 0).restore.map (·.img.tier)) = some 1 ∧ r.stewardUp = true ∧ ((r.sec 0).restore.map (·.read)) = some [] ∧ 0 < (r.securedBlocks 0).length ∧
    s.accepts via0 0x617F 1 (leBytes 8 (3 : W64).toNat) = true ∧ (s.sec 0).epoch = some (image0 2) ∧ (image0 2).step = 3 ∧ s.undrained 0 = 0 ∧ (s.sec 0).late = [] ∧ (n.sec 0).late = [] ∧
    n.accepts via0 0x617F 1 (leBytes 8 (3 : W64).toNat) = true ∧ (n.sec 0).epoch = none ∧
    i.accepts via0 0x6176 1 (leBytes 8 v.toNat) = true ∧ bits v.toNat 63 58 = 0 ∧ bits v.toNat 31 0 = 0 ∧ bits v.toNat 47 32 ≠ i.reg 0x1020 0 ∧ i.loaded 0 = false ∧
    (let h := (port 27 stUp secured1).setReg 0x6177 1 (2 ^ 63 + 9 * 2 ^ 32)
     h.portUp 27 = true ∧ h.portOwner 27 = some 0 ∧ h.loaded 0 = true ∧ bit (h.reg 0x6177 1) 63 = true ∧ bit (h.reg 0x6177 1) 62 = false ∧ h.stewardUp = true) := by decide

theorem crc_byte_small (n c : Nat) (h : c < 2 ^ 32) : (List.range n).foldl (fun c _ => if c % 2 = 1 then c / 2 ^^^ 0x82F63B78 else c / 2) c < 2 ^ 32 := by
  induction n with
  | zero => simpa using h
  | succ n ih =>
    rw [List.range_succ, List.foldl_append]
    simp only [List.foldl_cons, List.foldl_nil]
    split
    · exact Nat.xor_lt_two_pow (by omega) (by decide)
    · omega

theorem crc_small (l : List Byte) : crc32c l < 2 ^ 32 := by
  have h : ∀ (l : List Byte) (c : Nat), c < 2 ^ 32 → l.foldl crc32cByte c < 2 ^ 32 := by
    intro l
    induction l with
    | nil => exact fun c h => h
    | cons b l ih => exact fun c h => ih _ (crc_byte_small 8 _ (Nat.xor_lt_two_pow h (Nat.lt_trans b.isLt (by decide))))
  exact Nat.xor_lt_two_pow (h l _ (by decide)) (by decide)

/-- A 64 KiB block of zeros lands with its own CRC-32C, and with another. -/
theorem test_restore_blocks : let d : List Byte := List.replicate 65536 0; let i := imageOf 0 [(0, BitVec.ofNat 32 (crc32c d))]; let s := restoring1 i []
    ((i.crcs.find? fun e => e.1 = 0).map fun e => e.2.toNat) = some (crc32c d) ∧ (((imageOf 0 []).crcs.find? fun e => e.1 = 0).map fun e => e.2.toNat) ≠ some (crc32c d) ∧
    d.length = 65536 ∧ (s.sec 0).restore = some ⟨i, [], [], [], [], true, true⟩ ∧
    s.securedBlocks 0 = [(0, 0)] ∧ s.towerUp 0 = true ∧ ((restoring1 (image0 0) [0]).securedBlocks 0).length ≤ [0].length := by
  have h : ∀ n, n < 2 ^ 32 → (((imageOf 0 [(0, BitVec.ofNat 32 n)]).crcs.find? fun e => e.1 = 0).map fun e => e.2.toNat) = some n :=
    fun n hn => congrArg some (Nat.mod_eq_of_lt hn)
  intro d i s
  exact ⟨h _ (crc_small d), (Option.some_ne_none _).symm, List.length_replicate .., rfl, (show _ = secured1.securedBlocks 0 from rfl).trans (by decide),
    (show _ = secured1.towerUp 0 from rfl).trans (by decide), by decide⟩

theorem test_jobs : let r : W128 := 0x100000000; let s := oper ((live (windows State.reset)).setReg 0x4031 0 1 |>.setReg 0x4030 0 4); let w (p : Part) (s : State) : Bool := s.acceptsReq via0 (wholeReq 0x6001 (p.val + 1) (leBytes 16 r.toNat)) (leBytes 16 r.toNat)
    let l := oper (job [0]); let e := l.modPart 0 fun x => { x with jobState := 5 }; let a : BitVec 256 := 1
    w 0 s = true ∧ s.loadStatus 0 r.toNat = 0 ∧ w 0 l = true ∧ bits r.toNat 31 0 = 0 ∧ l.loaded 0 = true ∧ l.accepts via0 0x6002 1 [1] = true ∧ jobLive (l.prt 0) = true ∧
    s.accepts via0 0x6002 1 [1] = true ∧ jobLive (s.prt 0) = false ∧ e.accepts via0 0x6003 1 [1] = true ∧ e.loaded 0 = true ∧ jobLive (e.prt 0) = false ∧
    s.acceptsReq via0 (wholeReq 0x6179 1 (leBytes 32 a.toNat)) (leBytes 32 a.toNat) = true ∧ s.armStatus 0 a.toNat = 0 ∧ s.stewardUp = true ∧ (∀ st : St, s.observed st = false) ∧
    State.passed { s with time := 3600000000000 } s.stw.hourAt hourNs = true ∧ jobLive (State.prt (State.beatEnd l) 0) = true := by decide

theorem test_log_acknowledge : let s := (oper State.reset).raise none 0xE 0x0E01 (siteSteward noLoc2)
    s.accepts via0 0x7002 0 (leBytes 2 (0 : W16).toNat) = true ∧ s.faults.findIdx? (fun r => r.seq = 0) = some 0 := by decide

/-! ### Steward, firmware and SPDM -/

/-- The management cores run; the boot code (slots 0 and 1) and runtime (2 and 3) slots are in the states given. -/
def slots (l : Vector Byte 4) : State := (oper State.reset).modStw fun x => { x with slot := l }
def booted (s : State) : State := s.modPwr fun x => { x with stwHeld := false }

theorem test_steward_restarts : let s := booted ((oper State.reset).setReg 0x1030 0 1); let g (b : Byte) : State := s.modStw fun x => { x with slot := #v[3, 1, 3, b] }
    (oper State.reset).accepts via0 0x1031 0 [1] = true ∧ s.stewardOn = true ∧ s.regsWf = true ∧ (g 0).reg 0x1030 0 = 1 ∧ State.passed { g 0 with time := 2000000000 } (g 0).stw.runAt 2000000000 = true ∧ s.stewardOn = true ∧  (g 0).stewardOn = true ∧ (g 0).slotState ((g 0).inactiveSlot .runtime) = 0 ∧
    (g 1).slotState ((g 1).inactiveSlot .runtime) = 1 ∧ (g 1).stewardOn = true ∧ (g 1).reg 0x1030 0 = 1 ∧
    (g 1).acceptable .runtime 3 false = false := by decide

theorem test_firmware : let s := slots #v[3, 0, 3, 1]; let v := slots #v[3, 0, 3, 2]; let n := slots #v[3, 0, 3, 0]; let d : List Byte := [1]; let r : DictReq := { writeReq 0x1F01 (kindCode .runtime) d with commit := true, off := BitVec.ofNat 32 (3145728 - 1) }
    let p := slots #v[3, 0, 1, 3]; let b := v.modSec 1 fun x => { x with restore := some ⟨image0 0, [], [], [], [], true, true⟩ }
    s.acceptsReq via0 r d = true ∧ 3145728 - 1 + d.length ≤ slotSize .runtime ∧ s.accepts via0 0x1F02 0 [1] = true ∧ s.slotState (s.inactiveSlot .bootcode) = 0 ∧ s.slotState (s.inactiveSlot .runtime) = 1 ∧
    n.accepts via0 0x1F02 0 [1] = true ∧ n.slotState (n.inactiveSlot .bootcode) ≠ 1 ∧ n.slotState (n.inactiveSlot .runtime) ≠ 1 ∧
    v.accepts via0 0x1F02 0 [2] = true ∧ v.slotState (v.inactiveSlot .bootcode) ≠ 2 ∧ v.slotState (v.inactiveSlot .runtime) = 2 ∧ v.restoring = false ∧
    b.accepts via0 0x1F02 0 [2] = true ∧ b.restoring = true ∧ s.accepts via0 0x1F02 0 [4] = true ∧
    p.accepts via0 0x1F02 0 [5] = true ∧ p.prevSlot .bootcode = none ∧ p.prevSlot .runtime = some 2 ∧ p.restoring = false ∧
    n.accepts via0 0x1F02 0 [5] = true ∧ n.prevSlot .bootcode = none ∧ n.prevSlot .runtime = none := by decide

theorem test_spdm : let v : SpdmVia := .session 0; let s := oper State.reset; let g (b : Bool) : State := s.modStw fun x => { x with spdm := [⟨v, b, 0⟩] }
    s.spdmPath v = true ∧ 0 ≤ s.chain.length ∧ (1 : Byte) ≠ 0 ∧ 1 ≤ (7 : Byte).toNat ∧ (7 : Byte).toNat ≤ 7 ∧ (g false).spdmPath v = true ∧ (g false).secured? v false = true ∧
    (g true).spdmPath v = true ∧ (g true).secured? v true = true ∧ (g false).secured? v true = false ∧ s.secured? v false = false := by
  refine ⟨by decide, Nat.zero_le _, by decide, by decide, by decide, by decide, by decide, by decide, by decide, by decide, by decide⟩

/-! ### The dictionary and sessions -/

theorem test_dictionary : let s := oper State.reset; let r : DictReq := ⟨1, 1, false, false, 0x1020, 0, 0, 2⟩; let d : List Byte := [5, 0]; let w := writeReq 0x1020 0 d; let o := writeReq 0x1001 0 (leBytes 8 5)
    let g : DictReq := { writeReq 0x5200 0 [0x9A] with off := 1 }; let k : State := oper State.reset |>.modStw fun x => { x with sessions := vset x.sessions 0 (some ⟨.mgmt 0, .operator, 0, [], [(7, [1])]⟩) }
    s.serves via0 r [] = true ∧ r.kind = 1 ∧ readHeader r = 0 ∧ s.reg 0x5400 0 ≠ 0 ∧ s.reg 0x5500 1 ≠ 1 ∧ s.reg 0x6177 1 ≠ 1 ∧ s.odRead (s.roleOf via0) 0x1020 0 0 2 = (0, [0, 0]) ∧ s.serves via0 { r with kind := 9 } [] = true ∧
    s.serves via0 { r with sub := 5 } [] = true ∧ readHeader { r with sub := 5 } = 0 ∧ odRow 0x1020 5 = none ∧
    plainWrite w d = true ∧ s.acceptsReq via0 w d = true ∧ w.ver = 1 ∧ w.off = 0 ∧ w.len.toNat = d.length ∧ d.length = entryBytes 0x1020 0 ∧ hasRows 0x1020 = false ∧ s.valueStatus 0x1020 0 (leNat d) = 0 ∧
    plainWrite o (leBytes 8 5) = true ∧ s.serves via0 o (leBytes 8 5) = true ∧ o.ver = 1 ∧ ((odRow 0x1001 0).map fun e => decide (e.acc = .ro)) = some true ∧
    domainWrite g [0x9A] false = true ∧ s.acceptsReq via0 g [0x9A] = true ∧ g.len.toNat = 1 ∧ g.off.toNat + 1 ≤ domLen 0x5200 0 ∧
    domainWrite { g with commit := true } [0x9A] true = true ∧ s.acceptsReq via0 { g with commit := true } [0x9A] = true ∧
    k.answers via0 = true ∧ k.asks via0 r [] = true ∧ k.keptReply via0 = some [1] := by decide

theorem test_domain_commit : (oper State.reset).wholeStatus 0x5200 0 (overlay ((oper State.reset).staged via0 0x5200 0 (domLen 0x5200 0)) 1 [0x9A]) = 0 := by decide +kernel

theorem test_saved_values_and_sessions : let s := oper State.reset; let l := oper (job [0]); let c : ClientCert := ⟨false, true, 0⟩; let m : Fin 2 := 1; let t := s.setReg 0x1132 2 3; let b := booted s
    s.accepts via0 0x1050 0 [1] = true ∧ s.accepts via0 0x1050 0 [2] = true ∧ s.accepts via0 0x3F00 0 [1] = true ∧ s.accepts via0 0x8F00 0 [1] = true ∧ s.anyLoaded = false ∧
    l.accepts via0 0x8F00 0 [1] = true ∧ l.anyLoaded = true ∧ t.carries (.mgmt m) = true ∧ t.certRole c = some .peer ∧ (List.finRange 8).find? (fun n => (vget t.stw.sessions n).isNone) = some 1 ∧
    (vget t.stw.sessions 0).map (fun x => State.passed { t with time := 60000000000 } x.seen 60000000000) = some true ∧ s.accepts via0 0x1130 (m.val + 1) [1] = true ∧ (1 : Byte).toNat ≤ 1 ∧ s.reg 0x1130 (m.val + 1) ≠ (1 : Byte).toNat ∧
    s.accepts via0 0x1130 (m.val + 1) [2] = true ∧ b.pwr.off = false ∧ b.pwr.stwHeld = false ∧ b.reg 0x1130 (m.val + 1) = 0 := by decide

/-! ### Power and resets -/

/-- An operator's session; the package is in the power state given, the die runs, and the insertion state is 3. -/
def powered (ps : Nat) (s : State) : State := booted (live (((oper s).setReg 0x4020 0 ps).setReg 0x4030 0 3))
def byte (n : Nat) : List Byte := [BitVec.ofNat 8 n]
/-- A transition is in a phase. -/
def moving (f : Phase) (s : State) : State := s.modPwr fun x => { x with trans := some ⟨1, [.west], f, 0⟩ }

theorem test_power_requests : let h : Half := .east; let s := powered 0 State.reset; let l := powered 0 (windows (job [17])); let t := powered 0x80 State.reset; let n := (halfNo h).val + 1; let o := powered 4 State.reset; let e := o.setReg 0x4201 0 8; let d := powered 3 State.reset
    t.accepts via0 0x4021 0 (byte n) = true ∧ t.inTransition = true ∧ s.accepts via0 0x4021 0 (byte n) = true ∧ s.inTransition = false ∧ s.comingUp = false ∧ s.pwr.removal = none ∧ s.powerState = 0 ∧
    s.holdsHalf h = false ∧ (∀ p, s.bindsHalf h p = false) ∧
    (let k := l.setReg 0x2100 1 (2 ^ 15 + 17 * 256); k.holdsHalf h = true ∧ k.accepts via0 0x4021 0 (byte n) = true ∧ k.inTransition = false ∧ k.comingUp = false ∧ k.pwr.removal = none ∧ k.powerState = 0) ∧
    o.accepts via0 0x4021 0 [0] = true ∧ o.inTransition = false ∧ o.comingUp = false ∧ o.pwr.removal = none ∧ o.powerState ≠ 0 ∧ bit (o.reg 0x4201 0) 3 = false ∧ bit (e.reg 0x4201 0) 3 = true ∧
    e.accepts via0 0x4021 0 [0] = true ∧ e.inTransition = false ∧ e.comingUp = false ∧ e.powerState ≠ 0 ∧ s.accepts via0 0x4021 0 [0] = true ∧ l.accepts via0 0x4021 0 [3] = true ∧ l.anyLoaded = true ∧ l.powerState = 0 ∧
    l.inTransition = false ∧ l.comingUp = false ∧ s.accepts via0 0x4021 0 [0x83] = true ∧ d.accepts via0 0x4021 0 [4] = true ∧ d.inTransition = false ∧ d.comingUp = false ∧ d.pwr.removal = none ∧ d.powerState = 3 := by decide

theorem test_parks : let s := moving .towers (powered 0x80 State.reset); let b := s.modTwr 0 fun x => { x with mq := vset x.mq 0 [⟨0, 0, 0, false, false, 0, [], 0, 0, false, false, 0, []⟩] }; let m := moving .seam (powered 0x80 State.reset)
    let d := (powered 0x80 State.reset).modPwr fun x => { x with decay := some 8, down := [] }
    s.phase = some .towers ∧ s.towersBusy s.transHalves = false ∧ s.stewardUp = true ∧ b.phase = some .towers ∧ b.towersBusy b.transHalves = true ∧ b.stewardUp = true ∧
    m.phase = some .seam ∧ m.stewardUp = true ∧ (∀ c ∈ seamCrossings, m.crossingOwners c = []) ∧ State.phaseFor { b with time := 60000000000 } 60000000000 = true ∧ State.phaseFor { m with time := 100000 } 100000 = true ∧
    m.pwr.trans ≠ none ∧ m.pwr.removal = none ∧ d.pwr.decay = some 8 ∧ d.stewardUp = true ∧ d.pwr.down = [] := by decide

/-- Enables and power-good inputs of rail `r`, and the rails awaited. -/
def railed (en pg : Bool) (r : Rail) (l : List Rail) : State := (up State.reset).modPwr fun x => { x with en := vset x.en r en, pg := vset x.pg r pg, await := l }

theorem test_power_up : let r : Rail := 8; let a := railed true false r [r, 9]; let b := railed true false r [r]; let t := moving .raising b; let g := railed true true r []
    let c := (moving .bringUp (up State.reset)).modPwr fun x => { x with stwHeld := false, en := Vector.replicate 14 true, pg := Vector.replicate 14 true }; let y := booted ((up State.reset).setReg 0x1030 0 1)
    a.pwr.off = false ∧ a.isEn r = true ∧ vget a.pwr.pg r = false ∧ a.pwr.await = [r, 9] ∧ r ≠ 9 ∧ b.pwr.await = [r] ∧ b.stewardUp = true ∧ b.isEn r = true ∧ vget b.pwr.pg r = false ∧ b.pwr.off = false ∧
    t.pwr.await.contains r = true ∧ t.stewardUp = true ∧ t.pwr.trans.isSome = true ∧ g.pwr.off = false ∧ 3 ≤ r.val ∧ g.isEn r = true ∧ vget g.pwr.pg r = true ∧
    y.stewardOn = true ∧ y.stw.romHold = false ∧ y.reg 0x1030 0 = 1 ∧ State.reset.pwr.off = false ∧ State.reset.pwr.stwHeld = true ∧
    c.pwr.dieUp = false ∧ c.railsUp = true ∧ c.pwr.testEn = false ∧ y.reg 0x1030 0 < 2 ∧ c.stewardUp = true ∧ c.phase = some .bringUp ∧ c.reg 0x1030 0 = 3 := by decide

theorem test_insertion_and_removal : let s := powered 0 State.reset; let c := s.setReg 0x4030 0 2; let r := (s.setReg 0x4030 0 5).modPwr fun x => { x with removal := some false }
    s.accepts via0 0x4031 0 [1] = true ∧ s.reg 0x4030 0 = 3 ∧ s.accepts via0 0x4031 0 [2] = true ∧ 1 < (2 : Byte).toNat ∧ s.accepts via0 0x4032 0 [1] = true ∧ s.pwr.removal = none ∧ s.comingUp = false ∧
    s.inTransition = false ∧ c.accepts via0 0x4032 0 [1] = true ∧ c.comingUp = true ∧ r.removing = true ∧ r.reg 0x4030 0 = 5 ∧ r.stewardUp = true ∧ r.anyLoaded = false ∧ r.inTransition = false ∧
    (∀ p, r.epochOpen p = false) := by decide

theorem test_resets : let s := powered 0 State.reset; let l := powered 0 (job [0]); let n := s.setReg 0x4030 0 8; let p : Part := 3; let q : PortId := 27
    (State.reset.modPwr fun x => { x with off := true }).pwr.off = true ∧ s.stewardOn = true ∧ s.pwr.off = false ∧ s.accepts via0 0x4000 0 [2] = true ∧ s.accepts via0 0x4000 0 [1] = true ∧ s.reg 0x4030 0 ≠ 8 ∧
    n.accepts via0 0x4000 0 [1] = true ∧ n.reg 0x4030 0 = 8 ∧ s.accepts via0 0x4000 0 [3] = true ∧ s.anyLoaded = false ∧ s.inTransition = false ∧ l.accepts via0 0x4000 0 [3] = true ∧ l.anyLoaded = true ∧
    s.accepts via0 0x4001 (p.val + 1) [1] = true ∧ s.accepts via0 0x4002 (p.val + 1) [1] = true ∧ s.accepts via0 0x4003 (q.val + 1) [1] = true := by decide

theorem test_limits_and_rails : let h : Half := .east; let s := powered 0 State.reset; let t := { s with time := 2000000 }; let c := (t.modPwr fun x => { x with pg := vset x.pg 9 true, en := vset x.en 9 true }).setReg 0x4222 2 0
    let v := c.modCore h fun y => { y with mv := 590 }; let f := c.modCore h fun y => { y with fails := 2 }; let w := { c with time := 86400000000000 }.setReg 0x4221 2 1
    s.stewardUp = true ∧ (s.setReg 0x4230 0 10).reg 0x4230 0 < (11 : W16).toNat ∧ vget v.pwr.pg (coreRail h) = true ∧ v.passed (v.core h).at_ 1000000 = true ∧ (v.core h).mv < v.railTarget h ∧ v.stewardUp = true ∧
    c.isEn (coreRail h) = true ∧ (c.core h).fails < 2 ∧ f.isEn (coreRail h) = true ∧ (f.core h).fails = 2 ∧ f.stewardUp = true ∧ w.stewardUp = true ∧ w.reg 0x4221 2 ≠ 0 ∧
    w.passed (w.core h).warnAt 86400000000000 = true ∧
    (let r := c; r.pwr.off = false ∧ 3 ≤ (9 : Rail).val ∧ r.isEn 9 = true ∧ vget r.pwr.pg 9 = true ∧ r.railBad 9 (800 : W16).toNat (0xFFFF : W16).toNat = true) := by decide

/-- All readings the same. -/
def samples (n : Nat) : List W16 := List.replicate 64 (BitVec.ofNat 16 n)
/-- A throttled west half with sensor 0 at a temperature in 1/64 °C. -/
def hot (n : Nat) : State := { ((up State.reset).setReg 0x4201 0 1).setReg 0x4200 1 n with time := 200000000 }.modThr .west fun x => { x with cool := some 0 }

theorem test_throttle : (hot (105 * 64)).stewardUp = true ∧ (hot (105 * 64)).throttled .west = true ∧ (hot (105 * 64)).heats .west = true ∧ (hot (105 * 64)).passed ((hot (105 * 64)).throttle .west).stepAt 1000000 = true ∧
    (hot 0).stewardUp = true ∧ (hot 0).throttled .west = true ∧ (hot 0).cool .west = true ∧ ((hot 0).throttle .west).cool = some 0 ∧ (hot 0).passed 0 100000000 = true ∧
    (hot 0).passed ((hot 0).throttle .west).stepAt 100000000 = true := by decide

theorem test_samples : let s := booted (up State.reset); s.pwr.off = false ∧ s.pwr.stwHeld = false ∧ (samples (125 * 64)).length = 64 ∧
    (List.range 64).find? (fun i => !isDram i && decide (deg 125 ≤ (s.readSensors (samples (125 * 64))).sensor i)) = some 0 ∧
    (s.readSensors (samples 0)).stewardUp = true ∧ (∀ p, s.loaded p = false) ∧ (∀ i, i < 64 → (s.readSensors (samples 0)).sensor i < deg 90) := by decide +kernel

/-! ### The host port -/

/-- A host with its link up; function 1 serves partition 0, which is loaded. -/
def hosted (s : State) : State := (live (up s)).setReg 0x1200 0 0x410 |>.setReg 0x4020 0 0
def hostJob : State := { hosted (windows (job [0])) with time := 100 }
/-- A function's mailbox is busy. -/
def withFn (f : Pf) (g : HostFn → HostFn) (s : State) : State := s.modFn f g

theorem test_mailbox : let s := hosted State.reset; let f : Pf := 4; let r := s.setReg 0x1030 0 1; let n := State.reset.modPwr fun x => { x with pg := vset x.pg 3 true }
    (withFn f (fun x => { x with busy := true }) s).fnOn f = true ∧ (List.replicate 1040 (0 : Byte)).length ≤ 1040 ∧ ((withFn f (fun x => { x with busy := true }) s).fn f).busy = true ∧
    s.fnOn f = true ∧ (s.fn f).busy = false ∧ 2 ≤ s.reg 0x1030 0 ∧ r.fnOn f = true ∧ (r.fn f).busy = false ∧ r.reg 0x1030 0 < 2 ∧ s.linkUp = true ∧
    (∀ p, (s.sec p).epoch = none ∧ (s.sec p).restore = none) ∧ s.regsWf = true ∧ n.perst = true ∧ (let k := { n with perst := false }; k.perst = false ∧ k.linkUp = false ∧ vget k.pwr.pg 3 = true) ∧
    1 ≤ (6 : BitVec 4).toNat ∧ (6 : BitVec 4).toNat ≤ 6 ∧ (16 : BitVec 5).toNat ∈ [1, 2, 4, 8, 16] ∧ State.reset.perst = true ∧ pfPart f = some 3 ∧
    ((withFn f (fun x => { x with cfg := { x.cfg with ptm := true } }) s).fn f).cfg.ptm = true ∧ (withFn f (fun x => { x with cfg := { x.cfg with ptm := true } }) s).linkUp = true := by decide

theorem test_bar2 : let f : Pf := 1; let s := hostJob; let w := s.apertureWindows 0; let a := withFn 0 id s
    2 ^ 24 - 8 + 8 ≤ s.barHalf f ∧ s.linkUp = true ∧ s.admission f = .serve 0 ∧ cutWindows w (2 ^ 24 - 8) 8 = some [(2 ^ 24 - 8, 8)] ∧ s.runClosed (2 ^ 24 - 8, 8) = false ∧
    s.secured (2 ^ 24 - 8) 8 = false ∧ cutWindows w (2 ^ 24 - 4) 8 = some [(2 ^ 24 - 4, 4), (2 ^ 33, 4)] ∧ (∀ r ∈ [(2 ^ 24 - 4, 4), (2 ^ 33, 4)], s.runClosed r = false) ∧
    (2 ^ 24 - 8) % 8 = 0 ∧ anyPoison (([(2 ^ 24 - 8, 8)] : List (Nat × Nat)).flatMap fun r => s.memRead r.1 r.2) = false ∧
    2 ^ 34 + 1 ≤ s.barHalf f ∧ cutWindows w (2 ^ 34) 1 = none ∧ s.parked .west = false ∧ s.pwr.dieUp = true ∧ s.maintenance = false ∧ (∀ c ∈ s.hostWay (2 ^ 24 - 8) 8 true, s.blocked c = false) ∧ (∀ c ∈ s.hostWay (2 ^ 24 - 8) 8 false, s.blocked c = false) ∧
    s.forbids (2 ^ 24 - 8) 8 = false ∧ (s.readRuns fine [(2 ^ 24 - 8, 8)]).1.length = 8 ∧ (s.setReg 0x4020 0 3).admission f = .abort ∧ 1 ≤ a.barHalf f := by decide

theorem test_image_aperture : let f : Pf := 1; let s := hosted (epoch1 2 false); let r := hosted (restoring1 (image0 2) []); let n := hosted secured1
    4 + 4 ≤ s.barHalf f ∧ s.linkUp = true ∧ s.admission f = .serve 0 ∧ (s.sec 0).epoch = some (image0 2) ∧ 65536 + 4 ≤ 65536 * ((s.securedBlocks 0).length + 1) + 4 * (s.securedBlocks 0).length ∧
    s.imageWay 0 4 4 true = [] ∧ (State.readImage 0 fine (unitPieces (4 / 65536 + 2) 65536 4) ([], s)).isSome = true ∧ n.admission f = .serve 0 ∧ (n.sec 0).epoch = none ∧ n.linkUp = true ∧
    r.admission f = .serve 0 ∧ ((r.sec 0).restore.map (·.img.tier)) = some 2 ∧ r.linkUp = true ∧ 65536 + 4 ≤ 65536 * ((r.securedBlocks 0).length + 1) + 4 * (r.securedBlocks 0).length := by decide

theorem test_doorbells_and_watches : let f : Pf := 1; let s := hostJob; let w := s.setWatch f 431 ⟨0, true, false, 7⟩; let i := hosted (windows State.reset)
    s.linkUp = true ∧ s.admission f = .serve 0 ∧ s.morRange 0 = some (8, 15) ∧ 7 ≤ 15 - 8 ∧ s.loaded 0 = true ∧ pfPart f = some 0 ∧ i.fnOn f = true ∧ i.loaded 0 = false ∧
    (w.watch f 431).en = true ∧ w.watchReached 0 (w.watch f 431) = true := by decide

/-! ### Sideband, pulses and the test port -/

theorem test_sideband : let s := up State.reset; let p := { s.setReg 0x4411 0 1 with time := 1000000000 }; let t := s.modPwr fun x => { x with testEn := true }; let o := t.setReg 0x2200 0 1
    s.pwr.off = false ∧ s.stewardUp = true ∧ State.reset.pwr.off = false ∧ State.reset.stewardUp = false ∧ p.pwr.off = false ∧ p.reg 0x4411 0 = 1 ∧ p.time.toNat % 1000000000 = 0 ∧ p.pwr.pps ≠ some p.time ∧
    s.pwr.testEn = false ∧ t.pwr.off = false ∧ t.pwr.testEn = true ∧ bit (o.reg 0x2200 0) 0 = true ∧ o.pwr.testEn = true ∧ Instr.smbusReadSerial ∈ [Instr.smbusReadInsertionState, .smbusReadPowerState, .smbusReadStatus, .smbusReadDieSensor,
    .smbusReadDramSensor, .smbusReadPackagePower, .smbusReadDeviceId, .smbusReadSerial] ∧ Instr.privateInstruction ∈ [Instr.extest, .clamp, .highz, .privateInstruction] := by decide

/-- Lands of a block of rows and columns that carry something. -/
def lands (r1 r2 c1 c2 : Nat) (f : Land → Bool) : Nat := ((List.range (r2 + 1 - r1)).flatMap fun r => (List.range (c2 + 1 - c1)).map fun c => landAt (r1 + r) (c1 + c)).countP f

/-- The counts of Table 17-12, and lands of Tables 17-13 and 17-14 at the corners of their rows. -/
theorem test_lands : lands 1 18 1 54 (· = .gnd) = 496 ∧ lands 19 86 1 6 (· = .gnd) = 305 ∧ lands 19 86 1 6 (· = .rail 3) = 36 ∧ lands 19 86 103 108 (· = .gnd) = 98 ∧ lands 19 86 103 108 (· = .rail 4) = 24 ∧
    lands 19 86 7 54 (· = .gnd) = 1632 ∧ lands 19 86 55 102 (· = .rail 9) = 1152 ∧ landAt 1 1 = .linkTx 0 0 false ∧ landAt 104 108 = .linkTx 14 0 false ∧ landAt 22 53 = .rail 12 ∧ landAt 25 8 = .rail 11 ∧
    landAt 66 106 = .flash 7 (.rbN 3) ∧ landAt 67 103 = .edge (.mgTx 0 false) ∧ landAt 77 107 = .edge (.pg 13) ∧ landAt 77 108 = .gnd := by decide +kernel

/-! ### Frames and invariants -/

theorem test_invariants_hold_at_reset : State.reset.logWf = true ∧ State.reset.savedOk ∧ ∃ t, step State.reset = .next t :=
  ⟨by decide, ⟨by decide, by decide⟩, _, rfl⟩

def sealed0 : State := ((up State.reset).setReg 0x2FFF 0 1).modStw fun x => { x with fresh := false }

theorem test_sealed : sealed0.savedOk ∧ sealed0.reg 0x2FFF 0 = 1 ∧ sealed0.stw.fresh = false ∧ ∃ t, exec .ppsInEdge sealed0 = .next t := ⟨⟨by decide, by decide⟩, by decide, by decide, _, rfl⟩

theorem test_canonical_at_reset : State.reset.Canonical := ⟨by decide, by decide, by decide, by decide, by decide⟩

theorem test_issue_frame : (Instr.ctlNop 0 .none).issues = true ∧ Instr.ppsInEdge.mayStore = false ∧ (∃ t, exec (.ctlNop 0 .none) (at0 0) = .next t) ∧ ∃ t, exec .ppsInEdge State.reset = .next t :=
  ⟨by decide, by decide, ⟨_, rfl⟩, _, rfl⟩

theorem test_store_frame : let w := write0 (2 ^ 33 - 4) false; let v := write0 eastStash false; let s := { on (windows (job [0])) with writes := [w, v] }; let u := { s with writes := [{ w with acc := true }] }
    w.parts[0]? = some (2 ^ 33 - 4, 4) ∧ v.parts[0]? = some (eastStash, 4) ∧ s.writeHeld 0 w 0 (2 ^ 33 - 4, 4) = false ∧ s.writeHeld 1 v 0 (eastStash, 4) = false ∧ s.maintenance = false ∧ s.towerServes 0 (2 ^ 33 - 4) = true ∧
    s.writes[0]? = some w ∧ s.writes[1]? = some v ∧ u.writes[0]? = some { w with acc := true } ∧ u.writeHeld 0 { w with acc := true } 0 (2 ^ 33 - 4, 4) = false ∧ Memory.wf s.mem = true ∧ w.written = false ∧ v.written = false ∧ place w.addr = .tower 0 (2 ^ 33 - 4) ∧ w.acc = false ∧
    s.secured w.addr w.data.length = false ∧ place v.addr = .stash true 0 := by decide

theorem test_job_end : let s := ((up (job [0, 1])).modSt 0 fun x => { x with sq := { x.sq with endPending := some 16 } }).modSt 1 fun x => { x with sq := { x.sq with done := true } }
    (s.stn 0).sq.endPending = some 16 ∧ s.jobAt 0 = some 0 ∧ s.idleForEnd 0 = true ∧ (s.stn 0).vats.toList.any Option.isSome = false ∧ (s.stn 0).tiles.toList.any Option.isSome = false ∧ s.stewardUp = true ∧ s.struck 0 = false ∧
    (∀ a ∈ (s.prt 0).pos, a ≠ 0 → (s.stn a).sq.done = true) ∧ jobLive (s.prt 0) = true ∧ s.beat = [] := by decide

theorem test_mordants : let m : MorOp := ⟨none, 0, 9, false, 2 ^ 63, false⟩; let g (o : MorOp) : State := { (windows (job [0])).setMor 9 ⟨2 ^ 63, false⟩ with morOps := [o] }
    let w : W128 := word [(0, 0x80), (8, 9), (24, 31)]; let e := entryK w 31 5; let s := put0 .mor e (windows (job [0]))
    (g m).morOps[0]? = some m ∧ m.poison = false ∧ (g m).loaded 0 = true ∧ (g m).stuckMor m = none ∧ (∀ o ∈ (g m).morOps.take 0, ¬(o.mor = m.mor ∧ o.st = m.st)) ∧ swf mordant0 (g m).mordants = true ∧
    2 ^ 64 ≤ ((g m).mor 9).count.toNat + m.value.toNat ∧ ((g m).mor 9).count.toNat + ({ m with value := 1 } : MorOp).value.toNat < 2 ^ 64 ∧
    (g { m with set := true }).morOps[0]? = some { m with set := true } ∧
    (s.stn 0).queue .mor = e :: [] ∧ opc e.word = 0x80 ∧ s.headOp 0 .mor 0x80 = some e ∧ s.jobAt 0 = some 0 ∧ (s.mor (morNo e.word)).failed = false ∧ calGate (word [(0, 0x60), (111, 1)]) = true ∧ (s.mor 0).failed = false := by decide

/-! ### WellFormed: for each check, a command that it refuses, and one at the bound that it lets pass -/

def noBoot : BootResult := ⟨true, true, Vector.replicate 4 true, [], [], [], 0, 0, 0, []⟩
def badBoot : BootResult := { noBoot with bad := [2 ^ 24] }
def badRecBoot : BootResult := { noBoot with badRecs := [(0, [0])] }
def nand0 : NandTarget := ⟨0, 0, true, true, true, 0, 0, 0, 0⟩
/-- One sector named twice. -/
def twice : MemEcc := ⟨[1], [1], []⟩
def seven : DictReq := ⟨1, 2, false, false, 0, 0, 0, 0⟩
def noCfg : Vector PciCfg 5 := Vector.replicate 5 PciCfg.reset

theorem test_wf_refuses : ∀ i ∈ [Instr.vatSlotFull 0 0 16, .slotRelease 0 0 16, .droppedFetchEnd 0 0 16, .ringFlitArrival 0 .cw ⟨0, [128], false, false⟩, .ringFlitArrival 0 .cw ⟨128, [5], false, false⟩,
    .ringFlitArrival 0 .cw ⟨0, [5, 5], false, false⟩, .ringFlitArrival 0 .cw ⟨0, [], true, true⟩, .katQueueFill 0 0, .routeGather 0 0 twice, .routeCombine 0 0 twice, .transposeRun 0 0 twice,
    .madderAdaptiveUpdate 0 0 twice, .madderMomentumUpdate 0 0 twice, .towerRead 0 0 twice, .towerWrite 0 0 ⟨[1, 1], [], []⟩, .accumulatingWrite 0 0 ⟨[], [2, 2], []⟩, .stashRead 0 0 ⟨[], [], [3, 3]⟩,
    .productRowLeavesTree 0 (some ⟨[(512, 0)], [], []⟩), .productRowLeavesTree 0 (some ⟨[(5, 0), (5, 1)], [], []⟩), .productRowLeavesTree 0 (some ⟨[], [(2, 512, 0)], []⟩),
    .productRowLeavesTree 0 (some ⟨[], [(2, 5, 0), (2, 5, 1)], []⟩), .productRowLeavesTree 0 (some ⟨[], [], [(3, 0, 0), (3, 0, 0)]⟩), .maintenanceWindow 0 0 twice, .stashRead 0 0 twice,
    .securedBlockWrite 0 0 twice, .drainRead 0 0 0 twice, .copyBackGranule 0 0 0 0 twice, .flitArrivalAtRouter 0 .north ⟨0, 960, 0, 0, .south, 0, 0, 0, false⟩, .flitArrivalAtRouter 0 .north ⟨0, 0, 0, 0, .south, 0, 1024, 0, false⟩,
    .hangDetected ⟨1, 1⟩, .crossingRecalibrated ⟨73, 73⟩ true, .computeDieReady [⟨0, 18⟩, ⟨2, 2⟩], .portAcceptsBlock 0 twice, .trainingSetsDetected 0 [(16, 0), (16, 1)], .trainingRetry 0 18 0, .trainingRetry 0 0 18,
    .write 0 twice, .readRequest 0 twice, .reduce (.port 0) twice, .multicastWrite 0 twice, .openWrite 0 twice, .openReadRequest 0 twice, .securingMordantChange 0 twice, .restoreBlockLands 0 0 [0],
    .jobLoad via0 0 0 [] twice], i.wf = false := by decide

theorem test_wf_refuses_steward : ∀ i ∈ [Instr.runtimeReady badBoot, .runtimeReady badRecBoot, .stwResetNRelease badBoot, .stwResetNRelease { noBoot with nand := [nand0, nand0] },
    .imageStagingWrite via0 .runtime (2 ^ 32) [] false, .imageStagingWrite via0 .runtime 0 (List.replicate 1025 0) false, .dictionaryWrite via0 seven (List.replicate 1025 0),
    .domainWriteSegment via0 seven (List.replicate 1025 0), .domainWriteCommit via0 seven (List.replicate 1025 0) [] fine, .domainWriteCommit via0 seven [] [] twice,
    .getCertificate (.session 0) 0 65536 1, .getCertificate (.session 0) 0 0 65536, .mailboxDoorbell 0 (List.replicate 1041 0) 0, .mailboxDoorbell 0 [] 2, .idleStationRotation 0 (some (65536, ⟨[], [], true⟩))], i.wf = false := by decide

theorem test_wf_refuses_host : ∀ i ∈ [Instr.bar2MemoryRead 1 0 0 fine, .bar2MemoryRead 1 (2 ^ 36) 1 fine, .bar2MemoryRead 1 0 1 twice, .bar2MemoryWrite 1 0 [] false fine, .bar2MemoryWrite 1 0 [0] false twice,
    .atomicopFetchadd 1 (2 ^ 36 - 4) true 0 fine, .atomicopSwap 1 (2 ^ 36 - 2) false 0 fine, .atomicopSwap 1 0 true 0 twice, .atomicopCas 1 (2 ^ 36) true 0 0 fine, .imageApertureRead 1 0 0 fine,
    .imageApertureWrite 1 (2 ^ 36) [0] fine, .imageApertureWrite 1 0 [0] twice, .mordantDoorbellWrite 1 524288 8 0, .mordantDoorbellRead 1 0 0, .watchArm 0 0 0 0 false, .watchFire 0 0,
    .functionLevelReset 1 ⟨3, false, 128, false⟩, .functionLevelReset 1 ⟨128, false, 64, false⟩, .sensorSample [], .railOutOfRange 2 0 0, .pcieLinkUp 0 1 noCfg, .pcieLinkUp 7 1 noCfg, .pcieLinkUp 1 3 noCfg,
    .pcieLinkUp 1 1 (Vector.replicate 5 ⟨0, false, 128, false⟩), .notificationRingTailWrite 0 64 0, .notificationRingTailWrite 0 0 0x80], i.wf = false := by decide

theorem test_wf_admits : ∀ i ∈ [Instr.vatSlotFull 0 0 15, .ringFlitArrival 0 .cw ⟨127, [127], true, false⟩, .katQueueFill 0 1, .towerRead 0 0 ⟨[1], [2], [2]⟩, .productRowLeavesTree 0 (some ⟨[(511, 0)], [(1, 5, 0), (2, 5, 1)], [(7, 0, 0)]⟩), .flitArrivalAtRouter 0 .north ⟨0, 959, 0, 0, .south, 0, 1023, 0, false⟩,
    .hangDetected ⟨0, 1⟩, .trainingSetsDetected 0 [(15, 0), (16, 0)], .trainingRetry 0 17 17, .runtimeReady { noBoot with bad := [2 ^ 24 - 1], badRecs := [(4095, List.replicate 32 0)], nand := [nand0, { nand0 with ce := 3 }] },
    .idleStationRotation 0 (some (65535, ⟨[], [], true⟩)), .mailboxDoorbell 4 [] 0x15, .bar2MemoryRead 1 (2 ^ 36 - 8) 8 fine, .mordantDoorbellRead 1 524280 8, .watchArm 4 431 0 0 true, .railOutOfRange 3 0 0,
    .pcieLinkUp 6 16 noCfg, .notificationRingTailWrite 4 63 0x15], i.wf = true := by decide

end Sys2Proof.Tests
end

section
/-!
SUPPORT. Frames of memory: what serving a part of a write, and what its checks find, can change of towers and stashes; what a plain write reads back as; and the reset state.
-/
namespace Sys2Proof.Machine

/-! ### What towers and stashes hold -/

/-- All that towers and stashes hold: bytes, check states of sectors, poisoned words. -/
def State.stores (s : State) : Sparse Byte × Sparse Byte × List Nat := (s.mem, s.poison, s.stashPoison)

theorem State.raise_stores (s : State) (p : Option Part) (c d : Nat) (x : Site) : (s.raise p c d x).stores = s.stores := by
  simp [State.stores]

theorem State.startCopy_stores (s : State) (t : Twr) (key : Nat) : (s.startCopy t key).stores = s.stores := by
  unfold State.startCopy
  dsimp only
  split
  · rfl
  · split <;> rfl

theorem State.retireBank_stores (s : State) (t : Twr) (key : Nat) : (s.retireBank t key).stores = s.stores := by
  unfold State.retireBank
  dsimp only
  split
  · exact s.startCopy_stores t key
  · split <;> rfl

theorem State.corrected_stores (s : State) (t : Twr) (sec : Nat) : (s.corrected t sec).stores = s.stores := by
  unfold State.corrected
  dsimp only
  split
  · exact State.retireBank_stores _ t _
  · rfl

/-- An uncorrectable sector takes its poison; the bank's retirement stores nothing. -/
theorem State.uncorrectable_stores (s : State) (t : Twr) (sec : Nat) : (s.uncorrectable t sec).stores = (s.setSector sec towerPoison).stores := by
  unfold State.uncorrectable
  dsimp only
  split
  · exact State.retireBank_stores _ t _
  · rfl

/-! ### Changes within an extent -/

/-- `t` holds what `s` holds in every byte outside the extent of `n` bytes at `a`, and in every sector and stash word that the extent does not touch. -/
structure StoresWithin (a n : Nat) (s t : State) : Prop where
  bytes : ∀ c, c < a ∨ a + n ≤ c → t.byte c = s.byte c
  sectors : ∀ c, c / 64 < a / 64 ∨ a + n ≤ c / 64 * 64 → t.sector c = s.sector c
  words : ∀ c, c / 8 < a / 8 ∨ a + n ≤ c / 8 * 8 → t.stashPoison.contains (c / 8) = s.stashPoison.contains (c / 8)

namespace StoresWithin
variable {a n : Nat} {s t u : State}

theorem of_stores (h : t.stores = s.stores) : StoresWithin a n s t := by
  simp only [State.stores, Prod.mk.injEq] at h
  obtain ⟨hmem, hpoison, hstash⟩ := h
  exact ⟨fun _ _ => by rw [State.byte, State.byte, hmem], fun _ _ => by rw [State.sector, State.sector, hpoison], fun _ _ => by rw [hstash]⟩

theorem refl (s : State) : StoresWithin a n s s := of_stores rfl

theorem trans (h : StoresWithin a n s t) (k : StoresWithin a n t u) : StoresWithin a n s u :=
  ⟨fun c hc => (k.bytes c hc).trans (h.bytes c hc), fun c hc => (k.sectors c hc).trans (h.sectors c hc), fun c hc => (k.words c hc).trans (h.words c hc)⟩

theorem congr_stores (h : StoresWithin a n s t) (e : u.stores = t.stores) : StoresWithin a n s u := h.trans (of_stores e)

/-- A smaller extent inside the extent. -/
theorem mono {b m : Nat} (h : StoresWithin b m s t) (hb : a ≤ b) (hm : b + m ≤ a + n) : StoresWithin a n s t where
  bytes c hc := h.bytes c (by omega)
  sectors c hc := h.sectors c (by omega)
  words c hc := h.words c (by omega)

theorem foldl {α : Type} {f : State → α → State} {l : List α} (h : ∀ x ∈ l, ∀ u, StoresWithin a n u (f u x)) (s : State) :
    StoresWithin a n s (l.foldl f s) :=
  List.foldlRecOn l f (refl s) fun _ hu x hx => hu.trans (h x hx _)

theorem ite {c : Prop} [Decidable c] (h : StoresWithin a n s t) (k : StoresWithin a n s u) : StoresWithin a n s (if c then t else u) := by
  split <;> assumption

end StoresWithin

/-- A unit of an extent neither lies before it nor begins after it. -/
theorem unit_touches_extent {u a n k : Nat} (hu : 0 < u) (h : k ∈ unitsOf u a n) : a / u ≤ k ∧ k * u < a + n := by
  unfold unitsOf at h
  split at h
  · simp at h
  · simp only [List.mem_map, List.mem_range] at h
    obtain ⟨i, hi, rfl⟩ := h
    refine ⟨Nat.le_add_right _ _, ?_⟩
    have hlast : a / u + i ≤ (a + n - 1) / u := by omega
    have := (Nat.le_div_iff_mul_le hu).1 hlast
    omega

theorem contains_setAdd_other {b k : Nat} (h : k ≠ b) : ∀ m : List Nat, (setAdd m b).contains k = m.contains k
  | [] => by simp [setAdd, h]
  | c :: m => by
    simp only [setAdd]
    split
    · simp [h]
    · split
      · rfl
      · simp only [List.contains_cons, contains_setAdd_other h m]

theorem contains_setDel_other {b k : Nat} (h : k ≠ b) (m : List Nat) : (setDel m b).contains k = m.contains k := by
  simp [setDel, h]

section
variable {a n : Nat} (s : State)

theorem State.setSector_within {k : Nat} (hk : k ∈ unitsOf 64 a n) (v : Byte) : StoresWithin a n s (s.setSector k v) where
  bytes _ _ := rfl
  sectors c hc := by
    have := unit_touches_extent (by decide) hk
    exact sget_sput_other 0 (by omega) v s.poison
  words _ _ := rfl

theorem State.stashPoison_within {k : Nat} (hk : k ∈ unitsOf 8 a n) {m : List Nat} (hm : m = setAdd s.stashPoison k ∨ m = setDel s.stashPoison k) :
    StoresWithin a n s { s with stashPoison := m } where
  bytes _ _ := rfl
  sectors _ _ := rfl
  words c hc := by
    have := unit_touches_extent (by decide) hk
    have hne : c / 8 ≠ k := by omega
    obtain rfl | rfl := hm
    · exact contains_setAdd_other hne _
    · exact contains_setDel_other hne _

theorem State.putBytes_within {l : List Byte} (hl : l.length = n) : StoresWithin a n s (s.putBytes a l) where
  bytes _ hc := State.byte_putBytes_other (hl ▸ hc)
  sectors _ _ := by rw [State.putBytes_only]; rfl
  words _ _ := by rw [State.putBytes_only]

/-! ### Writes -/

theorem State.towerWrite_within (l : List PByte) : StoresWithin a l.length s (s.towerWrite a l) := by
  refine StoresWithin.trans (StoresWithin.foldl (fun k hk u => ?_) s) (State.putBytes_within _ (List.length_map _))
  have hset (v : Byte) := u.setSector_within hk v
  exact .ite (.ite (hset _) (.refl u)) (.ite (hset _) (.refl u))

theorem State.stashWrite_within (l : List PByte) : StoresWithin a l.length s (s.stashWrite a l) := by
  refine StoresWithin.trans (StoresWithin.foldl (fun k hk u => ?_) s) (State.putBytes_within _ (List.length_map _))
  exact .ite (u.stashPoison_within hk (.inl rfl)) (.ite (u.stashPoison_within hk (.inr rfl)) (.refl u))

/-! ### What the checks of an extent find -/

/-- Findings in sectors of the extent poison sectors of the extent alone. -/
theorem State.sectorCheck_within (t : Twr) (cor : List Nat) {dead : List Nat} (hd : ∀ k ∈ dead, k ∈ unitsOf 64 a n) :
    StoresWithin a n s (s.sectorCheck t cor dead) := by
  refine StoresWithin.trans (StoresWithin.foldl (fun k _ u => ?_) s) (StoresWithin.foldl (fun k hk u => ?_) _)
  · exact .ite (.of_stores (u.corrected_stores t k)) (.refl u)
  · have hk := hd k (by simpa using hk)
    exact .ite ((u.setSector_within hk _).congr_stores (u.uncorrectable_stores t k)) (.refl u)

theorem State.mergeFindings_within (e : MemEcc) : StoresWithin a n s (s.mergeFindings e a n) := by
  unfold State.mergeFindings
  split
  · exact s.sectorCheck_within _ _ fun k hk => by
      simp only [List.mem_filter, partialSector, touches, Bool.and_eq_true, List.contains_iff_mem] at hk
      exact hk.2.1
  · exact .refl s

theorem State.extentFindings_within (e : MemEcc) : StoresWithin a n s (s.extentFindings e a n) := by
  unfold State.extentFindings
  split
  · exact s.sectorCheck_within _ _ fun k hk => by
      simp only [List.mem_filter, touches, List.contains_iff_mem] at hk
      exact hk.2
  · exact .refl s

end

theorem State.sectorCheck_mem (s : State) (t : Twr) (cor dead : List Nat) : (s.sectorCheck t cor dead).mem = s.mem := by
  have hc (u : State) (k : Nat) : (u.corrected t k).mem = u.mem := congrArg (·.1) (u.corrected_stores t k)
  have hd (u : State) (k : Nat) : (u.uncorrectable t k).mem = u.mem := congrArg (·.1) (u.uncorrectable_stores t k)
  refine (foldl_mem _ (fun u k => ?_) _ _).trans (foldl_mem _ (fun u k => ?_) _ s)
  · rw [apply_ite State.mem, hd, ite_self]
  · rw [apply_ite State.mem, hc, ite_self]

theorem State.mergeFindings_mem (s : State) (e : MemEcc) (a n : Nat) : (s.mergeFindings e a n).mem = s.mem := by
  unfold State.mergeFindings
  split
  · exact s.sectorCheck_mem _ _ _
  · rfl

/-! ### Accumulating writes (R170) -/

theorem length_leBytes : ∀ n v : Nat, (leBytes n v).length = n
  | 0, _ => rfl
  | n + 1, v => by simp [leBytes, length_leBytes n]

theorem length_chunks {α : Type} (n : Nat) : ∀ (m : Nat) (l : List α), (chunks n m l).length = m
  | 0, _ => rfl
  | m + 1, l => by simp [chunks, length_chunks n m]

theorem sector_of_extent {a n : Nat} (hn : 0 < n) : a / 64 ∈ unitsOf 64 a n := by
  simp only [unitsOf, List.mem_map, List.mem_range, if_neg (Nat.ne_of_gt hn)]
  exact ⟨0, by omega, rfl⟩

theorem State.accWord_within (s : State) (a : Nat) (l : List PByte) : StoresWithin a 4 s (s.accWord a l).1 := by
  have hset : StoresWithin a 4 s (s.setSector (a / 64) carriedPoison) := s.setSector_within (sector_of_extent (by decide)) _
  have hput (u : State) (v : Nat) : StoresWithin a 4 u (u.putBytes a (leBytes 4 v)) :=
    u.putBytes_within (length_leBytes 4 v)
  unfold State.accWord
  dsimp only
  rw [apply_ite Prod.fst]
  exact (StoresWithin.ite hset (.refl s)).trans (.ite (.refl _) (hput _ _))

/-- The words of `n` bytes `l`, added one after the other to what lies from `a` on. -/
def State.accWords (s : State) (a n : Nat) (l : List PByte) : State × Fl :=
  (chunks 4 (n / 4) l).zipIdx.foldl (fun (o : State × Fl) (c, i) =>
    let r := o.1.accWord (a + 4 * i) c
    (r.1, o.2.or r.2)) (s, Fl.none)

theorem State.accWords_within (s : State) (a n : Nat) (l : List PByte) : StoresWithin a n s (s.accWords a n l).1 := by
  refine List.foldlRecOn (motive := fun o : State × Fl => StoresWithin a n s o.1) _ _ (.refl s) fun o ho y hy => ho.trans ?_
  have hi : y.2 < n / 4 := by simpa [length_chunks] using List.snd_lt_of_mem_zipIdx hy
  exact (o.1.accWord_within (a + 4 * y.2) y.1).mono (by omega) (by omega)

/-! ### Parts of a write -/

theorem length_bytes_le (w : MemWrite) (x : Nat × Nat) : (w.bytes x).length ≤ x.2 := List.length_take_le _ _

theorem rawBytes_carried (e : MemEcc) (a : Nat) (l : List PByte) : rawBytes (carried e a l) = rawBytes l := by
  unfold carried
  split
  · rfl
  · refine List.ext_getElem (by simp [rawBytes]) fun i _ _ => ?_
    simp only [rawBytes, List.getElem_map, List.getElem_zipIdx]
    split <;> rfl

theorem rawBytes_getElem? {l : List PByte} {j : Nat} {b : PByte} (h : l[j]? = some b) : (rawBytes l)[j]? = some b.b := by
  simp [rawBytes, h]

/-- A channel stores part `x` of a plain write. -/
def State.storePart (e : MemEcc) (s : State) (w : MemWrite) (x : Nat × Nat) : State :=
  (s.mergeFindings e x.1 x.2).towerWrite x.1 (carried e x.1 (w.bytes x))

/-- A channel adds part `x` of an accumulating write. -/
def State.addPart (e : MemEcc) (s : State) (w : MemWrite) (x : Nat × Nat) : State :=
  let o := (s.extentFindings e x.1 x.2).accWords x.1 x.2 (carried e x.1 (w.bytes x))
  o.1.orStatus w.who o.2.ovf o.2.nv

theorem exec_towerWrite_serves (k i : Nat) (e : MemEcc) (s : State) :
    exec (.towerWrite k i e) s = s.serveWrite false k i (State.storePart e) := exec_towerWrite k i e s

theorem exec_accumulatingWrite_serves (k i : Nat) (e : MemEcc) (s : State) :
    exec (.accumulatingWrite k i e) s = s.serveWrite true k i (State.addPart e) := exec_accumulatingWrite k i e s

theorem length_carried (e : MemEcc) (a : Nat) (l : List PByte) : (carried e a l).length = l.length := by
  simpa [rawBytes] using congrArg List.length (rawBytes_carried e a l)

section
variable (s : State) (e : MemEcc) (w : MemWrite) (x : Nat × Nat)

theorem State.storePart_within : StoresWithin x.1 x.2 s (s.storePart e w x) := by
  refine (s.mergeFindings_within e).trans ((State.towerWrite_within _ _).mono (Nat.le_refl _) ?_)
  rw [length_carried]
  exact Nat.add_le_add_left (length_bytes_le w x) _

theorem State.addPart_within : StoresWithin x.1 x.2 s (s.addPart e w x) :=
  ((s.extentFindings_within e).trans (State.accWords_within _ _ _ _)).congr_stores rfl

end

section
variable {s t : State} {k i : Nat} {w : MemWrite} {x : Nat × Nat} (hw : s.writes[k]? = some w) (hx : w.parts[i]? = some x)
include hw hx

/-- Whatever a channel answers to part `x`, it stores nothing, or what `f` stores. -/
theorem State.serveWrite_stores {acc : Bool} {f : State → MemWrite → Nat × Nat → State} (h : s.serveWrite acc k i f = .next t) :
    t.stores = s.stores ∨ t.stores = (f s w x).stores := by
  simp only [State.serveWrite, hw, Option.bind_some, hx] at h
  split at h
  · split at h
    · cases h; exact .inl rfl
    · split at h
      · cases h; exact .inl (State.raise_stores _ _ _ _ _)
      · cases h; exact .inr rfl
  · cases h; exact .inl rfl

/-- So for a stash node. -/
theorem execStashWrite_stores (h : execStashWrite k i s = .next t) : t.stores = s.stores ∨ t.stores = (s.stashWrite x.1 (w.bytes x)).stores := by
  simp only [execStashWrite, hw, Option.bind_some, hx] at h
  split at h
  · split at h
    · cases h; exact .inl rfl
    · cases h; exact .inr rfl
  · cases h; exact .inl rfl

theorem State.serveWrite_of_free {acc : Bool} {f : State → MemWrite → Nat × Nat → State} {h : Twr} {o : Nat} (hp : place x.1 = .tower h o) (ha : w.acc = acc)
    (hm : s.maintenance = false) (ht : s.towerServes h x.1 = true) (hh : s.writeHeld k w i x = false) (hs : s.secured x.1 x.2 = false) :
    s.serveWrite acc k i f = .next { f s w x with writes := lset (f s w x).writes k (w.served i) } := by
  simp [State.serveWrite, hw, hx, hp, ha, hm, ht, hh, hs, next]

theorem execStashWrite_of_free {v : Bool} {o : Nat} (hp : place x.1 = .stash v o) (hh : s.writeHeld k w i x = false) :
    execStashWrite k i s = .next { s.stashWrite x.1 (w.bytes x) with writes := lset s.writes k (w.served i) } := by
  simp [execStashWrite, hw, hx, hp, hh, next]

/-- What a part of a write can change lies in its extent. -/
theorem partWrite_within (e : MemEcc) (h : exec (.towerWrite k i e) s = .next t ∨ exec (.accumulatingWrite k i e) s = .next t ∨ exec (.stashWrite k i) s = .next t) :
    StoresWithin x.1 x.2 s t := by
  rw [exec_towerWrite_serves, exec_accumulatingWrite_serves, exec_stashWrite] at h
  obtain h | h | h := h
  · exact (State.serveWrite_stores hw hx h).elim .of_stores (s.storePart_within e w x).congr_stores
  · exact (State.serveWrite_stores hw hx h).elim .of_stores (s.addPart_within e w x).congr_stores
  · have hstash := (s.stashWrite_within (w.bytes x)).mono (Nat.le_refl x.1) (Nat.add_le_add_left (length_bytes_le w x) _)
    exact (execStashWrite_stores hw hx h).elim .of_stores hstash.congr_stores

end

/-! ### What a plain write reads back as -/

section
variable {s : State} (hs : Memory.wf s.mem = true)
include hs

/-- A byte that a plain write to a tower brings reads back. -/
theorem State.byte_towerWrite {a : Nat} {l : List PByte} {j : Nat} {b : Byte} (hj : (rawBytes l)[j]? = some b) :
    (s.towerWrite a l).byte (a + j) = b := by
  rw [State.byte, State.towerWrite_bytes]
  exact State.byte_putBytes hs hj

theorem State.byte_stashWrite {a : Nat} {l : List PByte} {j : Nat} {b : Byte} (hj : (rawBytes l)[j]? = some b) :
    (s.stashWrite a l).byte (a + j) = b := by
  rw [State.byte, State.stashWrite_bytes]
  exact State.byte_putBytes hs hj

theorem State.byte_storePart (e : MemEcc) (w : MemWrite) {x : Nat × Nat} {j : Nat} {b : PByte} (hb : (w.bytes x)[j]? = some b) :
    (s.storePart e w x).byte (x.1 + j) = b.b := by
  refine State.byte_towerWrite (by rwa [State.mergeFindings_mem]) ?_
  rw [rawBytes_carried]
  exact rawBytes_getElem? hb

end

/-! ### The reset state -/

@[simp] theorem reset_prt (p : Part) : State.reset.prt p = Partition.reset := vget_replicate _ _

theorem reset_not_loaded (p : Part) : State.reset.loaded p = false := by
  rw [State.loaded, reset_prt]; rfl

theorem reset_jobState (p : Part) : State.reset.odValue 0x6000 (p.val + 1) = 0 := by
  rw [State.odValue, reset_prt]; rfl

theorem reset_canonical : State.reset.Canonical := ⟨rfl, rfl, .nil, rfl, rfl⟩

theorem reset_savedOk : State.reset.savedOk := ⟨List.forall_mem_nil _, List.forall_mem_nil _⟩

/-! ### The statements -/

/-- Settles O57: what serves a part changes its extent alone (`partWrite_within`), and the bytes of a plain write that is served read back. -/
theorem storeFrame : Obligations.StoreFrame := by
  unfold Obligations.StoreFrame
  intro s t k i e w x hw hx
  refine ⟨fun h => ?_, fun hs hh => ⟨fun h o hp ha hm ht hsec => ?_, fun v o hp => ?_⟩⟩
  · obtain ⟨hbytes, hsectors, hwords⟩ := partWrite_within hw hx e h
    exact ⟨hbytes, hsectors, hwords⟩
  · exact ⟨_, (exec_towerWrite_serves k i e s).trans (State.serveWrite_of_free hw hx hp ha hm ht hh hsec), fun j b hb => State.byte_storePart hs e w hb⟩
  · exact ⟨_, (exec_stashWrite k i s).trans (execStashWrite_of_free hw hx hp hh), fun j b hb => State.byte_stashWrite hs (rawBytes_getElem? hb)⟩

/-- Settles O51: part by part of the fixed state; a port's state is the default of its register. -/
theorem resetState : Obligations.ResetState := by
  unfold Obligations.ResetState
  refine ⟨rfl, rfl, rfl, by decide, by decide, fun p => ?_, fun _ => ⟨rfl, rfl⟩, rfl, fun _ => ⟨rfl, rfl⟩, fun _ _ => ⟨rfl, rfl⟩, by decide,
    reset_canonical, by decide, reset_savedOk⟩
  exact ⟨reset_not_loaded p, reset_jobState p⟩

end Sys2Proof.Machine
end

section
/-!
SUPPORT. The routing and transpose engines: which descriptor arrives, and what one command of the running descriptor answers (R150 to R154, R175 to R178).
-/
namespace Sys2Proof.Machine

/-! ### Descriptors that arrive -/

/-- The descriptor that arrives is the first one on its way to `dst` that no crossing holds back and that follows none of its own partition (R150). -/
theorem State.takeDesc_of_first {s : State} {dst : DescTo} {d : DescFlight} {pre post : List DescFlight} (hs : s.descs = pre ++ d :: post) (hd : d.dst = dst)
    (hfree : s.stuckDesc d = none) (hpre : ∀ o ∈ pre, o.dst = dst → s.stuckDesc o ≠ none ∧ o.part ≠ d.part) :
    s.takeDesc dst = some (d, { s with descs := pre ++ post }) := by
  have hskip : ∀ x ∈ pre.zipIdx, ¬ ((x.1.dst = dst && (s.stuckDesc x.1).isNone && !(s.descs.take x.2).any fun o => o.dst = dst && o.part = x.1.part) = true) := by
    intro x hx
    have hstuck := hpre x.1 (List.fst_mem_of_mem_zipIdx hx)
    simp only [Bool.and_eq_true, decide_eq_true_eq, Option.isNone_iff_eq_none]
    exact fun h => (hstuck h.1.1).1 h.1.2
  have hown : ∀ o ∈ pre, o.dst = dst → o.part ≠ d.part := fun o ho h => (hpre o ho h).2
  rw [hs] at hskip
  simp only [State.takeDesc, hs, List.zipIdx_append, List.find?_append, List.find?_eq_none.2 hskip, List.zipIdx_cons, Nat.zero_add, Option.none_or]
  rw [List.find?_cons_of_pos (by simpa [hd, hfree] using hown)]
  simp [ldel, List.eraseIdx_append_of_length_le]

/-! ### The routing engines -/

section
variable {s : State} {g : Eng} {p : Part} {e : MemEcc} {d : DescRec} {rest : List DescRec} {op : Nat} {blk : DescRec → State → Except Halt (DescRec × State)}
  (hq : s.routeQ g p = d :: rest) (hop : rtOp d = op ∨ op = 0 ∧ 1 < rtOp d) (hheld : (s.prt p).held = false) (hup : s.routeUp g = true)
  (hmore : d.checked = true → d.done < rtTotal d)
include hop hheld hup hmore

/-- Nothing keeps the running descriptor from going on. -/
theorem route_not_idle : (rtOp d ≠ op && !(op = 0 && 1 < rtOp d) || (s.prt p).held || !s.routeUp g || (d.checked && rtTotal d ≤ d.done)) = false := by
  simp only [hheld, hup, Bool.or_false, Bool.not_true, Bool.or_eq_false_iff, Bool.and_eq_false_imp, decide_eq_true_eq, decide_eq_false_iff_not, Nat.not_le, Bool.not_eq_false',
    Bool.and_eq_true]
  exact ⟨hop.resolve_left, hmore⟩

include hq

theorem routeRun_of_ok {d' : DescRec} {s2 : State} (h : routeTry blk e g p d s = .ok (d', s2)) : routeRun op g p blk e s = .next (s2.setRouteHead g p d') := by
  simp only [routeRun, hq, route_not_idle hop hheld hup hmore, Bool.false_eq_true, if_false, h, next]

theorem routeRun_of_fault {s1 : State} {n dt : Nat} {x : Site} (h : routeTry blk e g p d s = .error (.fault s1 n dt x)) :
    routeRun op g p blk e s = .next ((s1.setRouteQ g p rest).raise (some p) n dt x) := by
  simp only [routeRun, hq, route_not_idle hop hheld hup hmore, Bool.false_eq_true, if_false, h, next]

end

@[simp] theorem State.routeQ_setRouteQ (s : State) (g : Eng) (p : Part) (q : List DescRec) : (s.setRouteQ g p q).routeQ g p = q := by
  simp [State.routeQ, State.setRouteQ]

@[simp] theorem State.raise_routeQ (s : State) (p : Option Part) (c n : Nat) (x : Site) (g : Eng) (a : Part) : (s.raise p c n x).routeQ g a = s.routeQ g a := by
  simp [State.routeQ]

/-- The checks of a poisoned descriptor end it before any of its fields is looked at (R153). -/
theorem routeTry_of_poison {blk : DescRec → State → Except Halt (DescRec × State)} {e : MemEcc} {g : Eng} {p : Part} {d : DescRec} {s : State}
    (hnew : d.checked = false) (hpoison : d.poison = true) : routeTry blk e g p d s = .error (.fault s 4 0x0401 (routeSite g d)) := by
  simp [routeTry, routeStart, hnew, hpoison, bind, Except.bind]

/-! ### The transpose engines -/

@[simp] theorem State.xq_setXq (s : State) (t : Twr) (p : Part) (q : List DescRec) : vget ((s.setXq t p q).twr t).xq p = q := by
  simp [State.setXq]

@[simp] theorem State.raise_twr (s : State) (p : Option Part) (c n : Nat) (x : Site) (t : Twr) : (s.raise p c n x).twr t = s.twr t := by
  simp [State.twr]

section
variable {s : State} {t : Twr} {p : Part} {e : MemEcc} {d : DescRec} {rest : List DescRec}
  (hq : vget (s.twr t).xq p = d :: rest) (hheld : (s.prt p).held = false) (hup : s.engineUp t p = true)
include hq hheld hup

/-- A poisoned descriptor is consumed as its checks begin. -/
theorem transposeRun_of_poison (hnew : d.checked = false) (hpoison : d.poison = true) :
    exec (.transposeRun t p e) s = .next ((s.setXq t p rest).raise (some p) 4 0x0401 (towerSite t 1 d.st.val d.pc)) := by
  simp [exec_transposeRun, execTransposeRun, hq, hheld, hup, hnew, hpoison, next]

theorem transposeRun_of_bad_field (hnew : d.checked = false) (hclean : d.poison = false) (hbad : xposeOk s t p d = false) :
    exec (.transposeRun t p e) s = .next ((s.setXq t p rest).raise (some p) 1 0x0102 (towerSite t 1 d.st.val d.pc)) := by
  simp [exec_transposeRun, execTransposeRun, hq, hheld, hup, hnew, hclean, hbad, next]

/-- Past its checks the engine moves the elements of the next 4 KiB one by one. -/
theorem transposeRun_of_checked (hmore : d.checked = true → d.done < xpRows d * xpCols d) (hok : d.checked = false → d.poison = false ∧ xposeOk s t p d = true)
    (hfree : s.xposeFree d = true) {r : Run} (hr : (List.range (xpNext d)).foldlM (fun s i => xposeElem e p (xposeEng t d) d s (d.done + i)) s = r) :
    (∀ s1, r = .ok s1 → exec (.transposeRun t p e) s = .next (s1.setXq t p ({ d with checked := true, done := d.done + xpNext d } :: rest))) ∧
    (∀ s1 n dt x, r = .error (.fault s1 n dt x) → exec (.transposeRun t p e) s = .next ((s1.setXq t p rest).raise (some p) n dt x)) := by
  have hgo : (d.checked && decide (xpRows d * xpCols d ≤ d.done)) = false := by simpa using hmore
  have hclean : (!d.checked && d.poison) = false := by simpa using fun h => (hok h).1
  have hfields : (!d.checked && !xposeOk s t p d) = false := by simpa using fun h => (hok h).2
  simp only [exec_transposeRun, execTransposeRun, hq, hheld, hup, hgo, hclean, hfields, hfree, hr, Bool.false_or, Bool.not_true, Bool.false_eq_true, if_false]
  exact ⟨fun s1 h => by rw [h]; rfl, fun s1 n dt x h => by rw [h]; rfl⟩

end

/-- Settles O20: arrivals take the first free descriptor (`takeDesc_of_first`); a run answers as its block or its elements go (`routeRun_of_ok`, `transposeRun_of_checked`). -/
theorem routingAndTransposeEnginesRun : Obligations.RoutingAndTransposeEnginesRun := by
  unfold Obligations.RoutingAndTransposeEnginesRun
  refine ⟨⟨fun s g d pre post hs hd hfree hpre => ?_, fun op c blk s g p e d rest hc hq hop hheld hup hmore => ?_, fun s g p d rest hq hc hdone => ?_⟩,
    fun s t d pre post hs hd hfree hpre hup => ?_, fun s s1 t p e d rest hq hheld hup hmore hok hfree hr => ?_,
    fun s t p e d rest s1 n dt x hq hheld hup hmore hok hfree hr => ?_, fun s t p e d rest hq hheld hup hnew => ?_, fun s t p d rest hq hc hdone => ?_⟩
  · have harrive := State.takeDesc_of_first hs hd hfree hpre
    simp only [exec_routeDescriptorArrival, execRouteDescriptorArrival, harrive]
    exact ⟨fun hjob => if_pos hjob, fun hjob => if_neg (Bool.eq_false_iff.1 hjob)⟩
  · have hexec : exec (c g p e) s = routeRun op g p (blk e g p) e s := by
      obtain ⟨rfl, rfl, rfl⟩ | ⟨rfl, rfl, rfl⟩ := hc
      · exact exec_routeGather g p e s
      · exact exec_routeCombine g p e s
    rw [hexec]
    refine ⟨fun d' s2 h => routeRun_of_ok hq hop hheld hup hmore h, fun s1 n dt x h => routeRun_of_fault hq hop hheld hup hmore h, fun hnew hpoison => ?_⟩
    exact ⟨_, routeRun_of_fault hq hop hheld hup hmore (routeTry_of_poison hnew hpoison), by simp, State.raise_records _ _ _ _ _⟩
  · simp only [exec_routeDescriptorComplete, execRouteDescriptorComplete, hq, hc, decide_eq_true hdone, Bool.and_self, if_true]
    rfl
  · have harrive := State.takeDesc_of_first hs hd hfree hpre
    simp only [exec_transposeDescriptorArrival, execTransposeDescriptorArrival, harrive, hup, Bool.not_true, Bool.false_eq_true, if_false]
    exact ⟨fun hjob => if_pos hjob, fun hjob => if_neg (Bool.eq_false_iff.1 hjob)⟩
  · exact (transposeRun_of_checked hq hheld hup hmore hok hfree hr).1 s1 rfl
  · exact (transposeRun_of_checked hq hheld hup hmore hok hfree hr).2 s1 n dt x rfl
  · exact ⟨fun hpoison => ⟨_, transposeRun_of_poison hq hheld hup hnew hpoison, by simp, State.raise_records _ _ _ _ _⟩,
      fun hclean hbad => ⟨_, transposeRun_of_bad_field hq hheld hup hnew hclean hbad, by simp, State.raise_records _ _ _ _ _⟩⟩
  · simp only [exec_transposeComplete, execTransposeComplete, hq, hc, decide_eq_true hdone, Bool.and_self, if_true]
    rfl

end Sys2Proof.Machine
end

section
/-!
SUPPORT. What serves a part of a fetch or a write, and what a tower that does not answer completes (R26, R163 to R170, R174, R188, R212, R213).
-/
namespace Sys2Proof.Machine

/-! ### Checks that find nothing -/

theorem State.findings_none (s : State) (a n : Nat) : s.findings ⟨[], [], []⟩ a n = s := if_pos ⟨rfl, rfl⟩

theorem carried_none (a : Nat) (l : List PByte) : carried ⟨[], [], []⟩ a l = l := if_pos rfl

/-! ### Parts of a fetch -/

section
variable {s : State} {k i : Nat} {f : Fetch} {x : ReqPart} (hf : s.fetches[k]? = some f) (hx : f.parts[i]? = some x) (hr : f.remote = false) (hd : x.data = none)
  (hahead : behind (f.ahead i) x.addr = false) (hbehind : s.fetchBehind k f x.addr = false) (hfree : s.stuckPart f.st x.addr true = none)

include hr hd hahead hbehind hfree in
/-- A part whose turn it is takes the bytes of the current image after the checks (R166, R187). -/
theorem State.serveFetch_of_free (e : MemEcc) : s.serveFetch k i f x e = .next { s.findings e x.addr x.len with
    fetches := lset (s.findings e x.addr x.len).fetches k (f.fill i x (carried e x.addr ((s.findings e x.addr x.len).curRead x.addr x.len))) } := by
  simp [State.serveFetch, hr, hd, hahead, hbehind, hfree, next]

include hf hx

theorem execTowerRead_serves {e : MemEcc} {t : Twr} {off : Nat} (hp : place x.addr = .tower t off) (hm : s.maintenance = false) (ht : s.towerServes t x.addr = true) :
    execTowerRead k i e s = s.serveFetch k i f x e := by
  simp [execTowerRead, hf, hx, hp, hm, ht]

theorem execStashRead_serves {e : MemEcc} {east : Bool} {off : Nat} (hp : place x.addr = .stash east off) : execStashRead k i e s = s.serveFetch k i f x e := by
  simp [execStashRead, hf, hx, hp]

end

/-! ### Writes into a secured block -/

/-- A write of part `x` into a secured block is discarded whole, with a fault at its station (R188). -/
theorem State.serveWrite_of_secured {s : State} {k i : Nat} {w : MemWrite} {x : Nat × Nat} (hw : s.writes[k]? = some w) (hx : w.parts[i]? = some x) {t : Twr} {off : Nat}
    (hp : place x.1 = .tower t off) (hm : s.maintenance = false) (ht : s.towerServes t x.1 = true) (hh : s.writeHeld k w i x = false) (hs : s.secured x.1 x.2 = true)
    (f : State → MemWrite → Nat × Nat → State) : s.serveWrite w.acc k i f = .next (State.raise { s with writes := ldel s.writes k } (some w.part) 1 0x0102 w.site) := by
  simp [State.serveWrite, hw, hx, hp, hm, ht, hh, hs, next]

/-! ### A tower that does not answer -/

theorem State.dropDesc_of_dead {s : State} {dst : DescTo} {t : Twr} {unit : Nat} {d : DescFlight} (hd : s.descs.find? (fun d => decide (d.dst = dst)) = some d)
    (hdead : s.towerUp t = false ∨ vget (s.twr t).gone d.part = true) (hfree : s.stuckDesc d = none) :
    s.dropDesc dst t unit = .next (State.raise { s with descs := s.descs.erase d } (some d.part) 1 0x0102 (towerSite t unit d.st.val d.pc)) := by
  have hgone : (s.towerUp t && !vget (s.twr t).gone d.part) = false := by
    obtain h | h := hdead <;> simp [h]
  simp [State.dropDesc, hd, hgone, hfree, next]

/-- Settles O22: a part is served in its turn (`serveFetch_of_free`, `serveWrite_of_free`), a secured block refuses it (`serveWrite_of_secured`), and a tower out of service completes what reaches it. -/
theorem towersAndStashesServe : Obligations.TowersAndStashesServe := by
  unfold Obligations.TowersAndStashesServe
  refine ⟨fun s s' k i e f x hf hx hr hd hahead hbehind hfree hs' => ?_, fun s k i e w x t off hw hx hh hp hm ht => ⟨fun hs => ⟨fun s' ha hs' => ?_, fun s' o ha ho hs' => ?_⟩, fun hs => ?_⟩,
    fun s k i w x east off hw hx hh hp => ?_, fun s k f hf hr hdead => ?_, fun s k w left hw hleft hlen => ?_, fun s t madder d hd hdead hfree => ?_⟩
  · have hserve := State.serveFetch_of_free hr hd hahead hbehind hfree e
    subst hs'
    refine ⟨fun t off hp hm ht => ?_, fun east off hp => ?_, fun he => ?_⟩
    · exact (exec_towerRead k i e s).trans ((execTowerRead_serves hf hx hp hm ht).trans hserve)
    · exact (exec_stashRead k i e s).trans ((execStashRead_serves hf hx hp).trans hserve)
    · subst he
      rw [State.findings_none, carried_none]
      exact ⟨rfl, rfl⟩
  · subst hs'
    exact (exec_towerWrite_serves k i e s).trans (State.serveWrite_of_free hw hx hp ha hm ht hh hs)
  · subst hs' ho
    exact (exec_accumulatingWrite_serves k i e s).trans (State.serveWrite_of_free hw hx hp ha hm ht hh hs)
  · have hexec : ∃ f, exec (if w.acc then .accumulatingWrite k i e else .towerWrite k i e) s = s.serveWrite w.acc k i f := by
      cases w.acc
      · exact ⟨_, exec_towerWrite_serves k i e s⟩
      · exact ⟨_, exec_accumulatingWrite_serves k i e s⟩
    obtain ⟨f, hexec⟩ := hexec
    exact ⟨_, hexec.trans (State.serveWrite_of_secured hw hx hp hm ht hh hs f), by simp, by simp, by simp, State.raise_records _ _ _ _ _⟩
  · exact (exec_stashWrite k i s).trans (execStashWrite_of_free hw hx hp hh)
  · have hany : (f.parts.any fun x => x.data.isNone && s.deadPart x.addr && (s.stuckPart f.st x.addr true).isNone) = true := by
      simpa [and_assoc] using hdead
    simp only [exec_retiredTowerAccess, execRetiredTowerAccess, hf, hr, hany, Bool.not_true, Bool.or_false, Bool.false_eq_true, if_false]
    rfl
  · simp only [exec_retiredTowerAccess, execRetiredTowerAccess, hw, ← hleft, Nat.ne_of_lt hlen, if_false]
    split <;> rfl
  · cases madder <;> exact ⟨_, (exec_retiredTowerAccess _ s).trans (State.dropDesc_of_dead hd hdead hfree), by simp, State.raise_records _ _ _ _ _⟩

end Sys2Proof.Machine
end

section
/-!
SUPPORT. Two flits for one slot of an edge (R228), of jobs that no fault ends any more.
-/
namespace Sys2Proof.Machine

/-- Slot 0 of the west edge of node 191 is partition 0's, and the mesh runs. No job is loaded. -/
def slotTaken : State :=
  { State.reset with
    pwr := { State.reset.pwr with dieUp := true }
    clk := { State.reset.clk with mesh := [⟨191, .unit, .west, 0, 0⟩] } }

/-- A flit of partition 1 for the same slot. -/
def secondFlit : MeshFlit := ⟨0, 0, 0, 0, .west, 0, 0, 1, false⟩

theorem secondFlit_taken : slotTaken.routerTakes 191 .south secondFlit = true := by decide

theorem secondFlit_collides : (slotTaken.clk.mesh.filter fun u => decide (arrivalSlot secondFlit ≤ u.slot + 960)).find?
    (fun u => u.node = 191 && u.out = secondFlit.out && u.slot = flitSlot secondFlit) = some ⟨191, .unit, .west, 0, 0⟩ := by decide

/-- Where no record waits for the end of the beat, the newest record of the log is the only one that `Records` can speak of. -/
theorem Records.part_unique {s t : State} {p q : Part} {c c' n n' : Nat} {x x' : Site} (hbeat : t.beat = []) (h : Records s t (some p) c n x) (k : Records s t (some q) c' n' x') :
    p = q := by
  obtain ⟨r, hr, -, -, hp, -⟩ := h
  obtain ⟨r', hr', -, -, hq, -⟩ := k
  simp only [hbeat, List.not_mem_nil, false_and, false_or] at hr hr'
  have heq : r = r' := Option.some.inj (hr.1.symm.trans hr'.1)
  exact hp.symm.trans (heq ▸ hq)

/-- Neither partition has a live job, so neither fault waits for the end of the beat (R18). -/
theorem secondFlit_beat {t : State} (h : exec (.flitArrivalAtRouter 191 .south secondFlit) slotTaken = .next t) : t.beat = [] := by
  cases h
  decide

/-- Refutes O26: two flits of partitions without a loaded job have their faults written at once, so that only the second is the newest record of the log (`Records.part_unique`). -/
theorem not_meshFlitsAtRouters : ¬ Obligations.MeshFlitsAtRouters := by
  unfold Obligations.MeshFlitsAtRouters
  intro h
  obtain ⟨t, hexec, -, -, -, -, -, -, -, hcollision, -⟩ := h.2 slotTaken 191 .south secondFlit secondFlit_taken rfl
  obtain ⟨hfirst, hsecond⟩ := hcollision _ secondFlit_collides
  exact absurd (Records.part_unique (secondFlit_beat hexec) hfirst hsecond) (by decide)

end Sys2Proof.Machine
end

section
/-!
SUPPORT. A scheduled block at its destination: what the checks of every delivered block answer (R338, R347, R349), and the effect of each kind.
-/
namespace Sys2Proof.Machine

/-! ### The checks of a delivered block -/

/-- Taking the block at the head of a port changes the port's queue alone. -/
theorem State.takeSched_state {s s' : State} {q : PortId} {tt : Nat} {b : Block} (h : s.takeSched q tt = some (b, s')) :
    ∃ l, s' = s.modPort q fun x => { x with inSched := l } := by
  unfold State.takeSched at h
  split at h
  · next l _ =>
    split at h
    · cases h; exact ⟨l, rfl⟩
    · cases h
  · cases h

theorem State.takeSched_arrivalEntry {s s' : State} {q : PortId} {tt : Nat} {b : Block} (h : s.takeSched q tt = some (b, s')) (p : Part) (c : Block) (reduce : Bool) :
    s'.arrivalEntry p q c reduce = s.arrivalEntry p q c reduce := by
  obtain ⟨l, rfl⟩ := State.takeSched_state h
  rfl

/-- A block belongs to the partition that owns its port, if its job is loaded; else it is counted (R338). -/
theorem State.takeSched_schedPart {s s' : State} {q : PortId} {tt : Nat} {b : Block} {p : Part} (h : s.takeSched q tt = some (b, s')) (howner : s.portOwner q = some p) :
    s'.schedPart q = if s.loaded p then .ok p else .error (s'.count 0x9082 (p.val + 1)) := by
  obtain ⟨l, rfl⟩ := State.takeSched_state h
  have howner' : State.portOwner (s.modPort q fun x => { x with inSched := l }) q = some p := howner
  rw [State.schedPart, howner']
  rfl

section
variable {s s' : State} {q : PortId} {tt : Nat} {p : Part} {b : Block} {f : State → Part → Block → Nat → State}

/-- A block that passes its checks has its effect. -/
theorem atDest_of_delivered {e : Nat} (h : Delivered s s' q tt p b e) : atDest tt q s f = .next (f s' p b e) := by
  obtain ⟨hhead, howner, hloaded, hentry, hfinal, hslot, hhere, hroom⟩ := h
  have hroom' : (decide (tt = 5) && s'.reduceWaits p (bits e 44 37) b) = false := by simpa using hroom
  simp only [atDest, hhead, State.takeSched_schedPart hhead howner, hloaded, if_true, State.takeSched_arrivalEntry hhead, hentry, hfinal, hhere, hroom', decide_false,
    Bool.or_false, Bool.false_eq_true, if_false, Nat.not_lt.2 hslot, next]

variable (hhead : s.takeSched q tt = some (b, s')) (howner : s.portOwner q = some p)
include hhead howner

theorem atDest_of_unloaded (hloaded : s.loaded p = false) : atDest tt q s f = .next (s'.count 0x9082 (p.val + 1)) := by
  simp only [atDest, hhead, State.takeSched_schedPart hhead howner, hloaded, Bool.false_eq_true, if_false, next]

theorem atDest_of_no_entry (hloaded : s.loaded p = true) (hentry : s.arrivalEntry p q b (decide (tt = 5)) = none) : atDest tt q s f = .next (s'.faultPort p q) := by
  simp only [atDest, hhead, State.takeSched_schedPart hhead howner, hloaded, if_true, State.takeSched_arrivalEntry hhead, hentry, next]

end

/-- Every kind of scheduled block goes through the same checks, each with its own effect. -/
theorem exec_atDest {q : PortId} {tt : Nat} {c : Instr} {ecc : MemEcc}
    (h : (tt, c) = (0, Instr.write q ecc) ∨ (tt, c) = (1, Instr.readRequest q ecc) ∨ (tt, c) = (2, Instr.readResponse q) ∨ (tt, c) = (3, Instr.mordantAdd q) ∨
      (tt, c) = (4, Instr.mordantSet q) ∨ (tt, c) = (5, Instr.reduce (.port q) ecc)) (s : State) : ∃ f, exec c s = atDest tt q s f := by
  obtain h | h | h | h | h | h := h <;> cases h
  · exact ⟨_, exec_write q ecc s⟩
  · exact ⟨_, exec_readRequest q ecc s⟩
  · exact ⟨_, exec_readResponse q s⟩
  · exact ⟨_, exec_mordantAdd q s⟩
  · exact ⟨_, exec_mordantSet q s⟩
  · exact ⟨_, exec_reduce (.port q) ecc s⟩

/-! ### Their effects -/

theorem State.faultPort_records (s : State) (p : Part) (q : PortId) : Records s (s.faultPort p q) (some p) 1 0x0102 (sitePort q) := s.raise_records _ _ _ _

section
variable {s : State} {p : Part} {b : Block} {a n : Nat} {short : Bool} (hlen : blockLen short b.data = some n)
include hlen

theorem State.blockWrite_of_writable {s2 : State} {ecc : MemEcc} (q : PortId) (hin : s.inWin p a n = true) (hw : s.devWrite ecc a (marked b (b.data.take n)) = some s2) :
    s.blockWrite ecc p q b a short = (s2.mirrorTouch p a, true) := by
  simp [State.blockWrite, hlen, hin, hw]

theorem State.blockWrite_of_outside (ecc : MemEcc) (q : PortId) (hout : s.inWin p a n = false) : s.blockWrite ecc p q b a short = (s.faultPort p q, false) := by
  simp [State.blockWrite, hlen, hout]

end

/-- A request in range reads its source and starts the transfer of its response (R342, R346). -/
theorem State.respond_starts {s : State} {p : Part} {b : Block} {r : ReadReq} (ecc : MemEcc) (q : PortId) (route : Nat) (hr : r = readReqOf b.data) (hdev : r.rdev = s.reg 0x1020 0)
    (hsome : r.bytes ≠ 0) (hmax : r.bytes ≤ 2097152) (hst : r.st ≤ 17) (hin : s.inWin p r.src (r.bytes + if r.hdr then 4096 else 0) = true) :
    ∃ x, (s.respond ecc p q b route).xfers.getLast? = some x ∧ x.kind = .readResp ∧ x.part = p ∧ x.route = route ∧ x.dest = r.qdev ∧ x.data = (s.readSource ecc r).1 ∧
      x.bytes = r.bytes := by
  subst hr
  simp [State.respond, hdev, hsome, Nat.not_lt.2 hmax, Nat.not_lt.2 hst, hin]

theorem State.remoteMor_of_range {s : State} {p : Part} {off a z : Nat} (q : PortId) (b : Block) (set : Bool) (hrange : s.morRange p = some (a, z)) (hoff : off ≤ z - a) :
    s.remoteMor p q b off set = { s with morOps := s.morOps ++ [⟨none, p, BitVec.ofNat 16 (a + off), set, BitVec.ofNat 64 (leNat (b.data.take 8)), b.poison⟩] } := by
  simp [State.remoteMor, hrange, Nat.not_lt.2 hoff]

/-- The device's own part is combined by its own engine, if nothing holds it back (R368). -/
theorem execReduce_of_own {s : State} {k : Nat} {x : Xfer} {e : Nat} (ecc : MemEcc) (hx : s.xfers[k]? = some x) (hkind : x.kind = .reduce) (he : e = s.routeEntry x.part x.route)
    (hrole : bits e 126 125 = 3) (hred : bits e 48 45 = 1) (hup : s.halfUp (engHalf (grpEng (s.groupEntry x.part (bits e 44 37)))) = true) (hfree : s.stuckXfer x = none)
    (hroom : s.reduceWaits x.part (bits e 44 37) (xferBlock s x x.blk) = false) :
    execReduce (.own k) ecc s = .next ((s.xferStep k x).reduceBlock ecc x.part (bits e 44 37) (xferBlock s x x.blk)) := by
  subst he
  simp [execReduce, hx, hkind, hrole, hred, hup, hfree, hroom, next]

/-- Settles O33: a delivered block has its effect (`atDest_of_delivered`), and one without a job or an entry is counted or a fault (`atDest_of_unloaded`, `atDest_of_no_entry`). -/
theorem scheduledBlocksAtDestination : Obligations.ScheduledBlocksAtDestination := by
  unfold Obligations.ScheduledBlocksAtDestination
  refine ⟨fun s s' q p b e ecc => ⟨fun h => ?_, fun h => ?_, fun h => ?_, fun h => ?_, fun h => ?_, fun h => ?_⟩,
    fun s k x e ecc hx hkind he hrole hred hup hfree hroom => ?_, fun s s2 q p b a n short ecc hlen => ⟨fun hin hw => ?_, fun hout => ?_⟩,
    fun s q p b route n r ecc hr hdev hsome hmax hst hn hin => ?_, fun s q p b off a z set hrange hoff => ?_,
    fun s s' q p b tt ecc c hc hhead howner => ⟨fun hloaded => ?_, fun hloaded hentry => ?_⟩⟩
  · exact (exec_write q ecc s).trans (atDest_of_delivered h)
  · exact (exec_readRequest q ecc s).trans (atDest_of_delivered h)
  · exact (exec_readResponse q s).trans (atDest_of_delivered h)
  · exact (exec_mordantAdd q s).trans (atDest_of_delivered h)
  · exact (exec_mordantSet q s).trans (atDest_of_delivered h)
  · exact (exec_reduce (.port q) ecc s).trans (atDest_of_delivered h)
  · exact (exec_reduce (.own k) ecc s).trans (execReduce_of_own ecc hx hkind he hrole hred hup hfree hroom)
  · exact State.blockWrite_of_writable hlen q hin hw
  · rw [State.blockWrite_of_outside hlen ecc q hout]
    exact s.faultPort_records p q
  · exact State.respond_starts ecc q route hr hdev hsome hmax hst (hn ▸ hin)
  · exact State.remoteMor_of_range q b set hrange hoff
  · obtain ⟨f, hexec⟩ := exec_atDest hc s
    exact hexec.trans (atDest_of_unloaded hhead howner hloaded)
  · obtain ⟨f, hexec⟩ := exec_atDest hc s
    exact ⟨_, hexec.trans (atDest_of_no_entry hhead howner hloaded hentry), s'.faultPort_records p q⟩

end Sys2Proof.Machine
end

section
/-!
SUPPORT. Requests of the host: their admission, their way into the mesh, and what a request that gets through does (R29, R513 to R519).
-/
namespace Sys2Proof.Machine

/-! ### Admission -/

theorem hostRequest_of_served {s : State} {f : Pf} {p : Part} (hlink : s.linkUp = true) (hserve : s.admission f = .serve p) (posted : Bool) (act : Part → State → State) :
    hostRequest f posted act s = .next (act p s) := by
  simp only [hostRequest, hlink, hserve, Bool.not_true, Bool.false_eq_true, if_false, next]

theorem pfPart_eq_some : ∀ {f : Pf} {p : Part}, pfPart f = some p ↔ f.val = p.val + 1 := by
  decide

/-- A request is served for the function of an enabled partition in D0, unless the device is parked deeper than the host port (R513, R518, R520). -/
theorem State.admission_serve {s : State} {f : Pf} {p : Part} :
    s.admission f = .serve p ↔ f.val = p.val + 1 ∧ (s.fn f).d3 = false ∧ (s.rangeOf p).isSome = true ∧ s.powerState < 3 := by
  rw [← pfPart_eq_some, State.admission]
  cases hpart : pfPart f with
  | none => simp
  | some q =>
    have hoff : ((s.fn f).d3 || (s.rangeOf q).isNone) = false ↔ (s.fn f).d3 = false ∧ (s.rangeOf q).isSome = true := by
      cases s.rangeOf q <;> simp
    constructor
    · intro h
      dsimp only at h
      split at h
      · cases h
      · next hon =>
        split at h
        · cases h
        · next hpower =>
          cases h
          obtain ⟨hd3, hrange⟩ := hoff.1 (Bool.eq_false_iff.2 hon)
          exact ⟨rfl, hd3, hrange, Nat.not_le.1 hpower⟩
    · rintro ⟨h, hd3, hrange, hpower⟩
      cases h
      simp only [hoff.2 ⟨hd3, hrange⟩, Bool.false_eq_true, if_false, Nat.not_le.2 hpower]

/-! ### The way into the mesh -/

section
variable {s : State} {f : Pf} {p : Part} {off n : Nat} {runs : List (Nat × Nat)} {posted : Bool} (hcut : cutWindows (s.apertureWindows p) off n = some runs)
  (hopen : ∀ r ∈ runs, s.runClosed r = false) (hwest : s.parked .west = false) (hdie : s.pwr.dieUp = true) (hmaint : s.maintenance = false)
  (hway : ∀ r ∈ runs, ∀ c ∈ s.hostWay r.1 r.2 !posted, s.blocked c = false)
include hcut hopen hwest hdie hmaint hway

/-- An access to the memory aperture that nothing refuses or holds back takes place. -/
theorem State.onAperture_of_open (req : HostReq) (act : List (Nat × Nat) → State → State) : s.onAperture f p off n posted req act = act runs s := by
  have hclosed : runs.any s.runClosed = false := List.any_eq_false.2 fun r hr => by simp [hopen r hr]
  have hblocked : (runs.flatMap fun r => s.hostWay r.1 r.2 !posted).any s.blocked = false := by
    refine List.any_eq_false.2 fun c hc => ?_
    obtain ⟨r, hr, hc⟩ := List.mem_flatMap.1 hc
    simp [hway r hr c hc]
  simp only [State.onAperture, hcut, hclosed, State.enterMesh, hwest, hdie, hblocked, hmaint, Bool.not_true, Bool.or_false, Bool.and_false, Bool.false_eq_true, if_false]

end

/-! ### The memory aperture -/

/-- What a read of the memory aperture does when it gets through: it reads run after run and completes in parts (R518). -/
def State.readAperture (f : Pf) (off : Nat) (e : MemEcc) (runs : List (Nat × Nat)) (s : State) : State :=
  (s.readRuns e runs).2.complete f .done ((s.readRuns e runs).2.completions f off (s.readRuns e runs).1)

/-- What a write does: nothing of it is stored where a run meets a secured block (R188, R518). -/
def State.writeAperture (f : Pf) (data : List Byte) (ep : Bool) (e : MemEcc) (runs : List (Nat × Nat)) (s : State) : State :=
  if runs.any fun r => s.forbids r.1 r.2 then s.logRefused f else s.writeRuns e runs (data.map fun b => ⟨b, ep⟩)

/-- An access of a length within the function's half of BAR2 passes the bounds of its command. -/
theorem State.barHalf_bounds {s : State} {f : Pf} {m : Nat} {empty : Prop} [Decidable empty] (hn : m ≤ s.barHalf f) (h0 : ¬ empty) :
    ¬ (decide (s.barHalf f < m) || decide empty) = true := by
  simp [hn, h0]

theorem exec_bar2MemoryRead_request {s : State} {f : Pf} {off n : Nat} (e : MemEcc) (hn : off + n ≤ s.barHalf f) (h0 : n ≠ 0) :
    exec (.bar2MemoryRead f off n e) s = hostRequest f false (fun p u => u.onAperture f p off n false (.read off n e) (State.readAperture f off e)) s :=
  (exec_bar2MemoryRead f off n e s).trans (if_neg (State.barHalf_bounds hn h0))

theorem exec_bar2MemoryWrite_request {s : State} {f : Pf} {off : Nat} {data : List Byte} (ep : Bool) (e : MemEcc) (hn : off + data.length ≤ s.barHalf f) (h0 : data ≠ []) :
    exec (.bar2MemoryWrite f off data ep e) s =
      hostRequest f true (fun p u => u.onAperture f p off data.length true (.write off data ep e) (State.writeAperture f data ep e)) s :=
  (exec_bar2MemoryWrite f off data ep e s).trans (if_neg (State.barHalf_bounds hn h0))

/-! ### Atomic operations -/

/-- What an atomic operation does when it gets through: one read, and one write of a new value unless the old one is poisoned (R518). -/
def State.atomicAperture (f : Pf) (n : Nat) (e : MemEcc) (g : Nat → Nat) (runs : List (Nat × Nat)) (s : State) : State :=
  if runs.any fun r => s.forbids r.1 r.2 then s.abort f false
  else
    let r := s.readRuns e runs
    let u := r.2.complete f .done [(rawBytes r.1, anyPoison r.1)]
    if anyPoison r.1 then u else u.writeRuns noFindings runs (clean (leBytes n (g (leP r.1))))

/-- Each of the three atomic operations of R518 is one read and one write of its own function of the old value. -/
theorem exec_atomicOp {f : Pf} {off : Nat} {wide : Bool} {v c : W64} {e : MemEcc} {g : Nat → Nat} {i : Instr}
    (h : i = .atomicopFetchadd f off wide v e ∧ g = (fun x => x + v.toNat) ∨ i = .atomicopSwap f off wide v e ∧ g = (fun _ => v.toNat) ∨
      i = .atomicopCas f off wide c v e ∧ g = (fun x => if x = c.toNat % (if wide then 2 ^ 64 else 2 ^ 32) then v.toNat else x)) (s : State) :
    ∃ req, exec i s = atomicOp f off wide e req g s := by
  obtain ⟨rfl, rfl⟩ | ⟨rfl, rfl⟩ | ⟨rfl, rfl⟩ := h
  · exact ⟨_, exec_atomicopFetchadd f off wide v e s⟩
  · exact ⟨_, exec_atomicopSwap f off wide v e s⟩
  · exact ⟨_, exec_atomicopCas f off wide c v e s⟩

theorem atomicOp_of_served {s : State} {f : Pf} {p : Part} {off n : Nat} {wide : Bool} (hsize : n = if wide then 8 else 4) (hn : off + n ≤ s.barHalf f) (hlink : s.linkUp = true)
    (hserve : s.admission f = .serve p) (e : MemEcc) (req : HostReq) (g : Nat → Nat) :
    atomicOp f off wide e req g s = .next (if off % n ≠ 0 then s.unsupported f false else s.onAperture f p off n false req (State.atomicAperture f n e g)) := by
  subst hsize
  exact (if_neg (Nat.not_lt.2 hn)).trans (hostRequest_of_served hlink hserve _ _)

theorem State.atomicAperture_of_read {s u : State} {e : MemEcc} {runs : List (Nat × Nat)} {old : List PByte} (hread : s.readRuns e runs = (old, u)) (f : Pf) (n : Nat) (g : Nat → Nat) :
    s.atomicAperture f n e g runs = if runs.any fun r => s.forbids r.1 r.2 then s.abort f false
      else if anyPoison old then u.complete f .done [(rawBytes old, true)]
      else (u.complete f .done [(rawBytes old, false)]).writeRuns noFindings runs (clean (leBytes n (g (leP old)))) := by
  cases hpoison : anyPoison old <;> simp [State.atomicAperture, hread, hpoison]

/-! ### Doorbells -/

theorem State.doorbellAt_of_range {s : State} {p : Part} {o a z : Nat} (hrange : s.morRange p = some (a, z)) :
    s.doorbellAt p (8 * o) 8 = if o ≤ z - a then some (a + o) else none := by
  simp [State.doorbellAt, State.mordantAt, hrange]

theorem State.doorbellAt_of_size {size : Nat} (h : size ≠ 8) (s : State) (p : Part) (off : Nat) : s.doorbellAt p off size = none := by
  simp [State.doorbellAt, h]

/-- Settles O49: a request is admitted (`admission_serve`, `hostRequest_of_served`), gets through its aperture (`onAperture_of_open`), and then reads, writes or does its atomic operation. -/
theorem hostAccesses : Obligations.HostAccesses := by
  unfold Obligations.HostAccesses
  refine ⟨fun s f posted act hlink => ?_, fun s f p => State.admission_serve, fun s f posted towers way req act => rfl, fun s f p off n posted req act => rfl,
    fun s f off n e hlink hn h0 => ?_, fun s f off data ep e hlink hn h0 => ?_, fun s f p off n runs e hlink hserve hn h0 hcut hopen hwest hdie hmaint hway => ?_,
    fun s f p off data ep runs e hlink hserve hn h0 hcut hopen hwest hdie hmaint hway => ?_,
    fun s f p off n wide v c e runs u old g i hsize hn hlink hserve hi => ?_,
    fun s f p off n e hn h0 hlink hserve => ?_, fun s f p off data e hn h0 hlink hserve => ?_, fun s f p off size v hlink hserve => ?_, fun s f p off size hlink hserve => ?_,
    fun s p o a z size hrange => ⟨State.doorbellAt_of_range hrange, fun h => State.doorbellAt_of_size h s p _⟩, fun s u f p i t m c w hpart hon hw hu => ?_,
    fun s f p i hpart hen hreached => ?_⟩
  · simp only [hostRequest, hlink, Bool.not_true, Bool.false_eq_true, if_false]
    cases s.admission f <;> rfl
  · exact exec_bar2MemoryRead_request e hn h0
  · exact exec_bar2MemoryWrite_request ep e hn h0
  · have hserved := (exec_bar2MemoryRead_request e hn h0).trans (hostRequest_of_served hlink hserve _ _)
    exact ⟨_, _, rfl, hserved.trans (congrArg _ (State.onAperture_of_open (posted := false) hcut hopen hwest hdie hmaint hway _ _))⟩
  · have hserved := (exec_bar2MemoryWrite_request ep e hn h0).trans (hostRequest_of_served hlink hserve _ _)
    rw [hserved, State.onAperture_of_open (posted := true) hcut (fun r hr => (hopen r hr).1) hwest hdie hmaint hway, State.writeAperture, if_neg]
    simpa using fun a b hr => (hopen (a, b) hr).2
  · obtain ⟨req, hexec⟩ := exec_atomicOp hi s
    rw [hexec, atomicOp_of_served hsize hn hlink hserve]
    refine ⟨fun hodd => by rw [if_pos hodd], fun heven hcut hopen hwest hdie hmaint hway hread => ?_⟩
    rw [if_neg (not_not.2 heven), State.onAperture_of_open (posted := false) hcut hopen hwest hdie hmaint hway, State.atomicAperture_of_read hread]
  · rw [exec_imageApertureRead, execImageApertureRead, if_neg (State.barHalf_bounds hn h0), hostRequest_of_served hlink hserve]
    cases (s.sec p).epoch with
    | none => rfl
    | some i => exact congrArg _ (if_congr (by simp) rfl rfl)
  · rw [exec_imageApertureWrite, execImageApertureWrite, if_neg (State.barHalf_bounds hn h0), hostRequest_of_served hlink hserve]
    cases (s.sec p).restore with
    | none => rfl
    | some r => exact congrArg _ (if_congr (by simp) rfl rfl)
  · exact (exec_mordantDoorbellWrite f off size v s).trans (hostRequest_of_served hlink hserve _ _)
  · exact (exec_mordantDoorbellRead f off size s).trans (hostRequest_of_served hlink hserve _ _)
  · subst hu hw
    simp only [exec_watchArm, execWatchArm, hpart, hon, Bool.not_true, Bool.false_eq_true, if_false]
    exact (apply_ite Host.Outcome.next _ _ _).symm
  · simp only [exec_watchFire, execWatchFire, hpart, hen, hreached, Bool.and_self, if_true, next]

end Sys2Proof.Machine
end

section
/-!
SUPPORT. The ring instructions at issue: what the books of a station take in, and the checks that pass (R49, R76, R82, R193, R258 to R262).
-/
namespace Sys2Proof.Machine

/-! ### Issue with an effect on the station's books -/

section
variable {s : State} {st : St} {p : Part} {op : Nat} {w : W128} (h : s.readyFor st p op w = true) (body : State → Part → St → Entry → Chk)
include h

/-- What holds of the station with its books changed and the instruction in its queues, whatever its sequencer holds, holds of it after issue. -/
theorem issue_enqueue_holds (f : Station → Station) {post : Station → Prop} (hq : ∀ u, (f (s.stn st)).queue u = (s.stn st).queue u)
    (hs : (f (s.stn st)).sq = (s.stn st).sq) (hb : ∀ e : Entry, e.word = w → body s p st e = enqueue (s.modSt st f) st e)
    (hpost : ∀ y : Seqr, post { (f (s.stn st)).push (unitsFor w) ((s.stn st).entryFor w) with sq := y }) :
    ∃ t, issue op body s st = .next t ∧ IssuedAt s t st w ∧ post (t.stn st) := by
  obtain ⟨t, ht, hissued, y, hy⟩ := issue_enqueue h body f hq hs (hb _ rfl)
  exact ⟨t, ht, hissued, hy ▸ hpost y⟩

/-- An instruction that enters its queues and does nothing else is issued. -/
theorem issue_enqueue_plain (hb : ∀ e : Entry, e.word = w → body s p st e = enqueue s st e) :
    ∃ t, issue op body s st = .next t ∧ IssuedAt s t st w := by
  obtain ⟨t, ht, hissued, -⟩ := issue_enqueue h body (fun x => x) (fun _ => rfl) rfl (by rw [modSt_id]; exact hb _ rfl)
  exact ⟨t, ht, hissued⟩

end

/-- The books of a station are no part of its queues. -/
theorem Station.queue_books (x : Station) (b : Vector (Option VatBook) 32) (lv tv : List Nat) (tb : Vector (Option TileBook) 64) (u : UnitQ) :
    ({ x with books := b, localVats := lv, takeVats := tv, tbooks := tb } : Station).queue u = x.queue u := by
  rcases u with _ | (_ | _) | _ | _ | _ | _ | _ | _ | _ <;> rfl

/-! ### RING.FEED -/

/-- The book of its vat counts a RING.FEED as one more consumer; one with LOCAL = 1 marks the vat (R261). -/
def Station.bookFeed (w : W128) (b b' : VatBook) (x : Station) : Station :=
  { x.setBook (ringVat w) (some b') with localVats := if ringLocal w then setAdd x.localVats b.id else x.localVats }

theorem execRingFeed_issues {s : State} {st : St} {p : Part} {w : W128} {b b' : VatBook} (h : s.readyFor st p 0x20 w = true)
    (hmode : ringModeOk w = true) (hfmt : ringFmt w ≤ 7) (hrows : fld w 35 27 + fld w 47 36 ≤ 511) (hsplit : ringLanes w = 3 → (s.prt p).closed = true)
    (hhops : ∀ l, onLane w l = true → feedHops w l ≤ (s.prt p).hopsBound st l) (hbook : (s.stn st).book (ringVat w) = some b) (hin : b.outbound = false)
    (hsize : rowBytes (ringFmt w) (shapeK (s.stn st).arr.bkShape) ≤ b.size) (hcons : b.consumeFeed (ringLocal w) = some b') :
    ∃ t, execRingFeed st s = .next t ∧ IssuedAt s t st w ∧ (t.stn st).book (ringVat w) = some b' := by
  refine issue_enqueue_holds h _ (Station.bookFeed w b b') (post := fun x => x.book (ringVat w) = some b') (fun u => Station.queue_books _ _ _ _ _ u) rfl ?_ fun y => ?_
  · rintro e rfl
    refine (if_neg ?_).trans ?_
    · simpa [hmode, hfmt, hrows] using ⟨hsplit, hhops .cw, hhops .ccw⟩
    · delta Station.bookFeed
      cases hl : ringLocal e.word <;> simp [hbook, hin, Nat.not_lt.2 hsize, hl ▸ hcons, Station.setBook]
  · exact (Station.push_book _ _ _ _).trans (vget_vset_same _ _ _)

/-! ### RING.TAKE -/

/-- The book of its vat counts a RING.TAKE as one more producer, and the vat is one that takes (R193). -/
def Station.bookTake (w : W128) (b b' : VatBook) (x : Station) : Station :=
  { x.setBook (ringVat w) (some b') with takeVats := setAdd x.takeVats b.id }

theorem execRingTake_issues {s : State} {st : St} {p : Part} {w : W128} {b b' : VatBook} (h : s.readyFor st p 0x21 w = true)
    (hmode : ringModeOk w = true) (hfmt : ringFmt w ≤ 7) (hbook : (s.stn st).book (ringVat w) = some b) (hin : b.outbound = false)
    (hsize : rowBytes (ringFmt w) (shapeK (s.stn st).arr.bkShape) ≤ b.size) (hprod : b.produce .take = some b') :
    ∃ t, execRingTake st s = .next t ∧ IssuedAt s t st w ∧ (t.stn st).book (ringVat w) = some b' ∧ (t.stn st).takeVats = setAdd (s.stn st).takeVats b.id := by
  refine issue_enqueue_holds h _ (Station.bookTake w b b') (post := fun x => x.book (ringVat w) = some b' ∧ x.takeVats = setAdd (s.stn st).takeVats b.id)
    (fun u => Station.queue_books _ _ _ _ _ u) rfl ?_ fun y => ⟨?_, ?_⟩
  · rintro e rfl
    simp only [hbook, hmode, Nat.not_lt.2 hfmt, hin, Nat.not_lt.2 hsize, hprod, Bool.not_true, decide_false, Bool.or_false, Bool.false_eq_true, if_false]
    rfl
  · exact (Station.push_book _ _ _ _).trans (vget_vset_same _ _ _)
  · exact Station.push_takeVats _ _ _

/-! ### RING.ADD -/

section
variable {s : State} {st : St} {p : Part} {w : W128} (h : s.readyFor st p 0x22 w = true) (hshape : (s.stn st).arr.bkShape = 0) (hfmt : addFmt w = 1 ∨ addFmt w = 2)
  (hrows : addFmt w = 1 → addRm1 w % 2 = 1)
include h hshape hfmt hrows

/-- A RING.ADD that adds into no tile takes no lease. -/
theorem execRingAdd_issues_on_lane (hrole : addRole w < 2)
    (horigin : addRole w = 0 → addNoprod w = false ∧ fld w 22 18 ≠ 0 ∧ fld w 22 18 ≤ (s.prt p).hopsBound st (addLane w)) :
    ∃ t, execRingAdd st s = .next t ∧ IssuedAt s t st w := by
  have hnotile : addRole w ≠ 2 := Nat.ne_of_lt hrole
  refine issue_enqueue_plain h _ ?_
  rintro e rfl
  refine (if_neg ?_).trans ((if_neg ?_).trans (if_pos hnotile))
  · simp [hshape]; omega
  · simpa [and_assoc] using horigin

/-- A RING.ADD into a tile takes one pass of the tile's lease. -/
theorem execRingAdd_issues_into_tile {b : TileBook} (hrole : addRole w = 2) (hbook : vget (s.stn st).tbooks (addTile w) = some b) (hdrained : b.drained = false)
    (hbshape : b.shape = 0) (hbfmt : b.fmt = addFmt w) (hlease : b.lease ≠ some .mma) (hpasses : b.issued < b.passes) (hheight : fld w 31 23 + addRm1 w + 1 ≤ b.height) :
    ∃ t, execRingAdd st s = .next t ∧ IssuedAt s t st w ∧ vget (t.stn st).tbooks (addTile w) = some { b with issued := b.issued + 1, lease := some .ring } := by
  refine issue_enqueue_holds h _ (fun x => leaseTiles x (addTile w).val 1 .ring)
    (post := fun x => vget x.tbooks (addTile w) = some { b with issued := b.issued + 1, lease := some .ring }) (fun u => Station.queue_books _ _ _ _ _ u) rfl ?_ fun y => ?_
  · rintro e rfl
    refine (if_neg ?_).trans ((if_neg ?_).trans ((if_neg (not_not.2 hrole)).trans ?_))
    · simp [hshape, hrole]; omega
    · simp [hrole]
    · simp only [hbook]
      exact if_neg (by simp [hdrained, hbshape, hbfmt, hlease]; omega)
  · have htile : (fin (addTile w).val : Fin 64) = addTile w := Fin.ofNat_val_eq_self _
    refine (congrArg (vget · (addTile w)) (Station.push_tbooks _ _ _)).trans ?_
    simp only [leaseTiles, List.range_succ, List.range_zero, List.nil_append, List.foldl_cons, List.foldl_nil, Nat.add_zero, htile, vget_vmod_same, hbook, Option.map_some]

end

/-- Settles O8: each instruction's own checks pass (`execRingFeed_issues`, `execRingTake_issues`, `execRingAdd_issues_on_lane`, `execRingAdd_issues_into_tile`). -/
theorem ringInstructionsIssue : Obligations.RingInstructionsIssue := by
  unfold Obligations.RingInstructionsIssue
  refine ⟨fun s st p w b b' h hmode hfmt hrows hsplit hhops hbook hin hsize hcons => ?_, fun s st p w b b' h hmode hfmt hbook hin hsize hprod => ?_,
    fun s st p w h hshape hrole hfmt hrows horigin => ?_, fun s st p w b h hshape hrole hfmt hrows hbook hdrained hbshape hbfmt hlease hpasses hheight => ?_⟩
  · exact execRingFeed_issues h hmode hfmt hrows hsplit hhops hbook hin hsize hcons
  · exact execRingTake_issues h hmode hfmt hbook hin hsize hprod
  · exact execRingAdd_issues_on_lane h hshape hfmt hrows hrole horigin
  · exact execRingAdd_issues_into_tile h hshape hfmt hrows hrole hbook hdrained hbshape hbfmt hlease hpasses hheight

end Sys2Proof.Machine
end

section
/-!
SUPPORT. The events of a ring lane: a flit arrives, a credit travels back, a flit stands too long (R33, R34, R37, R40, R292).
-/
namespace Sys2Proof.Machine

@[simp] theorem Station.lane_modLane_same (x : Station) (l : Lane) (f : LaneSt → LaneSt) : (x.modLane l f).lane l = f (x.lane l) := by
  cases l <;> rfl

@[simp] theorem State.faultAt_stn (s : State) (st a : St) (cls detail loc2 pc : Nat) : (s.faultAt st cls detail loc2 pc).stn a = s.stn a :=
  congrArg (vget · a) (s.faultAt_stations st cls detail loc2 pc)

/-- A fault at a station leaves its record, charged to the partition that owns the station (R384). -/
theorem State.faultAt_records (s : State) (st : St) (cls detail loc2 pc : Nat) :
    Records s (s.faultAt st cls detail loc2 pc) (s.ownerOf st) cls detail (siteStation st loc2 pc) := s.raise_records _ _ _ _

section
variable {s : State} {st : St} {l : Lane} {e : FlitEcc} {f : Flit} {rest : List Flit} (hruns : ((s.stn st).lane l).stopped = false)
  (hroom : ((s.stn st).lane l).rxq.length < 96) (hcal : ∀ c ∈ s.clk.recal, c.1 < 18 → c.2 ≠ st.val) (hwire : ((s.stn st).lane l).wire = f :: rest)
include hruns hroom hcal hwire

/-- A lane that runs, has room and is not being recalibrated takes the flit on its wire: into the receive queue, or off the lane with its sideband (R34, R37). -/
theorem execRingFlitArrival_of_open : execRingFlitArrival st l e s = .next (if e.sbDead then
      (s.modSt st fun x => x.modLane l fun y => { y with wire := rest, stopped := true }).faultAt st 4 0x0402 (laneNo l) noPc
    else s.modSt st fun x => x.modLane l fun y =>
      { y with wire := rest, rxq := y.rxq ++ [⟨{ f with hops := f.hops - 1, data := poisonWords f.data e.dead }, false⟩] }) := by
  have hnorecal : (s.clk.recal.any fun c => decide (c.1 < 18) && decide (c.2 = st.val)) = false :=
    List.any_eq_false.2 fun c hc => by simpa using hcal c hc
  simp only [execRingFlitArrival, hruns, Nat.not_le.2 hroom, hnorecal, hwire, decide_false, Bool.or_false, Bool.false_eq_true, if_false, next]
  exact (apply_ite Host.Outcome.next _ _ _).symm

end

/-- Settles O9: arrivals by `execRingFlitArrival_of_open`; a credit and a head stall by their own checks. -/
theorem ringFlitsMove : Obligations.RingFlitsMove := by
  unfold Obligations.RingFlitsMove
  refine ⟨fun s st l e f rest hruns hroom hcal hwire hsb => ?_, fun s st l e f rest hruns hroom hcal hwire hsb => ?_, fun s st u l p hbound hbefore howed => ?_,
    fun s st l hrxq => ?_⟩
  · rw [exec_ringFlitArrival, execRingFlitArrival_of_open hruns hroom hcal hwire, if_neg (Bool.eq_false_iff.1 hsb)]
  · have harrive := (exec_ringFlitArrival st l e s).trans (execRingFlitArrival_of_open hruns hroom hcal hwire)
    rw [if_pos hsb] at harrive
    refine ⟨_, harrive, ?_, ?_, ?_, State.faultAt_records _ st 4 0x0402 (laneNo l) noPc⟩ <;> simp
  · simp only [exec_ringCreditReturn, execRingCreditReturn, hbound, hbefore, howed, if_false]
    rfl
  · have hstands : ((s.stn st).lane l).rxq.isEmpty = false := by simpa using hrxq
    simp only [exec_ringHeadStall, execRingHeadStall, hstands, Bool.false_eq_true, if_false]
    exact ⟨_, rfl, s.faultAt_stations _ _ _ _ _, s.faultAt_records _ _ _ _ _⟩

end Sys2Proof.Machine
end

section
/-!
SUPPORT. The ring instructions as they fire: which of them a lane's event takes up, and what it leaves (R38, R49 to R54, R219, R260 to R262).
-/
namespace Sys2Proof.Machine

/-! ### RING.FEED -/

section
variable {s : State} {st : St} {l : Lane} {p : Part} {op' : RingOp} {x' : Station} (hjob : s.jobAt st = some p)
include hjob

/-- The fired RING.FEED of the lane that was issued first goes on. -/
theorem execRingFeedFire_of_active {op : RingOp} (hop : activeOp (s.stn st) l 0x20 = some op) (hgo : feedGo st (s.jobCtx p) (s.stn st) op = .ok x' op') :
    execRingFeedFire st l s = .next (((s.modSt st fun _ => setOp x' op').flow st .cw).flow st .ccw) := by
  simp only [execRingFeedFire, hjob, hop, hgo, next]

/-- With none fired, the one that heads its queues fires. -/
theorem execRingFeedFire_of_head {e : Entry} (hnone : activeOp (s.stn st) l 0x20 = none) (hhead : ringHead (s.stn st) l 0x20 = some e)
    (hgo : feedGo st (s.jobCtx p) (popRing (s.stn st) e) (ringOp0 e) = .ok x' op') :
    execRingFeedFire st l s = .next (((s.modSt st fun _ => setOp x' op').flow st .cw).flow st .ccw) := by
  simp only [execRingFeedFire, hjob, hnone, hhead, hgo, next]

end

/-! ### RING.TAKE -/

/-- A RING.TAKE or RING.ADD whose tokens are there leaves its queues and is fired (R219, R220). -/
theorem openOp_of_ready {s : State} {st : St} {l : Lane} {op : Nat} {e : Entry} (hhead : ringHead (s.stn st) l op = some e) (hready : openReady (s.stn st) l e = true) :
    openOp s st l op = .next (s.modSt st fun x => { popRing x e with ringOps := (popRing x e).ringOps ++ [ringOp0 e] }) := by
  simp only [openOp, hhead, hready, if_true, next]

section
variable {s : State} {st : St} {l : Lane} {p : Part} (hjob : s.jobAt st = some p)
include hjob

/-- Without a fired RING.TAKE for the flit at the head of the lane, the next one of the queue may fire. -/
theorem execRingTakeFire_of_unclaimed (hnone : ∀ i f y, headFlit ((s.stn st).lane l) = some (i, f) → earliest (s.stn st) l f.tag = some y →
      (s.stn st).ringOps.find? (fun o => decide (o.e.seq = y.seq) && decide (opc y.word = 0x21)) = none) :
    execRingTakeFire st l s = openOp s st l 0x21 := by
  unfold execRingTakeFire
  cases hflit : headFlit ((s.stn st).lane l) with
  | none => simp only [hflit, hjob]
  | some h =>
    obtain ⟨i, f⟩ := h
    have hunclaimed : ((earliest (s.stn st) l f.tag).bind fun e => (s.stn st).ringOps.find? fun o => decide (o.e.seq = e.seq) && decide (opc e.word = 0x21)) = none :=
      Option.bind_eq_none_iff.2 fun y hy => hnone i f y hflit hy
    simp only [hflit, hjob, hunclaimed]

theorem execRingTakeFire_of_taker {i : Nat} {f : Flit} {e : Entry} {op op' : RingOp} {x' : Station} (hflit : headFlit ((s.stn st).lane l) = some (i, f))
    (he : earliest (s.stn st) l f.tag = some e) (htake : opc e.word = 0x21) (hop : (s.stn st).ringOps.find? (fun o => decide (o.e.seq = e.seq)) = some op)
    (hgo : takeGo l (s.stn st) op f = .ok x' op') :
    execRingTakeFire st l s = .next ((s.modSt st fun _ => setOp (x'.modLane l fun y => takeFlit y i f) op').flow st l) := by
  simp only [execRingTakeFire, hflit, hjob, he, htake, Option.bind_some, decide_true, Bool.and_true, hop, hgo, next]

/-! ### RING.ADD -/

/-- The first fired RING.ADD in order of issue that can go on, behind none of its TAG that holds flits, goes on. -/
theorem execRingAddFire_of_first {op op' : RingOp} {pre post : List RingOp} {x' : Station}
    (hops : (s.stn st).ringOps.filter (fun o => decide (opc o.e.word = 0x22) && onLane o.e.word l && !behindAdd (s.stn st) l o) = pre ++ op :: post)
    (hpre : ∀ o ∈ pre, addGo st l (s.stn st) o = .wait) (hgo : addGo st l (s.stn st) op = .ok x' op') :
    execRingAddFire st l s = .next ((s.modSt st fun _ => setAddOp x' op').flow st l) := by
  have hwait : (pre.findSome? fun o => addOut s st l o.e (addGo st l (s.stn st) o)) = none :=
    List.findSome?_eq_none_iff.2 fun o ho => by rw [hpre o ho]; rfl
  have hstep : addOut s st l op.e (addGo st l (s.stn st) op) = some (.next ((s.modSt st fun _ => setAddOp x' op').flow st l)) := by rw [hgo]; rfl
  simp only [execRingAddFire, hjob, Option.isNone_some, Bool.false_eq_true, if_false, hops, List.findSome?_append, hwait, List.findSome?_cons, hstep, Option.none_or]

/-- With every fired RING.ADD waiting, the lane looks at the flit at its head. -/
theorem execRingAddFire_of_waiting
    (hwait : ∀ o ∈ (s.stn st).ringOps, opc o.e.word = 0x22 → onLane o.e.word l = true → behindAdd (s.stn st) l o = false → addGo st l (s.stn st) o = .wait) :
    execRingAddFire st l s = (((addHead (s.stn st) l).bind fun h => addOut s st l h.1.e (addTake l (s.stn st) h.1 h.2.1 h.2.2)).getD (openOp s st l 0x22)) := by
  have hnone : (((s.stn st).ringOps.filter fun o => decide (opc o.e.word = 0x22) && onLane o.e.word l && !behindAdd (s.stn st) l o).findSome?
      fun o => addOut s st l o.e (addGo st l (s.stn st) o)) = none := by
    refine List.findSome?_eq_none_iff.2 fun o ho => ?_
    simp only [List.mem_filter, Bool.and_eq_true, decide_eq_true_eq, Bool.not_eq_true'] at ho
    obtain ⟨hmem, ⟨hopc, hlane⟩, hfree⟩ := ho
    rw [hwait o hmem hopc hlane hfree]
    rfl
  simp only [execRingAddFire, hjob, Option.isNone_some, Bool.false_eq_true, if_false, hnone]
  cases ((addHead (s.stn st) l).bind fun h => addOut s st l h.1.e (addTake l (s.stn st) h.1 h.2.1 h.2.2)) <;> rfl

end

/-- Settles O10: a RING.FEED goes on or fires (`execRingFeedFire_of_active`, `execRingFeedFire_of_head`); a flit goes to its RING.TAKE (`execRingTakeFire_of_taker`); the add stage goes before the
flit at the head (`execRingAddFire_of_first`, `execRingAddFire_of_waiting`), and that before the queue (`openOp_of_ready`). -/
theorem ringInstructionsFire : Obligations.RingInstructionsFire := by
  unfold Obligations.RingInstructionsFire
  refine ⟨fun s st l p e x' op' hjob hnone hhead hgo => ?_, fun s st l p op op' x' hjob hop hgo => ?_, fun s st l p e hjob hhead hready hnone => ?_,
    fun s st l p i f e op op' x' hjob hflit he htake hop hgo => ?_, fun s st l p op op' pre post x' hjob hops hpre hgo => ?_, fun s st l op bits hrole hbits => ?_,
    fun s st l p op op' i f x' hjob hwait hhead htake => ?_, fun s st l p e hjob hwait htake hhead hready => ?_⟩
  · exact (exec_ringFeedFire st l s).trans (execRingFeedFire_of_head hjob hnone hhead hgo)
  · exact (exec_ringFeedFire st l s).trans (execRingFeedFire_of_active hjob hop hgo)
  · exact (exec_ringTakeFire st l s).trans ((execRingTakeFire_of_unclaimed hjob hnone).trans (openOp_of_ready hhead hready))
  · exact (exec_ringTakeFire st l s).trans (execRingTakeFire_of_taker hjob hflit he htake hop hgo)
  · exact (exec_ringAddFire st l s).trans (execRingAddFire_of_first hjob hops hpre hgo)
  · simp only [addGo, hrole, if_true, addOrigin, hbits]
  · rw [exec_ringAddFire, execRingAddFire_of_waiting hjob hwait, hhead, Option.bind_some, htake]
    rfl
  · have hidle : ((addHead (s.stn st) l).bind fun h => addOut s st l h.1.e (addTake l (s.stn st) h.1 h.2.1 h.2.2)) = none :=
      Option.bind_eq_none_iff.2 fun h hh => by rw [htake h.1 h.2.1 h.2.2 hh]; rfl
    rw [exec_ringAddFire, execRingAddFire_of_waiting hjob hwait, hidle, Option.getD_none, openOp_of_ready hhead hready]

end Sys2Proof.Machine
end

section
/-!
SUPPORT. A product row from the column tree to its verdict, the end of its pass, and the merge path (R54, R62, R65, R82, R85, R107, R112, R114, R389, R393, R395, R396).
-/
namespace Sys2Proof.Machine

/-! ### A row leaves the tree -/

/-- No earlier pass into the tile runs, and the merge path has room. -/
theorem tileHeld_eq_false {a : ArrayUnit} {ti : Fin 64} {t : Tile} {r : FlightRow} (hpasses : ∀ q ∈ a.passes, q.tile = ti → q.seq < r.seq → q.ended = true)
    (hroom : t.mergeQ.length < 2) : tileHeld a ti t r = false := by
  have hended : (a.passes.any fun q => decide (q.tile = ti) && decide (q.seq < r.seq) && !q.ended) = false :=
    List.any_eq_false.2 fun q hq => by simpa using hpasses q hq
  simp only [tileHeld, hended, Nat.not_le.2 hroom, decide_false, Bool.or_false]

section
variable {s : State} {st : St} {i : Nat} {r0 : FlightRow} (err : Option ArrayError) (hi : (s.stn st).arr.flight.findIdx? (fun r => !r.left) = some i)
  (hr : (s.stn st).arr.flight[i]? = some r0)
include hi hr

/-- A voided row is dropped. -/
theorem execProductRowLeavesTree_of_void (hvoid : r0.void = true) :
    execProductRowLeavesTree st err s = .next (s.modSt st fun x => x.modArr fun a => { a with flight := a.flight.eraseIdx i }) := by
  simp only [execProductRowLeavesTree, hi, hr, hvoid, if_true]
  rfl

variable (hvoid : r0.void = false)
include hvoid

/-- A row without a tile goes to the add stages of both lanes (R53). -/
theorem execProductRowLeavesTree_of_untiled (htile : r0.tile = none) (hcw : (s.stn st).cw.adds.length < 32) (hccw : (s.stn st).ccw.adds.length < 32) :
    ∃ f : Station → ArrayUnit → ArrayUnit, execProductRowLeavesTree st err s =
      .next (s.modSt st fun x => (toAddStage x { r0 with err := err.getD ArrayError.none }).modArr (f x)) := by
  simp only [execProductRowLeavesTree, hi, hr, hvoid, htile, Nat.not_le.2 hcw, Nat.not_le.2 hccw, decide_false, Bool.or_false, Bool.false_eq_true, if_false]
  exact ⟨_, rfl⟩

variable {ti : Fin 64} {tl : Tile} (htile : r0.tile = some ti) (htl : vget (s.stn st).tiles ti = some tl)
include htile htl

/-- A row of FP32 operands stays in the combine stage (R393). -/
theorem execProductRowLeavesTree_of_held (hheld : r0.held = true) : execProductRowLeavesTree st err s = .next (s.modSt st fun x => x.modArr fun a =>
    { a with flight := a.flight.set i { r0 with err := err.getD ArrayError.none, left := true } }) := by
  have hrow : ({ r0 with err := err.getD ArrayError.none } : FlightRow).held = true := hheld
  simp only [hvoid, htile] at hrow
  simp only [execProductRowLeavesTree, hi, hr, hvoid, htile, htl, hrow, Bool.false_eq_true, if_true, if_false]
  rfl

/-- A row whose tile takes it enters the tile. -/
theorem execProductRowLeavesTree_of_tile {r : FlightRow} (hrow : r = { r0 with err := err.getD ArrayError.none }) (hheld : r0.held = false)
    (hfree : tileHeld (s.stn st).arr ti tl r = false) (hclean : tilePoisonIn tl (r.row * shapeN (s.stn st).arr.shape) r.n = false) :
    ∃ f, execProductRowLeavesTree st err s = .next (s.modSt st fun _ => (rowToTile (s.stn st) ti tl r (s.stn st).arr.shape).1.modArr f) := by
  subst hrow
  have hnot : ({ r0 with err := err.getD ArrayError.none } : FlightRow).held = false := hheld
  simp only [hvoid, htile] at hnot hfree
  simp only [execProductRowLeavesTree, hi, hr, hvoid, htile, htl, hnot, hfree, hclean, Bool.false_eq_true, if_false]
  exact ⟨_, rfl⟩

end

/-! ### A pass ends -/

theorem execKPassEnd_of_last {s : State} {st : St} {q : PassRec} {tl : Tile} (hq : (s.stn st).arr.passes.find? (fun p => decide (p.remaining = 0) && !p.ended) = some q)
    (htl : vget (s.stn st).tiles q.tile = some tl) :
    ∃ f, execKPassEnd st s = .next (s.modSt st fun x => (setTile x q.tile (tl.passEnds q.seq)).modArr f) := by
  simp only [execKPassEnd, hq, htl]
  exact ⟨_, rfl⟩

/-! ### The merge path -/

section
variable {s : State} {st : St} {ti : Fin 64} {tl : Tile} {r : MergeRec} {rest : List MergeRec} {fa : Fmt} (htl : vget (s.stn st).tiles ti = some tl)
  (hq : tl.mergeQ = r :: rest) (hfa : Fmt.ofCode tl.bk.fmt = some fa)
  (hdone : ∀ f ∈ (s.stn st).arr.flight ++ (s.stn st).arr.refeed, f.seq = r.seq → f.tile = some ti → f.void = true)
include hdone

/-- No row of the pass awaits its verdict, in the pipeline or to be fed again. -/
theorem no_row_pending : ∀ l, (l = (s.stn st).arr.flight ∨ l = (s.stn st).arr.refeed) →
    (l.any fun f => decide (f.seq = r.seq) && decide (f.tile = some ti) && !f.void) = false := by
  rintro l hl
  refine List.any_eq_false.2 fun f hf => ?_
  simpa using hdone f (by obtain rfl | rfl := hl <;> simp [hf])

include htl hq hfa

/-- A result that holds poison is a fault (R411). -/
theorem execMergeComplete_of_poison (hpoison : r.poison ≠ []) : execMergeComplete st ti s = .next (s.faultPoison st noLoc2 noPc) := by
  simp only [execMergeComplete, htl, hq, hfa, no_row_pending hdone _ (.inl rfl), no_row_pending hdone _ (.inr rfl), hpoison, Bool.or_false, Bool.false_eq_true, if_false,
    ne_eq, not_false_eq_true, if_true, next]

/-- A clean result goes into the carry stack or the spill of its tile, in the partition's spill area (R81). -/
theorem execMergeComplete_of_clean {p : Part} {o : Station × Tile × Fl × Bool} (hjob : s.jobAt st = some p) (hclean : r.poison = [])
    (ho : o = (if tl.bk.faithful then carryPass (s.stn st) tl fa r (spillBase (s.prt p) + tl.bk.spoff * 4096)
      else spill (s.stn st) tl fa r (spillBase (s.prt p) + tl.bk.spoff * 4096))) (hstored : o.2.2.2 = false) :
    execMergeComplete st ti s = .next (s.modSt st fun _ =>
      (setTile o.1 ti ({ o.2.1 with mergeQ := rest, merged := tl.merged + 1 }.flag o.2.2.1)).flag o.2.2.1) := by
  simp only [execMergeComplete, htl, hq, hfa, no_row_pending hdone _ (.inl rfl), no_row_pending hdone _ (.inr rfl), hclean, hjob, ← ho, hstored, Bool.or_false,
    Bool.false_eq_true, if_false, ne_eq, not_true_eq_false, next]

end

/-! ### The verdict -/

section
variable {s : State} {st : St} {r : FlightRow} {rest : List FlightRow} {m : MmaRec} (hflight : (s.stn st).arr.flight = r :: rest) (hleft : r.left = true)
  (hvoid : r.void = false) (hm : (s.stn st).arr.mmas.find? (fun m => decide (m.e.seq = r.seq)) = some m)
include hflight hleft hvoid hm

/-- A row whose every band clears leaves the pipeline, counted once if a band went without a comparison (R110, R389). -/
theorem execWitnessVerdict_of_clear {o : Station × FlightRow} {s' : State} (hall : ∀ v ∈ rowVerdicts r (s.stn st).arr.shape, v.1 = true)
    (ho : enterTile (s.stn st) r = some o) (hclean : enterPoison (s.stn st) r = false)
    (hs' : s' = (if (rowVerdicts r (s.stn st).arr.shape).any (·.2) then s.count 0x9011 (st.val + 1) 1 else s)) :
    execWitnessVerdict st s = .next ((if r.again then s'.maskedMismatch st else s').modSt st fun _ => clearRow o.1 o.2) := by
  have hclear : (rowVerdicts r (s.stn st).arr.shape).all (·.1) = true := List.all_eq_true.2 hall
  subst hs'
  simp only [execWitnessVerdict, hflight, hleft, hvoid, hm, hclear, ho, hclean, Bool.not_true, Bool.or_false, Bool.false_eq_true, if_true, if_false, next]

/-- A mismatch retries the pass; on a row that was fed again, or after the pass's one retry, it is a fault (R395, R396). -/
theorem execWitnessVerdict_of_mismatch (hmiss : ∃ v ∈ rowVerdicts r (s.stn st).arr.shape, v.1 = false) : execWitnessVerdict st s =
    .next (if (if r.tile = none then r.again else m.retried || r.rerun) then s.faultAt st 2 0x0200 noLoc2 r.pc else s.modSt st fun x => retry x r) := by
  have hfail : (rowVerdicts r (s.stn st).arr.shape).all (·.1) = false := by simpa [List.all_eq_false] using hmiss
  simp only [execWitnessVerdict, hflight, hleft, hvoid, hm, hfail, Bool.not_true, Bool.or_false, Bool.false_eq_true, if_false, next]
  exact (apply_ite Host.Outcome.next _ _ _).symm

end

/-- Settles O13: where a row goes (`execProductRowLeavesTree_of_tile` and its companions), the end of its pass (`execKPassEnd_of_last`), the merge path (`execMergeComplete_of_clean`), and
the row's verdict (`execWitnessVerdict_of_clear`, `execWitnessVerdict_of_mismatch`). -/
theorem productRowsPassesAndVerdicts : Obligations.ProductRowsPassesAndVerdicts := by
  unfold Obligations.ProductRowsPassesAndVerdicts
  refine ⟨fun s st err i r hi hr hvoid => ?_, fun s st err i r0 r hi hr hvoid htile hrow hcw hccw => ?_,
    fun s st err i r0 r ti tl hi hr hvoid htile htl hrow hheld hpasses hroom hclean => ?_, fun s st err i r0 ti hi hr hvoid htile htl hfx => ?_,
    fun s st q tl hq htl => ?_, fun s st p ti tl r rest fa o hjob htl hq hfa hdone hclean ho hstored => ?_, fun s st ti tl r rest fa htl hq hfa hdone hpoison => ?_,
    fun s s' st r rest m o hflight hleft hvoid hm => ⟨fun hall ho hclean hs' => ?_, fun hmiss hfirst hnew => ?_, fun hmiss hagain hsecond => ?_⟩⟩
  · exact (exec_productRowLeavesTree st err s).trans (execProductRowLeavesTree_of_void err hi hr hvoid)
  · obtain ⟨f, hexec⟩ := execProductRowLeavesTree_of_untiled err hi hr hvoid htile hcw hccw
    subst hrow
    refine ⟨_, (exec_productRowLeavesTree st err s).trans hexec, rfl, ?_, ?_, fun a ha => s.stn_modSt_other st a _ ha⟩ <;> rw [State.stn_modSt_same] <;> rfl
  · obtain ⟨f, hexec⟩ := execProductRowLeavesTree_of_tile err hi hr hvoid htile htl hrow hheld (tileHeld_eq_false hpasses hroom) hclean
    refine ⟨_, (exec_productRowLeavesTree st err s).trans hexec, rfl, ?_, fun a ha => s.stn_modSt_other st a _ ha⟩
    rw [State.stn_modSt_same]
    rfl
  · obtain ⟨tl, htl⟩ := Option.ne_none_iff_exists'.1 htl
    have hheld : r0.held = true := by simp [FlightRow.held, hfx, htile]
    exact (exec_productRowLeavesTree st err s).trans (execProductRowLeavesTree_of_held err hi hr hvoid htile htl hheld)
  · obtain ⟨f, hexec⟩ := execKPassEnd_of_last hq htl
    refine ⟨_, (exec_kPassEnd st s).trans hexec, rfl, ?_, fun a ha => s.stn_modSt_other st a _ ha⟩
    rw [State.stn_modSt_same]
    exact vget_vset_same _ _ _
  · exact (exec_mergeComplete st ti s).trans (execMergeComplete_of_clean htl hq hfa hdone hjob hclean ho hstored)
  · exact ⟨_, (exec_mergeComplete st ti s).trans (execMergeComplete_of_poison htl hq hfa hdone hpoison), (State.faultPoison_only s st noLoc2 noPc).stations,
      s.raise_records _ _ _ _⟩
  · exact (exec_witnessVerdict st s).trans (execWitnessVerdict_of_clear hflight hleft hvoid hm hall ho hclean hs')
  · rw [exec_witnessVerdict, execWitnessVerdict_of_mismatch hflight hleft hvoid hm hmiss, if_neg]
    split
    · next htile => simp [hfirst htile]
    · next htile => simp [hnew htile]
  · have hexec := (exec_witnessVerdict st s).trans (execWitnessVerdict_of_mismatch hflight hleft hvoid hm hmiss)
    rw [if_pos] at hexec
    · exact ⟨_, hexec, s.faultAt_stations _ _ _ _ _, s.raise_records _ _ _ _⟩
    · split
      · next htile => exact hagain htile
      · next htile => simpa using hsecond htile

end Sys2Proof.Machine
end

section
/-!
SUPPORT. The reset kinds (R43, R487, R488, R490, R498 to R500, R507, R543): what a command of the dictionary answers, what the end of a beat keeps, and what a restart of the steward may touch.
-/
namespace Sys2Proof.Machine

/-! ### Commands of the dictionary -/

/-- A write that is accepted is answered with the status of its row, whose effect follows the answer (R477, R550). -/
theorem command_of_accepts {s : State} {via : Via} {idx sub : Nat} {data : List Byte} (h : s.accepts via idx sub data = true) (act : State → Nat × (State → State)) :
    command via idx sub data act s = .next ((act s).2 (s.answered via idx sub data (act s).1)) := by
  simp only [State.accepts, State.acceptsReq, State.serves, Bool.and_eq_true, Option.isNone_iff_eq_none, Bool.not_eq_true', decide_eq_true_eq] at h
  obtain ⟨⟨⟨⟨hanswers, hasks⟩, hkept⟩, hmode⟩, hstatus⟩ := h
  simp only [command, serve, hanswers, hasks, hkept, hmode, hstatus, Bool.not_true, Bool.or_self, Bool.false_eq_true, if_false, ne_eq, not_true_eq_false, next, State.answered]

/-- A command that a condition refuses is answered 05h and shows 01h; else it is done. -/
theorem command_of_refusable {s : State} {via : Via} {idx sub : Nat} {data : List Byte} (h : s.accepts via idx sub data = true) (c : State → Prop) [DecidablePred c] (f : State → State) :
    command via idx sub data (fun s => if c s then refused idx sub else (0, f)) s =
      .next (if c s then (s.answered via idx sub data 5).setReg idx sub 1 else f (s.answered via idx sub data 0)) := by
  rw [command_of_accepts h]
  split <;> rfl

/-! ### What the end of a beat leaves of the firmware slots -/

theorem foldl_keeps {α β : Type} (k : State → β) {f : State → α → State} (hf : ∀ s a, k (f s a) = k s) (l : List α) (s : State) : k (l.foldl f s) = k s :=
  List.foldlRecOn (motive := fun t => k t = k s) l f rfl fun t ht a _ => (hf t a).trans ht

theorem State.vector_stw (s : State) (f : Pf) (v : Nat) : (s.vector f v).stw = s.stw := by
  unfold State.vector
  split <;> rfl

theorem State.notifyFn_stw (s : State) (i b : Nat) (v : List Byte) (f : Pf) : (s.notifyFn i b v f).stw = s.stw := by
  unfold State.notifyFn
  split
  · rfl
  · dsimp only
    split
    · rfl
    · exact State.vector_stw _ _ _

theorem State.notify_fw (s : State) (i b : Nat) (v : List Byte) : (s.notify i b v).stw.fw = s.stw.fw := by
  have hfns : ((List.finRange 5).foldl (fun u f => State.notifyFn u i b v f) s).stw.fw = s.stw.fw :=
    foldl_keeps (fun u => u.stw.fw) (fun u f => congrArg Steward.fw (u.notifyFn_stw i b v f)) _ s
  unfold State.notify
  split
  · rfl
  · dsimp only
    split <;> exact hfns

theorem State.record_fw (s : State) (r : FaultRec) : (s.record r).stw.fw = s.stw.fw := by
  unfold State.record
  split
  · exact State.notify_fw _ _ _ _
  · split <;> rfl

theorem State.dropFetches_fw (s : State) (l : List St) : (s.dropFetches l).stw.fw = s.stw.fw := by
  simp only [State.dropFetches]
  exact foldl_keeps (f := fun (s : State) (f : Fetch) => s.count 0x9040 (f.st.val + 1)) (fun u => u.stw.fw) (fun _ _ => rfl) _ s

theorem State.endJob_fw (s : State) (p : Part) (v : Byte) : (s.endJob p v).stw.fw = s.stw.fw := by
  have hstop : ((s.prt p).pos.foldl (fun u st => State.modSt u st Station.jobEnd) s).stw.fw = s.stw.fw :=
    foldl_keeps (f := fun (u : State) (st : St) => u.modSt st Station.jobEnd) (fun u => u.stw.fw) (fun _ _ => rfl) _ s
  simp only [State.endJob]
  exact (State.notify_fw _ _ _ _).trans ((State.dropFetches_fw _ _).trans hstop)

theorem State.writeRec_fw (s : State) (r : FaultRec) : (s.writeRec r).stw.fw = s.stw.fw := by
  unfold State.writeRec
  split
  · dsimp only
    generalize hu : (s.modPart r.part _).record r = u
    have hrec : u.stw.fw = s.stw.fw := hu ▸ State.record_fw _ _
    exact (State.endJob_fw u r.part 6).trans hrec
  · exact State.record_fw _ _

theorem State.beatEnd_fw (s : State) : s.beatEnd.stw.fw = s.stw.fw :=
  foldl_keeps (fun u => u.stw.fw) State.writeRec_fw _ _

/-! ### What shows in registers alone -/

/-- `t` differs from `s` at most in the dictionary's registers. -/
def DictOnly (s t : State) : Prop := t = { s with dict := t.dict }

theorem DictOnly.trans {s t u : State} (h : DictOnly s t) (k : DictOnly t u) : DictOnly s u := by
  unfold DictOnly at *
  rw [h] at k
  exact k

theorem State.setPortState_only (s : State) (q : PortId) (v : Nat) : DictOnly s (s.setPortState q v) := by
  unfold State.setPortState
  dsimp only
  split
  · rfl
  · split <;> rfl

/-- Ports that are retired show so in their registers (R500). -/
theorem State.showRetired_only (s : State) : DictOnly s s.showRetired := by
  refine List.foldlRecOn (motive := DictOnly s) _ _ rfl fun t ht q _ => ht.trans ?_
  split
  · rfl
  · exact State.setPortState_only _ _ _

/-! ### What a restart of the steward may touch -/

/-- `t` differs from `s` at most in what a restart of the steward changes: the steward, its rings and outputs, registers, port logic and the alert line. -/
def RestartOnly (s t : State) : Prop := t = { s with host := t.host, out := t.out, stw := t.stw, dict := t.dict, ports := t.ports, pwr := t.pwr }

theorem RestartOnly.trans {s t u : State} (h : RestartOnly s t) (k : RestartOnly t u) : RestartOnly s u := by
  unfold RestartOnly at *
  rw [h] at k
  exact k

theorem RestartOnly.foldl {α : Type} {f : State → α → State} (h : ∀ s a, RestartOnly s (f s a)) (l : List α) (s : State) : RestartOnly s (l.foldl f s) :=
  List.foldlRecOn (motive := RestartOnly s) l f rfl fun t ht a _ => ht.trans (h t a)

theorem RestartOnly.ite {c : Prop} [Decidable c] {s t u : State} (h : RestartOnly s t) (k : RestartOnly s u) : RestartOnly s (if c then t else u) := by
  split <;> assumption

theorem RestartOnly.stations {s t : State} (h : RestartOnly s t) : t.stations = s.stations := (congrArg State.stations h :)
theorem RestartOnly.mordants {s t : State} (h : RestartOnly s t) : t.mordants = s.mordants := (congrArg State.mordants h :)

theorem DictOnly.restart {s t : State} (h : DictOnly s t) : RestartOnly s t := by
  unfold DictOnly at h; unfold RestartOnly; rw [h]

theorem OutOnly.restart {s t : State} (h : OutOnly s t) : RestartOnly s t := by
  unfold OutOnly at h; unfold RestartOnly; rw [h]

theorem State.setReg_restart (s : State) (i b v : Nat) : RestartOnly s (s.setReg i b v) := rfl

theorem State.alertFrom_restart (old s : State) : RestartOnly s (State.alertFrom old s) := RestartOnly.ite rfl rfl

theorem State.setSteward_restart (s : State) (v : Nat) : RestartOnly s (s.setSteward v) := by
  have hset : RestartOnly s (State.alertFrom s (s.setReg 0x1030 0 v)) := (s.setReg_restart _ _ _).trans (State.alertFrom_restart _ _)
  exact RestartOnly.ite (hset.trans (State.notify_only _ _ _ _).restart) hset

theorem State.answerRestart_restart (s : State) (f : Pf) : RestartOnly s (s.answerRestart f) := by
  unfold State.answerRestart
  dsimp only
  split
  · rfl
  · exact (OutOnly.trans (State.modFn_only _ _ _) ((State.emit_only _ _).trans ((State.modFn_only _ _ _).trans (State.vector_only _ _ _)))).restart

theorem State.holdPort_restart (s : State) (q : PortId) : RestartOnly s (s.holdPort q) := by
  unfold State.holdPort
  dsimp only
  split
  · rfl
  · exact RestartOnly.trans (t := s.modPort q Port.clear) rfl (State.setPortState_only _ _ _).restart

/-- The management cores restart (R455 to R457). -/
theorem State.restartSteward_restart (s : State) : RestartOnly s s.restartSteward := by
  unfold State.restartSteward
  dsimp only
  refine RestartOnly.trans ?_ (State.setSteward_restart _ _)
  refine RestartOnly.trans ?_ (State.modStw_only _ _).restart
  exact (RestartOnly.foldl State.answerRestart_restart _ s).trans (RestartOnly.foldl State.holdPort_restart _ _)

/-! ### Cold -/

/-- A partition whose job is gone, whatever of its clean points it keeps. -/
theorem jobState_of_reset {v : Vector Partition 4} (f : Partition → Secure) (p : Part) : (vget (v.map fun x => { Partition.reset with sec := f x }) p).jobState = 0 := by
  simp [vget, Partition.reset]

/-- The state that a cold reset begins in: what it empties, and what its own non-volatile memory holds (R487, R498, R499). -/
structure ColdFrom (s : State) (c : Nat) (h : Bool) (t : State) : Prop where
  mem : t.mem = []
  poison : t.poison = []
  stashPoison : t.stashPoison = []
  mordants : t.mordants = []
  time : t.time = 0
  faults : t.faults = s.beatEnd.faults
  seqNext : t.seqNext = s.beatEnd.seqNext
  saved : t.saved = s.beatEnd.saved
  cause : t.pwr.cause = c
  held : t.pwr.stwHeld = h
  fw : t.stw.fw = s.stw.fw
  jobs : ∀ p, (t.prt p).jobState = 0
  stations : ∀ st, t.stn st = Station.reset

theorem ColdFrom.of_dictOnly {s t u : State} {c : Nat} {h : Bool} (ht : ColdFrom s c h t) (k : DictOnly t u) : ColdFrom s c h u := by
  obtain ⟨hmem, hpoison, hstash, hmordants, htime, hfaults, hseq, hsaved, hcause, hheld, hfw, hjobs, hstations⟩ := ht
  unfold DictOnly at k
  rw [k]
  exact ⟨hmem, hpoison, hstash, hmordants, htime, hfaults, hseq, hsaved, hcause, hheld, hfw, hjobs, hstations⟩

/-- A cold reset begins in that state, with every port that is retired shown so. -/
theorem State.coldStart_cold (s : State) (c : Nat) (h : Bool) : ColdFrom s c h (s.coldStart c h) := by
  unfold State.coldStart
  dsimp only
  refine ColdFrom.of_dictOnly ?_ (State.showRetired_only _)
  exact ⟨rfl, rfl, rfl, rfl, rfl, rfl, rfl, rfl, rfl, rfl, s.beatEnd_fw, fun p => jobState_of_reset _ p, fun st => vget_replicate Station.reset st⟩

/-- A failing steward rail leads to OFF (R490, R543). -/
theorem execStewardRailFailure_of_on {s : State} (hon : s.pwr.off = false) :
    ∃ t, execStewardRailFailure s = .next t ∧ t.pwr.off = true ∧ t.time = s.time ∧ t.mem = [] ∧ t.mordants = [] ∧ t.faults = s.faults ∧
      t.faultLost = (s.faultLost || s.faultHold ≠ [] || s.beat ≠ []) ∧ ∀ r, vget t.pwr.en r = false ∧ vget t.pwr.pg r = false := by
  have hcold := State.coldStart_cold { s with beat := [] } 1 true
  unfold execStewardRailFailure
  rw [if_neg (Bool.eq_false_iff.1 hon)]
  generalize State.coldStart { s with beat := [] } 1 true = s' at hcold ⊢
  exact ⟨_, rfl, rfl, rfl, hcold.mem, hcold.mordants, hcold.faults, rfl, fun r => ⟨vget_replicate _ _, vget_replicate _ _⟩⟩

/-! ### Warm -/

/-- The compute die comes out of its reset with every station reset and no mordant. -/
theorem State.resetDie_cleared (s : State) : s.resetDie.stations = Vector.replicate 18 Station.reset ∧ s.resetDie.mordants = [] := by
  have hshow (u : State) : RestartOnly u ((List.range 18).foldl (fun s i => State.setReg s 0x4101 (i + 1) 0) u) :=
    RestartOnly.foldl (f := fun (u : State) (i : Nat) => u.setReg 0x4101 (i + 1) 0) (fun u i => u.setReg_restart 0x4101 (i + 1) 0) _ u
  unfold State.resetDie
  extract_lets up clk pwr down shown
  have hshown : RestartOnly down shown := hshow down
  clear_value shown
  exact ⟨hshown.stations.trans rfl, hshown.mordants.trans rfl⟩

/-- What a warm reset leaves of a device before its steward restarts (R487, R488). -/
structure WarmFrom (t : State) : Prop where
  time : t.time = 0
  mordants : t.mordants = []
  jobs : ∀ p, (t.prt p).jobState = 0
  stations : ∀ st, t.stn st = Station.reset

theorem WarmFrom.of_restartOnly {t u : State} (ht : WarmFrom t) (k : RestartOnly t u) : WarmFrom u := by
  obtain ⟨htime, hmordants, hjobs, hstations⟩ := ht
  unfold RestartOnly at k
  rw [k]
  exact ⟨htime, hmordants, hjobs, hstations⟩

theorem State.warmStart_warm (s : State) : WarmFrom s.warmStart := by
  unfold State.warmStart
  extract_lets silent idle dark die zeroed kept fresh clk cleared shown latched
  have hdie : die.stations = Vector.replicate 18 Station.reset ∧ die.mordants = [] := idle.forgetEpochs.resetDie_cleared
  clear_value die
  obtain ⟨hstations, hmordants⟩ : zeroed.stations = Vector.replicate 18 Station.reset ∧ zeroed.mordants = [] := by
    unfold zeroed
    split <;> exact hdie
  clear_value zeroed
  replace hstations : kept.stations = Vector.replicate 18 Station.reset := hstations
  replace hmordants : kept.mordants = [] := hmordants
  clear_value kept
  have hstn (st : St) : vget kept.stations st = Station.reset := hstations ▸ vget_replicate Station.reset st
  have hwarm : WarmFrom cleared := ⟨rfl, hmordants, jobState_of_reset _, hstn⟩
  have hshown : RestartOnly cleared shown := (State.modStw_only _ _).restart.trans (State.showRetired_only _).restart
  clear_value shown
  have hlatched : RestartOnly shown latched := RestartOnly.ite (State.setReg_restart _ _ _ _) rfl
  clear_value latched
  exact hwarm.of_restartOnly (hshown.trans (hlatched.trans (latched.restartSteward_restart.trans (State.alertFrom_restart _ _))))

/-- Settles O46: a command's effect follows its answer (`command_of_accepts`); what a cold reset keeps is `State.coldStart_cold`, a warm one `State.warmStart_warm`. -/
theorem resetKinds : Obligations.ResetKinds := by
  unfold Obligations.ResetKinds
  refine ⟨fun s hoff => ?_, fun s hon => ?_, fun s via h => ?_, fun s t c h ht => ?_, fun s hon => ?_, fun s via h => ?_, fun s => ?_, fun s via h => ?_,
    fun s via p h => ?_, fun s via p h => ?_, fun s via q h => ?_⟩
  · exact (exec_powerOn s).trans (if_pos hoff)
  · exact (exec_coldResetInput s).trans (if_pos hon)
  · rw [exec_coldReset, execColdReset, command_of_accepts h]
  · obtain ⟨hmem, hpoison, hstash, hmordants, htime, hfaults, hseq, hsaved, hcause, hheld, hfw, hjobs, hstations⟩ : ColdFrom s c h t := ht ▸ s.coldStart_cold c h
    exact ⟨hmem, hpoison, hstash, hmordants, htime, hfaults, hseq, hsaved, hcause, hheld, hfw, hjobs, hstations⟩
  · rw [exec_stewardRailFailure]
    exact execStewardRailFailure_of_on hon
  · rw [exec_warmReset, execWarmReset]
    exact command_of_refusable h (fun s => s.reg 0x4030 0 = 8) _
  · obtain ⟨htime, hmordants, hjobs, hstations⟩ := s.warmStart_warm
    exact ⟨hmordants, htime, hjobs, hstations⟩
  · rw [exec_seamReset, execSeamReset]
    exact command_of_refusable h (fun s => s.anyLoaded || s.inTransition) _
  · rw [exec_partitionReset, execPartitionReset, command_of_accepts h]
  · rw [exec_jobReset, execJobReset, command_of_accepts h]
  · rw [exec_portReset, execPortReset, command_of_accepts h]

end Sys2Proof.Machine
end

section
/-!
SUPPORT. The weights of the array as ARR.SHAPE and ARR.LOAD fire: the shape and the discarded sets, the tag compare before a block begins to load,
and the shadow registers (R65 to R68, R70, R76).
-/
namespace Sys2Proof.Machine

/-! ### ARR.SHAPE -/

/-- A change of shape ends the load under way, whose slot is done with, and discards both weight sets (R76). -/
def Station.reshape (e : Entry) (x : Station) : Station :=
  (((match x.arr.load with
    | some l => x.slotDone (fin (fld l.e.word 12 8)) l.slot
    | none => x) : Station).pop .array).modArr fun a =>
      { a with shape := fin (fld e.word 9 8), active := none, shadow := none, load := none, swapWait := false }

theorem execArrShapeFire_of_empty {s : State} {st : St} {e : Entry} (hhead : s.headOp st .array 0x30 = some e) (hempty : (s.stn st).arr.empty = true)
    (hslice : (s.stn st).arr.slice = none) : execArrShapeFire st s = .next (s.modSt st (Station.reshape e)) := by
  simp only [execArrShapeFire, hhead, hempty, hslice, Bool.not_true, Option.isSome_none, Bool.or_false, Bool.false_eq_true, if_false, next]
  rfl

/-! ### ARR.LOAD -/

/-- An ARR.LOAD leaves its queue and takes its slot, and the block in that slot begins to load (R66, R70). -/
def Station.startLoad (e : Entry) (y : Vat) (x : Station) : Station :=
  ((x.pop .array).setVat (fin (fld e.word 12 8)) (some (y.take false false))).modArr fun a =>
    { a with load := some ⟨e, y.head, {
        fmt := loadFmt e.word, k := loadK e.word, n := loadN e.word, shape := x.arr.shape
        data := x.slotRead y y.head 0 (blockBytes (loadFmt e.word) (loadK e.word) (loadN e.word)) }⟩ }

/-- With NOTAG = 0 the block carries no header, or one with another copy version tag (R70). -/
def Entry.tagMismatch (e : Entry) (y : Vat) : Bool :=
  !fbit e.word 44 && (match (y.slot y.head).header with
    | none => true
    | some h => headerTag h ≠ (kr e.k (fld e.word 43 39)).toNat % 2 ^ 32)

section
variable {s : State} {st : St} {e : Entry} {y : Vat} (hhead : s.headOp st .array 0x31 = some e) (hvat : (s.stn st).vat (fin (fld e.word 12 8)) = some y)
  (hload : (s.stn st).arr.load = none) (hshadow : (s.stn st).arr.shadow = none) (hswap : (s.stn st).arr.swapWait = false) (hslice : (s.stn st).arr.slice = none)
  (hkat : ∀ q ∈ (s.stn st).chkQ, e.seq ≤ q.seq) (hfull : headFull y = true) (hopen : (s.stn st).vatFenced (fin (fld e.word 12 8) : VatNo).val e.seq = false)
include hhead hvat hload hshadow hswap hslice hkat hfull hopen

/-- With the load path, the shadow registers and the slot there, only the tag compare is left, and it comes before the load (R70). -/
theorem execArrLoadFire_of_free : execArrLoadFire st s =
    .next (if e.tagMismatch y then s.faultFire st (fin (fld e.word 12 8) : VatNo).val e.pc else s.modSt st (Station.startLoad e y)) := by
  have hnokat : ((s.stn st).chkQ.any fun q => decide (q.seq < e.seq)) = false := List.any_eq_false.2 fun q hq => by simpa using hkat q hq
  simp only [execArrLoadFire, hhead, hvat, hload, hshadow, hswap, hslice, hnokat, hfull, hopen, Option.isSome_none, Bool.not_true, Bool.or_false, Bool.false_eq_true, if_false, next]
  exact (apply_ite Host.Outcome.next _ _ _).symm

/-- A block whose tag need not match, or does, begins to load. -/
theorem execArrLoadFire_of_tag (htag : fbit e.word 44 = false → ∃ h, (y.slot y.head).header = some h ∧ headerTag h = (kr e.k (fld e.word 43 39)).toNat % 2 ^ 32) :
    execArrLoadFire st s = .next (s.modSt st (Station.startLoad e y)) := by
  rw [execArrLoadFire_of_free hhead hvat hload hshadow hswap hslice hkat hfull hopen, if_neg]
  cases hnotag : fbit e.word 44 with
  | true => simp [Entry.tagMismatch, hnotag]
  | false =>
    obtain ⟨h, hheader, heq⟩ := htag hnotag
    simp [Entry.tagMismatch, hheader, heq]

/-- A tag that does not match is a fault at the ARR.LOAD, and no block loads. -/
theorem execArrLoadFire_of_mismatch {h : List PByte} (hnotag : fbit e.word 44 = false) (hheader : (y.slot y.head).header = some h)
    (hne : headerTag h ≠ (kr e.k (fld e.word 43 39)).toNat % 2 ^ 32) :
    execArrLoadFire st s = .next (s.faultFire st (fin (fld e.word 12 8) : VatNo).val e.pc) := by
  rw [execArrLoadFire_of_free hhead hvat hload hshadow hswap hslice hkat hfull hopen, if_pos]
  simpa [Entry.tagMismatch, hnotag, hheader] using hne

end

theorem execArrLoadComplete_of_load {s : State} {st : St} {l : LoadRec} (hload : (s.stn st).arr.load = some l) : execArrLoadComplete st s = .next (s.modSt st fun x =>
    (x.slotDone (fin (fld l.e.word 12 8)) l.slot).modArr fun a => { a with load := none, shadow := some l.w }) := by
  simp only [execArrLoadComplete, hload, next]

theorem execShadowRegistersFree_of_swap {s : State} {st : St} (hswap : (s.stn st).arr.swapWait = true) :
    execShadowRegistersFree st s = .next (s.modSt st fun x => x.modArr fun a => { a with swapWait := false }) := by
  simp only [execShadowRegistersFree, hswap, if_true, next]

/-- Settles O60: the load begins by `execArrLoadFire_of_tag`, or is refused by `execArrLoadFire_of_mismatch`, which changes no station. -/
theorem copyVersionTag : Obligations.CopyVersionTag := by
  unfold Obligations.CopyVersionTag
  intro s st e y h hhead hvat hload hshadow hswap hslice hkat hfull hopen hnotag hheader
  refine ⟨fun heq => ?_, fun hne => ?_⟩
  · have hexec := (exec_arrLoadFire st s).trans (execArrLoadFire_of_tag hhead hvat hload hshadow hswap hslice hkat hfull hopen fun _ => ⟨h, hheader, heq⟩)
    refine ⟨_, hexec, rfl, fun a ha => s.stn_modSt_other st a _ ha, ?_, ?_, ?_⟩ <;> rw [State.stn_modSt_same]
    · exact hshadow
    · rfl
    · exact ⟨_, rfl, rfl⟩
  · have hexec := (exec_arrLoadFire st s).trans (execArrLoadFire_of_mismatch hhead hvat hload hshadow hswap hslice hkat hfull hopen hnotag hheader hne)
    refine ⟨_, hexec, s.faultAt_records st 1 0x0101 _ e.pc, ?_, ?_, ?_⟩ <;> rw [State.faultFire, State.faultAt_stn]
    · exact hload
    · exact hshadow

end Sys2Proof.Machine
end

section
/-!
SUPPORT. The feeder of the array and the accumulator store as they fire: the operand row that enters, and the row that a drain writes (R65, R71, R82, R107, R265, R266, R395).
-/
namespace Sys2Proof.Machine

/-! ### The row that a feeder takes -/

/-- Of the station, a row of a vat depends on its local store alone. -/
theorem readRow_congr {x y : Station} (hls : y.ls = x.ls) (hpoison : y.lsPoison = x.lsPoison) (loc : Bool) (w fuel : Nat) (v : Vat) :
    readRow y loc w fuel v = readRow x loc w fuel v := by
  have hread : ∀ v i off n, y.slotRead v i off n = x.slotRead v i off n := fun v i off n => by
    simp only [Station.slotRead, Station.lsByte, hls, hpoison]
  induction fuel generalizing v with
  | zero => rfl
  | succ fuel ih => simp only [readRow, hread, ih]

/-- What the array holds does not bear on the row that its feeder takes next. -/
theorem nextRow_pop_modArr (x : Station) (f : ArrayUnit → ArrayUnit) (e : Entry) (w : Nat) : nextRow ((x.pop .array).modArr f) e w = nextRow x e w := by
  have hrow : ∀ loc fuel v, readRow ((x.pop .array).modArr f) loc w fuel v = readRow x loc w fuel v :=
    fun loc fuel v => readRow_congr (x := x) (y := (x.pop .array).modArr f) rfl rfl loc w fuel v
  simp only [nextRow, hrow]
  rfl

/-! ### ARR.MMA -/

section
variable {s : State} {st : St} {p : Part} {m : MmaRec} {wt : Weights} {x : Station} (hslice : (s.stn st).arr.slice = none) (hjob : s.jobAt st = some p)
include hslice hjob

/-- A row of a retry goes before every other (R395). -/
theorem execArrMmaFire_of_refeed {r : FlightRow} {rest : List FlightRow} (hrefeed : (s.stn st).arr.refeed = r :: rest) :
    execArrMmaFire st s = .next (s.modSt st fun x => x.modArr fun a => { a with refeed := rest, flight := a.flight ++ [r] }) := by
  simp only [execArrMmaFire, hslice, hrefeed, hjob, next]

variable (hrefeed : (s.stn st).arr.refeed = [])
include hrefeed

/-- The ARR.MMA in progress goes on to its next row. -/
theorem execArrMmaFire_of_active (hm : (s.stn st).arr.mmas.getLast? = some m) (hwt : (s.stn st).arr.active = some wt) (hmore : m.fed < mmaRows m.e.word) :
    execArrMmaFire st s = feedRow s st p (s.stn st) m wt := by
  simp only [execArrMmaFire, hslice, hrefeed, hjob, hm, hwt, hmore, if_true]

/-- With every row of the last one fed, the next of the queue starts. -/
theorem execArrMmaFire_of_fed (hfed : ∀ q, (s.stn st).arr.mmas.getLast? = some q → mmaRows q.e.word ≤ q.fed) : execArrMmaFire st s = startMma s st p := by
  simp only [execArrMmaFire, hslice, hrefeed, hjob]
  split
  · next q _ hq _ => exact if_neg (Nat.not_lt.2 (hfed q hq))
  · rfl

end

/-- The station as an ARR.MMA starts: it leaves its queue, a pass begins in each of its tiles, and its weights are the active ones (R65, R68). -/
def Station.beginMma (m : MmaRec) (wt : Weights) (x : Station) : Station :=
  (x.pop .array).modArr fun a => { a with
    mmas := a.mmas ++ [m]
    passes := a.passes ++ (if mmaDest m.e.word then [] else
      (List.range (mmaTiles m.e.word)).map fun j => ⟨m.e.seq, fin (mmaTile0 m.e.word + j), mmaM m.e.word, mmaM m.e.word, false⟩)
    active := some wt, shadow := if fbit m.e.word 23 then none else a.shadow, swapWait := a.swapWait || fbit m.e.word 23 }

/-- The ARR.MMA at the head of the queue starts once its block, its tiles and an operand row are there. -/
theorem startMma_of_row {s : State} {st : St} {p : Part} {e : Entry} {wt : Weights} {fa : Fmt} (hhead : s.headOp st .array 0x32 = some e)
    (hwt : (if fbit e.word 23 then (s.stn st).arr.shadow else (s.stn st).arr.active) = some wt)
    (hfa : (if mmaDest e.word then mmaAcc (s.stn st) e.word
      else (vget (s.stn st).tiles (fin (mmaTile0 e.word))).bind fun t => Fmt.ofCode t.bk.fmt) = some fa)
    (htiles : tilesFired (s.stn st) e.word = true) (hclean : fbit e.word 23 = true → anyPoison wt.data = false)
    (hrow : (nextRow (s.stn st) e (rowBytes (mmaFx e.word) (shapeK (s.stn st).arr.shape))).2 ≠ .wait) :
    startMma s st p = feedRow s st p ((s.stn st).beginMma ⟨e, 0, [], fa, false⟩ wt) ⟨e, 0, [], fa, false⟩ wt := by
  have hnopoison : (fbit e.word 23 && anyPoison wt.data) = false := by simpa using hclean
  have hfa' : (if mmaDest e.word then mmaAcc (s.stn st) e.word else
        match vget (s.stn st).tiles (fin (mmaTile0 e.word)) with
        | some t => Fmt.ofCode t.bk.fmt
        | none => none) = some fa := by
    rw [← hfa]
    cases vget (s.stn st).tiles (fin (mmaTile0 e.word)) <;> rfl
  simp only [startMma, hhead, hwt, htiles, Bool.not_true, Bool.false_eq_true, if_false]
  split
  · next wt' fa₁ hwt' hfa₁ =>
    obtain rfl := Option.some.inj hwt'
    obtain rfl : fa = fa₁ := Option.some.inj (hfa'.symm.trans hfa₁)
    simp only [hnopoison, Bool.false_eq_true, if_false]
    cases hgot : (nextRow (s.stn st) e (rowBytes (mmaFx e.word) (shapeK (s.stn st).arr.shape))).2 with
    | wait => exact absurd hgot hrow
    | under => rfl
    | row y data tag raw => rfl
  · next hnone => exact absurd hfa' (hnone _ _ rfl)

/-- The feeder of an ARR.MMA goes on, or the next one starts: a row is there for it either way (R265). -/
theorem execArrMmaFire_of_mmaAt {s : State} {st : St} {p : Part} {m : MmaRec} {wt : Weights} {x : Station} (hslice : (s.stn st).arr.slice = none)
    (hrefeed : (s.stn st).arr.refeed = []) (hjob : s.jobAt st = some p) (hat : MmaAt s st m wt x)
    (hrow : (nextRow x m.e (rowBytes (mmaFx m.e.word) (shapeK x.arr.shape))).2 ≠ .wait) : execArrMmaFire st s = feedRow s st p x m wt := by
  obtain ⟨hm, hwt, hmore, rfl⟩ | ⟨e, fa, hfed, hhead, hwt, hfa, htiles, hclean, rfl, rfl⟩ := hat
  · exact execArrMmaFire_of_active hslice hjob hrefeed hm hwt hmore
  · rw [nextRow_pop_modArr] at hrow
    exact (execArrMmaFire_of_fed hslice hjob hrefeed hfed).trans (startMma_of_row hhead hwt hfa htiles hclean hrow)

/-- An operand row that its ARR.MMA has a place for enters the pipeline as its product row (R71, R265). -/
theorem feedRow_of_row {s : State} {st : St} {p : Part} {m : MmaRec} {wt : Weights} {x : Station} {v : VatNo} {y : Vat} {data : List PByte} {tag : Option (W16 × Nat)} {raw : Bool}
    {j r : Nat} {fx fw : Fmt} {o : PathOut} (hrow : nextRow x m.e (rowBytes (mmaFx m.e.word) (shapeK x.arr.shape)) = (v, .row y data tag raw))
    (htarget : mmaTarget m.e.word m tag = some (j, r)) (hfx : Fmt.ofCode (mmaFx m.e.word) = some fx) (hfw : Fmt.ofCode wt.fmt = some fw)
    (ho : o = (if raw then prologue (x.setVat v (some y)) (s.jobCtx p) (mmaFx m.e.word) r data else ⟨x.setVat v (some y), data, Fl.none, false, false⟩))
    (hfault : o.fault = false) (hpoison : o.poison = false) (hclean : anyPoison o.data = false) :
    ∃ fr ms, feedRow s st p x m wt = .next (s.modSt st fun _ => (o.x.flag o.fl).modArr fun a => { a with flight := a.flight ++ [fr], mmas := ms }) ∧
      fr.seq = m.e.seq ∧ fr.row = r ∧ fr.left = false ∧ fr.tile = (if mmaDest m.e.word then none else some (fin (mmaTile0 m.e.word + j))) ∧
      fr.prod = (product fx fw m.fa o.x.arr.shape (mmaK m.e.word) (mmaN m.e.word) o.data wt).out := by
  simp only [feedRow, hrow, htarget, hfx, hfw, ← ho, hfault, hpoison, hclean, Bool.or_false, Bool.false_eq_true, if_false, next]
  exact ⟨_, _, rfl, rfl, rfl, rfl, rfl, rfl⟩

/-! ### ACC.OPEN and ACC.DRAIN -/

theorem execAccOpenFire_of_head {s : State} {st : St} {e : Entry} {b : TileBook} (hhead : s.headOp st .acc 0x40 = some e)
    (hbook : vget (s.stn st).tbooks (openTile e.word) = some b) :
    execAccOpenFire st s = .next (s.modSt st fun x => setTile (x.pop .acc) (openTile e.word) (emptyTile b)) := by
  simp only [execAccOpenFire, hhead, hbook, next]

theorem execDrainComplete_of_last {s : State} {st : St} {d : DrainRec} {t : Tile} (hdrain : (s.stn st).drain = some d)
    (htile : vget (s.stn st).tiles (drainTile d.e.word) = some t) (hlast : t.bk.height ≤ d.row) : execDrainComplete st s = .next (s.modSt st fun x => { x with
      drain := none, tiles := vset x.tiles (drainTile d.e.word) none, tbooks := vset x.tbooks (drainTile d.e.word) none
      sq := x.sq.writeAt (fld d.e.word 38 34) d.e.seq (flagWord t.ovf t.nv) }) := by
  simp only [execDrainComplete, hdrain, htile, Nat.not_lt.2 hlast, if_false, next]

section
variable {s : State} {st : St} {p : Part} {e : Entry} {r : Nat} {x0 : Station} {t : Tile} (htile : vget x0.tiles (drainTile e.word) = some t)
include htile

/-- The drain in progress goes on with its next row, or the one at the head of the queue starts with its first (R82, R266). -/
theorem execAccDrainFire_of_drainAt (hjob : s.jobAt st = some p) (hat : DrainAt s st e r x0) (hmore : r < t.bk.height) :
    execAccDrainFire st s = drainRow s st p x0 e r := by
  obtain ⟨hdrain, rfl⟩ | ⟨hnone, hhead, hstarts, rfl, rfl⟩ := hat
  · simp only [execAccDrainFire, hjob, hdrain, htile, hmore, if_true]
  · simp only [execAccDrainFire, hjob, hnone, hhead, hstarts, if_true]

/-- A row whose vat has room leaves its tile through the epilogue (R107, R130, R266). -/
theorem drainRow_of_room {y y' : Vat} {f fa : Fmt} {x x' : Station} {as : List Val} {bad2 : Bool} {o : DrainOut} {b : List PByte × Fl}
    (hvat : x0.vat (drainVat e.word) = some y) (hf : Fmt.ofCode (drainFmt e.word) = some f) (hfa : Fmt.ofCode t.bk.fmt = some fa)
    (hroom : y.wrRow = 0 → tailFree y = false → y.len ≤ y.claimed) (haside : asideRow x0 e.word r (shapeN t.bk.shape) = .got x as bad2)
    (ho : o = epilogue x (s.jobCtx p) e.word r (tileRow t fa r (shapeN t.bk.shape)) as (bad2 || tilePoisonIn t (r * shapeN t.bk.shape) (shapeN t.bk.shape)))
    (hfault : o.fault = false) (hpoison : o.poison = false)
    (hb : b = drainBytes f o.vs (fun c => !(drainEpi e.word && x.vec.epi.isSome) && t.poison.contains (r * shapeN t.bk.shape + c)))
    (hput : putRow o.x y b.1 none ((flagWord (t.ovf || b.2.ovf || o.fl.ovf) (t.nv || b.2.nv || o.fl.nv)).toNat) = .done x' y') :
    ∃ fl, drainRow s st p x0 e r = .next (s.modSt st fun _ =>
      { (setTile (x'.setVat (drainVat e.word) (some (if r + 1 = t.bk.height then y'.endFill else y'))) (drainTile e.word) (t.flag fl)).flag fl with drain := some ⟨e, r + 1⟩ }) := by
  have hfree : (decide (y.wrRow = 0) && !tailFree y && decide (y.claimed < y.len)) = false := by
    simpa using hroom
  simp only [drainRow, htile, hvat, hf, hfa, hfree, haside, ← ho, hfault, hpoison, ← hb, hput, Bool.false_eq_true, if_false, next]
  exact ⟨_, rfl⟩

end

/-- Settles O12: the weights by `execArrShapeFire_of_empty`, `execArrLoadFire_of_tag` and their companions; the feeder by `execArrMmaFire_of_refeed`, `execArrMmaFire_of_mmaAt` and
`feedRow_of_row`; the tiles by `execAccOpenFire_of_head`, `execAccDrainFire_of_drainAt`, `drainRow_of_room` and `execDrainComplete_of_last`. -/
theorem arrayAndTilesFire : Obligations.ArrayAndTilesFire := by
  unfold Obligations.ArrayAndTilesFire
  refine ⟨fun s st e hhead hempty hslice => ?_, fun s st e y hhead hvat hload hshadow hswap hslice hkat hfull hopen htag => ?_, fun s st l hload => ?_, fun s st hswap => ?_,
    fun s st p r rest hslice hrefeed hjob => ?_,
    fun s st p m wt x v y data tag raw j r fx fw o hslice hrefeed hjob hat hrow htarget hfx hfw ho hfault hpoison hclean => ?_,
    fun s st e b hhead hbook => ?_, fun s st d t hdrain htile hlast => ?_,
    fun s st p e r x0 t y y' f fa x x' as bad2 o b hjob hat htile hmore hvat hf hfa hroom haside ho hfault hpoison hb hput => ?_⟩
  · exact ⟨_, rfl, (exec_arrShapeFire st s).trans (execArrShapeFire_of_empty hhead hempty hslice)⟩
  · exact (exec_arrLoadFire st s).trans (execArrLoadFire_of_tag hhead hvat hload hshadow hswap hslice hkat hfull hopen htag)
  · refine ⟨_, (exec_arrLoadComplete st s).trans (execArrLoadComplete_of_load hload), ?_, ?_, rfl, fun a ha => s.stn_modSt_other st a _ ha⟩ <;> rw [State.stn_modSt_same] <;> rfl
  · exact (exec_shadowRegistersFree st s).trans (execShadowRegistersFree_of_swap hswap)
  · exact (exec_arrMmaFire st s).trans (execArrMmaFire_of_refeed hslice hjob hrefeed)
  · have hstep := execArrMmaFire_of_mmaAt hslice hrefeed hjob hat (by rw [hrow]; exact Got.noConfusion)
    obtain ⟨fr, ms, hfeed, hseq, hfrow, hleft, htile, hprod⟩ := feedRow_of_row (s := s) (st := st) (p := p) hrow htarget hfx hfw ho hfault hpoison hclean
    refine ⟨_, fr, (exec_arrMmaFire st s).trans (hstep.trans hfeed), ?_, hseq, hfrow, hleft, htile, hprod, ?_, ?_, rfl, fun a ha => s.stn_modSt_other st a _ ha⟩ <;>
      rw [State.stn_modSt_same] <;> rfl
  · exact (exec_accOpenFire st s).trans (execAccOpenFire_of_head hhead hbook)
  · exact (exec_drainComplete st s).trans (execDrainComplete_of_last hdrain htile hlast)
  · obtain ⟨fl, hrow⟩ := drainRow_of_room (s := s) (st := st) (p := p) htile hvat hf hfa hroom haside ho hfault hpoison hb hput
    refine ⟨_, (exec_accDrainFire st s).trans ((execAccDrainFire_of_drainAt htile hjob hat hmore).trans hrow), ?_, ?_, ?_, rfl, fun a ha => s.stn_modSt_other st a _ ha⟩ <;>
      rw [State.stn_modSt_same]
    · exact vget_vset_same _ _ _
    · rfl

end Sys2Proof.Machine
end

section
/-!
SUPPORT. The array and accumulator instructions at issue: what the books of the array and of the tiles take in, and the checks that pass
(R61, R69, R76, R78, R80 to R82, R93, R113, R117, R132, R193, R258, R265, R266).
-/
namespace Sys2Proof.Machine

/-- A change of the array that leaves its queue leaves every queue of the station. -/
theorem Station.queue_modArr (x : Station) (f : ArrayUnit → ArrayUnit) (hf : (f x.arr).queue = x.arr.queue) (u : UnitQ) : (x.modArr f).queue u = x.queue u := by
  rcases u with _ | (_ | _) | _ | _ | _ | _ | _ | _ | _
  case array => exact hf
  all_goals rfl

/-! ### ARR.SHAPE and ARR.LOAD -/

/-- The shape in force, and no weights for it (R76). -/
def Station.bookShape (w : W128) (x : Station) : Station := x.modArr fun a => { a with bkShape := fin (fld w 9 8), bkLoad := none, bkActive := none }

theorem execArrShape_issues {s : State} {st : St} {p : Part} {w : W128} (h : s.readyFor st p 0x30 w = true) :
    ∃ t, execArrShape st s = .next t ∧ IssuedAt s t st w ∧
      ((t.stn st).arr.bkShape = fin (fld w 9 8) ∧ (t.stn st).arr.bkLoad = none ∧ (t.stn st).arr.bkActive = none) := by
  refine issue_enqueue_holds h _ (Station.bookShape w) (post := fun x => x.arr.bkShape = fin (fld w 9 8) ∧ x.arr.bkLoad = none ∧ x.arr.bkActive = none)
    (Station.queue_modArr _ _ rfl) rfl ?_ fun y => Station.push_bkShape _ _ _
  rintro e rfl
  rfl

/-- The load under way, and one more consumer in the book of its vat (R69, R193). -/
def Station.bookArrLoad (w : W128) (b' : VatBook) (x : Station) : Station :=
  (x.setBook (fin (fld w 12 8)) (some b')).modArr fun a => { a with bkLoad := some (loadK w, loadN w, loadFmt w) }

theorem execArrLoad_issues {s : State} {st : St} {p : Part} {w : W128} {b b' : VatBook} {f : Fmt} (h : s.readyFor st p 0x31 w = true)
    (hbook : (s.stn st).book (fin (fld w 12 8)) = some b) (hf : Fmt.ofCode (loadFmt w) = some f) (hin : b.outbound = false) (hfree : (s.stn st).arr.bkLoad = none)
    (hk : loadK w ≤ shapeK (s.stn st).arr.bkShape) (hn : loadN w ≤ shapeN (s.stn st).arr.bkShape) (hmx : f.isMx = true → loadK w % 32 = 0)
    (hsize : rowBytes (loadFmt w) (if f.isMx then loadK w else loadN w) ≤ b.size) (hcons : b.consume .load = some b') (hlen : b.conss < b.len) :
    ∃ t, execArrLoad st s = .next t ∧ IssuedAt s t st w ∧
      (t.stn st).arr.bkLoad = some (loadK w, loadN w, loadFmt w) ∧ (t.stn st).book (fin (fld w 12 8)) = some b' := by
  refine issue_enqueue_holds h _ (Station.bookArrLoad w b')
    (post := fun x => x.arr.bkLoad = some (loadK w, loadN w, loadFmt w) ∧ x.book (fin (fld w 12 8)) = some b')
    (fun u => (Station.queue_modArr _ _ rfl u).trans (Station.queue_books _ _ _ _ _ u)) rfl ?_ fun y => ⟨?_, ?_⟩
  · rintro e rfl
    simp only [hbook, hf]
    refine (if_neg ?_).trans ?_
    · simpa [hin, hfree, hk, hn, hsize] using hmx
    · simp only [hcons]
      exact if_neg (Nat.not_le.2 hlen)
  · exact (Station.push_bkShape _ _ _).2.1
  · exact (Station.push_book _ _ _ _).trans (vget_vset_same _ _ _)

/-! ### ARR.MMA -/

/-- The check of an operand vat changes nothing but the books of vats. -/
theorem operandVat_books {x x' : Station} {v : VatNo} {n : Nat} (h : operandVat x v n = some x') : ∃ b, x' = { x with books := b } := by
  unfold operandVat at h
  split at h
  · split at h
    · cases h
    · obtain ⟨b', -, rfl⟩ := Option.map_eq_some_iff.1 h
      exact ⟨_, rfl⟩
  · cases h

/-- The leases of its tiles, and after a swap the weights in use (R69, R82). -/
def Station.bookMma (w : W128) (wt : Nat × Nat × Nat) (x : Station) : Station :=
  (if mmaDest w then x else leaseTiles x (mmaTile0 w) (mmaTiles w) .mma).modArr fun a => if fbit w 23 then { a with bkActive := some wt, bkLoad := none } else a

theorem Station.bookMma_queue (w : W128) (wt : Nat × Nat × Nat) (x : Station) (u : UnitQ) : (x.bookMma w wt).queue u = x.queue u := by
  refine (Station.queue_modArr _ _ (by split <;> rfl) u).trans ?_
  split
  · rfl
  · exact Station.queue_books _ _ _ _ _ u

theorem Station.bookMma_sq (w : W128) (wt : Nat × Nat × Nat) (x : Station) : (x.bookMma w wt).sq = x.sq := by
  unfold Station.bookMma
  split <;> rfl

theorem Station.bookMma_arr (w : W128) (wt : Nat × Nat × Nat) (x : Station) :
    (x.bookMma w wt).arr = if fbit w 23 then { x.arr with bkActive := some wt, bkLoad := none } else x.arr := by
  unfold Station.bookMma
  split <;> rfl

theorem execArrMma_issues {s : State} {st : St} {p : Part} {w : W128} {wk wn wf : Nat} {fx fw fa : Fmt} {x1 x2 : Station} (h : s.readyFor st p 0x32 w = true)
    (hwt : (if fbit w 23 then (s.stn st).arr.bkLoad else (s.stn st).arr.bkActive) = some (wk, wn, wf))
    (hfx : Fmt.ofCode (mmaFx w) = some fx) (hfw : Fmt.ofCode wf = some fw) (hfa : mmaAcc (s.stn st) w = some fa)
    (hformats : formatsAccepted fx fw fa (s.stn st).arr.bkShape = true) (hk : wk = mmaK w) (hn : mmaN w ≤ shapeN (s.stn st).arr.bkShape)
    (hmx : fx.isMx = true → mmaK w % 32 = 0) (hring : mmaDest w = true → mmaTagged w = false ∧ mmaTiles w = 1 ∧ (s.stn st).arr.bkShape = 0)
    (htiles : mmaDest w = false → mmaTilesOk (s.stn st) w (s.stn st).arr.bkShape = true) (htwo : fbit w 35 = true → mmaTagged w = true)
    (hva : operandVat (s.stn st) (mmaVa w) (rowBytes (mmaFx w) (shapeK (s.stn st).arr.bkShape)) = some x1)
    (hvb : (if fbit w 35 then operandVat x1 (mmaVb w) (rowBytes (mmaFx w) (shapeK (s.stn st).arr.bkShape)) else some x1) = some x2) :
    ∃ t, execArrMma st s = .next t ∧ IssuedAt s t st w ∧
      (fbit w 23 = true → (t.stn st).arr.bkActive = some (wk, wn, wf) ∧ (t.stn st).arr.bkLoad = none) ∧
      (fbit w 23 = false → (t.stn st).arr.bkActive = (s.stn st).arr.bkActive ∧ (t.stn st).arr.bkLoad = (s.stn st).arr.bkLoad) := by
  obtain ⟨b, rfl⟩ : ∃ b, x2 = { s.stn st with books := b } := by
    obtain ⟨b1, rfl⟩ := operandVat_books hva
    split at hvb
    · obtain ⟨b2, rfl⟩ := operandVat_books hvb
      exact ⟨b2, rfl⟩
    · cases hvb
      exact ⟨b1, rfl⟩
  refine issue_enqueue_holds h _ (fun _ => Station.bookMma w (wk, wn, wf) { s.stn st with books := b })
    (post := fun x => (fbit w 23 = true → x.arr.bkActive = some (wk, wn, wf) ∧ x.arr.bkLoad = none) ∧
      (fbit w 23 = false → x.arr.bkActive = (s.stn st).arr.bkActive ∧ x.arr.bkLoad = (s.stn st).arr.bkLoad))
    (fun u => ?_) ?_ ?_ fun y => ?_
  · exact (Station.bookMma_queue _ _ _ u).trans (Station.queue_books _ _ _ _ _ u)
  · exact Station.bookMma_sq _ _ _
  · rintro e rfl
    simp only [hwt, hfx, hfa, hfw]
    refine (if_neg ?_).trans ((if_neg ?_).trans ((if_neg ?_).trans ((if_neg ?_).trans ?_)))
    · simpa [hformats, hk, hn] using hmx
    · simpa [and_assoc] using hring
    · simpa using htiles
    · simpa using htwo
    · simp only [hva, hvb]
      rfl
  · obtain ⟨-, hload, hactive⟩ := Station.push_bkShape (Station.bookMma w (wk, wn, wf) { s.stn st with books := b }) (unitsFor w) ((s.stn st).entryFor w)
    rw [Station.bookMma_arr] at hload hactive
    refine ⟨fun hswap => ⟨hactive.trans ?_, hload.trans ?_⟩, fun hswap => ⟨hactive.trans ?_, hload.trans ?_⟩⟩ <;> simp only [hswap, Bool.false_eq_true, if_true, if_false]

/-! ### ACC.OPEN and ACC.DRAIN -/

theorem execAccOpen_issues {s : State} {st : St} {p : Part} {w : W128} (h : s.readyFor st p 0x40 w = true)
    (hfmt : (openBook (s.stn st) w).fmt = 1 ∨ (openBook (s.stn st) w).fmt = 2) (hpasses : (openBook (s.stn st) w).passes ≠ 0)
    (hdepth : (openBook (s.stn st) w).faithful = true → (openBook (s.stn st) w).passes ≤ 2 ^ (openBook (s.stn st) w).depth)
    (hfree : vget (s.stn st).tbooks (openTile w) = none) (hroom : storeUsed (s.stn st) + occupancy (openBook (s.stn st) w) ≤ accStore)
    (hspill : spillOk (s.stn st) ((s.prt p).spill * 4096) (openBook (s.stn st) w) = true) :
    ∃ t, execAccOpen st s = .next t ∧ IssuedAt s t st w ∧ vget (t.stn st).tbooks (openTile w) = some (openBook (s.stn st) w) := by
  refine issue_enqueue_holds h _ (fun x => { x with tbooks := vset x.tbooks (openTile w) (some (openBook (s.stn st) w)) })
    (post := fun x => vget x.tbooks (openTile w) = some (openBook (s.stn st) w)) (fun u => Station.queue_books _ _ _ _ _ u) rfl ?_ fun y => ?_
  · rintro e rfl
    refine (if_neg ?_).trans (if_neg ?_)
    · simpa [hpasses] using ⟨or_iff_not_imp_left.1 hfmt, hdepth⟩
    · simp [hfree, hspill, Nat.not_lt.2 hroom]
  · exact (congrArg (vget · (openTile w)) (Station.push_tbooks _ _ _)).trans (vget_vset_same _ _ _)

/-- The tile whose lease a drain ends, and one more producer in the book of its vat (R82, R193). -/
def Station.bookDrain (w : W128) (b : TileBook) (v' : VatBook) (x : Station) : Station :=
  { x.setBook (drainVat w) (some v') with tbooks := vset x.tbooks (drainTile w) (some { b with drained := true }) }

theorem execAccDrain_issues {s : State} {st : St} {p : Part} {w : W128} {b : TileBook} {v v' : VatBook} (h : s.readyFor st p 0x41 w = true)
    (htile : vget (s.stn st).tbooks (drainTile w) = some b) (hvat : (s.stn st).book (drainVat w) = some v) (hleased : b.drained = false) (hissued : b.issued = b.passes)
    (hpair : pairOk (s.stn st) w b = true) (hfmt : drainFmt w ≤ 4) (hout : v.outbound = true) (hsize : rowBytes (drainFmt w) (shapeN b.shape) ≤ v.size)
    (hprod : v.produce .drain = some v') (haside : asideFault (s.stn st) w b = false) :
    ∃ t, execAccDrain st s = .next t ∧ IssuedAt s t st w ∧
      vget (t.stn st).tbooks (drainTile w) = some { b with drained := true } ∧ (t.stn st).book (drainVat w) = some v' := by
  refine issue_enqueue_holds h _ (Station.bookDrain w b v')
    (post := fun x => vget x.tbooks (drainTile w) = some { b with drained := true } ∧ x.book (drainVat w) = some v') (fun u => Station.queue_books _ _ _ _ _ u) rfl ?_
    fun y => ⟨?_, ?_⟩
  · rintro e rfl
    simp only [htile, hvat]
    refine (if_neg ?_).trans ((if_neg ?_).trans ((if_neg ?_).trans ?_))
    · simp [hleased, hissued, hpair]
    · simp [hout, Nat.not_lt.2 hfmt, Nat.not_lt.2 hsize]
    · simp [haside]
    · simp only [hprod]
      rfl
  · exact (congrArg (vget · (drainTile w)) (Station.push_tbooks _ _ _)).trans (vget_vset_same _ _ _)
  · exact (Station.push_book _ _ _ _).trans (vget_vset_same _ _ _)

/-- Settles O11: each instruction's own checks pass (`execArrShape_issues`, `execArrLoad_issues`, `execArrMma_issues`, `execAccOpen_issues`, `execAccDrain_issues`). -/
theorem arrayInstructionsIssue : Obligations.ArrayInstructionsIssue := by
  unfold Obligations.ArrayInstructionsIssue
  refine ⟨fun s st p w h => ?_, fun s st p w b b' f h hbook hf hin hfree hk hn hmx hsize hcons hlen => ?_,
    fun s st p w wk wn wf fx fw fa x1 x2 h hwt hfx hfw hfa hformats hk hn hmx hring htiles htwo hva hvb => ?_,
    fun s st p w h hfmt hpasses hdepth hfree hroom hspill => ?_, fun s st p w b v v' h htile hvat hleased hissued hpair hfmt hout hsize hprod haside => ?_⟩
  · exact execArrShape_issues h
  · exact execArrLoad_issues h hbook hf hin hfree hk hn hmx hsize hcons hlen
  · exact execArrMma_issues h hwt hfx hfw hfa hformats hk hn hmx hring htiles htwo hva hvb
  · exact execAccOpen_issues h hfmt hpasses hdepth hfree hroom hspill
  · exact execAccDrain_issues h htile hvat hleased hissued hpair hfmt hout hsize hprod haside

end Sys2Proof.Machine
end

section
/-!
SUPPORT. The vector instructions and those that command what lies outside the station, at issue: what the books take in, and the checks that pass
(R132, R156, R193, R197, R216, R258, R267, R268, R270 to R274, R345).
-/
namespace Sys2Proof.Machine

/-! ### What passes the checks of the vector instructions -/

/-- An extent below the program region passes (R216). -/
theorem State.pastLocal_eq_false {s : State} {p : Part} {a n : Nat} (h : a + n ≤ progBase (s.prt p).prog) : s.pastLocal p a n = false :=
  decide_eq_false (Nat.not_lt.2 h)

/-- A micro-op list below the program region passes (R267). -/
theorem State.uopsPast_eq_false {s : State} {p : Part} {e : Entry} (h : (kr e.k (fld e.word 12 8)).toNat + 16 * (fld e.word 16 13 + 1) ≤ progBase (s.prt p).prog) :
    s.uopsPast p e = false := State.pastLocal_eq_false h

/-- A change of the vector unit that leaves its queue leaves every queue of the station. -/
theorem Station.queue_modVec (x : Station) (f : VecUnit → VecUnit) (hf : (f x.vec).queue = x.vec.queue) (u : UnitQ) : (x.modVec f).queue u = x.queue u := by
  rcases u with _ | (_ | _) | _ | _ | _ | _ | _ | _ | _
  case vec => exact hf
  all_goals rfl

/-- `y` differs from `x` at most in the books of vats. -/
def BooksOnly (x y : Station) : Prop := y = { x with books := y.books }

theorem BooksOnly.trans {x y z : Station} (h : BooksOnly x y) (k : BooksOnly y z) : BooksOnly x z := by
  unfold BooksOnly at *
  rw [h] at k
  exact k

theorem BooksOnly.queue {x y : Station} (h : BooksOnly x y) (u : UnitQ) : y.queue u = x.queue u := by
  rw [h]
  exact Station.queue_books _ _ _ _ _ u

theorem BooksOnly.sq {x y : Station} (h : BooksOnly x y) : y.sq = x.sq := (congrArg Station.sq h :)

/-- The check of an input vat counts one more consumer in its book. -/
theorem vopIn_only {x y : Station} {v : VatNo} {n : Nat} (h : vopIn x v n = some y) : BooksOnly x y := by
  unfold vopIn at h
  split at h
  · split at h
    · cases h
    · obtain ⟨b, -, rfl⟩ := Option.map_eq_some_iff.1 h
      exact rfl
  · cases h

/-- The check of an output vat counts one more producer in its book. -/
theorem vopOutVat_only {x y : Station} {v : VatNo} {n : Nat} (h : vopOutVat x v n = some y) : BooksOnly x y := by
  unfold vopOutVat at h
  split at h
  · split at h
    · cases h
    · obtain ⟨b, -, rfl⟩ := Option.map_eq_some_iff.1 h
      exact rfl
  · cases h

/-- So does the check of a vat that only some instructions have. -/
theorem BooksOnly.of_ite {c : Bool} {x y : Station} {o : Option Station} (ho : ∀ z, o = some z → BooksOnly x z) (h : (if c then o else some x) = some y) : BooksOnly x y := by
  split at h
  · exact ho y h
  · cases h
    exact rfl

/-! ### Issue with checks that read the entry -/

section
variable {s : State} {st : St} {p : Part} {op : Nat} {w : W128} (h : s.readyFor st p op w = true) (body : State → Part → St → Entry → Chk) (f : Station → Station)
  (hq : ∀ u, (f (s.stn st)).queue u = (s.stn st).queue u) (hs : (f (s.stn st)).sq = (s.stn st).sq)
  (hb : body s p st ((s.stn st).entryFor w) = enqueue (s.modSt st f) st ((s.stn st).entryFor w))
include h hq hs hb

/-- A book of vats reads as the checks leave it. -/
theorem issue_enqueue_book {v : VatNo} {b : Option VatBook} (hbook : (f (s.stn st)).book v = b) :
    ∃ t, issue op body s st = .next t ∧ IssuedAt s t st w ∧ (t.stn st).book v = b := by
  obtain ⟨t, ht, hissued, y, hy⟩ := issue_enqueue h body f hq hs hb
  exact ⟨t, ht, hissued, hy ▸ (Station.push_book _ _ _ _).trans hbook⟩

/-- An instruction whose checks, on the registers that it reads at issue, end in its queues is issued. -/
theorem issue_enqueue_entry : ∃ t, issue op body s st = .next t ∧ IssuedAt s t st w := by
  obtain ⟨t, ht, hissued, -⟩ := issue_enqueue h body f hq hs hb
  exact ⟨t, ht, hissued⟩

end

/-- So one whose checks do nothing else. -/
theorem issue_enqueue_entry_plain {s : State} {st : St} {p : Part} {op : Nat} {w : W128} (h : s.readyFor st p op w = true) (body : State → Part → St → Entry → Chk)
    (hb : body s p st ((s.stn st).entryFor w) = enqueue s st ((s.stn st).entryFor w)) : ∃ t, issue op body s st = .next t ∧ IssuedAt s t st w :=
  issue_enqueue_entry h body (fun x => x) (fun _ => rfl) rfl (by rw [modSt_id, hb])

/-! ### The vector instructions -/

section
variable {s : State} {st : St} {p : Part} {w : W128}

theorem execVecSplit_issues (h : s.readyFor st p 0x50 w = true) (hsplit : fld w 11 8 ≤ 8) : ∃ t, execVecSplit st s = .next t ∧ IssuedAt s t st w := by
  refine issue_enqueue_plain h _ ?_
  rintro e rfl
  exact if_neg (Nat.not_lt.2 hsplit)

section
variable (hlist : (kr (s.stn st).sq.k (fld w 12 8)).toNat + 16 * (fld w 16 13 + 1) ≤ progBase (s.prt p).prog)
include hlist

theorem execVecPro_issues (h : s.readyFor st p 0x51 w = true) : ∃ t, execVecPro st s = .next t ∧ IssuedAt s t st w := by
  refine issue_enqueue_entry_plain h _ ?_
  simp only [State.uopsPast_eq_false (e := (s.stn st).entryFor w) hlist, Bool.false_eq_true, if_false]

theorem execVecEpi_issues (h : s.readyFor st p 0x52 w = true)
    (haside : fbit w 101 = true → fld w 105 102 ≤ 2 ∧ ∃ b b', (s.stn st).book (fin (fld w 100 96)) = some b ∧ b.outbound = false ∧ b.consume .aside = some b') :
    ∃ t, execVecEpi st s = .next t ∧ IssuedAt s t st w := by
  have hpast := State.uopsPast_eq_false (e := (s.stn st).entryFor w) hlist
  have hword : ((s.stn st).entryFor w).word = w := rfl
  cases hen : fbit w 101 with
  | false =>
    refine issue_enqueue_entry h _ (fun x => x.modVec fun y => { y with bkEpi := some w }) (Station.queue_modVec _ _ rfl) rfl ?_
    simp only [hpast, hword, hen, Bool.not_false, Bool.false_eq_true, if_true, if_false]
  | true =>
    obtain ⟨hfmt, b, b', hbook, hin, hcons⟩ := haside hen
    refine issue_enqueue_entry h _ (fun x => (x.setBook (fin (fld w 100 96)) (some b')).modVec fun y => { y with bkEpi := some w })
      (fun u => (Station.queue_modVec _ _ rfl u).trans (Station.queue_books _ _ _ _ _ u)) rfl ?_
    simp only [hpast, hword, hen, hbook, Nat.not_lt.2 hfmt, hin, hcons, Bool.not_true, decide_false, Bool.or_false, Bool.false_eq_true, if_false]

theorem execVecOp_issues {x1 x2 x3 : Station} (h : s.readyFor st p 0x53 w = true) (hfin : vopFin w ≤ 4) (hfout : vopFout w ≤ 4)
    (hred : vopRed w = true → 2 ^ Nat.log2 (vopCols w) = vopCols w) (hout : vopOut w = false → vopRows w = 1 ∧ vopCols w ≤ 1024)
    (hvin : vopIn (s.stn st) (vopVin w) (rowBytes (vopFin w) (vopCols w)) = some x1)
    (hvin2 : (if vopIn2 w then vopIn x1 (vopVin2 w) (rowBytes (vopFin w) (vopCols w)) else some x1) = some x2)
    (hvout : (if vopOut w then vopOutVat x2 (vopVout w) (rowBytes (vopFout w) (if vopRed w then 1 else vopCols w)) else some x2) = some x3) :
    ∃ t, execVecOp st s = .next t ∧ IssuedAt s t st w := by
  have hbooks : BooksOnly (s.stn st) x3 :=
    ((vopIn_only hvin).trans (.of_ite (fun _ => vopIn_only) hvin2)).trans (.of_ite (fun _ => vopOutVat_only) hvout)
  have hpast := State.uopsPast_eq_false (e := (s.stn st).entryFor w) hlist
  have hword : ((s.stn st).entryFor w).word = w := rfl
  refine issue_enqueue_entry h _ (fun _ => x3) hbooks.queue hbooks.sq ?_
  refine (if_neg ?_).trans ?_
  · simpa [hpast, hword, hfin, hfout, ← imp_iff_not_or] using ⟨hred, hout⟩
  · simp only [hword, hvin, hvin2, hvout]

end

theorem execVecNcomb_issues (h : s.readyFor st p 0x54 w = true) (hn : fld w 87 64 ≠ 0)
    (hsrc : (kr (s.stn st).sq.k (fld w 12 8)).toNat + fld w 34 23 * (kr (s.stn st).sq.k (fld w 17 13)).toNat + (if fbit w 35 then 16 else 8) * (fld w 60 37 + 1)
      ≤ progBase (s.prt p).prog)
    (hdst : (kr (s.stn st).sq.k (fld w 22 18)).toNat + 8 * (fld w 60 37 + 1) ≤ progBase (s.prt p).prog) :
    ∃ t, execVecNcomb st s = .next t ∧ IssuedAt s t st w := by
  refine issue_enqueue_entry_plain h _ (if_neg ?_)
  rw [Bool.not_eq_true, Bool.or_eq_false_iff, Bool.or_eq_false_iff]
  exact ⟨⟨decide_eq_false hn, State.pastLocal_eq_false hsrc⟩, State.pastLocal_eq_false hdst⟩

theorem execVecSminit_issues (h : s.readyFor st p 0x55 w = true) (hstore : fld w 21 8 + fld w 35 22 ≤ 16383) :
    ∃ t, execVecSminit st s = .next t ∧ IssuedAt s t st w := by
  refine issue_enqueue_plain h _ ?_
  rintro e rfl
  exact if_neg (Nat.not_lt.2 hstore)

theorem execVecRopeLoad_issues (h : s.readyFor st p 0x56 w = true) (hsrc : (kr (s.stn st).sq.k (fld w 12 8)).toNat + 4096 ≤ progBase (s.prt p).prog) :
    ∃ t, execVecRopeLoad st s = .next t ∧ IssuedAt s t st w := by
  refine issue_enqueue_entry_plain h _ (if_neg ?_)
  rw [Bool.not_eq_true]
  exact State.pastLocal_eq_false hsrc

/-! ### Engines, NET.SEND, mordants and CHK.KAT -/

theorem engIssue_issues {op : Nat} (h : s.readyFor st p op w = true) : ∃ t, engIssue op st s = .next t ∧ IssuedAt s t st w :=
  issue_enqueue_plain h _ fun _ _ => rfl

theorem execNetSend_issues {b b' : VatBook} (h : s.readyFor st p 0x70 w = true) (hbook : (s.stn st).book (netVat w) = some b) (hout : b.outbound = true)
    (hroute : netFault s p ((s.stn st).entryFor w) = false) (hcons : b.consume .send = some b') (hlen : b.conss < b.len) :
    ∃ t, execNetSend st s = .next t ∧ IssuedAt s t st w ∧ (t.stn st).book (netVat w) = some b' := by
  have hword : ((s.stn st).entryFor w).word = w := rfl
  refine issue_enqueue_book h _ (fun x => x.setBook (netVat w) (some b')) (fun u => Station.queue_books _ _ _ _ _ u) rfl ?_ (vget_vset_same _ _ _)
  simp only [hword, hbook, hout, hroute, hcons, Nat.not_le.2 hlen, Bool.not_true, Bool.or_false, Bool.false_eq_true, if_false]

/-- The mordant of a MOR.WAIT or MOR.READ lies in the partition's range (R273). -/
theorem issue_inMorRange {op : Nat} (h : s.readyFor st p op w = true) (hrange : s.inMorRange p (morNo w) = true) :
    ∃ t, issue op (fun s p st e => if !s.inMorRange p (morNo e.word) then .fault noLoc2 else enqueue s st e) s st = .next t ∧ IssuedAt s t st w := by
  refine issue_enqueue_plain h _ ?_
  rintro e rfl
  exact if_neg (by simp [hrange])

theorem morIssue_issues {op : Nat} (h : s.readyFor st p op w = true) (hrange : morRem w = false → s.inMorRange p (morNo w) = true)
    (hcal : fbit w 45 = (morRem w || decide (s.morHolder p (morNo w) ≠ some st))) (hroute : morRem w = true → s.routeFault p (fld w 44 35) = false) :
    ∃ t, morIssue op st s = .next t ∧ IssuedAt s t st w := by
  refine issue_enqueue_plain h _ ?_
  rintro e rfl
  refine (if_neg ?_).trans ((if_neg ?_).trans (if_neg ?_))
  · simpa using hrange
  · exact not_not.2 hcal
  · simpa using hroute

theorem execChkKat_issues (h : s.readyFor st p 0x90 w = true) (hfree : (s.stn st).arr.bkLoad = none) : ∃ t, execChkKat st s = .next t ∧ IssuedAt s t st w := by
  refine issue_enqueue_plain h _ ?_
  rintro e rfl
  exact if_neg (by simp [hfree])

end

/-- Settles O14: each instruction's own checks pass (`execVecSplit_issues`, `execVecPro_issues`, `execVecEpi_issues`, `execVecOp_issues`, `execVecNcomb_issues`, `execVecSminit_issues`,
`execVecRopeLoad_issues`). -/
theorem vectorInstructionsIssue : Obligations.VectorInstructionsIssue := by
  unfold Obligations.VectorInstructionsIssue
  refine ⟨fun s st p w h hsplit => ?_, fun s st p w h hlist => ?_, fun s st p w h hlist haside => ?_,
    fun s st p w x1 x2 x3 h hlist hfin hfout hred hout hvin hvin2 hvout => ?_, fun s st p w h hn hsrc hdst => ?_, fun s st p w h hstore => ?_, fun s st p w h hsrc => ?_⟩
  · exact execVecSplit_issues h hsplit
  · exact execVecPro_issues hlist h
  · exact execVecEpi_issues hlist h haside
  · exact execVecOp_issues hlist h hfin hfout hred hout hvin hvin2 hvout
  · exact execVecNcomb_issues h hn hsrc hdst
  · exact execVecSminit_issues h hstore
  · exact execVecRopeLoad_issues h hsrc

/-- Settles O16: the engine instructions have no check of their own (`engIssue_issues`), those of the others pass (`execNetSend_issues`, `issue_inMorRange`, `morIssue_issues`,
`execChkKat_issues`). -/
theorem outsideInstructionsIssue : Obligations.OutsideInstructionsIssue := by
  unfold Obligations.OutsideInstructionsIssue
  refine ⟨fun s st p w h => ?_, fun s st p w h => ?_, fun s st p w h => ?_, fun s st p w b b' h hbook hout hroute hcons hlen => ?_, fun s st p w h hrange => ?_,
    fun s st p w h hrange hcal hroute => ?_, fun s st p w h hrange hcal hroute => ?_, fun s st p w h hrange => ?_, fun s st p w h hfree => ?_⟩
  · exact engIssue_issues h
  · exact engIssue_issues h
  · exact engIssue_issues h
  · exact execNetSend_issues h hbook hout hroute hcons hlen
  · exact issue_inMorRange h hrange
  · exact morIssue_issues h hrange hcal hroute
  · exact morIssue_issues h hrange hcal hroute
  · exact issue_inMorRange h hrange
  · exact execChkKat_issues h hfree

end Sys2Proof.Machine
end

section
/-!
SUPPORT. The vector instructions as they fire: what arms the lanes, the row that a VEC.OP runs, and the tables of the unit (R129 to R144, R267 to R270).
-/
namespace Sys2Proof.Machine

/-! ### What arms the lanes -/

section
variable {s : State} {st : St} {e : Entry}

/-- The split changes while no element is in either pool (R129). -/
theorem execVecSplitFire_of_free (hhead : s.headOp st .vec 0x50 = some e) (hepi : epiBusy (s.stn st) = false) (hpro : proBusy (s.stn st) = false) :
    execVecSplitFire st s = .next (s.modSt st fun x => (x.pop .vec).modVec fun v => { v with split := fld e.word 11 8 }) := by
  simp only [execVecSplitFire, hhead, hepi, hpro, Bool.or_self, Bool.false_eq_true, if_false, next]

section
variable {us : List W128} (huops : uopList (s.stn st) e = some us)
include huops

/-- A list of micro-ops that a prologue may hold is armed (R133, R267). -/
theorem execVecProFire_of_list (hhead : s.headOp st .vec 0x51 = some e) (hpro : proBusy (s.stn st) = false) (hall : us.all (uopAllowed .pro) = true) :
    execVecProFire st s = .next (s.modSt st fun x => (x.pop .vec).modVec fun v => { v with pro := some ⟨e, us⟩ }) := by
  simp only [execVecProFire, hhead, hpro, huops, hall, Bool.not_true, Bool.false_eq_true, if_false, next]

/-- So for an epilogue. -/
theorem execVecEpiFire_of_list (hhead : s.headOp st .vec 0x52 = some e) (hepi : epiBusy (s.stn st) = false) (hall : us.all (uopAllowed .epi) = true) :
    execVecEpiFire st s = .next (s.modSt st fun x => (x.pop .vec).modVec fun v => { v with epi := some ⟨e, us⟩ }) := by
  simp only [execVecEpiFire, hhead, hepi, huops, hall, Bool.not_true, Bool.false_eq_true, if_false, next]

end

end

/-! ### VEC.OP -/

/-- The VEC.OP in progress goes on with its next row, or the one at the head of the queue starts, no drain through the epilogue that was issued before it being still to come (R129, R270). -/
theorem execVecOpFire_of_vopAt {s : State} {st : St} {p : Part} {m : VecRec} {x : Station} (hjob : s.jobAt st = some p) (hat : VopAt s st m x) :
    execVecOpFire st s = vopGo s st p x m := by
  obtain ⟨hop, hmore, rfl⟩ | ⟨e, us, hnone, hhead, hepi, hslice, hdrains, huops, hall, rfl, rfl⟩ := hat
  · simp only [execVecOpFire, hjob, hop, hmore, if_true]
  · have hnodrain : ((s.stn st).accQ.any fun q => opc q.word = 0x41 && drainEpi q.word && q.seq < e.seq) = false :=
      List.any_eq_false.2 fun q hq => by simpa [and_imp] using hdrains q hq
    simp only [execVecOpFire, hjob, hnone, hhead, hepi, hslice, hnodrain, huops, hall, Option.isSome_none, Bool.or_self, Bool.not_true, Bool.false_eq_true, if_false]

/-- The second operand row of a VEC.OP: that of its second input vat, or none (R270). -/
theorem vopSecond_of_row {x x2 : Station} {m : VecRec} {y y2 : Vat} {data2 : List PByte} {tag2 : Option (W16 × Nat)} {raw2 : Bool}
    (htwo : vopIn2 m.e.word = true → vopRow x m.e (vopVin2 m.e.word) = .row y2 data2 tag2 raw2 ∧ x2 = x.setVat (vopVin2 m.e.word) (some y2))
    (hone : vopIn2 m.e.word = false → data2 = [] ∧ x2 = x) :
    ∃ z tag raw, (if vopIn2 m.e.word then vopRow x m.e (vopVin2 m.e.word) else .row y [] none false) = .row z data2 tag raw ∧
      (if vopIn2 m.e.word then x.setVat (vopVin2 m.e.word) (some z) else x) = x2 := by
  cases hin2 : vopIn2 m.e.word with
  | false =>
    obtain ⟨rfl, rfl⟩ := hone hin2
    exact ⟨y, none, false, rfl, rfl⟩
  | true =>
    obtain ⟨hrow2, rfl⟩ := htwo hin2
    exact ⟨y2, tag2, raw2, hrow2, rfl⟩

section
variable {s : State} {st : St} {p : Part} {m : VecRec} {x x2 : Station} {y z : Vat} {data data2 : List PByte} {tag tag2 : Option (W16 × Nat)} {raw raw2 : Bool} {fi fo : Fmt}
  {o : RowSt} {vs : List Val} {fl : Fl}
  (hrow : vopRow x m.e (vopVin m.e.word) = .row y data tag raw) (hfi : Fmt.ofCode (vopFin m.e.word) = some fi) (hfo : Fmt.ofCode (vopFout m.e.word) = some fo)
  (hsecond : (if vopIn2 m.e.word then vopRow (x.setVat (vopVin m.e.word) (some y)) m.e (vopVin2 m.e.word) else .row y [] none false) = .row z data2 tag2 raw2)
  (hx2 : (if vopIn2 m.e.word then (x.setVat (vopVin m.e.word) (some y)).setVat (vopVin2 m.e.word) (some z) else x.setVat (vopVin m.e.word) (some y)) = x2)
  (ho : o = runProg x2 m.uops ⟨.op, m.row, m.row = 0, rowVals fi data, rowVals fi data2, false, m.e, s.jobCtx p⟩) (hfault : o.fault = false) (hpoison : o.poison = false)
  (hclean : anyPoison data = false) (hclean2 : anyPoison data2 = false)
  (hvs : vs = (if vopRed m.e.word then [(sumTree (Nat.log2 (vopCols m.e.word)) o.run).1] else o.run))
  (hfl : fl = (o.fl.or (drainBytes fo vs fun _ => false).2).or (if vopRed m.e.word then ⟨(sumTree (Nat.log2 (vopCols m.e.word)) o.run).2,
    !(sumTree (Nat.log2 (vopCols m.e.word)) o.run).1.finite⟩ else Fl.none))
include hrow hfi hfo hsecond hx2 ho hfault hpoison hclean hclean2 hvs hfl

/-- A row of a VEC.OP without an output vat stays in the unit. -/
theorem vopGo_of_kept (hout : vopOut m.e.word = false) :
    vopGo s st p x m = .next (s.modSt st fun _ => (o.x.flag fl).modVec fun v => { v with op := some { m with row := m.row + 1 } }) := by
  subst hvs hfl
  simp only [vopGo, hrow, hfi, hfo, hsecond, hx2, ← ho, hfault, hpoison, hclean, hclean2, hout, Bool.or_self, Bool.not_false, Bool.false_eq_true, if_true, if_false, next]

/-- With an output vat that has room, it is written there, and the last row ends the fill (R135, R270). -/
theorem vopGo_of_written {yo yo' : Vat} {x' : Station} (hout : vopOut m.e.word = true) (hvat : (o.x.flag fl).vat (vopVout m.e.word) = some yo)
    (hput : putRow (o.x.flag fl) yo (drainBytes fo vs fun _ => false).1 none = .done x' yo') :
    vopGo s st p x m = .next (s.modSt st fun _ =>
      (x'.setVat (vopVout m.e.word) (some (if m.row + 1 = vopRows m.e.word then yo'.endFill else yo'))).modVec fun v => { v with op := some { m with row := m.row + 1 } }) := by
  subst hvs hfl
  simp only [vopGo, hrow, hfi, hfo, hsecond, hx2, ← ho, hfault, hpoison, hclean, hclean2, hout, hvat, hput, Bool.or_self, Bool.not_true, Bool.false_eq_true, if_false, next]

end

/-- A VEC.OP that has run all its rows frees the epilogue pool (R129). -/
theorem execVecOpComplete_of_run {s : State} {st : St} {m : VecRec} (hop : (s.stn st).vec.op = some m) (hrun : vopRows m.e.word ≤ m.row) :
    execVecOpComplete st s = .next (s.modSt st fun x => x.modVec fun v => { v with op := none }) := by
  simp only [execVecOpComplete, hop, Nat.not_lt.2 hrun, if_false, next]

/-! ### VEC.NCOMB, VEC.SMINIT and VEC.ROPE.LOAD -/

section
variable {s : State} {st : St} {e : Entry}

/-- VEC.NCOMB writes the entries of all its rows if it consumes no poison (R135, R137). -/
theorem execVecNcombFire_of_clean {o : Station × Fl × Bool} (hhead : s.headOp st .vec 0x54 = some e)
    (ho : o = (List.range (fld e.word 60 37 + 1)).foldl (fun (o : Station × Fl × Bool) r =>
      let v := ncombRow o.1 e r
      (lsPutF32 (lsPutF32 o.1 ((kr e.k (fld e.word 22 18)).toNat + 8 * r) v.1) ((kr e.k (fld e.word 22 18)).toNat + 8 * r + 4) v.2.1, o.2.1.or v.2.2.1, o.2.2 || v.2.2.2))
      ((s.stn st).pop .vec, Fl.none, false)) (hclean : o.2.2 = false) :
    execVecNcombFire st s = .next (s.modSt st fun _ => o.1.flag o.2.1) := by
  simp only [execVecNcombFire, hhead, ← ho, hclean, Bool.false_eq_true, if_false, next]

theorem execVecSminitFire_of_head (hhead : s.headOp st .vec 0x55 = some e) :
    execVecSminitFire st s = .next (s.modSt st fun x => (List.range (fld e.word 35 22 + 1)).foldl
      (fun x i => smPut x (fld e.word 21 8 + i) (.inf true) (.num false 0)) (x.pop .vec)) := by
  simp only [execVecSminitFire, hhead, next]

/-- The rotary table of 512 entries in local store at `a` (R142). -/
def ropeTable (x : Station) (a : Nat) : Sparse W64 :=
  ((List.range 512).map fun i => leP (x.lsRead (a + 8 * i) 8)).zipIdx.foldl (fun m (f, i) => sput 0 m i (BitVec.ofNat 64 f)) []

/-- A rotary table that is aligned, none of its entries with a reserved bit, is loaded (R142). -/
theorem execVecRopeLoadFire_of_aligned (hhead : s.headOp st .vec 0x56 = some e) (halign : (kr e.k (fld e.word 12 8)).toNat % 8 = 0)
    (hbits : ∀ i < 512, leP ((s.stn st).lsRead ((kr e.k (fld e.word 12 8)).toNat + 8 * i) 8) < 2 ^ 48) :
    execVecRopeLoadFire st s = .next (s.modSt st fun x => (x.pop .vec).modVec fun v => { v with rope := ropeTable (s.stn st) (kr e.k (fld e.word 12 8)).toNat }) := by
  have hnoreserved : (((List.range 512).map fun i => leP ((s.stn st).lsRead ((kr e.k (fld e.word 12 8)).toNat + 8 * i) 8)).any fun v => 2 ^ 48 ≤ v) = false :=
    List.any_eq_false.2 fun v hv => by
      obtain ⟨i, hi, rfl⟩ := List.mem_map.1 hv
      simpa using hbits i (List.mem_range.1 hi)
  simp only [execVecRopeLoadFire, hhead, halign, hnoreserved, ne_eq, not_true_eq_false, decide_false, Bool.or_false, Bool.false_eq_true, if_false, next]
  rfl

end

/-- Settles O15: the lists are armed by `execVecProFire_of_list` and its companions, a VEC.OP runs its row (`execVecOpFire_of_vopAt`, `vopGo_of_kept`, `vopGo_of_written`), and the tables of the unit are written by
`execVecNcombFire_of_clean`, `execVecSminitFire_of_head` and `execVecRopeLoadFire_of_aligned`. -/
theorem vectorInstructionsFire : Obligations.VectorInstructionsFire := by
  unfold Obligations.VectorInstructionsFire
  refine ⟨fun s st e hhead hepi hpro => ?_, fun s st e us hhead hpro huops hall => ?_, fun s st e us hhead hepi huops hall => ?_,
    fun s st p m x x2 y y2 data data2 tag tag2 raw raw2 fi fo o vs fl hjob hat hrow hfi hfo htwo hone ho hfault hpoison hclean hclean2 hvs hfl => ?_,
    fun s st m hop hrun => ?_, fun s st e o hhead ho hclean => ?_, fun s st e hhead => ?_, fun s st e hhead halign hbits => ?_⟩
  · exact (exec_vecSplitFire st s).trans (execVecSplitFire_of_free hhead hepi hpro)
  · exact (exec_vecProFire st s).trans (execVecProFire_of_list huops hhead hpro hall)
  · exact (exec_vecEpiFire st s).trans (execVecEpiFire_of_list huops hhead hepi hall)
  · have hstart := (exec_vecOpFire st s).trans (execVecOpFire_of_vopAt hjob hat)
    obtain ⟨z, tag3, raw3, hsecond, hx2⟩ := vopSecond_of_row (y := y) htwo hone
    refine ⟨fun hout => ?_, fun yo yo' x' hout hvat hput => ?_⟩
    · exact hstart.trans (vopGo_of_kept hrow hfi hfo hsecond hx2 ho hfault hpoison hclean hclean2 hvs hfl hout)
    · exact hstart.trans (vopGo_of_written hrow hfi hfo hsecond hx2 ho hfault hpoison hclean hclean2 hvs hfl hout hvat hput)
  · exact (exec_vecOpComplete st s).trans (execVecOpComplete_of_run hop hrun)
  · exact (exec_vecNcombFire st s).trans (execVecNcombFire_of_clean hhead ho hclean)
  · exact (exec_vecSminitFire st s).trans (execVecSminitFire_of_head hhead)
  · refine ⟨_, (exec_vecRopeLoadFire st s).trans (execVecRopeLoadFire_of_aligned hhead halign hbits), rfl, ?_, fun a ha => s.stn_modSt_other st a _ ha⟩
    rw [State.stn_modSt_same]
    simp only [Station.modVec, ropeTable]

end Sys2Proof.Machine
end

section
/-!
SUPPORT. Known-answer testing and observation: what a slice's end leaves alone, the slices that begin and end, and the steward's queue (R155 to R158, R279, R398 to R408).
-/
namespace Sys2Proof.Machine

/-! ### Counters -/

/-- Every counter from OD 9000h on reads in `t` as in `s`. -/
def CountersKept (s t : State) : Prop := ∀ i b, 0x9000 ≤ i → t.reg i b = s.reg i b

theorem CountersKept.trans {s t u : State} (h : CountersKept s t) (k : CountersKept t u) : CountersKept s u :=
  fun i b hi => (k i b hi).trans (h i b hi)

theorem CountersKept.of_dict {s t : State} (h : t.dict = s.dict) : CountersKept s t := fun i b _ => by simp only [State.reg, h]

theorem CountersKept.ite {c : Prop} [Decidable c] {s t u : State} (h : CountersKept s t) (k : CountersKept s u) : CountersKept s (if c then t else u) := by
  split
  · exact h
  · exact k

theorem State.setReg_counters (s : State) {i b : Nat} (v : Nat) (h : odKey i b < odKey 0x9000 0) : CountersKept s (s.setReg i b v) :=
  fun j c hj => s.reg_setReg_other i b j c v (by unfold odKey at *; omega)

/-! ### What the outcome of a slice changes -/

/-- `t` differs from `s` at most in what the device keeps of its stations' health: their records, the images and passes of partitions, the clean history, and registers below OD 9000h. -/
structure HealthOnly (s t : State) : Prop where
  frame : t = { s with stw := t.stw, dict := t.dict, saved := t.saved, parts := t.parts, health := t.health }
  counters : CountersKept s t

theorem HealthOnly.refl (s : State) : HealthOnly s s := ⟨rfl, .of_dict rfl⟩

theorem HealthOnly.trans {s t u : State} (h : HealthOnly s t) (k : HealthOnly t u) : HealthOnly s u := by
  refine ⟨?_, h.counters.trans k.counters⟩
  have hu := k.frame
  rw [h.frame] at hu
  exact hu

theorem HealthOnly.ite {c : Prop} [Decidable c] {s t u : State} (h : HealthOnly s t) (k : HealthOnly s u) : HealthOnly s (if c then t else u) := by
  split
  · exact h
  · exact k

theorem HealthOnly.raise {s t : State} (h : HealthOnly s t) : RaiseOnly s t := by
  have ht := h.frame
  unfold RaiseOnly
  rw [ht]

theorem HealthOnly.faults {s t : State} (h : HealthOnly s t) : t.faults = s.faults := (congrArg State.faults h.frame :)
theorem HealthOnly.faultHold {s t : State} (h : HealthOnly s t) : t.faultHold = s.faultHold := (congrArg State.faultHold h.frame :)
theorem HealthOnly.beat {s t : State} (h : HealthOnly s t) : t.beat = s.beat := (congrArg State.beat h.frame :)
theorem HealthOnly.mem {s t : State} (h : HealthOnly s t) : t.mem = s.mem := h.raise.mem

theorem State.setReg_healthOnly (s : State) {i b : Nat} (v : Nat) (h : odKey i b < odKey 0x9000 0) : HealthOnly s (s.setReg i b v) := ⟨rfl, s.setReg_counters v h⟩
theorem State.saveReg_healthOnly (s : State) {i b : Nat} (v : Nat) (h : odKey i b < odKey 0x9000 0) : HealthOnly s (s.saveReg i b v) := ⟨rfl, s.setReg_counters v h⟩
theorem State.modHealth_healthOnly (s : State) (st : St) (f : Health → Health) : HealthOnly s (s.modHealth st f) := ⟨rfl, .of_dict rfl⟩
theorem State.modPart_healthOnly (s : State) (p : Part) (f : Partition → Partition) : HealthOnly s (s.modPart p f) := ⟨rfl, .of_dict rfl⟩

/-- The registers of the stations and partitions that health is kept in lie below the counters. -/
theorem odKey_below_counters {i b : Nat} (hi : i < 0x8FFF) (hb : b ≤ 256) : odKey i b < odKey 0x9000 0 := by
  unfold odKey
  omega

theorem State.breakHour_healthOnly (s : State) : HealthOnly s s.breakHour := ⟨rfl, s.setReg_counters 0 (odKey_below_counters (by decide) (by decide))⟩

theorem State.suspect_healthOnly (s : State) (st : St) : HealthOnly s (s.suspect st) := by
  refine HealthOnly.trans (HealthOnly.trans ?_ (State.modHealth_healthOnly _ st _)) (State.breakHour_healthOnly _)
  exact HealthOnly.ite (s.saveReg_healthOnly 1 (odKey_below_counters (by decide) (by omega))) (HealthOnly.refl s)

theorem State.cleanImages_healthOnly (s : State) (p : Part) : HealthOnly s (s.cleanImages p) := by
  unfold State.cleanImages
  split
  · exact HealthOnly.refl s
  · exact s.modPart_healthOnly p _

theorem State.stationPass_healthOnly (s : State) (st : St) : HealthOnly s (s.stationPass st) := by
  unfold State.stationPass
  dsimp only
  split
  · next p _ =>
    refine HealthOnly.ite (HealthOnly.trans (HealthOnly.trans ?_ (State.modPart_healthOnly _ p _)) (State.cleanImages_healthOnly _ p)) (s.modHealth_healthOnly st _)
    exact (s.modHealth_healthOnly st _).trans (State.setReg_healthOnly _ _ (odKey_below_counters (by decide) (by omega)))
  · exact s.modHealth_healthOnly st _

theorem State.kernelPassed_healthOnly (s : State) (st : St) (k : Nat) : HealthOnly s (s.kernelPassed st k) :=
  (s.modHealth_healthOnly st _).trans (HealthOnly.ite (State.stationPass_healthOnly _ st) (HealthOnly.refl _))

theorem State.kernelFailed_healthOnly (s : State) (st : St) (k : Nat) : HealthOnly s (s.kernelFailed st k) := by
  refine HealthOnly.trans ((s.suspect_healthOnly st).trans ?_) (State.modHealth_healthOnly _ st _)
  exact HealthOnly.ite (State.saveReg_healthOnly _ 2 (odKey_below_counters (by decide) (by omega))) (HealthOnly.refl _)

theorem State.directFails_healthOnly (s : State) (st : St) (k : Nat) : HealthOnly s (s.directFails st k) :=
  (s.kernelFailed_healthOnly st k).trans (State.modHealth_healthOnly _ st _)

theorem State.sliceClock_healthOnly (s : State) (st : St) : HealthOnly s (s.sliceClock st) :=
  HealthOnly.ite (s.setReg_healthOnly 0 (odKey_below_counters (by decide) (by omega))) (HealthOnly.refl s)

/-- A kernel that fails runs again (R401). -/
theorem State.kernelFailed_again (s : State) (st : St) (k : Nat) : ((s.kernelFailed st k).hlt st).again = some k := by
  rw [State.kernelFailed, State.hlt_modHealth_same]

/-- A direct slice that fails also leaves its station without a pass and to be isolated (R402, R416). -/
theorem State.directFails_hlt (s : State) (st : St) (k : Nat) :
    ((s.directFails st k).hlt st).again = some k ∧ ((s.directFails st k).hlt st).isolate = true ∧ ((s.directFails st k).hlt st).lastPass = none := by
  rw [State.directFails, State.hlt_modHealth_same]
  exact ⟨s.kernelFailed_again st k, rfl, rfl⟩

/-! ### Faults and counters -/

theorem State.record_counters (s : State) (r : FaultRec) : CountersKept s (s.record r) := by
  refine CountersKept.ite ?_ (CountersKept.ite (.of_dict rfl) (.of_dict rfl))
  refine CountersKept.trans ?_ (.of_dict (State.notify_only _ _ _ _).dict)
  exact State.setReg_counters _ _ (odKey_below_counters (by decide) (by decide))

theorem State.noteFault_healthOnly (s : State) (p : Option Part) (c d : Nat) (x : Site) (e : Bool) : HealthOnly s (s.noteFault p c d x e) := by
  have hpart : ∀ (u : State) (b : Bool) (g : State → Partition → Partition), HealthOnly u (if b then u.modPart (p.getD 0) (g u) else u) := fun u _ _ =>
    HealthOnly.ite (u.modPart_healthOnly _ _) (HealthOnly.refl u)
  have hbreach : ∀ u : State, HealthOnly u (if c = 0x0D then u.count 0x7016 ((p.getD 0).val + 1) else u) := fun u =>
    HealthOnly.ite (u.setReg_healthOnly _ (odKey_below_counters (by decide) (by omega))) (HealthOnly.refl u)
  refine HealthOnly.trans (((hpart s e fun _ x => { x with faultRaise := true }).trans (hpart _ p.isSome fun u x => { x with sec := x.sec.onFault c d u.time e })).trans (hbreach _)) ?_
  exact HealthOnly.ite ((State.suspect_healthOnly _ _).trans (State.modHealth_healthOnly _ _ _)) (HealthOnly.ite (State.breakHour_healthOnly _) (HealthOnly.refl _))

theorem State.raise_counters (s : State) (p : Option Part) (c d : Nat) (x : Site) : CountersKept s (s.raise p c d x) := by
  have hrecord : ∀ (e live : Bool) (r : FaultRec), CountersKept s
      (if live then { s.noteFault p c d x e with beat := beatAdd (s.noteFault p c d x e).beat r } else (s.noteFault p c d x e).record r) := fun e _ r =>
    (s.noteFault_healthOnly p c d x e).counters.trans (CountersKept.ite (.of_dict rfl) (State.record_counters _ r))
  exact CountersKept.ite (.of_dict rfl) (hrecord _ _ _)

/-- A record stands when what comes after it leaves the beat and the log, if what comes before it leaves the beat, the time, the jobs and the steward. -/
theorem Records.between {s u v t : State} {p : Option Part} {c d : Nat} {x : Site} (h : Records u v p c d x) (hbeat : u.beat = s.beat) (htime : u.time = s.time)
    (hparts : u.parts = s.parts) (hup : u.stewardUp = s.stewardUp) (hafter : HealthOnly v t) : Records s t p c d x := by
  have hprt : ∀ q, s.prt q = u.prt q := fun q => congrArg (vget · q) hparts.symm
  simpa only [Records, State.newest, hprt, ← hbeat, ← htime, ← hup, hafter.beat, hafter.faults, hafter.faultHold] using h

/-! ### A slice ends -/

theorem State.endSlice_stn (s : State) (st : St) (b : SliceBits) : ∃ v, (s.endSlice st b).stn st =
    { s.stn st with arr := { (s.stn st).arr with slice := none, shadow := none, signature := sliceSigs b }, vec := v } := ⟨_, State.stn_modSt_same _ _ _⟩

theorem State.endSlice_reg_below (s : State) (st : St) (b : SliceBits) {i j : Nat} (h : odKey i j < odKey 0x9000 0) : (s.endSlice st b).reg i j = s.reg i j :=
  State.reg_setReg_other { s with draws := s.draws + 4096 } 0x9020 (st.val + 1) i j _ (by unfold odKey at *; omega)

theorem State.ownerOf_congr {s t : State} (h : ∀ p : Part, t.reg 0x2100 (p.val + 1) = s.reg 0x2100 (p.val + 1)) (st : St) : t.ownerOf st = s.ownerOf st := by
  simp only [State.ownerOf, State.inRange, State.rangeOf, h]

/-- What holds of every slice that has ended, whatever its outcome (R155, R157, R158). -/
theorem State.endSlice_leaves {s t : State} {st : St} {b : SliceBits} (hwf : s.regsWf = true) (hraise : RaiseOnly (s.endSlice st b) t) (hcount : CountersKept (s.endSlice st b) t) :
    (t.stn st).arr.slice = none ∧ (t.stn st).arr.shadow = none ∧ (t.stn st).arr.active = (s.stn st).arr.active ∧ (t.stn st).arr.signature = sliceSigs b ∧
    t.reg 0x9020 (st.val + 1) = min (s.reg 0x9020 (st.val + 1) + 1) 0xFFFFFFFF ∧ t.mem = s.mem ∧ (t.stn st).ls = (s.stn st).ls ∧ (t.stn st).tiles = (s.stn st).tiles ∧
    ∀ a, a ≠ st → t.stn a = s.stn a := by
  have hstn : ∀ a, t.stn a = (s.endSlice st b).stn a := fun a => congrArg (vget · a) hraise.stations
  obtain ⟨v, hv⟩ := s.endSlice_stn st b
  have hst := (hstn st).trans hv
  have hslices : t.reg 0x9020 (st.val + 1) = min (s.reg 0x9020 (st.val + 1) + 1) 0xFFFFFFFF :=
    (hcount _ _ (by decide)).trans (State.reg_count_same { s with draws := s.draws + 4096 } _ _ 1 hwf)
  refine ⟨?_, ?_, ?_, ?_, hslices, hraise.mem, ?_, ?_, fun a ha => (hstn a).trans (State.stn_modSt_other _ _ _ _ ha)⟩ <;> rw [hst]

/-- The slice `c` has ended at its station, its outcome still open: outside a job the station's clock stops (R279), in a job its test time counts. -/
def State.sliceEnded (s : State) (st : St) (b : SliceBits) (c : Slice) : State :=
  let u := (s.endSlice st b).modHealth st fun h => { h with katSc := h.katSc + (if c.direct then 0 else shapeK c.shape + 160) }
  if c.direct then u.sliceClock st else u

/-- The state in which the outcome of the slice has been dealt with (R158, R401, R402). -/
def State.sliceDone (s : State) (st : St) (b : SliceBits) (c : Slice) : State :=
  if slicePasses c.kern c.shape b then (s.sliceEnded st b c).kernelPassed st c.kern
  else if c.direct then (s.sliceEnded st b c).directFails st c.kern
  else ((s.sliceEnded st b c).faultAt st 3 0x0300 noLoc2 c.pc).kernelFailed st c.kern

theorem execTestSliceEnd_of_slice {s : State} {st : St} {c : Slice} (b : SliceBits) (hslice : (s.stn st).arr.slice = some c) :
    execTestSliceEnd st b s = .next (s.sliceDone st b c) := by
  simp only [execTestSliceEnd, hslice]
  exact (apply_ite Host.Outcome.next _ _ _).symm

section
variable (s : State) (st : St) (b : SliceBits) (c : Slice)

theorem State.sliceEnded_healthOnly : HealthOnly (s.endSlice st b) (s.sliceEnded st b c) :=
  HealthOnly.ite ((State.modHealth_healthOnly _ st _).trans (State.sliceClock_healthOnly _ st)) (State.modHealth_healthOnly _ st _)

theorem State.sliceDone_raise : RaiseOnly (s.endSlice st b) (s.sliceDone st b c) := by
  refine (s.sliceEnded_healthOnly st b c).raise.trans ?_
  refine RaiseOnly.ite (State.kernelPassed_healthOnly _ st _).raise (RaiseOnly.ite (State.directFails_healthOnly _ st _).raise ?_)
  exact (State.faultAt_only _ _ _ _ _ _).trans (State.kernelFailed_healthOnly _ st _).raise

theorem State.sliceDone_counters : CountersKept (s.endSlice st b) (s.sliceDone st b c) := by
  refine (s.sliceEnded_healthOnly st b c).counters.trans ?_
  refine CountersKept.ite (State.kernelPassed_healthOnly _ st _).counters (CountersKept.ite (State.directFails_healthOnly _ st _).counters ?_)
  exact (State.raise_counters _ _ _ _ _).trans (State.kernelFailed_healthOnly _ st _).counters

variable {c}

theorem State.sliceDone_of_pass (hpass : slicePasses c.kern c.shape b = true) : HealthOnly (s.endSlice st b) (s.sliceDone st b c) := by
  rw [State.sliceDone, if_pos hpass]
  exact (s.sliceEnded_healthOnly st b c).trans (State.kernelPassed_healthOnly _ st _)

variable (hfail : slicePasses c.kern c.shape b = false)
include hfail

theorem State.sliceDone_of_direct (hdirect : c.direct = true) : s.sliceDone st b c = (s.sliceEnded st b c).directFails st c.kern := by
  rw [State.sliceDone, if_neg (Bool.eq_false_iff.1 hfail), if_pos hdirect]

/-- A slice of a job that fails is a fault at its CHK.KAT (R158, R401). -/
theorem State.sliceDone_of_job (hjob : c.direct = false) :
    Records s (s.sliceDone st b c) (s.ownerOf st) 3 0x0300 (siteStation st noLoc2 c.pc) ∧ ((s.sliceDone st b c).hlt st).again = some c.kern := by
  have hnot : ¬ c.direct = true := Bool.eq_false_iff.1 hjob
  obtain ⟨f, hended⟩ : ∃ f, s.sliceEnded st b c = (s.endSlice st b).modHealth st f := ⟨_, if_neg hnot⟩
  have howner : ((s.endSlice st b).modHealth st f).ownerOf st = s.ownerOf st :=
    State.ownerOf_congr (fun p => s.endSlice_reg_below st b (odKey_below_counters (by decide) (by omega))) st
  have hup : ((s.endSlice st b).modHealth st f).stewardUp = s.stewardUp := State.stewardUp_of_reg (s.endSlice_reg_below st b (odKey_below_counters (by decide) (by decide)))
  rw [State.sliceDone, if_neg (Bool.eq_false_iff.1 hfail), if_neg hnot, hended, ← howner]
  exact ⟨(State.faultAt_records _ st 3 0x0300 noLoc2 c.pc).between rfl rfl rfl hup (State.kernelFailed_healthOnly _ st _), State.kernelFailed_again _ st _⟩

end

/-! ### A slice begins -/

/-- The array as the slice of kernel `k` begins: the test block starts into the shadow registers (R155, R157). -/
theorem State.startSlice_arr (s : State) (st : St) (pc : Nat) (direct : Bool) :
    (s.startSlice st pc direct).stn st = (s.stn st).modArr fun a => { a with
      slice := some ⟨((s.hlt st).pick (s.observed st)).1, Config.kernelSeed ((s.hlt st).pick (s.observed st)).1, a.shape, pc, direct⟩
      shadow := some (testBlock (Config.kernelSeed ((s.hlt st).pick (s.observed st)).1) ((s.hlt st).pick (s.observed st)).1 a.shape) } :=
  State.stn_modSt_same _ _ _

theorem execChkKatFire_of_free {s : State} {st : St} {p : Part} {e : Entry} (hhead : s.headOp st .chk 0x90 = some e) (hjob : s.jobAt st = some p)
    (hfree : katFree (s.stn st) = true) (hrun : (s.prt p).held = false) :
    execChkKatFire st s = .next ((s.modSt st fun x => x.pop .chk).startSlice st e.pc false) := by
  simp only [execChkKatFire, hhead, hjob, hfree, hrun, Bool.not_true, Bool.or_self, Bool.false_eq_true, if_false, next]

/-! ### Idle stations -/

section
variable {s : State} {st : St} (hidle : s.stationIdle st = true) (hup : s.stewardUp = true) (hslice : (s.stn st).arr.slice = none)
include hidle hup hslice

theorem execDirectTestSlice_of_idle : execDirectTestSlice st s = .next ((s.startSlice st noPc true).setReg 0x4101 (st.val + 1) 1100) := by
  simp only [execDirectTestSlice, hidle, hup, hslice, Option.isSome_none, Bool.not_true, Bool.or_self, Bool.false_eq_true, if_false, next]

/-- A rotation that passes is a pass of the station (R399, R402). -/
theorem execIdleStationRotation_of_pass : execIdleStationRotation st none s =
    .next ((s.slicesRun st rotationSet).modHealth st fun h => { h with lastPass := some (s.time, s.time), passFrom := s.time, passed := [] }) := by
  simp only [execIdleStationRotation, hidle, hup, hslice, Option.isSome_none, Bool.not_true, Bool.or_self, Bool.false_eq_true, if_false, next]

/-- One that fails stops at its kernel, with the slices before it run. -/
theorem execIdleStationRotation_of_fail {k : Nat} {b : SliceBits} (hk : k < rotationSet) (hclear : b.clear = false) :
    execIdleStationRotation st (some (k, b)) s = .next (((if k = 0 then s else s.slicesRun st k).endSlice st b).directFails st k) := by
  have hfails : slicePasses k (s.stn st).arr.shape b = false := by simp [slicePasses, hclear]
  simp only [execIdleStationRotation, hidle, hup, hslice, hfails, Nat.not_le.2 hk, Option.isSome_none, Bool.not_true, Bool.or_self, decide_false, Bool.false_eq_true, if_false, next]

end

/-! ### The steward's queue -/

theorem Health.gen_queue (h : Health) (observed : Bool) : (h.gen observed).2.queue = h.queue := by
  unfold Health.gen
  split <;> rfl

/-- The queue takes every kernel that it has room for (R399). -/
theorem Health.fill_length (observed : Bool) : ∀ (n : Nat) (h : Health), h.queue.length ≤ 8192 → (Health.fill observed n h).queue.length = min 8192 (h.queue.length + n)
  | 0, h, hle => (Nat.min_eq_right hle).symm
  | n + 1, h, hle => by
    unfold Health.fill
    split
    · next hfull => omega
    · next hroom =>
      rw [Health.fill_length observed n _ (by simp [Health.gen_queue]; omega)]
      simp only [Health.gen_queue, List.length_append, List.length_cons, List.length_nil]
      omega

/-! ### Sequencer compare and observation -/

theorem execSequencerCompareMismatch_stops (s : State) (st : St) : execSequencerCompareMismatch st s =
    .next ((s.modSt st fun x => { x with sq := { x.sq with stopped := true } }).faultAt st 3 0x0301 noLoc2 (s.stn st).sq.pc) := rfl

theorem State.breakHour_frame (s : State) :
    s.breakHour = { s with dict := s.breakHour.dict, saved := s.breakHour.saved, stw := { s.stw with hourBad := true } } := rfl

/-- Of what a change of registers leaves alone, a broken hour changes its own mark alone (R409). -/
theorem State.breakHour_after_registers {s u : State} (h : u = { s with dict := u.dict, saved := u.saved }) :
    u.breakHour = { s with dict := u.breakHour.dict, saved := u.breakHour.saved, stw := { s.stw with hourBad := true } } := by
  refine u.breakHour_frame.trans ?_
  generalize u.breakHour.dict = d, u.breakHour.saved = v
  rw [h]

theorem execObservationExpiry_of_quiet {s : State} {st : St} (hobserved : s.reg 0x7010 (st.val + 1) = 1) (hup : s.stewardUp = true)
    (hquiet : s.passed (s.hlt st).lastEvent (3 * dayNs) = true) : execObservationExpiry st s = .next (s.saveReg 0x7010 (st.val + 1) 0).breakHour := by
  simp only [execObservationExpiry, hobserved, hup, hquiet, decide_true, Bool.and_self, if_true, next]

/-- Settles O19: a slice begins by `execChkKatFire_of_free` or `execDirectTestSlice_of_idle` and ends by `execTestSliceEnd_of_slice`, with `State.endSlice_leaves` for every outcome and
`State.sliceDone_of_pass`, `State.sliceDone_of_direct` and `State.sliceDone_of_job` for each; the queue fills by `Health.fill_length`. -/
theorem knownAnswerTests : Obligations.KnownAnswerTests := by
  unfold Obligations.KnownAnswerTests
  refine ⟨fun s st p e hhead hjob hfree hrun => ?_, fun s st c b hslice hwf => ?_, fun s st hidle hup hslice hwf => ?_, fun s st n hup hle => ?_,
    fun s st hidle hup hslice hwf => ?_, fun s st k b hidle hup hslice hk hclear => ?_, fun s st => ?_, fun s st hobserved hup hquiet hwf => ?_⟩
  · have hstn := State.startSlice_arr (s.modSt st fun x => x.pop .chk) st e.pc false
    rw [State.stn_modSt_same] at hstn
    refine ⟨_, _, (exec_chkKatFire st s).trans (execChkKatFire_of_free hhead hjob hfree hrun), rfl, ?_, ?_, ?_, rfl, fun a ha => ?_⟩
    · rw [hstn]; rfl
    · rw [hstn]; rfl
    · rw [hstn]; rfl
    · exact (State.stn_modSt_other _ _ _ _ ha).trans (State.stn_modSt_other s _ _ _ ha)
  · obtain ⟨hempty, hshadow, hactive, hsig, hcount, hmem, hls, htiles, hothers⟩ := State.endSlice_leaves hwf (s.sliceDone_raise st b c) (s.sliceDone_counters st b c)
    refine ⟨_, (exec_testSliceEnd st b s).trans (execTestSliceEnd_of_slice b hslice), hempty, hshadow, hactive, hsig, hcount, hmem, hls, htiles,
      fun hpass => ?_, fun hfail hdirect => ?_, fun hfail hinJob => ?_, hothers⟩
    · exact ⟨(s.sliceDone_of_pass st b hpass).faults, (s.sliceDone_of_pass st b hpass).beat⟩
    · have hkept := (s.sliceEnded_healthOnly st b c).trans (State.directFails_healthOnly _ st c.kern)
      rw [s.sliceDone_of_direct st b hfail hdirect]
      exact ⟨hkept.faults, hkept.beat, State.directFails_hlt _ st c.kern⟩
    · exact s.sliceDone_of_job st b hfail hinJob
  · refine ⟨_, _, (exec_directTestSlice st s).trans (execDirectTestSlice_of_idle hidle hup hslice), rfl, ?_, ?_, rfl, fun a ha => ?_⟩
    · rw [State.setReg_stn, State.startSlice_arr]; rfl
    · exact State.reg_setReg_same _ _ _ _ (by decide) hwf
    · exact State.stn_modSt_other _ _ _ _ ha
  · refine ⟨s.modHealth st (Health.fill (s.observed st) (min n 8192)), ?_, ?_, rfl⟩
    · simp only [exec_katQueueFill, execKatQueueFill, hup, Bool.not_true, Bool.false_eq_true, if_false, next]
    · rw [State.hlt_modHealth_same, Health.fill_length _ _ _ hle]
      omega
  · refine ⟨_, (exec_idleStationRotation st none s).trans (execIdleStationRotation_of_pass hidle hup hslice), ?_, rfl, rfl, ?_⟩
    · rw [State.hlt_modHealth_same]
    · exact State.reg_count_same { s with draws := s.draws + 4096 } _ _ rotationSet hwf
  · have hkept := State.directFails_healthOnly ((if k = 0 then s else s.slicesRun st k).endSlice st b) st k
    obtain ⟨hagain, hisolate, hpass⟩ := State.directFails_hlt ((if k = 0 then s else s.slicesRun st k).endSlice st b) st k
    refine ⟨_, (exec_idleStationRotation st (some (k, b)) s).trans (execIdleStationRotation_of_fail hidle hup hslice hk hclear), hagain, hisolate, hpass,
      hkept.faults.trans ?_, hkept.mem.trans ?_⟩
    · show (if k = 0 then s else s.slicesRun st k).faults = s.faults
      split <;> rfl
    · show (if k = 0 then s else s.slicesRun st k).mem = s.mem
      split <;> rfl
  · refine ⟨_, (exec_sequencerCompareMismatch st s).trans (execSequencerCompareMismatch_stops s st), ?_, ?_⟩
    · rw [State.faultAt_stn, State.stn_modSt_same]
    · exact State.faultAt_records (s.modSt st fun x => { x with sq := { x.sq with stopped := true } }) st 3 0x0301 noLoc2 (s.stn st).sq.pc
  · refine ⟨_, (exec_observationExpiry st s).trans (execObservationExpiry_of_quiet hobserved hup hquiet), ?_, ?_, State.breakHour_after_registers rfl⟩
    · exact (State.reg_setReg_other _ _ _ _ _ _ (by unfold odKey; omega)).trans (State.reg_setReg_same s _ _ 0 (by decide) hwf)
    · exact State.reg_setReg_same _ _ _ 0 (by decide) (s.setReg_rising _ _ 0 hwf)

end Sys2Proof.Machine
end

section
/-!
SUPPORT. The Madder engine's group as one piece of work: what `madderRun` does at the head of its queue once nothing keeps it waiting (R179 to R185).
-/
namespace Sys2Proof.Machine

/-- The next `n` elements of a checked descriptor: the reads and updates of the group, and its writes up to the first that meets a secured block. -/
def madderMove (ecc : MemEcc) (site : Site) (d : DescRec) (n : Nat) (s : State) : Except Halt (DescRec × State) := do
  let (es, s) ← groupElems ecc site d n s
  let fl := if d.skip then Fl.none else es.foldl (fun f e => f.or e.fl) (groupCopies d es).2
  let o := madderFlow ecc (madderGroup d n es) s
  return ({ d with done := d.done + n, hold := false, wq := o.1 }, o.2.orStatus d.st fl.ovf fl.nv)

/-- The group of the descriptor at the head of its queue, after its checks where it is new. -/
def madderTry (ecc : MemEcc) (t : Twr) (p : Part) (d : DescRec) (n : Nat) (s : State) : Except Halt (DescRec × State) := do
  let (d', s) ← if d.checked then .ok (d, s) else madderStart ecc t p d s
  madderMove ecc (towerSite t 0 d.st.val d.pc) d' n s

/-- A run is a wait, the raise of HOLD, or `madderTry` and what becomes of the descriptor. -/
theorem madderRun_eq (mode : Nat) (t : Twr) (p : Part) (ecc : MemEcc) (s : State) : madderRun mode t p ecc s =
    match vget (s.twr t).mq p with
    | [] => noEvent s
    | d :: rest =>
      if mdMode d ≠ mode && !(mode = 0 && 1 < mdMode d) || !s.engineUp t p || d.wq ≠ [] || (!d.checked && s.awaitsOpen p (mdStep d)) ||
          (d.checked && mdCount d ≤ d.done) then noEvent s
      else if !d.checked && !d.poison && madderOk s t p d && s.stepBlocked p (mdStep d) then
        if d.hold then noEvent s
        else next ((s.setMq t p ({ d with hold := true } :: rest)).count 0x9091 (p.val + 1))
      else if ((s.prt p).held && !d.hold) ||
          ((d.checked || (!d.poison && madderOk s t p d)) && !s.madderFree d (min 1024 (mdCount d - d.done))) then noEvent s
      else match madderTry ecc t p d (min 1024 (mdCount d - d.done)) s with
        | .ok (d, s) => next (s.setMq t p (d :: rest))
        | .error (.wait _) => noEvent s
        | .error (.fault s' c dt site) => next ((s'.setMq t p rest).raise (some p) c dt site) := rfl

end Sys2Proof.Machine
end

section
/-!
SUPPORT. How a step changes memory, poison, mordants, registers and the fault log. The model makes each such change in one of a few ways
  (`Edit`), and what a function of the
model does is a sequence of them: `Edits.f` says so of the function `f`, by the functions that `f` itself calls, up to `exec_edits` for every command.
  A property of those parts
that every single change keeps then holds after every step.
-/
namespace Sys2Proof.Machine

/-! ### The changes -/

/-- The parts of a state that the canonical forms and the order of the fault log speak of. -/
def State.kept (s : State) : (Sparse Byte × Sparse Byte × List Nat) × Sparse Mordant × Sparse W64 × List FaultRec × List FaultRec × Nat × W16 :=
  (s.stores, s.mordants, s.dict, s.faults, s.faultHold, s.acked, s.seqNext)

/-- One change to those parts, as the model makes it; the index says whether it may be one to what towers and stashes hold. -/
inductive Edit : Bool → State → State → Prop
  | other {may : Bool} {s t : State} (h : t.kept = s.kept) : Edit may s t
  | putReg {may : Bool} (s : State) (d : W64) (k : Nat) (v : W64) : Edit may s { s with dict := dictPut d s.dict k v }
  | dropRegs {may : Bool} (s : State) (f : Nat × W64 → Bool) : Edit may s { s with dict := s.dict.filter f }
  | putMor {may : Bool} (s : State) (m : Nat) (x : Mordant) : Edit may s (s.setMor m x)
  | dropMors {may : Bool} (s : State) (f : Nat × Mordant → Bool) : Edit may s { s with mordants := s.mordants.filter f }
  | log {may : Bool} (s : State) {r : FaultRec} (h : r.seq = s.seqNext) : Edit may s { s with
      faults := (if decide (4096 ≤ s.faults.length) then s.faults.drop 1 else s.faults) ++ [r]
      acked := if decide (4096 ≤ s.faults.length) then s.acked - 1 else s.acked
      seqNext := s.seqNext + 1 }
  | hold {may : Bool} (s : State) (r : FaultRec) :
      Edit may s { s with faultHold := (if s.faultHold.length < 1024 then s.faultHold else s.faultHold.drop 1) ++ [r] }
  | dropHeld {may : Bool} (s : State) : Edit may s { s with faultHold := [] }
  | ack {may : Bool} {s : State} {k : Nat} (h : k < s.faults.length) : Edit may s { s with acked := max s.acked (k + 1) }
  | putByte (s : State) (a : Nat) (b : Byte) : Edit true s (s.putByte a b)
  | putSector (s : State) (k : Nat) (v : Byte) : Edit true s (s.setSector k v)
  | poisonWord (s : State) (k : Nat) : Edit true s { s with stashPoison := setAdd s.stashPoison k }
  | dropBytes (s : State) (f g : Nat × Byte → Bool) (h : Nat → Bool) :
      Edit true s { s with mem := s.mem.filter f, poison := s.poison.filter g, stashPoison := s.stashPoison.filter h }

/-- `t` follows from `s` by such changes. -/
def Edits (may : Bool) : State → State → Prop := Relation.ReflTransGen (Edit may)

/-- Every next state that a command answers follows from `s`. -/
def Answers (may : Bool) (s : State) (o : Host.Outcome State Fault Refusal) : Prop := ∀ t, o = .next t → Edits may s t

/-- So for the state in which the checks of an instruction let it issue. -/
def Checks (may : Bool) (s : State) (c : Chk) : Prop := ∀ t n, c = .ok t n → Edits may s t

/-- So for the state, found by `f`, that a piece of an engine's work leaves, and for the one in which it faults. -/
def Runs {α : Type} (may : Bool) (s : State) (f : α → State) (r : Except Halt α) : Prop :=
  (∀ a, r = .ok a → Edits may s (f a)) ∧ ∀ t c d x, r = .error (.fault t c d x) → Edits may s t

/-- What a request of the dictionary does, beside its status, keeps every state following from `s`. -/
def Acts {α : Type} (may : Bool) (s : State) (x : α × (State → State)) : Prop := ∀ t, Edits may s t → Edits may s (x.2 t)

/-- So beside a status and data. -/
def Replies {α β : Type} (may : Bool) (s : State) (x : α × β × (State → State)) : Prop := ∀ t, Edits may s t → Edits may s (x.2.2 t)

section
variable {may : Bool} {s₀ s t : State}

namespace Edits

theorem refl : Edits may s s := Relation.ReflTransGen.refl

theorem edit (hs : Edits may s₀ s) (h : Edit may s t) : Edits may s₀ t := Relation.ReflTransGen.tail hs h

theorem other (hs : Edits may s₀ s) (h : t.kept = s.kept) : Edits may s₀ t := hs.edit (.other h)

/-- An update of any other part of the state; written out by fields, it fits every record update of the model. -/
theorem frame {time : W64} {stations : Vector Station 18} {parts : Vector Partition 4} {fetches : List Fetch} {writes : List MemWrite}
    {morOps : List MorOp} {descs : List DescFlight} {xfers : List Xfer} {towers : Vector Tower 8} {route : Vector RouteEngine 4} {clk : Clocks}
    {pwr : Power} {stw : Steward} {host : Vector HostFn 5} {hostHeld : List HostItem} {perst : Bool} {ports : Vector Port 28} {fab : Fabric}
    {health : Vector Health 18} {saved : Sparse W64} {doms : List (Nat × List Byte)} {savedDoms : List (Nat × List Byte)} {beat : List FaultRec}
    {faultLost : Bool} {draws : Nat} {out : List Output} {pending : List Instr} (hs : Edits may s₀ s) :
    Edits may s₀ ⟨time, stations, parts, s.mordants, s.mem, s.poison, s.stashPoison, fetches, writes, morOps, descs, xfers, towers, route, clk, pwr,
      stw, host, hostHeld, perst, ports, fab, health, s.dict, saved, doms, savedDoms, beat, s.faults, s.faultHold, faultLost, s.acked, s.seqNext,
      draws, out, pending⟩ :=
  hs.other rfl

theorem ite {c : Prop} [Decidable c] (hs : Edits may s₀ s) (ht : Edits may s₀ t) : Edits may s₀ (if c then s else t) := by
  split <;> assumption

/-- A fold over a value that carries the state. -/
theorem foldlOf {α β : Type} (f : β → State) {g : β → α → β} {l : List α} {b : β} (hb : Edits may s₀ (f b))
    (h : ∀ b a, Edits may s₀ (f b) → Edits may s₀ (f (g b a))) :
    Edits may s₀ (f (l.foldl g b)) :=
  List.foldlRecOn (motive := fun b => Edits may s₀ (f b)) l g hb fun b hb a _ => h b a hb

theorem foldl {α : Type} {g : State → α → State} {l : List α} (hs : Edits may s₀ s) (h : ∀ t a, Edits may s₀ t → Edits may s₀ (g t a)) :
    Edits may s₀ (l.foldl g s) :=
  foldlOf id hs h

end Edits

namespace Answers

theorem next (hs : Edits may s₀ s) : Answers may s₀ (Host.Outcome.next s) := by
  rintro _ ⟨⟩
  exact hs

theorem ite {c : Prop} [Decidable c] {o o' : Host.Outcome State Fault Refusal} (h : Answers may s₀ o) (h' : Answers may s₀ o') :
    Answers may s₀ (if c then o else o') := by
  split <;> assumption

end Answers

namespace Checks

theorem fault {l : Nat} : Checks may s₀ (Chk.fault l) := fun _ _ h => nomatch h

theorem wait : Checks may s₀ Chk.wait := fun _ _ h => nomatch h

theorem ok {n : Nat} (hs : Edits may s₀ s) : Checks may s₀ (Chk.ok s n) := by
  rintro _ _ ⟨⟩
  exact hs

theorem ite {c : Prop} [Decidable c] {x y : Chk} (h : Checks may s₀ x) (h' : Checks may s₀ y) : Checks may s₀ (if c then x else y) := by
  split <;> assumption

end Checks

namespace Runs
variable {α β : Type} {f : α → State} {g : β → State}

theorem ok {a : α} (h : Edits may s₀ (f a)) : Runs may s₀ f (.ok a) := by
  refine ⟨?_, fun _ _ _ _ h => nomatch h⟩
  rintro _ ⟨⟩
  exact h

theorem fault {c d : Nat} {x : Site} (hs : Edits may s₀ s) : Runs may s₀ f (.error (.fault s c d x)) := by
  refine ⟨fun _ h => (nomatch h), ?_⟩
  rintro _ _ _ _ ⟨⟩
  exact hs

theorem wait {x : Option (Nat × Nat)} : Runs may s₀ f (.error (.wait x)) := ⟨fun _ h => (nomatch h), fun _ _ _ _ h => (nomatch h)⟩

theorem ite {c : Prop} [Decidable c] {r r' : Except Halt α} (h : Runs may s₀ f r) (h' : Runs may s₀ f r') : Runs may s₀ f (if c then r else r') := by
  split <;> assumption

theorem bind {r : Except Halt α} {k : α → Except Halt β} (h : Runs may s₀ f r) (hk : ∀ a, Edits may s₀ (f a) → Runs may s₀ g (k a)) :
    Runs may s₀ g (r >>= k) := by
  cases r with
  | ok a => exact hk a (h.1 a rfl)
  | error e =>
    show Runs may s₀ g (.error e)
    exact ⟨fun _ h => (nomatch h), fun t c d x he => h.2 t c d x (by cases he; rfl)⟩

/-- A step taken in one of two ways, with the same rest. -/
theorem iteBind {c : Prop} [Decidable c] {r r' : Except Halt α} {k : α → Except Halt β} (h : Runs may s₀ f r) (h' : Runs may s₀ f r')
    (hk : ∀ a, Edits may s₀ (f a) → Runs may s₀ g (k a)) : Runs may s₀ g (if c then r >>= k else r' >>= k) :=
  .ite (h.bind hk) (h'.bind hk)

theorem foldlM {l : List β} {k : α → β → Except Halt α} (hk : ∀ a b, Edits may s₀ (f a) → Runs may s₀ f (k a b)) :
    ∀ {a : α}, Edits may s₀ (f a) → Runs may s₀ f (l.foldlM k a) := by
  induction l with
  | nil => exact fun h => .ok h
  | cons b l ih => exact fun h => (hk _ b h).bind fun _ => ih

end Runs

namespace Acts

theorem mk {α : Type} {x : α} {f : State → State} (h : ∀ t, Edits may s₀ t → Edits may s₀ (f t)) : Acts may s₀ (x, f) := h

theorem ite {α : Type} {c : Prop} [Decidable c] {x y : α × (State → State)} (h : Acts may s₀ x) (h' : Acts may s₀ y) :
    Acts may s₀ (if c then x else y) := by
  split <;> assumption

theorem refused {idx sub status : Nat} : Acts may s₀ (Machine.refused idx sub status) := fun _ h => h.edit (.putReg _ _ _ _)

theorem checked {status : Nat} {f : State → State} (h : ∀ t, Edits may s₀ t → Edits may s₀ (f t)) : Acts may s₀ (Machine.checked status f) := by
  intro t ht
  unfold Machine.checked
  dsimp only
  split
  · exact h t ht
  · exact ht

end Acts

namespace Replies
variable {α β : Type} {x : α} {y : β} {f : State → State}

theorem mk (h : ∀ t, Edits may s₀ t → Edits may s₀ (f t)) : Replies may s₀ (x, y, f) := h

/-- A request that is carried out with status 0 alone. -/
theorem guarded {c : Prop} [Decidable c] (h : ∀ t, Edits may s₀ t → Edits may s₀ (f t)) : Replies may s₀ (x, y, if c then f else id) := by
  split
  · exact h
  · exact fun _ ht => ht

theorem ite {c : Prop} [Decidable c] {x y : α × β × (State → State)} (h : Replies may s₀ x) (h' : Replies may s₀ y) :
    Replies may s₀ (if c then x else y) := by
  split <;> assumption

end Replies

/-! ### Shared operations: registers, mordants, memory, records -/

theorem Edits.modSt {st : St} {f : Station → Station} (hs : Edits may s₀ s) : Edits may s₀ (s.modSt st f) := hs.frame

theorem Edits.modPart {p : Part} {f : Partition → Partition} (hs : Edits may s₀ s) : Edits may s₀ (s.modPart p f) := hs.frame

theorem Edits.modTwr {t : Twr} {f : Tower → Tower} (hs : Edits may s₀ s) : Edits may s₀ (s.modTwr t f) := hs.frame

theorem Edits.emit {o : Output} (hs : Edits may s₀ s) : Edits may s₀ (s.emit o) := hs.frame

theorem Edits.setReg {idx sub v : Nat} (hs : Edits may s₀ s) : Edits may s₀ (s.setReg idx sub v) := hs.edit (.putReg _ _ _ _)

theorem Edits.count {idx sub n : Nat} (hs : Edits may s₀ s) : Edits may s₀ (s.count idx sub n) := hs.setReg

theorem Edits.saveReg {idx sub v : Nat} (hs : Edits may s₀ s) : Edits may s₀ (s.saveReg idx sub v) := hs.setReg.frame

theorem Edits.setDom {idx sub : Nat} {v : List Byte} (hs : Edits may s₀ s) : Edits may s₀ (s.setDom idx sub v) := hs.frame

theorem Edits.setMor {m : Nat} {x : Mordant} (hs : Edits may s₀ s) : Edits may s₀ (s.setMor m x) := hs.edit (.putMor _ _ _)

theorem Edits.morAdd {p : Part} {m v : Nat} (hs : Edits may s₀ s) : Edits may s₀ (s.morAdd p m v) := .ite hs.setMor hs.setMor.count

theorem Edits.putByte {a : Nat} {b : Byte} (hs : Edits true s₀ s) : Edits true s₀ (s.putByte a b) := hs.edit (.putByte _ _ _)

theorem Edits.putBytes {l : List Byte} : ∀ {s : State} {a : Nat}, Edits true s₀ s → Edits true s₀ (s.putBytes a l) := by
  induction l with
  | nil => exact fun h => h
  | cons b l ih => exact fun h => ih h.putByte

theorem Edits.setSector {sec : Nat} {k : Byte} (hs : Edits true s₀ s) : Edits true s₀ (s.setSector sec k) := hs.edit (.putSector _ _ _)

theorem Edits.towerWrite {a : Nat} {l : List PByte} (hs : Edits true s₀ s) : Edits true s₀ (s.towerWrite a l) :=
  (hs.foldl fun _ _ h => .ite (.ite h.setSector h) (.ite h.setSector h)).putBytes

theorem Edits.poisonWord {k : Nat} (hs : Edits true s₀ s) : Edits true s₀ { s with stashPoison := setAdd s.stashPoison k } :=
  hs.edit (.poisonWord _ _)

theorem Edits.cleanWord {k : Nat} (hs : Edits true s₀ s) : Edits true s₀ { s with stashPoison := setDel s.stashPoison k } := by
  have h := hs.edit (.dropBytes s (fun _ => true) (fun _ => true) (· ≠ k))
  simp only [List.filter_true] at h
  exact h

theorem Edits.stashWrite {a : Nat} {l : List PByte} (hs : Edits true s₀ s) : Edits true s₀ (s.stashWrite a l) :=
  (hs.foldl fun _ _ h => .ite h.poisonWord (.ite h.cleanWord h)).putBytes

theorem Edits.memWrite {a : Nat} {l : List PByte} (hs : Edits true s₀ s) : Edits true s₀ (s.memWrite a l) := by
  unfold State.memWrite
  split
  · exact hs.towerWrite
  · exact hs.stashWrite
  · exact hs

theorem Edits.modFn {f : Pf} {g : HostFn → HostFn} (hs : Edits may s₀ s) : Edits may s₀ (s.modFn f g) := hs.frame

theorem Edits.modStw {g : Steward → Steward} (hs : Edits may s₀ s) : Edits may s₀ (s.modStw g) := hs.frame

theorem Edits.modPwr {g : Power → Power} (hs : Edits may s₀ s) : Edits may s₀ (s.modPwr g) := hs.frame

theorem Edits.modSess {n : Fin 8} {g : Session → Session} (hs : Edits may s₀ s) : Edits may s₀ (s.modSess n g) := hs.modStw

theorem Edits.vector {f : Pf} {vec : Nat} (hs : Edits may s₀ s) : Edits may s₀ (s.vector f vec) := .ite hs.emit hs

theorem Edits.notifyFn {idx sub : Nat} {v : List Byte} {f : Pf} (hs : Edits may s₀ s) : Edits may s₀ (s.notifyFn idx sub v f) :=
  .ite hs (.ite hs.modFn hs.modFn.vector)

theorem Edits.notify {idx sub : Nat} {v : List Byte} (hs : Edits may s₀ s) : Edits may s₀ (s.notify idx sub v) :=
  .ite hs.modStw (.ite (hs.foldl fun _ _ h => h.notifyFn).emit (hs.foldl fun _ _ h => h.notifyFn))

theorem Edits.logRec {r : FaultRec} (hs : Edits may s₀ s) : Edits may s₀ (s.logRec r) := by
  have hlog := hs.edit (.log s (r := { r with seq := s.seqNext, lost := r.lost || s.faultLost || logLost s }) rfl)
  unfold State.logRec
  exact hlog.frame.saveReg.emit.notify

theorem Edits.record {r : FaultRec} (hs : Edits may s₀ s) : Edits may s₀ (s.record r) := by
  have hhold := hs.edit (.hold s r)
  unfold State.record
  split
  · exact hs.logRec
  · split at hhold <;> split
    · exact hhold
    · contradiction
    · contradiction
    · exact hhold.frame

theorem Edits.dropFetches {sts : List St} (hs : Edits may s₀ s) : Edits may s₀ (s.dropFetches sts) := (hs.foldl fun _ _ h => h.count).frame

theorem Edits.abandonEngines {p : Part} (hs : Edits may s₀ s) : Edits may s₀ (s.abandonEngines p) := hs.frame

theorem Edits.setJobState {p : Part} {v : Byte} (hs : Edits may s₀ s) : Edits may s₀ (s.setJobState p v) := hs.modPart.notify

theorem Edits.clearWatches {p : Part} (hs : Edits may s₀ s) : Edits may s₀ (s.clearWatches p) := hs.modFn

theorem Edits.endJob {p : Part} {v : Byte} (hs : Edits may s₀ s) : Edits may s₀ (s.endJob p v) :=
  (hs.foldl fun _ _ h => h.modSt).dropFetches.clearWatches.modPart.setJobState

theorem Edits.modHealth {st : St} {f : Health → Health} (hs : Edits may s₀ s) : Edits may s₀ (s.modHealth st f) := hs.frame

theorem Edits.breakHour (hs : Edits may s₀ s) : Edits may s₀ s.breakHour := hs.modStw.saveReg

theorem Edits.suspect {st : St} (hs : Edits may s₀ s) : Edits may s₀ (s.suspect st) := .breakHour (.modHealth (.ite hs.saveReg hs))

theorem Edits.maskedMismatch {st : St} (hs : Edits may s₀ s) : Edits may s₀ (s.maskedMismatch st) :=
  .ite hs.count.modHealth.suspect hs.count.modHealth

theorem Edits.noteFault {p : Option Part} {cls detail : Nat} {site : Site} {ends : Bool} (hs : Edits may s₀ s) :
    Edits may s₀ (s.noteFault p cls detail site ends) :=
  .ite (.modHealth (.suspect (.ite (.count (.ite (.modPart (.ite hs.modPart hs)) (.ite hs.modPart hs)))
    (.ite (.modPart (.ite hs.modPart hs)) (.ite hs.modPart hs)))))
    (.ite (.breakHour (.ite (.count (.ite (.modPart (.ite hs.modPart hs)) (.ite hs.modPart hs)))
    (.ite (.modPart (.ite hs.modPart hs)) (.ite hs.modPart hs)))) (.ite (.count (.ite (.modPart (.ite hs.modPart hs)) (.ite hs.modPart hs)))
    (.ite (.modPart (.ite hs.modPart hs)) (.ite hs.modPart hs))))

theorem Edits.raise {p : Option Part} {cls detail : Nat} {site : Site} (hs : Edits may s₀ s) : Edits may s₀ (s.raise p cls detail site) :=
  .ite hs (.ite hs.noteFault.frame hs.noteFault.record)

theorem Edits.writeRec {r : FaultRec} (hs : Edits may s₀ s) : Edits may s₀ (s.writeRec r) :=
  .ite hs.modPart.record.endJob.abandonEngines.count hs.record

theorem Edits.beatEnd (hs : Edits may s₀ s) : Edits may s₀ s.beatEnd := hs.frame.foldl fun _ _ h => h.writeRec

theorem Edits.faultAt {st : St} {cls detail loc2 pc : Nat} (hs : Edits may s₀ s) : Edits may s₀ (s.faultAt st cls detail loc2 pc) := hs.raise

theorem Edits.faultIssue {st : St} {loc2 pc : Nat} (hs : Edits may s₀ s) : Edits may s₀ (s.faultIssue st loc2 pc) := hs.faultAt

theorem Edits.faultFire {st : St} {loc2 pc : Nat} (hs : Edits may s₀ s) : Edits may s₀ (s.faultFire st loc2 pc) := hs.faultAt

theorem Edits.faultPoison {st : St} {loc2 pc : Nat} (hs : Edits may s₀ s) : Edits may s₀ (s.faultPoison st loc2 pc) := hs.faultAt

theorem Edits.orStatus {st : St} {ovf nv : Bool} (hs : Edits may s₀ s) : Edits may s₀ (s.orStatus st ovf nv) := hs.modSt

/-! ### Sequencer and issue -/

theorem Edits.faultWord {st : St} (hs : Edits may s₀ s) : Edits may s₀ (s.faultWord st) := hs.faultPoison.modSt

/-- An instruction that issues, or whose checks fault: the state of the checks, with what the sequencer notes. -/
theorem Edits.issue {op : Nat} {body : State → Part → St → Entry → Chk} {st : St} (hs : Edits may s₀ s)
    (hbody : ∀ t, Edits may s₀ t → ∀ p st e, Checks may s₀ (body t p st e)) : Answers may s₀ (issue op body s st) := by
  unfold Machine.issue
  dsimp only
  split
  · exact .next hs
  · next p _ =>
    have hissue := hbody s hs p st ⟨(s.stn st).sq.nextSeq, (s.stn st).sq.pc, ((s.stn st).instrAt (s.prt p).prog (s.stn st).sq.pc).1, (s.stn st).sq.k,
      beatOf (s.stn st).sq ((s.stn st).instrAt (s.prt p).prog (s.stn st).sq.pc).1, false, 0⟩
    refine .ite (.next hs.faultIssue)
      (.ite (.next hs.faultWord) (.ite (.next hs) (.ite (.next hs) (.ite (.next hs.faultIssue) (.ite (.next hs.faultPoison)
      (.ite (.next hs.faultIssue) ?_))))))
    split
    · exact .next hs.faultIssue
    · exact .next hs
    · next heq => exact .next (hissue _ _ heq).modSt

theorem Edits.enqueue {st : St} {e : Entry} (hs : Edits may s₀ s) : Checks may s₀ (enqueue s st e) := .ok hs.modSt

/-! ### Routes of the mesh -/

theorem Edits.remoteRead {p : Part} {e : Entry} {f : Fetch} (hs : Edits may s₀ s) : Edits may s₀ (s.remoteRead p e f) := hs.frame

/-! ### Vats -/

theorem Edits.execVatOpen {st : St} (hs : Edits may s₀ s) : Answers may s₀ (execVatOpen st s) :=
  hs.issue fun _ h _ _ _ => .ite .fault (.ite .fault h.modSt.enqueue)

theorem Edits.execVatOpenFire {st : St} {v : VatNo} (hs : Edits may s₀ s) : Answers may s₀ (execVatOpenFire st v s) := by
  unfold Machine.execVatOpenFire
  dsimp only
  split
  · exact .next hs
  · exact .ite (.next hs) (.next hs.modSt)

theorem Edits.execVatClose {st : St} (hs : Edits may s₀ s) : Answers may s₀ (execVatClose st s) :=
  hs.issue fun _ h _ _ _ => .ite .fault h.modSt.enqueue

theorem Edits.execVatCloseFire {st : St} {v : VatNo} (hs : Edits may s₀ s) : Answers may s₀ (execVatCloseFire st v s) := by
  unfold Machine.execVatCloseFire
  dsimp only
  split
  · exact .ite (.next hs) (.ite (.next hs.faultFire) (.ite (.next hs.modSt) (.next hs)))
  · exact .next hs

theorem Edits.execVatCancel {st : St} (hs : Edits may s₀ s) : Answers may s₀ (execVatCancel st s) := hs.issue fun _ h _ _ _ => by
    dsimp only
    split
    · exact .fault
    · exact .ite .fault h.modSt.enqueue

theorem Edits.execVatCancelFire {st : St} {v : VatNo} (hs : Edits may s₀ s) : Answers may s₀ (execVatCancelFire st v s) := by
  unfold Machine.execVatCancelFire
  dsimp only
  split
  · exact .ite (.next hs) (.next (.modSt (.ite hs.frame hs.frame.count)))
  · exact .next hs

theorem Edits.execDroppedFetchEnd {st : St} {v : VatNo} {slot : Nat} (hs : Edits may s₀ s) : Answers may s₀ (execDroppedFetchEnd st v slot s) :=
  .ite (.next hs.frame.modSt) (.next hs)

theorem Edits.execVatFetch {st : St} (hs : Edits may s₀ s) : Answers may s₀ (execVatFetch st s) := hs.issue fun _ h _ _ _ => by
    dsimp only
    split
    · exact .fault
    · refine .ite .fault ?_
      split
      · exact .fault
      · exact .ite .fault (.ite .fault (.ite .fault (.ite .fault (.ite .fault h.modSt.enqueue))))

theorem Edits.execVatFetchFire {st : St} {v : VatNo} (hs : Edits may s₀ s) : Answers may s₀ (execVatFetchFire st v s) := by
  unfold Machine.execVatFetchFire
  dsimp only
  split
  · exact .ite (.next hs) (.ite (.next hs.faultFire) (.ite (.next hs.modSt.frame) (.ite (.next hs.modSt.remoteRead) (.next hs.modSt.frame))))
  · exact .next hs

theorem Edits.execVatSlotFull {st : St} {v : VatNo} {slot : Nat} (hs : Edits may s₀ s) : Answers may s₀ (execVatSlotFull st v slot s) := by
  unfold Machine.execVatSlotFull
  dsimp only
  split
  · exact .next hs.frame.modSt
  · exact .next hs

theorem Edits.execVatPut {st : St} (hs : Edits may s₀ s) : Answers may s₀ (execVatPut st s) := hs.issue fun _ h _ _ _ => by
    dsimp only
    split
    · exact .fault
    · refine .ite .fault ?_
      split
      · exact .fault
      · exact .ite .fault (.ite .fault (.ite .fault (.ite .fault h.modSt.enqueue)))

theorem Edits.execVatPutFire {st : St} {v : VatNo} (hs : Edits may s₀ s) : Answers may s₀ (execVatPutFire st v s) := by
  unfold Machine.execVatPutFire
  dsimp only
  split
  · exact .ite (.next hs) (.next hs.modSt.frame)
  · exact .next hs

theorem Edits.execPutWriteComplete {k : Nat} (hs : Edits may s₀ s) : Answers may s₀ (execPutWriteComplete k s) := by
  unfold Machine.execPutWriteComplete
  dsimp only
  split
  · refine .ite (.next hs) ?_
    split
    · exact .next hs.frame.frame
    · exact .next hs.frame
  · exact .next hs

theorem Edits.execSlotRelease {st : St} {v : VatNo} {slot : Nat} (hs : Edits may s₀ s) : Answers may s₀ (execSlotRelease st v slot s) := by
  unfold Machine.execSlotRelease
  dsimp only
  split
  · exact .ite (.next hs.modSt) (.next hs)
  · exact .next hs

/-! ### Mesh -/

theorem Edits.admitItems (hs : Edits may s₀ s) : Edits may s₀ s.admitItems := hs.frame

theorem Edits.resetCrossings {l : List (Nat × Nat)} (hs : Edits may s₀ s) : Edits may s₀ (s.resetCrossings l) := hs.frame

/-! ### Array -/

theorem Edits.execArrShape {st : St} (hs : Edits may s₀ s) : Answers may s₀ (execArrShape st s) := hs.issue fun _ h _ _ _ => h.modSt.enqueue

theorem Edits.execArrShapeFire {st : St} (hs : Edits may s₀ s) : Answers may s₀ (execArrShapeFire st s) := by
  unfold Machine.execArrShapeFire
  dsimp only
  split
  · exact .next hs
  · exact .ite (.next hs) (.next hs.modSt)

theorem Edits.execArrLoad {st : St} (hs : Edits may s₀ s) : Answers may s₀ (execArrLoad st s) := hs.issue fun _ h _ _ _ => by
    dsimp only
    split
    · refine .ite .fault ?_
      split
      · exact .fault
      · exact .ite .fault h.modSt.enqueue
    · exact .fault

theorem Edits.execArrLoadFire {st : St} (hs : Edits may s₀ s) : Answers may s₀ (execArrLoadFire st s) := by
  unfold Machine.execArrLoadFire
  dsimp only
  split
  · exact .next hs
  · split
    · exact .next hs
    · exact .ite (.next hs) (.ite (.next hs.faultFire) (.next hs.modSt))

theorem Edits.execArrLoadComplete {st : St} (hs : Edits may s₀ s) : Answers may s₀ (execArrLoadComplete st s) := by
  unfold Machine.execArrLoadComplete
  split
  · exact .next hs
  · exact .next hs.modSt

theorem Edits.execShadowRegistersFree {st : St} (hs : Edits may s₀ s) : Answers may s₀ (execShadowRegistersFree st s) :=
  .ite (.next hs.modSt) (.next hs)

theorem Edits.execArrMma {st : St} (hs : Edits may s₀ s) : Answers may s₀ (execArrMma st s) := hs.issue fun _ h _ _ _ => by
    dsimp only
    split
    · split
      · exact .fault
      · refine .ite .fault (.ite .fault (.ite .fault (.ite .fault ?_)))
        split
        · exact .fault
        · split
          · exact .fault
          · exact h.modSt.enqueue
    · exact .fault

theorem Edits.feedRow {st : St} {p : Part} {x : Station} {m : MmaRec} {wt : Weights} (hs : Edits may s₀ s) :
    Answers may s₀ (feedRow s st p x m wt) := by
  unfold Machine.feedRow
  dsimp only
  split
  · exact .next hs
  · exact .next hs.faultFire
  · split
    · exact .ite (.next hs.faultFire) (.ite (.next hs.faultPoison) (.next hs.modSt))
    · exact .next hs.faultFire

theorem Edits.startMma {st : St} {p : Part} (hs : Edits may s₀ s) : Answers may s₀ (startMma s st p) := by
  unfold Machine.startMma
  dsimp only
  split
  · exact .next hs
  · split
    · refine .ite (.next hs) ?_
      split
      · exact .next hs
      · exact .ite (.next hs.faultPoison) hs.feedRow
    · exact .next hs

theorem Edits.execArrMmaFire {st : St} (hs : Edits may s₀ s) : Answers may s₀ (execArrMmaFire st s) := by
  unfold Machine.execArrMmaFire
  dsimp only
  split
  · exact .next hs.modSt
  · split
    · exact .ite hs.feedRow hs.startMma
    · exact hs.startMma
  · exact .next hs

theorem Edits.execProductRowLeavesTree {st : St} {err : Option ArrayError} (hs : Edits may s₀ s) :
    Answers may s₀ (execProductRowLeavesTree st err s) := by
  unfold Machine.execProductRowLeavesTree
  dsimp only
  split
  · exact .next hs
  · split
    · exact .next hs
    · refine .ite (.next hs.modSt) ?_
      split
      · exact .ite (.next hs) (.next hs.modSt)
      · split
        · exact .next hs
        · exact .ite (.next hs.modSt) (.ite (.next hs) (.ite (.next hs.faultPoison) (.next hs.modSt)))

theorem Edits.execKPassEnd {st : St} (hs : Edits may s₀ s) : Answers may s₀ (execKPassEnd st s) := by
  unfold Machine.execKPassEnd
  dsimp only
  split
  · exact .next hs
  · split
    · exact .next hs
    · exact .next hs.modSt

theorem Edits.execMergeComplete {st : St} {tile : Fin 64} (hs : Edits may s₀ s) : Answers may s₀ (execMergeComplete st tile s) := by
  unfold Machine.execMergeComplete
  dsimp only
  split
  · exact .next hs
  · split
    · exact .ite (.next hs) (.ite (.next hs.faultPoison) (.ite (.next hs.faultPoison) (.next hs.modSt)))
    · exact .next hs

theorem Edits.execWitnessVerdict {st : St} (hs : Edits may s₀ s) : Answers may s₀ (execWitnessVerdict st s) := by
  unfold Machine.execWitnessVerdict
  dsimp only
  split
  · refine .ite (.next hs) ?_
    split
    · refine .ite ?_ (.ite (.next hs.faultAt) (.next hs.modSt))
      split
      · exact .next hs
      · exact .ite (.next hs.faultPoison) (.next (.modSt (.ite (.maskedMismatch (.ite hs.count hs)) (.ite hs.count hs))))
    · exact .next hs.modSt
  · exact .next hs

/-! ### Accumulators -/

theorem Edits.execAccOpen {st : St} (hs : Edits may s₀ s) : Answers may s₀ (execAccOpen st s) :=
  hs.issue fun _ h _ _ _ => .ite .fault (.ite .fault h.modSt.enqueue)

theorem Edits.execAccOpenFire {st : St} (hs : Edits may s₀ s) : Answers may s₀ (execAccOpenFire st s) := by
  unfold Machine.execAccOpenFire
  split
  · exact .next hs
  · split
    · exact .next hs
    · exact .next hs.modSt

theorem Edits.execAccDrain {st : St} (hs : Edits may s₀ s) : Answers may s₀ (execAccDrain st s) := hs.issue fun _ h _ _ _ => by
    dsimp only
    split
    · refine .ite .fault (.ite .fault (.ite .fault ?_))
      split
      · exact .fault
      · exact h.modSt.enqueue
    · exact .fault
    · exact .fault

theorem Edits.drainRow {st : St} {p : Part} {x : Station} {e : Entry} {r : Nat} (hs : Edits may s₀ s) : Answers may s₀ (drainRow s st p x e r) := by
  unfold Machine.drainRow
  dsimp only
  split
  · split
    · exact .next hs
    · refine .ite (.next hs) ?_
      split
      · exact .next hs
      · exact .next hs.faultFire
      · refine .ite (.next hs.faultFire) (.ite (.next hs.faultPoison) ?_)
        split
        · exact .next hs
        · exact .next hs.faultFire
        · exact .next hs.modSt
  · exact .next hs

theorem Edits.execAccDrainFire {st : St} (hs : Edits may s₀ s) : Answers may s₀ (execAccDrainFire st s) := by
  unfold Machine.execAccDrainFire
  dsimp only
  split
  · exact .next hs
  · split
    · split
      · exact .ite hs.drainRow (.next hs)
      · exact .next hs
    · split
      · exact .next hs
      · exact .ite hs.drainRow (.next hs)

theorem Edits.execDrainComplete {st : St} (hs : Edits may s₀ s) : Answers may s₀ (execDrainComplete st s) := by
  unfold Machine.execDrainComplete
  dsimp only
  split
  · exact .next hs
  · split
    · exact .next hs
    · exact .ite (.next hs) (.next hs.modSt)

/-! ### Rings -/

theorem Edits.laneStep {st : St} {l : Lane} (hs : Edits may s₀ s) (h : s.laneStep st l = some t) : Edits may s₀ t := by
  unfold State.laneStep at h
  dsimp only at h
  split at h
  · cases h
  · split at h
    · cases h
    · obtain ⟨-, h⟩ := Option.ite_none_left_eq_some.1 h
      split at h
      · split at h
        · cases h
          exact hs.modSt.modSt
        · split at h <;> cases h <;> exact hs.modSt.modSt
      · split at h <;> cases h <;> exact hs.modSt.modSt

theorem Edits.pump {st : St} {l : Lane} : ∀ {n : Nat} {s : State}, Edits may s₀ s → Edits may s₀ (s.pump n st l)
  | 0, _, hs => hs
  | n + 1, s, hs => by
    unfold State.pump
    split
    · next heq => exact (hs.laneStep heq).pump
    · exact hs

theorem Edits.flow {st : St} {l : Lane} (hs : Edits may s₀ s) : Edits may s₀ (s.flow st l) := hs.pump

theorem Edits.execRingFlitArrival {st : St} {l : Lane} {e : FlitEcc} (hs : Edits may s₀ s) : Answers may s₀ (execRingFlitArrival st l e s) := by
  unfold Machine.execRingFlitArrival
  dsimp only
  refine .ite (.next hs) ?_
  split
  · exact .next hs
  · exact .ite (.next hs.modSt.faultAt) (.next hs.modSt)

theorem Edits.execRingCreditReturn {st : St} {l : Lane} (hs : Edits may s₀ s) : Answers may s₀ (execRingCreditReturn st l s) := by
  unfold Machine.execRingCreditReturn
  dsimp only
  split
  · exact .next hs
  · split
    · exact .next hs
    · exact .ite (.next hs) (.next hs.modSt.modSt.flow)

theorem Edits.execRingHeadStall {st : St} {l : Lane} (hs : Edits may s₀ s) : Answers may s₀ (execRingHeadStall st l s) :=
  .ite (.next hs) (.next hs.faultAt)

theorem Edits.execRingFeed {st : St} (hs : Edits may s₀ s) : Answers may s₀ (execRingFeed st s) := hs.issue fun _ h _ _ _ => by
    dsimp only
    refine .ite .fault ?_
    split
    · exact .fault
    · refine .ite .fault ?_
      split
      · exact .fault
      · exact h.modSt.enqueue

theorem Edits.execRingFeedFire {st : St} {l : Lane} (hs : Edits may s₀ s) : Answers may s₀ (execRingFeedFire st l s) := by
  unfold Machine.execRingFeedFire
  dsimp only
  split
  · exact .next hs
  · split
    · split
      · exact .next hs
      · exact .next hs.faultFire
      · exact .next hs.faultPoison
      · exact .next hs.modSt.flow.flow
    · split
      · split
        · exact .next hs
        · exact .next hs.faultFire
        · exact .next hs.faultPoison
        · exact .next hs.modSt.flow.flow
      · exact .next hs

theorem Edits.execRingTake {st : St} (hs : Edits may s₀ s) : Answers may s₀ (execRingTake st s) := hs.issue fun _ h _ _ _ => by
    dsimp only
    split
    · exact .fault
    · refine .ite .fault ?_
      split
      · exact .fault
      · exact h.modSt.enqueue

theorem Edits.openOp {st : St} {l : Lane} {op : Nat} (hs : Edits may s₀ s) : Answers may s₀ (openOp s st l op) := by
  unfold Machine.openOp
  dsimp only
  split
  · exact .ite (.next hs.modSt) (.next hs)
  · exact .next hs

theorem Edits.execRingTakeFire {st : St} {l : Lane} (hs : Edits may s₀ s) : Answers may s₀ (execRingTakeFire st l s) := by
  unfold Machine.execRingTakeFire
  dsimp only
  split
  · split
    · exact hs.openOp
    · split
      · exact .next hs
      · exact .next hs.faultFire
      · exact .next hs
      · exact .next hs.modSt.flow
  · exact hs.openOp
  · exact .next hs

theorem Edits.execRingAdd {st : St} (hs : Edits may s₀ s) : Answers may s₀ (execRingAdd st s) := hs.issue fun _ h _ _ _ => by
    dsimp only
    refine .ite .fault (.ite .fault (.ite h.enqueue ?_))
    split
    · exact .fault
    · exact .ite .fault h.modSt.enqueue

theorem Edits.addOut {st : St} {l : Lane} {e : Entry} {x : AddRes} {o : Host.Outcome State Fault Refusal} (hs : Edits may s₀ s)
    (h : addOut s st l e x = some o) :
    Answers may s₀ o := by
  cases x with
  | wait => cases h
  | fault => cases h; exact .next hs.faultFire
  | poison l2 => cases h; exact .next hs.faultPoison
  | ok x op => cases h; exact .next hs.modSt.flow

theorem Edits.execRingAddFire {st : St} {l : Lane} (hs : Edits may s₀ s) : Answers may s₀ (execRingAddFire st l s) := by
  unfold Machine.execRingAddFire
  dsimp only
  refine .ite (.next hs) ?_
  split
  · next heq =>
    obtain ⟨_, -, h⟩ := List.exists_of_findSome?_eq_some heq
    exact hs.addOut h
  · split
    · next heq =>
      obtain ⟨_, -, h⟩ := Option.bind_eq_some_iff.1 heq
      exact hs.addOut h
    · exact hs.openOp

/-! ### Vector unit -/

theorem Edits.execVecSplit {st : St} (hs : Edits may s₀ s) : Answers may s₀ (execVecSplit st s) := hs.issue fun _ h _ _ _ => .ite .fault h.enqueue

theorem Edits.execVecSplitFire {st : St} (hs : Edits may s₀ s) : Answers may s₀ (execVecSplitFire st s) := by
  unfold Machine.execVecSplitFire
  split
  · exact .next hs
  · exact .ite (.next hs) (.next hs.modSt)

theorem Edits.execVecPro {st : St} (hs : Edits may s₀ s) : Answers may s₀ (execVecPro st s) := hs.issue fun _ h _ _ _ => .ite .fault h.enqueue

theorem Edits.execVecProFire {st : St} (hs : Edits may s₀ s) : Answers may s₀ (execVecProFire st s) := by
  unfold Machine.execVecProFire
  split
  · exact .next hs
  · refine .ite (.next hs) ?_
    split
    · exact .next hs.faultFire
    · exact .ite (.next hs.faultFire) (.next hs.modSt)

theorem Edits.execVecEpi {st : St} (hs : Edits may s₀ s) : Answers may s₀ (execVecEpi st s) := hs.issue fun _ h _ _ _ => by
    dsimp only
    refine .ite .fault (.ite h.modSt.enqueue ?_)
    split
    · exact .fault
    · refine .ite .fault ?_
      split
      · exact .fault
      · exact h.modSt.enqueue

theorem Edits.execVecEpiFire {st : St} (hs : Edits may s₀ s) : Answers may s₀ (execVecEpiFire st s) := by
  unfold Machine.execVecEpiFire
  split
  · exact .next hs
  · refine .ite (.next hs) ?_
    split
    · exact .next hs.faultFire
    · exact .ite (.next hs.faultFire) (.next hs.modSt)

theorem Edits.execVecOp {st : St} (hs : Edits may s₀ s) : Answers may s₀ (execVecOp st s) := hs.issue fun _ h _ _ _ => by
    dsimp only
    refine .ite .fault ?_
    split
    · exact .fault
    · split
      · exact .fault
      · split
        · exact .fault
        · exact h.modSt.enqueue

theorem Edits.vopGo {st : St} {p : Part} {x : Station} {m : VecRec} (hs : Edits may s₀ s) : Answers may s₀ (vopGo s st p x m) := by
  unfold Machine.vopGo
  dsimp only
  split
  · exact .next hs.faultFire
  · split
    · exact .next hs
    · exact .next hs.faultFire
    · refine .ite (.next hs.faultFire) (.ite (.next hs.faultPoison) (.ite (.next hs.modSt) ?_))
      split
      · exact .next hs
      · split
        · exact .next hs
        · exact .next hs.faultFire
        · exact .next hs.modSt
  · exact .next hs

theorem Edits.execVecOpFire {st : St} (hs : Edits may s₀ s) : Answers may s₀ (execVecOpFire st s) := by
  unfold Machine.execVecOpFire
  dsimp only
  split
  · exact .ite hs.vopGo (.next hs)
  · split
    · exact .next hs
    · refine .ite (.next hs) ?_
      split
      · exact .next hs.faultFire
      · exact .ite (.next hs.faultFire) hs.vopGo
  · exact .next hs

theorem Edits.execVecOpComplete {st : St} (hs : Edits may s₀ s) : Answers may s₀ (execVecOpComplete st s) := by
  unfold Machine.execVecOpComplete
  split
  · exact .ite (.next hs) (.next hs.modSt)
  · exact .next hs

theorem Edits.execVecNcomb {st : St} (hs : Edits may s₀ s) : Answers may s₀ (execVecNcomb st s) := hs.issue fun _ h _ _ _ => .ite .fault h.enqueue

theorem Edits.execVecNcombFire {st : St} (hs : Edits may s₀ s) : Answers may s₀ (execVecNcombFire st s) := by
  unfold Machine.execVecNcombFire
  dsimp only
  split
  · exact .next hs
  · exact .ite (.next hs.faultPoison) (.next hs.modSt)

theorem Edits.execVecSminit {st : St} (hs : Edits may s₀ s) : Answers may s₀ (execVecSminit st s) := hs.issue fun _ h _ _ _ => .ite .fault h.enqueue

theorem Edits.execVecSminitFire {st : St} (hs : Edits may s₀ s) : Answers may s₀ (execVecSminitFire st s) := by
  unfold Machine.execVecSminitFire
  split
  · exact .next hs
  · exact .next hs.modSt

theorem Edits.execVecRopeLoad {st : St} (hs : Edits may s₀ s) : Answers may s₀ (execVecRopeLoad st s) :=
  hs.issue fun _ h _ _ _ => .ite .fault h.enqueue

theorem Edits.execVecRopeLoadFire {st : St} (hs : Edits may s₀ s) : Answers may s₀ (execVecRopeLoadFire st s) := by
  unfold Machine.execVecRopeLoadFire
  dsimp only
  split
  · exact .next hs
  · exact .ite (.next hs.faultFire) (.next hs.modSt)

/-! ### Commands of the engines, the fabric and the mordants -/

theorem Edits.engIssue {op : Nat} {st : St} (hs : Edits may s₀ s) : Answers may s₀ (engIssue op st s) := hs.issue fun _ h _ _ _ => h.enqueue

theorem Edits.execEngRoute {st : St} (hs : Edits may s₀ s) : Answers may s₀ (execEngRoute st s) := hs.engIssue

theorem Edits.execEngXpose {st : St} (hs : Edits may s₀ s) : Answers may s₀ (execEngXpose st s) := hs.engIssue

theorem Edits.execEngMadder {st : St} (hs : Edits may s₀ s) : Answers may s₀ (execEngMadder st s) := hs.engIssue

theorem Edits.engFire {op len : Nat} {st : St} (hs : Edits may s₀ s) : Answers may s₀ (engFire op len st s) := by
  unfold Machine.engFire
  dsimp only
  split
  · refine .ite (.next hs) ?_
    split
    · exact .next hs.faultFire
    · exact .ite (.next hs.faultFire) (.ite (.next hs) (.next hs.modSt.frame))
  · exact .next hs

theorem Edits.execEngRouteFire {st : St} (hs : Edits may s₀ s) : Answers may s₀ (execEngRouteFire st s) := hs.engFire

theorem Edits.execEngXposeFire {st : St} (hs : Edits may s₀ s) : Answers may s₀ (execEngXposeFire st s) := hs.engFire

theorem Edits.execEngMadderFire {st : St} (hs : Edits may s₀ s) : Answers may s₀ (execEngMadderFire st s) := hs.engFire

theorem Edits.execNetSend {st : St} (hs : Edits may s₀ s) : Answers may s₀ (execNetSend st s) := hs.issue fun _ h _ _ _ => by
    dsimp only
    split
    · exact .fault
    · refine .ite .fault ?_
      split
      · exact .fault
      · exact .ite .fault h.modSt.enqueue

theorem Edits.execNetSendFire {st : St} (hs : Edits may s₀ s) : Answers may s₀ (execNetSendFire st s) := by
  unfold Machine.execNetSendFire
  dsimp only
  split
  · split
    · exact .next hs
    · exact .ite (.next hs) (.ite (.next hs.faultFire) (.ite (.next hs.modSt.modSt.frame) (.next hs.modSt.frame)))
  · exact .next hs

theorem Edits.execMorWait {st : St} (hs : Edits may s₀ s) : Answers may s₀ (execMorWait st s) := hs.issue fun _ h _ _ _ => .ite .fault h.enqueue

theorem Edits.failedWait {p : Part} {m pc : Nat} (hs : Edits may s₀ s) : Edits may s₀ (s.failedWait p m pc) := hs.raise

theorem Edits.execMorWaitFire {st : St} (hs : Edits may s₀ s) : Answers may s₀ (execMorWaitFire st s) := by
  unfold Machine.execMorWaitFire
  dsimp only
  split
  · exact .ite (.next hs.failedWait) (.ite (.next hs.modSt) (.next hs))
  · exact .next hs

theorem Edits.morIssue {op : Nat} {st : St} (hs : Edits may s₀ s) : Answers may s₀ (morIssue op st s) :=
  hs.issue fun _ h _ _ _ => .ite .fault (.ite .fault (.ite .fault h.enqueue))

theorem Edits.execMorAdd {st : St} (hs : Edits may s₀ s) : Answers may s₀ (execMorAdd st s) := hs.morIssue

theorem Edits.execMorSet {st : St} (hs : Edits may s₀ s) : Answers may s₀ (execMorSet st s) := hs.morIssue

theorem Edits.morFire {op : Nat} {st : St} (hs : Edits may s₀ s) : Answers may s₀ (morFire op st s) := by
  unfold Machine.morFire
  dsimp only
  split
  · refine .ite (.next hs) (.ite (.next hs.modSt.frame) (.ite ?_ (.next hs.modSt.frame)))
    split
    · exact .ite (.next hs.faultFire) (.next hs.modSt.frame)
    · exact .next hs.faultFire
  · exact .next hs

theorem Edits.execMorAddFire {st : St} (hs : Edits may s₀ s) : Answers may s₀ (execMorAddFire st s) := hs.morFire

theorem Edits.execMorSetFire {st : St} (hs : Edits may s₀ s) : Answers may s₀ (execMorSetFire st s) := hs.morFire

theorem Edits.execMorRead {st : St} (hs : Edits may s₀ s) : Answers may s₀ (execMorRead st s) := hs.issue fun _ h _ _ _ => .ite .fault h.enqueue

theorem Edits.execMorReadFire {st : St} (hs : Edits may s₀ s) : Answers may s₀ (execMorReadFire st s) := by
  unfold Machine.execMorReadFire
  dsimp only
  split
  · exact .next hs
  · exact .next hs.modSt

theorem Edits.execMorReadRegisterWritten {st : St} (hs : Edits may s₀ s) : Answers may s₀ (execMorReadRegisterWritten st s) := by
  unfold Machine.execMorReadRegisterWritten
  split
  · exact .next hs.modSt
  · exact .next hs

theorem Edits.applyMor {m : MorOp} (hs : Edits may s₀ s) : Edits may s₀ (s.applyMor m) := .ite hs.raise (.ite hs.setMor hs.morAdd)

theorem Edits.execMordantOperationArrival {k : Nat} (hs : Edits may s₀ s) : Answers may s₀ (execMordantOperationArrival k s) := by
  unfold Machine.execMordantOperationArrival
  dsimp only
  split
  · exact .next hs
  · exact .ite (.next hs) (.ite (.next hs.frame.applyMor) (.next hs.frame))

theorem Edits.execMordantTimeout {st : St} {u : UnitQ} (hs : Edits may s₀ s) : Answers may s₀ (execMordantTimeout st u s) := by
  unfold Machine.execMordantTimeout
  split
  · exact .ite (.next hs.failedWait) (.ite (.next hs) (.next hs.faultAt))
  · exact .next hs

/-! ### Towers and stashes -/

theorem Edits.noteEpoch {old : State} {p : Part} (hs : Edits may s₀ s) : Edits may s₀ (State.noteEpoch old p s) := .ite hs hs.notify

theorem Edits.startCopy {t : Twr} {key : Nat} (hs : Edits may s₀ s) : Edits may s₀ (s.startCopy t key) := .ite hs.modTwr (.ite hs.saveReg hs)

theorem Edits.retireBank {t : Twr} {key : Nat} (hs : Edits may s₀ s) : Edits may s₀ (s.retireBank t key) := by
  unfold State.retireBank
  dsimp only
  split
  · exact hs.startCopy
  · exact .ite hs hs.modTwr

theorem Edits.corrected {t : Twr} {sec : Nat} (hs : Edits may s₀ s) : Edits may s₀ (s.corrected t sec) :=
  .ite hs.count.modTwr.retireBank hs.count.modTwr

theorem Edits.uncorrectable {t : Twr} {sec : Nat} (hs : Edits true s₀ s) : Edits true s₀ (s.uncorrectable t sec) :=
  .ite hs.count.setSector.modTwr.retireBank hs.count.setSector.modTwr

theorem Edits.sectorCheck {t : Twr} {corrected dead : List Nat} (hs : Edits true s₀ s) : Edits true s₀ (s.sectorCheck t corrected dead) :=
  (hs.foldl fun _ _ h => .ite h.corrected h).foldl fun _ _ h => .ite h.uncorrectable h

theorem Edits.sectorsRead {t : Twr} {e : MemEcc} {a n : Nat} (hs : Edits true s₀ s) : Edits true s₀ (s.sectorsRead t e a n) := hs.sectorCheck

theorem Edits.wordsRead {east : Bool} {e : MemEcc} {a n : Nat} (hs : Edits true s₀ s) : Edits true s₀ (s.wordsRead east e a n) :=
  hs.count.foldl fun _ _ h => .ite h h.poisonWord.count

theorem Edits.findings {e : MemEcc} {a n : Nat} (hs : Edits true s₀ s) : Edits true s₀ (s.findings e a n) := .ite hs (hs.foldl fun _ _ h => by
    split
    · exact h.sectorsRead
    · exact h.wordsRead
    · exact h)

theorem Edits.mergeFindings {e : MemEcc} {a n : Nat} (hs : Edits true s₀ s) : Edits true s₀ (s.mergeFindings e a n) := by
  unfold State.mergeFindings
  split
  · exact hs.sectorCheck
  · exact hs

theorem Edits.extentFindings {e : MemEcc} {a n : Nat} (hs : Edits true s₀ s) : Edits true s₀ (s.extentFindings e a n) := by
  unfold State.extentFindings
  split
  · exact hs.sectorsRead
  · exact hs

theorem Edits.partRead {e : MemEcc} {a n : Nat} (hs : Edits true s₀ s) : Edits true s₀ (s.partRead e a n).2 := by
  unfold State.partRead
  split
  · split
    · exact hs.findings
    · exact hs.frame
  · exact hs.findings

theorem Edits.devRead {e : MemEcc} {a n : Nat} (hs : Edits true s₀ s) : Edits true s₀ (s.devRead e a n).2 :=
  hs.foldlOf Prod.snd fun _ _ h => h.partRead

theorem Edits.partWrite {e : MemEcc} {a : Nat} {l : List PByte} (hs : Edits true s₀ s) : Edits true s₀ (s.partWrite e a l) := by
  unfold State.partWrite
  split
  · exact .ite hs.mergeFindings.towerWrite hs
  · exact hs.memWrite

theorem Edits.devWrite {e : MemEcc} {a : Nat} {l : List PByte} (hs : Edits true s₀ s) (h : s.devWrite e a l = some t) : Edits true s₀ t := by
  unfold State.devWrite at h
  split at h
  · cases h
  · cases h
    exact hs.foldl fun _ _ h => h.partWrite

theorem Edits.devWriteD {e : MemEcc} {a : Nat} {l : List PByte} (hs : Edits true s₀ s) : Edits true s₀ ((s.devWrite e a l).getD s) := by
  cases h : s.devWrite e a l with
  | none => exact hs
  | some t => exact hs.devWrite h

theorem Edits.serveFetch {k i : Nat} {f : Fetch} {x : ReqPart} {e : MemEcc} (hs : Edits true s₀ s) : Answers true s₀ (s.serveFetch k i f x e) :=
  .ite (.next hs) (.next hs.findings.frame)

theorem Edits.execTowerRead {k i : Nat} {e : MemEcc} (hs : Edits true s₀ s) : Answers true s₀ (execTowerRead k i e s) := by
  unfold Machine.execTowerRead
  split
  · split
    · exact .ite (.next hs) hs.serveFetch
    · exact .next hs
  · exact .next hs

theorem Edits.serveWrite {acc : Bool} {k i : Nat} {f : State → MemWrite → Nat × Nat → State} (hs : Edits may s₀ s)
    (hf : ∀ t, Edits may s₀ t → ∀ w x, Edits may s₀ (f t w x)) : Answers may s₀ (s.serveWrite acc k i f) := by
  unfold State.serveWrite
  split
  · split
    · exact .ite (.next hs) (.ite (.next (hs.frame).raise) (.next ((hf _ hs _ _).frame)))
    · exact .next hs
  · exact .next hs

theorem Edits.execTowerWrite {k i : Nat} {e : MemEcc} (hs : Edits true s₀ s) : Answers true s₀ (execTowerWrite k i e s) :=
  hs.serveWrite fun _ h _ _ => h.mergeFindings.towerWrite

theorem Edits.accWord {a : Nat} {l : List PByte} (hs : Edits true s₀ s) : Edits true s₀ (s.accWord a l).1 := by
  unfold State.accWord
  dsimp only
  split
  · exact .ite hs.setSector hs
  · exact Edits.putBytes (.ite hs.setSector hs)

theorem Edits.execAccumulatingWrite {k i : Nat} {e : MemEcc} (hs : Edits true s₀ s) : Answers true s₀ (execAccumulatingWrite k i e s) :=
  hs.serveWrite fun _ h _ _ => Edits.orStatus (.foldlOf Prod.fst h.extentFindings fun _ _ h => h.accWord)

theorem Edits.scrubNext {t : Twr} {c : Fin 16} {e : MemEcc} (hs : Edits true s₀ s) : Edits true s₀ (s.scrubNext t c e) :=
  .ite hs hs.sectorsRead.modTwr

theorem Edits.copyNext {t : Twr} {c : Fin 16} {cp : BankCopy} {e : MemEcc} (hs : Edits true s₀ s) : Edits true s₀ (s.copyNext t c cp e) :=
  hs.sectorsRead.modTwr

theorem Edits.execMaintenanceWindow {t : Twr} {c : Fin 16} {e : MemEcc} (hs : Edits true s₀ s) : Answers true s₀ (execMaintenanceWindow t c e s) := by
  unfold Machine.execMaintenanceWindow
  dsimp only
  refine .ite (.next hs) ?_
  split
  · exact .next (.ite hs.modTwr hs.modTwr.copyNext)
  · exact .next hs.modTwr.scrubNext

theorem Edits.execBankCopyComplete {t : Twr} {c : Fin 16} (hs : Edits may s₀ s) : Answers may s₀ (execBankCopyComplete t c s) := by
  unfold Machine.execBankCopyComplete
  dsimp only
  split
  · exact .next hs
  · refine .ite (.next hs) ?_
    split
    · exact .next hs.modTwr.saveReg.modTwr.startCopy
    · exact .next hs.modTwr.saveReg

theorem Edits.dropDesc {dst : DescTo} {t : Twr} {unit : Nat} (hs : Edits may s₀ s) : Answers may s₀ (s.dropDesc dst t unit) := by
  unfold State.dropDesc
  split
  · exact .ite (.next hs) (.next hs.frame.raise)
  · exact .next hs

theorem Edits.execRetiredTowerAccess {a : TowerAccess} (hs : Edits may s₀ s) : Answers may s₀ (execRetiredTowerAccess a s) := by
  unfold Machine.execRetiredTowerAccess
  dsimp only
  split
  · split
    · exact .ite (.next hs) (.next hs.frame)
    · exact .next hs
  · split
    · exact .ite (.next hs) (.ite (.next hs.frame) (.next hs.frame))
    · exact .next hs
  · exact hs.dropDesc
  · exact hs.dropDesc

theorem Edits.execStashRead {k i : Nat} {e : MemEcc} (hs : Edits true s₀ s) : Answers true s₀ (execStashRead k i e s) := by
  unfold Machine.execStashRead
  split
  · split
    · exact hs.serveFetch
    · exact .next hs
  · exact .next hs

theorem Edits.execStashWrite {k i : Nat} (hs : Edits true s₀ s) : Answers true s₀ (execStashWrite k i s) := by
  unfold Machine.execStashWrite
  dsimp only
  split
  · split
    · exact .ite (.next hs) (.next hs.stashWrite.frame)
    · exact .next hs
  · exact .next hs

theorem Edits.modEpoch {t : Twr} {p : Part} {f : TowerEpoch → TowerEpoch} (hs : Edits may s₀ s) : Edits may s₀ (s.modEpoch t p f) := hs.modTwr

theorem Edits.modBlock {t : Twr} {p : Part} {i : Nat} {f : SecBlock → SecBlock} (hs : Edits may s₀ s) : Edits may s₀ (s.modBlock t p i f) :=
  hs.modEpoch

theorem Edits.madderStore {e : MemEcc} {a : Nat} {l : List Byte} (hs : Edits true s₀ s) : Edits true s₀ (s.madderStore e a l) :=
  hs.mergeFindings.towerWrite

theorem Edits.copyGranule {src dst : Nat} (hs : Edits true s₀ s) : Edits true s₀ (s.copyGranule src dst) :=
  (hs.foldl fun _ _ h => h.setSector).putBytes

theorem Edits.madderWrite {e : MemEcc} {a : Nat} {l : List Byte} (hs : Edits true s₀ s) (h : s.madderWrite e a l = some t) : Edits true s₀ t := by
  unfold State.madderWrite at h
  dsimp only at h
  split at h
  · cases h
    exact hs.madderStore
  · split at h
    · obtain ⟨_, -, rfl⟩ := Option.map_eq_some_iff.1 h
      exact Edits.madderStore (Edits.modBlock (.ite hs hs.sectorsRead.copyGranule))
    · cases h
      exact Edits.madderStore (Edits.modBlock (.ite hs hs.sectorsRead.copyGranule))
    · cases h
      exact .ite hs.madderStore hs.madderStore
    · cases h
      exact hs.madderStore

theorem Edits.closeEpoch {t : Twr} {p : Part} (hs : Edits may s₀ s) : Edits may s₀ (s.closeEpoch t p) := by
  unfold State.closeEpoch
  split
  · exact .ite hs.modTwr hs
  · exact hs

theorem Edits.dropHold {t : Twr} {p : Part} {ok : DescRec → Bool} (hs : Edits may s₀ s) : Edits may s₀ (s.dropHold t p ok) := hs.modTwr

/-! ### Route, Transpose and Madder engines -/

theorem Edits.engRead {ecc : MemEcc} {w : EngAt} {p : Part} {a n : Nat} (hs : Edits true s₀ s) : Runs true s₀ Prod.snd (engRead ecc w p a n s) :=
  .ite (.fault hs) (.ite .wait (.ok hs.devRead))

theorem Edits.engValue {ecc : MemEcc} {w : EngAt} {p : Part} {a n : Nat} (hs : Edits true s₀ s) : Runs true s₀ Prod.snd (engValue ecc w p a n s) := by
  have hread : Runs true s₀ Prod.snd (Machine.engRead ecc w p a n s) := hs.engRead
  unfold Machine.engValue
  split
  · next heq => exact .ite (.fault (hread.1 _ heq)) (.ok (hread.1 _ heq))
  · next heq => exact ⟨fun _ h => (nomatch h), fun t c d x h => hread.2 t c d x (by cases h; exact heq)⟩

theorem Edits.engWrite {ecc : MemEcc} {w : EngAt} {p : Part} {a : Nat} {l : List PByte} (hs : Edits true s₀ s) :
    Runs true s₀ id (engWrite ecc w p a l s) := by
  refine .ite (.fault hs) (.ite .wait ?_)
  split
  · next heq => exact .ok (hs.devWrite heq)
  · exact .fault hs

theorem Edits.takeDesc {dst : DescTo} {x : DescFlight × State} (hs : Edits may s₀ s) (h : s.takeDesc dst = some x) : Edits may s₀ x.2 := by
  obtain ⟨_, -, rfl⟩ := Option.map_eq_some_iff.1 h
  exact hs.frame

theorem Edits.engineAdd {p : Part} {mor : Nat} (hs : Edits may s₀ s) : Edits may s₀ (s.engineAdd p mor) := hs.frame

theorem Edits.setRouteQ {g : Eng} {p : Part} {q : List DescRec} (hs : Edits may s₀ s) : Edits may s₀ (s.setRouteQ g p q) := hs.frame

theorem Edits.setRouteHead {g : Eng} {p : Part} {d : DescRec} (hs : Edits may s₀ s) : Edits may s₀ (s.setRouteHead g p d) := hs.setRouteQ

theorem Edits.execRouteDescriptorArrival {g : Eng} (hs : Edits may s₀ s) : Answers may s₀ (execRouteDescriptorArrival g s) := by
  unfold Machine.execRouteDescriptorArrival
  split
  · exact .next hs
  · next heq => exact .ite (.next (hs.takeDesc heq).setRouteQ) (.next (hs.takeDesc heq))

theorem Edits.routeStart {ecc : MemEcc} {g : Eng} {p : Part} {d : DescRec} (hs : Edits true s₀ s) : Runs true s₀ id (routeStart ecc g p d s) := by
  have hread : Runs true s₀ Prod.snd (Machine.engValue ecc (routeEng g d) p (rtAssign d) (8 * rtTokens d * rtK d) s) := hs.engValue
  refine .ite (.fault hs) (.ite (.fault hs) ?_)
  split
  · next heq => exact .ite (.ok (hread.1 _ heq)) (.fault (hread.1 _ heq))
  · next heq => exact ⟨fun _ h => (nomatch h), fun t c d x h => hread.2 t c d x (by cases h; exact heq)⟩

theorem Edits.gatherSlot {ecc : MemEcc} {g : Eng} {p : Part} {i : Nat} {d : DescRec} (hs : Edits true s₀ s) :
    Runs true s₀ (·.2.2) (gatherSlot ecc g p i d s) :=
  hs.engValue.bind fun _ h => .ite (.ok h) (.ite (.ok h) (.ok h.count))

theorem Edits.gatherBlock {ecc : MemEcc} {g : Eng} {p : Part} {d : DescRec} (hs : Edits true s₀ s) :
    Runs true s₀ Prod.snd (gatherBlock ecc g p d s) := by
  refine Runs.iteBind (f := fun x : Option Nat × DescRec × State => x.2.2) hs.gatherSlot (.ok hs) fun x h => ?_
  obtain ⟨_ | k, d, s⟩ := x
  · exact h.engWrite.bind fun _ h => .ok h
  · exact h.engRead.bind fun _ h => h.engWrite.bind fun _ h => .iteBind (f := id) h.engWrite (.ok h) fun _ h => .ok h

theorem Edits.gatherEnd {ecc : MemEcc} {g : Eng} {p : Part} {d : DescRec} (hs : Edits true s₀ s) : Runs true s₀ id (gatherEnd ecc g p d s) :=
  hs.engWrite

theorem Edits.gatherNext {ecc : MemEcc} {g : Eng} {p : Part} {d : DescRec} (hs : Edits true s₀ s) : Runs true s₀ Prod.snd (gatherNext ecc g p d s) :=
  hs.gatherBlock.bind fun _ h => .ite (h.gatherEnd.bind fun _ h => .ok h) (.ok h)

theorem Edits.combineChoice {ecc : MemEcc} {g : Eng} {p : Part} {d : DescRec} {o : List (Option Val) × Fl × State} {r : Nat}
    (hs : Edits true s₀ o.2.2) :
    Runs true s₀ (·.2.2) (combineChoice ecc g p d o r) :=
  hs.engValue.bind fun _ h => .ite (.ok h) (h.engValue.bind fun _ h => h.engValue.bind fun _ h => .ok h)

theorem Edits.combineNext {ecc : MemEcc} {g : Eng} {p : Part} {d : DescRec} (hs : Edits true s₀ s) :
    Runs true s₀ Prod.snd (combineNext ecc g p d s) :=
  (Runs.foldlM (f := fun o : List (Option Val) × Fl × State => o.2.2) (fun _ _ h => h.combineChoice) hs).bind fun _ h => h.engWrite.bind fun _ h =>
    .ok h.orStatus

theorem Edits.routeTry {blk : DescRec → State → Except Halt (DescRec × State)} {ecc : MemEcc} {g : Eng} {p : Part} {d : DescRec}
    (hs : Edits true s₀ s)
    (hblk : ∀ d t, Edits true s₀ t → Runs true s₀ Prod.snd (blk d t)) : Runs true s₀ Prod.snd (routeTry blk ecc g p d s) :=
  .iteBind (f := id) (.ok hs) hs.routeStart fun _ h => hblk _ _ h

theorem Edits.routeRun {op : Nat} {g : Eng} {p : Part} {blk : DescRec → State → Except Halt (DescRec × State)} {ecc : MemEcc} (hs : Edits true s₀ s)
    (hblk : ∀ d t, Edits true s₀ t → Runs true s₀ Prod.snd (blk d t)) : Answers true s₀ (routeRun op g p blk ecc s) := by
  unfold Machine.routeRun
  split
  · exact .next hs
  · next d rest _ =>
    have hrun : Runs true s₀ Prod.snd (Machine.routeTry blk ecc g p d s) := hs.routeTry hblk
    refine .ite (.next hs) ?_
    split
    · next heq => exact .next (hrun.1 _ heq).setRouteHead
    · exact .next hs
    · next heq => exact .next (hrun.2 _ _ _ _ heq).setRouteQ.raise

theorem Edits.execRouteGather {g : Eng} {p : Part} {e : MemEcc} (hs : Edits true s₀ s) : Answers true s₀ (execRouteGather g p e s) :=
  hs.routeRun fun _ _ h => h.gatherNext

theorem Edits.execRouteCombine {g : Eng} {p : Part} {e : MemEcc} (hs : Edits true s₀ s) : Answers true s₀ (execRouteCombine g p e s) :=
  hs.routeRun fun _ _ h => h.combineNext

theorem Edits.execRouteDescriptorComplete {g : Eng} {p : Part} (hs : Edits may s₀ s) : Answers may s₀ (execRouteDescriptorComplete g p s) := by
  unfold Machine.execRouteDescriptorComplete
  split
  · exact .ite (.next hs.setRouteQ.engineAdd) (.next hs)
  · exact .next hs

theorem Edits.setXq {t : Twr} {p : Part} {q : List DescRec} (hs : Edits may s₀ s) : Edits may s₀ (s.setXq t p q) := hs.modTwr

theorem Edits.setMq {t : Twr} {p : Part} {q : List DescRec} (hs : Edits may s₀ s) : Edits may s₀ (s.setMq t p q) := hs.modTwr

theorem Edits.execTransposeDescriptorArrival {t : Twr} (hs : Edits may s₀ s) : Answers may s₀ (execTransposeDescriptorArrival t s) := by
  unfold Machine.execTransposeDescriptorArrival
  split
  · exact .next hs
  · next heq => exact .ite (.next hs) (.ite (.next (hs.takeDesc heq).setXq) (.next (hs.takeDesc heq)))

theorem Edits.carryPoison {a : Nat} {l : List PByte} (hs : Edits true s₀ s) : Edits true s₀ (s.carryPoison a l) := by
  unfold State.carryPoison
  split
  · exact .ite (hs.foldl fun _ _ h => h.setSector) hs
  · exact hs

theorem Edits.xposeElem {ecc : MemEcc} {p : Part} {site : EngAt} {d : DescRec} {i : Nat} (hs : Edits true s₀ s) :
    Runs true s₀ id (xposeElem ecc p site d s i) :=
  hs.engRead.bind fun _ h => h.engWrite.bind fun _ h => .ok h.carryPoison

theorem Edits.execTransposeRun {t : Twr} {p : Part} {e : MemEcc} (hs : Edits true s₀ s) : Answers true s₀ (execTransposeRun t p e s) := by
  unfold Machine.execTransposeRun
  dsimp only
  split
  · exact .next hs
  · next d rest _ =>
    have hrun : Runs true s₀ id ((List.range (xpNext d)).foldlM (fun s i => Machine.xposeElem e p (xposeEng t d) d s (d.done + i)) s) :=
      Runs.foldlM (f := id) (fun _ _ h => Edits.xposeElem h) hs
    refine .ite (.next hs) (.ite (.next hs.setXq.raise) (.ite (.next hs.setXq.raise) (.ite (.next hs) ?_)))
    split
    · next heq => exact .next (hrun.1 _ heq).setXq
    · exact .next hs
    · next heq => exact .next (hrun.2 _ _ _ _ heq).setXq.raise

theorem Edits.execTransposeComplete {t : Twr} {p : Part} (hs : Edits may s₀ s) : Answers may s₀ (execTransposeComplete t p s) := by
  unfold Machine.execTransposeComplete
  split
  · exact .ite (.next hs.setXq.engineAdd) (.next hs)
  · exact .next hs

theorem Edits.execMadderDescriptorArrival {t : Twr} (hs : Edits may s₀ s) : Answers may s₀ (execMadderDescriptorArrival t s) := by
  unfold Machine.execMadderDescriptorArrival
  split
  · exact .next hs
  · next heq => exact .ite (.next hs) (.ite (.next (hs.takeDesc heq).setMq) (.next (hs.takeDesc heq)))

theorem Edits.madderRead {ecc : MemEcc} {site : Site} {a n : Nat} (hs : Edits true s₀ s) : Runs true s₀ Prod.snd (madderRead ecc site a n s) := by
  unfold Machine.madderRead
  dsimp only
  split
  · exact .fault hs.findings
  · exact .ok hs.findings

theorem Edits.madderFlow {ecc : MemEcc} {l : List (Nat × List Byte)} : ∀ {s : State}, Edits true s₀ s → Edits true s₀ (madderFlow ecc l s).2 := by
  induction l with
  | nil => exact fun hs => hs
  | cons w l ih =>
    intro s hs
    unfold Machine.madderFlow
    split
    · exact hs
    · exact ih hs.madderStore

theorem Edits.groupElems {ecc : MemEcc} {site : Site} {d : DescRec} {n : Nat} (hs : Edits true s₀ s) :
    Runs true s₀ Prod.snd (groupElems ecc site d n s) :=
  hs.madderRead.bind fun _ h => .ite (.ok h) (h.madderRead.bind fun _ h => .iteBind (f := Prod.snd) (.ok h) h.madderRead fun _ h =>
    .iteBind (f := Prod.snd) (.ok h) h.madderRead fun _ h => .ok h)

theorem Edits.madderStart {ecc : MemEcc} {t : Twr} {p : Part} {d : DescRec} (hs : Edits true s₀ s) :
    Runs true s₀ Prod.snd (madderStart ecc t p d s) :=
  .ite (.fault hs) (.ite (.fault hs) (hs.madderRead.bind fun _ h => .ok (.ite h.modTwr.modPart.orStatus.count h.modTwr.modPart)))

theorem Edits.madderMove {ecc : MemEcc} {site : Site} {d : DescRec} {n : Nat} (hs : Edits true s₀ s) :
    Runs true s₀ Prod.snd (madderMove ecc site d n s) :=
  hs.groupElems.bind fun _ h => .ok (Edits.orStatus (Edits.madderFlow h))

theorem Edits.madderTry {ecc : MemEcc} {t : Twr} {p : Part} {d : DescRec} {n : Nat} (hs : Edits true s₀ s) :
    Runs true s₀ Prod.snd (madderTry ecc t p d n s) :=
  .iteBind (f := Prod.snd) (.ok hs) hs.madderStart fun _ h => h.madderMove

theorem Edits.madderRun {mode : Nat} {t : Twr} {p : Part} {ecc : MemEcc} (hs : Edits true s₀ s) : Answers true s₀ (madderRun mode t p ecc s) := by
  rw [madderRun_eq]
  split
  · exact .next hs
  · next d rest _ =>
    have hrun : Runs true s₀ Prod.snd (Machine.madderTry ecc t p d (min 1024 (mdCount d - d.done)) s) := hs.madderTry
    refine .ite (.next hs) (.ite (.ite (.next hs) (.next hs.setMq.count)) (.ite (.next hs) ?_))
    split
    · next heq => exact .next (hrun.1 _ heq).setMq
    · exact .next hs
    · next heq => exact .next (hrun.2 _ _ _ _ heq).setMq.raise

theorem Edits.execMadderAdaptiveUpdate {t : Twr} {p : Part} {e : MemEcc} (hs : Edits true s₀ s) :
    Answers true s₀ (execMadderAdaptiveUpdate t p e s) :=
  hs.madderRun

theorem Edits.execMadderMomentumUpdate {t : Twr} {p : Part} {e : MemEcc} (hs : Edits true s₀ s) :
    Answers true s₀ (execMadderMomentumUpdate t p e s) :=
  hs.madderRun

theorem Edits.execMadderComplete {t : Twr} {p : Part} (hs : Edits may s₀ s) : Answers may s₀ (execMadderComplete t p s) := by
  unfold Machine.execMadderComplete
  dsimp only
  split
  · exact .ite (.next hs.modTwr.engineAdd) (.next hs)
  · exact .next hs

theorem Edits.execSecuredBlockWrite {t : Twr} {p : Part} {e : MemEcc} (hs : Edits true s₀ s) : Answers true s₀ (execSecuredBlockWrite t p e s) := by
  unfold Machine.execSecuredBlockWrite
  dsimp only
  split
  · split
    · refine .ite (.next hs) ?_
      split
      · next heq => exact .next (hs.madderWrite heq).madderFlow.setMq
      · exact .next hs.setMq
    · exact .next hs
  · exact .next hs

theorem Edits.execCopyBackGranule {t : Twr} {p : Part} {blk : Nat} {g : Fin 16} {e : MemEcc} (hs : Edits true s₀ s) :
    Answers true s₀ (execCopyBackGranule t p blk g e s) := by
  unfold Machine.execCopyBackGranule
  dsimp only
  split
  · exact .next hs
  · split
    · exact .ite (.next hs) (.next hs.sectorsRead.copyGranule.modBlock.closeEpoch.dropHold.noteEpoch)
    · exact .next hs

/-! ### Known-answer tests -/

theorem Edits.cleanImages {p : Part} (hs : Edits may s₀ s) : Edits may s₀ (s.cleanImages p) := by
  unfold State.cleanImages
  dsimp only
  split
  · exact hs
  · exact hs.modPart

theorem Edits.stationPass {st : St} (hs : Edits may s₀ s) : Edits may s₀ (s.stationPass st) := by
  unfold State.stationPass
  dsimp only
  split
  · exact .ite hs.modHealth.setReg.modPart.cleanImages hs.modHealth
  · exact hs.modHealth

theorem Edits.kernelPassed {st : St} {k : Nat} (hs : Edits may s₀ s) : Edits may s₀ (s.kernelPassed st k) :=
  .ite hs.modHealth.stationPass hs.modHealth

theorem Edits.kernelFailed {st : St} {k : Nat} (hs : Edits may s₀ s) : Edits may s₀ (s.kernelFailed st k) :=
  .modHealth (.ite hs.suspect.saveReg hs.suspect)

theorem Edits.execChkKat {st : St} (hs : Edits may s₀ s) : Answers may s₀ (execChkKat st s) := hs.issue fun _ h _ _ _ => .ite .fault h.enqueue

theorem Edits.startSlice {st : St} {pc : Nat} {direct : Bool} (hs : Edits may s₀ s) : Edits may s₀ (s.startSlice st pc direct) := hs.modHealth.modSt

theorem Edits.execChkKatFire {st : St} (hs : Edits may s₀ s) : Answers may s₀ (execChkKatFire st s) := by
  unfold Machine.execChkKatFire
  split
  · exact .ite (.next hs) (.next hs.modSt.startSlice)
  · exact .next hs

theorem Edits.endSlice {st : St} {b : SliceBits} (hs : Edits may s₀ s) : Edits may s₀ (s.endSlice st b) := hs.frame.count.modSt

theorem Edits.sliceClock {st : St} (hs : Edits may s₀ s) : Edits may s₀ (s.sliceClock st) := .ite hs.setReg hs

theorem Edits.directFails {st : St} {k : Nat} (hs : Edits may s₀ s) : Edits may s₀ (s.directFails st k) := hs.kernelFailed.modHealth

theorem Edits.execTestSliceEnd {st : St} {b : SliceBits} (hs : Edits may s₀ s) : Answers may s₀ (execTestSliceEnd st b s) := by
  unfold Machine.execTestSliceEnd
  dsimp only
  split
  · exact .next hs
  · exact .ite (.next (.kernelPassed (.ite hs.endSlice.modHealth.sliceClock hs.endSlice.modHealth)))
      (.next (.ite (.directFails (.ite hs.endSlice.modHealth.sliceClock hs.endSlice.modHealth))
      (.kernelFailed (.faultAt (.ite hs.endSlice.modHealth.sliceClock hs.endSlice.modHealth)))))

theorem Edits.execDirectTestSlice {st : St} (hs : Edits may s₀ s) : Answers may s₀ (execDirectTestSlice st s) :=
  .ite (.next hs) (.next hs.startSlice.setReg)

theorem Edits.execKatQueueFill {st : St} {count : Nat} (hs : Edits may s₀ s) : Answers may s₀ (execKatQueueFill st count s) :=
  .ite (.next hs) (.next hs.modHealth)

theorem Edits.slicesRun {st : St} {k : Nat} (hs : Edits may s₀ s) : Edits may s₀ (s.slicesRun st k) := hs.frame.count.modSt

theorem Edits.isolationRun {st : St} (hs : Edits may s₀ s) : Edits may s₀ (s.isolationRun st) := hs.frame.count.modSt

theorem Edits.execIdleStationRotation {st : St} {fail : Option (Nat × SliceBits)} (hs : Edits may s₀ s) :
    Answers may s₀ (execIdleStationRotation st fail s) := by
  unfold Machine.execIdleStationRotation
  dsimp only
  refine .ite (.next hs) ?_
  split
  · exact .next hs.slicesRun.modHealth
  · exact .ite (.next hs) (.next (.directFails (.endSlice (.ite hs hs.slicesRun))))

theorem Edits.execSequencerCompareMismatch {st : St} (hs : Edits may s₀ s) : Answers may s₀ (execSequencerCompareMismatch st s) :=
  .next hs.modSt.faultAt

theorem Edits.execObservationExpiry {st : St} (hs : Edits may s₀ s) : Answers may s₀ (execObservationExpiry st s) :=
  .ite (.next hs.saveReg.breakHour) (.next hs)

/-! ### Epochs -/

theorem Edits.modSec {p : Part} {f : Secure → Secure} (hs : Edits may s₀ s) : Edits may s₀ (s.modSec p f) := hs.modPart

theorem Edits.dropStepHolds {p : Part} (hs : Edits may s₀ s) : Edits may s₀ (s.dropStepHolds p) := hs.foldl fun _ _ h => h.dropHold

theorem Edits.openEpoch {p : Part} {step : W64} {tier : Nat} {e : MemEcc} (hs : Edits true s₀ s) : Edits true s₀ (s.openEpoch p step tier e) :=
  (hs.devRead.foldl fun _ _ h => .ite h h.modTwr).setReg.modSec.noteEpoch

theorem Edits.dropEpoch {p : Part} (hs : Edits may s₀ s) : Edits may s₀ (s.dropEpoch p) := by
  unfold State.dropEpoch
  exact Edits.modSec (hs.foldl fun _ _ h => h.modEpoch.closeEpoch.dropHold)

theorem Edits.abortEpoch {p : Part} (hs : Edits may s₀ s) : Edits may s₀ (s.abortEpoch p) := .ite hs hs.dropEpoch.count.noteEpoch

theorem Edits.towerGone {t : Twr} {p : Part} (hs : Edits may s₀ s) : Edits may s₀ (s.towerGone t p) := by
  unfold State.towerGone
  exact Edits.noteEpoch (.modTwr (.ite (.setReg (.ite hs.dropEpoch hs)) hs))

theorem Edits.strike {p : Part} {cls detail : Nat} {l : List (St × Nat × Nat)} (hs : Edits may s₀ s) : Edits may s₀ (s.strike p cls detail l) :=
  hs.foldl fun _ _ h => h.raise

theorem Edits.execTowerLoss {t : Twr} (hs : Edits may s₀ s) : Answers may s₀ (execTowerLoss t s) :=
  .ite (.next hs) (.next (hs.modTwr.foldl fun _ _ h => .ite h (.ite h.strike.towerGone.raise h.strike.towerGone)).saveReg.resetCrossings)

theorem Edits.retireTower {p : Part} {t : Twr} (hs : Edits may s₀ s) : Edits may s₀ (s.retireTower p t) :=
  .ite hs.towerGone.modTwr.saveReg.resetCrossings hs.towerGone.modTwr

theorem Edits.abortWhere {p : Part} {ok : Image → Bool} (hs : Edits may s₀ s) : Edits may s₀ (s.abortWhere p ok) := by
  unfold State.abortWhere
  dsimp only
  split
  · exact .ite (.abortEpoch (.ite hs hs.modSec.count)) (.ite hs hs.modSec.count)
  · exact .ite hs hs.modSec.count

theorem Edits.abortTier {ok : Part → Image → Bool} (hs : Edits may s₀ s) : Edits may s₀ (s.abortTier ok) := hs.foldl fun _ _ h => h.abortWhere

theorem Edits.abortPort {q : PortId} (hs : Edits may s₀ s) : Edits may s₀ (s.abortPort q) := hs.abortTier

theorem Edits.holdImage {p : Part} {i : Image} (hs : Edits may s₀ s) : Edits may s₀ (s.holdImage p i) := hs.modSec.dropStepHolds

theorem Edits.completeImage {p : Part} (hs : Edits may s₀ s) : Edits may s₀ (s.completeImage p) := by
  unfold State.completeImage
  split
  · exact hs
  · exact hs.modSec.holdImage

theorem Edits.completeLate {p : Part} {k : Nat} (hs : Edits may s₀ s) : Edits may s₀ (s.completeLate p k) := by
  unfold State.completeLate
  split
  · exact hs
  · exact hs.modSec.holdImage

theorem Edits.retireSepia (hs : Edits may s₀ s) : Edits may s₀ s.retireSepia := hs.saveReg.abortTier

/-! ### Calendar -/

theorem Edits.modPort {p : PortId} {f : Port → Port} (hs : Edits may s₀ s) : Edits may s₀ (s.modPort p f) := hs.frame

theorem Edits.setTimeStatus {depth : Nat} {lastResort aligned : Bool} {off : Nat} (hs : Edits may s₀ s) :
    Edits may s₀ (s.setTimeStatus depth lastResort aligned off) :=
  hs.setReg

theorem Edits.timeEvent (hs : Edits may s₀ s) : Edits may s₀ s.timeEvent := hs.foldl fun _ _ h => .ite h.raise h

theorem Edits.unalign (hs : Edits may s₀ s) : Edits may s₀ s.unalign := .ite hs.setReg.timeEvent hs

theorem Edits.timeLost {q : PortId} (hs : Edits may s₀ s) : Edits may s₀ (s.timeLost q) := .ite (.unalign (.ite hs.frame hs)) (.ite hs.frame hs)

theorem Edits.checkParent (hs : Edits may s₀ s) : Edits may s₀ s.checkParent := .ite hs.unalign hs

theorem Edits.roleChanged (hs : Edits may s₀ s) : Edits may s₀ s.roleChanged := .ite hs.frame.setReg hs.frame.checkParent

theorem Edits.pruneRaises {p : Part} {st : St} (hs : Edits may s₀ s) : Edits may s₀ (s.pruneRaises p st) := hs.modSt

theorem Edits.ageWaits {st : St} (hs : Edits may s₀ s) : Edits may s₀ (s.ageWaits st) := hs.modSt

theorem Edits.stationFrame {p : Part} {f : W64} {fresh : Bool} {st : St} (hs : Edits may s₀ s) : Edits may s₀ (s.stationFrame p f fresh st) :=
  .modSt (.ite (.ite hs.ageWaits hs) (.count (.ite hs.ageWaits hs)))

theorem Edits.partFrame {p : Part} (hs : Edits may s₀ s) : Edits may s₀ (s.partFrame p) := .ite hs (hs.modPart.foldl fun _ _ h => h.stationFrame)

theorem Edits.portFrame {q : PortId} (hs : Edits may s₀ s) : Edits may s₀ (s.portFrame q) := hs.modPort

theorem Edits.marginFrame {st : St} (hs : Edits may s₀ s) : Edits may s₀ (s.marginFrame st) := .ite hs.modHealth.suspect.modHealth hs.modHealth

theorem Edits.countSc {p : Part} (hs : Edits may s₀ s) : Edits may s₀ (s.countSc p) := .ite hs (hs.foldl fun _ _ h => h.modHealth)

theorem Edits.execFrameMark (hs : Edits may s₀ s) : Answers may s₀ (execFrameMark s) :=
  .ite (.next hs) (.next ((((hs.foldl fun _ _ h => h.marginFrame).foldl fun _ _ h => h.countSc).frame.foldl fun _ _ h => h.portFrame).frame.foldl
    fun _ _ h => h.partFrame))

theorem Edits.checkLink {p : Part} {w : Nat} {q : PortId} (hs : Edits may s₀ s) : Edits may s₀ (s.checkLink p w q) :=
  .ite hs (.ite hs.modPort hs.raise)

theorem Edits.partWindow {w : Nat} {p : Part} (hs : Edits may s₀ s) : Edits may s₀ (s.partWindow w p) :=
  .ite hs.modPart (.modPart (.foldl (.ite (.count (.ite (hs.foldl fun _ _ h => h.checkLink) hs)) (.ite (hs.foldl fun _ _ h => h.checkLink) hs))
    (fun _ _ h => h.pruneRaises)))

theorem Edits.execWindowMark (hs : Edits may s₀ s) : Answers may s₀ (execWindowMark s) :=
  .ite (.next hs) (.next (hs.frame.foldl fun _ _ h => h.partWindow).frame)

theorem Edits.execHoldSightGap {port : PortId} (hs : Edits may s₀ s) : Answers may s₀ (execHoldSightGap port s) :=
  .ite (.next hs) (.next hs.modPort.count)

theorem Edits.execSightGapDeferredCheck {port : PortId} (hs : Edits may s₀ s) : Answers may s₀ (execSightGapDeferredCheck port s) := by
  unfold Machine.execSightGapDeferredCheck
  dsimp only
  split
  · exact .ite (.next hs) (.ite (.next hs.modPort) (.next hs.modPort.raise))
  · exact .next hs

theorem Edits.execHoldStallLimit {p : Part} (hs : Edits may s₀ s) : Answers may s₀ (execHoldStallLimit p s) :=
  .ite (.next hs) (.next ((hs.foldl fun _ _ h => h.pruneRaises).foldl fun _ _ h => h.raise))

theorem Edits.execTransferStart {st : St} {u : UnitQ} (hs : Edits may s₀ s) : Answers may s₀ (execTransferStart st u s) := by
  unfold Machine.execTransferStart
  dsimp only
  split
  · exact .ite (.next hs.failedWait) (.ite (.next hs) (.next hs.modSt))
  · exact .next hs

theorem Edits.shareOf {p : Part} {st : St} (hs : Edits may s₀ s) : Edits may s₀ (s.shareOf p st) := .ite hs.setReg.modHealth.raise hs.setReg.modHealth

theorem Edits.execTestShareSpanEnd {p : Part} (hs : Edits may s₀ s) : Answers may s₀ (execTestShareSpanEnd p s) :=
  .ite (.next hs) (.next (hs.modPart.foldl fun _ _ h => h.shareOf))

theorem Edits.execFlitArrivalAtRouter {node : Fin 192} {inp : Dir} {f : MeshFlit} (hs : Edits may s₀ s) :
    Answers may s₀ (execFlitArrivalAtRouter node inp f s) := by
  unfold Machine.execFlitArrivalAtRouter
  dsimp only
  refine .ite (.next hs) (.ite (.next hs.raise) ?_)
  split
  · exact .next (.ite hs.frame.count hs.frame)
  · exact .next (.ite (.raise (.ite hs.frame.count hs.frame)) (.raise (.raise (.ite hs.frame.count hs.frame))))

/-! ### Links -/

theorem Edits.sendBlock {q : PortId} {b : List Byte} (hs : Edits may s₀ s) : Edits may s₀ (s.sendBlock q b) := hs.emit

theorem Edits.showPort {q : PortId} {v : Nat} {fallback reversed : Bool} (hs : Edits may s₀ s) : Edits may s₀ (s.showPort q v fallback reversed) :=
  hs.setReg

theorem Edits.setPortState {q : PortId} {v : Nat} (hs : Edits may s₀ s) : Edits may s₀ (s.setPortState q v) :=
  .ite hs.showPort (.ite hs.showPort.setReg.setReg hs.showPort.setReg)

theorem Edits.setPortFlags {q : PortId} {fallback reversed : Bool} (hs : Edits may s₀ s) : Edits may s₀ (s.setPortFlags q fallback reversed) :=
  hs.showPort

theorem Edits.lossNotice {q : PortId} (hs : Edits may s₀ s) : Edits may s₀ (s.lossNotice q) :=
  (hs.foldl fun _ _ h => h.modSt).frame.foldl fun _ _ h => h.faultAt

theorem Edits.dropXfers {q : PortId} (hs : Edits may s₀ s) : Edits may s₀ (s.dropXfers q) := hs.frame.foldl fun _ _ h => h.faultAt

theorem Edits.portLoss {q : PortId} (hs : Edits may s₀ s) : Edits may s₀ (s.portLoss q) := by
  unfold State.portLoss
  dsimp only
  split
  · exact Edits.count (Edits.abortPort (Edits.dropXfers (Edits.lossNotice (.ite hs.modPort.raise hs.modPort))))
  · exact hs.modPort.lossNotice.dropXfers.abortPort.count

theorem Edits.sendControl {q : PortId} {msg mid part parts : Nat} {body : List Byte} (hs : Edits may s₀ s) :
    Edits may s₀ (s.sendControl q msg mid part parts body) :=
  hs.sendBlock.modPort

theorem Edits.tellNow {q : PortId} {msg : Nat} {body : List Byte} (hs : Edits may s₀ s) : Edits may s₀ (s.tellNow q msg body) :=
  hs.sendControl.modPort

theorem Edits.ackNow {q : PortId} (hs : Edits may s₀ s) : Edits may s₀ (s.ackNow q) := hs.sendControl

theorem Edits.startTraining {q : PortId} (hs : Edits may s₀ s) : Edits may s₀ (s.startTraining q) := hs.modPort

theorem Edits.retrain {q : PortId} (hs : Edits may s₀ s) : Edits may s₀ (s.retrain q) :=
  .ite hs.portLoss.modPort.startTraining.setPortState.timeLost hs.portLoss.setPortState.timeLost

theorem Edits.askRetrain {q : PortId} (hs : Edits may s₀ s) : Edits may s₀ (s.askRetrain q) := .ite hs hs.modPort

theorem Edits.loseTo {q : PortId} {v : Nat} (hs : Edits may s₀ s) : Edits may s₀ (s.loseTo q v) := hs.portLoss.setPortState.timeLost

theorem Edits.portDown {q : PortId} (hs : Edits may s₀ s) : Edits may s₀ (s.portDown q) := hs.modPort.setPortState

theorem Edits.goodbye {q : PortId} (hs : Edits may s₀ s) : Edits may s₀ (s.goodbye q) := .ite hs.tellNow.loseTo (.ite hs hs.portDown)

theorem Edits.closePort {q : PortId} (hs : Edits may s₀ s) : Edits may s₀ (s.closePort q) := .ite hs.tellNow.portDown hs.goodbye

theorem Edits.askGoodbye {q : PortId} (hs : Edits may s₀ s) : Edits may s₀ (s.askGoodbye q) := .ite hs.goodbye (.ite hs hs.modPort)

theorem Edits.stopPort {q : PortId} (hs : Edits may s₀ s) : Edits may s₀ (s.stopPort q) :=
  .ite hs.loseTo (.ite hs.tellNow.portDown (.ite hs hs.portDown))

theorem Edits.trainingFailed {q : PortId} (hs : Edits may s₀ s) : Edits may s₀ (s.trainingFailed q) := .modPort (.ite hs.modPort.loseTo hs)

theorem Edits.toFallback {q : PortId} (hs : Edits may s₀ s) : Edits may s₀ (s.toFallback q) := hs.setPortFlags.modPort.setPortState

theorem Edits.trainFail {q : PortId} (hs : Edits may s₀ s) : Edits may s₀ (s.trainFail q) := .ite hs.trainingFailed hs.toFallback

theorem Edits.execTrainingSetsDetected {port : PortId} {sets : List (Fin 17 × BitVec 256)} (hs : Edits may s₀ s) :
    Answers may s₀ (execTrainingSetsDetected port sets s) := by
  unfold Machine.execTrainingSetsDetected
  dsimp only
  refine .ite (.next hs) (.ite ?_ (.ite (.next hs.toFallback) (.next hs)))
  split
  · exact .next hs.setReg.trainingFailed
  · exact .next hs.setPortFlags.modPort.startTraining.setPortState

theorem Edits.assignLanes {q : PortId} {rx tx : Option Nat} (hs : Edits may s₀ s) : Edits may s₀ (s.assignLanes q rx tx) :=
  .ite hs.modPort.setReg hs.modPort.setReg.saveReg

theorem Edits.execEqualiseComplete {port : PortId} {rxOut txOut : Option (Fin 17)} (hs : Edits may s₀ s) :
    Answers may s₀ (execEqualiseComplete port rxOut txOut s) :=
  .ite (.next hs.assignLanes.setPortState) (.next hs)

theorem Edits.execEqualiseTimeout {port : PortId} (hs : Edits may s₀ s) : Answers may s₀ (execEqualiseTimeout port s) :=
  .ite (.next hs.trainFail) (.next hs)

theorem Edits.execAlignTimeout {port : PortId} (hs : Edits may s₀ s) : Answers may s₀ (execAlignTimeout port s) :=
  .ite (.next hs.trainFail) (.next hs)

theorem Edits.execAlignComplete {port : PortId} (hs : Edits may s₀ s) : Answers may s₀ (execAlignComplete port s) := by
  unfold Machine.execAlignComplete
  dsimp only
  split
  · exact .next hs
  · exact .ite (.next hs) (.next hs.setReg.modPort.setPortState.frame)

theorem Edits.execTrainingRetry {port : PortId} {rxFail txFail : Nat} (hs : Edits may s₀ s) :
    Answers may s₀ (execTrainingRetry port rxFail txFail s) :=
  .ite (.next hs) (.ite (.next hs.modPort.setPortState)
    (.ite (.next hs.modPort.modPort.saveReg.setPortState) (.next hs.modPort.modPort.setPortState)))

theorem Edits.refuseEnd {q : PortId} (hs : Edits may s₀ s) : Edits may s₀ (s.refuseEnd q) :=
  .ite hs.modPort.modPort.setPortState hs.modPort.setPortState

theorem Edits.recordRefusal {q : PortId} {code : Nat} (hs : Edits may s₀ s) : Edits may s₀ (s.recordRefusal q code) := hs.setReg.modPort

theorem Edits.refuse {q : PortId} {code : Nat} (hs : Edits may s₀ s) : Edits may s₀ (s.refuse q code) := hs.recordRefusal.refuseEnd

theorem Edits.verdict {q : PortId} {code : Nat} (hs : Edits may s₀ s) : Edits may s₀ (s.verdict q code) := .modPort (.ite hs hs.recordRefusal)

theorem Edits.msgEnd {q : PortId} {m : LinkMsg} {given : Bool} (hs : Edits may s₀ s) : Edits may s₀ (s.msgEnd q m given) := by
  unfold State.msgEnd
  split
  · exact .ite hs.refuse hs
  · exact .ite hs.refuse hs
  · exact .ite hs.refuse hs
  · exact .ite hs.refuseEnd (.ite hs (.ite hs.loseTo hs.portDown))
  · exact .ite hs.loseTo hs
  · exact hs.retrain
  · exact hs.loseTo
  · exact hs

theorem Edits.cover {q : PortId} {amid : Byte} (hs : Edits may s₀ s) : Edits may s₀ (s.cover q amid) := hs.foldl fun _ _ h => .ite h.modPort.msgEnd h

theorem Edits.heard {q : PortId} {ids : MsgIds} (hs : Edits may s₀ s) : Edits may s₀ (s.heard q ids) := hs.modPort.cover

theorem Edits.enterUp {q : PortId} (hs : Edits may s₀ s) : Edits may s₀ (s.enterUp q) := by
  unfold State.enterUp
  dsimp only
  split
  · exact .ite hs.modPort.setPortState.setReg hs
  · exact hs

theorem Edits.execHello {port : PortId} {ids : MsgIds} {h : HelloBody} (hs : Edits may s₀ s) : Answers may s₀ (execHello port ids h s) :=
  .ite (.next hs) (.ite (.next hs.heard) (.next hs.heard.modPort))

theorem Edits.execChain {port : PortId} {ids : MsgIds} {ok : Bool} (hs : Edits may s₀ s) : Answers may s₀ (execChain port ids ok s) := by
  unfold Machine.execChain
  dsimp only
  refine .ite (.next hs) ?_
  split
  · exact .next hs
  · exact .ite (.next hs.heard) (.next hs.heard.modPort)

theorem Edits.execProof {port : PortId} {ids : MsgIds} {ok : Bool} (hs : Edits may s₀ s) : Answers may s₀ (execProof port ids ok s) := by
  unfold Machine.execProof
  dsimp only
  split
  · exact .ite (.next hs) (.ite (.next hs.heard) (.next hs.heard.verdict))
  · exact .next hs

theorem Edits.execVerdict {port : PortId} {ids : MsgIds} {code : Byte} (hs : Edits may s₀ s) : Answers may s₀ (execVerdict port ids code s) :=
  .ite (.next hs) (.ite (.next hs.heard) (.ite (.next hs.heard.modPort.enterUp) (.next hs.heard.ackNow.refuse)))

theorem Edits.execAuthTimeout {port : PortId} (hs : Edits may s₀ s) : Answers may s₀ (execAuthTimeout port s) :=
  .ite (.next hs) (.ite (.next hs.refuseEnd) (.next hs.verdict))

theorem Edits.execLinkControlRepeat {port : PortId} (hs : Edits may s₀ s) : Answers may s₀ (execLinkControlRepeat port s) := by
  unfold Machine.execLinkControlRepeat
  split
  · exact .next hs
  · exact .ite (.next hs.modPort) (.next hs.modPort.msgEnd)

theorem Edits.execLinkControlAck {port : PortId} {amid : Byte} (hs : Edits may s₀ s) : Answers may s₀ (execLinkControlAck port amid s) :=
  .next hs.cover

theorem Edits.sendIdle {q : PortId} (hs : Edits may s₀ s) : Edits may s₀ (s.sendIdle q) := hs.sendBlock

theorem Edits.sendSeq {q : PortId} {b : Block} {e : BufferEcc} (hs : Edits may s₀ s) : Edits may s₀ (s.sendSeq q b e) :=
  .modPort (.ite hs.sendBlock.count hs.sendBlock)

theorem Edits.sendMsg {q : PortId} {m : LinkMsg} (hs : Edits may s₀ s) : Edits may s₀ (s.sendMsg q m) := hs.sendControl.modPort

theorem Edits.sendTime {q : PortId} {b : List Byte} (hs : Edits may s₀ s) : Edits may s₀ (s.sendTime q b) := hs.sendBlock.modPort.frame

theorem Edits.linkSlot {q : PortId} {e : BufferEcc} (hs : Edits may s₀ s) : Edits may s₀ (s.linkSlot q e) := by
  unfold State.linkSlot
  split
  · exact hs.sendIdle
  · exact .ite hs.askRetrain.sendIdle hs.frame.sendSeq

theorem Edits.execBlockSlot {port : PortId} {slot : Fin 752} {e : BufferEcc} (hs : Edits may s₀ s) :
    Answers may s₀ (execBlockSlot port slot e s) := by
  unfold Machine.execBlockSlot
  dsimp only
  refine .ite (.next hs) (.ite ?_ ?_)
  · split
    · exact .next hs.modPort.sendTime
    · exact .ite (.next hs.modPort.sendTime) (.next hs.modPort.sendIdle)
  · split
    · exact .next hs.modPort.sendMsg.enterUp
    · refine .ite (.next hs.modPort.ackNow) (.ite (.next hs.modPort.sendIdle) ?_)
      split
      · exact .next hs.modPort.sendTime
      · split
        · exact .next hs.modPort.sendSeq
        · exact .ite (.next hs.modPort.sendIdle) (.next hs.modPort.linkSlot)

theorem Edits.onAck {q : PortId} {a : Nat} {nak : Bool} (hs : Edits may s₀ s) : Edits may s₀ (s.onAck q a nak) :=
  .ite hs (.ite hs.frame.modPort.count hs.frame)

theorem Edits.seeHold {q : PortId} {w : Nat} (hs : Edits may s₀ s) : Edits may s₀ (s.seeHold q w) := by
  unfold State.seeHold
  dsimp only
  split
  · exact .ite hs.modPort.modPart hs.modPort
  · exact hs.modPort

theorem Edits.onHold {q : PortId} {hold : Bool} {hwin : Nat} (hs : Edits may s₀ s) : Edits may s₀ (s.onHold q hold hwin) := by
  unfold State.onHold
  dsimp only
  refine .ite hs ?_
  split
  · exact hs.seeHold
  · exact hs.seeHold
  · split
    · exact .ite hs.raise hs.modPort
    · exact hs
  · exact hs

theorem Edits.deliver {q : PortId} {b : Block} (hs : Edits may s₀ s) : Edits may s₀ (s.deliver q b) := .ite hs.count (.ite hs.modPort hs.modPort)

theorem Edits.timeArrives {q : PortId} {l : List Byte} (hs : Edits may s₀ s) : Edits may s₀ (s.timeArrives q l) := .ite hs hs.modPort.frame

theorem Edits.unsequenced {q : PortId} {type seq : Nat} {payload : List Byte} (hs : Edits may s₀ s) :
    Edits may s₀ (s.unsequenced q type seq payload) :=
  .ite (.timeArrives (.modPort (.ite hs.count hs))) (.modPort (.ite hs.count hs))

theorem Edits.inOrder {q : PortId} {h : Nat} {payload : List Byte} (hs : Edits may s₀ s) : Edits may s₀ (s.inOrder q h payload) := hs.modPort.deliver

theorem Edits.execBlockArrival {port : PortId} {b : BitVec 2048} (hs : Edits may s₀ s) : Answers may s₀ (execBlockArrival port b s) :=
  .ite (.next hs) (.ite (.next hs.modPort.count)
    (.ite (.next hs.modPort.unsequenced)
    (.ite (.next hs.modPort.onHold.onAck.unsequenced) (.ite (.next hs.modPort.onHold.onAck.inOrder) (.next hs.modPort.onHold.onAck.modPort)))))

theorem Edits.execAckTimeout {port : PortId} (hs : Edits may s₀ s) : Answers may s₀ (execAckTimeout port s) :=
  .ite (.next hs) (.ite (.next hs.modPort.count.count.askRetrain) (.next hs.modPort.count.count))

theorem Edits.execReceiveSilence {port : PortId} (hs : Edits may s₀ s) : Answers may s₀ (execReceiveSilence port s) :=
  .ite (.next hs.askRetrain) (.next hs)

theorem Edits.useRxSpare {q : PortId} (hs : Edits may s₀ s) : Edits may s₀ (s.useRxSpare q) := hs.saveReg

theorem Edits.useTxSpare {q : PortId} (hs : Edits may s₀ s) : Edits may s₀ (s.useTxSpare q) := hs.saveReg

theorem Edits.mapRx {q : PortId} {lane : Nat} (hs : Edits may s₀ s) : Edits may s₀ (s.mapRx q lane) := hs.setReg.modPort

theorem Edits.mapTx {q : PortId} {lane : Nat} (hs : Edits may s₀ s) : Edits may s₀ (s.mapTx q lane) := hs.setReg.modPort

theorem Edits.askSwap {q : PortId} {lane : Nat} {degraded : Bool} (hs : Edits may s₀ s) : Edits may s₀ (s.askSwap q lane degraded) := hs.modPort

theorem Edits.execLossOfSignal {port : PortId} {lane : LaneLoss} (hs : Edits may s₀ s) : Answers may s₀ (execLossOfSignal port lane s) := by
  unfold Machine.execLossOfSignal
  dsimp only
  refine .ite (.next hs) ?_
  split
  · exact .ite (.next (.modPort (.ite hs hs.modPort))) (.next (.loseTo (.ite hs hs.modPort)))
  · exact .ite (.next (.askSwap (.ite hs hs.modPort))) (.ite (.next (.loseTo (.ite hs hs.modPort))) (.next (.ite hs hs.modPort)))

theorem Edits.execLossPersists {port : PortId} (hs : Edits may s₀ s) : Answers may s₀ (execLossPersists port s) := .ite (.next hs.loseTo) (.next hs)

theorem Edits.execLaneDegradeWindow {port : PortId} {lane : Fin 16} {w : LaneWindow} (hs : Edits may s₀ s) :
    Answers may s₀ (execLaneDegradeWindow port lane w s) := by
  unfold Machine.execLaneDegradeWindow
  dsimp only
  refine .ite (.next hs) (.ite (.next hs.count.count) ?_)
  split
  · exact .ite (.next hs.count.count) (.next hs.count.count.askRetrain)
  · exact .ite (.next hs.count.count.askSwap) (.next hs.count.count.askRetrain)

theorem Edits.execSpareLockLoss {port : PortId} (hs : Edits may s₀ s) : Answers may s₀ (execSpareLockLoss port s) :=
  .ite (.next hs.modPort.useRxSpare) (.next hs)

theorem Edits.execSpareCodewordDecode {port : PortId} {lane : Fin 16} (hs : Edits may s₀ s) :
    Answers may s₀ (execSpareCodewordDecode port lane s) := by
  unfold Machine.execSpareCodewordDecode
  dsimp only
  split
  · exact .next hs
  · exact .ite (.next hs) (.ite (.next hs.modPort) (.next hs.modPort.useRxSpare.mapRx))

theorem Edits.whenUp {port : PortId} {ids : MsgIds} {f : State → State} (hs : Edits may s₀ s) (hf : ∀ t, Edits may s₀ t → Edits may s₀ (f t)) :
    Answers may s₀ (whenUp port ids f s) :=
  .ite (.next hs) (.ite (.next (hf _ hs.heard)) (.next hs.heard))

theorem Edits.execSwap {port : PortId} {ids : MsgIds} {lane : Fin 16} (hs : Edits may s₀ s) : Answers may s₀ (execSwap port ids lane s) :=
  hs.whenUp fun _ h => .ite h (.ite h.modPort (.ite h.frame.loseTo h.frame.askRetrain))

theorem Edits.execSwapDone {port : PortId} {ids : MsgIds} {lane : Fin 16} (hs : Edits may s₀ s) : Answers may s₀ (execSwapDone port ids lane s) :=
  hs.whenUp fun _ h => .ite h.modPort.useTxSpare.mapTx h

theorem Edits.execSpareBad {port : PortId} {ids : MsgIds} (hs : Edits may s₀ s) : Answers may s₀ (execSpareBad port ids s) :=
  hs.whenUp fun _ h => h.useTxSpare

theorem Edits.execRetrain {port : PortId} {ids : MsgIds} (hs : Edits may s₀ s) : Answers may s₀ (execRetrain port ids s) :=
  hs.whenUp fun _ h => h.tellNow.retrain

theorem Edits.execGoodbye {port : PortId} {ids : MsgIds} (hs : Edits may s₀ s) : Answers may s₀ (execGoodbye port ids s) :=
  hs.whenUp fun _ h => h.ackNow.loseTo

theorem Edits.execCoefficientRequest {port : PortId} {lane : Fin 17} {set : BitVec 256} (hs : Edits may s₀ s) :
    Answers may s₀ (execCoefficientRequest port lane set s) := by
  unfold Machine.execCoefficientRequest
  dsimp only
  split
  · exact .next hs
  · exact .ite (.next hs) (.ite (.next hs.emit.frame) (.ite (.next hs.modPort.emit.frame) (.ite (.next hs.emit.frame) (.next hs.modPort.emit.frame))))

/-! ### Fabric -/

theorem Edits.schedule {p : Part} {q : PortId} {b : Block} (hs : Edits may s₀ s) : Edits may s₀ (s.schedule p q b) := .ite hs.modPort.raise hs.modPort

theorem Edits.acceptBlock {q : PortId} {b : Block} (hs : Edits may s₀ s) : Edits may s₀ (s.acceptBlock q b) := hs.modPort

theorem Edits.xferDone {x : Xfer} (hs : Edits may s₀ s) : Edits may s₀ (s.xferDone x) := .ite hs.modSt hs

theorem Edits.xferStep {k : Nat} {x : Xfer} (hs : Edits may s₀ s) : Edits may s₀ (s.xferStep k x) := .ite hs.frame hs.frame.xferDone

theorem Edits.modBranch {p : Part} {tree : Nat} {q : Option PortId} {f : BranchBuf → BranchBuf} (hs : Edits may s₀ s) :
    Edits may s₀ (s.modBranch p tree q f) :=
  hs.frame

theorem Edits.branchOut {p : Part} {tree : Nat} {q : PortId} {b : Block} (hs : Edits may s₀ s) : Edits may s₀ (s.branchOut p tree q b) :=
  .ite hs (.ite hs.schedule (.ite hs.modBranch hs.modBranch.modPort.raise))

theorem Edits.faultPort {p : Part} {q : PortId} (hs : Edits may s₀ s) : Edits may s₀ (s.faultPort p q) := hs.raise

theorem Edits.mirrorTouch {p : Part} {a : Nat} (hs : Edits may s₀ s) : Edits may s₀ (s.mirrorTouch p a) := by
  unfold State.mirrorTouch
  split
  · exact hs.modSec
  · exact hs

theorem Edits.blockWrite {e : MemEcc} {p : Part} {q : PortId} {b : Block} {a : Nat} {short : Bool} (hs : Edits true s₀ s) :
    Edits true s₀ (s.blockWrite e p q b a short).1 := by
  unfold State.blockWrite
  split
  · exact hs.faultPort
  · split
    · exact hs.faultPort
    · split
      · next heq => exact (hs.devWrite heq).mirrorTouch
      · exact hs.faultPort

theorem Edits.addOffset {p : Part} {off : Nat} (hs : Edits may s₀ s) : Edits may s₀ (s.addOffset p off) := by
  unfold State.addOffset
  refine .ite hs ?_
  split
  · exact .ite hs hs.frame
  · exact hs

theorem Edits.treeDeliver {e : MemEcc} {p : Part} {q : PortId} {t : Nat} {b : Block} {ends : Option Bool} (hs : Edits true s₀ s) :
    Edits true s₀ (s.treeDeliver e p q t b ends) :=
  .ite hs (.ite (.addOffset (.blockWrite (.ite hs hs.frame))) (.blockWrite (.ite hs hs.frame)))

theorem Edits.takeSched {q : PortId} {tt : Nat} {b : Block} (hs : Edits may s₀ s) (h : s.takeSched q tt = some (b, t)) : Edits may s₀ t := by
  unfold State.takeSched at h
  split at h
  · split at h
    · cases h
      exact hs.modPort
    · cases h
  · cases h

theorem Edits.schedPart {q : PortId} (hs : Edits may s₀ s) (h : s.schedPart q = .error t) : Edits may s₀ t := by
  unfold State.schedPart at h
  split at h
  · split at h
    · cases h
    · cases h
      exact hs.count
  · cases h
    exact hs.count

theorem Edits.execScheduledBlockTransit {port : PortId} (hs : Edits may s₀ s) : Answers may s₀ (execScheduledBlockTransit port s) := by
  unfold Machine.execScheduledBlockTransit
  dsimp only
  split
  · exact .next hs
  · refine .ite (.next hs) ?_
    split
    · next heq => exact .next (hs.modPort.schedPart heq)
    · split
      · exact .next hs.modPort.faultPort
      · refine .ite (.next hs) ?_
        split
        · exact .next hs.modPort.faultPort
        · exact .ite (.next hs.modPort.schedule) (.next hs.modPort.faultPort)

theorem Edits.atDest {tt : Nat} {port : PortId} {f : State → Part → Block → Nat → State} (hs : Edits may s₀ s)
    (hf : ∀ t, Edits may s₀ t → ∀ p b e, Edits may s₀ (f t p b e)) : Answers may s₀ (atDest tt port s f) := by
  unfold Machine.atDest
  split
  · exact .next hs
  · next htake =>
    have hs' := hs.takeSched htake
    split
    · next heq => exact .next (hs'.schedPart heq)
    · split
      · exact .next hs'.faultPort
      · exact .ite (.next hs) (.ite (.next hs'.faultPort) (.next (hf _ hs' _ _ _)))

theorem Edits.execWrite {port : PortId} {ecc : MemEcc} (hs : Edits true s₀ s) : Answers true s₀ (execWrite port ecc s) :=
  hs.atDest fun _ h _ _ _ => h.blockWrite

theorem Edits.readSource {e : MemEcc} {r : ReadReq} (hs : Edits true s₀ s) : Edits true s₀ (s.readSource e r).2 := by
  unfold State.readSource
  dsimp only
  split
  · exact hs.devRead.devRead
  · exact hs.devRead

theorem Edits.respond {ecc : MemEcc} {p : Part} {q : PortId} {b : Block} {route : Nat} (hs : Edits true s₀ s) :
    Edits true s₀ (s.respond ecc p q b route) :=
  .ite hs.faultPort hs.readSource.frame

theorem Edits.execReadRequest {port : PortId} {ecc : MemEcc} (hs : Edits true s₀ s) : Answers true s₀ (execReadRequest port ecc s) :=
  hs.atDest fun _ h _ _ _ => h.respond

theorem Edits.fetchBlock {p : Part} {q : PortId} {st ftag blk : Nat} {b : Block} (hs : Edits may s₀ s) :
    Edits may s₀ (s.fetchBlock p q st ftag blk b) := by
  unfold State.fetchBlock
  dsimp only
  split
  · exact hs
  · split
    · exact hs
    · exact hs.frame

theorem Edits.execReadResponse {port : PortId} (hs : Edits may s₀ s) : Answers may s₀ (execReadResponse port s) :=
  hs.atDest fun _ h _ _ _ => h.fetchBlock

theorem Edits.remoteMor {p : Part} {q : PortId} {b : Block} {off : Nat} {set : Bool} (hs : Edits may s₀ s) :
    Edits may s₀ (s.remoteMor p q b off set) := by
  unfold State.remoteMor
  split
  · exact .ite hs.faultPort hs.frame
  · exact hs.faultPort

theorem Edits.execMordantAdd {port : PortId} (hs : Edits may s₀ s) : Answers may s₀ (execMordantAdd port s) := hs.atDest fun _ h _ _ _ => h.remoteMor

theorem Edits.execMordantSet {port : PortId} (hs : Edits may s₀ s) : Answers may s₀ (execMordantSet port s) := hs.atDest fun _ h _ _ _ => h.remoteMor

theorem Edits.execMulticastWrite {port : PortId} {ecc : MemEcc} (hs : Edits true s₀ s) : Answers true s₀ (execMulticastWrite port ecc s) := by
  unfold Machine.execMulticastWrite
  dsimp only
  split
  · exact .next hs
  · next heq =>
      split
      · next heq' => exact .next ((hs.takeSched heq).schedPart heq')
      · refine .ite (.next (hs.takeSched heq)) (.ite (.next hs) (.ite (.next (hs.takeSched heq).faultPort) ?_))
        split
        · exact .next (hs.takeSched heq).faultPort
        · exact .next ((hs.takeSched heq).foldl fun _ _ h => h.branchOut).treeDeliver

theorem Edits.execFence {port : PortId} (hs : Edits may s₀ s) : Answers may s₀ (execFence port s) := by
  unfold Machine.execFence
  dsimp only
  split
  · exact .next hs
  · next htake =>
    have hs' := hs.takeSched htake
    split
    · next heq => exact .next (hs'.schedPart heq)
    · split
      · exact .next (Edits.raise (Edits.foldl (Edits.modBranch (.ite hs'.setMor hs')) fun _ _ h => h.modPort))
      · exact .next (hs'.modBranch.foldl fun _ _ h => h.modPort).raise

theorem Edits.execCredit {port : PortId} (hs : Edits may s₀ s) : Answers may s₀ (execCredit port s) := by
  unfold Machine.execCredit
  dsimp only
  split
  · exact .next hs
  · next heq => exact .next (hs.takeSched heq).modPort

theorem Edits.takeOpen {q : PortId} {ok : Block → Bool} {b : Block} (hs : Edits may s₀ s) (h : s.takeOpen q ok = some (b, t)) : Edits may s₀ t := by
  unfold State.takeOpen at h
  split at h
  · split at h
    · cases h
      exact hs.modPort
    · cases h
  · cases h

theorem Edits.atOpen {tt : Nat} {port : PortId} {f : State → Part → Block → State} (hs : Edits may s₀ s)
    (hf : ∀ t, Edits may s₀ t → ∀ p b, Edits may s₀ (f t p b)) :
    Answers may s₀ (atOpen tt port s f) := by
  unfold Machine.atOpen
  split
  · exact .next hs
  · next htake =>
    have hs' := hs.takeOpen htake
    exact .ite (.next hs'.count) (.ite (.next hs) (.next (hf _ hs' _ _)))

theorem Edits.openWrite {ecc : MemEcc} {p : Part} {q : PortId} {b : Block} (hs : Edits true s₀ s) : Edits true s₀ (s.openWrite ecc p q b) :=
  .ite hs.faultPort hs.blockWrite

theorem Edits.openRead {ecc : MemEcc} {p : Part} {q : PortId} {b : Block} (hs : Edits true s₀ s) : Edits true s₀ (s.openRead ecc p q b) := hs.respond

theorem Edits.openResponse {p : Part} {q : PortId} {b : Block} (hs : Edits may s₀ s) : Edits may s₀ (s.openResponse p q b) := hs.fetchBlock

theorem Edits.openMor {p : Part} {q : PortId} {b : Block} {set : Bool} (hs : Edits may s₀ s) : Edits may s₀ (s.openMor p q b set) := hs.remoteMor

theorem Edits.execOpenWrite {port : PortId} {ecc : MemEcc} (hs : Edits true s₀ s) : Answers true s₀ (execOpenWrite port ecc s) :=
  hs.atOpen fun _ h _ _ => h.openWrite

theorem Edits.execOpenReadRequest {port : PortId} {ecc : MemEcc} (hs : Edits true s₀ s) : Answers true s₀ (execOpenReadRequest port ecc s) :=
  hs.atOpen fun _ h _ _ => h.openRead

theorem Edits.execOpenReadResponse {port : PortId} (hs : Edits may s₀ s) : Answers may s₀ (execOpenReadResponse port s) :=
  hs.atOpen fun _ h _ _ => h.openResponse

theorem Edits.execOpenMordantAdd {port : PortId} (hs : Edits may s₀ s) : Answers may s₀ (execOpenMordantAdd port s) :=
  hs.atOpen fun _ h _ _ => h.openMor

theorem Edits.execOpenMordantSet {port : PortId} (hs : Edits may s₀ s) : Answers may s₀ (execOpenMordantSet port s) :=
  hs.atOpen fun _ h _ _ => h.openMor

theorem Edits.ownOpen {ecc : MemEcc} {q : PortId} {b : Block} (hs : Edits true s₀ s) : Edits true s₀ (s.ownOpen ecc q b) := by
  unfold State.ownOpen
  dsimp only
  refine .ite hs.count ?_
  split
  · exact hs.openWrite
  · exact hs.openRead
  · exact hs.openResponse
  · exact hs.openMor
  · exact hs.openMor

theorem Edits.execOpenBlockForward {port : PortId} (hs : Edits may s₀ s) : Answers may s₀ (execOpenBlockForward port s) := by
  unfold Machine.execOpenBlockForward
  dsimp only
  split
  · exact .next hs
  · next heq => exact .ite (.next (hs.takeOpen heq).count) (.ite (.next (hs.takeOpen heq).count) (.next (hs.takeOpen heq).modPort))

theorem Edits.emitXfer {ecc : MemEcc} {q : PortId} {k : Nat} {x : Xfer} (hs : Edits true s₀ s) : Edits true s₀ (s.emitXfer ecc q k x) := by
  unfold State.emitXfer
  dsimp only
  split
  · exact (hs.foldl fun _ _ h => h.branchOut).treeDeliver.xferStep
  · refine .ite (.ite hs.xferStep.ownOpen ?_) hs.schedule.xferStep
    split
    · exact .ite hs.xferStep.modPort hs.xferStep.count
    · exact hs.xferStep.count

theorem Edits.execPortAcceptsBlock {port : PortId} {ecc : MemEcc} (hs : Edits true s₀ s) : Answers true s₀ (execPortAcceptsBlock port ecc s) := by
  unfold Machine.execPortAcceptsBlock
  dsimp only
  refine .ite ?_ (.ite (.next hs.askRetrain) ?_)
  · split
    · exact .next hs
    · split
      · exact .next hs
      · exact .next hs.emitXfer
  · split
    · exact .next hs.modPort.acceptBlock
    · split
      · exact .next hs.modBranch.acceptBlock
      · split
        · exact .next hs
        · split
          · exact .next hs
          · split
            · exact .ite (.next hs.emitXfer.modPort.acceptBlock) (.next hs.emitXfer)
            · exact .next hs.emitXfer

theorem Edits.setGroup {r : RedGroup} (hs : Edits may s₀ s) : Edits may s₀ (s.setGroup r) := hs.frame

theorem Edits.setNorm {p : Part} {e : Eng} {i : Nat} {d : DD} (hs : Edits may s₀ s) : Edits may s₀ (s.setNorm p e i d) := hs.frame

theorem Edits.orReduce {p : Part} {fl : Fl} (hs : Edits may s₀ s) : Edits may s₀ (s.orReduce p fl) := hs.setReg

theorem Edits.push {x : Xfer} (hs : Edits may s₀ s) : Edits may s₀ (s.push x) := hs.frame

theorem Edits.reduceOut {ecc : MemEcc} {p : Part} {g blk start : Nat} {data : List Byte} {fl : Fl} (hs : Edits true s₀ s) :
    Edits true s₀ (s.reduceOut ecc p g blk start data fl) := by
  unfold State.reduceOut
  dsimp only
  split
  · refine .ite hs.raise ?_
    split
    · next heq => exact (hs.devWrite heq).orReduce
    · exact hs.raise
  · exact hs.push
  · exact hs.push.orReduce

theorem Edits.reduceNorm {p : Part} {g : Nat} {vs : List Val} (hs : Edits may s₀ s) : Edits may s₀ (s.reduceNorm p g vs) := .ite hs hs.setNorm

theorem Edits.roundEnd {p : Part} {gi g : Nat} (hs : Edits may s₀ s) : Edits may s₀ (s.roundEnd p gi g) :=
  .addOffset (.ite hs.setGroup.push.setNorm hs.setGroup)

theorem Edits.combineBlock {ecc : MemEcc} {p : Part} {gi g blk : Nat} {bs : List Block} (hs : Edits true s₀ s) :
    Edits true s₀ (s.combineBlock ecc p gi g blk bs) :=
  .ite hs.raise (.ite (.roundEnd (.ite hs.setGroup.push hs.setGroup.reduceNorm.reduceOut)) (.ite hs.setGroup.push hs.setGroup.reduceNorm.reduceOut))

theorem Edits.reduceBlock {ecc : MemEcc} {p : Part} {gi : Nat} {b : Block} (hs : Edits true s₀ s) : Edits true s₀ (s.reduceBlock ecc p gi b) :=
  .ite hs.raise (.ite hs.setGroup.combineBlock (.ite hs.raise hs.setGroup))

theorem Edits.reduceAt {ecc : MemEcc} {q : PortId} {p : Part} {b : Block} {gi : Nat} (hs : Edits true s₀ s) :
    Edits true s₀ (s.reduceAt ecc q p b gi) :=
  .ite hs.reduceBlock hs.faultPort

theorem Edits.execReduce {src : ReduceSrc} {ecc : MemEcc} (hs : Edits true s₀ s) : Answers true s₀ (execReduce src ecc s) := by
  unfold Machine.execReduce
  dsimp only
  split
  · exact hs.atDest fun _ h _ _ _ => h.reduceAt
  · split
    · exact .next hs
    · exact .ite (.next hs) (.next hs.xferStep.reduceBlock)

/-! ### Ranges -/

theorem Edits.formRow {p : Part} {row : List St} (hs : Edits may s₀ s) : Edits may s₀ (s.formRow p row) := .ite hs.modPart (.ite hs hs.modPart)

theorem Edits.formRing {p : Part} (hs : Edits may s₀ s) : Edits may s₀ (s.formRing p) := hs.formRow

theorem Edits.reformRing {p : Part} (hs : Edits may s₀ s) : Edits may s₀ (s.reformRing p) := hs.formRow

/-! ### Object dictionary -/

theorem Edits.answer {via : Via} {b : List Byte} (hs : Edits may s₀ s) : Edits may s₀ (s.answer via b) := by
  unfold State.answer
  split
  · exact .ite hs.modFn hs.emit.modFn.vector
  · exact hs.emit.modSess

theorem Edits.reply {via : Via} {r : DictReq} {status : Nat} {data : List Byte} (hs : Edits may s₀ s) : Edits may s₀ (s.reply via r status data) :=
  hs.answer

theorem Edits.setStaging {via : Via} {l : List (Nat × List Byte)} (hs : Edits may s₀ s) : Edits may s₀ (s.setStaging via l) := by
  unfold State.setStaging
  split
  · exact hs.modStw
  · exact hs.modSess

theorem Edits.unstage {via : Via} {idx sub : Nat} (hs : Edits may s₀ s) : Edits may s₀ (s.unstage via idx sub) := hs.setStaging

theorem Edits.stage {via : Via} {idx sub : Nat} {v : List Byte} (hs : Edits may s₀ s) : Edits may s₀ (s.stage via idx sub v) := hs.setStaging

theorem Edits.serve {via : Via} {r : DictReq} {data : List Byte} {act : State → Role → Nat × List Byte × (State → State)} (hs : Edits may s₀ s)
    (hact : ∀ t, Edits may s₀ t → ∀ role, Replies may s₀ (act t role)) : Answers may s₀ (serve via r data act s) := by
  refine .ite (.next hs) ?_
  split
  · exact .next hs.emit
  · exact .ite (.next hs.reply) (.next (hact _ hs _ _ hs.reply))

theorem Edits.command {via : Via} {idx sub : Nat} {data : List Byte} {act : State → Nat × (State → State)} (hs : Edits may s₀ s)
    (hact : ∀ t, Edits may s₀ t → Acts may s₀ (act t)) : Answers may s₀ (command via idx sub data act s) := by
  unfold Machine.command
  exact hs.serve fun t ht _ => .ite (fun _ h => h) fun u h => hact t ht u h

/-! ### Protection -/

theorem Edits.writeSetup {l : List Byte} (hs : Edits may s₀ s) : Edits may s₀ (s.writeSetup l) :=
  ((hs.foldl fun _ _ h => h.setReg.setReg.setReg.setReg.setDom).foldl fun _ _ h => h.setReg).setReg

theorem Edits.sealPlan (hs : Edits may s₀ s) : Edits may s₀ s.sealPlan := by
  unfold State.sealPlan
  exact hs.writeSetup.setReg.setReg.modStw

theorem Edits.verifySeal (hs : Edits may s₀ s) : Edits may s₀ s.verifySeal := .ite hs hs.setReg

theorem Edits.planDiffers (hs : Edits may s₀ s) : Edits may s₀ s.planDiffers := hs.setReg

/-! ### Clocks and time -/

theorem Edits.showTargets (hs : Edits may s₀ s) : Edits may s₀ s.showTargets := hs.setReg.setReg

theorem Edits.schedule4100 {p : Part} {f : Nat} (hs : Edits may s₀ s) : Edits may s₀ (s.schedule4100 p f) := hs.frame

theorem Edits.retarget {p : Part} (hs : Edits may s₀ s) : Edits may s₀ (s.retarget p) :=
  .ite hs.showTargets (.ite hs.schedule4100.showTargets (.ite hs.frame.showTargets.schedule4100 hs.frame.showTargets))

theorem Edits.execStationClockSettingWrite {via : Via} {p : Part} {mhz : W16} (hs : Edits may s₀ s) :
    Answers may s₀ (execStationClockSettingWrite via p mhz s) :=
  hs.command fun _ _ => .ite (.mk (fun _ h => h)) (.mk (fun _ h => h.setReg.retarget))

theorem Edits.setClocks {p : Part} {f : Nat} (hs : Edits may s₀ s) : Edits may s₀ (s.setClocks p f) := (hs.foldl fun _ _ h => h.setReg).showTargets

theorem Edits.execClockSettingChange {p : Part} (hs : Edits may s₀ s) : Answers may s₀ (execClockSettingChange p s) := by
  unfold Machine.execClockSettingChange
  dsimp only
  split
  · exact .next hs
  · exact .ite (.next hs) (.next hs.frame.setClocks)

theorem Edits.railStep {h : Half} (hs : Edits may s₀ s) : Edits may s₀ (s.railStep h) := .ite hs.modPwr hs.modPwr.modPwr.saveReg.showTargets

theorem Edits.stretchOne {i : Nat} (hs : Edits may s₀ s) : Edits may s₀ (s.stretchOne i) := by
  unfold State.stretchOne
  dsimp only
  refine .ite ?_ hs.frame.count
  split
  · exact hs.frame.count.count.railStep
  · exact hs.frame.count.count

theorem Edits.execReplicaTrigger {i : Island} (hs : Edits may s₀ s) : Answers may s₀ (execReplicaTrigger i s) := by
  unfold Machine.execReplicaTrigger
  dsimp only
  refine .ite (.next hs) ?_
  split
  · exact .next ((hs.foldl fun _ _ h => h.stretchOne).foldl fun _ _ h => .ite h.raise h)
  · exact .next (hs.foldl fun _ _ h => h.stretchOne)

theorem Edits.execReplicaWarningLevel {i : Island} (hs : Edits may s₀ s) : Answers may s₀ (execReplicaWarningLevel i s) := .ite (.next hs) (.next hs)

theorem Edits.execHangDetected {x : Crossing} (hs : Edits may s₀ s) : Answers may s₀ (execHangDetected x s) :=
  .ite (.next hs) (.next (.foldl (.frame (.ite hs.count hs)) (fun _ _ h => h.strike.raise)))

theorem Edits.forgetHangs {p : Part} (hs : Edits may s₀ s) : Edits may s₀ (s.forgetHangs p) := hs.frame

theorem Edits.dropTower {t : Twr} (hs : Edits may s₀ s) : Edits may s₀ (s.dropTower t) :=
  (hs.foldl fun _ _ h => h.towerGone.modTwr).saveReg.resetCrossings

/-- What fails on one side of a crossing. -/
theorem Edits.crossingFailed {a b : Nat} (hs : Edits may s₀ s) : Edits may s₀ (s.crossingFailed a b) := by
  have hretire {t : State} {i : Nat} (ht : Edits may s₀ t) : Edits may s₀ (match islandKind i with
      | .station st => if 1 < t.reg 0x8000 (st.val + 1) then t else (t.saveReg 0x8000 (st.val + 1) 3).modHealth st fun h =>
        { h with vacant := h.vacant || decide (t.reg 0x8000 (st.val + 1) = 0) }
      | .port q => if (t.saveReg 0x8041 (q.val + 1) 1).portUp q then (t.saveReg 0x8041 (q.val + 1) 1).loseTo q stRetired else
        ((t.saveReg 0x8041 (q.val + 1) 1).modPort q Port.clear).setPortState q stRetired
      | .tower t' => if 2 ≤ t.reg 0x8030 (t'.val + 1) then t else t.dropTower t'
      | .stash e => { t with clk := { t.clk with stashBad := vset t.clk.stashBad (if e then 1 else 0) true } }
      | _ => t) := by
    split
    · exact .ite ht ht.saveReg.modHealth
    · exact .ite ht.saveReg.loseTo ht.saveReg.modPort.setPortState
    · exact .ite ht ht.dropTower
    · exact ht.frame
    · exact ht
  exact Edits.setReg (.ite (hs.frame) (.ite (hretire hs) (hretire (hretire hs))))

theorem Edits.execCrossingRecalibrated {x : Crossing} {pass : Bool} (hs : Edits may s₀ s) : Answers may s₀ (execCrossingRecalibrated x pass s) :=
  .ite (.next hs) (.ite (.next hs.frame.crossingFailed) (.ite (.next hs.frame.admitItems.setReg) (.next hs.frame.admitItems)))

theorem Edits.execTimeSet {via : Via} {value : W64} (hs : Edits may s₀ s) : Answers may s₀ (execTimeSet via value s) :=
  hs.command fun _ _ => .ite .refused (.mk (fun _ h => h.frame))

theorem Edits.execTimeSetApplied (hs : Edits may s₀ s) : Answers may s₀ (execTimeSetApplied s) := by
  unfold Machine.execTimeSetApplied
  dsimp only
  split
  · exact .next hs
  · exact .ite (.next hs) (.ite (.next hs.frame.setReg) (.next hs.frame.setReg))

theorem Edits.lastResort (hs : Edits may s₀ s) : Edits may s₀ s.lastResort := hs.setReg.timeEvent

theorem Edits.execReferenceLoss (hs : Edits may s₀ s) : Answers may s₀ (execReferenceLoss s) :=
  .ite (.next hs) (.ite (.next hs.frame.count) (.ite (.next hs.frame.count.lastResort) (.next hs.frame.count.setReg)))

theorem Edits.execReferenceLock (hs : Edits may s₀ s) : Answers may s₀ (execReferenceLock s) := .ite (.next hs) (.next hs.frame.setReg)

theorem Edits.execHoldoverCrossCheck {ok : Bool} (hs : Edits may s₀ s) : Answers may s₀ (execHoldoverCrossCheck ok s) :=
  .ite (.next hs) (.ite (.ite (.next hs) (.ite (.next hs.frame) (.ite (.next hs.frame.setReg.setReg) (.next hs.frame.setReg))))
    (.ite (.next hs.frame.setReg.lastResort) (.next hs.frame.setReg)))

theorem Edits.clearMordants {p : Part} (hs : Edits may s₀ s) : Edits may s₀ (s.clearMordants p) := hs.edit (.dropMors _ _)

theorem Edits.clearSettled {p : Part} (hs : Edits may s₀ s) : Edits may s₀ (s.clearSettled p) := hs.frame

theorem Edits.clearNorms {p : Part} (hs : Edits may s₀ s) : Edits may s₀ (s.clearNorms p) := hs.frame

theorem Edits.groupWritten {p : Part} (hs : Edits may s₀ s) : Edits may s₀ (s.groupWritten p) := hs.foldl fun _ _ h => h.count

theorem Edits.startJob {p : Part} (hs : Edits may s₀ s) : Edits may s₀ (s.startJob p) :=
  .ite (hs.clearMordants.clearNorms.clearSettled.foldl fun _ _ h => h.modSt.modHealth).modPart.setReg.setJobState.raise
    (hs.clearMordants.clearNorms.clearSettled.foldl fun _ _ h => h.modSt.modHealth).modPart.setReg.setJobState

theorem Edits.startWaiting (hs : Edits may s₀ s) : Edits may s₀ s.startWaiting := hs.foldl fun _ _ h => .ite h.startJob h

theorem Edits.seePartner {q : PortId} {tb : TimeBlock} (hs : Edits may s₀ s) : Edits may s₀ (s.seePartner q tb) := by
  unfold State.seePartner
  dsimp only
  split
  · split
    · exact .ite hs.modPort.count hs.modPort
    · exact hs.modPort
  · exact hs.modPort

theorem Edits.leaveLastResort (hs : Edits may s₀ s) : Edits may s₀ s.leaveLastResort := by
  unfold State.leaveLastResort
  dsimp only
  split
  · exact .ite hs.frame hs
  · exact hs

theorem Edits.takeTime {q : PortId} {kind : Nat} {x : TimeBlock × State} (hs : Edits may s₀ s) (h : s.takeTime q kind = some x) :
    Edits may s₀ x.2 := by
  unfold State.takeTime at h
  split at h
  · dsimp only at h
    split at h
    · cases h
      exact hs.modPort
    · cases h
  · cases h

theorem Edits.execTimeSync {port : PortId} (hs : Edits may s₀ s) : Answers may s₀ (execTimeSync port s) := by
  unfold Machine.execTimeSync
  dsimp only
  split
  · exact .next hs
  · next heq =>
    have hs' := hs.takeTime heq
    exact .ite (.next hs'.modPort) (.ite (.next hs') (.ite (.next hs'.seePartner.leaveLastResort) (.next hs'.seePartner.leaveLastResort.modPort)))

theorem Edits.exchange {off : ℤ} (hs : Edits may s₀ s) : Edits may s₀ (s.exchange off) :=
  .ite hs.frame.setReg.startWaiting (.ite hs.frame.unalign hs.frame)

theorem Edits.execTimeReply {port : PortId} (hs : Edits may s₀ s) : Answers may s₀ (execTimeReply port s) := by
  unfold Machine.execTimeReply
  dsimp only
  split
  · exact .next hs
  · next heq =>
    have hs' := hs.takeTime heq
    exact .ite (.next hs'.modPort) (.ite (.next hs')
      (.ite (.next hs'.seePartner.leaveLastResort) (.ite (.next hs'.seePartner.leaveLastResort.setTimeStatus.frame.exchange.frame)
      (.next hs'.seePartner.leaveLastResort.setTimeStatus.frame.exchange))))

/-! ### Tunnel and port commands -/

theorem Edits.sendFragment {dest id : W16} (hs : Edits may s₀ s) : Edits may s₀ (s.sendFragment dest id) :=
  .ite hs.frame.emit.count hs.frame.emit.modPort

theorem Edits.tunnelSend {dest : W16} {body : TunnelBody} (hs : Edits may s₀ s) : Edits may s₀ (s.tunnelSend dest body) := hs.modStw.sendFragment

theorem Edits.reassemble {f : Frag} {answers : Option W16} (hs : Edits may s₀ s) : Edits may s₀ (s.reassemble f answers) := .ite hs.modStw hs.modStw

theorem Edits.execManagementTunnel {port : PortId} {answers : Option W16} (hs : Edits may s₀ s) :
    Answers may s₀ (execManagementTunnel port answers s) := by
  unfold Machine.execManagementTunnel
  dsimp only
  refine .ite (.next hs) ?_
  split
  · exact .next hs
  · next heq => exact .ite (.next (hs.takeOpen heq)) (.next (hs.takeOpen heq).reassemble)

theorem Edits.execTunnelReassemblyTimeout {src msg : W16} (hs : Edits may s₀ s) : Answers may s₀ (execTunnelReassemblyTimeout src msg s) :=
  .ite (.next hs.modStw) (.next hs)

theorem Edits.losePartner {p : Part} (hs : Edits may s₀ s) : Edits may s₀ (s.losePartner p) := hs.abortWhere.modSec

theorem Edits.reserveChanged {p : Part} {v : Nat} (hs : Edits may s₀ s) : Edits may s₀ (s.reserveChanged p v) := .ite hs.modSec.tunnelSend hs.modSec

theorem Edits.execTunnelResend {k : Nat} (hs : Edits may s₀ s) : Answers may s₀ (execTunnelResend k s) := by
  unfold Machine.execTunnelResend
  dsimp only
  split
  · exact .next hs
  · refine .ite (.next hs) (.ite (.next hs.modStw.sendFragment) ?_)
    split
    · exact .next (.ite hs.modStw.losePartner hs.modStw)
    · exact .next hs.modStw

theorem Edits.portCommand {via : Via} {q : PortId} {v : Byte} {ok : State → Bool} {act : State → State} (hs : Edits may s₀ s)
    (hact : ∀ t, Edits may s₀ t → Edits may s₀ (act t)) : Answers may s₀ (portCommand via q v ok act s) :=
  hs.command fun _ _ => .ite (fun _ h => hact _ h.setReg) .refused

theorem Edits.execPortCommandRetrain {via : Via} {port : PortId} (hs : Edits may s₀ s) : Answers may s₀ (execPortCommandRetrain via port s) :=
  hs.portCommand fun _ h => h.askRetrain.setReg

theorem Edits.execPortCommandOrderlyDown {via : Via} {port : PortId} (hs : Edits may s₀ s) : Answers may s₀ (execPortCommandOrderlyDown via port s) :=
  hs.portCommand fun _ h => .ite h.askGoodbye.setReg h.goodbye

theorem Edits.execPortCommandReleaseHeld {via : Via} {port : PortId} (hs : Edits may s₀ s) : Answers may s₀ (execPortCommandReleaseHeld via port s) :=
  hs.portCommand fun _ h => h.setPortState

theorem Edits.execPortEnableWrite {via : Via} {port : PortId} {v : Byte} (hs : Edits may s₀ s) : Answers may s₀ (execPortEnableWrite via port v s) :=
  hs.command fun _ _ => .ite (.mk (fun _ h => h)) (.mk (fun _ h => .ite h.setReg.stopPort h.setReg))

/-! ### Securing and restores -/

theorem Edits.sendCommit {p : Part} (hs : Edits may s₀ s) : Edits may s₀ (s.sendCommit p) := by
  unfold State.sendCommit
  dsimp only
  split
  · exact .ite hs.push.frame.modSec hs
  · exact hs

theorem Edits.secureStep {p : Part} {step : Nat} {e : MemEcc} (hs : Edits true s₀ s) : Edits true s₀ (s.secureStep p step e) := by
  unfold State.secureStep
  dsimp only
  refine .ite hs (.ite hs.count (.ite hs.raise ?_))
  split
  · exact hs.raise
  · split
    · exact hs.modSec
    · exact hs.modSec.openEpoch

theorem Edits.execSecuringMordantChange {p : Part} {e : MemEcc} (hs : Edits true s₀ s) : Answers true s₀ (execSecuringMordantChange p e s) := by
  unfold Machine.execSecuringMordantChange
  split
  · exact .next hs
  · exact .next hs.modSec.secureStep.sendCommit

theorem Edits.sendPartner {p : Part} {t : Twr} {blk : Nat} {data : List PByte} (hs : Edits may s₀ s) : Edits may s₀ (s.sendPartner p t blk data) := by
  unfold State.sendPartner
  dsimp only
  split
  · exact hs
  · split
    · exact hs
    · exact hs.push

theorem Edits.execDrainRead {t : Twr} {p : Part} {blk : Nat} {ecc : MemEcc} (hs : Edits true s₀ s) :
    Answers true s₀ (execDrainRead t p blk ecc s) := by
  unfold Machine.execDrainRead
  dsimp only
  split
  · split
    · exact .next hs
    · exact .ite (.next hs) (.next (.ite hs.sectorsRead.modBlock.modSec.sendPartner hs.sectorsRead.modBlock.modSec))
  · exact .next hs

theorem Edits.execBlockDrainComplete {t : Twr} {p : Part} {blk : Nat} (hs : Edits may s₀ s) : Answers may s₀ (execBlockDrainComplete t p blk s) := by
  unfold Machine.execBlockDrainComplete
  dsimp only
  split
  · exact .next hs
  · refine .ite (.next hs) ?_
    split
    · exact .next hs.modBlock.closeEpoch.dropHold.sendCommit.noteEpoch
    · exact .next hs.modBlock.sendCommit.noteEpoch
    · exact .next hs

theorem Edits.execPartnerTargetWrite {via : Via} {p : Part} {v : W64} {answer : Option (List (List W64))} (hs : Edits may s₀ s) :
    Answers may s₀ (execPartnerTargetWrite via p v answer s) := by
  unfold Machine.execPartnerTargetWrite
  refine hs.command fun _ _ => .checked fun _ h => ?_
  cases answer with
  | none => exact h.setReg.modSec.tunnelSend
  | some _ => exact h.setReg.modSec.tunnelSend.modStw.modSec

theorem Edits.execCommitRecordArrival {port : PortId} {p : Part} {step : W64} (hs : Edits may s₀ s) :
    Answers may s₀ (execCommitRecordArrival port p step s) :=
  .ite (.next hs) (.next hs.modSec.tunnelSend)

theorem Edits.execPartnerCompletion {p : Part} (hs : Edits may s₀ s) : Answers may s₀ (execPartnerCompletion p s) := by
  unfold Machine.execPartnerCompletion
  refine .ite (.next hs) ?_
  split
  · exact .next hs.completeLate
  · split
    · exact .ite (.next hs.completeImage) (.next hs)
    · exact .next hs

theorem Edits.execCommitTimeout {p : Part} (hs : Edits may s₀ s) : Answers may s₀ (execCommitTimeout p s) := by
  unfold Machine.execCommitTimeout
  refine .ite (.next hs) ?_
  split
  · exact .next hs.modSec.count
  · split
    · exact .ite (.next hs.abortEpoch) (.next hs)
    · exact .next hs

theorem Edits.execRemovalNotice {dev : W16} (hs : Edits may s₀ s) : Answers may s₀ (execRemovalNotice dev s) :=
  .ite (.next hs) (.next (hs.foldl fun _ _ h => h.losePartner))

theorem Edits.yieldSepia {p : Part} (hs : Edits may s₀ s) : Edits may s₀ (s.yieldSepia p) := .ite hs (hs.foldl fun _ _ h => .ite h.modSec.raise h)

theorem Edits.flashOp {p : Part} {u : Nat} {c : FlashCmd} (hs : Edits may s₀ s) : Edits may s₀ (s.flashOp p u c) :=
  .ite (.emit (.emit (.emit (.ite hs.emit hs)))) (.emit (.emit (.ite hs.emit hs)))

theorem Edits.execNandProgramComplete {p : Part} {ok : Bool} (hs : Edits may s₀ s) : Answers may s₀ (execNandProgramComplete p ok s) := by
  unfold Machine.execNandProgramComplete
  dsimp only
  split
  · exact .next hs
  · refine .ite (.next hs) (.ite (.next hs.yieldSepia.flashOp.modStw) ?_)
    split
    · exact .next (.ite hs.yieldSepia.flashOp.modStw.completeImage hs.yieldSepia.flashOp.modStw.modSec)
    · exact .ite (.next hs.yieldSepia.flashOp.modStw.completeLate) (.next hs.yieldSepia.flashOp.modStw.modSec)

theorem Edits.execNandEraseComplete {p : Part} {ok : Bool} (hs : Edits may s₀ s) : Answers may s₀ (execNandEraseComplete p ok s) :=
  .ite (.next hs) (.next (.ite hs.flashOp.modStw.saveReg.retireSepia hs.flashOp.modStw.saveReg))

theorem Edits.execNandReadComplete {p : Part} {blk : Nat} {ok : Bool} (hs : Edits may s₀ s) : Answers may s₀ (execNandReadComplete p blk ok s) := by
  unfold Machine.execNandReadComplete
  dsimp only
  split
  · exact .ite (.next hs) (.next (hs.foldl fun _ _ h => h.flashOp).modSec)
  · exact .next hs

theorem Edits.execSharedStoreCommit {via : Via} {p : Part} {step : W64} (hs : Edits may s₀ s) : Answers may s₀ (execSharedStoreCommit via p step s) :=
  hs.command fun _ _ => by
    split
    · exact fun _ h => h.setReg.completeLate
    · split
      · exact .ite (fun _ h => h.setReg.completeImage) .refused
      · exact .refused

theorem Edits.commandWhole {via : Via} {idx sub : Nat} {data : List Byte} {act : State → Nat × (State → State)} (hs : Edits may s₀ s)
    (hact : ∀ t, Edits may s₀ t → Acts may s₀ (act t)) : Answers may s₀ (commandWhole via idx sub data act s) := by
  unfold Machine.commandWhole
  exact hs.serve fun t ht _ => .ite (fun _ h => h) fun u h => hact t ht _ h.unstage

theorem Edits.armRestore {p : Part} {v : Nat} (hs : Edits may s₀ s) : Edits may s₀ (s.armRestore p v) := hs.modSec

theorem Edits.execRestoreArm {via : Via} {p : Part} {req : BitVec 256} (hs : Edits may s₀ s) : Answers may s₀ (execRestoreArm via p req s) :=
  hs.commandWhole fun _ _ => .checked fun _ h => h.armRestore

/-! ### Restarts -/

theorem Edits.retireStation {st : St} (hs : Edits may s₀ s) : Edits may s₀ (s.retireStation st) := hs.saveReg.resetCrossings

theorem Edits.repairRow {st : St} {g : Fin 8} {r : Fin 65} {calOk : Bool} (hs : Edits may s₀ s) : Edits may s₀ (s.repairRow st g r calOk) :=
  .ite (.ite hs.retireStation hs.setReg) (.ite hs.retireStation hs.saveReg)

theorem Edits.applyFinding {st : St} {f : RestartFinding} (hs : Edits may s₀ s) : Edits may s₀ (s.applyFinding st f) := by
  unfold State.applyFinding
  refine .ite hs ?_
  split
  · exact .ite hs.repairRow hs
  · exact .ite hs.retireStation hs
  · exact hs

theorem Edits.isolate {iso : List RestartFinding} {st : St} (hs : Edits may s₀ s) : Edits may s₀ (s.isolate iso st) :=
  .ite hs (.ite (.saveReg (.ite hs.count.isolationRun.modHealth.retireStation (hs.count.isolationRun.modHealth.foldl fun _ _ h => h.applyFinding)))
    (.ite hs.count.isolationRun.modHealth.retireStation (hs.count.isolationRun.modHealth.foldl fun _ _ h => h.applyFinding)))

theorem Edits.compareTest {iso : List RestartFinding} {st : St} (hs : Edits may s₀ s) : Edits may s₀ (s.compareTest iso st) :=
  .ite hs.retireStation hs

theorem Edits.rotate {st : St} (hs : Edits may s₀ s) : Edits may s₀ (s.rotate st) := hs.slicesRun.modHealth

theorem Edits.duePass {iso : List RestartFinding} {st : St} (hs : Edits may s₀ s) : Edits may s₀ (s.duePass iso st) :=
  .ite hs (.ite hs.suspect.retireStation hs.rotate)

theorem Edits.switchIn {p : Part} {iso : List RestartFinding} : ∀ {n : Nat} {s : State}, Edits may s₀ s → Edits may s₀ (State.switchIn p iso n s)
  | 0, _, hs => hs
  | n + 1, s, hs => by
    unfold State.switchIn
    dsimp only
    split
    · exact hs
    · exact .ite hs.suspect.retireStation.switchIn (.ite (Edits.switchIn (Edits.retireStation (.ite hs.rotate hs)))
        (Edits.resetCrossings (Edits.saveReg (.ite hs.rotate hs))))

theorem Edits.replace {p : Part} {iso : List RestartFinding} : ∀ {n : Nat} {s : State}, Edits may s₀ s → Edits may s₀ (State.replace p iso n s)
  | 0, _, hs => hs
  | _ + 1, _, hs => hs.switchIn.replace

theorem Edits.restartWork {p : Part} {iso : List RestartFinding} (hs : Edits may s₀ s) : Edits may s₀ (s.restartWork p iso) :=
  (((((hs.foldl fun _ _ h => .ite h.retireTower h).foldl fun _ _ h => h.compareTest).foldl fun _ _ h => h.isolate).foldl fun _ _ h =>
    h.duePass).replace.foldl fun _ _ h => h.modHealth.resetCrossings).formRing

/-! ### Jobs -/

theorem Edits.loaderRead {p : Part} {e : MemEcc} {a n : Nat} (hs : Edits true s₀ s) : Edits true s₀ (s.loaderRead p e a n).2 :=
  hs.foldlOf Prod.snd fun _ _ h => by
    split
    · exact h.findings
    · exact h.frame

theorem Edits.readBinary {p : Part} {e : MemEcc} {base len : Nat} (hs : Edits true s₀ s) : Edits true s₀ (s.readBinary p e base len).2 := by
  have hpart {t : State} (c : Bool) (a n : Nat) (ht : Edits true s₀ t) : Edits true s₀ (if c then t.loaderRead p e a n else ([], t)).2 := by
    split
    · exact ht.loaderRead
    · exact ht
  unfold State.readBinary
  dsimp only
  split
  · exact hs.loaderRead
  · exact hpart _ _ _ (hpart _ _ _ hs.loaderRead)

theorem Edits.readImages {p : Part} {ecc : MemEcc} {b : Binary} {e : Nat} (hs : Edits true s₀ s) : Edits true s₀ (s.readImages p ecc b e).2 :=
  hs.foldlOf Prod.snd fun _ _ h => h.loaderRead

theorem Edits.loadCheck {p : Part} {ecc : MemEcc} {a n : Nat} (hs : Edits true s₀ s) : Edits true s₀ (s.loadCheck p ecc a n).2 := by
  unfold State.loadCheck
  dsimp only
  split
  · exact hs
  · split
    · exact hs
    · split
      · exact hs.readBinary
      · split
        · exact hs.readBinary
        · split
          · exact hs.readBinary
          · split
            · exact hs.readBinary.readImages
            · split
              · exact hs.readBinary.readImages
              · split <;> exact hs.readBinary.readImages

theorem Edits.zeroExtent {a n : Nat} (hs : Edits true s₀ s) : Edits true s₀ (s.zeroExtent a n) := hs.edit (.dropBytes _ _ _ _)

theorem Edits.zeroStash {p : Part} (hs : Edits true s₀ s) : Edits true s₀ (s.zeroStash p) := hs.foldl fun _ _ h => by
    split
    · exact h.zeroExtent
    · exact h

theorem Edits.clearFabric {p : Part} (hs : Edits may s₀ s) : Edits may s₀ (s.clearFabric p) := hs.frame

theorem Edits.bindJob {p : Part} {b : Binary} {images : List (List PByte)} (hs : Edits true s₀ s) : Edits true s₀ (s.bindJob p b images) :=
  .ite (hs.modPart.foldl fun _ _ h => h.modSt).zeroStash.clearFabric.setClocks.setReg.setReg.reserveChanged (hs.modPart.foldl fun _ _ h =>
    h.modSt).zeroStash.clearFabric.setClocks.setReg.setReg

theorem Edits.startBound {p : Part} (hs : Edits may s₀ s) : Edits may s₀ (s.startBound p) := .ite hs.startJob hs

theorem Edits.restoreFail {p : Part} (hs : Edits may s₀ s) : Edits may s₀ (s.restoreFail p) := hs.modSec.raise

theorem Edits.refuseImage {p : Part} {i : Image} (hs : Edits may s₀ s) : Edits may s₀ (s.refuseImage p i) := .ite hs.restoreFail.raise hs.restoreFail

theorem Edits.beginRestore {p : Part} {v : Nat} (hs : Edits may s₀ s) : Edits may s₀ (s.beginRestore p v) := by
  unfold State.beginRestore
  dsimp only
  refine .ite hs.modSec.setJobState.modSec ?_
  split
  · exact hs.modSec.setJobState.restoreFail
  · exact .ite hs.modSec.setJobState.modSec hs.modSec.setJobState.refuseImage

theorem Edits.restoreForbidden {p : Part} {t : Twr} (hs : Edits may s₀ s) : Edits may s₀ (s.restoreForbidden p t) := hs.raise

theorem Edits.landBlock {p : Part} {blk : Nat} {ok : Bool} {data : List Byte} (hs : Edits true s₀ s) : Edits true s₀ (s.landBlock p blk ok data) := by
  unfold State.landBlock
  dsimp only
  split
  · exact .ite hs.restoreFail (.ite hs.restoreForbidden (.modSec (.ite hs.towerWrite hs)))
  · exact hs

theorem Edits.execRestoreBlockLands {p : Part} {blk : Nat} {data : List Byte} (hs : Edits true s₀ s) :
    Answers true s₀ (execRestoreBlockLands p blk data s) := by
  unfold Machine.execRestoreBlockLands
  dsimp only
  split
  · exact .next hs
  · exact .ite (.next hs) (.next hs.landBlock)

theorem Edits.execRestoreComplete {p : Part} (hs : Edits may s₀ s) : Answers may s₀ (execRestoreComplete p s) := by
  unfold Machine.execRestoreComplete
  dsimp only
  split
  · exact .next hs
  · exact .ite (.next hs) (.next hs.modSec.startBound)

theorem Edits.runLoader {p : Part} {e : MemEcc} {a n : Nat} (hs : Edits true s₀ s) : Edits true s₀ (s.runLoader p e a n) := by
  unfold State.runLoader
  dsimp only
  split
  · exact hs.loadCheck.setReg.setJobState
  · exact .ite hs.loadCheck.bindJob.beginRestore hs.loadCheck.bindJob.startBound

theorem Edits.jobLoad {p : Part} {v : Nat} {iso : List RestartFinding} {e : MemEcc} (hs : Edits true s₀ s) : Edits true s₀ (s.jobLoad p v iso e) :=
  hs.modPart.setJobState.restartWork.runLoader

theorem Edits.execJobLoad {via : Via} {p : Part} {req : W128} {iso : List RestartFinding} {e : MemEcc} (hs : Edits true s₀ s) :
    Answers true s₀ (execJobLoad via p req iso e s) :=
  hs.commandWhole fun _ _ => .checked fun _ h => h.jobLoad

theorem Edits.endByCommand {p : Part} (hs : Edits may s₀ s) : Edits may s₀ (s.endByCommand p) := .ite hs.beatEnd.modPart.endJob hs.beatEnd

theorem Edits.execJobEnd {via : Via} {p : Part} (hs : Edits may s₀ s) : Answers may s₀ (execJobEnd via p s) :=
  hs.command fun _ _ => .ite (.mk (fun _ h => h.setReg.endByCommand)) .refused

theorem Edits.jobDefaults {p : Part} (hs : Edits may s₀ s) : Edits may s₀ (s.jobDefaults p) :=
  (hs.setClocks.foldl fun _ _ h => h.modSt.setReg).frame.setReg.setReg.forgetHangs.modPart

theorem Edits.unload {p : Part} (hs : Edits may s₀ s) : Edits may s₀ (s.unload p) := hs.beatEnd.jobDefaults.clearFabric.setJobState

theorem Edits.execJobUnload {via : Via} {p : Part} (hs : Edits may s₀ s) : Answers may s₀ (execJobUnload via p s) :=
  hs.command fun _ _ => .ite (.mk (fun _ h => h.setReg.unload)) .refused

/-! ### Monitor and the log -/

theorem Edits.noteEntry {e : Nat × Nat} (hs : Edits may s₀ s) : Edits may s₀ (s.noteEntry e) := by
  unfold State.noteEntry
  exact hs.modStw

theorem Edits.noteAll (hs : Edits may s₀ s) : Edits may s₀ s.noteAll := by
  unfold State.noteAll
  exact (hs.foldl fun _ _ h => h.noteEntry).modStw

theorem Edits.execRiskEstimateUpdate (hs : Edits may s₀ s) : Answers may s₀ (execRiskEstimateUpdate s) :=
  .ite (.next hs) (.next (hs.noteAll.foldl fun _ _ h => h.setReg))

theorem Edits.execCleanHourTick (hs : Edits may s₀ s) : Answers may s₀ (execCleanHourTick s) := .ite (.next hs) (.next hs.modStw.saveReg)

theorem State.reply_faults (s : State) (via : Via) (r : DictReq) (status : Nat) (data : List Byte) :
    (s.reply via r status data).faults = s.faults := by
  unfold State.reply State.answer State.vector
  cases via with
  | pf f =>
    dsimp only
    split
    · rfl
    · split <;> rfl
  | session n q => rfl

/-- The acknowledged record is in the log, which the answer leaves as it is. -/
theorem Edits.execLogAcknowledge {via : Via} {seq : W16} (hs : Edits may s₀ s) : Answers may s₀ (execLogAcknowledge via seq s) := by
  unfold Machine.execLogAcknowledge Machine.command Machine.serve
  refine .ite (.next hs) ?_
  split
  · exact .next hs.emit
  · refine .ite (.next hs.reply) (.next ?_)
    dsimp only
    split
    · exact hs.reply
    · split
      · next k heq =>
        have hk := (List.findIdx?_eq_some_iff_getElem.1 heq).1
        exact hs.reply.setReg.edit (.ack (by simpa only [State.setReg, State.reply_faults] using hk))
      · exact hs.reply

/-! ### Management and SPDM -/

theorem Edits.execDictionaryRead {via : Via} {r : DictReq} (hs : Edits may s₀ s) : Answers may s₀ (execDictionaryRead via r s) :=
  .ite (.next hs) (hs.serve fun _ _ _ => .ite (.mk (fun _ h => h)) (.mk (fun _ h => h)))

theorem Edits.writeEntry {idx sub v : Nat} (hs : Edits may s₀ s) : Edits may s₀ (s.writeEntry idx sub v) := by
  unfold State.writeEntry
  dsimp only
  refine .ite hs.setReg ?_
  split
  · exact hs.setReg.roleChanged
  · exact hs.setReg.groupWritten
  · exact hs.setReg.reserveChanged
  · exact hs.setReg

theorem Edits.execDictionaryWrite {via : Via} {r : DictReq} {data : List Byte} (hs : Edits may s₀ s) :
    Answers may s₀ (execDictionaryWrite via r data s) :=
  .ite (.next hs) (hs.serve fun _ _ _ => .guarded fun _ h => h.writeEntry)

theorem Edits.execDomainWriteSegment {via : Via} {r : DictReq} {data : List Byte} (hs : Edits may s₀ s) :
    Answers may s₀ (execDomainWriteSegment via r data s) :=
  .ite (.next hs) (hs.serve fun _ _ _ => .guarded fun _ h => h.stage)

theorem Edits.applyDomain {idx sub : Nat} {v : List Byte} {iso : List RestartFinding} {e : MemEcc} (hs : Edits true s₀ s) :
    Edits true s₀ (s.applyDomain idx sub v iso e) := by
  unfold State.applyDomain
  split
  · exact hs.jobLoad
  · exact hs.armRestore
  · exact hs.setDom.planDiffers
  · exact hs.setDom

theorem Edits.execDomainWriteCommit {via : Via} {r : DictReq} {data : List Byte} {iso : List RestartFinding} {e : MemEcc} (hs : Edits true s₀ s) :
    Answers true s₀ (execDomainWriteCommit via r data iso e s) :=
  .ite (.next hs) (hs.serve fun _ _ _ => .ite (.mk (fun _ h => h)) (.mk (fun _ h => .ite h.unstage.applyDomain h.unstage)))

theorem Edits.saveAll (hs : Edits may s₀ s) : Edits may s₀ s.saveAll := hs.frame

theorem Edits.execSaveConfiguration {via : Via} (hs : Edits may s₀ s) : Answers may s₀ (execSaveConfiguration via s) :=
  hs.command fun _ _ => .mk fun _ h => h.setReg.saveAll

theorem Edits.putAll {src : Sparse W64} : ∀ {s : State}, Edits may s₀ s → Edits may s₀ { s with dict := putAll s.dict src } := by
  induction src with
  | nil => exact fun hs => hs
  | cons e src ih => exact fun hs => ih (hs.edit (.putReg _ (BitVec.ofNat 64 (odDflt (e.1 / 256) (e.1 % 256))) e.1 e.2))

theorem Edits.loadSaved (hs : Edits may s₀ s) : Edits may s₀ s.loadSaved := (hs.edit (.dropRegs s _)).putAll.frame

theorem Edits.closeSessions {ok : SessTransport → Bool} (hs : Edits may s₀ s) : Edits may s₀ (s.closeSessions ok) := hs.modStw

theorem Edits.followSaved {old : State} (hs : Edits may s₀ s) : Edits may s₀ (State.followSaved old s) := by
  have hclock := hs.foldl (g := fun s p => if s.reg 0x4100 (p.val + 1) = old.reg 0x4100 (p.val + 1) then s else s.retarget p) (l := List.finRange 4)
    fun _ _ h => .ite h h.retarget
  have hports := hclock.foldl (g := fun s q => if s.reg 0x5000 (q.val + 1) = 0 && old.reg 0x5000 (q.val + 1) ≠ 0 then s.stopPort q else s)
    (l := List.finRange 28)
    fun _ _ h => .ite h.stopPort h
  exact (Edits.foldl (.ite hports hports.roleChanged) fun _ _ h => .ite h h.reserveChanged).foldl fun _ _ h => .ite h h.setReg.closeSessions

theorem Edits.execDiscardUnsaved {via : Via} (hs : Edits may s₀ s) : Answers may s₀ (execDiscardUnsaved via s) := by
  unfold Machine.execDiscardUnsaved
  refine hs.command fun _ _ => .mk fun _ h => ?_
  exact h.setReg.loadSaved.planDiffers.followSaved

theorem Edits.execRestoreFactory {via : Via} (hs : Edits may s₀ s) : Answers may s₀ (execRestoreFactory via s) :=
  hs.command fun _ _ _ h => (h.setReg.edit (.dropRegs _ _)).frame

theorem Edits.factoryStation {st : St} (hs : Edits may s₀ s) : Edits may s₀ (s.factoryStation st) := .saveReg (.ite hs.saveReg.modHealth hs)

theorem Edits.execRestoreFactoryRepairMaps {via : Via} (hs : Edits may s₀ s) : Answers may s₀ (execRestoreFactoryRepairMaps via s) :=
  hs.command fun _ _ => .ite .refused (.mk (fun _ h => h.setReg.foldl fun _ _ h => h.factoryStation))

theorem Edits.execManagementSessionHandshake {t : SessTransport} {c : ClientCert} (hs : Edits may s₀ s) :
    Answers may s₀ (execManagementSessionHandshake t c s) := by
  unfold Machine.execManagementSessionHandshake
  refine .ite (.next hs) ?_
  split
  · exact .next hs.modStw
  · exact .next hs

theorem Edits.closeSession {n : Fin 8} (hs : Edits may s₀ s) : Edits may s₀ (s.closeSession n) := hs.modStw

theorem Edits.execSessionIdleTimeout {n : Fin 8} (hs : Edits may s₀ s) : Answers may s₀ (execSessionIdleTimeout n s) := by
  unfold Machine.execSessionIdleTimeout
  split
  · exact .ite (.next hs.closeSession) (.next hs)
  · exact .next hs

theorem Edits.execManagementSessionClose {n : Fin 8} (hs : Edits may s₀ s) : Answers may s₀ (execManagementSessionClose n s) :=
  .ite (.next hs.closeSession) (.next hs)

theorem Edits.execManagementModeWrite {via : Via} {m : Fin 2} {v : Byte} (hs : Edits may s₀ s) : Answers may s₀ (execManagementModeWrite via m v s) :=
  hs.command fun _ _ => .ite (.mk (fun _ h => h)) (.mk (fun _ h => .ite h h.setReg.setReg.closeSessions))

theorem Edits.execManagementLinkUp {m : Fin 2} {tenG : Bool} (hs : Edits may s₀ s) : Answers may s₀ (execManagementLinkUp m tenG s) :=
  .ite (.next hs) (.next hs.setReg)

theorem Edits.execManagementLinkDown {m : Fin 2} (hs : Edits may s₀ s) : Answers may s₀ (execManagementLinkDown m s) :=
  .ite (.next hs) (.next hs.setReg)

theorem Edits.spdmAnswer {via : SpdmVia} {act : State → Byte × List Byte × (State → State)} (hs : Edits may s₀ s)
    (hact : ∀ t, Edits may s₀ t → Replies may s₀ (act t)) :
    Answers may s₀ (spdmAnswer via act s) := by
  refine .ite (.next hs) ?_
  dsimp only
  cases via with
  | session n => exact .next (hact _ hs _ hs.modSess).emit
  | doe _ => exact .next (hact _ hs _ hs).emit

theorem Edits.execGetVersion {via : SpdmVia} (hs : Edits may s₀ s) : Answers may s₀ (execGetVersion via s) :=
  hs.spdmAnswer fun _ _ => .mk fun _ h => h

theorem Edits.execGetCapabilities {via : SpdmVia} (hs : Edits may s₀ s) : Answers may s₀ (execGetCapabilities via s) :=
  hs.spdmAnswer fun _ _ => .mk fun _ h => h

theorem Edits.execNegotiateAlgorithms {via : SpdmVia} (hs : Edits may s₀ s) : Answers may s₀ (execNegotiateAlgorithms via s) :=
  hs.spdmAnswer fun _ _ => .mk fun _ h => h

theorem Edits.execGetDigests {via : SpdmVia} (hs : Edits may s₀ s) : Answers may s₀ (execGetDigests via s) :=
  hs.spdmAnswer fun _ _ => .mk fun _ h => h

theorem Edits.execGetCertificate {via : SpdmVia} {slot : Byte} {off len : Nat} (hs : Edits may s₀ s) :
    Answers may s₀ (execGetCertificate via slot off len s) :=
  hs.spdmAnswer fun _ _ => .ite (.mk (fun _ h => h)) (.mk (fun _ h => h))

theorem Edits.execChallenge {via : SpdmVia} {nonce : BitVec 256} (hs : Edits may s₀ s) : Answers may s₀ (execChallenge via nonce s) :=
  hs.spdmAnswer fun _ _ => .mk fun _ h => h

theorem Edits.execGetMeasurements {via : SpdmVia} {index : Byte} {signed : Bool} {nonce : BitVec 256} (hs : Edits may s₀ s) :
    Answers may s₀ (execGetMeasurements via index signed nonce s) :=
  hs.spdmAnswer fun _ _ => .ite (.mk (fun _ h => h)) (.mk (fun _ h => h))

theorem Edits.execKeyExchange {via : SpdmVia} (hs : Edits may s₀ s) : Answers may s₀ (execKeyExchange via s) :=
  hs.spdmAnswer fun _ _ => .mk fun _ h => h.modStw

theorem Edits.execFinish {via : SpdmVia} {ok : Bool} (hs : Edits may s₀ s) : Answers may s₀ (execFinish via ok s) :=
  hs.spdmAnswer fun _ _ => .ite (.mk (fun _ h => h)) (.ite (.mk (fun _ h => h.modStw)) (.mk (fun _ h => h.modStw)))

theorem Edits.execHeartbeat {via : SpdmVia} (hs : Edits may s₀ s) : Answers may s₀ (execHeartbeat via s) :=
  hs.spdmAnswer fun _ _ => .ite (.mk (fun _ h => h)) (.mk (fun _ h => h))

theorem Edits.execKeyUpdate {via : SpdmVia} (hs : Edits may s₀ s) : Answers may s₀ (execKeyUpdate via s) :=
  hs.spdmAnswer fun _ _ => .ite (.mk (fun _ h => h)) (.mk (fun _ h => h.modStw))

theorem Edits.execEndSession {via : SpdmVia} (hs : Edits may s₀ s) : Answers may s₀ (execEndSession via s) :=
  hs.spdmAnswer fun _ _ => .ite (.mk (fun _ h => h)) (.mk (fun _ h => h.modStw))

/-! ### Rails -/

theorem Edits.alertFrom {old : State} (hs : Edits may s₀ s) : Edits may s₀ (State.alertFrom old s) := .ite hs hs.modPwr

theorem Edits.setInsertion {v : Nat} (hs : Edits may s₀ s) : Edits may s₀ (s.setInsertion v) := hs.setReg.alertFrom

theorem Edits.setSteward {v : Nat} (hs : Edits may s₀ s) : Edits may s₀ (s.setSteward v) := .ite hs.setReg.alertFrom.notify hs.setReg.alertFrom

theorem Edits.setThermal {i : Nat} {on : Bool} (hs : Edits may s₀ s) : Edits may s₀ (s.setThermal i on) := hs.setReg.alertFrom

theorem Edits.showPower {v : Nat} {running : Bool} (hs : Edits may s₀ s) : Edits may s₀ (s.showPower v running) := hs.setReg

theorem Edits.resetAperture {p : Part} (hs : Edits may s₀ s) : Edits may s₀ (s.resetAperture p) := by
  unfold State.resetAperture
  dsimp only
  split
  · exact .ite hs.abortWhere.restoreFail hs.abortWhere
  · exact hs.abortWhere

theorem Edits.pcieReset (hs : Edits may s₀ s) : Edits may s₀ s.pcieReset := hs.frame.resetCrossings.setReg.foldl fun _ _ h => h.resetAperture

theorem Edits.raiseRail {r : Fin 14} (hs : Edits may s₀ s) : Edits may s₀ (s.raiseRail r) := by
  unfold State.raiseRail
  dsimp only
  split
  · exact hs.modPwr.modPwr.emit
  · exact hs.modPwr

theorem Edits.raiseNext (hs : Edits may s₀ s) : Edits may s₀ s.raiseNext := by
  unfold State.raiseNext
  split
  · exact hs
  · exact hs.modPwr.foldl fun _ _ h => h.raiseRail

theorem Edits.startRaise {rails : List (Fin 14)} (hs : Edits may s₀ s) : Edits may s₀ (s.startRaise rails) := hs.modPwr.raiseNext

theorem Edits.dropRail {r : Fin 14} (hs : Edits may s₀ s) : Edits may s₀ (s.dropRail r) := .ite hs.modPwr.pcieReset hs.modPwr

theorem Edits.lowerNext (hs : Edits may s₀ s) : Edits may s₀ s.lowerNext := by
  unfold State.lowerNext
  split
  · exact hs
  · exact hs.modPwr.dropRail

theorem Edits.startLower {rails : List (Fin 14)} (hs : Edits may s₀ s) : Edits may s₀ (s.startLower rails) := hs.modPwr.lowerNext

/-- What a tower or a stash loses, or all of memory: filters that keep nothing leave nothing. -/
theorem Edits.zeroTowers (hs : Edits true s₀ s) : Edits true s₀ s.zeroTowers := by
  unfold State.zeroTowers
  simpa only [List.filter_true, List.filter_false] using hs.edit (.dropBytes s (fun e => 2 ^ 36 ≤ e.1) (fun _ => false) fun _ => true)

theorem Edits.zeroStashes (hs : Edits true s₀ s) : Edits true s₀ s.zeroStashes := by
  unfold State.zeroStashes
  simpa only [List.filter_true, List.filter_false] using hs.edit (.dropBytes s (fun e => e.1 < 2 ^ 36) (fun _ => true) fun _ => false)

theorem Edits.portsDown (hs : Edits may s₀ s) : Edits may s₀ s.portsDown := (hs.foldl fun _ _ h => .ite h.modPort h.modPort.setPortState).checkParent

theorem Edits.noMordants (hs : Edits may s₀ s) : Edits may s₀ { s with mordants := [] } := by
  simpa only [List.filter_false] using hs.edit (.dropMors s fun _ => false)

theorem Edits.resetDie (hs : Edits true s₀ s) : Edits true s₀ s.resetDie :=
  ((hs.portsDown.noMordants.frame).foldl fun _ _ h => h.setReg).zeroStashes

theorem Edits.dropStatistics (hs : Edits may s₀ s) : Edits may s₀ s.dropStatistics := hs.edit (.dropRegs _ _)

theorem Edits.forgetEpochs (hs : Edits may s₀ s) : Edits may s₀ s.forgetEpochs := hs.foldl fun _ _ h => h.modSec.noteEpoch

theorem Edits.enterStewardOnly {rails : List (Fin 14)} (hs : Edits true s₀ s) : Edits true s₀ (s.enterStewardOnly rails) :=
  (hs.beatEnd.modPwr.foldl fun _ _ h => h.dropRail).resetDie.zeroTowers.forgetEpochs.dropStatistics.showPower

/-! ### Boot and firmware -/

theorem Edits.setSlot {i : Fin 4} {v : Byte} (hs : Edits may s₀ s) : Edits may s₀ (s.setSlot i v) := hs.modStw

theorem Edits.pickSlot {k : FwKind} {sigs : Vector Bool 4} {l : List (Fin 4)} : ∀ {s : State}, Edits may s₀ s → State.pickSlot k sigs l s = some t →
    Edits may s₀ t := by
  induction l with
  | nil => exact fun _ h => nomatch h
  | cons i l ih =>
    intro s hs h
    unfold State.pickSlot at h
    split at h
    · cases h
      exact hs.setSlot
    · exact ih hs.setSlot h

theorem Edits.deriveDevice (hs : Edits may s₀ s) : Edits may s₀ s.deriveDevice := .ite hs hs.modStw

theorem Edits.deriveAliases (hs : Edits may s₀ s) : Edits may s₀ s.deriveAliases := by
  unfold State.deriveAliases
  exact hs.modStw

theorem Edits.showRunning (hs : Edits may s₀ s) : Edits may s₀ s.showRunning := hs.deriveAliases.setDom.setDom.setReg

theorem Edits.endAllJobs (hs : Edits may s₀ s) : Edits may s₀ s.endAllJobs :=
  hs.foldl fun _ _ h => .ite (.unload (.ite h.endByCommand h)) (.ite h.endByCommand h)

theorem Edits.holdDie (hs : Edits true s₀ s) : Edits true s₀ s.holdDie := by
  unfold State.holdDie
  exact hs.endAllJobs.forgetEpochs.resetDie.modStw.modPwr

theorem Edits.recover (hs : Edits true s₀ s) : Edits true s₀ s.recover := hs.holdDie.setSteward

theorem Edits.probeNand (hs : Edits may s₀ s) : Edits may s₀ s.probeNand := hs.foldl fun _ _ h => h.foldl fun _ _ h => h.emit

theorem Edits.findNand {b : BootResult} (hs : Edits may s₀ s) : Edits may s₀ (s.findNand b) :=
  .ite (.modStw (.ite hs.probeNand.modStw.setReg.saveReg.setReg hs.probeNand.modStw.setReg.saveReg.setReg.abortTier))
    (.foldl (.modStw (.ite hs.probeNand.modStw.setReg.saveReg.setReg hs.probeNand.modStw.setReg.saveReg.setReg.abortTier))
    (fun _ _ h => .ite h.modSec h))

theorem Edits.sealFresh (hs : Edits true s₀ s) : Edits true s₀ s.sealFresh :=
  .saveReg (.ite hs.sealPlan.planDiffers hs.sealPlan.planDiffers.zeroTowers)

theorem Edits.firmwareBreach {old : State} (hs : Edits may s₀ s) : Edits may s₀ (State.firmwareBreach old s) :=
  .ite (hs.foldl fun _ _ h => .ite h.raise h) hs

theorem Edits.bootSteps {b : BootResult} (hs : Edits true s₀ s) : Edits true s₀ (s.bootSteps b) := by
  unfold State.bootSteps
  dsimp only
  refine .ite hs.holdDie.modStw.setSteward ?_
  split
  · exact hs.modStw.deriveDevice.recover
  · next heq =>
      refine .ite (hs.modStw.deriveDevice.pickSlot heq).recover ?_
      split
      · exact (hs.modStw.deriveDevice.pickSlot heq).recover
      · next heq' =>
        have hs' := (hs.modStw.deriveDevice.pickSlot heq).pickSlot heq'
        exact .setSteward (.modStw (.firmwareBreach (.showRunning (.findNand (.ite hs'.modStw.sealFresh hs'.modStw.verifySeal)))))

theorem Edits.answerRestart {f : Pf} (hs : Edits may s₀ s) : Edits may s₀ (s.answerRestart f) := .ite hs.modFn hs.modFn.emit.modFn.vector

theorem Edits.holdPort {q : PortId} (hs : Edits may s₀ s) : Edits may s₀ (s.holdPort q) := .ite hs hs.portDown

theorem Edits.restartSteward (hs : Edits may s₀ s) : Edits may s₀ s.restartSteward := by
  unfold State.restartSteward
  exact ((hs.foldl fun _ _ h => h.answerRestart).foldl fun _ _ h => h.holdPort).modStw.setSteward

theorem Edits.execStewardRestart {via : Via} (hs : Edits may s₀ s) : Answers may s₀ (execStewardRestart via s) :=
  hs.command fun _ _ => .mk fun _ h => h.setReg.restartSteward

theorem Edits.execWatchdogExpiry (hs : Edits may s₀ s) : Answers may s₀ (execWatchdogExpiry s) := .ite (.next hs.restartSteward) (.next hs)

theorem Edits.execStewardLockstepMismatch (hs : Edits may s₀ s) : Answers may s₀ (execStewardLockstepMismatch s) :=
  .ite (.next hs) (.next hs.restartSteward.raise.frame)

theorem Edits.execImageStagingWrite {via : Via} {kind : FwKind} {off : Nat} {data : List Byte} {commit : Bool} (hs : Edits may s₀ s) :
    Answers may s₀ (execImageStagingWrite via kind off data commit s) :=
  .ite (.next hs) (hs.serve fun _ _ _ t h => by
    dsimp only
    split
    · exact h
    · exact .ite h.stage h.unstage.modStw.setSlot)

theorem Edits.execFirmwareVerify {via : Via} {bootSig runSig : Bool} (hs : Edits may s₀ s) :
    Answers may s₀ (execFirmwareVerify via bootSig runSig s) :=
  hs.command fun _ _ => .ite .refused (.mk (fun _ h => (h.foldl fun _ _ h => h.setSlot.modStw).setReg))

theorem Edits.activate {k : FwKind} {i : Fin 4} (hs : Edits may s₀ s) : Edits may s₀ (s.activate k i) := by
  unfold State.activate
  exact hs.setSlot.setSlot.modStw

theorem Edits.execFirmwareActivate {via : Via} (hs : Edits may s₀ s) : Answers may s₀ (execFirmwareActivate via s) :=
  hs.command fun _ _ => .ite .refused (.mk (fun _ h => (h.foldl fun _ _ h => h.activate).setReg.restartSteward))

theorem Edits.execRaiseRollbackFloor {via : Via} (hs : Edits may s₀ s) : Answers may s₀ (execRaiseRollbackFloor via s) :=
  hs.command fun _ _ => .ite .refused (.mk (fun _ h => h.setReg.setReg))

theorem Edits.execFirmwareRevert {via : Via} (hs : Edits may s₀ s) : Answers may s₀ (execFirmwareRevert via s) :=
  hs.command fun _ _ => .ite .refused (.mk (fun _ h => (h.foldl fun _ _ h => by
    split
    · exact h.activate
    · exact h).setReg.restartSteward))

theorem Edits.execRuntimeStartTimeout (hs : Edits true s₀ s) : Answers true s₀ (execRuntimeStartTimeout s) :=
  .ite (.next hs) (.ite (.next hs.frame.setSlot.recover)
    (.ite (.next hs.frame.setSlot.setSlot.recover) (.next hs.frame.setSlot.setSlot.showRunning.modStw)))

/-! ### Control -/

theorem Edits.ctlStep {st : St} {npc : Nat} {f : Seqr → Seqr} (hs : Edits may s₀ s) : Checks may s₀ (ctlStep s st npc f) := .ok hs.modSt

theorem Edits.execCtlNop {st : St} {bad : SramWord} (hs : Edits may s₀ s) : Answers may s₀ (execCtlNop st bad s) :=
  hs.modSt.issue fun _ h _ _ _ => h.ctlStep

theorem Edits.execCtlLi {st : St} (hs : Edits may s₀ s) : Answers may s₀ (execCtlLi st s) := hs.issue fun _ h _ _ _ => h.ctlStep

theorem Edits.execCtlAdd {st : St} (hs : Edits may s₀ s) : Answers may s₀ (execCtlAdd st s) := hs.issue fun _ h _ _ _ => h.ctlStep

theorem Edits.execCtlBr {st : St} (hs : Edits may s₀ s) : Answers may s₀ (execCtlBr st s) :=
  hs.issue fun _ h _ _ _ => .ite .fault (.ite .fault h.ctlStep)

theorem Edits.execCtlBase {st : St} (hs : Edits may s₀ s) : Answers may s₀ (execCtlBase st s) := hs.issue fun _ h _ _ _ => h.ctlStep

theorem Edits.execCtlEnd {st : St} (hs : Edits may s₀ s) : Answers may s₀ (execCtlEnd st s) := hs.issue fun _ h _ _ _ => h.ctlStep

theorem Edits.reportDone {p : Part} (hs : Edits may s₀ s) : Edits may s₀ (s.reportDone p) := .ite hs.modPart.setJobState hs

theorem Edits.execCtlEndFire {st : St} (hs : Edits may s₀ s) : Answers may s₀ (execCtlEndFire st s) := by
  unfold Machine.execCtlEndFire
  dsimp only
  split
  · exact .ite (.next hs) (.ite (.next hs.faultFire) (.next hs.modSt.emit.reportDone))
  · exact .next hs

theorem Edits.execUnlistedOpcode {st : St} (hs : Edits may s₀ s) : Answers may s₀ (execUnlistedOpcode st s) := by
  unfold Machine.execUnlistedOpcode
  dsimp only
  split
  · exact .next hs
  · exact .ite (.next hs.faultIssue) (.ite (.next hs.faultWord) (.ite (.next hs) (.next hs.faultIssue)))

/-! ### Resets -/

theorem Edits.keepClasses {ok : Nat → Bool} (hs : Edits may s₀ s) : Edits may s₀ (s.keepClasses ok) := (hs.loadSaved.edit (.dropRegs _ _)).frame

theorem Edits.showRetired (hs : Edits may s₀ s) : Edits may s₀ s.showRetired := hs.foldl fun _ _ h => .ite h h.setPortState

/-- All of memory and every mordant gone. -/
theorem Edits.emptied (hs : Edits true s₀ s) : Edits true s₀ { s with mem := [], poison := [], stashPoison := [], mordants := [] } := by
  have hmem := hs.edit (.dropBytes s (fun _ => false) (fun _ => false) fun _ => false)
  simp only [List.filter_false] at hmem
  exact hmem.noMordants

theorem Edits.coldStart {cause : Nat} {held : Bool} (hs : Edits true s₀ s) : Edits true s₀ (s.coldStart cause held) := by
  have hkept : Edits true s₀ (s.beatEnd.keepClasses keptCold) := hs.beatEnd.keepClasses
  exact Edits.showRetired (hkept.emptied.frame)

theorem Edits.execPowerOn (hs : Edits true s₀ s) : Answers true s₀ (execPowerOn s) := .ite (.next hs.coldStart) (.next hs)

theorem Edits.execColdResetInput (hs : Edits true s₀ s) : Answers true s₀ (execColdResetInput s) := .ite (.next hs.coldStart) (.next hs)

theorem Edits.execColdReset {via : Via} (hs : Edits true s₀ s) : Answers true s₀ (execColdReset via s) :=
  hs.command fun _ _ => .mk fun _ h => h.coldStart

theorem Edits.execStewardRailFailure (hs : Edits true s₀ s) : Answers true s₀ (execStewardRailFailure s) := by
  have hbeat : Edits true s₀ { s with beat := [] } := hs.frame
  have hcold := hbeat.coldStart (cause := 1) (held := true)
  unfold Machine.execStewardRailFailure
  refine .ite (.next hs) (.next ?_)
  generalize State.coldStart _ _ _ = t at hcold
  exact (hcold.edit (.dropHeld t)).frame

theorem Edits.warmStart (hs : Edits true s₀ s) : Edits true s₀ s.warmStart :=
  .alertFrom (.restartSteward (.ite
    (.setReg (.showRetired (.modStw
    (.frame (.keepClasses (.ite (hs.foldl fun _ _ h => .ite h.goodbye h).endAllJobs.forgetEpochs.resetDie.zeroTowers
    (hs.foldl fun _ _ h => .ite h.goodbye h).endAllJobs.forgetEpochs.resetDie))))))
    (.showRetired (.modStw (.frame (.keepClasses (.ite (hs.foldl fun _ _ h => .ite h.goodbye h).endAllJobs.forgetEpochs.resetDie.zeroTowers
    (hs.foldl fun _ _ h => .ite h.goodbye h).endAllJobs.forgetEpochs.resetDie)))))))

theorem Edits.execWarmReset {via : Via} (hs : Edits true s₀ s) : Answers true s₀ (execWarmReset via s) :=
  hs.command fun _ _ => .ite .refused (.mk (fun _ h => h.warmStart))

theorem Edits.execSeamReset {via : Via} (hs : Edits may s₀ s) : Answers may s₀ (execSeamReset via s) :=
  hs.command fun _ _ => .ite .refused (.mk (fun _ h => h.setReg.resetCrossings))

theorem Edits.clearJob {p : Part} (hs : Edits may s₀ s) : Edits may s₀ (s.clearJob p) :=
  .ite (.unload (.ite hs.endByCommand hs)) (.jobDefaults (.ite hs.endByCommand hs))

theorem Edits.resetPort {q : PortId} (hs : Edits may s₀ s) : Edits may s₀ (s.resetPort q) := hs.goodbye.modPort.resetCrossings

theorem Edits.clearQueues {p : Part} (hs : Edits may s₀ s) : Edits may s₀ (s.clearQueues p) := hs.frame

theorem Edits.execPartitionReset {via : Via} {p : Part} (hs : Edits true s₀ s) : Answers true s₀ (execPartitionReset via p s) :=
  hs.command fun _ _ => .mk fun _ h => (h.setReg.clearJob.clearQueues.foldl fun _ _ h => h.modSt).clearMordants.zeroStash.foldl fun _ _ h =>
    h.resetPort

theorem Edits.execJobReset {via : Via} {p : Part} (hs : Edits true s₀ s) : Answers true s₀ (execJobReset via p s) :=
  hs.command fun _ _ => .mk fun _ h => h.setReg.clearJob.zeroStash

theorem Edits.execPortReset {via : Via} {port : PortId} (hs : Edits may s₀ s) : Answers may s₀ (execPortReset via port s) :=
  hs.command fun _ _ => .mk fun _ h => h.setReg.resetPort

/-! ### Power states -/

theorem Edits.setParking {l : List Half} {b : Bool} (hs : Edits may s₀ s) : Edits may s₀ (s.setParking l b) := hs.modPwr

theorem Edits.setStopped {l : List Half} {b : Bool} (hs : Edits may s₀ s) : Edits may s₀ (s.setStopped l b) := hs.modPwr

theorem Edits.stopClocks {l : List Half} (hs : Edits may s₀ s) : Edits may s₀ (s.stopClocks l) := hs.setStopped.foldl fun _ _ h => .ite h.setReg h

theorem Edits.setPhase {f : Phase} (hs : Edits may s₀ s) : Edits may s₀ (s.setPhase f) := hs.modPwr

theorem Edits.beginTrans {target : Nat} {halves : List Half} {f : Phase} (hs : Edits may s₀ s) : Edits may s₀ (s.beginTrans target halves f) :=
  hs.showPower.setReg.modPwr

theorem Edits.startRemoval {force : Bool} (hs : Edits may s₀ s) : Edits may s₀ (s.startRemoval force) :=
  .foldl (.foldl (.ite hs.modPwr.setInsertion.endAllJobs hs.modPwr.setInsertion) (fun _ _ h => .ite h.stopPort h)) fun _ _ h => h.tunnelSend

theorem Edits.afterTrans (hs : Edits may s₀ s) : Edits may s₀ s.afterTrans := by
  unfold State.afterTrans
  split
  · exact .ite hs.startRemoval hs
  · exact hs

theorem Edits.removalReady (hs : Edits may s₀ s) : Edits may s₀ s.removalReady := (hs.foldl fun _ _ h => h.dropRail).setReg.setInsertion

theorem Edits.doneTrans {v : Nat} (hs : Edits may s₀ s) : Edits may s₀ (s.doneTrans v) :=
  .ite (.removalReady (.ite hs.showPower.modPwr.setReg hs.showPower.modPwr)) (.afterTrans (.ite hs.showPower.modPwr.setReg hs.showPower.modPwr))

theorem Edits.abandonTrans (hs : Edits may s₀ s) : Edits may s₀ s.abandonTrans := by
  unfold State.abandonTrans
  dsimp only
  split
  · exact hs.setParking.modPwr.showPower.setReg.admitItems.afterTrans
  · exact hs

theorem Edits.loweringDone (hs : Edits true s₀ s) : Edits true s₀ s.loweringDone := by
  unfold State.loweringDone
  split
  · exact .ite hs.enterStewardOnly.doneTrans hs.doneTrans
  · exact hs

theorem Edits.beginLowering {target : Nat} {halves : List Half} (hs : Edits true s₀ s) : Edits true s₀ (s.beginLowering target halves) :=
  .ite hs.setParking.stopClocks.setPhase.startLower.loweringDone hs.setParking.stopClocks.setPhase.startLower

theorem Edits.execRailDecayed {r : Rail} (hs : Edits true s₀ s) : Answers true s₀ (execRailDecayed r s) :=
  .ite (.next hs) (.ite (.next hs.modPwr) (.ite (.next hs.modPwr.lowerNext.loweringDone) (.next hs.modPwr.lowerNext)))

theorem Edits.unparkRings (hs : Edits may s₀ s) : Edits may s₀ s.unparkRings := hs.foldl fun _ _ h => .ite h h.reformRing

theorem Edits.parkRings (hs : Edits may s₀ s) : Edits may s₀ s.parkRings := hs.foldl fun _ _ h => .ite h.reformRing h

theorem Edits.unpark {halves : List Half} (hs : Edits true s₀ s) : Edits true s₀ (s.unpark halves) := by
  unfold State.unpark
  exact ((hs.resetCrossings.setParking.setStopped.unparkRings.foldl fun _ _ h => .ite h.modSt.modHealth h).foldl fun _ _ h => h.zeroExtent).doneTrans

theorem Edits.raiseDone (hs : Edits true s₀ s) : Edits true s₀ s.raiseDone := by
  unfold State.raiseDone
  split
  · exact .ite hs (.ite hs.unpark hs.setPhase)
  · exact .ite hs.setInsertion hs

theorem Edits.continueRaise (hs : Edits true s₀ s) : Edits true s₀ s.continueRaise := .ite hs.raiseDone hs.raiseNext

theorem Edits.raiseRails {rails : List (Fin 14)} (hs : Edits true s₀ s) : Edits true s₀ (s.raiseRails rails) :=
  .ite hs.startRaise.raiseDone hs.startRaise

theorem Edits.execPgAssert {r : Rail} (hs : Edits true s₀ s) : Answers true s₀ (execPgAssert r s) :=
  .ite (.next hs) (.ite (.next hs.modPwr.continueRaise) (.next hs.modPwr))

theorem Edits.emergencyRecords {detail loc2 : Nat} (hs : Edits may s₀ s) : Edits may s₀ (s.emergencyRecords detail loc2) :=
  hs.foldl fun _ _ h => .ite h.raise h

theorem Edits.fallToSteward {rails : List (Fin 14)} (hs : Edits true s₀ s) : Edits true s₀ (s.fallToSteward rails) :=
  .ite (.removalReady (.ite hs.enterStewardOnly.setReg hs.enterStewardOnly)) (.afterTrans (.ite hs.enterStewardOnly.setReg hs.enterStewardOnly))

theorem Edits.execPgTimeout {r : Rail} (hs : Edits true s₀ s) : Answers true s₀ (execPgTimeout r s) :=
  .ite (.next hs) (.next hs.emergencyRecords.raise.setInsertion.fallToSteward)

theorem Edits.powerEmergency {r : Rail} (hs : Edits true s₀ s) : Edits true s₀ (s.powerEmergency r) := hs.emergencyRecords.fallToSteward.setThermal

theorem Edits.execPgDeassert {r : Rail} (hs : Edits true s₀ s) : Answers true s₀ (execPgDeassert r s) := .ite (.next hs) (.next hs.powerEmergency)

theorem Edits.startPark {target : Nat} {halves : List Half} {ends : List Part} (hs : Edits may s₀ s) :
    Edits may s₀ (s.startPark target halves ends) :=
  hs.beginTrans.setParking.foldl fun _ _ h => .ite h.endByCommand h

theorem Edits.execParkTowersIdle (hs : Edits may s₀ s) : Answers may s₀ (execParkTowersIdle s) :=
  .ite (.next hs) (.next (.setPhase (.ite (hs.foldl fun _ _ h => .ite h.goodbye h).parkRings (hs.foldl fun _ _ h => .ite h.goodbye h))))

theorem Edits.execParkTowerTimeout (hs : Edits may s₀ s) : Answers may s₀ (execParkTowerTimeout s) := .ite (.next hs) (.next hs.abandonTrans)

theorem Edits.execSeamDrained (hs : Edits true s₀ s) : Answers true s₀ (execSeamDrained s) :=
  .ite (.next hs) (.next hs.resetCrossings.frame.beginLowering.admitItems)

theorem Edits.execSeamDrainTimeout (hs : Edits may s₀ s) : Answers may s₀ (execSeamDrainTimeout s) := .ite (.next hs) (.next hs.abandonTrans)

/-- The start of a power transition keeps every state following from `s₀`, where it may start. -/
def Starts (may : Bool) (s₀ : State) (o : Option (State → State)) : Prop := ∀ f, o = some f → ∀ t, Edits may s₀ t → Edits may s₀ (f t)

namespace Starts

theorem none : Starts may s₀ none := fun _ h => nomatch h

theorem some {f : State → State} (h : ∀ t, Edits may s₀ t → Edits may s₀ (f t)) : Starts may s₀ (some f) := by
  rintro _ ⟨⟩
  exact h

theorem ite {c : Prop} [Decidable c] {o o' : Option (State → State)} (h : Starts may s₀ o) (h' : Starts may s₀ o') :
    Starts may s₀ (if c then o else o') := by
  split <;> assumption

end Starts

theorem Edits.powerRequest {via : Via} {target : Nat} {force : Bool} {start : State → Option (State → State)} (hs : Edits may s₀ s)
    (hstart : ∀ t, Starts may s₀ (start t)) : Answers may s₀ (powerRequest via target force start s) :=
  hs.command fun t _ => .ite .refused (.ite (.mk fun _ h => h.setReg) (by
    split
    · next heq => exact hstart t _ heq
    · exact .refused))

theorem Edits.execPowerRequestHalfPark {via : Via} {h : Half} {force : Bool} (hs : Edits may s₀ s) :
    Answers may s₀ (execPowerRequestHalfPark via h force s) :=
  hs.powerRequest fun _ => .ite .none (.some fun _ h => h.startPark)

theorem Edits.parkAll {target : Nat} (hs : Edits may s₀ s) : Edits may s₀ (s.parkAll target) := hs.startPark

theorem Edits.execPowerRequestDeepPark {via : Via} {force : Bool} (hs : Edits true s₀ s) : Answers true s₀ (execPowerRequestDeepPark via force s) :=
  hs.powerRequest fun _ => .ite (.some fun _ h => h.beginTrans.raiseRails) (.ite .none (.some fun _ h => h.parkAll))

theorem Edits.leaveDeep (hs : Edits true s₀ s) : Edits true s₀ s.leaveDeep := hs.beginTrans.beginLowering

theorem Edits.execPowerRequestStewardOnly {via : Via} {force : Bool} (hs : Edits true s₀ s) :
    Answers true s₀ (execPowerRequestStewardOnly via force s) :=
  hs.powerRequest fun _ => .ite (.some fun _ h => h.leaveDeep) (.ite .none (.some fun _ h => h.parkAll))

theorem Edits.execPowerRequestRun {via : Via} {force : Bool} (hs : Edits true s₀ s) : Answers true s₀ (execPowerRequestRun via force s) :=
  hs.powerRequest fun _ => .ite .none (.some fun _ h => h.beginTrans.raiseRails)

theorem Edits.showReady (hs : Edits may s₀ s) : Edits may s₀ s.showReady := .ite hs.setInsertion hs

theorem Edits.afterUp (hs : Edits true s₀ s) : Edits true s₀ s.afterUp := by
  unfold State.afterUp
  split
  · exact .ite hs.doneTrans hs.beginLowering
  · exact .ite hs.beginTrans.beginLowering hs

theorem Edits.execComputeDieReady {failed : List Crossing} (hs : Edits true s₀ s) : Answers true s₀ (execComputeDieReady failed s) :=
  .ite (.next hs) (.next (.afterUp
    (.ite ((hs.modPwr.setReg.foldl fun _ _ h => .ite h.crossingFailed h).foldl fun _ _ h => h.formRing).showReady.showTargets
    ((hs.modPwr.setReg.foldl fun _ _ h => .ite h.crossingFailed h).foldl fun _ _ h => h.formRing).showReady.showTargets.setSteward)))

theorem Edits.bringUp (hs : Edits true s₀ s) : Edits true s₀ s.bringUp := hs.modStw.setInsertion.raiseRails

theorem Edits.writeHeldRecords (hs : Edits may s₀ s) : Edits may s₀ s.writeHeldRecords := (hs.edit (.dropHeld s)).foldl fun _ _ h => h.logRec

theorem Edits.sendHeld (hs : Edits may s₀ s) : Edits may s₀ s.sendHeld := hs.modStw.foldl fun _ _ h => h.notify

theorem Edits.resumeTimeouts (hs : Edits may s₀ s) : Edits may s₀ s.resumeTimeouts := .ite hs hs.frame

theorem Edits.resume (hs : Edits true s₀ s) : Edits true s₀ s.resume :=
  .ite hs.bringUp (.ite (.ite hs.continueRaise hs) (.setSteward (.ite hs.continueRaise hs)))

theorem Edits.execRuntimeReady {boot : BootResult} (hs : Edits true s₀ s) : Answers true s₀ (execRuntimeReady boot s) :=
  .ite (.next hs) (.ite (.next (.ite hs.bootSteps hs))
    (.next (.resume (.sendHeld (.foldl (.writeHeldRecords (.resumeTimeouts (.setSteward (.ite hs.bootSteps hs)))) (fun _ _ h => h.reportDone))))))

theorem Edits.execStwResetNRelease {boot : BootResult} (hs : Edits true s₀ s) : Answers true s₀ (execStwResetNRelease boot s) :=
  .ite (.next hs) (.next hs.modPwr.bootSteps)

theorem Edits.execFabricAdmission {via : Via} {v : Byte} (hs : Edits may s₀ s) : Answers may s₀ (execFabricAdmission via v s) :=
  hs.command fun _ _ => .ite (.mk (fun _ h => h)) (.mk (fun _ h => .ite h.setReg.setInsertion (.ite h.setReg.setInsertion h.setReg)))

theorem Edits.execOrderlyRemoval {via : Via} {force : Bool} (hs : Edits may s₀ s) : Answers may s₀ (execOrderlyRemoval via force s) :=
  hs.command fun _ _ => .ite .refused (.mk (fun _ h => .ite h.setReg.modPwr h.setReg.startRemoval))

theorem Edits.execRemovalDrainComplete (hs : Edits true s₀ s) : Answers true s₀ (execRemovalDrainComplete s) :=
  .ite (.next hs) (.ite (.next (hs.setInsertion.foldl fun _ _ h => h.closePort.saveReg).setInsertion.removalReady)
    (.ite (.next (hs.setInsertion.foldl fun _ _ h => h.closePort.saveReg).setInsertion.leaveDeep)
    (.next (hs.setInsertion.foldl fun _ _ h => h.closePort.saveReg).setInsertion.parkAll)))

/-! ### Thermal -/

theorem Edits.setLim {p : Part} {v : Option Nat} (hs : Edits may s₀ s) : Edits may s₀ (s.setLim p v) := hs.modPwr.retarget

theorem Edits.execPowerLimitCheck {watts : W16} (hs : Edits may s₀ s) : Answers may s₀ (execPowerLimitCheck watts s) :=
  .ite (.next hs) (.next (.setThermal (.ite (hs.setReg.foldl fun _ _ h => h.setLim) (.ite (hs.setReg.foldl fun _ _ h => h.setLim) hs.setReg))))

theorem Edits.modCore {h : Half} {f : CoreRail → CoreRail} (hs : Edits may s₀ s) : Edits may s₀ (s.modCore h f) := hs.modPwr

theorem Edits.raisesDue (hs : Edits may s₀ s) : Edits may s₀ s.raisesDue := .ite hs (hs.foldl fun _ _ h => by
    split
    · exact h.schedule4100
    · exact h)

theorem Edits.execCoreRailVoutCommand {h : Half} (hs : Edits may s₀ s) : Answers may s₀ (execCoreRailVoutCommand h s) :=
  .ite (.next hs) (.next hs.modCore.emit.raisesDue)

theorem Edits.execPmbusCommandFailure {h : Half} (hs : Edits true s₀ s) : Answers true s₀ (execPmbusCommandFailure h s) :=
  .ite (.next hs) (.ite (.next hs.modCore) (.next hs.modCore.powerEmergency))

theorem Edits.execCoreRailStepDecay {h : Half} (hs : Edits may s₀ s) : Answers may s₀ (execCoreRailStepDecay h s) :=
  .ite (.next hs) (.next hs.saveReg.modCore.showTargets)

theorem Edits.execRailOutOfRange {r : Rail} {mv amps : W16} (hs : Edits true s₀ s) : Answers true s₀ (execRailOutOfRange r mv amps s) :=
  .ite (.next hs) (.next (hs.setReg.powerEmergency.foldl fun _ _ h => h.raise))

theorem Edits.readSensors {l : List W16} (hs : Edits may s₀ s) : Edits may s₀ (s.readSensors l) := hs.foldl fun _ _ h => h.setReg

theorem Edits.modThr {h : Half} {f : Throttle → Throttle} (hs : Edits may s₀ s) : Edits may s₀ (s.modThr h f) := hs.modPwr

theorem Edits.setCap {h : Half} {p : Part} {v : Option Nat} (hs : Edits may s₀ s) : Edits may s₀ (s.setCap h p v) := hs.modThr.retarget

theorem Edits.stepDown {h : Half} (hs : Edits may s₀ s) : Edits may s₀ (s.stepDown h) := hs.modThr.foldl fun _ _ h => h.setCap

theorem Edits.startThrottle {h : Half} (hs : Edits may s₀ s) : Edits may s₀ (s.startThrottle h) := .ite hs hs.setThermal.count.stepDown.breakHour

theorem Edits.execThrottleStep {h : Half} (hs : Edits may s₀ s) : Answers may s₀ (execThrottleStep h s) := .ite (.next hs) (.next hs.stepDown)

theorem Edits.execThrottleRecoveryStep {h : Half} (hs : Edits may s₀ s) : Answers may s₀ (execThrottleRecoveryStep h s) :=
  .ite (.next hs) (.ite (.next (hs.modThr.foldl fun _ _ h => h.setCap)) (.next (hs.modThr.foldl fun _ _ h => h.setCap).setThermal.breakHour))

theorem Edits.noteHeat {h : Half} (hs : Edits may s₀ s) : Edits may s₀ (s.noteHeat h) := hs.modThr

theorem Edits.parkForced (hs : Edits may s₀ s) : Edits may s₀ s.parkForced := hs.parkAll.setReg

theorem Edits.stopRails (hs : Edits may s₀ s) : Edits may s₀ s.stopRails := hs.modPwr

theorem Edits.retargetTrans {v : Nat} (hs : Edits may s₀ s) : Edits may s₀ (s.retargetTrans v) := hs.modPwr

theorem Edits.forceDeep (hs : Edits true s₀ s) : Edits true s₀ s.forceDeep := by
  unfold State.forceDeep
  dsimp only
  split
  · exact .ite hs.parkForced hs
  · split
    · exact hs.setReg.abandonTrans.parkForced
    · exact hs.setReg.abandonTrans.parkForced
    · exact .ite hs.setReg.stopRails.doneTrans.parkForced (.ite hs.setReg.retargetTrans.beginLowering hs.setReg)
    · exact .ite hs.setReg.retargetTrans (.ite hs.setReg.stopRails.retargetTrans.beginLowering hs.setReg.stopRails.doneTrans.parkForced)
    · exact hs.setReg.retargetTrans

theorem Edits.thermalEmergency {i : Nat} (hs : Edits true s₀ s) : Edits true s₀ (s.thermalEmergency i) :=
  .ite hs hs.emergencyRecords.setThermal.modPwr.forceDeep

theorem Edits.tripOff {i : Nat} (hs : Edits true s₀ s) : Edits true s₀ (s.tripOff i) := .ite hs hs.emergencyRecords.modPwr.setThermal.fallToSteward

theorem Edits.unlatch (hs : Edits may s₀ s) : Edits may s₀ s.unlatch := by
  unfold State.unlatch
  dsimp only
  split
  · exact .ite hs.modPwr.setThermal hs.modPwr
  · exact hs.modPwr

theorem Edits.execSensorSample {reading : List W16} (hs : Edits true s₀ s) : Answers true s₀ (execSensorSample reading s) := by
  unfold Machine.execSensorSample
  dsimp only
  refine .ite (.next hs) ?_
  split
  · exact .next hs.readSensors.tripOff
  · refine .ite (.next (hs.readSensors.foldl fun _ _ h => .ite h.raise h)) ?_
    split
    · exact .next ((hs.readSensors.foldl fun _ _ h => .ite h.raise h).foldl fun _ _ h => h.noteHeat.startThrottle).unlatch.thermalEmergency
    · exact .next ((hs.readSensors.foldl fun _ _ h => .ite h.raise h).foldl fun _ _ h => h.noteHeat.startThrottle).unlatch

/-! ### Host port -/

theorem Edits.execMailboxDoorbell {pf : Pf} {req : List Byte} {w1c : Byte} (hs : Edits may s₀ s) :
    Answers may s₀ (execMailboxDoorbell pf req w1c s) :=
  .ite (.next hs) (.ite (.next hs.modFn) (.ite (.next hs.modFn.modFn.answerRestart) (.next hs.modFn.modFn)))

theorem Edits.execNotificationRingTailWrite {pf : Pf} {v : W32} {w1c : Byte} (hs : Edits may s₀ s) :
    Answers may s₀ (execNotificationRingTailWrite pf v w1c s) :=
  .ite (.next hs) (.next hs.modFn)

theorem Edits.complete {f : Pf} {c : Completion} {parts : List (List Byte × Bool)} (hs : Edits may s₀ s) : Edits may s₀ (s.complete f c parts) :=
  hs.emit

theorem Edits.logRefused {f : Pf} (hs : Edits may s₀ s) : Edits may s₀ (s.logRefused f) := hs.modFn.count

theorem Edits.abort {f : Pf} {posted : Bool} (hs : Edits may s₀ s) : Edits may s₀ (s.abort f posted) := .ite hs.logRefused hs.logRefused.complete

theorem Edits.unsupported {f : Pf} {posted : Bool} (hs : Edits may s₀ s) : Edits may s₀ (s.unsupported f posted) := .ite hs hs.complete

theorem Edits.enterMesh {f : Pf} {posted : Bool} {way : List (Nat × Nat)} {towers : Bool} {req : HostReq} {act : State → State} (hs : Edits may s₀ s)
    (hact : ∀ t, Edits may s₀ t → Edits may s₀ (act t)) : Edits may s₀ (s.enterMesh f posted way towers req act) :=
  .ite hs.abort (.ite (hs.frame) (hact _ hs))

theorem Edits.hostRequest {f : Pf} {posted : Bool} {act : Part → State → State} (hs : Edits may s₀ s)
    (hact : ∀ p t, Edits may s₀ t → Edits may s₀ (act p t)) :
    Answers may s₀ (hostRequest f posted act s) := by
  refine .ite (.next hs) ?_
  split
  · exact .next (hact _ _ hs)
  · exact .next hs.unsupported
  · exact .next hs.abort

theorem Edits.onAperture {f : Pf} {p : Part} {off n : Nat} {posted : Bool} {req : HostReq} {act : List (Nat × Nat) → State → State}
    (hs : Edits may s₀ s)
    (hact : ∀ l t, Edits may s₀ t → Edits may s₀ (act l t)) : Edits may s₀ (s.onAperture f p off n posted req act) := by
  unfold State.onAperture
  split
  · exact hs.unsupported
  · exact .ite hs.abort (hs.enterMesh (hact _))

theorem Edits.readRuns {e : MemEcc} {runs : List (Nat × Nat)} (hs : Edits true s₀ s) : Edits true s₀ (s.readRuns e runs).2 :=
  hs.foldlOf Prod.snd fun _ _ h => h.devRead

theorem Edits.execBar2MemoryRead {pf : Pf} {off len : Nat} {e : MemEcc} (hs : Edits true s₀ s) :
    Answers true s₀ (execBar2MemoryRead pf off len e s) :=
  .ite (.next hs) (hs.hostRequest fun _ _ h => h.onAperture fun _ _ h => h.readRuns.complete)

theorem Edits.writeRuns {e : MemEcc} {runs : List (Nat × Nat)} : ∀ {s : State} {l : List PByte}, Edits true s₀ s → Edits true
    s₀ (State.writeRuns e s runs l) := by
  induction runs with
  | nil => exact fun hs => hs
  | cons r runs ih => exact fun hs => ih hs.devWriteD

theorem Edits.execBar2MemoryWrite {pf : Pf} {off : Nat} {data : List Byte} {ep : Bool} {e : MemEcc} (hs : Edits true s₀ s) :
    Answers true s₀ (execBar2MemoryWrite pf off data ep e s) :=
  .ite (.next hs) (hs.hostRequest fun _ _ h => h.onAperture fun _ _ h => .ite h.logRefused h.writeRuns)

theorem Edits.atomicOp {f : Pf} {off : Nat} {wide : Bool} {e : MemEcc} {req : HostReq} {g : Nat → Nat} (hs : Edits true s₀ s) :
    Answers true s₀ (atomicOp f off wide e req g s) :=
  .ite (.next hs) (hs.hostRequest fun _ _ h =>
    .ite h.unsupported (h.onAperture fun _ _ h => .ite h.abort (.ite h.readRuns.complete h.readRuns.complete.writeRuns)))

theorem Edits.execAtomicopFetchadd {pf : Pf} {off : Nat} {wide : Bool} {v : W64} {e : MemEcc} (hs : Edits true s₀ s) :
    Answers true s₀ (execAtomicopFetchadd pf off wide v e s) :=
  hs.atomicOp

theorem Edits.execAtomicopSwap {pf : Pf} {off : Nat} {wide : Bool} {v : W64} {e : MemEcc} (hs : Edits true s₀ s) :
    Answers true s₀ (execAtomicopSwap pf off wide v e s) :=
  hs.atomicOp

theorem Edits.execAtomicopCas {pf : Pf} {off : Nat} {wide : Bool} {cmp v : W64} {e : MemEcc} (hs : Edits true s₀ s) :
    Answers true s₀ (execAtomicopCas pf off wide cmp v e s) := by
  unfold Machine.execAtomicopCas
  exact hs.atomicOp

theorem Edits.readBlockPart {p : Part} {ecc : MemEcc} {i o n : Nat} (hs : Edits true s₀ s) : Edits true s₀ (s.readBlockPart p ecc i o n).2 := by
  unfold State.readBlockPart
  dsimp only
  split
  · exact hs
  · split
    · exact hs.sectorsRead
    · split
      · exact hs.sectorsRead
      · dsimp only
        exact hs.sectorsRead.modBlock.modSec

theorem Edits.readImagePiece {p : Part} {ecc : MemEcc} {i : Image} {o n : Nat} {x : List PByte × State} (hs : Edits true s₀ s)
    (h : s.readImagePiece p ecc i o n = some x) : Edits true s₀ x.2 := by
  unfold State.readImagePiece at h
  dsimp only at h
  split at h
  · cases h
    exact hs
  · obtain ⟨-, h⟩ := Option.ite_none_right_eq_some.1 h
    cases h
    exact hs.readBlockPart
  · obtain ⟨-, h⟩ := Option.ite_none_left_eq_some.1 h
    cases h
    exact hs
  · cases h

theorem Edits.readImage {p : Part} {ecc : MemEcc} {x : List PByte × State} {l : List (Nat × Nat)} :
    ∀ {r : List PByte × State}, Edits true s₀ r.2 → State.readImage p ecc l r = some x → Edits true s₀ x.2 := by
  induction l with
  | nil =>
    intro r hr h
    cases h
    exact hr
  | cons y l ih =>
    intro r hr h
    unfold State.readImage at h
    split at h
    · cases h
    · split at h
      · cases h
      · next z heq =>
        have hz := hr.readImagePiece heq
        exact ih (r := (r.1 ++ z.1, z.2)) hz h

theorem Edits.execImageApertureRead {pf : Pf} {off len : Nat} {e : MemEcc} (hs : Edits true s₀ s) :
    Answers true s₀ (execImageApertureRead pf off len e s) :=
  .ite (.next hs) (hs.hostRequest fun _ _ h => by
    dsimp only
    split
    · exact h.unsupported
    · refine .ite h.unsupported (h.enterMesh fun _ h => ?_)
      split
      · exact h.abort
      · next heq => exact (Edits.readImage (r := ([], _)) h heq).complete)

theorem Edits.headerThere {p : Part} {r : Restore} (hs : Edits may s₀ s) : Edits may s₀ (s.headerThere p r) := by
  unfold State.headerThere
  dsimp only
  split
  · exact hs.restoreFail
  · exact .ite hs.restoreFail (.ite hs.modSec hs.refuseImage)

theorem Edits.writeImagePiece {p : Part} {ecc : MemEcc} {o : Nat} {l : List Byte} (hs : Edits true s₀ s) :
    Edits true s₀ (s.writeImagePiece p ecc o l) := by
  unfold State.writeImagePiece
  dsimp only
  split
  · exact hs
  · split
    · exact .ite hs (.ite hs.modSec.headerThere hs.modSec)
    · exact hs.modSec
    · refine .ite hs.restoreFail ?_
      split
      · exact hs
      · exact .ite hs (.ite hs.restoreForbidden (.ite hs.devWriteD.modSec.landBlock hs.devWriteD.modSec))
    · exact hs

theorem Edits.writeImage {p : Part} {ecc : MemEcc} {l : List (Nat × Nat)} : ∀ {s : State} {d : List Byte}, Edits true s₀ s → Edits true
    s₀ (State.writeImage p ecc l d s) := by
  induction l with
  | nil => exact fun hs => hs
  | cons x l ih => exact fun hs => ih hs.writeImagePiece

theorem Edits.execImageApertureWrite {pf : Pf} {off : Nat} {data : List Byte} {e : MemEcc} (hs : Edits true s₀ s) :
    Answers true s₀ (execImageApertureWrite pf off data e s) :=
  .ite (.next hs) (hs.hostRequest fun _ _ h => by
    dsimp only
    split
    · exact h.unsupported
    · exact .ite h.unsupported (h.enterMesh fun _ h => h.writeImage))

theorem Edits.execMordantDoorbellWrite {pf : Pf} {off size : Nat} {v : W64} (hs : Edits may s₀ s) :
    Answers may s₀ (execMordantDoorbellWrite pf off size v s) :=
  hs.hostRequest fun _ _ h => by
    split
    · exact h.unsupported
    · exact .ite (h.enterMesh fun _ h => h.morAdd) h

theorem Edits.execMordantDoorbellRead {pf : Pf} {off size : Nat} (hs : Edits may s₀ s) : Answers may s₀ (execMordantDoorbellRead pf off size s) :=
  hs.hostRequest fun _ _ h => by
    split
    · exact h.unsupported
    · exact .ite (h.enterMesh fun _ h => h.complete) h.complete

theorem Edits.setWatch {f : Pf} {i : Nat} {w : Watch} (hs : Edits may s₀ s) : Edits may s₀ (s.setWatch f i w) := hs.modFn

theorem Edits.fireWatch {f : Pf} {i : Nat} (hs : Edits may s₀ s) : Edits may s₀ (s.fireWatch f i) := hs.setWatch.vector

theorem Edits.execWatchArm {pf : Pf} {i : Fin 432} {thr : W64} {mor : W16} {w1c : Bool} (hs : Edits may s₀ s) :
    Answers may s₀ (execWatchArm pf i thr mor w1c s) := by
  unfold Machine.execWatchArm
  dsimp only
  split
  · exact .next hs
  · exact .ite (.next hs) (.ite (.next hs.setWatch.fireWatch) (.next hs.setWatch))

theorem Edits.execWatchFire {pf : Pf} {i : Fin 432} (hs : Edits may s₀ s) : Answers may s₀ (execWatchFire pf i s) := by
  unfold Machine.execWatchFire
  split
  · exact .next hs
  · exact .ite (.next hs.fireWatch) (.next hs)

theorem Edits.hostServe {x : HostItem} (hs : Edits true s₀ s) : Edits true s₀ (hostServe s x) := by
  unfold Machine.hostServe
  dsimp only
  split
  · next heq =>
    split at heq
    · exact hs.execBar2MemoryRead _ heq
    · exact hs.execBar2MemoryWrite _ heq
    · exact hs.execAtomicopFetchadd _ heq
    · exact hs.execAtomicopSwap _ heq
    · exact hs.execAtomicopCas _ heq
    · exact hs.execImageApertureRead _ heq
    · exact hs.execImageApertureWrite _ heq
    · exact hs.execMordantDoorbellWrite _ heq
    · exact hs.execMordantDoorbellRead _ heq
  · exact hs

theorem Edits.serveHeld (hs : Edits true s₀ s) : Edits true s₀ s.serveHeld := hs.frame.foldl fun _ _ h => h.hostServe

theorem Edits.execPerstNAssert (hs : Edits may s₀ s) : Answers may s₀ (execPerstNAssert s) := .ite (.next hs) (.next hs.frame.pcieReset)

theorem Edits.execPerstNDeassert (hs : Edits may s₀ s) : Answers may s₀ (execPerstNDeassert s) := .next hs.frame

theorem Edits.execHotReset (hs : Edits may s₀ s) : Answers may s₀ (execHotReset s) := .ite (.next hs.pcieReset) (.next hs)

theorem Edits.execPcieLinkDown (hs : Edits may s₀ s) : Answers may s₀ (execPcieLinkDown s) := .ite (.next hs.pcieReset) (.next hs)

theorem Edits.execPcieLinkUp {rate : BitVec 4} {width : BitVec 5} {cfg : Vector PciCfg 5} (hs : Edits may s₀ s) :
    Answers may s₀ (execPcieLinkUp rate width cfg s) :=
  .ite (.next hs) (.next (hs.setReg.foldl fun _ _ h => h.modFn))

theorem Edits.execFunctionLevelReset {pf : Pf} {cfg : PciCfg} (hs : Edits may s₀ s) : Answers may s₀ (execFunctionLevelReset pf cfg s) := by
  unfold Machine.execFunctionLevelReset
  dsimp only
  refine .ite (.next hs) ?_
  split
  · exact .next hs.modFn.resetAperture
  · exact .next hs.modFn

theorem Edits.execD3hotEntry {pf : Pf} (hs : Edits may s₀ s) : Answers may s₀ (execD3hotEntry pf s) := .ite (.next hs.modFn) (.next hs)

theorem Edits.execD0Entry {pf : Pf} (hs : Edits may s₀ s) : Answers may s₀ (execD0Entry pf s) := .ite (.next hs.modFn) (.next hs)

theorem Edits.execPtmRequest {hostTime : W64} (hs : Edits may s₀ s) : Answers may s₀ (execPtmRequest hostTime s) := .ite (.next hs.setDom) (.next hs)

/-! ### Sideband -/

theorem Edits.smbusRead {b : State → List Byte} (hs : Edits may s₀ s) : Answers may s₀ (smbusRead b s) := .ite (.next hs) (.next hs.emit)

theorem Edits.execSmbusReadInsertionState (hs : Edits may s₀ s) : Answers may s₀ (execSmbusReadInsertionState s) := hs.smbusRead

theorem Edits.execSmbusReadPowerState (hs : Edits may s₀ s) : Answers may s₀ (execSmbusReadPowerState s) := hs.smbusRead

theorem Edits.execSmbusReadStatus (hs : Edits may s₀ s) : Answers may s₀ (execSmbusReadStatus s) := hs.smbusRead

theorem Edits.execSmbusReadDieSensor (hs : Edits may s₀ s) : Answers may s₀ (execSmbusReadDieSensor s) := hs.smbusRead

theorem Edits.execSmbusReadDramSensor (hs : Edits may s₀ s) : Answers may s₀ (execSmbusReadDramSensor s) := hs.smbusRead

theorem Edits.execSmbusReadPackagePower (hs : Edits may s₀ s) : Answers may s₀ (execSmbusReadPackagePower s) := hs.smbusRead

theorem Edits.execSmbusReadDeviceId (hs : Edits may s₀ s) : Answers may s₀ (execSmbusReadDeviceId s) := hs.smbusRead

theorem Edits.execSmbusReadSerial (hs : Edits may s₀ s) : Answers may s₀ (execSmbusReadSerial s) := hs.smbusRead

theorem Edits.execAlertResponseAddressRead (hs : Edits may s₀ s) : Answers may s₀ (execAlertResponseAddressRead s) :=
  .ite (.next hs) (.next hs.modPwr)

theorem Edits.execSmbusWrite (hs : Edits may s₀ s) : Answers may s₀ (execSmbusWrite s) := .ite (.next hs) (.next hs.emit)

theorem Edits.execPpsOutPulse (hs : Edits may s₀ s) : Answers may s₀ (execPpsOutPulse s) := .ite (.next hs) (.next hs.modPwr)

theorem Edits.execPpsInEdge (hs : Edits may s₀ s) : Answers may s₀ (execPpsInEdge s) := .ite (.next hs) (.next hs.setReg)

theorem Edits.execTestEnRise (hs : Edits true s₀ s) : Answers true s₀ (execTestEnRise s) := .ite (.next hs) (.next hs.holdDie.showPower.modPwr)

theorem Edits.execTestEnFall (hs : Edits true s₀ s) : Answers true s₀ (execTestEnFall s) := .ite (.next hs) (.next hs.modPwr.frame.coldStart)

theorem Edits.jtag {i : JtagInstr} {ok : Bool} (hs : Edits may s₀ s) : Answers may s₀ (jtag i ok s) :=
  .ite (.next hs) (.ite (.next hs.modPwr.emit) (.next hs.modPwr.emit))

theorem Edits.execBypass (hs : Edits may s₀ s) : Answers may s₀ (execBypass s) := hs.jtag

theorem Edits.execIdcode (hs : Edits may s₀ s) : Answers may s₀ (execIdcode s) := hs.jtag

theorem Edits.execSamplePreload (hs : Edits may s₀ s) : Answers may s₀ (execSamplePreload s) := hs.jtag

theorem Edits.execExtest (hs : Edits may s₀ s) : Answers may s₀ (execExtest s) := hs.jtag

theorem Edits.execClamp (hs : Edits may s₀ s) : Answers may s₀ (execClamp s) := hs.jtag

theorem Edits.execHighz (hs : Edits may s₀ s) : Answers may s₀ (execHighz s) := hs.jtag

theorem Edits.execPrivateInstruction (hs : Edits may s₀ s) : Answers may s₀ (execPrivateInstruction s) := hs.jtag

/-! ### Every command -/

/-- What a command answers follows from the state by the changes that it may make. -/
theorem exec_edits (s : State) : ∀ c : Instr, Answers c.mayStore s (exec c s)
  | .ctlNop .. => Edits.execCtlNop .refl
  | .ctlLi .. => Edits.execCtlLi .refl
  | .ctlAdd .. => Edits.execCtlAdd .refl
  | .ctlBr .. => Edits.execCtlBr .refl
  | .ctlBase .. => Edits.execCtlBase .refl
  | .ctlEnd .. => Edits.execCtlEnd .refl
  | .ctlEndFire .. => Edits.execCtlEndFire .refl
  | .unlistedOpcode .. => Edits.execUnlistedOpcode .refl
  | .vatOpen .. => Edits.execVatOpen .refl
  | .vatOpenFire .. => Edits.execVatOpenFire .refl
  | .vatFetch .. => Edits.execVatFetch .refl
  | .vatFetchFire .. => Edits.execVatFetchFire .refl
  | .vatSlotFull .. => Edits.execVatSlotFull .refl
  | .vatPut .. => Edits.execVatPut .refl
  | .vatPutFire .. => Edits.execVatPutFire .refl
  | .putWriteComplete .. => Edits.execPutWriteComplete .refl
  | .slotRelease .. => Edits.execSlotRelease .refl
  | .vatCancel .. => Edits.execVatCancel .refl
  | .vatCancelFire .. => Edits.execVatCancelFire .refl
  | .droppedFetchEnd .. => Edits.execDroppedFetchEnd .refl
  | .vatClose .. => Edits.execVatClose .refl
  | .vatCloseFire .. => Edits.execVatCloseFire .refl
  | .ringFeed .. => Edits.execRingFeed .refl
  | .ringFeedFire .. => Edits.execRingFeedFire .refl
  | .ringTake .. => Edits.execRingTake .refl
  | .ringTakeFire .. => Edits.execRingTakeFire .refl
  | .ringAdd .. => Edits.execRingAdd .refl
  | .ringAddFire .. => Edits.execRingAddFire .refl
  | .ringFlitArrival .. => Edits.execRingFlitArrival .refl
  | .ringCreditReturn .. => Edits.execRingCreditReturn .refl
  | .ringHeadStall .. => Edits.execRingHeadStall .refl
  | .arrShape .. => Edits.execArrShape .refl
  | .arrShapeFire .. => Edits.execArrShapeFire .refl
  | .arrLoad .. => Edits.execArrLoad .refl
  | .arrLoadFire .. => Edits.execArrLoadFire .refl
  | .arrLoadComplete .. => Edits.execArrLoadComplete .refl
  | .arrMma .. => Edits.execArrMma .refl
  | .arrMmaFire .. => Edits.execArrMmaFire .refl
  | .shadowRegistersFree .. => Edits.execShadowRegistersFree .refl
  | .productRowLeavesTree .. => Edits.execProductRowLeavesTree .refl
  | .witnessVerdict .. => Edits.execWitnessVerdict .refl
  | .kPassEnd .. => Edits.execKPassEnd .refl
  | .mergeComplete .. => Edits.execMergeComplete .refl
  | .accOpen .. => Edits.execAccOpen .refl
  | .accOpenFire .. => Edits.execAccOpenFire .refl
  | .accDrain .. => Edits.execAccDrain .refl
  | .accDrainFire .. => Edits.execAccDrainFire .refl
  | .drainComplete .. => Edits.execDrainComplete .refl
  | .vecSplit .. => Edits.execVecSplit .refl
  | .vecSplitFire .. => Edits.execVecSplitFire .refl
  | .vecPro .. => Edits.execVecPro .refl
  | .vecProFire .. => Edits.execVecProFire .refl
  | .vecEpi .. => Edits.execVecEpi .refl
  | .vecEpiFire .. => Edits.execVecEpiFire .refl
  | .vecOp .. => Edits.execVecOp .refl
  | .vecOpFire .. => Edits.execVecOpFire .refl
  | .vecNcomb .. => Edits.execVecNcomb .refl
  | .vecNcombFire .. => Edits.execVecNcombFire .refl
  | .vecSminit .. => Edits.execVecSminit .refl
  | .vecSminitFire .. => Edits.execVecSminitFire .refl
  | .vecRopeLoad .. => Edits.execVecRopeLoad .refl
  | .vecRopeLoadFire .. => Edits.execVecRopeLoadFire .refl
  | .engRoute .. => Edits.execEngRoute .refl
  | .engRouteFire .. => Edits.execEngRouteFire .refl
  | .engXpose .. => Edits.execEngXpose .refl
  | .engXposeFire .. => Edits.execEngXposeFire .refl
  | .engMadder .. => Edits.execEngMadder .refl
  | .engMadderFire .. => Edits.execEngMadderFire .refl
  | .netSend .. => Edits.execNetSend .refl
  | .netSendFire .. => Edits.execNetSendFire .refl
  | .morWait .. => Edits.execMorWait .refl
  | .morWaitFire .. => Edits.execMorWaitFire .refl
  | .morAdd .. => Edits.execMorAdd .refl
  | .morAddFire .. => Edits.execMorAddFire .refl
  | .morSet .. => Edits.execMorSet .refl
  | .morSetFire .. => Edits.execMorSetFire .refl
  | .morRead .. => Edits.execMorRead .refl
  | .morReadFire .. => Edits.execMorReadFire .refl
  | .mordantOperationArrival .. => Edits.execMordantOperationArrival .refl
  | .mordantTimeout .. => Edits.execMordantTimeout .refl
  | .chkKat .. => Edits.execChkKat .refl
  | .chkKatFire .. => Edits.execChkKatFire .refl
  | .testSliceEnd .. => Edits.execTestSliceEnd .refl
  | .directTestSlice .. => Edits.execDirectTestSlice .refl
  | .katQueueFill .. => Edits.execKatQueueFill .refl
  | .idleStationRotation .. => Edits.execIdleStationRotation .refl
  | .routeDescriptorArrival .. => Edits.execRouteDescriptorArrival .refl
  | .routeGather .. => Edits.execRouteGather .refl
  | .routeCombine .. => Edits.execRouteCombine .refl
  | .routeDescriptorComplete .. => Edits.execRouteDescriptorComplete .refl
  | .transposeDescriptorArrival .. => Edits.execTransposeDescriptorArrival .refl
  | .transposeRun .. => Edits.execTransposeRun .refl
  | .transposeComplete .. => Edits.execTransposeComplete .refl
  | .madderDescriptorArrival .. => Edits.execMadderDescriptorArrival .refl
  | .madderAdaptiveUpdate .. => Edits.execMadderAdaptiveUpdate .refl
  | .madderMomentumUpdate .. => Edits.execMadderMomentumUpdate .refl
  | .madderComplete .. => Edits.execMadderComplete .refl
  | .towerRead .. => Edits.execTowerRead .refl
  | .towerWrite .. => Edits.execTowerWrite .refl
  | .accumulatingWrite .. => Edits.execAccumulatingWrite .refl
  | .maintenanceWindow .. => Edits.execMaintenanceWindow .refl
  | .bankCopyComplete .. => Edits.execBankCopyComplete .refl
  | .towerLoss .. => Edits.execTowerLoss .refl
  | .retiredTowerAccess .. => Edits.execRetiredTowerAccess .refl
  | .stashRead .. => Edits.execStashRead .refl
  | .stashWrite .. => Edits.execStashWrite .refl
  | .securedBlockWrite .. => Edits.execSecuredBlockWrite .refl
  | .drainRead .. => Edits.execDrainRead .refl
  | .blockDrainComplete .. => Edits.execBlockDrainComplete .refl
  | .copyBackGranule .. => Edits.execCopyBackGranule .refl
  | .flitArrivalAtRouter .. => Edits.execFlitArrivalAtRouter .refl
  | .frameMark => Edits.execFrameMark .refl
  | .transferStart .. => Edits.execTransferStart .refl
  | .windowMark => Edits.execWindowMark .refl
  | .sightGapDeferredCheck .. => Edits.execSightGapDeferredCheck .refl
  | .holdStallLimit .. => Edits.execHoldStallLimit .refl
  | .testShareSpanEnd .. => Edits.execTestShareSpanEnd .refl
  | .stationClockSettingWrite .. => Edits.execStationClockSettingWrite .refl
  | .clockSettingChange .. => Edits.execClockSettingChange .refl
  | .replicaTrigger .. => Edits.execReplicaTrigger .refl
  | .hangDetected .. => Edits.execHangDetected .refl
  | .crossingRecalibrated .. => Edits.execCrossingRecalibrated .refl
  | .timeSet .. => Edits.execTimeSet .refl
  | .timeSetApplied => Edits.execTimeSetApplied .refl
  | .referenceLoss => Edits.execReferenceLoss .refl
  | .referenceLock => Edits.execReferenceLock .refl
  | .holdoverCrossCheck .. => Edits.execHoldoverCrossCheck .refl
  | .blockSlot .. => Edits.execBlockSlot .refl
  | .blockArrival .. => Edits.execBlockArrival .refl
  | .portAcceptsBlock .. => Edits.execPortAcceptsBlock .refl
  | .ackTimeout .. => Edits.execAckTimeout .refl
  | .receiveSilence .. => Edits.execReceiveSilence .refl
  | .holdSightGap .. => Edits.execHoldSightGap .refl
  | .lossOfSignal .. => Edits.execLossOfSignal .refl
  | .lossPersists .. => Edits.execLossPersists .refl
  | .laneDegradeWindow .. => Edits.execLaneDegradeWindow .refl
  | .spareLockLoss .. => Edits.execSpareLockLoss .refl
  | .spareCodewordDecode .. => Edits.execSpareCodewordDecode .refl
  | .trainingSetsDetected .. => Edits.execTrainingSetsDetected .refl
  | .equaliseComplete .. => Edits.execEqualiseComplete .refl
  | .equaliseTimeout .. => Edits.execEqualiseTimeout .refl
  | .alignComplete .. => Edits.execAlignComplete .refl
  | .alignTimeout .. => Edits.execAlignTimeout .refl
  | .authTimeout .. => Edits.execAuthTimeout .refl
  | .trainingRetry .. => Edits.execTrainingRetry .refl
  | .linkControlRepeat .. => Edits.execLinkControlRepeat .refl
  | .linkControlAck .. => Edits.execLinkControlAck .refl
  | .hello .. => Edits.execHello .refl
  | .chain .. => Edits.execChain .refl
  | .proof .. => Edits.execProof .refl
  | .verdict .. => Edits.execVerdict .refl
  | .swap .. => Edits.execSwap .refl
  | .swapDone .. => Edits.execSwapDone .refl
  | .spareBad .. => Edits.execSpareBad .refl
  | .retrain .. => Edits.execRetrain .refl
  | .goodbye .. => Edits.execGoodbye .refl
  | .portCommandRetrain .. => Edits.execPortCommandRetrain .refl
  | .portCommandOrderlyDown .. => Edits.execPortCommandOrderlyDown .refl
  | .portCommandReleaseHeld .. => Edits.execPortCommandReleaseHeld .refl
  | .portEnableWrite .. => Edits.execPortEnableWrite .refl
  | .timeSync .. => Edits.execTimeSync .refl
  | .timeReply .. => Edits.execTimeReply .refl
  | .write .. => Edits.execWrite .refl
  | .readRequest .. => Edits.execReadRequest .refl
  | .readResponse .. => Edits.execReadResponse .refl
  | .mordantAdd .. => Edits.execMordantAdd .refl
  | .mordantSet .. => Edits.execMordantSet .refl
  | .reduce .. => Edits.execReduce .refl
  | .multicastWrite .. => Edits.execMulticastWrite .refl
  | .fence .. => Edits.execFence .refl
  | .openWrite .. => Edits.execOpenWrite .refl
  | .openReadRequest .. => Edits.execOpenReadRequest .refl
  | .openReadResponse .. => Edits.execOpenReadResponse .refl
  | .openMordantAdd .. => Edits.execOpenMordantAdd .refl
  | .openMordantSet .. => Edits.execOpenMordantSet .refl
  | .credit .. => Edits.execCredit .refl
  | .managementTunnel .. => Edits.execManagementTunnel .refl
  | .scheduledBlockTransit .. => Edits.execScheduledBlockTransit .refl
  | .openBlockForward .. => Edits.execOpenBlockForward .refl
  | .commitRecordArrival .. => Edits.execCommitRecordArrival .refl
  | .partnerCompletion .. => Edits.execPartnerCompletion .refl
  | .commitTimeout .. => Edits.execCommitTimeout .refl
  | .securingMordantChange .. => Edits.execSecuringMordantChange .refl
  | .nandProgramComplete .. => Edits.execNandProgramComplete .refl
  | .nandEraseComplete .. => Edits.execNandEraseComplete .refl
  | .nandReadComplete .. => Edits.execNandReadComplete .refl
  | .sharedStoreCommit .. => Edits.execSharedStoreCommit .refl
  | .restoreArm .. => Edits.execRestoreArm .refl
  | .restoreBlockLands .. => Edits.execRestoreBlockLands .refl
  | .restoreComplete .. => Edits.execRestoreComplete .refl
  | .partnerTargetWrite .. => Edits.execPartnerTargetWrite .refl
  | .sequencerCompareMismatch .. => Edits.execSequencerCompareMismatch .refl
  | .stewardLockstepMismatch => Edits.execStewardLockstepMismatch .refl
  | .observationExpiry .. => Edits.execObservationExpiry .refl
  | .riskEstimateUpdate => Edits.execRiskEstimateUpdate .refl
  | .cleanHourTick => Edits.execCleanHourTick .refl
  | .logAcknowledge .. => Edits.execLogAcknowledge .refl
  | .jobLoad .. => Edits.execJobLoad .refl
  | .jobEnd .. => Edits.execJobEnd .refl
  | .jobUnload .. => Edits.execJobUnload .refl
  | .stewardRestart .. => Edits.execStewardRestart .refl
  | .watchdogExpiry => Edits.execWatchdogExpiry .refl
  | .runtimeReady .. => Edits.execRuntimeReady .refl
  | .runtimeStartTimeout => Edits.execRuntimeStartTimeout .refl
  | .imageStagingWrite .. => Edits.execImageStagingWrite .refl
  | .firmwareVerify .. => Edits.execFirmwareVerify .refl
  | .firmwareActivate .. => Edits.execFirmwareActivate .refl
  | .raiseRollbackFloor .. => Edits.execRaiseRollbackFloor .refl
  | .firmwareRevert .. => Edits.execFirmwareRevert .refl
  | .managementSessionHandshake .. => Edits.execManagementSessionHandshake .refl
  | .sessionIdleTimeout .. => Edits.execSessionIdleTimeout .refl
  | .dictionaryRead .. => Edits.execDictionaryRead .refl
  | .dictionaryWrite .. => Edits.execDictionaryWrite .refl
  | .domainWriteSegment .. => Edits.execDomainWriteSegment .refl
  | .domainWriteCommit .. => Edits.execDomainWriteCommit .refl
  | .getVersion .. => Edits.execGetVersion .refl
  | .getCapabilities .. => Edits.execGetCapabilities .refl
  | .negotiateAlgorithms .. => Edits.execNegotiateAlgorithms .refl
  | .getDigests .. => Edits.execGetDigests .refl
  | .getCertificate .. => Edits.execGetCertificate .refl
  | .challenge .. => Edits.execChallenge .refl
  | .getMeasurements .. => Edits.execGetMeasurements .refl
  | .keyExchange .. => Edits.execKeyExchange .refl
  | .finish .. => Edits.execFinish .refl
  | .heartbeat .. => Edits.execHeartbeat .refl
  | .keyUpdate .. => Edits.execKeyUpdate .refl
  | .endSession .. => Edits.execEndSession .refl
  | .mailboxDoorbell .. => Edits.execMailboxDoorbell .refl
  | .tunnelReassemblyTimeout .. => Edits.execTunnelReassemblyTimeout .refl
  | .tunnelResend .. => Edits.execTunnelResend .refl
  | .saveConfiguration .. => Edits.execSaveConfiguration .refl
  | .discardUnsaved .. => Edits.execDiscardUnsaved .refl
  | .restoreFactory .. => Edits.execRestoreFactory .refl
  | .restoreFactoryRepairMaps .. => Edits.execRestoreFactoryRepairMaps .refl
  | .powerOn => Edits.execPowerOn .refl
  | .coldResetInput => Edits.execColdResetInput .refl
  | .coldReset .. => Edits.execColdReset .refl
  | .warmReset .. => Edits.execWarmReset .refl
  | .seamReset .. => Edits.execSeamReset .refl
  | .partitionReset .. => Edits.execPartitionReset .refl
  | .jobReset .. => Edits.execJobReset .refl
  | .portReset .. => Edits.execPortReset .refl
  | .powerRequestHalfPark .. => Edits.execPowerRequestHalfPark .refl
  | .parkTowersIdle => Edits.execParkTowersIdle .refl
  | .parkTowerTimeout => Edits.execParkTowerTimeout .refl
  | .seamDrained => Edits.execSeamDrained .refl
  | .seamDrainTimeout => Edits.execSeamDrainTimeout .refl
  | .powerRequestRun .. => Edits.execPowerRequestRun .refl
  | .powerRequestDeepPark .. => Edits.execPowerRequestDeepPark .refl
  | .powerRequestStewardOnly .. => Edits.execPowerRequestStewardOnly .refl
  | .pgAssert .. => Edits.execPgAssert .refl
  | .pgTimeout .. => Edits.execPgTimeout .refl
  | .railDecayed .. => Edits.execRailDecayed .refl
  | .fabricAdmission .. => Edits.execFabricAdmission .refl
  | .orderlyRemoval .. => Edits.execOrderlyRemoval .refl
  | .removalDrainComplete => Edits.execRemovalDrainComplete .refl
  | .removalNotice .. => Edits.execRemovalNotice .refl
  | .bar2MemoryRead .. => Edits.execBar2MemoryRead .refl
  | .bar2MemoryWrite .. => Edits.execBar2MemoryWrite .refl
  | .atomicopFetchadd .. => Edits.execAtomicopFetchadd .refl
  | .atomicopSwap .. => Edits.execAtomicopSwap .refl
  | .atomicopCas .. => Edits.execAtomicopCas .refl
  | .imageApertureRead .. => Edits.execImageApertureRead .refl
  | .imageApertureWrite .. => Edits.execImageApertureWrite .refl
  | .mordantDoorbellWrite .. => Edits.execMordantDoorbellWrite .refl
  | .mordantDoorbellRead .. => Edits.execMordantDoorbellRead .refl
  | .watchArm .. => Edits.execWatchArm .refl
  | .watchFire .. => Edits.execWatchFire .refl
  | .perstNAssert => Edits.execPerstNAssert .refl
  | .hotReset => Edits.execHotReset .refl
  | .pcieLinkDown => Edits.execPcieLinkDown .refl
  | .functionLevelReset .. => Edits.execFunctionLevelReset .refl
  | .d3hotEntry .. => Edits.execD3hotEntry .refl
  | .ptmRequest .. => Edits.execPtmRequest .refl
  | .managementModeWrite .. => Edits.execManagementModeWrite .refl
  | .smbusReadInsertionState => Edits.execSmbusReadInsertionState .refl
  | .smbusReadPowerState => Edits.execSmbusReadPowerState .refl
  | .smbusReadStatus => Edits.execSmbusReadStatus .refl
  | .smbusReadDieSensor => Edits.execSmbusReadDieSensor .refl
  | .smbusReadDramSensor => Edits.execSmbusReadDramSensor .refl
  | .smbusReadPackagePower => Edits.execSmbusReadPackagePower .refl
  | .smbusReadDeviceId => Edits.execSmbusReadDeviceId .refl
  | .smbusReadSerial => Edits.execSmbusReadSerial .refl
  | .alertResponseAddressRead => Edits.execAlertResponseAddressRead .refl
  | .smbusWrite => Edits.execSmbusWrite .refl
  | .ppsOutPulse => Edits.execPpsOutPulse .refl
  | .ppsInEdge => Edits.execPpsInEdge .refl
  | .testEnRise => Edits.execTestEnRise .refl
  | .testEnFall => Edits.execTestEnFall .refl
  | .bypass => Edits.execBypass .refl
  | .idcode => Edits.execIdcode .refl
  | .samplePreload => Edits.execSamplePreload .refl
  | .extest => Edits.execExtest .refl
  | .clamp => Edits.execClamp .refl
  | .highz => Edits.execHighz .refl
  | .privateInstruction => Edits.execPrivateInstruction .refl
  | .powerLimitCheck .. => Edits.execPowerLimitCheck .refl
  | .coreRailStepDecay .. => Edits.execCoreRailStepDecay .refl
  | .sensorSample .. => Edits.execSensorSample .refl
  | .throttleStep .. => Edits.execThrottleStep .refl
  | .throttleRecoveryStep .. => Edits.execThrottleRecoveryStep .refl
  | .railOutOfRange .. => Edits.execRailOutOfRange .refl
  | .pgDeassert .. => Edits.execPgDeassert .refl
  | .pmbusCommandFailure .. => Edits.execPmbusCommandFailure .refl
  | .stewardRailFailure => Edits.execStewardRailFailure .refl
  | .stwResetNRelease .. => Edits.execStwResetNRelease .refl
  | .perstNDeassert => Edits.execPerstNDeassert .refl
  | .d0Entry .. => Edits.execD0Entry .refl
  | .pcieLinkUp .. => Edits.execPcieLinkUp .refl
  | .managementLinkUp .. => Edits.execManagementLinkUp .refl
  | .managementLinkDown .. => Edits.execManagementLinkDown .refl
  | .managementSessionClose .. => Edits.execManagementSessionClose .refl
  | .notificationRingTailWrite .. => Edits.execNotificationRingTailWrite .refl
  | .computeDieReady .. => Edits.execComputeDieReady .refl
  | .replicaWarningLevel .. => Edits.execReplicaWarningLevel .refl
  | .coreRailVoutCommand .. => Edits.execCoreRailVoutCommand .refl
  | .morReadRegisterWritten .. => Edits.execMorReadRegisterWritten .refl
  | .vecOpComplete .. => Edits.execVecOpComplete .refl
  | .coefficientRequest .. => Edits.execCoefficientRequest .refl

/-! ### An idle nanosecond -/

theorem Edits.tickPort {q : PortId} (hs : Edits may s₀ s) : Edits may s₀ (s.tickPort q) := .ite hs.setPortState hs

theorem Edits.endOfFrame (hs : Edits may s₀ s) : Edits may s₀ s.endOfFrame := .ite hs.beatEnd hs

theorem Edits.tick (hs : Edits true s₀ s) : Edits true s₀ (tick s) := .ite hs (hs.frame.foldl fun _ _ h => h.tickPort).endOfFrame.serveHeld

end
end Sys2Proof.Machine
end

section
/-!
SUPPORT. O53 and O56: every change of a step keeps the canonical forms, and the ones that a command outside `Instr.mayStore` may make leave all that towers and stashes hold.
-/
namespace Sys2Proof.Machine

/-! ### Lists that stay in rising order -/

theorem mem_setAdd {k b : Nat} : ∀ {m : List Nat}, k ∈ setAdd m b → k = b ∨ k ∈ m
  | [], h => .inl (List.mem_singleton.1 h)
  | c :: m, h => by
    unfold setAdd at h
    split at h
    · exact List.mem_cons.1 h
    · split at h
      · exact .inr h
      · rcases List.mem_cons.1 h with rfl | h
        · exact .inr List.mem_cons_self
        · exact (mem_setAdd h).imp id (List.mem_cons_of_mem _)

theorem setAdd_rising {b : Nat} : ∀ {m : List Nat}, m.Pairwise (· < ·) → (setAdd m b).Pairwise (· < ·)
  | [], _ => List.pairwise_singleton _ _
  | c :: m, h => by
    obtain ⟨hc, hm⟩ := List.pairwise_cons.1 h
    unfold setAdd
    split
    · next hbc => exact List.pairwise_cons.2 ⟨List.forall_mem_cons.2 ⟨hbc, fun k hk => hbc.trans (hc k hk)⟩, h⟩
    · split
      · exact h
      · next hbc hne =>
        refine List.pairwise_cons.2 ⟨fun k hk => ?_, setAdd_rising hm⟩
        rcases mem_setAdd hk with rfl | hk
        · omega
        · exact hc k hk

theorem risingFrom_filter {α : Type} (f : Nat × α → Bool) : ∀ {lo : Nat} {m : Sparse α}, risingFrom lo m = true → risingFrom lo (m.filter f) = true
  | _, [], h => h
  | lo, e :: m, h => by
    simp only [risingFrom, Bool.and_eq_true, decide_eq_true_eq] at h
    obtain ⟨hlo, hm⟩ := h
    have hrest := risingFrom_filter f hm
    simp only [List.filter_cons]
    split
    · simp only [risingFrom, hlo, hrest, decide_true, Bool.and_self]
    · exact risingFrom_mono _ _ _ (by omega) hrest

/-! ### What the changes keep -/

theorem State.Canonical.of_kept {s t : State} (h : s.Canonical) (hk : t.kept = s.kept) : t.Canonical := by
  simp only [State.kept, State.stores, Prod.mk.injEq] at hk
  obtain ⟨⟨hmem, hpoison, hstash⟩, hmor, hdict, -⟩ := hk
  exact {
    mem := hmem ▸ h.mem
    poison := hpoison ▸ h.poison
    stashPoison := hstash ▸ h.stashPoison
    mordants := hmor ▸ h.mordants
    regs := by unfold State.regsWf; exact hdict ▸ h.regs }

theorem Edit.canonical {may : Bool} {s t : State} (he : Edit may s t) (h : s.Canonical) : t.Canonical := by
  cases he with
  | other hk => exact h.of_kept hk
  | putReg _ d k v => exact { h with regs := risingFrom_sput d _ 0 k v (Nat.zero_le k) h.regs }
  | dropRegs _ f => exact { h with regs := risingFrom_filter f h.regs }
  | putMor _ m x => exact { h with mordants := State.setMor_wf h.mordants m x }
  | dropMors _ f => exact { h with mordants := filter_swf h.mordants f }
  | log _ _ => exact { h with }
  | hold _ _ => exact { h with }
  | dropHeld _ => exact { h with }
  | ack _ => exact { h with }
  | putByte _ a b => exact { h with mem := State.putByte_wf h.mem a b }
  | putSector _ k v => exact { h with poison := State.setSector_wf h.poison k v }
  | poisonWord _ k => exact { h with stashPoison := setAdd_rising h.stashPoison }
  | dropBytes _ f g p => exact { h with mem := filter_swf h.mem f, poison := filter_swf h.poison g, stashPoison := h.stashPoison.filter p }

theorem Edits.canonical {may : Bool} {s t : State} (he : Edits may s t) (h : s.Canonical) : t.Canonical := by
  induction he with
  | refl => exact h
  | tail _ hedit ih => exact hedit.canonical ih

/-- Without leave to store, no change touches towers or stashes. -/
theorem Edit.stores_of_not_may {s t : State} (he : Edit false s t) : t.stores = s.stores := by
  cases he with
  | other hk => exact congrArg Prod.fst hk
  | _ => rfl

theorem Edits.stores_of_not_may {s t : State} (he : Edits false s t) : t.stores = s.stores := by
  induction he with
  | refl => rfl
  | tail _ hedit ih => exact hedit.stores_of_not_may.trans ih

/-- A step is the first waiting command, or an idle nanosecond. -/
theorem step_canonical {s t : State} (h : s.Canonical) (hstep : step s = .next t) : t.Canonical := by
  unfold step at hstep
  split at hstep
  · next c rest _ => exact (exec_edits { s with pending := rest } c t hstep).canonical { h with }
  · cases hstep
    exact (Edits.tick .refl).canonical h

/-- Settles O53: every change that a step makes keeps the canonical forms (`Edit.canonical`), and a step is a sequence of such changes. -/
theorem stateStaysCanonical : Obligations.StateStaysCanonical := by
  unfold Obligations.StateStaysCanonical
  exact fun _ _ h hstep => step_canonical h hstep

/-- Settles O56: the changes of a command outside `Instr.mayStore` leave all that towers and stashes hold. -/
theorem memoryFrame : Obligations.MemoryFrame := by
  unfold Obligations.MemoryFrame
  intro c s t hc hexec
  have hedits : Edits false s t := hc ▸ exec_edits s c t hexec
  have hstores : (t.mem, t.poison, t.stashPoison) = (s.mem, s.poison, s.stashPoison) := hedits.stores_of_not_may
  obtain ⟨hmem, hpoison, hstash⟩ := by simpa only [Prod.mk.injEq] using hstores
  exact ⟨fun a => by rw [State.byte, hmem, State.byte], fun a => by rw [State.sector, hpoison, State.sector], hstash⟩

end Sys2Proof.Machine
end

section
/-!
SUPPORT. The Madder engines: a descriptor that arrives, what one group of the running descriptor answers, a write that meets a secured block, and the end of a descriptor (R165,
R179, R180, R182 to R185, R187, R190).
-/
namespace Sys2Proof.Machine

/-! ### One group -/

section
variable {e : MemEcc} {t : Twr} {p : Part} {d d1 : DescRec} {n : Nat} {s s1 s2 : State}

/-- Past its checks, or without any where it has had them, a descriptor does its group. -/
theorem madderTry_of_started (hstart : (if d.checked then .ok (d, s) else madderStart e t p d s) = Except.ok (d1, s1)) :
    madderTry e t p d n s = madderMove e (towerSite t 0 d.st.val d.pc) d1 n s1 := by
  unfold madderTry
  split at hstart
  · next hchecked =>
    cases hstart
    simp only [hchecked, if_true, bind, Except.bind]
  · next hnew => simp only [if_neg hnew, hstart, bind, Except.bind]

/-- A group that is read and updated is written up to the first secured block, and the station's status takes its flags. -/
theorem madderTry_of_ok {es : List Elem} (hstart : (if d.checked then .ok (d, s) else madderStart e t p d s) = Except.ok (d1, s1))
    (hgroup : groupElems e (towerSite t 0 d.st.val d.pc) d1 n s1 = .ok (es, s2)) {fl : Fl}
    (hfl : fl = if d1.skip then Fl.none else es.foldl (fun f e => f.or e.fl) (groupCopies d1 es).2) {o : List (Nat × List Byte) × State}
    (ho : o = madderFlow e (madderGroup d1 n es) s2) :
    madderTry e t p d n s = .ok ({ d1 with done := d1.done + n, hold := false, wq := o.1 }, o.2.orStatus d1.st fl.ovf fl.nv) := by
  subst hfl ho
  simp only [madderTry_of_started hstart, madderMove, hgroup, bind, Except.bind]
  rfl

theorem madderTry_of_start_fault {c dt : Nat} {x : Site} (hnew : d.checked = false) (hstart : madderStart e t p d s = .error (.fault s1 c dt x)) :
    madderTry e t p d n s = .error (.fault s1 c dt x) := by
  simp only [madderTry, hnew, Bool.false_eq_true, if_false, hstart, bind, Except.bind]

theorem madderTry_of_group_fault {c dt : Nat} {x : Site} (hstart : (if d.checked then .ok (d, s) else madderStart e t p d s) = Except.ok (d1, s1))
    (hgroup : groupElems e (towerSite t 0 d.st.val d.pc) d1 n s1 = .error (.fault s2 c dt x)) : madderTry e t p d n s = .error (.fault s2 c dt x) := by
  simp only [madderTry_of_started hstart, madderMove, hgroup, bind, Except.bind]

end

/-! ### The running descriptor -/

section
variable {mode : Nat} {s : State} {t : Twr} {p : Part} {e : MemEcc} {d : DescRec} {rest : List DescRec}
  (hq : vget (s.twr t).mq p = d :: rest) (hmode : mdMode d = mode ∨ mode = 0 ∧ 1 < mdMode d) (hup : s.engineUp t p = true) (hwq : d.wq = [])
  (hmore : d.checked = true → d.done < mdCount d) (hopen : d.checked = false → s.awaitsOpen p (mdStep d) = false)
include hmode hup hwq hmore hopen

/-- Nothing keeps the descriptor at the head from its next group. -/
theorem madder_not_idle : (mdMode d ≠ mode && !(mode = 0 && 1 < mdMode d) || !s.engineUp t p || d.wq ≠ [] || (!d.checked && s.awaitsOpen p (mdStep d)) ||
    (d.checked && mdCount d ≤ d.done)) = false := by
  simp only [hup, hwq, Bool.not_true, Bool.or_false, ne_eq, not_true_eq_false, decide_false, Bool.or_eq_false_iff, Bool.and_eq_false_imp, decide_eq_true_eq,
    decide_eq_false_iff_not, Nat.not_le, Bool.not_eq_false', Bool.and_eq_true, Bool.not_eq_true']
  exact ⟨⟨hmode.resolve_left, hopen⟩, hmore⟩

include hq

/-- A step beyond the lost-step bound waits and raises HOLD (R185). -/
theorem madderRun_of_blocked (hnew : d.checked = false) (hclean : d.poison = false) (hok : madderOk s t p d = true) (hblocked : s.stepBlocked p (mdStep d) = true)
    (hhold : d.hold = false) : madderRun mode t p e s = .next ((s.setMq t p ({ d with hold := true } :: rest)).count 0x9091 (p.val + 1)) := by
  have hwaits : (!d.checked && !d.poison && madderOk s t p d && s.stepBlocked p (mdStep d)) = true := by
    simp only [hnew, hclean, hok, hblocked, Bool.not_false, Bool.and_self]
  simp only [madderRun_eq, hq, madder_not_idle hmode hup hwq hmore hopen, hwaits, hhold, if_true, Bool.false_eq_true, if_false, next]

variable (hfree : d.checked = true ∨ d.poison = false ∧ madderOk s t p d = true → s.madderFree d (min 1024 (mdCount d - d.done)) = true)
  (hheld : (s.prt p).held = true → d.hold = true)
  (hstep : d.checked = false → d.poison = false → madderOk s t p d = true → s.stepBlocked p (mdStep d) = false)
include hfree hheld hstep

/-- Where nothing keeps it waiting the descriptor does its next group. -/
theorem madderRun_of_free : madderRun mode t p e s =
    match madderTry e t p d (min 1024 (mdCount d - d.done)) s with
    | .ok (d, s) => .next (s.setMq t p (d :: rest))
    | .error (.wait _) => noEvent s
    | .error (.fault s1 c dt x) => .next ((s1.setMq t p rest).raise (some p) c dt x) := by
  have hfits : (!d.checked && !d.poison && madderOk s t p d && s.stepBlocked p (mdStep d)) = false := by
    simpa only [Bool.and_eq_false_imp, Bool.and_eq_true, Bool.not_eq_true', and_imp] using hstep
  have hgoes : ((s.prt p).held && !d.hold || (d.checked || (!d.poison && madderOk s t p d)) && !s.madderFree d (min 1024 (mdCount d - d.done))) = false := by
    simp only [Bool.or_eq_false_iff, Bool.and_eq_false_imp, Bool.not_eq_false', Bool.or_eq_true, Bool.and_eq_true, Bool.not_eq_true']
    exact ⟨hheld, hfree⟩
  simp only [madderRun_eq, hq, madder_not_idle hmode hup hwq hmore hopen, hfits, hgoes, Bool.false_eq_true, if_false]
  rfl

theorem madderRun_of_ok {d' : DescRec} {s' : State} (htry : madderTry e t p d (min 1024 (mdCount d - d.done)) s = .ok (d', s')) :
    madderRun mode t p e s = .next (s'.setMq t p (d' :: rest)) := by
  rw [madderRun_of_free hq hmode hup hwq hmore hopen hfree hheld hstep, htry]

/-- The descriptor that faults leaves the queue. -/
theorem madderRun_of_fault {s' : State} {c dt : Nat} {x : Site} (htry : madderTry e t p d (min 1024 (mdCount d - d.done)) s = .error (.fault s' c dt x)) :
    madderRun mode t p e s = .next ((s'.setMq t p rest).raise (some p) c dt x) := by
  rw [madderRun_of_free hq hmode hup hwq hmore hopen hfree hheld hstep, htry]

end

/-! ### Secured blocks and the end of a descriptor -/

section
variable {s : State} {t : Twr} {p : Part} {e : MemEcc} {d : DescRec} {rest : List DescRec} (hq : vget (s.twr t).mq p = d :: rest)
include hq

/-- The write that waits at a secured block goes by Table 06-6, and the group goes on after it; without a slot of the pool it waits with HOLD raised. -/
theorem securedBlockWrite_of_free {w : Nat × List Byte} {l : List (Nat × List Byte)} (hwq : d.wq = w :: l) (hup : s.engineUp t p = true)
    (hfree : ∀ a ∈ s.madderPlaces w.1, s.channelFree a w.2.length = true) :
    exec (.securedBlockWrite t p e) s = match s.madderWrite e w.1 w.2 with
      | some s1 => .next ((madderFlow e l s1).2.setMq t p ({ d with hold := false, wq := (madderFlow e l s1).1 } :: rest))
      | none => .next (s.setMq t p ({ d with hold := true } :: rest)) := by
  have hplaces : ((s.madderPlaces w.1).all fun a => s.channelFree a w.2.length) = true := List.all_eq_true.2 hfree
  simp only [exec_securedBlockWrite, execSecuredBlockWrite, hq, hwq, hup, hplaces, Bool.not_true, Bool.or_self, Bool.false_eq_true, if_false]
  rfl

theorem madderComplete_of_done (hchecked : d.checked = true) (hdone : mdCount d ≤ d.done) (hwq : d.wq = []) :
    exec (.madderComplete t p) s = .next { s.modTwr t fun x => { x with mq := vset x.mq p rest, settled := vset x.settled p (vget x.maxStep p) } with
      morOps := s.morOps ++ [⟨none, p, BitVec.ofNat 16 (dfld d 287 272), false, 1, false⟩] } := by
  simp only [exec_madderComplete, execMadderComplete, hq, hchecked, hdone, hwq, decide_true, Bool.and_self, if_true]
  rfl

end

/-- The instruction of each mode is a run in that mode. -/
theorem exec_madder_of_mode {mode : Nat} {c : Twr → Part → MemEcc → Instr} (hc : mode = 0 ∧ c = Instr.madderAdaptiveUpdate ∨ mode = 1 ∧ c = Instr.madderMomentumUpdate)
    (t : Twr) (p : Part) (e : MemEcc) (s : State) : exec (c t p e) s = madderRun mode t p e s := by
  obtain ⟨rfl, rfl⟩ | ⟨rfl, rfl⟩ := hc
  · exact exec_madderAdaptiveUpdate t p e s
  · exact exec_madderMomentumUpdate t p e s

/-- Settles O21: arrivals take the first free descriptor (`takeDesc_of_first`); a run answers as its group goes (`madderRun_of_ok`, `madderRun_of_fault`), and a write at a secured
block as `madderWrite` does. -/
theorem madderEngineRuns : Obligations.MadderEngineRuns := by
  unfold Obligations.MadderEngineRuns
  refine ⟨fun s t d pre post hs hd hfree hpre hup => ?_, fun mode c s t p e d rest hc hq hmode hup hwq hmore hfree hopen hheld => ?_,
    fun s t p d rest hq hchecked hdone hwq => madderComplete_of_done hq hchecked hdone hwq, fun s t p e d rest w l hq hwq hup hfree => ?_⟩
  · have harrive := State.takeDesc_of_first hs hd hfree hpre
    simp only [exec_madderDescriptorArrival, execMadderDescriptorArrival, harrive, hup, Bool.not_true, Bool.false_eq_true, if_false]
    exact ⟨fun hjob => if_pos hjob, fun hjob => if_neg (Bool.eq_false_iff.1 hjob)⟩
  · rw [exec_madder_of_mode hc]
    refine ⟨fun s1 s2 d1 es fl o hstep hstart hgroup hfl ho => ?_, fun hnew hclean hok hblocked hhold => ?_, fun s1 n dt x hnew hstep hstart => ?_,
      fun s1 s2 d1 n dt x hstep hstart hgroup => ?_⟩
    · exact madderRun_of_ok hq hmode hup hwq hmore hopen hfree hheld hstep (madderTry_of_ok hstart hgroup hfl ho)
    · exact madderRun_of_blocked hq hmode hup hwq hmore hopen hnew hclean hok hblocked hhold
    · exact madderRun_of_fault hq hmode hup hwq hmore hopen hfree hheld (fun _ => hstep) (madderTry_of_start_fault hnew hstart)
    · exact madderRun_of_fault hq hmode hup hwq hmore hopen hfree hheld hstep (madderTry_of_group_fault hstart hgroup)
  · have hwrite := securedBlockWrite_of_free (e := e) hq hwq hup hfree
    exact ⟨fun s1 h => by rw [hwrite, h], fun h => by rw [hwrite, h]⟩

end Sys2Proof.Machine
end

section
/-!
SUPPORT. A tower lost with windows of two jobs that have ended (R174): neither record waits for the end of the beat.
-/
namespace Sys2Proof.Machine

/-- Partitions 0 and 1 hold 16 MiB each of tower 0, and the job of each has ended and is still loaded. -/
def towerShared : State :=
  { State.reset with
    parts := ⟨#[{ Partition.reset with jobState := 6 }, { Partition.reset with jobState := 6 }, Partition.reset, Partition.reset], rfl⟩
    doms := [(odKey 0x2140 1, [0, 0, 1, 0x80]), (odKey 0x2140 2, [1, 0, 1, 0x80])] }

theorem towerShared_up : towerShared.towerUp 0 = true := by decide

theorem towerShared_windows : (towerShared.towerWindow 0 0).isSome = true ∧ (towerShared.towerWindow 1 0).isSome = true := by decide

theorem towerShared_loaded : towerShared.loaded 0 = true ∧ towerShared.loaded 1 = true := by decide

/-- Neither job is live, so neither fault waits for the end of the beat (R18). -/
theorem towerShared_beat {t : State} (h : exec (.towerLoss 0) towerShared = .next t) : t.beat = [] := by
  cases h
  decide

/-- Refutes O23: a tower with windows of two jobs that have ended and are still loaded has both records written at once as it is lost, so that only one is the newest of the log
(`Records.part_unique`). -/
theorem not_towerUpkeep : ¬ Obligations.TowerUpkeep := by
  unfold Obligations.TowerUpkeep
  rintro ⟨-, -, hloss⟩
  obtain ⟨t, hexec, -, -, hfirst⟩ := hloss towerShared 0 0 towerShared_up towerShared_windows.1 towerShared_loaded.1 rfl
  obtain ⟨u, hexec', -, -, hsecond⟩ := hloss towerShared 0 1 towerShared_up towerShared_windows.2 towerShared_loaded.2 rfl
  obtain rfl : t = u := Host.Outcome.next.inj (hexec.symm.trans hexec')
  exact absurd (Records.part_unique (towerShared_beat hexec) hfirst hsecond) (by decide)

end Sys2Proof.Machine
end

section
/-!
SUPPORT. A securing epoch in a tower: the drain of the block whose turn it is, what a drained block becomes, and the way home of a marked granule (Table 06-6, R186 to R190, R438).
-/
namespace Sys2Proof.Machine

/-- A drain read of the block whose turn it is takes all of it into the image, and for the partner's tier sends it on. -/
theorem drainRead_of_next {s : State} {t : Twr} {p : Part} {k : Nat} {ecc : MemEcc} {e : TowerEpoch} {i : Image} {b : SecBlock} (hepoch : vget (s.twr t).epochs p = some e)
    (himage : (s.sec p).epoch = some i) (hb : e.blocks[k]? = some b) (hlive : e.aborted = false) (hleft : b.drained = false) (hnext : nextDrain e = some k)
    (hmaint : s.maintenance = false) (hup : s.towerUp t = true) (hhalf : s.halfUp (towerHalf t) = true) (htier : s.tierTakes p i.tier = true)
    (hrun : s.drainRun p t i.tier = true) {s1 s3 : State} (h1 : s1 = s.sectorsRead t ecc b.addr 65536)
    (h3 : s3 = (s1.modBlock t p k fun b => { b with reads := [(0, 65536)] }).modSec p fun x => { x with epoch := some { i with
      crcs := i.crcs ++ [(s1.imageIndex p t k, BitVec.ofNat 32 (crc32c (rawBytes (s1.memRead b.addr 65536))))]
      poisoned := i.poisoned || anyPoison (s1.memRead b.addr 65536) } }) :
    exec (.drainRead t p k ecc) s = .next (if i.tier = 0 then s3.sendPartner p t k (s1.memRead b.addr 65536) else s3) := by
  have hgoes : (e.aborted || b.drained || nextDrain e ≠ some k || s.maintenance || !s.towerUp t || !s.halfUp (towerHalf t) || !s.tierTakes p i.tier ||
      !s.drainRun p t i.tier) = false := by
    simp only [hlive, hleft, hnext, hmaint, hup, hhalf, htier, hrun, ne_eq, not_true_eq_false, decide_false, Bool.not_true, Bool.or_self]
  subst h1 h3
  simp only [exec_drainRead, execDrainRead, hepoch, himage, hb, hgoes, Bool.false_eq_true, if_false]
  rfl

section
variable {s : State} {t : Twr} {p : Part} {k : Nat} {e : TowerEpoch} {b : SecBlock} (hepoch : vget (s.twr t).epochs p = some e) (hb : e.blocks[k]? = some b)
include hepoch hb

/-- The block of the epoch that a command names. -/
theorem epoch_block : ((vget (s.twr t).epochs p).bind fun e => e.blocks[k]?) = some b := by
  rw [hepoch, Option.bind_some, hb]

/-- A Pending block that is drained is Out, and the raises of checked descriptors that waited for it end. -/
theorem blockDrainComplete_of_pending (hread : spansFull b.reads 65536 = true) (hst : b.st = .pending) :
    exec (.blockDrainComplete t p k) s = .next (State.noteEpoch s p
      ((((s.modBlock t p k fun b => { b with st := .out }).closeEpoch t p).dropHold t p fun d => d.checked).sendCommit p)) := by
  simp only [exec_blockDrainComplete, execBlockDrainComplete, epoch_block hepoch hb, hread, hst, Bool.not_true, Bool.false_eq_true, if_false]
  rfl

/-- A Shadowed block that is drained is Returning. -/
theorem blockDrainComplete_of_shadowed (hread : spansFull b.reads 65536 = true) (hst : b.st = .shadowed) :
    exec (.blockDrainComplete t p k) s = .next (State.noteEpoch s p ((s.modBlock t p k fun b => { b with st := .returning }).sendCommit p)) := by
  simp only [exec_blockDrainComplete, execBlockDrainComplete, epoch_block hepoch hb, hread, hst, Bool.not_true, Bool.false_eq_true, if_false]
  rfl

/-- A marked granule is copied from its slot to its home and loses its mark; with the last mark the block is Out and its slot is free. -/
theorem copyBackGranule_of_free {j : Nat} {g : Fin 16} {ecc : MemEcc} {s1 : State} {from_ home : Nat} (hst : b.st = .returning) (hslot : b.slot = some j)
    (hmark : b.marks.contains g.val = true) (hup : s.towerUp t = true) (hhalf : s.halfUp (towerHalf t) = true) (hfrom : from_ = s.slotAddr t p j + g.val * 4096)
    (hhome : home = b.addr + g.val * 4096) (hfree : ∀ a ∈ [from_, home], s.channelFree a 4096 = true ∧ s.engineWants a = false)
    (h1 : s1 = (s.sectorsRead t ecc from_ 4096).copyGranule from_ home) :
    exec (.copyBackGranule t p k g ecc) s = .next (State.noteEpoch s1 p (((s1.modBlock t p k fun _ =>
      if setDel b.marks g.val = [] then { b with marks := [], slot := none, st := .out } else { b with marks := setDel b.marks g.val }).closeEpoch t p).dropHold t p
      fun d => setDel b.marks g.val = [] && d.checked)) := by
  have hchannels : ([from_, home].all fun a => s.channelFree a 4096 && !s.engineWants a) = true := by
    simpa only [List.all_eq_true, Bool.and_eq_true, Bool.not_eq_true'] using hfree
  simp only [exec_copyBackGranule, execCopyBackGranule, epoch_block hepoch hb, hst, hslot, ← hfrom, ← hhome, ← h1, hmark, hup, hhalf, hchannels, Bool.not_true, Bool.or_self,
    Bool.false_eq_true, if_false, next]

end

/-- Settles O24: `drainRead_of_next`, `blockDrainComplete_of_pending`, `blockDrainComplete_of_shadowed`, and `copyBackGranule_of_free` with a mark left or none. -/
theorem drainsAndCopyBack : Obligations.DrainsAndCopyBack := by
  unfold Obligations.DrainsAndCopyBack
  refine ⟨fun s s1 s2 s3 t p k ecc e i b hepoch himage hb hlive hleft hnext hmaint hup hhalf htier hrun h1 h2 h3 => ?_, fun s t p k e b hepoch hb hread => ?_,
    fun s s1 t p k j g ecc e b hepoch hb hst hslot hmark hup hhalf hfree h1 => ?_⟩
  · exact drainRead_of_next hepoch himage hb hlive hleft hnext hmaint hup hhalf htier hrun h1 (h2 ▸ h3)
  · exact ⟨blockDrainComplete_of_pending hepoch hb hread, blockDrainComplete_of_shadowed hepoch hb hread⟩
  · have hcopy := copyBackGranule_of_free hepoch hb hst hslot hmark hup hhalf rfl rfl hfree h1
    refine ⟨fun hleft => ?_, fun hlast => ?_⟩
    · simpa only [hleft, if_false, decide_false, Bool.false_and] using hcopy
    · simpa only [hlast, if_true, decide_true, Bool.true_and] using hcopy

end Sys2Proof.Machine
end

section
/-!
SUPPORT. Open blocks: what each one for this device does in the partition that it names, the landing window, and the way on to another device (R338, R342, R344, R351 to R354).
-/
namespace Sys2Proof.Machine

section
variable {s s' : State} {q : PortId} {tt : Nat} {b : Block} {p : Part} {f : State → Part → Block → State}
  (hhead : (s.takeOpen q fun b => bits b.net 47 44 = tt && blkDev b = s.reg 0x1020 0) = some (b, s')) (hp : p = fin (bits b.net 27 26))
include hhead hp

/-- An open block that nothing holds back acts in the partition that it names. -/
theorem atOpen_of_loaded (hloaded : s'.loaded p = true) (hfree : s'.blockWaits q b = false) : atOpen tt q s f = .next (f s' p b) := by
  subst hp
  simp only [atOpen, hhead, hloaded, hfree, Bool.not_true, Bool.false_eq_true, if_false, next]

theorem atOpen_of_unloaded (hloaded : s'.loaded p = false) : atOpen tt q s f = .next (s'.count 0x9082 (p.val + 1)) := by
  subst hp
  simp only [atOpen, hhead, hloaded, Bool.not_false, if_true, next]

end

/-- Every kind of open block goes through the same checks, each with its own effect. -/
theorem exec_atOpen {s' f' : State} {q : PortId} {tt : Nat} {c : Instr} {ecc : MemEcc} {p : Part} {b : Block}
    (h : (tt, c, f') = (8, Instr.openWrite q ecc, s'.openWrite ecc p q b) ∨ (tt, c, f') = (9, Instr.openReadRequest q ecc, s'.respond ecc p q b openRoute) ∨
      (tt, c, f') = (0xA, Instr.openReadResponse q, s'.fetchBlock p q (bits b.net 23 19) (bits b.net 18 14) (bits b.net 13 0) b) ∨
      (tt, c, f') = (0xB, Instr.openMordantAdd q, s'.remoteMor p q b (bits b.net 23 8) false) ∨
      (tt, c, f') = (0xC, Instr.openMordantSet q, s'.remoteMor p q b (bits b.net 23 8) true)) (s : State) :
    ∃ f, exec c s = atOpen tt q s f ∧ f s' p b = f' := by
  obtain h | h | h | h | h := h <;> cases h
  · exact ⟨_, exec_openWrite q ecc s, rfl⟩
  · exact ⟨_, exec_openReadRequest q ecc s, rfl⟩
  · exact ⟨_, exec_openReadResponse q s, rfl⟩
  · exact ⟨_, exec_openMordantAdd q s, rfl⟩
  · exact ⟨_, exec_openMordantSet q s, rfl⟩

/-! ### The landing window -/

section
variable {s : State} {p : Part} {b : Block} {n : Nat} (hlen : blockLen (bit b.net 0) b.data = some n)
include hlen

theorem State.openWrite_of_inside (ecc : MemEcc) (q : PortId) (hopen : bit (s.reg 0x5201 (p.val + 1)) 63 = true)
    (hin : bits b.net 23 1 * 16 + n ≤ bits (s.reg 0x5201 (p.val + 1)) 59 32 * 16) :
    s.openWrite ecc p q b = (s.blockWrite ecc p q b (bits (s.reg 0x5201 (p.val + 1)) 31 0 * 16 + bits b.net 23 1 * 16) (bit b.net 0)).1 := by
  simp only [State.openWrite, hlen, Option.getD_some, hopen, Nat.not_lt.2 hin, Bool.not_true, decide_false, Bool.or_self, Bool.false_eq_true, if_false]

theorem State.openWrite_of_outside (ecc : MemEcc) (q : PortId)
    (hout : bit (s.reg 0x5201 (p.val + 1)) 63 = false ∨ bits (s.reg 0x5201 (p.val + 1)) 59 32 * 16 < bits b.net 23 1 * 16 + n) :
    s.openWrite ecc p q b = s.faultPort p q := by
  simp only [State.openWrite, hlen, Option.getD_some]
  exact if_pos (by simpa using hout)

end

/-! ### Blocks for another device -/

section
variable {s s' : State} {q : PortId} {b : Block} {e : Nat} (hhead : (s.takeOpen q fun b => blkDev b ≠ s.reg 0x1020 0) = some (b, s'))
  (he : e = domNat (s'.dom 0x5200 0) (blkDev b) 1)
include hhead he

/-- It leaves on the port of its route entry, on the odd channel where the entry changes channels. -/
theorem openBlockForward_of_up (hvalid : bit e 7 = true) (hport : bits e 4 0 ≤ 27) (hup : s'.portUp (fin (bits e 4 0)) = true) {vc : Nat}
    (hvc : vc = if bit e 6 then bits b.net 25 24 / 2 * 2 + 1 else bits b.net 25 24) :
    exec (.openBlockForward q) s = .next (s'.modPort (fin (bits e 4 0)) fun x => { x with outOpen := vmod x.outOpen (fin vc) fun l => l ++ [b.onChannel vc] }) := by
  subst he hvc
  simp only [exec_openBlockForward, execOpenBlockForward, hhead, hvalid, hup, Nat.not_lt.2 hport, Bool.not_true, decide_false, Bool.or_self, Bool.false_eq_true, if_false, next]

/-- Without an entry, or with the port of its entry not UP, it is discarded and counted. -/
theorem openBlockForward_of_dead (hdead : bit e 7 = false ∨ 27 < bits e 4 0 ∨ s'.portUp (fin (bits e 4 0)) = false) :
    exec (.openBlockForward q) s = .next (s'.count 0x9080 (q.val + 1)) := by
  subst he
  simp only [exec_openBlockForward, execOpenBlockForward, hhead, next]
  obtain h | h | h := hdead
  · simp only [h, Bool.not_false, Bool.true_or, if_true]
  · simp only [h, decide_true, Bool.or_true, if_true]
  · simp only [h, Bool.not_false, if_true, ite_self]

end

/-- Settles O35: an open block for this device acts or is counted (`atOpen_of_loaded`, `atOpen_of_unloaded`), a write by its landing window; any other goes on or is discarded
(`openBlockForward_of_up`, `openBlockForward_of_dead`). -/
theorem openTraffic : Obligations.OpenTraffic := by
  unfold Obligations.OpenTraffic
  refine ⟨fun s s' q b p tt ecc c f' hc hhead hp => ?_, fun s q p b n ecc hlen => ⟨fun hout => ?_, State.openWrite_of_inside hlen ecc q⟩,
    fun s s' q b e hhead he => ⟨fun hvalid hport hup vc => openBlockForward_of_up hhead he hvalid hport hup, openBlockForward_of_dead hhead he⟩⟩
  · obtain ⟨f, hexec, rfl⟩ := exec_atOpen hc s
    exact ⟨fun hloaded hfree => hexec.trans (atOpen_of_loaded hhead hp hloaded hfree), fun hloaded => hexec.trans (atOpen_of_unloaded hhead hp hloaded)⟩
  · rw [State.openWrite_of_outside hlen ecc q hout]
    exact s.faultPort_records p q

end Sys2Proof.Machine
end

section
/-!
SUPPORT. The frame of issue: the checks of an instruction let it issue with a change of its station alone, and what else issue answers is nothing or a fault (R216 to R219, R250, R253).
-/
namespace Sys2Proof.Machine

/-- What the end of a beat may change is no part of what issue leaves alone. -/
theorem EndOnly.keptAtIssue {s t : State} (h : EndOnly s t) : KeptAtIssue s t :=
  ⟨h.mem, h.poison, h.stashPoison, h.mordants, h.writes, h.morOps, h.descs, h.xfers, h.time, h.clk, h.pwr, h.perst, h.ports, h.fab, h.doms, h.savedDoms, h.draws, h.pending⟩

/-! ### The checks of an instruction -/

/-- `t` differs from `s` at most in its stations. -/
def StationsOnly (s t : State) : Prop := t = { s with stations := t.stations }

theorem StationsOnly.ends {s t : State} (h : StationsOnly s t) : EndOnly s t := by
  unfold StationsOnly at h; unfold EndOnly; rw [h]

/-- Where its checks let an instruction issue, they change the stations alone. -/
def ChecksStations (s : State) (c : Chk) : Prop := ∀ t n, c = .ok t n → StationsOnly s t

namespace ChecksStations
variable {s : State}

theorem fault {l : Nat} : ChecksStations s (.fault l) := fun _ _ h => nomatch h

theorem ite {c : Prop} [Decidable c] {x y : Chk} (h : ChecksStations s x) (h' : ChecksStations s y) : ChecksStations s (if c then x else y) := by
  split <;> assumption

theorem ctlStep {st : St} {npc : Nat} {f : Seqr → Seqr} : ChecksStations s (ctlStep s st npc f) := by
  rintro _ _ ⟨⟩
  rfl

theorem enqueue {st : St} {e : Entry} : ChecksStations s (enqueue s st e) := by
  rintro _ _ ⟨⟩
  rfl

theorem enqueue_modSt {st : St} {f : Station → Station} {e : Entry} : ChecksStations s (Machine.enqueue (s.modSt st f) st e) := by
  rintro _ _ ⟨⟩
  rfl

end ChecksStations

/-! ### Issue -/

/-- Every next state differs from `s` at most in what the end of a beat may change. -/
def AnswersEnd (s : State) (o : Host.Outcome State Fault Refusal) : Prop := ∀ t, o = .next t → EndOnly s t

theorem AnswersEnd.next {s t : State} (h : EndOnly s t) : AnswersEnd s (next t) := by
  rintro _ ⟨⟩
  exact h

theorem AnswersEnd.ite {c : Prop} [Decidable c] {s : State} {o o' : Host.Outcome State Fault Refusal} (h : AnswersEnd s o) (h' : AnswersEnd s o') :
    AnswersEnd s (if c then o else o') := by
  split <;> assumption

theorem State.faultWord_only (s : State) (st : St) : EndOnly s (s.faultWord st) := (s.faultPoison_only _ _ _).ends.trans (State.modSt_only _ _ _)

/-- Whatever issue answers, its outcomes (`issue_cases`) change what a fault changes, or the station. -/
theorem issue_answersEnd {op : Nat} {body : State → Part → St → Entry → Chk} {s : State} {st : St} (hbody : ∀ p e, ChecksStations s (body s p st e)) :
    AnswersEnd s (issue op body s st) := by
  intro t h
  obtain rfl | ⟨l, rfl⟩ | (rfl | rfl) | ⟨p, w, s', npc, -, -, -, hb, rfl⟩ := issue_cases op body s t st h
  · exact .refl t
  · exact (s.faultIssue_only _ _ _).ends
  · exact (s.faultPoison_only _ _ _).ends
  · exact s.faultWord_only st
  · exact (hbody p _ _ _ hb).ends.trans (State.modSt_only _ _ _)

section
variable (st : St) (s : State)

/-! ### Control -/

theorem execCtlNop_answersEnd (bad : SramWord) : AnswersEnd s (execCtlNop st bad s) := fun t h =>
  (s.modSt_only st _).trans (issue_answersEnd (fun _ _ => .ctlStep) t h)

theorem execCtlLi_answersEnd : AnswersEnd s (execCtlLi st s) := issue_answersEnd fun _ _ => .ctlStep

theorem execCtlAdd_answersEnd : AnswersEnd s (execCtlAdd st s) := issue_answersEnd fun _ _ => .ctlStep

theorem execCtlBr_answersEnd : AnswersEnd s (execCtlBr st s) := issue_answersEnd fun _ _ => .ite .fault (.ite .fault .ctlStep)

theorem execCtlBase_answersEnd : AnswersEnd s (execCtlBase st s) := issue_answersEnd fun _ _ => .ctlStep

theorem execCtlEnd_answersEnd : AnswersEnd s (execCtlEnd st s) := issue_answersEnd fun _ _ => .ctlStep

theorem execUnlistedOpcode_answersEnd : AnswersEnd s (execUnlistedOpcode st s) := by
  have hfault : AnswersEnd s (next (s.faultIssue st noLoc2 (s.stn st).sq.pc)) := .next (s.faultIssue_only _ _ _).ends
  unfold execUnlistedOpcode
  split
  · exact .next (.refl s)
  · exact .ite hfault (.ite (.next (s.faultWord_only st)) (.ite (.next (.refl s)) hfault))

/-! ### Vats -/

theorem execVatOpen_answersEnd : AnswersEnd s (execVatOpen st s) := issue_answersEnd fun _ _ => .ite .fault (.ite .fault .enqueue_modSt)

theorem execVatFetch_answersEnd : AnswersEnd s (execVatFetch st s) := issue_answersEnd fun _ _ => by
  dsimp only
  split
  · exact .fault
  · refine .ite .fault ?_
    split
    · exact .fault
    · exact .ite .fault (.ite .fault (.ite .fault (.ite .fault (.ite .fault .enqueue_modSt))))

theorem execVatPut_answersEnd : AnswersEnd s (execVatPut st s) := issue_answersEnd fun _ _ => by
  dsimp only
  split
  · exact .fault
  · refine .ite .fault ?_
    split
    · exact .fault
    · exact .ite .fault (.ite .fault (.ite .fault (.ite .fault .enqueue_modSt)))

theorem execVatCancel_answersEnd : AnswersEnd s (execVatCancel st s) := issue_answersEnd fun _ _ => by
  dsimp only
  split
  · exact .fault
  · exact .ite .fault .enqueue_modSt

theorem execVatClose_answersEnd : AnswersEnd s (execVatClose st s) := issue_answersEnd fun _ _ => .ite .fault .enqueue_modSt

/-! ### The ring -/

theorem execRingFeed_answersEnd : AnswersEnd s (execRingFeed st s) := issue_answersEnd fun _ _ => by
  refine .ite .fault ?_
  split
  · exact .fault
  · refine .ite .fault ?_
    split
    · exact .fault
    · exact .enqueue_modSt

theorem execRingTake_answersEnd : AnswersEnd s (execRingTake st s) := issue_answersEnd fun _ _ => by
  dsimp only
  split
  · exact .fault
  · refine .ite .fault ?_
    split
    · exact .fault
    · exact .enqueue_modSt

theorem execRingAdd_answersEnd : AnswersEnd s (execRingAdd st s) := issue_answersEnd fun _ _ => by
  refine .ite .fault (.ite .fault (.ite .enqueue ?_))
  split
  · exact .fault
  · exact .ite .fault .enqueue_modSt

/-! ### The array and the accumulators -/

theorem execArrShape_answersEnd : AnswersEnd s (execArrShape st s) := issue_answersEnd fun _ _ => .enqueue_modSt

theorem execArrLoad_answersEnd : AnswersEnd s (execArrLoad st s) := issue_answersEnd fun _ _ => by
  dsimp only
  split
  · refine .ite .fault ?_
    split
    · exact .fault
    · exact .ite .fault .enqueue_modSt
  · exact .fault

theorem execArrMma_answersEnd : AnswersEnd s (execArrMma st s) := issue_answersEnd fun _ _ => by
  dsimp only
  split
  · split
    · exact .fault
    · refine .ite .fault (.ite .fault (.ite .fault (.ite .fault ?_)))
      split
      · exact .fault
      · split
        · exact .fault
        · exact .enqueue_modSt
  · exact .fault

theorem execAccOpen_answersEnd : AnswersEnd s (execAccOpen st s) := issue_answersEnd fun _ _ => .ite .fault (.ite .fault .enqueue_modSt)

theorem execAccDrain_answersEnd : AnswersEnd s (execAccDrain st s) := issue_answersEnd fun _ _ => by
  dsimp only
  split
  · refine .ite .fault (.ite .fault (.ite .fault ?_))
    split
    · exact .fault
    · exact .enqueue_modSt
  · exact .fault
  · exact .fault

/-! ### The vector unit -/

theorem execVecSplit_answersEnd : AnswersEnd s (execVecSplit st s) := issue_answersEnd fun _ _ => .ite .fault .enqueue

theorem execVecPro_answersEnd : AnswersEnd s (execVecPro st s) := issue_answersEnd fun _ _ => .ite .fault .enqueue

theorem execVecEpi_answersEnd : AnswersEnd s (execVecEpi st s) := issue_answersEnd fun _ _ => by
  refine .ite .fault (.ite .enqueue_modSt ?_)
  dsimp only
  split
  · exact .fault
  · refine .ite .fault ?_
    split
    · exact .fault
    · exact .enqueue_modSt

theorem execVecOp_answersEnd : AnswersEnd s (execVecOp st s) := issue_answersEnd fun _ _ => by
  refine .ite .fault ?_
  split
  · exact .fault
  · split
    · exact .fault
    · split
      · exact .fault
      · exact .enqueue_modSt

theorem execVecNcomb_answersEnd : AnswersEnd s (execVecNcomb st s) := issue_answersEnd fun _ _ => .ite .fault .enqueue

theorem execVecSminit_answersEnd : AnswersEnd s (execVecSminit st s) := issue_answersEnd fun _ _ => .ite .fault .enqueue

theorem execVecRopeLoad_answersEnd : AnswersEnd s (execVecRopeLoad st s) := issue_answersEnd fun _ _ => .ite .fault .enqueue

/-! ### What lies outside the station -/

theorem engIssue_answersEnd (op : Nat) : AnswersEnd s (engIssue op st s) := issue_answersEnd fun _ _ => .enqueue

theorem execNetSend_answersEnd : AnswersEnd s (execNetSend st s) := issue_answersEnd fun _ _ => by
  dsimp only
  split
  · exact .fault
  · refine .ite .fault ?_
    split
    · exact .fault
    · exact .ite .fault .enqueue_modSt

theorem execMorWait_answersEnd : AnswersEnd s (execMorWait st s) := issue_answersEnd fun _ _ => .ite .fault .enqueue

theorem morIssue_answersEnd (op : Nat) : AnswersEnd s (morIssue op st s) := issue_answersEnd fun _ _ => .ite .fault (.ite .fault (.ite .fault .enqueue))

theorem execMorRead_answersEnd : AnswersEnd s (execMorRead st s) := issue_answersEnd fun _ _ => .ite .fault .enqueue

theorem execChkKat_answersEnd : AnswersEnd s (execChkKat st s) := issue_answersEnd fun _ _ => .ite .fault .enqueue

end

/-! ### Every command in which an instruction issues -/

theorem exec_answersEnd_of_issues {c : Instr} (hc : c.issues = true) (s : State) : AnswersEnd s (exec c s) := by
  cases c with
  | ctlNop st bad => exact execCtlNop_answersEnd st s bad
  | ctlLi st => exact execCtlLi_answersEnd st s
  | ctlAdd st => exact execCtlAdd_answersEnd st s
  | ctlBr st => exact execCtlBr_answersEnd st s
  | ctlBase st => exact execCtlBase_answersEnd st s
  | ctlEnd st => exact execCtlEnd_answersEnd st s
  | unlistedOpcode st => exact execUnlistedOpcode_answersEnd st s
  | vatOpen st => exact execVatOpen_answersEnd st s
  | vatFetch st => exact execVatFetch_answersEnd st s
  | vatPut st => exact execVatPut_answersEnd st s
  | vatCancel st => exact execVatCancel_answersEnd st s
  | vatClose st => exact execVatClose_answersEnd st s
  | ringFeed st => exact execRingFeed_answersEnd st s
  | ringTake st => exact execRingTake_answersEnd st s
  | ringAdd st => exact execRingAdd_answersEnd st s
  | arrShape st => exact execArrShape_answersEnd st s
  | arrLoad st => exact execArrLoad_answersEnd st s
  | arrMma st => exact execArrMma_answersEnd st s
  | accOpen st => exact execAccOpen_answersEnd st s
  | accDrain st => exact execAccDrain_answersEnd st s
  | vecSplit st => exact execVecSplit_answersEnd st s
  | vecPro st => exact execVecPro_answersEnd st s
  | vecEpi st => exact execVecEpi_answersEnd st s
  | vecOp st => exact execVecOp_answersEnd st s
  | vecNcomb st => exact execVecNcomb_answersEnd st s
  | vecSminit st => exact execVecSminit_answersEnd st s
  | vecRopeLoad st => exact execVecRopeLoad_answersEnd st s
  | engRoute st => exact engIssue_answersEnd st s 0x60
  | engXpose st => exact engIssue_answersEnd st s 0x61
  | engMadder st => exact engIssue_answersEnd st s 0x62
  | netSend st => exact execNetSend_answersEnd st s
  | morWait st => exact execMorWait_answersEnd st s
  | morAdd st => exact morIssue_answersEnd st s 0x81
  | morSet st => exact morIssue_answersEnd st s 0x82
  | morRead st => exact execMorRead_answersEnd st s
  | chkKat st => exact execChkKat_answersEnd st s
  | _ => exact absurd hc Bool.false_ne_true

/-- Settles O55: what a command in which an instruction issues answers differs at most in what the end of a beat may change (`exec_answersEnd_of_issues`). -/
theorem issueFrame : Obligations.IssueFrame := by
  unfold Obligations.IssueFrame
  exact fun c s t hc h => (exec_answersEnd_of_issues hc s t h).keptAtIssue

end Sys2Proof.Machine
end

section
/-!
SUPPORT. The vat instructions at issue: what the book of a vat takes in, and the checks that pass (R192, R193, R197, R199, R204, R205, R255 to R257).
-/
namespace Sys2Proof.Machine

/-- What holds of every entry of a vector holds of its list. -/
theorem toList_any_eq_false {α : Type} {n : Nat} {v : Vector α n} {f : α → Bool} (h : ∀ i, f (vget v i) = false) : v.toList.any f = false := by
  refine List.any_eq_false.2 fun x hx => ?_
  obtain ⟨i, hi, rfl⟩ := List.mem_iff_getElem.1 hx
  have hn : i < n := by simpa using hi
  exact Bool.eq_false_iff.1 (h ⟨i, hn⟩)

section
variable {s : State} {st : St} {p : Part} {w : W128}

/-- The book of a vat that a VAT.OPEN has opened (R192, R193). -/
def Station.openedBook (x : Station) (w : W128) : VatBook :=
  ⟨openBase w, openSlots w, openSize w, fbit w 13, fld w 63 40, none, none, 0, 0, x.sq.nextSeq⟩

/-- An extent clear of the program region, of every open vat and of the spill space is opened (R192, R255). -/
theorem execVatOpen_issues (h : s.readyFor st p 0x10 w = true) (hlen : fld w 63 40 ≠ 0) (hslots : fld w 17 14 ≤ 13) (hclosed : (s.stn st).book (fin (fld w 12 8)) = none)
    (hprog : openBase w + openSlots w * openSize w ≤ progBase (s.prt p).prog)
    (hfree : ∀ v b, (s.stn st).book v = some b → bookOverlap b (openBase w) (openSlots w * openSize w) = false)
    (hspill : overlap (spillBase (s.prt p)) ((s.prt p).spill * 4096) (openBase w) (openSlots w * openSize w) = false) :
    ∃ t, execVatOpen st s = .next t ∧ IssuedAt s t st w ∧ (t.stn st).book (fin (fld w 12 8)) = some ((s.stn st).openedBook w) := by
  refine issue_enqueue_book h _ (fun x => x.setBook (fin (fld w 12 8)) (some ((s.stn st).openedBook w))) (fun u => Station.queue_books _ _ _ _ _ u) rfl
    ((if_neg ?_).trans ((if_neg ?_).trans rfl)) (vget_vset_same _ _ _)
  · delta Station.entryFor
    simp [hlen, hslots]
  · simp only [Station.entryFor, hclosed, Nat.not_lt.2 hprog, hspill, Option.isSome_none, decide_false, Bool.or_false, Bool.false_or]
    refine Bool.eq_false_iff.1 (toList_any_eq_false fun v => ?_)
    cases hb : vget (s.stn st).books v with
    | none => rfl
    | some b => exact hfree v b hb

/-- A fetch whose source is in reach counts one more producer (R193, R197, R199, R256, R257). -/
theorem execVatFetch_issues {b b' : VatBook} (h : s.readyFor st p 0x11 w = true) (hbook : (s.stn st).book (fin (fld w 12 8)) = some b) (hin : b.outbound = false)
    (hsrc : fetchSrc w ≠ 3) (hbytes : fetchBytes w ≠ 0) (hsize : fetchBytes w ≤ b.size) (hhdr : fetchHdr w = true → fetchSrc w ≠ 2)
    (hprod : b.produce .fetch = some b') (hlen : b.prods < b.len)
    (htower : fetchSrc w = 0 → s.inWin p (kr (s.stn st).sq.k (fld w 17 13)).toNat (fetchBytes w + (if fetchHdr w then 4096 else 0)) = true ∧
      runFault (kr (s.stn st).sq.k (fld w 47 43)).toNat = false ∧
      s.openRunMeets (bits (kr (s.stn st).sq.k (fld w 47 43)).toNat 9 0) (bits (kr (s.stn st).sq.k (fld w 47 43)).toNat 19 10) = false)
    (hlocal : fetchSrc w = 2 → (kr (s.stn st).sq.k (fld w 17 13)).toNat + fetchBytes w ≤ progBase (s.prt p).prog)
    (hremote : fetchSrc w = 1 → s.routeFault p (fld w 57 48) = false) :
    ∃ t, execVatFetch st s = .next t ∧ IssuedAt s t st w ∧ (t.stn st).book (fin (fld w 12 8)) = some b' := by
  refine issue_enqueue_book h _ (fun x => x.setBook (fin (fld w 12 8)) (some b')) (fun u => Station.queue_books _ _ _ _ _ u) rfl ?_ (vget_vset_same _ _ _)
  delta Station.entryFor
  simp only [hbook, hprod, Nat.not_le.2 hlen, if_false]
  refine (if_neg ?_).trans ((if_neg ?_).trans ((if_neg ?_).trans ((if_neg ?_).trans (if_neg ?_))))
  · simpa [hin, hsrc, hbytes, Nat.not_lt.2 hsize] using hhdr
  · simpa using fun h0 => (htower h0).1
  · have hplain : fetchSrc w = 2 → fetchHdr w = false := fun h2 => Bool.eq_false_iff.2 fun hh => hhdr hh h2
    simp only [Bool.and_eq_true, decide_eq_true_eq, not_and, Nat.not_lt]
    intro h2
    simpa [hplain h2] using hlocal h2
  · simp only [Bool.and_eq_true, decide_eq_true_eq, not_and]
    intro h0
    simp [(htower h0).2.1, (htower h0).2.2]
  · simpa [State.remoteReadFault] using hremote

/-- A put to a destination in the partition's windows counts one more consumer (R170, R193, R197, R204, R256). -/
theorem execVatPut_issues {b b' : VatBook} (h : s.readyFor st p 0x12 w = true) (hbook : (s.stn st).book (fin (fld w 12 8)) = some b) (hout : b.outbound = true)
    (hdst : fetchSrc w = 0) (hbytes : fetchBytes w ≠ 0) (hsize : fetchBytes w ≤ b.size) (hcons : b.consume .put = some b') (hlen : b.conss < b.len)
    (hwin : s.inWin p (kr (s.stn st).sq.k (fld w 17 13)).toNat (fetchBytes w) = true) (hrun : (kr (s.stn st).sq.k (fld w 47 43)).toNat < 2 ^ 20)
    (hacc : fbit w 40 = true → fetchBytes w % 4 = 0 ∧ (kr (s.stn st).sq.k (fld w 17 13)).toNat % 4 = 0 ∧ (kr (s.stn st).sq.k (fld w 17 13)).toNat < 2 ^ 36)
    (hmor : fbit w 58 = true → s.inMorRange p ((kr (s.stn st).sq.k (fld w 63 59)).toNat % 65536) = true) :
    ∃ t, execVatPut st s = .next t ∧ IssuedAt s t st w ∧ (t.stn st).book (fin (fld w 12 8)) = some b' := by
  refine issue_enqueue_book h _ (fun x => x.setBook (fin (fld w 12 8)) (some b')) (fun u => Station.queue_books _ _ _ _ _ u) rfl ?_ (vget_vset_same _ _ _)
  delta Station.entryFor
  simp only [hbook, hcons, Nat.not_le.2 hlen, hwin, Nat.not_le.2 hrun, Bool.not_true, decide_false, Bool.or_false, Bool.false_eq_true, if_false]
  refine (if_neg ?_).trans ((if_neg ?_).trans (if_neg ?_))
  · simp [hout, hdst, hbytes, hsize]
  · simpa [and_assoc] using hacc
  · simpa using hmor

theorem execVatCancel_issues {b : VatBook} (h : s.readyFor st p 0x13 w = true) (hbook : (s.stn st).book (fin (fld w 12 8)) = some b)
    (htake : (s.stn st).takePending (fin (fld w 12 8)) = false) :
    ∃ t, execVatCancel st s = .next t ∧ IssuedAt s t st w ∧ (t.stn st).book (fin (fld w 12 8)) = some { b with prods := 0, conss := 0 } := by
  refine issue_enqueue_book h _ (fun x => x.setBook (fin (fld w 12 8)) (some { b with prods := 0, conss := 0 })) (fun u => Station.queue_books _ _ _ _ _ u) rfl ?_
    (vget_vset_same _ _ _)
  delta Station.entryFor
  simp only [hbook, htake, Bool.false_eq_true, if_false]

theorem execVatClose_issues {b : VatBook} (h : s.readyFor st p 0x14 w = true) (hbook : (s.stn st).book (fin (fld w 12 8)) = some b) :
    ∃ t, execVatClose st s = .next t ∧ IssuedAt s t st w ∧ (t.stn st).book (fin (fld w 12 8)) = none := by
  refine issue_enqueue_book h _ (fun x => x.setBook (fin (fld w 12 8)) none) (fun u => Station.queue_books _ _ _ _ _ u) rfl ?_ (vget_vset_same _ _ _)
  delta Station.entryFor
  simp only [hbook, Option.isNone_some, Bool.false_eq_true, if_false]

end

/-- Settles O5: each instruction's own checks pass (`execVatOpen_issues`, `execVatFetch_issues`, `execVatPut_issues`, `execVatCancel_issues`, `execVatClose_issues`). -/
theorem vatInstructionsIssue : Obligations.VatInstructionsIssue := by
  unfold Obligations.VatInstructionsIssue
  refine ⟨fun s st p w h hlen hslots hclosed hprog hfree hspill => ?_, fun s st p w b b' h hbook hin hsrc hbytes hsize hhdr hprod hlen htower hlocal hremote => ?_,
    fun s st p w b b' h hbook hout hdst hbytes hsize hcons hlen hwin hrun hacc hmor => ?_, fun s st p w b h hbook htake => ?_, fun s st p w b h hbook => ?_⟩
  · exact execVatOpen_issues h hlen hslots hclosed hprog hfree hspill
  · exact execVatFetch_issues h hbook hin hsrc hbytes hsize hhdr hprod hlen htower hlocal hremote
  · exact execVatPut_issues h hbook hout hdst hbytes hsize hcons hlen hwin hrun hacc hmor
  · exact execVatCancel_issues h hbook htake
  · exact execVatClose_issues h hbook

end Sys2Proof.Machine
end

section
/-!
SUPPORT. The vat instructions as they fire: a vat opens, claims, puts, is cancelled, closes (R192, R194, R196, R197, R204 to R206, R224), with the device as its own
responder on a route of role 11b (R342, R345, R349, R356).
-/
namespace Sys2Proof.Machine

/-! ### VAT.OPEN -/

/-- A vat as it opens: empty, every slot Free (R192). -/
def Vat.opened (e : Entry) : Vat :=
  ⟨openBase e.word, openSize e.word, fbit e.word 13, fld e.word 63 40, 0, 0, 0, 0, List.replicate (openSlots e.word) slot0, 0, 0, 0, e.seq⟩

theorem execVatOpenFire_of_clear {s : State} {st : St} {v : VatNo} {e : Entry} (hhead : s.headOp st (.vat v) 0x10 = some e)
    (hclear : ∀ i y, (s.stn st).vat i = some y → overlap y.base (y.slots.length * y.size) (openBase e.word) (openSlots e.word * openSize e.word) = false)
    (hahead : (s.stn st).openAhead e (openBase e.word) (openSlots e.word * openSize e.word) = false) :
    execVatOpenFire st v s = .next (s.modSt st fun x => (x.pop (.vat v)).setVat v (some (.opened e))) := by
  simp only [execVatOpenFire, hhead, hahead, Bool.false_or]
  refine if_neg (Bool.eq_false_iff.1 (toList_any_eq_false fun i => ?_))
  cases hy : vget (s.stn st).vats i with
  | none => rfl
  | some y => exact hclear i y hy

/-! ### VAT.FETCH -/

/-- The fetch of a VAT.FETCH into the tail slot of its vat (R196, R256). -/
def Station.fetchFor (x : Station) (st : St) (v : VatNo) (e : Entry) (y : Vat) : Fetch where
  st := st
  vat := v
  slot := y.tail
  pc := e.pc
  addr := (kr e.k (fld e.word 17 13)).toNat
  bytes := fetchBytes e.word
  hdr := fetchHdr e.word
  remote := fetchSrc e.word = 1
  ports := []
  reqId := 0
  dropped := false
  got := []
  data := if fetchSrc e.word = 2 then some (x.lsRead (kr e.k (fld e.word 17 13)).toNat (fetchBytes e.word)) else none
  run := (kr e.k (fld e.word 47 43)).toNat
  slots := (calSlotS e.word, calSlotC e.word)
  parts := if fetchSrc e.word = 0 then fetchParts (kr e.k (fld e.word 17 13)).toNat (fetchBytes e.word) (fetchHdr e.word) else []

/-- The device itself responds: the route of the remote fetch has role 11b (R345). -/
def State.respondsSelf (s : State) (p : Part) (e : Entry) : Bool := decide (fetchSrc e.word = 1) && s.ownRoute p (fld e.word 57 48)

/-- As the responder it refuses the request (R342, R349). -/
def State.refusesSelf (s : State) (p : Part) (e : Entry) : Bool :=
  s.ownKindFault p (fld e.word 57 48) false || decide (s.reg 0x1020 0 ≠ (kr e.k (fld e.word 47 43)).toNat % 65536) ||
    !s.inWin p (kr e.k (fld e.word 17 13)).toNat (fetchBytes e.word + if fetchHdr e.word then 4096 else 0)

/-- The fetch `f` sets out: as one read request where its source is remote, and among the fetches of the device otherwise (R196, R256, R356). -/
def State.sendFetch (s : State) (p : Part) (e : Entry) (f : Fetch) : State :=
  if s.respondsSelf p e then { s with fetches := s.fetches ++ [{ f with remote := false, parts := fetchParts f.addr f.bytes f.hdr }] }
  else if fetchSrc e.word = 1 then s.remoteRead p e f
  else { s with fetches := s.fetches ++ [f] }

section
variable (s : State) (p : Part) (e : Entry) (f : Fetch)

theorem State.sendFetch_stations : (s.sendFetch p e f).stations = s.stations := by
  unfold State.sendFetch State.remoteRead
  split
  · rfl
  · split <;> rfl

/-- Of the fetch that stands among those in flight, only the way of its response differs from `f`. -/
theorem State.sendFetch_fetches : ∃ rem ports tag parts,
    (s.sendFetch p e f).fetches = s.fetches ++ [{ f with remote := rem, ports := ports, reqId := tag, parts := parts }] := by
  unfold State.sendFetch State.remoteRead
  split
  · exact ⟨false, f.ports, f.reqId, _, rfl⟩
  · split
    · exact ⟨f.remote, _, _, f.parts, rfl⟩
    · exact ⟨f.remote, f.ports, f.reqId, f.parts, rfl⟩

/-- A remote fetch sends one read request (R356). -/
theorem State.sendFetch_request (hsrc : fetchSrc e.word = 1) (hroute : s.ownRoute p (fld e.word 57 48) = false) :
    ∃ x, (s.sendFetch p e f).xfers = s.xfers ++ [x] ∧ x.kind = .readReq ∧ x.addr = f.addr ∧ x.bytes = f.bytes ∧ x.route = fld e.word 57 48 := by
  have haway : s.respondsSelf p e = false := by simp [State.respondsSelf, hroute]
  simp only [State.sendFetch, haway, hsrc, Bool.false_eq_true, if_false, if_true]
  exact ⟨_, rfl, rfl, rfl, rfl, rfl⟩

/-- Any other fetch sends none. -/
theorem State.sendFetch_xfers (h : fetchSrc e.word ≠ 1 ∨ s.ownRoute p (fld e.word 57 48) = true) : (s.sendFetch p e f).xfers = s.xfers := by
  unfold State.sendFetch
  split
  · rfl
  · next haway =>
    split
    · next hsrc =>
      have hroute : s.ownRoute p (fld e.word 57 48) = true := h.resolve_left (not_not.2 hsrc)
      exact absurd (by simp [State.respondsSelf, hsrc, hroute]) haway
    · rfl

end

section
variable {s : State} {st : St} {v : VatNo} {e : Entry} {y : Vat} {p : Part} (hhead : s.headOp st (.vat v) 0x11 = some e) (hvat : (s.stn st).vat v = some y)
  (hjob : s.jobAt st = some p) (hfree : tailFree y = true) (hroom : s.inFlight st < 32) (hstart : isCalendar e.word = true → e.started = true)
include hhead hvat hjob hfree hroom hstart

/-- With the tail slot Free and room in flight a VAT.FETCH claims the slot and sets out, unless the device refuses it as its own responder (R224, R256, R345). -/
theorem execVatFetchFire_of_room : execVatFetchFire st v s = .next (if s.respondsSelf p e && s.refusesSelf p e then s.faultFire st v.val e.pc else
    (s.modSt st fun x => (x.pop (.vat v)).setVat v (some y.claim)).sendFetch p e ((s.stn st).fetchFor st v e y)) := by
  have hready : (!tailFree y || decide (32 ≤ s.inFlight st) || (isCalendar e.word && !e.started)) = false := by
    simpa [hfree, hroom] using hstart
  simp only [execVatFetchFire, hhead, hvat, hjob, hready, Bool.false_eq_true, if_false, next]
  rw [apply_ite Host.Outcome.next]
  refine if_congr Iff.rfl rfl ?_
  unfold State.sendFetch
  rw [apply_ite Host.Outcome.next, apply_ite Host.Outcome.next]
  rfl

/-- A VAT.FETCH whose source does not refuse it fires. -/
theorem execVatFetchFire_of_source (hself : fetchSrc e.word = 1 → s.ownRoute p (fld e.word 57 48) = true → s.ownKindFault p (fld e.word 57 48) false = false ∧
      s.reg 0x1020 0 = (kr e.k (fld e.word 47 43)).toNat % 65536 ∧
      s.inWin p (kr e.k (fld e.word 17 13)).toNat (fetchBytes e.word + if fetchHdr e.word then 4096 else 0) = true) :
    execVatFetchFire st v s = .next ((s.modSt st fun x => (x.pop (.vat v)).setVat v (some y.claim)).sendFetch p e ((s.stn st).fetchFor st v e y)) := by
  rw [execVatFetchFire_of_room hhead hvat hjob hfree hroom hstart, if_neg]
  simp only [State.respondsSelf, Bool.and_eq_true, decide_eq_true_eq, Bool.not_eq_true, not_and, and_imp]
  intro hsrc hroute
  obtain ⟨hkind, hdev, hwin⟩ := hself hsrc hroute
  simp [State.refusesSelf, hkind, hdev, hwin]

/-- A source outside the partition's windows is a fault where the device responds itself (R342). -/
theorem execVatFetchFire_of_outside (hsrc : fetchSrc e.word = 1) (hroute : s.ownRoute p (fld e.word 57 48) = true)
    (hwin : s.inWin p (kr e.k (fld e.word 17 13)).toNat (fetchBytes e.word + if fetchHdr e.word then 4096 else 0) = false) :
    execVatFetchFire st v s = .next (s.faultFire st v.val e.pc) := by
  rw [execVatFetchFire_of_room hhead hvat hjob hfree hroom hstart, if_pos]
  simp [State.respondsSelf, State.refusesSelf, hsrc, hroute, hwin]

end

/-! ### VAT.PUT -/

/-- The write by which the head slot of a vat leaves (R204, R256). -/
def Station.putFor (x : Station) (st : St) (p : Part) (v : VatNo) (e : Entry) (y : Vat) : MemWrite where
  who := st
  part := p
  pc := e.pc
  vat := v.val
  addr := (kr e.k (fld e.word 17 13)).toNat
  data := x.slotRead y y.head 0 (fetchBytes e.word)
  acc := fbit e.word 40
  mordant := if fbit e.word 58 then some ((kr e.k (fld e.word 63 59)).setWidth 16) else none
  written := false
  parts := partsOf (kr e.k (fld e.word 17 13)).toNat (fetchBytes e.word)

theorem execVatPutFire_of_full {s : State} {st : St} {v : VatNo} {e : Entry} {y : Vat} {p : Part} (hhead : s.headOp st (.vat v) 0x12 = some e)
    (hvat : (s.stn st).vat v = some y) (hjob : s.jobAt st = some p) (hfull : headFull y = true) (hroom : s.inFlight st < 32) (hstart : e.started = true) :
    execVatPutFire st v s = .next { (s.modSt st fun x => (x.pop (.vat v)).setVat v (some (y.take true true))) with
      writes := s.writes ++ [(s.stn st).putFor st p v e y] } := by
  simp only [execVatPutFire, hhead, hvat, hjob, hfull, Nat.not_le.2 hroom, hstart, Bool.not_true, decide_false, Bool.or_false, Bool.false_eq_true, if_false, next]
  rfl

/-! ### VAT.CANCEL -/

/-- A vat as a cancel leaves it: the stream is empty and begins anew at the tail (R205). -/
def Vat.cancelled (y : Vat) : Vat :=
  { y with slots := y.slots.map Slot.cancelled, head := y.tail, claimed := 0, taken := 0, rd := y.tail, rdRow := 0, wrRow := 0 }

/-- The fetches in flight with those of the vat dropped (R205). -/
def State.droppedFetches (s : State) (st : St) (v : VatNo) : List Fetch :=
  s.fetches.map fun f => if f.st = st ∧ f.vat = v then { f with dropped := true } else f

/-- To drop a fetch again changes nothing. -/
theorem State.map_drop_eq_droppedFetches (s : State) (st : St) (v : VatNo) :
    (s.fetches.map fun f => if (decide (f.st = st) && decide (f.vat = v) && !f.dropped) = true then { f with dropped := true } else f) = s.droppedFetches st v := by
  refine List.map_congr_left fun f _ => ?_
  by_cases hown : f.st = st ∧ f.vat = v
  · cases hdrop : f.dropped with
    | false => simp [hown]
    | true =>
      have hsame : { f with dropped := true } = f := by rw [← hdrop]
      rw [hsame, ite_self, ite_self]
  · rw [if_neg hown, if_neg (by simp only [Bool.and_eq_true, decide_eq_true_eq]; exact fun h => hown h.1)]

theorem execVatCancelFire_of_idle {s : State} {st : St} {v : VatNo} {e : Entry} {y : Vat} (hhead : s.headOp st (.vat v) 0x13 = some e)
    (hvat : (s.stn st).vat v = some y) (hidle : (s.stn st).vatBusy v e.seq = false) (htaken : ∀ sl ∈ y.slots, sl.st ≠ .taken) :
    ∃ u : State, execVatCancelFire st v s = .next (u.modSt st fun x => (x.pop (.vat v)).setVat v (some y.cancelled)) ∧
      u.stations = s.stations ∧ u.fetches = s.droppedFetches st v := by
  have hnone : (y.slots.any fun sl => decide (sl.st = .taken)) = false := List.any_eq_false.2 fun sl hsl => by simpa using htaken sl hsl
  simp only [execVatCancelFire, hhead, hvat, hidle, hnone, Bool.or_self, Bool.false_eq_true, if_false, next, State.map_drop_eq_droppedFetches]
  refine ⟨_, rfl, ?_⟩
  split
  · exact ⟨rfl, rfl⟩
  · exact ⟨rfl, rfl⟩

/-! ### VAT.CLOSE -/

theorem execVatCloseFire_of_done {s : State} {st : St} {v : VatNo} {e : Entry} {y : Vat} (hhead : s.headOp st (.vat v) 0x14 = some e)
    (hvat : (s.stn st).vat v = some y) (hidle : (s.stn st).vatBusy v e.seq = false) (hflying : s.vatFlying st v = false) (hlen : y.len ≤ y.taken)
    (hfree : ∀ sl ∈ y.slots, sl.st = .free) : execVatCloseFire st v s = .next (s.modSt st fun x =>
      { (x.pop (.vat v)).setVat v none with localVats := setDel x.localVats y.id, takeVats := setDel x.takeVats y.id }) := by
  have hnone : (y.slots.any fun sl => decide (sl.st = .taken)) = false := List.any_eq_false.2 fun sl hsl => by simp [hfree sl hsl]
  have hall : (y.slots.all fun sl => decide (sl.st = .free)) = true := List.all_eq_true.2 fun sl hsl => decide_eq_true (hfree sl hsl)
  simp only [execVatCloseFire, hhead, hvat, hidle, hflying, hnone, Nat.not_lt.2 hlen, hall, Bool.or_self, Bool.false_eq_true, if_false, if_true, next]

/-- Settles O6: a vat opens by `execVatOpenFire_of_clear`; a fetch sets out by `execVatFetchFire_of_source` (`State.sendFetch_request`, `State.sendFetch_xfers`) or is refused by
`execVatFetchFire_of_outside`; a put, a cancel and a close by `execVatPutFire_of_full`, `execVatCancelFire_of_idle` and `execVatCloseFire_of_done`. -/
theorem vatInstructionsFire : Obligations.VatInstructionsFire := by
  unfold Obligations.VatInstructionsFire
  refine ⟨fun s st v e hhead hclear hahead => ?_, fun s st v e y p hhead hvat hjob hfree hroom hstart hself => ?_,
    fun s st v e y p hhead hvat hjob hfree hroom hstart hsrc hroute hwin => ?_, fun s st v e y p hhead hvat hjob hfull hroom hstart => ?_,
    fun s st v e y hhead hvat hidle htaken => ?_, fun s st v e y hhead hvat hidle hflying hlen hfree => ?_⟩
  · exact (exec_vatOpenFire st v s).trans (execVatOpenFire_of_clear hhead hclear hahead)
  · have hexec := (exec_vatFetchFire st v s).trans (execVatFetchFire_of_source hhead hvat hjob hfree hroom hstart hself)
    have hstn : ∀ a u f, (State.sendFetch u p e f).stn a = u.stn a := fun a u f => congrArg (vget · a) (u.sendFetch_stations p e f)
    obtain ⟨rem, ports, tag, parts, hfetches⟩ :=
      (s.modSt st fun x => (x.pop (.vat v)).setVat v (some y.claim)).sendFetch_fetches p e ((s.stn st).fetchFor st v e y)
    refine ⟨_, _, hexec, (hstn _ _ _).trans (s.stn_modSt_same st _), fun a ha => (hstn _ _ _).trans (s.stn_modSt_other st a _ ha), hfetches, rfl, rfl, rfl, rfl, rfl, rfl, rfl,
      fun haway => State.sendFetch_request _ p e _ haway.1 haway.2, fun h => State.sendFetch_xfers _ p e _ h⟩
  · exact ⟨_, (exec_vatFetchFire st v s).trans (execVatFetchFire_of_outside hhead hvat hjob hfree hroom hstart hsrc hroute hwin), s.faultAt_records st 1 0x0101 _ e.pc⟩
  · refine ⟨_, _, (exec_vatPutFire st v s).trans (execVatPutFire_of_full hhead hvat hjob hfull hroom hstart), s.stn_modSt_same st _,
      fun a ha => s.stn_modSt_other st a _ ha, rfl, rfl, rfl, rfl, rfl, rfl, ?_, rfl⟩
    simp only [Station.putFor]
    cases fbit e.word 58 <;> rfl
  · obtain ⟨u, hu, hstations, hfetches⟩ := execVatCancelFire_of_idle hhead hvat hidle htaken
    have hstn : ∀ a, u.stn a = s.stn a := fun a => congrArg (vget · a) hstations
    exact ⟨_, (exec_vatCancelFire st v s).trans hu, (u.stn_modSt_same st _).trans (by rw [hstn]; rfl), fun a ha => (u.stn_modSt_other st a _ ha).trans (hstn a), hfetches⟩
  · exact (exec_vatCloseFire st v s).trans (execVatCloseFire_of_done hhead hvat hidle hflying hlen hfree)

end Sys2Proof.Machine
end

section
/-!
SUPPORT. The ends of transfers: the last byte of a fetch, the end of a put, a slot that its consumers are done with, and a dropped fetch (R194, R195, R198, R202, R204 to R206).
-/
namespace Sys2Proof.Machine

section
variable {s : State} {st : St} {v : VatNo} {i : Nat} {f : Fetch} {y : Vat}

/-- The station as the last byte of `f` is written: the bytes stand in local store, and the slot is Full (R194, R198, R202). -/
def Station.fillSlot (v : VatNo) (y : Vat) (i : Nat) (f : Fetch) (d : List PByte) (x : Station) : Station :=
  (x.lsWrite (y.addr i) ((if f.hdr then d.drop 64 else d).take f.bytes)).setVat v
    (some (y.setSlot i { slot0 with st := .full, count := f.bytes, header := if f.hdr then some (d.take 64) else none }))

/-- A fetch whose bytes are all there ends; it leaves those in flight. -/
theorem execVatSlotFull_of_data {d : List PByte}
    (hfind : s.fetches.find? (fun f => decide (f.st = st) && decide (f.vat = v) && decide (f.slot = i) && !f.dropped && f.data.isSome) = some f)
    (hdata : f.data = some d) (hvat : (s.stn st).vat v = some y) :
    ∃ l, execVatSlotFull st v i s = .next (State.modSt { s with fetches := l } st (Station.fillSlot v y i f d)) := by
  simp only [execVatSlotFull, hfind, hvat, hdata, Option.getD_some, next]
  exact ⟨_, rfl⟩

theorem execPutWriteComplete_of_written {k : Nat} {w : MemWrite} (hw : s.writes[k]? = some w) (hwritten : w.written = true) :
    execPutWriteComplete k s = .next { s with
      writes := s.writes.eraseIdx k
      morOps := s.morOps ++ (w.mordant.map fun m => ⟨some w.who, w.part, m, false, 1, false⟩).toList } := by
  simp only [execPutWriteComplete, hw, hwritten, Bool.not_true, Bool.false_eq_true, if_false, next]
  cases w.mordant with
  | none => simp [ldel]
  | some m => rfl

theorem execSlotRelease_of_done (hvat : (s.stn st).vat v = some y) (hi : i < y.slots.length) (htaken : (y.slot i).st = .taken)
    (hlane : (y.slot i).laneDone = true) (hfeed : (y.slot i).feedDone = true) :
    execSlotRelease st v i s = .next (s.modSt st fun x => x.setVat v (some (y.setSlot i slot0))) := by
  simp only [execSlotRelease, hvat, hi, htaken, hlane, hfeed, decide_true, Bool.and_self, if_true, next]

/-- The station as a dropped fetch of the vat's slot ends (R205, R206). -/
def Station.freeDropped (v : VatNo) (i : Nat) (x : Station) : Station :=
  match x.vat v with
  | some y => x.setVat v (some (if (y.slot i).st = .dropping then y.setSlot i slot0 else y))
  | none => x

theorem Station.freeDropped_of_dropping {x : Station} (hvat : x.vat v = some y) (hwaits : (y.slot i).st = .dropping) :
    x.freeDropped v i = x.setVat v (some (y.setSlot i slot0)) := by
  simp only [Station.freeDropped, hvat, hwaits, if_true]

/-- A dropped fetch ends: no fetch of its slot stays in flight, and a slot that waits for it is Free (R205, R206). -/
theorem execDroppedFetchEnd_of_dropped (hmem : f ∈ s.fetches) (hst : f.st = st) (hv : f.vat = v) (hslot : f.slot = i) (hdrop : f.dropped = true)
    (hvat : (s.stn st).vat v = some y) (hwaits : (y.slot i).st = .dropping) :
    ∃ t, execDroppedFetchEnd st v i s = .next t ∧ t.stn st = (s.stn st).setVat v (some (y.setSlot i slot0)) ∧ f ∉ t.fetches := by
  have hhit : (decide (f.st = st) && decide (f.vat = v) && decide (f.slot = i) && f.dropped) = true := by simp [hst, hv, hslot, hdrop]
  refine ⟨_, if_pos (List.any_eq_true.2 ⟨f, hmem, hhit⟩), ?_, ?_⟩
  · exact (State.stn_modSt_same _ st _).trans (Station.freeDropped_of_dropping hvat hwaits)
  · intro hkept
    have hnohit := (List.mem_filter.1 hkept).2
    simp [hhit] at hnohit

end

/-- Settles O7: `execVatSlotFull_of_data`, `execPutWriteComplete_of_written`, `execSlotRelease_of_done` and `execDroppedFetchEnd_of_dropped`. -/
theorem vatTransfersEnd : Obligations.VatTransfersEnd := by
  unfold Obligations.VatTransfersEnd
  refine ⟨fun s st v i f d y hfind hdata hvat => ?_, fun s k w hw hwritten => ?_, fun s st v i y hvat hi htaken hlane hfeed => ?_,
    fun s st v i y f hmem hst hv hslot hdrop hvat hwaits => ?_⟩
  · obtain ⟨l, hl⟩ := execVatSlotFull_of_data hfind hdata hvat
    exact ⟨_, (exec_vatSlotFull st v i s).trans hl, State.stn_modSt_same _ st _, fun a ha => State.stn_modSt_other _ st a _ ha, rfl⟩
  · exact (exec_putWriteComplete k s).trans (execPutWriteComplete_of_written hw hwritten)
  · exact (exec_slotRelease st v i s).trans (execSlotRelease_of_done hvat hi htaken hlane hfeed)
  · rw [exec_droppedFetchEnd]
    exact execDroppedFetchEnd_of_dropped hmem hst hv hslot hdrop hvat hwaits

end Sys2Proof.Machine
end

section
/-!
SUPPORT. The control instructions at issue (R216 to R218, R222, R253): each changes its station's sequencer alone; a poisoned instruction word stops the station (R217).
-/
namespace Sys2Proof.Machine

/-! ### A station changed twice -/

theorem vmod_vmod {α : Type} {n : Nat} (v : Vector α n) (i : Fin n) (f g : α → α) : vmod (vmod v i f) i g = vmod v i fun x => g (f x) := by
  simp [vmod, vset, vget]

theorem State.modSt_modSt (s : State) (st : St) (f g : Station → Station) : (s.modSt st f).modSt st g = s.modSt st fun x => g (f x) :=
  congrArg (fun v => { s with stations := v }) (vmod_vmod s.stations st f g)

theorem State.modSt_congr {s : State} {st : St} {f g : Station → Station} (h : f (s.stn st) = g (s.stn st)) : s.modSt st f = s.modSt st g :=
  congrArg (fun x => { s with stations := vset s.stations st x }) h

/-! ### The sequencer past a control instruction -/

/-- The sequencer moved on to `npc`, with one instruction issued more and one more since the last calendar instruction (R221, R225). -/
def Seqr.passed (q : Seqr) (npc : Nat) : Seqr := { q with pc := npc, nextSeq := q.nextSeq + 1, dist := q.dist + 1 }

theorem isCalendar_of_ctl {w : W128} (hop : opc w < 16) : isCalendar w = false := by
  unfold isCalendar
  split <;> simp_all

/-- A control instruction makes no register pending and is no calendar instruction (R218, R249). -/
theorem Seqr.issued_of_ctl {w : W128} (hop : opc w < 16) (q : Seqr) (npc : Nat) : q.issued w npc = q.passed npc := by
  have hfire : writesAtFire w = false := by
    simp only [writesAtFire, Bool.or_eq_false_iff, decide_eq_false_iff_not]
    omega
  simp only [Seqr.issued, isCalendar_of_ctl hop, hfire, Bool.false_and, Bool.false_eq_true, if_false, Seqr.passed]
  cases regWritten w <;> rfl

/-- A control instruction that is ready, and whose own checks pass, changes its station's sequencer alone. -/
theorem issue_ctlStep {s : State} {st : St} {p : Part} {op npc : Nat} {w : W128} {body : State → Part → St → Entry → Chk} {f : Seqr → Seqr} {g : Station → Station}
    (h : s.readyFor st p op w = true) (hop : op < 16) (hbody : body s p st ((s.stn st).entryFor w) = ctlStep s st npc f)
    (hg : g (s.stn st) = { s.stn st with sq := (f (s.stn st).sq).passed npc }) : issue op body s st = .next (s.modSt st g) := by
  have hw : opc w < 16 := by
    simp only [State.readyFor, Bool.and_eq_true, decide_eq_true_eq] at h
    omega
  rw [issue_of_ready h body hbody, State.modSt_modSt]
  refine congrArg _ (State.modSt_congr (Eq.trans ?_ hg.symm))
  simp only [Seqr.issued_of_ctl hw]

/-! ### A poisoned instruction word -/

theorem Station.sramError_pc (x : Station) (bad : SramWord) : (x.sramError bad).sq.pc = x.sq.pc := by
  cases bad with
  | none => rfl
  | localStore w => rfl
  | tile i el => rfl
  | scalar r => exact (apply_ite (fun y : Station => y.sq.pc) _ _ _).trans (ite_self _)

/-- An instruction word that holds poison is not issued (R217). -/
theorem issue_of_poison {s : State} {st : St} {p : Part} (op : Nat) (body : State → Part → St → Entry → Chk) (hp : s.issuing st = some p)
    (hpc : (s.stn st).sq.pc < (s.prt p).prog * 256) (hpoison : ((s.stn st).instrAt (s.prt p).prog (s.stn st).sq.pc).2 = true) :
    issue op body s st = .next (s.faultWord st) := by
  simp only [issue, hp, hpoison, Nat.not_le.2 hpc, if_false, if_true, next]

/-- It records fault 04h, and the station issues nothing further (R217, R411). -/
theorem State.faultWord_stops (s : State) (st : St) :
    Records s (s.faultWord st) (s.ownerOf st) 4 0x0400 (siteStation st noLoc2 (s.stn st).sq.pc) ∧
    ((s.faultWord st).stn st).sq.pc = (s.stn st).sq.pc ∧ ((s.faultWord st).stn st).sq.stopped = true := by
  have hstn : (s.faultWord st).stn st = { s.stn st with sq := { (s.stn st).sq with stopped := true } } :=
    (State.stn_modSt_same _ st _).trans (by rw [State.faultPoison, State.faultAt_stn])
  exact ⟨s.faultAt_records st 4 0x0400 noLoc2 _, by rw [hstn], by rw [hstn]⟩

/-- Settles O3: an instruction that is ready issues by `issue_ctlStep`, a poisoned one stops its station (`issue_of_poison`, `State.faultWord_stops`). -/
theorem controlInstructions : Obligations.ControlInstructions := by
  unfold Obligations.ControlInstructions
  refine ⟨fun s st p w h => ?_, fun s st p w bad h => ?_, fun s st p bad hissue hpc hpoison => ?_, fun s st p w h => ?_, fun s st p w h => ?_, fun s st p w h hcond htarget => ?_,
    fun s st p w h => ?_, fun s st p w h => ?_⟩
  · rw [exec_ctlNop, execCtlNop]
    exact (congrArg (issue 0x00 _ · st) (modSt_id s st)).trans (issue_ctlStep h (by decide) rfl rfl)
  · rw [exec_ctlNop, execCtlNop]
    exact (issue_ctlStep (g := fun x => { x with sq := x.sq.passed (x.sq.pc + 1) }) h (by decide) rfl rfl).trans
      (congrArg _ (s.modSt_modSt st _ _))
  · have hpc' : (s.stn st).sq.pc = ((s.stn st).sramError bad).sq.pc := (Station.sramError_pc _ _).symm
    have hstn := s.stn_modSt_same st fun x => x.sramError bad
    have hstops := (s.modSt st fun x => x.sramError bad).faultWord_stops st
    rw [hstn, ← hpc'] at hstops
    refine ⟨_, (exec_ctlNop st bad s).trans (issue_of_poison _ _ hissue ?_ ?_), hstops⟩
    · rw [hstn, ← hpc']
      exact hpc
    · rw [hstn, ← hpc']
      exact hpoison
  · exact (exec_ctlLi st s).trans (issue_ctlStep h (by decide) rfl rfl)
  · exact (exec_ctlAdd st s).trans (issue_ctlStep h (by decide) rfl rfl)
  · exact (exec_ctlBr st s).trans (issue_ctlStep h (by decide) ((if_neg hcond).trans (if_neg (Nat.not_le.2 htarget))) rfl)
  · exact (exec_ctlBase st s).trans (issue_ctlStep h (by decide) rfl rfl)
  · exact (exec_ctlEnd st s).trans (issue_ctlStep h (by decide) rfl rfl)

end Sys2Proof.Machine
end

section
/-!
SUPPORT. The mordant instructions as they fire (R218, R273, R346, R361, R362), their operations as they arrive (R344, R357 to R360), and a wait that lasts too long (R233, R362).
-/
namespace Sys2Proof.Machine

section
variable {s : State} {st : St} {p : Part} {e : Entry}

/-! ### MOR.WAIT -/

theorem execMorWaitFire_of_reached (hhead : s.headOp st .mor 0x80 = some e) (hjob : s.jobAt st = some p) (hlive : (s.mor (morNo e.word)).failed = false)
    (hreached : (kr e.k (morKv e.word)).toNat ≤ (s.mor (morNo e.word)).count.toNat) : execMorWaitFire st s = .next (s.modSt st fun x => x.pop .mor) := by
  simp only [execMorWaitFire, hhead, hjob, hlive, hreached, Bool.false_eq_true, if_false, if_true, next]

theorem execMorWaitFire_of_failed (hhead : s.headOp st .mor 0x80 = some e) (hjob : s.jobAt st = some p) (hfailed : (s.mor (morNo e.word)).failed = true) :
    execMorWaitFire st s = .next (s.failedWait p (morNo e.word) e.pc) := by
  simp only [execMorWaitFire, hhead, hjob, hfailed, if_true, next]

theorem State.failedWait_records (s : State) (p : Part) (m pc : Nat) :
    Records s (s.failedWait p m pc) (some p) 8 0x0801 (siteStation ((s.morHolder p m).getD 0) noLoc2 pc) := s.raise_records _ _ _ _

/-! ### MOR.ADD and MOR.SET -/

/-- The operation on mordant `m` that a MOR.ADD or MOR.SET of the station sends to the holding station (R273). -/
def Entry.morOp (e : Entry) (op : Nat) (st : St) (p : Part) (m : W16) : MorOp := ⟨some st, p, m, decide (op = 0x82), kr e.k (morKv e.word), false⟩

/-- A calendar instruction that has started waits no longer, and any other never does (R224). -/
theorem Entry.goes_of_started (hstart : isCalendar e.word = true → e.started = true) : (isCalendar e.word && !e.started) = false := by simpa using hstart

/-- MOR.ADD and MOR.SET fire alike. -/
theorem exec_morFire {op : Nat} {c : St → Instr} (hop : op = 0x81 ∧ c = Instr.morAddFire ∨ op = 0x82 ∧ c = Instr.morSetFire) (st : St) (s : State) :
    exec (c st) s = morFire op st s := by
  obtain ⟨rfl, rfl⟩ | ⟨rfl, rfl⟩ := hop
  · exact exec_morAddFire st s
  · exact exec_morSetFire st s

section
variable {op : Nat} (hhead : s.headOp st .mor op = some e) (hjob : s.jobAt st = some p) (hgo : (isCalendar e.word && !e.started) = false)
include hhead hjob hgo

theorem morFire_of_device (hrem : morRem e.word = false) :
    morFire op st s = .next { s.modSt st fun x => x.pop .mor with morOps := s.morOps ++ [e.morOp op st p (BitVec.ofNat 16 (morNo e.word))] } := by
  simp only [morFire, hhead, hjob, hgo, hrem, Bool.not_false, Bool.false_eq_true, if_false, if_true, next, Entry.morOp]

/-- On a route of role 11b the operation comes back to a mordant of the device's own range (R346). -/
theorem morFire_of_own {m : W16} (hrem : morRem e.word = true) (hroute : s.ownRoute p (fld e.word 44 35) = true) (hkind : s.ownKindFault p (fld e.word 44 35) false = false)
    (hm : s.morAt p (s.morOffset p (morNo e.word)).toNat = some m) :
    morFire op st s = .next { s.modSt st fun x => x.pop .mor with morOps := s.morOps ++ [e.morOp op st p m] } := by
  simp only [morFire, hhead, hjob, hgo, hrem, hroute, hkind, hm, Bool.not_true, Bool.false_eq_true, if_false, if_true, next, Entry.morOp]

theorem morFire_of_outside (hrem : morRem e.word = true) (hroute : s.ownRoute p (fld e.word 44 35) = true) (hm : s.morAt p (s.morOffset p (morNo e.word)).toNat = none) :
    morFire op st s = .next (s.faultFire st noLoc2 e.pc) := by
  simp only [morFire, hhead, hjob, hgo, hrem, hroute, hm, Bool.not_true, Bool.false_eq_true, if_false, if_true, next]

/-- On any other route it leaves in a block for another device (R361). -/
theorem morFire_of_away (hrem : morRem e.word = true) (hroute : s.ownRoute p (fld e.word 44 35) = false) :
    ∃ x, morFire op st s = .next { s.modSt st fun x => x.pop .mor with xfers := s.xfers ++ [x] } ∧
      x.kind = (if op = 0x82 then .morSet else .morAdd) ∧ x.value = kr e.k (morKv e.word) ∧ x.route = fld e.word 44 35 ∧ x.addr = (s.morOffset p (morNo e.word)).toNat := by
  simp only [morFire, hhead, hjob, hgo, hrem, hroute, Bool.not_true, Bool.false_eq_true, if_false, next]
  exact ⟨_, rfl, rfl, rfl, rfl, rfl⟩

end

/-! ### MOR.READ -/

theorem execMorReadFire_of_head (hhead : s.headOp st .mor 0x83 = some e) : execMorReadFire st s = .next (s.modSt st fun x =>
    { x.pop .mor with morReads := (x.pop .mor).morReads ++ [⟨morKv e.word, (s.mor (morNo e.word)).count, e.seq⟩] }) := by
  simp only [execMorReadFire, hhead, next]

theorem execMorReadRegisterWritten_of_read {r : MorRead} {rest : List MorRead} (hread : (s.stn st).morReads = r :: rest) :
    execMorReadRegisterWritten st s = .next (s.modSt st fun x => { x with morReads := rest, sq := x.sq.writeAt r.reg r.seq r.value }) := by
  simp only [execMorReadRegisterWritten, hread, next]

/-! ### A wait that lasts too long -/

theorem execMordantTimeout_of_waited {u : UnitQ} {m : Nat} {v : W64} (hwaits : waitsOn (s.stn st) u = some (e, m, v)) (hjob : s.jobAt st = some p)
    (hlive : (s.mor m).failed = false) (hbelow : (s.mor m).count.toNat < v.toNat) (hrun : (s.prt p).held = false)
    (hlong : (s.prt p).morTimeout * 1000 ≤ (e.waited - 1) * 512) : execMordantTimeout st u s = .next (s.faultAt st 5 0x0500 noLoc2 e.pc) := by
  simp only [execMordantTimeout, hwaits, hjob, hlive, hrun, Nat.not_le.2 hbelow, Nat.not_lt.2 hlong, decide_false, Bool.or_self, Bool.false_eq_true, if_false, next]

end

/-! ### An operation arrives -/

section
variable {s : State} {k : Nat} {m : MorOp}

/-- The first operation of its station on its mordant, with its way clear, is applied if its job is still loaded (R358, R360). -/
theorem execMordantOperationArrival_of_first (hm : s.morOps[k]? = some m) (hfirst : ∀ o ∈ s.morOps.take k, o.mor = m.mor → o.st ≠ m.st) (hway : s.stuckMor m = none) :
    execMordantOperationArrival k s = .next (if s.loaded m.part then State.applyMor { s with morOps := s.morOps.eraseIdx k } m else { s with morOps := s.morOps.eraseIdx k }) := by
  have hnone : ((s.morOps.take k).any fun o => decide (o.mor = m.mor) && decide (o.st = m.st)) = false :=
    List.any_eq_false.2 fun o ho => by simpa using hfirst o ho
  simp only [execMordantOperationArrival, hm, hnone, hway, Option.isSome_none, Bool.or_self, Bool.false_eq_true, if_false, ldel, next]
  exact (apply_ite Host.Outcome.next _ _ _).symm

theorem State.applyMor_of_add (s : State) (hclean : m.poison = false) (hset : m.set = false) : s.applyMor m = s.morAdd m.part m.mor.toNat m.value.toNat := by
  simp only [State.applyMor, hclean, hset, Bool.false_eq_true, if_false]

theorem State.applyMor_of_set (s : State) (hclean : m.poison = false) (hset : m.set = true) :
    s.applyMor m = s.setMor m.mor.toNat { s.mor m.mor.toNat with count := m.value } := by
  simp only [State.applyMor, hclean, hset, Bool.false_eq_true, if_false, if_true]

/-- Poison in the operand is consumed at the holding station. -/
theorem State.applyMor_of_poison (s : State) (hpoison : m.poison = true) : (s.applyMor m).mordants = s.mordants ∧
    Records s (s.applyMor m) (some m.part) 4 0x0400 (siteStation ((s.morHolder m.part m.mor.toNat).getD 0) noLoc2 noPc) := by
  have happly : s.applyMor m = s.raise (some m.part) 4 0x0400 (siteStation ((s.morHolder m.part m.mor.toNat).getD 0) noLoc2 noPc) := if_pos hpoison
  rw [happly]
  exact ⟨s.raise_mordants _ _ _ _, s.raise_records _ _ _ _⟩

/-- An add that does not pass the top adds (R359). -/
theorem State.morAdd_of_lt (s : State) (p : Part) (n : Nat) (v : W64) (hroom : (s.mor n).count.toNat + v.toNat < 2 ^ 64) :
    s.morAdd p n v.toNat = s.setMor n { s.mor n with count := (s.mor n).count + v } := by
  have hsum : BitVec.ofNat 64 ((s.mor n).count.toNat + v.toNat) = (s.mor n).count + v :=
    BitVec.eq_of_toNat_eq (by rw [BitVec.toNat_ofNat, BitVec.toNat_add])
  simp only [State.morAdd, hroom, if_true, hsum]

end

/-- Settles O18: MOR.ADD and MOR.SET by `morFire_of_device` and its companions, MOR.WAIT, MOR.READ and the timeout by their own checks, an arrival by
`execMordantOperationArrival_of_first` and what applies it (`State.applyMor_of_add`, `State.applyMor_of_set`, `State.applyMor_of_poison`). -/
theorem mordantInstructionsFire : Obligations.MordantInstructionsFire := by
  unfold Obligations.MordantInstructionsFire
  refine ⟨fun s st p e hhead hjob hlive hreached => ?_, fun s st p e hhead hjob hfailed => ?_, fun op c s st p e hop hhead hjob hstart => ?_,
    fun op c s st p e hop hhead hjob hstart hrem hroute => ?_, fun s st e hhead => ?_, fun s st r rest hread => ?_, fun s k m hm hfirst hway => ?_,
    fun s st u p e m v hwaits hjob hlive hbelow hrun hlong => ?_⟩
  · exact (exec_morWaitFire st s).trans (execMorWaitFire_of_reached hhead hjob hlive hreached)
  · exact ⟨_, (exec_morWaitFire st s).trans (execMorWaitFire_of_failed hhead hjob hfailed), s.failedWait_records p _ _⟩
  · rw [exec_morFire hop]
    have hgo := Entry.goes_of_started hstart
    refine ⟨morFire_of_device hhead hjob hgo, fun m => morFire_of_own hhead hjob hgo, fun hrem hroute hm => ?_⟩
    exact ⟨_, morFire_of_outside hhead hjob hgo hrem hroute hm, s.faultFire_stations st _ _, s.faultFire_morOps st _ _, s.faultAt_records st 1 0x0101 noLoc2 e.pc⟩
  · obtain ⟨x, hx, hkind, hvalue, hxroute, haddr⟩ := morFire_of_away hhead hjob (Entry.goes_of_started hstart) hrem hroute
    exact ⟨_, x, (exec_morFire hop st s).trans hx, rfl, rfl, hkind, hvalue, hxroute, haddr⟩
  · refine ⟨_, (exec_morReadFire st s).trans (execMorReadFire_of_head hhead), rfl, ?_, ?_⟩ <;> rw [State.stn_modSt_same] <;> rfl
  · exact (exec_morReadRegisterWritten st s).trans (execMorReadRegisterWritten_of_read hread)
  · rw [exec_mordantOperationArrival, execMordantOperationArrival_of_first hm hfirst hway]
    refine ⟨fun hgone => ?_, fun hloaded hclean hadd => ?_, fun hloaded hclean hadd hroom => ?_, fun hloaded hclean hset => ?_, fun hloaded hpoison => ?_⟩
    · rw [if_neg (Bool.eq_false_iff.1 hgone)]
    · rw [if_pos hloaded, State.applyMor_of_add _ hclean hadd]
    · rw [if_pos hloaded, State.applyMor_of_add _ hclean hadd]
      exact congrArg _ (State.morAdd_of_lt { s with morOps := s.morOps.eraseIdx k } _ _ _ hroom)
    · rw [if_pos hloaded, State.applyMor_of_set _ hclean hset]
      rfl
    · rw [if_pos hloaded]
      exact ⟨_, rfl, State.applyMor_of_poison { s with morOps := s.morOps.eraseIdx k } hpoison⟩
  · exact ⟨_, (exec_mordantTimeout st u s).trans (execMordantTimeout_of_waited hwaits hjob hlive hbelow hrun hlong), s.faultAt_records st 5 0x0500 noLoc2 e.pc⟩

end Sys2Proof.Machine
end

section
/-!
SUPPORT. Frame and window marks, transfers and the HOLD timeouts (R222 to R235, R287, R320, R362, R383): what each part of a mark changes in its own port or
partition, and what a fault leaves of a partition.
-/
namespace Sys2Proof.Machine

/-! ### A change made to each index in turn -/

section
variable {ι β : Type} {f : State → ι → State} {k k' : State → ι → β}

theorem foldl_keeps_of_notMem (hkeep : ∀ s i j, j ≠ i → k' (f s i) j = k' s j) {l : List ι} {j : ι} (hj : j ∉ l) (s : State) : k' (l.foldl f s) j = k' s j :=
  List.foldlRecOn (motive := fun t => k' t j = k' s j) l f rfl fun t ht i hi => (hkeep t i j fun h => hj (h ▸ hi)).trans ht

/-- Where the step of an index leaves there as `k'` what stood there as `k`, and every other step leaves both alone, the steps of all indices do so for each. -/
theorem foldl_each (hown : ∀ s i, k' (f s i) i = k s i) (hbefore : ∀ s i j, j ≠ i → k (f s i) j = k s j) (hafter : ∀ s i j, j ≠ i → k' (f s i) j = k' s j) {i : ι} :
    ∀ {l : List ι}, l.Nodup → i ∈ l → ∀ s, k' (l.foldl f s) i = k s i
  | a :: l, hl, hi, s => by
    obtain ⟨ha, hl⟩ := List.nodup_cons.1 hl
    obtain rfl | hi := List.mem_cons.1 hi
    · exact (foldl_keeps_of_notMem hafter ha (f s i)).trans (hown s i)
    · exact (foldl_each hown hbefore hafter hl hi (f s a)).trans (hbefore s a i fun h => ha (h ▸ hi))

end

/-! ### One partition changed -/

theorem State.modPart_congr {s : State} {p : Part} {f g : Partition → Partition} (h : f (s.prt p) = g (s.prt p)) : s.modPart p f = s.modPart p g :=
  congrArg (fun x => { s with parts := vset s.parts p x }) h

theorem State.modPart_id (s : State) (p : Part) : s.modPart p id = s := by simp [State.modPart, vmod, vset, vget]

/-! ### What a fault leaves of a partition -/

/-- `y` differs from `x` at most in what the record of a fault means for it: its raise of HOLD and its clean points (R384, R439). -/
def FaultMarks (x y : Partition) : Prop := y = { x with
  faultRaise := y.faultRaise
  sec := { x.sec with images := y.sec.images, epoch := y.sec.epoch, late := y.sec.late, breach := y.sec.breach, cleanReq := y.sec.cleanReq } }

/-- So for every partition of two states. -/
def MarksOnly (s t : State) : Prop := ∀ p, FaultMarks (s.prt p) (t.prt p)

theorem FaultMarks.trans {x y z : Partition} (h : FaultMarks x y) (k : FaultMarks y z) : FaultMarks x z := by
  unfold FaultMarks at *
  rw [h] at k
  exact k

theorem MarksOnly.of_parts {s t : State} (h : t.parts = s.parts) : MarksOnly s t := fun p => by rw [State.prt, State.prt, h]; exact rfl

theorem MarksOnly.refl (s : State) : MarksOnly s s := .of_parts rfl

theorem MarksOnly.trans {s t u : State} (h : MarksOnly s t) (k : MarksOnly t u) : MarksOnly s u := fun p => (h p).trans (k p)

theorem MarksOnly.ite {c : Prop} [Decidable c] {s t u : State} (h : MarksOnly s t) (k : MarksOnly s u) : MarksOnly s (if c then t else u) := by
  split <;> assumption

theorem MarksOnly.foldl {α : Type} {f : State → α → State} (h : ∀ s a, MarksOnly s (f s a)) (l : List α) (s : State) : MarksOnly s (l.foldl f s) :=
  List.foldlRecOn (motive := MarksOnly s) l f (.refl s) fun t ht a _ => ht.trans (h t a)

theorem State.modPart_marks (s : State) (p : Part) {f : Partition → Partition} (hf : ∀ x, FaultMarks x (f x)) : MarksOnly s (s.modPart p f) := fun q => by
  by_cases h : q = p
  · rw [h, State.prt_modPart_same]
    exact hf _
  · rw [State.prt_modPart_other _ _ _ _ h]
    exact rfl

theorem State.suspect_parts (s : State) (st : St) : (s.suspect st).parts = s.parts := by
  simp only [State.suspect, State.breakHour, State.saveReg_parts, State.modStw_parts, State.modHealth_parts, apply_ite State.parts, ite_self]

theorem State.noteFault_marks (s : State) (p : Option Part) (c d : Nat) (x : Site) (e : Bool) : MarksOnly s (s.noteFault p c d x e) := by
  have hraise : ∀ u : State, MarksOnly u (if e then u.modPart (p.getD 0) fun x => { x with faultRaise := true } else u) := fun u =>
    .ite (u.modPart_marks _ fun _ => rfl) (.refl u)
  have hsec : ∀ u : State, MarksOnly u (if p.isSome then u.modPart (p.getD 0) fun x => { x with sec := x.sec.onFault c d u.time e } else u) := fun u =>
    .ite (u.modPart_marks _ fun _ => rfl) (.refl u)
  have hcount : ∀ u : State, MarksOnly u (if c = 0x0D then u.count 0x7016 ((p.getD 0).val + 1) else u) := fun u => .ite (.of_parts rfl) (.refl u)
  have hbreak : ∀ u : State, MarksOnly u u.breakHour := fun u => .of_parts rfl
  have hsuspect : ∀ (u : State) (f : Health → Health), MarksOnly u ((u.suspect (fin x.loc)).modHealth (fin x.loc) f) := fun u _ => .of_parts (u.suspect_parts _)
  simp only [State.noteFault]
  exact (((hraise s).trans (hsec _)).trans (hcount _)).trans (.ite (hsuspect _ _) (.ite (hbreak _) (.refl _)))

theorem State.raise_marks (s : State) (p : Option Part) (c d : Nat) (x : Site) : MarksOnly s (s.raise p c d x) := by
  have hrecord : ∀ (e live : Bool) (r : FaultRec), MarksOnly s
      (if live then { s.noteFault p c d x e with beat := beatAdd (s.noteFault p c d x e).beat r } else (s.noteFault p c d x e).record r) := fun e _ r =>
    (s.noteFault_marks p c d x e).trans (.ite (.of_parts rfl) (.of_parts (State.record_parts _ r)))
  exact .ite (.refl s) (hrecord _ _ _)

/-- A record stands whatever came before it, if that leaves the beat, the time, the record's job and the steward. -/
theorem Records.of_before {s u t : State} {p : Option Part} {c d : Nat} {x : Site} (h : Records u t p c d x) (hbeat : u.beat = s.beat) (htime : u.time = s.time)
    (hjob : (u.prt (p.getD 0)).jobState = (s.prt (p.getD 0)).jobState) (hup : u.stewardUp = s.stewardUp) : Records s t p c d x := by
  simpa only [Records, hbeat, htime, hjob, hup] using h

/-! ### The frame mark -/

/-- What a frame mark does to a partition: the calendar frame counter of a running one starts, stands or advances (R222, R230). -/
def Partition.frameMarked (x : Partition) : Partition :=
  if x.jobState ≠ 3 then x else
    { x with frame := if !x.frameOn then 0 else if x.frameHeld then x.frame else x.frame + 1, frameOn := true, frameHeld := x.held }

/-- What the count of the frame that ends leaves alone. -/
def State.countKept (s : State) : Clocks × W64 × Vector Partition 4 := (s.clk, s.time, s.parts)

theorem State.marginFrame_keeps (s : State) (st : St) : (s.marginFrame st).countKept = s.countKept := by
  have hsuspect : ∀ u : State, State.countKept (if 8 ≤ (u.hlt st).marginRun then (u.suspect st).modHealth st fun h => { h with marginRun := 0 } else u) =
      u.countKept := fun u => by
    split
    · simp only [State.countKept, State.modHealth_clk, State.modHealth_time, State.modHealth_parts, (u.suspect_only st).clk, (u.suspect_only st).time, u.suspect_parts]
    · rfl
  exact hsuspect _

theorem State.countSc_keeps (s : State) (p : Part) : (s.countSc p).countKept = s.countKept := by
  unfold State.countSc
  dsimp only
  split
  · rfl
  · exact foldl_keeps (f := fun (u : State) st => u.modHealth st fun h => { h with spanSc := h.spanSc + u.frameSc st }) State.countKept (fun _ _ => rfl) _ s

/-- What the beats of a station leave alone. -/
def State.frameKept (s : State) : Clocks × Vector Port 28 × Vector Partition 4 := (s.clk, s.ports, s.parts)

theorem State.stationFrame_keeps (s : State) (p : Part) (f : W64) (fresh : Bool) (st : St) : (s.stationFrame p f fresh st).frameKept = s.frameKept := by
  unfold State.stationFrame
  extract_lets rs la aged made counted
  have haged : aged.frameKept = s.frameKept := by
    unfold aged
    split <;> rfl
  have hcounted : counted.frameKept = aged.frameKept := by
    unfold counted
    split <;> rfl
  exact hcounted.trans haged

theorem State.partFrame_of_running {s : State} {p : Part} (h : (s.prt p).jobState = 3) : (s.partFrame p).frameKept = (s.modPart p Partition.frameMarked).frameKept := by
  have hmarked : s.modPart p Partition.frameMarked = s.modPart p fun x => { x with
      frame := if !(s.prt p).frameOn then 0 else if (s.prt p).frameHeld then (s.prt p).frame else (s.prt p).frame + 1, frameOn := true, frameHeld := x.held } :=
    State.modPart_congr (if_neg (not_not.2 h))
  simp only [State.partFrame, h, ne_eq, not_true_eq_false, if_false, hmarked]
  exact foldl_keeps (f := fun u st => State.stationFrame u p _ _ st) State.frameKept (fun u st => u.stationFrame_keeps p _ _ st) _ _

theorem State.partFrame_keeps (s : State) (p : Part) : (s.partFrame p).frameKept = (s.modPart p Partition.frameMarked).frameKept := by
  by_cases h : (s.prt p).jobState = 3
  · exact State.partFrame_of_running h
  · rw [State.modPart_congr (s := s) (p := p) (f := Partition.frameMarked) (g := id) (if_pos h), State.modPart_id]
    exact congrArg _ (if_pos h)

/-- The state with the margins of the stations looked at and the cycles of the frame that ends counted; then every slot and stretch count begins anew. -/
def State.frameCounted (s : State) : State := (List.finRange 4).foldl State.countSc ((List.finRange 18).foldl State.marginFrame s)

/-- The state in which the ports have begun the frame. -/
def State.portsMarked (s : State) : State :=
  (List.finRange 28).foldl State.portFrame { s.frameCounted with clk := { s.frameCounted.clk with stretch := Vector.replicate 73 0, frameMark := some s.frameCounted.time } }

/-- The state that a frame mark leaves (R287). -/
def State.frameMarked (s : State) : State :=
  (List.finRange 4).foldl State.partFrame { s.portsMarked with fab := { s.portsMarked.fab with raises := s.portsMarked.combineRaises } }

theorem execFrameMark_of_due {s : State} (hframe : s.time.toNat % 512 = 0) (hnew : s.clk.frameMark ≠ some s.time)
    (hwindow : s.time.toNat % 4096 = 0 → s.clk.windowMark = some s.time) : execFrameMark s = .next s.frameMarked := by
  have hdue : (decide (s.time.toNat % 512 ≠ 0) || decide (s.clk.frameMark = some s.time) ||
      (decide (s.time.toNat % 4096 = 0) && decide (s.clk.windowMark ≠ some s.time))) = false := by
    simpa [hframe, hnew] using hwindow
  simp only [execFrameMark, hdue, Bool.false_eq_true, if_false, next, State.frameMarked, State.portsMarked, State.frameCounted]

theorem State.frameCounted_keeps (s : State) : s.frameCounted.countKept = s.countKept := by
  rw [State.frameCounted, foldl_keeps State.countKept State.countSc_keeps, foldl_keeps State.countKept State.marginFrame_keeps]

/-- The ports begin a frame: each slot count begins anew, and what is no port's stays (R287). -/
theorem State.portFrames_leave {s t : State} (ht : t = (List.finRange 28).foldl State.portFrame s) : t.clk = s.clk ∧ t.parts = s.parts ∧ ∀ q, (t.port q).slot = 0 := by
  have hsame : ∀ (u : State) i, ((u.portFrame i).port i).slot = 0 := fun u i => congrArg Port.slot (vget_vmod_same _ i _)
  have hother : ∀ (u : State) i j, j ≠ i → ((u.portFrame i).port j).slot = (u.port j).slot := fun u i j h => congrArg Port.slot (vget_vmod_other _ _ _ _ h)
  generalize hl : List.finRange 28 = l at ht
  subst ht
  refine ⟨foldl_keeps (f := State.portFrame) State.clk (fun _ _ => rfl) l s, foldl_keeps (f := State.portFrame) State.parts (fun _ _ => rfl) l s, fun q => ?_⟩
  exact foldl_each (k := fun _ _ => 0) (k' := fun u q => (u.port q).slot) hsame (fun _ _ _ _ => rfl) hother (hl ▸ List.nodup_finRange 28) (hl ▸ List.mem_finRange q) s

/-- The partitions begin a frame: each calendar starts, stands or advances, and the clock and the ports stay (R222). -/
theorem State.partFrames_leave {s t : State} (ht : t = (List.finRange 4).foldl State.partFrame s) : t.clk = s.clk ∧ t.ports = s.ports ∧ ∀ p, t.prt p = (s.prt p).frameMarked := by
  have hclk : ∀ (u : State) p, (u.partFrame p).clk = u.clk := fun u p => congrArg Prod.fst (u.partFrame_keeps p)
  have hports : ∀ (u : State) p, (u.partFrame p).ports = u.ports := fun u p => congrArg (fun k => k.2.1) (u.partFrame_keeps p)
  have hparts : ∀ (u : State) p, (u.partFrame p).parts = (u.modPart p Partition.frameMarked).parts := fun u p => congrArg (fun k => k.2.2) (u.partFrame_keeps p)
  have hsame : ∀ (u : State) i, (u.partFrame i).prt i = (u.prt i).frameMarked := fun u i => (congrArg (vget · i) (hparts u i)).trans (u.prt_modPart_same i _)
  have hother : ∀ (u : State) i j, j ≠ i → (u.partFrame i).prt j = u.prt j := fun u i j h => (congrArg (vget · j) (hparts u i)).trans (u.prt_modPart_other i j _ h)
  generalize hl : List.finRange 4 = l at ht
  subst ht
  refine ⟨foldl_keeps State.clk hclk l s, foldl_keeps State.ports hports l s, fun p => ?_⟩
  exact foldl_each (k := fun u p => (u.prt p).frameMarked) (k' := State.prt) hsame (fun u i j h => congrArg _ (hother u i j h)) hother
    (hl ▸ List.nodup_finRange 4) (hl ▸ List.mem_finRange p) s

theorem State.frameMarked_leaves (s : State) : s.frameMarked.clk = { s.clk with stretch := Vector.replicate 73 0, frameMark := some s.time } ∧
    (∀ q, (s.frameMarked.port q).slot = 0) ∧ ∀ p, s.frameMarked.prt p = (s.prt p).frameMarked := by
  obtain ⟨hclk, htime, hparts⟩ : s.frameCounted.clk = s.clk ∧ s.frameCounted.time = s.time ∧ s.frameCounted.parts = s.parts := by
    simpa only [State.countKept, Prod.mk.injEq] using s.frameCounted_keeps
  obtain ⟨hclkPorts, hpartsPorts, hslot⟩ := State.portFrames_leave (t := s.portsMarked) rfl
  obtain ⟨hclkMark, hports, hprt⟩ := State.partFrames_leave (t := s.frameMarked) rfl
  refine ⟨by rw [hclkMark, hclkPorts, hclk, htime], fun q => ?_, fun p => ?_⟩
  · rw [State.port, hports]
    exact hslot q
  · rw [hprt, State.prt, hpartsPorts, hparts]
    rfl

/-! ### The window mark -/

/-- A partition holds in the window that starts: it asserted HOLD, itself or as a relay, in the window `w` that ends (R229, R382). -/
def State.holdsNext (w : Nat) (s : State) (p : Part) : Bool := s.loaded p && ((s.prt p).asserted || s.sawHold p w)

theorem FaultMarks.holdsNext {s t : State} {p : Part} (h : FaultMarks (s.prt p) (t.prt p)) (w : Nat) : t.holdsNext w p = s.holdsNext w p := by
  unfold FaultMarks at h
  simp only [State.holdsNext, State.loaded, State.sawHold]
  rw [h]

theorem FaultMarks.held {x y : Partition} (h : FaultMarks x y) : y.held = x.held := by
  unfold FaultMarks at h
  rw [h]

/-- What no part of a window mark changes. -/
def State.windowKept (s : State) : Clocks × W64 × Sparse Byte × Sparse Mordant := (s.clk, s.time, s.mem, s.mordants)

theorem EndOnly.windowKept {s t : State} (h : EndOnly s t) : t.windowKept = s.windowKept := by
  simp only [State.windowKept, h.clk, h.time, h.mem, h.mordants]

theorem State.checkLink_keeps (p : Part) (w : Nat) (s : State) (q : PortId) : (State.checkLink p w s q).windowKept = s.windowKept ∧ MarksOnly s (State.checkLink p w s q) := by
  unfold State.checkLink
  split
  · exact ⟨rfl, .refl s⟩
  · split
    · exact ⟨rfl, .of_parts rfl⟩
    · exact ⟨(s.raise_only _ _ _ _).ends.windowKept, s.raise_marks _ _ _ _⟩

/-- A partition at the mark as it has looked at its hold links, counted the window and let the raises that have ended go. -/
def State.windowChecked (w : Nat) (s : State) (p : Part) : State :=
  let held := (s.prt p).asserted || s.sawHold p w
  let s := if held then (s.holdLinks p).foldl (State.checkLink p w) s else s
  let s := if held then s.count 0x9050 (p.val + 1) else s
  (s.prt p).pos.foldl (fun s st => s.pruneRaises p st) s

theorem State.windowChecked_keeps (w : Nat) (s : State) (p : Part) : (s.windowChecked w p).windowKept = s.windowKept ∧ MarksOnly s (s.windowChecked w p) := by
  unfold State.windowChecked
  extract_lets held linked counted
  have hlinked : linked.windowKept = s.windowKept ∧ MarksOnly s linked := by
    unfold linked
    split
    · exact ⟨foldl_keeps State.windowKept (fun u q => (State.checkLink_keeps p w u q).1) _ s, MarksOnly.foldl (fun u q => (State.checkLink_keeps p w u q).2) _ s⟩
    · exact ⟨rfl, .refl s⟩
  have hcounted : counted.windowKept = linked.windowKept ∧ counted.parts = linked.parts := by
    unfold counted
    split <;> exact ⟨rfl, rfl⟩
  have hpruned : ∀ (l : List St) (u : State), (l.foldl (fun u st => State.pruneRaises u p st) u).windowKept = u.windowKept ∧
      (l.foldl (fun u st => State.pruneRaises u p st) u).parts = u.parts := fun l u =>
    ⟨foldl_keeps (f := fun u st => State.pruneRaises u p st) State.windowKept (fun _ _ => rfl) l u,
      foldl_keeps (f := fun u st => State.pruneRaises u p st) State.parts (fun _ _ => rfl) l u⟩
  exact ⟨(hpruned _ _).1.trans (hcounted.1.trans hlinked.1), hlinked.2.trans (.of_parts ((hpruned _ _).2.trans hcounted.2))⟩

theorem State.partWindow_loaded {w : Nat} {s : State} {p : Part} (h : s.loaded p = true) : State.partWindow w s p = (s.windowChecked w p).modPart p fun x =>
    { x with held := (s.prt p).asserted || s.sawHold p w, heldRun := if (s.prt p).asserted || s.sawHold p w then x.heldRun + 1 else 0
             asserted := (s.windowChecked w p).raised p } := by
  simp only [State.partWindow, h, Bool.not_true, Bool.false_eq_true, if_false]
  rfl

theorem State.partWindow_unloaded {w : Nat} {s : State} {p : Part} (h : s.loaded p = false) :
    State.partWindow w s p = s.modPart p fun x => { x with held := false, asserted := false, heldRun := 0 } := by
  simp only [State.partWindow, h, Bool.not_false, if_true]

/-- The mark decides HOLD for its partition (R229); another's it leaves with at most the marks of a fault. -/
theorem State.partWindow_leaves (w : Nat) (s : State) (p : Part) : (State.partWindow w s p).windowKept = s.windowKept ∧
    ((State.partWindow w s p).prt p).held = s.holdsNext w p ∧ ∀ q, q ≠ p → FaultMarks (s.prt q) ((State.partWindow w s p).prt q) := by
  obtain ⟨hkept, hmarks⟩ := s.windowChecked_keeps w p
  cases h : s.loaded p with
  | false =>
    rw [State.partWindow_unloaded h]
    refine ⟨rfl, ?_, fun q hq => ?_⟩
    · rw [State.prt_modPart_same, State.holdsNext, h, Bool.false_and]
    · rw [State.prt_modPart_other _ _ _ _ hq]
      exact rfl
  | true =>
    rw [State.partWindow_loaded h]
    refine ⟨hkept, ?_, fun q hq => ?_⟩
    · rw [State.prt_modPart_same, State.holdsNext, h, Bool.true_and]
    · rw [State.prt_modPart_other _ _ _ _ hq]
      exact hmarks q

/-- The state in which every partition has decided at the start of a window. -/
def State.windowDecided (s : State) : State := (List.finRange 4).foldl (State.partWindow (s.windowNo - 1)) { s with clk := { s.clk with windowMark := some s.time } }

theorem execWindowMark_of_due {s : State} (hwindow : s.time.toNat % 4096 = 0) (hnew : s.clk.windowMark ≠ some s.time) : execWindowMark s = .next { s.windowDecided with
    ports := s.windowDecided.ports.map fun x => { x with seen := x.seen.filter fun v => decide (s.windowNo ≤ v) }
    parts := s.windowDecided.parts.map fun x => { x with heard := x.heard.filter fun v => decide (s.windowNo ≤ v) } } := by
  refine (if_neg ?_).trans rfl
  simp [hwindow, hnew]

theorem State.windowDecided_leaves (s : State) : s.windowDecided.windowKept = ({ s.clk with windowMark := some s.time }, s.time, s.mem, s.mordants) ∧
    ∀ p, (s.windowDecided.prt p).held = s.holdsNext (s.windowNo - 1) p := by
  refine ⟨foldl_keeps State.windowKept (fun u p => (u.partWindow_leaves _ p).1) _ _, fun p => ?_⟩
  exact foldl_each (k := State.holdsNext (s.windowNo - 1)) (k' := fun u p => (u.prt p).held) (fun u i => (u.partWindow_leaves _ i).2.1)
    (fun u i j h => ((u.partWindow_leaves _ i).2.2 j h).holdsNext _) (fun u i j h => ((u.partWindow_leaves _ i).2.2 j h).held) (List.nodup_finRange 4) (List.mem_finRange p) _

/-! ### Transfers and HOLD -/

section
variable {s : State} {st : St} {u : UnitQ} {p : Part} {e : Entry} {q : List Entry}

theorem execTransferStart_of_ready (hqueue : (s.stn st).queue u = e :: q) (hjob : s.jobAt st = some p) (hcal : isCalendar e.word = true) (hnew : e.started = false)
    (hgate : s.gateFailed e = false) (hrun : (s.prt p).held = false) (hon : (s.prt p).frameOn = true) (hlead : leadOver (s.prt p).frame e.beat = true)
    (hready : s.calReady p st u e = true) : execTransferStart st u s = .next (s.modSt st fun x =>
      { x.setQueue u ({ e with started := true } :: q) with sq := { (x.setQueue u ({ e with started := true } :: q)).sq with
        raises := (x.setQueue u ({ e with started := true } :: q)).sq.raises.filter fun r => r.1 ≠ e.seq } }) := by
  simp only [execTransferStart, hqueue, hjob, hcal, hnew, hgate, hrun, hon, hlead, hready, Bool.not_true, Bool.not_false, Bool.and_false, Bool.or_self,
    Bool.false_eq_true, if_false, next]

theorem execTransferStart_of_failed (hqueue : (s.stn st).queue u = e :: q) (hjob : s.jobAt st = some p) (hcal : isCalendar e.word = true) (hnew : e.started = false)
    (hgate : s.gateFailed e = true) : execTransferStart st u s = .next (s.failedWait p (calGMor e.word) e.pc) := by
  simp only [execTransferStart, hqueue, hjob, hcal, hnew, hgate, Bool.not_false, Bool.and_self, if_true, next]

end

/-- The state in which the raises of the partition that have ended are gone (R229). -/
def State.pruned (s : State) (p : Part) : State := (s.prt p).pos.foldl (fun s st => s.pruneRaises p st) s

theorem execHoldStallLimit_of_stalled {s : State} {p : Part} (hheld : (s.prt p).held = true)
    (hlong : 4096 + s.reg 0x6151 (p.val + 1) * 1000000 < (s.prt p).heldRun * 4096 + s.time.toNat % 4096) :
    execHoldStallLimit p s = .next (((s.pruned p).holdRaisers p).foldl (fun s l => s.raise (some p) 6 0x0602 l) (s.pruned p)) := by
  simp only [execHoldStallLimit, hheld, Nat.not_le.2 hlong, Bool.not_true, decide_false, Bool.or_self, Bool.false_eq_true, if_false, next]
  rfl

/-- A station's raise stands among the raisers (R232). -/
theorem State.station_mem_holdRaisers {s : State} {p : Part} {st : St} {r : Nat × Nat} (hst : st ∈ (s.prt p).pos) (hr : r ∈ (s.stn st).sq.raises) :
    siteStation st noLoc2 r.2 ∈ s.holdRaisers p := by
  have hown : siteStation st noLoc2 r.2 ∈ (s.stn st).sq.raises.map fun r => siteStation st noLoc2 r.2 := List.mem_map_of_mem hr
  simp only [State.holdRaisers, List.mem_append, List.mem_flatMap]
  exact .inl (.inl (.inl ⟨st, hst, .inl hown⟩))

theorem execTestShareSpanEnd_of_span {s : State} {p : Part} (hrun : (s.prt p).jobState = 3) (hspan : (s.prt p).spanAt.toNat + 1048576 ≤ (s.prt p).frame.toNat) :
    execTestShareSpanEnd p s = .next ((s.prt p).pos.foldl (State.shareOf p) (s.modPart p fun x => { x with spanAt := x.spanAt + 1048576 })) := by
  have hover : ¬ (s.prt p).frame.toNat < (s.prt p).spanAt.toNat + spanFrames := Nat.not_lt.2 hspan
  simp only [execTestShareSpanEnd, hrun, hover, ne_eq, not_true_eq_false, decide_false, Bool.or_self, Bool.false_eq_true, if_false, next]
  rfl

theorem execHoldSightGap_of_silent {s : State} {q : PortId} (hup : s.portUp q = true) (hseen : (s.port q).gap = false) :
    execHoldSightGap q s = .next ((s.modPort q fun x => { x with gap := true }).count 0x9075 (q.val + 1)) := by
  simp only [execHoldSightGap, hup, hseen, Bool.not_true, Bool.or_self, Bool.false_eq_true, if_false, next]

/-- The check that a sight gap put off is made, and HOLD showed in its window or was owed by no job (R383). -/
theorem execSightGapDeferredCheck_of_over {s : State} {q : PortId} {p : Part} {w : Nat} (hcheck : (s.port q).gapCheck = some w) (howner : s.portOwner q = some p)
    (hover : (s.port q).gap = true → (w + 1) * 4096 + 1000 ≤ s.time.toNat) : execSightGapDeferredCheck q s = .next (
      let u := s.modPort q fun x => { x with gapCheck := none }
      if (s.port q).seen.contains w || !s.loaded p then u else u.raise (some p) 6 0x0600 (sitePort q)) := by
  have hdue : ((s.port q).gap && decide (s.time.toNat < (w + 1) * 4096 + 1000)) = false := by simpa using hover
  simp only [execSightGapDeferredCheck, hcheck, howner, hdue, Bool.false_eq_true, if_false, next]
  exact (apply_ite Host.Outcome.next _ _ _).symm

/-- Settles O25: the marks by what they leave of each port and partition (`State.frameMarked_leaves`, `State.windowDecided_leaves`); a transfer, a stall and a sight gap by
their own checks. -/
theorem calendarMarks : Obligations.CalendarMarks := by
  unfold Obligations.CalendarMarks
  refine ⟨fun s hframe hnew hwindow => ?_, fun s hwindow hnew => ?_, fun s st u p e q hqueue hjob hcal hnew hgate hrun hon hlead hready => ?_,
    fun s st u p e q hqueue hjob hcal hnew hgate => ?_, fun s p hheld hlong => ?_, fun s p hrun hspan => ?_, fun s q hup hseen => ?_,
    fun s q p w hcheck howner hshown hover => ?_, fun s q p w hcheck howner hshown hloaded hover => ?_⟩
  · obtain ⟨hclk, hslot, hprt⟩ := s.frameMarked_leaves
    refine ⟨_, (exec_frameMark s).trans (execFrameMark_of_due hframe hnew hwindow), hclk, hslot, fun p hrun => ?_⟩
    rw [hprt, Partition.frameMarked, if_neg (not_not.2 hrun)]
    exact ⟨rfl, rfl, rfl⟩
  · obtain ⟨hkept, hheld⟩ := s.windowDecided_leaves
    have hexec := (exec_windowMark s).trans (execWindowMark_of_due hwindow hnew)
    generalize s.windowDecided = v at hkept hheld hexec
    simp only [State.windowKept, Prod.mk.injEq] at hkept
    obtain ⟨hclk, htime, hmem, hmordants⟩ := hkept
    refine ⟨_, hexec, hclk, htime, hmem, hmordants, fun p => Eq.trans ?_ (hheld p)⟩
    simp only [State.prt, vget, Vector.getElem_map]
  · exact (exec_transferStart st u s).trans (execTransferStart_of_ready hqueue hjob hcal hnew hgate hrun hon hlead hready)
  · have hfail := s.failedWait_records p (calGMor e.word) e.pc
    exact ⟨_, (exec_transferStart st u s).trans (execTransferStart_of_failed hqueue hjob hcal hnew hgate), s.raise_stations _ _ _ _, hfail⟩
  · exact ⟨s.pruned p, rfl, (exec_holdStallLimit p s).trans (execHoldStallLimit_of_stalled hheld hlong), fun st hst r hr => State.station_mem_holdRaisers hst hr⟩
  · exact (exec_testShareSpanEnd p s).trans (execTestShareSpanEnd_of_span hrun hspan)
  · exact (exec_holdSightGap q s).trans (execHoldSightGap_of_silent hup hseen)
  · rw [exec_sightGapDeferredCheck, execSightGapDeferredCheck_of_over hcheck howner hover]
    exact congrArg _ (if_pos (by simpa using hshown))
  · rw [exec_sightGapDeferredCheck, execSightGapDeferredCheck_of_over hcheck howner hover]
    have hraise := (s.modPort q fun x => { x with gapCheck := none }).raise_records (some p) 6 0x0600 (sitePort q)
    refine ⟨_, congrArg _ (if_neg (by rw [hshown, hloaded]; decide)), ?_, hraise⟩
    rw [State.port, State.raise_ports]
    exact congrArg Port.gapCheck (vget_vmod_same _ q _)

end Sys2Proof.Machine
end

section
/-!
SUPPORT. Jobs and restores (R440 to R442, R483 to R485), the monitor (R409, R502) and the acknowledgement of records (R415).
-/
namespace Sys2Proof.Machine

/-! ### Writes of whole DOMAIN values -/

/-- A write request that is accepted comes to its row, and the row's effect follows the response (R477, R550). -/
theorem serve_of_accepts {s : State} {via : Via} {r : DictReq} {data : List Byte} (h : s.acceptsReq via r data = true) (row : State → Nat × List Byte × (State → State)) :
    serve via r data (fun s role => if s.writeStatus role r ≠ 0 then (s.writeStatus role r, [], id) else row s) s =
      .next ((row s).2.2 (s.reply via r (row s).1 (row s).2.1)) := by
  simp only [State.acceptsReq, State.serves, Bool.and_eq_true, Option.isNone_iff_eq_none, Bool.not_eq_true', decide_eq_true_eq] at h
  obtain ⟨⟨⟨⟨hanswers, hasks⟩, hkept⟩, hmode⟩, hstatus⟩ := h
  simp only [serve, hanswers, hasks, hkept, hmode, hstatus, Bool.not_true, Bool.or_self, Bool.false_eq_true, if_false, ne_eq, not_true_eq_false, next]

/-- A write of a whole DOMAIN value that is accepted is answered with the status of its row, whose effect follows once the staging copy is gone (R477, R550). -/
theorem commandWhole_of_accepts {s : State} {via : Via} {idx sub : Nat} {data : List Byte} (h : s.acceptsReq via (wholeReq idx sub data) data = true)
    (act : State → Nat × (State → State)) : commandWhole via idx sub data act s = .next ((act s).2 (s.answeredWhole via idx sub data (act s).1)) :=
  serve_of_accepts h fun s => ((act s).1, [], fun u => (act s).2 (u.unstage via idx sub))

theorem checked_of_zero {c : Nat} (h : c = 0) (f : State → State) : checked c f = (0, f) := by rw [checked, if_pos h, h]

theorem checked_of_refused {c : Nat} (h : c ≠ 0) (f : State → State) : checked c f = (c, id) := by rw [checked, if_neg h]

/-- With a job loaded, a load is answered 05h (R483). -/
theorem State.loadStatus_of_loaded {s : State} {p : Part} {v : Nat} (hres : bits v 31 0 = 0) (hloaded : s.loaded p = true) : s.loadStatus p v = 5 := by
  simp only [State.loadStatus, firstOf, hres, hloaded, Bool.true_or, ne_eq, not_true_eq_false, decide_false, Bool.false_eq_true, if_false, if_true]

/-! ### A job's end -/

theorem State.setJobState_prt (s : State) (p : Part) (v : Byte) : (s.setJobState p v).prt p = { s.prt p with jobState := v } :=
  (congrArg (vget · p) (State.notify_parts _ _ _ _)).trans (s.prt_modPart_same p _)

theorem State.dropFetches_parts (s : State) (l : List St) : (s.dropFetches l).parts = s.parts := by
  simp only [State.dropFetches]
  exact foldl_keeps (f := fun (s : State) (f : Fetch) => s.count 0x9040 (f.st.val + 1)) State.parts (fun _ _ => rfl) _ s

/-- A job that ends shows its state; its raise of HOLD stays (R208, R484). -/
theorem State.endJob_prt (s : State) (p : Part) (v : Byte) : ((s.endJob p v).prt p).jobState = v ∧ ((s.endJob p v).prt p).faultRaise = (s.prt p).faultRaise := by
  have hstop : ((s.prt p).pos.foldl (fun u st => State.modSt u st Station.jobEnd) s).parts = s.parts :=
    foldl_keeps (f := fun (u : State) (st : St) => u.modSt st Station.jobEnd) State.parts (fun _ _ => rfl) _ s
  have hdrop := (State.dropFetches_parts ((s.prt p).pos.foldl (fun u st => State.modSt u st Station.jobEnd) s) (s.prt p).pos).trans hstop
  rw [State.endJob, State.setJobState_prt, State.prt_modPart_same]
  exact ⟨rfl, congrArg (fun v => (vget v p).faultRaise) hdrop⟩

/-- A command ends a live job in state 07h, with HOLD raised (R485). -/
theorem State.endByCommand_prt {s : State} {p : Part} (hlive : jobLive (s.beatEnd.prt p) = true) :
    ((s.endByCommand p).prt p).jobState = 7 ∧ ((s.endByCommand p).prt p).faultRaise = true := by
  have hend : s.endByCommand p = (s.beatEnd.modPart p fun x => { x with faultRaise := true }).endJob p 7 := if_pos hlive
  obtain ⟨hstate, hraise⟩ := (s.beatEnd.modPart p fun x => { x with faultRaise := true }).endJob_prt p 7
  rw [hend]
  exact ⟨hstate, hraise.trans (congrArg Partition.faultRaise (State.prt_modPart_same _ p _))⟩

/-- An unloaded partition has no job and no stations (R485, R498). -/
theorem State.unload_prt (s : State) (p : Part) : ((s.unload p).prt p).jobState = 0 ∧ ((s.unload p).prt p).pos = [] := by
  have hpos : (((s.beatEnd.jobDefaults p).clearFabric p).prt p).pos = [] := by
    simp only [State.jobDefaults]
    exact congrArg Partition.pos (State.prt_modPart_same _ p _)
  rw [State.unload, State.setJobState_prt]
  exact ⟨rfl, hpos⟩

/-! ### Restores -/

/-- A restore that fails is over, its arming shows it, and it records fault 0Bh (R441). -/
theorem State.restoreFail_ends (s : State) (p : Part) : ((s.restoreFail p).sec p).restore = none ∧ ((s.restoreFail p).sec p).arm = 3 ∧
    Records s (s.restoreFail p) (some p) 0x0B 0x0B00 (siteSteward noLoc2) := by
  have hcleared : (s.modSec p fun x => { x with restore := none, arm := 3 }).prt p = { s.prt p with sec := { (s.prt p).sec with restore := none, arm := 3 } } :=
    s.prt_modPart_same p _
  have hmarks := (s.modSec p fun x => { x with restore := none, arm := 3 }).raise_marks (some p) 0x0B 0x0B00 (siteSteward noLoc2) p
  have hrecord := (s.modSec p fun x => { x with restore := none, arm := 3 }).raise_records (some p) 0x0B 0x0B00 (siteSteward noLoc2)
  rw [hcleared] at hmarks
  unfold FaultMarks at hmarks
  refine ⟨?_, ?_, hrecord.of_before rfl rfl (by rw [Option.getD_some, hcleared]) rfl⟩ <;> rw [State.sec, State.restoreFail, hmarks]

section
variable {s : State} {p : Part} {k : Nat} {data : List Byte} {r : Restore} {b : Twr × Nat}

/-- A block of a partner image, or of a Sepia image that has been read, comes to land (R441, R528). -/
theorem execRestoreBlockLands_of_due (hrestore : (s.sec p).restore = some r) (hnew : r.landed.contains k = false) (hblock : (s.securedBlocks p)[k]? = some b)
    (hlen : data.length = 65536) (htier : r.img.tier ≠ 2) (hread : r.img.tier = 1 → ∃ ok, r.read.find? (fun e => e.1 = k) = some (k, ok)) :
    execRestoreBlockLands p k data s = .next (s.landBlock p k (decide (r.img.tier ≠ 1) || decide (r.read.find? (fun e => e.1 = k) = some (k, true))) data) := by
  have hin : ¬ (s.securedBlocks p).length ≤ k := Nat.not_le.2 (List.getElem?_eq_some_iff.1 hblock).1
  have hthere : (decide (r.img.tier = 1) && (r.read.find? fun e => decide (e.1 = k)).isNone) = false := by
    simp only [Bool.and_eq_false_iff, decide_eq_false_iff_not]
    refine or_iff_not_imp_left.2 fun h => ?_
    obtain ⟨ok, hok⟩ := hread (not_not.1 h)
    rw [hok]
    rfl
  simp only [execRestoreBlockLands, hrestore, hnew, hin, hlen, htier, hthere, ne_eq, not_true_eq_false, decide_false, Bool.or_self, Bool.false_eq_true, if_false, next]

/-- A block with a right CRC lands, unless an epoch of an earlier job holds its place (R188, R441). -/
theorem State.landBlock_of_right (hrestore : (s.sec p).restore = some r) (hblock : (s.securedBlocks p)[k]? = some b)
    (hcrc : ((r.img.crcs.find? fun e => e.1 = k).map fun e => e.2.toNat) = some (crc32c data)) : s.landBlock p k true data =
      if s.forbids b.2 65536 then s.restoreForbidden p b.1 else State.modSec (if s.towerServes b.1 b.2 then s.towerWrite b.2 (clean data) else s) p fun x =>
        { x with restore := some { r with landed := setAdd r.landed k } } := by
  simp only [State.landBlock, hrestore, hblock, hcrc, Bool.not_true, ne_eq, not_true_eq_false, decide_false, Bool.or_self, Bool.false_eq_true, if_false]

/-- One that cannot be read or has a wrong CRC fails the restore (R441). -/
theorem State.landBlock_of_wrong {ok : Bool} (hrestore : (s.sec p).restore = some r) (hblock : (s.securedBlocks p)[k]? = some b)
    (hwrong : ok = false ∨ ((r.img.crcs.find? fun e => e.1 = k).map fun e => e.2.toNat) ≠ some (crc32c data)) : s.landBlock p k ok data = s.restoreFail p := by
  simp only [State.landBlock, hrestore, hblock]
  exact if_pos (by simpa using hwrong)

theorem execRestoreComplete_of_landed (hrestore : (s.sec p).restore = some r) (hhdr : r.hdrOk = true) (hrec : r.recOk = true)
    (hall : (s.securedBlocks p).length ≤ r.landed.length) : execRestoreComplete p s = .next (State.startBound (s.modSec p fun x => { x with
      restore := none, arm := 0, sc := some (r.img.step.toNat : Int), j := 0, high := r.img.step + 1, cleanReq := false
      images := if x.images.contains { r.img with complete := true } then x.images else { r.img with complete := true } :: x.images }) p) := by
  simp only [execRestoreComplete, hrestore, hhdr, hrec, Nat.not_lt.2 hall, Bool.not_true, decide_false, Bool.or_self, Bool.false_eq_true, if_false, next]

end

/-! ### The monitor and the log -/

theorem execRiskEstimateUpdate_of_up {s : State} (hup : s.stewardUp = true) :
    execRiskEstimateUpdate s = .next ((List.finRange 4).foldl (fun u p => u.setReg 0x7013 (p.val + 1) (u.riskOf p)) s.noteAll) := by
  simp only [execRiskEstimateUpdate, hup, Bool.not_true, Bool.false_eq_true, if_false, next]

theorem execCleanHourTick_of_hour {s : State} (hup : s.stewardUp = true) (hhour : s.passed s.stw.hourAt hourNs = true) : execCleanHourTick s = .next
    ((s.modStw fun x => { x with hourAt := s.time, hourBad := false }).saveReg 0x7015 0
      (if s.hourBroken then 0 else if s.reg 0x4020 0 % 8 < 3 ∧ s.rotatedInHour = true then min (s.reg 0x7015 0 + 1) 0xFFFFFFFF else s.reg 0x7015 0)) := by
  simp only [execCleanHourTick, hup, hhour, Bool.not_true, Bool.or_self, Bool.false_eq_true, if_false, next, Bool.and_eq_true, decide_eq_true_eq]

theorem State.reply_acked (s : State) (via : Via) (r : DictReq) (status : Nat) (data : List Byte) : (s.reply via r status data).acked = s.acked := by
  unfold State.reply State.answer State.vector
  cases via with
  | pf f =>
    dsimp only
    split
    · rfl
    · split <;> rfl
  | session n q => rfl

theorem execLogAcknowledge_of_logged {s : State} {via : Via} {q : W16} {k : Nat} (h : s.accepts via 0x7002 0 (leBytes 2 q.toNat) = true)
    (hk : s.faults.findIdx? (fun r => r.seq = q) = some k) : ∃ t, execLogAcknowledge via q s = .next t ∧ t.acked = max s.acked (k + 1) ∧ t.faults = s.faults := by
  rw [execLogAcknowledge, command_of_accepts h]
  simp only [hk]
  exact ⟨_, rfl, congrArg (max · (k + 1)) (s.reply_acked via _ _ _), s.reply_faults via _ _ _⟩

theorem execLogAcknowledge_of_unknown {s : State} {via : Via} {q : W16} (h : s.accepts via 0x7002 0 (leBytes 2 q.toNat) = true)
    (hk : s.faults.findIdx? (fun r => r.seq = q) = none) : execLogAcknowledge via q s = .next (s.answered via 0x7002 0 (leBytes 2 q.toNat) 3) := by
  rw [execLogAcknowledge, command_of_accepts h]
  simp only [hk, id]

/-- Settles O38: a command's effect follows its answer (`command_of_accepts`, `commandWhole_of_accepts`); what the end of a job leaves is `State.endByCommand_prt` and
`State.unload_prt`; a block lands by `State.landBlock_of_right` or fails its restore (`State.restoreFail_ends`). -/
theorem restoresAndJobs : Obligations.RestoresAndJobs := by
  unfold Obligations.RestoresAndJobs
  refine ⟨fun s via p req iso e h hstatus => ?_, fun s via p req iso e h hres hloaded => ?_, fun s via p h hlive => ?_, fun s via p h hdead => ?_,
    fun s via p h hloaded hdead => ?_, fun s via p h hrefused => ?_, fun s p => ?_, fun s via p req h hstatus => ?_,
    fun s p k data r b hrestore hnew hblock hlen htier hread => ?_, fun s p r hrestore hhdr hrec hall => ?_, fun s hup => ?_, fun s hup hhour => ?_, fun s via q h => ?_⟩
  · rw [exec_jobLoad, execJobLoad, commandWhole_of_accepts h, checked_of_zero hstatus]
  · rw [exec_jobLoad, execJobLoad, commandWhole_of_accepts h, State.loadStatus_of_loaded hres hloaded, checked_of_refused (by decide)]
    rfl
  · rw [exec_jobEnd, execJobEnd, command_of_accepts h, if_pos hlive]
  · rw [exec_jobEnd, execJobEnd, command_of_accepts h, if_neg (Bool.eq_false_iff.1 hdead)]
    rfl
  · rw [exec_jobUnload, execJobUnload, command_of_accepts h, if_pos (by rw [hloaded, hdead]; rfl)]
  · have hnot : ¬ (s.loaded p && !jobLive (s.prt p)) = true := by
      obtain hfree | hlive := hrefused
      · simp [hfree]
      · simp [hlive]
    rw [exec_jobUnload, execJobUnload, command_of_accepts h, if_neg hnot]
    rfl
  · exact ⟨State.endByCommand_prt, s.unload_prt p⟩
  · rw [exec_restoreArm, execRestoreArm, commandWhole_of_accepts h, checked_of_zero hstatus]
  · rw [exec_restoreBlockLands, execRestoreBlockLands_of_due hrestore hnew hblock hlen htier hread]
    refine ⟨fun hok hcrc => ?_, fun hwrong => ?_⟩
    · have hgood : (decide (r.img.tier ≠ 1) || decide (r.read.find? (fun e => e.1 = k) = some (k, true))) = true := by
        by_cases h1 : r.img.tier = 1
        · rw [hok h1, decide_eq_true rfl, Bool.or_true]
        · rw [decide_eq_true h1, Bool.true_or]
      rw [hgood, State.landBlock_of_right hrestore hblock hcrc]
      exact ⟨fun hfree => congrArg _ (if_neg (Bool.eq_false_iff.1 hfree)), fun hheld => congrArg _ (if_pos hheld)⟩
    · refine ⟨_, congrArg _ (State.landBlock_of_wrong hrestore hblock (hwrong.imp_left fun hbad => ?_)), s.restoreFail_ends p⟩
      simp [hbad.1, hbad.2]
  · exact (exec_restoreComplete p s).trans (execRestoreComplete_of_landed hrestore hhdr hrec hall)
  · exact (exec_riskEstimateUpdate s).trans (execRiskEstimateUpdate_of_up hup)
  · exact (exec_cleanHourTick s).trans (execCleanHourTick_of_hour hup hhour)
  · rw [exec_logAcknowledge]
    exact ⟨fun k => execLogAcknowledge_of_logged h, execLogAcknowledge_of_unknown h⟩

end Sys2Proof.Machine
end

section
/-!
SUPPORT. The end of a station's program (R253, R254, R484), and an opcode that no table lists (R247).
-/
namespace Sys2Proof.Machine

/-! ### CTL.END -/

/-- The station as its CTL.END fires: it issues nothing further and reports done (R253). -/
def Station.reported (x : Station) : Station := { x with sq := { x.sq with endPending := none, stopped := true, done := true } }

/-- With its work complete and no vat or tile open, a CTL.END fires and the steward looks at its job (R253, R254, R484). -/
theorem execCtlEndFire_of_closed {s : State} {st : St} {p : Part} {pc : Nat} (hend : (s.stn st).sq.endPending = some pc) (hjob : s.jobAt st = some p)
    (hidle : s.idleForEnd st = true) (hvats : (s.stn st).vats.toList.any Option.isSome = false) (htiles : (s.stn st).tiles.toList.any Option.isSome = false) :
    execCtlEndFire st s = .next (((s.modSt st Station.reported).emit (.done st)).reportDone p) := by
  simp only [execCtlEndFire, hend, hjob, hidle, hvats, htiles, Bool.not_true, Bool.or_self, Bool.false_eq_true, if_false, next]
  rfl

/-- The job that a station is active in runs. -/
theorem State.jobAt_runs {s : State} {st : St} {p : Part} (h : s.jobAt st = some p) : (s.prt p).jobState = 3 ∧ st ∈ (s.prt p).pos := by
  simpa using List.find?_some h

theorem State.reportDone_stn (s : State) (p : Part) (a : St) : (s.reportDone p).stn a = s.stn a := by
  unfold State.reportDone
  split
  · exact congrArg (vget · a) (State.setJobState_stations _ p 5)
  · rfl

/-- A running job that no fault of the beat ends is over once each of its stations is done (R18, R484). -/
theorem State.reportDone_prt {s : State} {p : Part} (hup : s.stewardUp = true) (hclean : s.struck p = false) (hrun : (s.prt p).jobState = 3)
    (hdone : ∀ a ∈ (s.prt p).pos, (s.stn a).sq.done = true) (hactive : (s.prt p).pos ≠ []) :
    (s.reportDone p).prt p = { s.prt p with endTime := s.time, jobState := 5 } := by
  have hall : ((s.prt p).pos.all fun a => (s.stn a).sq.done) = true := List.all_eq_true.2 hdone
  rw [State.reportDone, if_pos (by simp [hup, hclean, hrun, hall, hactive]), State.setJobState_prt, State.prt_modPart_same]

/-- The last station of a job to report done ends it (R484). -/
theorem State.reportDone_of_last {s : State} {st : St} {p : Part} (hjob : s.jobAt st = some p) (hup : s.stewardUp = true) (hclean : s.struck p = false)
    (hothers : ∀ a ∈ (s.prt p).pos, a ≠ st → (s.stn a).sq.done = true) :
    (((s.modSt st Station.reported).emit (.done st)).reportDone p).prt p = { s.prt p with endTime := s.time, jobState := 5 } := by
  obtain ⟨hrun, hin⟩ := State.jobAt_runs hjob
  refine State.reportDone_prt hup hclean hrun (fun a ha => ?_) (List.ne_nil_of_mem hin)
  by_cases hself : a = st
  · rw [hself, State.emit_stn, State.stn_modSt_same]
    rfl
  · rw [State.emit_stn, State.stn_modSt_other _ _ _ _ hself]
    exact hothers a ha hself

/-! ### An unlisted opcode -/

theorem execUnlistedOpcode_of_unlisted {s : State} {st : St} {p : Part} {w : W128} (hissue : s.issuing st = some p) (hpc : (s.stn st).sq.pc < (s.prt p).prog * 256)
    (hword : (s.stn st).instrAt (s.prt p).prog (s.stn st).sq.pc = (w, false)) (hunlisted : listedOpcodes.contains (opc w) = false) :
    execUnlistedOpcode st s = .next (s.faultIssue st noLoc2 (s.stn st).sq.pc) := by
  simp only [execUnlistedOpcode, hissue, hword, hunlisted, Nat.not_le.2 hpc, Bool.false_eq_true, if_false, next]

/-- Settles O4: CTL.END fires by `execCtlEndFire_of_closed`, and the last station of the job ends it (`State.reportDone_of_last`); an opcode that is not listed is a fault at issue
(`execUnlistedOpcode_of_unlisted`). -/
theorem programEndsOrFaultsOnUnlisted : Obligations.ProgramEndsOrFaultsOnUnlisted := by
  unfold Obligations.ProgramEndsOrFaultsOnUnlisted
  refine ⟨fun s st p pc hend hjob hidle hvats htiles => ?_, fun s st p w hissue hpc hword hunlisted => ?_⟩
  · have hnoVat : (s.stn st).vats.toList.any Option.isSome = false := toList_any_eq_false fun v => congrArg Option.isSome (hvats v)
    have hnoTile : (s.stn st).tiles.toList.any Option.isSome = false := toList_any_eq_false fun i => congrArg Option.isSome (htiles i)
    refine ⟨_, (exec_ctlEndFire st s).trans (execCtlEndFire_of_closed hend hjob hidle hnoVat hnoTile), (State.reportDone_stn _ p st).trans (s.stn_modSt_same st _),
      fun a ha => (State.reportDone_stn _ p a).trans (s.stn_modSt_other st a _ ha), fun hup hclean hothers => ?_⟩
    rw [State.reportDone_of_last hjob hup hclean hothers]
  · exact ⟨_, (exec_unlistedOpcode st s).trans (execUnlistedOpcode_of_unlisted hissue hpc hword hunlisted), s.faultAt_records st 1 0x0100 noLoc2 _⟩

end Sys2Proof.Machine
end

section
/-!
SUPPORT. Engine descriptors and NET.SEND as they fire (R271, R272): a send stands as a transfer (R341, R343), or on a route of role 11b as a write of the device (R346).
-/
namespace Sys2Proof.Machine

section
variable {s : State} {st : St} {p : Part} {e : Entry}

/-! ### ENG.* -/

/-- The descriptor of an engine instruction on its way to its engine, as local store holds it (R271). -/
def Station.descFor (x : Station) (st : St) (p : Part) (e : Entry) (len : Nat) (d : DescTo) : DescFlight :=
  ⟨d, st, p, e.pc, BitVec.ofNat 1024 (leP (x.lsRead (kr e.k (fld e.word 12 8)).toNat len)), anyPoison (x.lsRead (kr e.k (fld e.word 12 8)).toNat len)⟩

/-- The three engine instructions fire alike, each with the length of its descriptor. -/
theorem exec_engFire {op len : Nat} {c : St → Instr}
    (hop : op = 0x60 ∧ len = 64 ∧ c = Instr.engRouteFire ∨ op = 0x61 ∧ len = 64 ∧ c = Instr.engXposeFire ∨ op = 0x62 ∧ len = 128 ∧ c = Instr.engMadderFire)
    (st : St) (s : State) : exec (c st) s = engFire op len st s := by
  obtain ⟨rfl, rfl, rfl⟩ | ⟨rfl, rfl, rfl⟩ | ⟨rfl, rfl, rfl⟩ := hop
  · exact exec_engRouteFire st s
  · exact exec_engXposeFire st s
  · exact exec_engMadderFire st s

/-- A descriptor that lies aligned below the program region leaves for an engine with a credit (R271). -/
theorem engFire_of_credit {op len : Nat} {d : DescTo} (hhead : s.headOp st .eng op = some e) (hjob : s.jobAt st = some p) (hstart : e.started = true)
    (hdest : descDest (s.stn st) e = some d) (halign : (kr e.k (fld e.word 12 8)).toNat % len = 0)
    (hlocal : (kr e.k (fld e.word 12 8)).toNat + len ≤ progBase (s.prt p).prog) (hcredit : s.descCredit p d = true) :
    engFire op len st s = .next { s.modSt st fun x => x.pop .eng with descs := s.descs ++ [(s.stn st).descFor st p e len d] } := by
  simp only [engFire, hhead, hjob, hstart, hdest, halign, Nat.not_lt.2 hlocal, hcredit, ne_eq, not_true_eq_false, decide_false, Bool.or_self, Bool.not_true, Bool.false_eq_true,
    if_false, next, Station.descFor]

/-! ### NET.SEND -/

/-- The destination address of a NET.SEND (R272). -/
def Entry.sendAddr (e : Entry) : Nat := (kr e.k (fld e.word 17 13)).toNat

/-- The mordant that the last block of a NET.SEND adds to, as an offset of the partition's range (R361). -/
def State.sendMor (s : State) (p : Part) (e : Entry) : W16 := s.morOffset p ((kr e.k (fld e.word 56 52)).toNat % 65536)

/-- A send to memory on a route of role 11b ends in the device itself (R346). -/
def State.sendsHere (s : State) (p : Part) (e : Entry) : Bool := decide (netKind e.word = 0) && s.ownRoute p (netRoute e.word)

/-- The send that a NET.SEND would make is a fault: it is not aligned, its kind is not the one that its route of role 11b carries, or in the device itself it leaves the partition's windows or
mordants (R272, R338, R346, R361). -/
def State.refusesSend (s : State) (p : Part) (e : Entry) (y : Vat) : Bool :=
  (decide (netKind e.word ≠ 1) && (decide ((y.slot y.head).count % 16 ≠ 0) || decide (e.sendAddr % 16 ≠ 0))) ||
  (decide (netKind e.word ≠ 2) && s.ownKindFault p (netRoute e.word) (netKind e.word = 1)) ||
  (s.sendsHere p e && (!s.inWin p e.sendAddr (y.slot y.head).count || (netMen e.word && (s.morAt p (s.sendMor p e).toNat).isNone)))

/-- The transfer as which the head slot of a vat goes to another device (R272, R341, R343). -/
def State.sendXfer (s : State) (st : St) (p : Part) (e : Entry) (y : Vat) : Xfer where
  kind := if netKind e.word = 1 then .reduce else if netKind e.word = 2 then .multicast else .write
  st := st
  part := p
  pc := e.pc
  vat := (netVat e.word).val
  slot := y.head
  route := if netKind e.word = 2 then (kr e.k (fld e.word 22 18)).toNat % 65536 else netRoute e.word
  dest := (kr e.k (fld e.word 22 18)).setWidth 16
  addr := e.sendAddr
  data := (s.stn st).slotRead y y.head 0 (y.slot y.head).count
  bytes := (y.slot y.head).count
  blk := 0
  rpart := fld e.word 40 29
  fmt := fld e.word 28 25
  hdr := false
  ftag := 0
  dpart := p.val
  start := s.startFrame p e
  flg := if netKind e.word = 1 then (y.slot y.head).flg else 0
  base := 0
  ridx := 0
  value := 0
  last := if netMen e.word then some (s.sendMor p e) else none

/-- The write as which it goes to memory of the device itself (R346). -/
def State.sendWrite (s : State) (st : St) (p : Part) (e : Entry) (y : Vat) : MemWrite where
  who := st
  part := p
  pc := e.pc
  vat := (netVat e.word).val
  addr := e.sendAddr
  data := (s.stn st).slotRead y y.head 0 (y.slot y.head).count
  acc := false
  mordant := if netMen e.word then s.morAt p (s.sendMor p e).toNat else none
  written := false
  parts := partsOf e.sendAddr (y.slot y.head).count

/-- The station as a NET.SEND takes the head slot of its vat (R194, R272). -/
def Station.sent (e : Entry) (y : Vat) (x : Station) : Station := (x.pop .net).setVat (netVat e.word) (some (y.take false false))

variable {y : Vat} (hhead : s.headOp st .net 0x70 = some e) (hjob : s.jobAt st = some p) (hvat : (s.stn st).vat (netVat e.word) = some y) (hstart : e.started = true)
  (hfull : headFull y = true) (hfence : (s.stn st).vatFenced (netVat e.word).val e.seq = false) (hroom : s.inFlight st < 32)
include hhead hjob hvat hstart hfull hfence hroom

/-- A NET.SEND that has started, with its head slot Full and room in flight, fires: it is refused, or its slot stands as a write of the device or as a transfer. -/
theorem execNetSendFire_of_full : execNetSendFire st s = .next (if s.refusesSend p e y then s.faultFire st (netVat e.word).val e.pc
    else if s.sendsHere p e then
      { (s.modSt st (Station.sent e y)).modSt st fun x => x.slotDone (netVat e.word) y.head with writes := s.writes ++ [s.sendWrite st p e y] }
    else { s.modSt st (Station.sent e y) with xfers := s.xfers ++ [s.sendXfer st p e y] }) := by
  have hroute : ((kr e.k (fld e.word 22 18)).setWidth 16 : W16).toNat = (kr e.k (fld e.word 22 18)).toNat % 65536 := BitVec.toNat_setWidth ..
  simp only [execNetSendFire, hhead, hjob, hvat, hstart, hfull, hfence, hroute, Nat.not_le.2 hroom, Bool.not_true, decide_false, Bool.or_self, Bool.false_eq_true, if_false, next]
  rw [apply_ite Host.Outcome.next, apply_ite Host.Outcome.next]
  rfl

/-- A send to another device stands as a transfer (R272, R341, R343). -/
theorem execNetSendFire_of_away (halign : netKind e.word ≠ 1 → (y.slot y.head).count % 16 = 0 ∧ e.sendAddr % 16 = 0)
    (haway : ¬ (netKind e.word = 0 ∧ s.ownRoute p (netRoute e.word) = true))
    (hkind : netKind e.word ≠ 2 → s.ownKindFault p (netRoute e.word) (netKind e.word = 1) = false) :
    execNetSendFire st s = .next { s.modSt st (Station.sent e y) with xfers := s.xfers ++ [s.sendXfer st p e y] } := by
  have hthere : s.sendsHere p e = false := Bool.eq_false_iff.2 fun h => haway (by simpa [State.sendsHere] using h)
  have hok : s.refusesSend p e y = false := by
    simp only [State.refusesSend, hthere, Bool.false_and, Bool.or_false, Bool.or_eq_false_iff, Bool.and_eq_false_imp, decide_eq_true_eq, decide_eq_false_iff_not, not_not]
    exact ⟨halign, hkind⟩
  rw [execNetSendFire_of_full hhead hjob hvat hstart hfull hfence hroom, hok, hthere]
  rfl

/-- A send to memory of the device itself stands as one of its writes, once the windows and the mordant are checked (R346, R361). -/
theorem execNetSendFire_of_here (hcount : (y.slot y.head).count % 16 = 0) (haddr : e.sendAddr % 16 = 0) (hmem : netKind e.word = 0)
    (hroute : s.ownRoute p (netRoute e.word) = true) (hkind : s.ownKindFault p (netRoute e.word) false = false) (hwin : s.inWin p e.sendAddr (y.slot y.head).count = true)
    (hmor : netMen e.word = true → (s.morAt p (s.sendMor p e).toNat).isSome = true) : execNetSendFire st s = .next
      { (s.modSt st (Station.sent e y)).modSt st fun x => x.slotDone (netVat e.word) y.head with writes := s.writes ++ [s.sendWrite st p e y] } := by
  have hhere : s.sendsHere p e = true := by simp [State.sendsHere, hmem, hroute]
  have hok : s.refusesSend p e y = false := by
    simp only [State.refusesSend, hhere, hcount, haddr, hmem, hwin]
    simpa [hkind] using hmor
  rw [execNetSendFire_of_full hhead hjob hvat hstart hfull hfence hroom, hok, hhere]
  rfl

/-- One that does not lie wholly in the partition's windows is a fault (R338, R346). -/
theorem execNetSendFire_of_outside (hmem : netKind e.word = 0) (hroute : s.ownRoute p (netRoute e.word) = true) (hwin : s.inWin p e.sendAddr (y.slot y.head).count = false) :
    execNetSendFire st s = .next (s.faultFire st (netVat e.word).val e.pc) := by
  have hbad : s.refusesSend p e y = true := by simp [State.refusesSend, State.sendsHere, hmem, hroute, hwin]
  rw [execNetSendFire_of_full hhead hjob hvat hstart hfull hfence hroom, hbad]
  rfl

end

/-- Settles O17: an engine instruction fires by `engFire_of_credit`, a NET.SEND by `execNetSendFire_of_away` or `execNetSendFire_of_here`, or it is refused by
`execNetSendFire_of_outside`. -/
theorem engineAndSendInstructionsFire : Obligations.EngineAndSendInstructionsFire := by
  unfold Obligations.EngineAndSendInstructionsFire
  refine ⟨fun op len c s st p e d hop hhead hjob hstart hdest halign hlocal hcredit => ?_,
    fun s st p e y hhead hjob hvat hstart hfull hfence hroom halign haway hkind => ?_,
    fun s st p e y hhead hjob hvat hstart hfull hfence hroom hcount haddr hmem hroute hkind hwin hmor => ?_,
    fun s st p e y hhead hjob hvat hstart hfull hfence hroom hmem hroute hwin => ?_⟩
  · exact (exec_engFire hop st s).trans (engFire_of_credit hhead hjob hstart hdest halign hlocal hcredit)
  · refine ⟨_, s.sendXfer st p e y, (exec_netSendFire st s).trans (execNetSendFire_of_away hhead hjob hvat hstart hfull hfence hroom halign haway hkind),
      s.stn_modSt_same st _, fun a ha => s.stn_modSt_other st a _ ha, rfl, rfl, rfl, rfl, rfl, rfl, ?_⟩
    rw [State.sendXfer]
    cases netMen e.word <;> rfl
  · refine ⟨_, s.sendWrite st p e y, (exec_netSendFire st s).trans (execNetSendFire_of_here hhead hjob hvat hstart hfull hfence hroom hcount haddr hmem hroute hkind hwin hmor),
      fun a ha => (State.stn_modSt_other _ st a _ ha).trans (s.stn_modSt_other st a _ ha), rfl, rfl, rfl, rfl, rfl, rfl, ?_⟩
    rw [State.sendWrite]
    cases hmen : netMen e.word with
    | false => rfl
    | true => exact hmor hmen
  · exact ⟨_, (exec_netSendFire st s).trans (execNetSendFire_of_outside hhead hjob hvat hstart hfull hfence hroom hmem hroute hwin), s.faultFire_stations st _ _,
      s.faultAt_records st 1 0x0101 _ e.pc⟩

end Sys2Proof.Machine
end

section
/-!
SUPPORT. One nanosecond of time (R18, R164, R289, R294, R321, R490): what it leaves of the state before the end of a frame, and what the end of a beat leaves of its records.
-/
namespace Sys2Proof.Machine

/-! ### The end of a beat -/

theorem State.endJob_beat (s : State) (p : Part) (v : Byte) : (s.endJob p v).beat = s.beat := by
  have hstop : ((s.prt p).pos.foldl (fun u st => State.modSt u st Station.jobEnd) s).beat = s.beat :=
    foldl_keeps (f := fun (u : State) (st : St) => u.modSt st Station.jobEnd) State.beat (fun _ _ => rfl) _ s
  have hdrop (u : State) (l : List St) : (u.dropFetches l).beat = u.beat :=
    foldl_keeps (f := fun (u : State) (f : Fetch) => u.count 0x9040 (f.st.val + 1)) State.beat (fun _ _ => rfl) _ u
  rw [State.endJob, State.setJobState_beat]
  exact (hdrop _ _).trans hstop

theorem State.abandonEngines_beat (s : State) (p : Part) : (s.abandonEngines p).beat = s.beat := rfl

theorem State.writeRec_beat (s : State) (r : FaultRec) : (s.writeRec r).beat = s.beat := by
  unfold State.writeRec
  split
  · dsimp only
    generalize hu : (s.modPart r.part _).record r = u
    have hrec : u.beat = s.beat := hu ▸ State.record_beat _ _
    rw [State.count_beat, State.abandonEngines_beat, State.endJob_beat, hrec]
  · exact State.record_beat _ _

/-- No record waits once the beat is over (R18). -/
theorem State.beatEnd_beat (s : State) : s.beatEnd.beat = [] := foldl_keeps State.beat State.writeRec_beat _ _

/-- A beat without a record ends without a trace. -/
theorem State.beatEnd_of_empty {s : State} (h : s.beat = []) : s.beatEnd = s := by
  rw [State.beatEnd, h, List.foldl_nil, ← h]

/-! ### The tick -/

/-- A port that goes to DETECT shows it in registers alone (R321). -/
theorem State.tickPort_only (s : State) (q : PortId) : DictOnly s (s.tickPort q) := by
  unfold State.tickPort
  split
  · exact State.setPortState_only _ _ _
  · rfl

/-- The counter has counted, and the ports that may train have left DOWN. -/
def State.ticked (s : State) : State := (List.finRange 28).foldl State.tickPort { s with time := s.time + 1 }

theorem tick_of_off {s : State} (h : s.pwr.off = true) : tick s = s := if_pos h

theorem tick_of_on {s : State} (h : s.pwr.off = false) : tick s = s.ticked.endOfFrame.serveHeld := if_neg (Bool.eq_false_iff.1 h)

theorem State.ticked_only (s : State) : DictOnly { s with time := s.time + 1 } s.ticked :=
  List.foldlRecOn (motive := DictOnly { s with time := s.time + 1 }) _ State.tickPort rfl fun t ht q _ => ht.trans (t.tickPort_only q)

/-- Beside the counter, a nanosecond within a frame changes registers alone. -/
theorem State.ticked_eq (s : State) : ∃ d, s.ticked = { s with time := s.time + 1, dict := d } := ⟨_, s.ticked_only⟩

theorem State.endOfFrame_only (s : State) : EndOnly s s.endOfFrame := EndOnly.ite s.beatEnd_only (EndOnly.refl s)

/-- Within a frame, or with no record in its beat, the end of the frame does nothing. -/
theorem State.endOfFrame_of_idle {s : State} (h : s.time.toNat % 512 ≠ 0 ∨ s.beat = []) : s.endOfFrame = s := by
  obtain h | h := h
  · exact if_neg h
  · rw [State.endOfFrame, State.beatEnd_of_empty h, ite_self]

theorem State.endOfFrame_of_boundary {s : State} (h : s.time.toNat % 512 = 0) : s.endOfFrame = s.beatEnd := if_pos h

theorem State.serveHeld_of_none {s : State} (h : s.hostHeld = []) : s.serveHeld = s := by
  rw [State.serveHeld, h, List.foldl_nil, ← h]

theorem step_of_idle {s : State} (h : s.pending = []) : step s = .next (tick s) := by rw [step, h]

/-- Settles O2: an idle step is a tick (`step_of_idle`), which changes the counter and registers (`State.ticked_eq`) and at the end of a frame what the end of a beat changes
(`State.endOfFrame_only`, `State.beatEnd_beat`). -/
theorem stepIdleCountsTime : Obligations.StepIdleCountsTime := by
  unfold Obligations.StepIdleCountsTime
  intro s hidle
  refine ⟨tick s, step_of_idle hidle, tick_of_off, fun hon => ⟨s.ticked.endOfFrame, tick_of_on hon, ?_⟩⟩
  obtain ⟨d, hticked⟩ := s.ticked_eq
  have hend := s.ticked.endOfFrame_only
  have htime : s.ticked.endOfFrame.time = s.ticked.time := hend.time
  have hheld : s.ticked.endOfFrame.hostHeld = s.hostHeld := by rw [hend.hostHeld, hticked]
  refine ⟨fun hnone => (tick_of_on hon).trans (State.serveHeld_of_none (hheld.trans hnone)), ?_, ?_, ?_, ?_, hheld, fun hquiet => ?_, fun hframe => ?_⟩
  · rw [htime, hticked]
  · rw [hend.mem, hticked]
  · rw [hend.poison, hticked]
  · rw [hend.mordants, hticked]
  · have hbeat : s.ticked.beat = s.beat := by rw [hticked]
    rw [htime, ← hbeat] at hquiet
    rw [State.endOfFrame_of_idle hquiet, hticked]
    exact ⟨rfl, rfl, rfl, rfl⟩
  · rw [State.endOfFrame_of_boundary (htime ▸ hframe)]
    exact State.beatEnd_beat _

end Sys2Proof.Machine
end

section
/-!
SUPPORT. A crossing that hangs with items of two jobs that have ended (R290): neither record waits for the end of the beat.
-/
namespace Sys2Proof.Machine

/-- Items of partitions 0 and 1 wait in the crossing from the first mesh column to the second, whose clock is stopped. The job of each partition has ended and is still loaded. -/
def crossingShared : State :=
  { State.reset with
    parts := ⟨#[{ Partition.reset with jobState := 6 }, { Partition.reset with jobState := 6 }, Partition.reset, Partition.reset], rfl⟩
    clk := { State.reset.clk with items := [⟨0x12, 0x13, some 0, true⟩, ⟨0x12, 0x13, some 1, true⟩] } }

theorem crossingShared_watched : allCrossings.contains (0x12, 0x13) = true ∧ ringCrossing (0x12, 0x13) = false := by decide

theorem crossingShared_owners : some 0 ∈ crossingShared.crossingOwners (0x12, 0x13) ∧ some 1 ∈ crossingShared.crossingOwners (0x12, 0x13) := by decide

/-- Neither job is live, so neither fault waits for the end of the beat (R18). -/
theorem crossingShared_beat {t : State} (h : exec (.hangDetected ⟨0x12, 0x13⟩) crossingShared = .next t) : t.beat = [] := by
  cases h
  decide

/-- Refutes O27: a crossing that hangs with items of two jobs that have ended and are still loaded has both records written at once, so that only one is the newest of the log
(`Records.part_unique`). -/
theorem not_clockSettingsAndIslands : ¬ Obligations.ClockSettingsAndIslands := by
  unfold Obligations.ClockSettingsAndIslands
  rintro ⟨-, -, -, -, -, -, hhang, -⟩
  obtain ⟨hknown, hring⟩ := crossingShared_watched
  obtain ⟨hzero, hone⟩ := crossingShared_owners
  obtain ⟨howned, -⟩ := hhang crossingShared ⟨0x12, 0x13⟩ hknown hring
  obtain ⟨t, hexec, -, hfirst⟩ := howned 0 hzero fun f hf => absurd hf List.not_mem_nil
  obtain ⟨u, hexec', -, hsecond⟩ := howned 1 hone fun f hf => absurd hf List.not_mem_nil
  obtain rfl : t = u := Host.Outcome.next.inj (hexec.symm.trans hexec')
  exact absurd (Records.part_unique (crossingShared_beat hexec) hfirst hsecond) (by decide)

end Sys2Proof.Machine
end

section
/-!
SUPPORT. The time counter and its source (R294 to R299), and the exchange of time blocks (R312, R324, R376 to R378).
-/
namespace Sys2Proof.Machine

/-! ### The source of the time domain -/

/-- A count leaves every other register alone. -/
theorem State.reg_count_other (s : State) (i b j c n : Nat) (h : odKey j c ≠ odKey i b) : (s.count i b n).reg j c = s.reg j c :=
  s.reg_setReg_other i b j c _ h

/-- The holdover oscillator's mark leaves the source as it is. -/
theorem State.timeSource_setMark (s : State) (v : Nat) : (s.setReg 0x4403 0 v).timeSource = s.timeSource :=
  s.reg_setReg_other 0x4403 0 0x4402 0 v (by decide)

section
variable {s s' : State} (hon : s.pwr.off = false)
include hon

/-- A reference that was good is lost: it is counted, and a source that was locked goes to holdover, or to its last resort where the holdover oscillator is marked failed (R297, R299). -/
theorem execReferenceLoss_of_good (href : s.clk.refOk = true) (hs' : s' = State.count { s with clk := { s.clk with refOk := false } } 0x9063 0) :
    execReferenceLoss s = .next (if s.timeSource ≠ 0 then s' else if s.reg 0x4403 0 = 1 then s'.lastResort else s'.setReg 0x4402 0 2) := by
  have hreg {i : Nat} (h : odKey i 0 ≠ odKey 0x9063 0) : s'.reg i 0 = s.reg i 0 := by
    rw [hs']
    exact State.reg_count_other _ 0x9063 0 i 0 1 h
  have hsource : s'.timeSource = s.timeSource := hreg (by decide)
  have hmark : s'.reg 0x4403 0 = s.reg 0x4403 0 := hreg (by decide)
  simp only [execReferenceLoss, href, hon, ← hs', hsource, hmark, Bool.not_true, Bool.or_self, Bool.false_eq_true, if_false, next, apply_ite Host.Outcome.next]

theorem execReferenceLock_of_on : execReferenceLock s = .next (State.setReg { s with clk := { s.clk with refOk := true } } 0x4402 0 0) :=
  if_neg (Bool.eq_false_iff.1 hon)

/-- The 60,000th good cross-check in a row clears the mark, and last resort without a reference becomes holdover (R298, R299). -/
theorem execHoldoverCrossCheck_of_good (hs' : s' = State.setReg { s with clk := { s.clk with crossGood := 0 } } 0x4403 0 0) :
    execHoldoverCrossCheck true s = .next (if s.reg 0x4403 0 = 0 then s
      else if s.clk.crossGood < 59999 then { s with clk := { s.clk with crossGood := s.clk.crossGood + 1 } }
      else if s.timeSource = 3 ∧ s.clk.refOk = false then s'.setReg 0x4402 0 1 else s') := by
  have hsource : s'.timeSource = s.timeSource := by rw [hs', State.timeSource_setMark]; rfl
  have href : s'.clk.refOk = s.clk.refOk := by rw [hs']; rfl
  have hcount : s.clk.crossGood + 1 < 60000 ↔ s.clk.crossGood < 59999 := by omega
  simp only [execHoldoverCrossCheck, hon, ← hs', hsource, href, hcount, Bool.false_eq_true, if_false, if_true, next, Bool.and_eq_true, decide_eq_true_eq, Bool.not_eq_true',
    apply_ite Host.Outcome.next]

/-- A cross-check that fails marks the oscillator, and a source that follows it goes to its last resort (R298, R299). -/
theorem execHoldoverCrossCheck_of_bad (hs' : s' = State.setReg { s with clk := { s.clk with crossGood := 0 } } 0x4403 0 1) :
    execHoldoverCrossCheck false s = .next (if s.timeSource = 1 ∨ s.timeSource = 2 then s'.lastResort else s') := by
  have hsource : s'.timeSource = s.timeSource := by rw [hs', State.timeSource_setMark]; rfl
  simp only [execHoldoverCrossCheck, hon, ← hs', hsource, Bool.false_eq_true, if_false, next, Bool.or_eq_true, decide_eq_true_eq, apply_ite Host.Outcome.next]

end

/-! ### A set of the counter -/

section
variable {s : State} {v : W64} (hset : s.clk.timeSet = some (v, s.time))
include hset

/-- At its boundary the counter takes the value, and the marks follow it (R295). -/
theorem execTimeSetApplied_of_unloaded (hfree : s.anyLoaded = false) : execTimeSetApplied s =
    .next (State.setReg { s with time := v, clk := { s.clk with timeSet := none, frameMark := none, windowMark := none } } 0x4401 0 0) := by
  simp only [execTimeSetApplied, hset, hfree, ne_eq, not_true_eq_false, Bool.false_eq_true, if_false, next]

/-- A job that has been loaded meanwhile never sees the counter jump (R294). -/
theorem execTimeSetApplied_of_loaded (hloaded : s.anyLoaded = true) :
    execTimeSetApplied s = .next (State.setReg { s with clk := { s.clk with timeSet := none } } 0x4401 0 1) := by
  simp only [execTimeSetApplied, hset, hloaded, ne_eq, not_true_eq_false, if_false, if_true, next]

end

/-! ### Time blocks -/

/-- A port in UP is not in ALIGN. -/
theorem State.portUp_not_align {s : State} {q : PortId} (h : s.portUp q = true) : s.portState q ≠ stAlign := by
  rw [of_decide_eq_true h]
  decide

section
variable {s s' : State} {q : PortId} {tb : TimeBlock} (htaken : s.takeTime q 0 = some (tb, s'))
include htaken

/-- In ALIGN a sync is echoed with both stamps (R324). -/
theorem execTimeSync_of_align (halign : s'.portState q = stAlign) :
    execTimeSync q s = .next (s'.modPort q fun x => { x with timeQ := x.timeQ ++ [s'.timePayload q 1 tb.sent tb.recd] }) := by
  simp only [execTimeSync, htaken, halign, if_true, next]

/-- In UP a sync of a port that is not the parent's is answered, and the parent's own is only noted (R376). -/
theorem execTimeSync_of_up (hup : s'.portUp q = true) {u : State} (hu : u = (s'.seePartner q tb).leaveLastResort) : execTimeSync q s = .next
    (if u.timeParent = some q then u else u.modPort q fun x => { x with timeQ := x.timeQ ++ [u.timePayload q 1 tb.sent tb.recd] }) := by
  simp only [execTimeSync, htaken, State.portUp_not_align hup, hup, ← hu, Bool.not_true, Bool.false_eq_true, if_false, next, apply_ite Host.Outcome.next]

end

section
variable {s s' : State} {q : PortId} {tb : TimeBlock} (htaken : s.takeTime q 1 = some (tb, s'))
include htaken

/-- In ALIGN a reply gives the wire delay (R324). -/
theorem execTimeReply_of_align (halign : s'.portState q = stAlign) : execTimeReply q s = .next (s'.modPort q fun x => { x with wire := some (wireOf tb) }) := by
  simp only [execTimeReply, htaken, halign, if_true, next]

variable (hup : s'.portUp q = true) {u : State} (hu : u = (s'.seePartner q tb).leaveLastResort)
include hup hu

theorem execTimeReply_of_child (hchild : u.timeParent ≠ some q) : execTimeReply q s = .next u := by
  simp only [execTimeReply, htaken, State.portUp_not_align hup, hup, ← hu, hchild, ne_eq, not_false_eq_true, Bool.not_true, Bool.false_eq_true, if_false, if_true, next]

/-- From the parent it gives depth, alignment and offset, and without a job a far counter is set to the parent's time (R376 to R378). -/
theorem execTimeReply_of_parent (hparent : u.timeParent = some q) {v w : State}
    (hv : v = u.setTimeStatus (tb.depth + 1) (decide (tb.source = 3)) u.aligned (shownOffset u.draws (offsetOf tb)))
    (hw : w = State.exchange { v with draws := v.draws + 1 } (offsetOf tb)) : execTimeReply q s = .next (if w.anyLoaded = false ∧ 65536 < (offsetOf tb).natAbs then
      { w with clk := { w.clk with timeSet := some (BitVec.ofInt 64 ((w.nextFrame.toNat : Int) + offsetOf tb / 256), w.nextFrame) } } else w) := by
  simp only [execTimeReply, htaken, State.portUp_not_align hup, hup, ← hu, hparent, ← hv, ← hw, ne_eq, not_true_eq_false, Bool.not_true, Bool.false_eq_true, if_false, next,
    Nat.reduceMul, Bool.and_eq_true, Bool.not_eq_true', decide_eq_true_eq, apply_ite Host.Outcome.next]

end

/-- Settles O28: a write of the counter follows its answer (`command_of_refusable`) and is applied at its boundary (`execTimeSetApplied_of_unloaded`); the source by
`execReferenceLoss_of_good` and `execHoldoverCrossCheck_of_good`, time blocks by `execTimeSync_of_up` and `execTimeReply_of_parent`, each with its companions. -/
theorem timeCounterAndSource : Obligations.TimeCounterAndSource := by
  unfold Obligations.TimeCounterAndSource
  refine ⟨fun s s' via v h hfree hs' => ?_, fun s via v h hloaded => ?_, fun s v hset => ?_, fun s s' href hon hs' => ?_, fun s hon => ?_, fun s s' hon hs' => ?_,
    fun s s' hon hs' => ?_, fun s s' u q tb htaken hu => ?_, fun s s' u v w q tb htaken hu hv hw => ?_⟩
  · rw [exec_timeSet, execTimeSet, command_of_refusable h (fun s => s.anyLoaded = true), if_neg (Bool.eq_false_iff.1 hfree), ← hs']
  · rw [exec_timeSet, execTimeSet, command_of_refusable h (fun s => s.anyLoaded = true), if_pos hloaded]
  · rw [exec_timeSetApplied]
    exact ⟨execTimeSetApplied_of_unloaded hset, execTimeSetApplied_of_loaded hset⟩
  · exact (exec_referenceLoss s).trans (execReferenceLoss_of_good hon href hs')
  · exact (exec_referenceLock s).trans (execReferenceLock_of_on hon)
  · exact (exec_holdoverCrossCheck true s).trans (execHoldoverCrossCheck_of_good hon hs')
  · exact (exec_holdoverCrossCheck false s).trans (execHoldoverCrossCheck_of_bad hon hs')
  · rw [exec_timeSync]
    refine ⟨execTimeSync_of_align htaken, fun hup hchild => ?_, fun hup hparent => ?_⟩
    · rw [execTimeSync_of_up htaken hup hu, if_neg hchild]
    · rw [execTimeSync_of_up htaken hup hu, if_pos hparent]
  · rw [exec_timeReply]
    exact ⟨execTimeReply_of_align htaken, fun hup => execTimeReply_of_child htaken hup hu, fun hup hparent => execTimeReply_of_parent htaken hup hu hparent hv hw⟩

end Sys2Proof.Machine
end

section
/-!
SUPPORT. Training of a port (R301, R302, R304, R321 to R325), and what a port reads as after an update of its own.
-/
namespace Sys2Proof.Machine

/-! ### A port after an update -/

@[simp] theorem State.port_modPort_same (s : State) (q : PortId) (f : Port → Port) : (s.modPort q f).port q = f (s.port q) := vget_vmod_same _ _ _

/-- An update of a port turns on what it makes of that port alone. -/
theorem State.modPort_congr {s : State} {q : PortId} {f g : Port → Port} (h : f (s.port q) = g (s.port q)) : s.modPort q f = s.modPort q g := by
  simp only [State.modPort, vmod]
  exact congrArg (fun x => { s with ports := vset s.ports q x }) h

@[simp] theorem State.portState_modPort (s : State) (q o : PortId) (f : Port → Port) : (s.modPort q f).portState o = s.portState o := rfl
@[simp] theorem State.fallback_modPort (s : State) (q o : PortId) (f : Port → Port) : (s.modPort q f).fallback o = s.fallback o := rfl

/-! ### Training sets -/

section
variable {s : State} {q : PortId} {sets : List (Fin 17 × BitVec 256)} {l : List (Nat × Nat)} (hl : l = sets.filterMap fun x => (goodSet x.2).map fun v => (x.1.val, v))
  (hmay : s.mayTrain q = true) (hfree : (s.port q).failed = false) (hmany : 16 ≤ l.length)
include hl hmay hfree hmany

/-- Sets of a lane order that the port can take begin a training at the rate that they show (R304, R321). -/
theorem execTrainingSetsDetected_of_order (hst : s.portState q = stDown ∨ s.portState q = stDetect) {rev : Bool} (horder : laneOrder l = some rev) :
    execTrainingSetsDetected q sets s = .next ((((s.setPortFlags q (l.any fun x => bits x.2 182 181 = 2) rev).modPort q fun x => { x with taps := [] }).startTraining q).setPortState q
      stEqualise) := by
  have hin : (decide (s.portState q = stDown) || decide (s.portState q = stDetect)) = true := by simpa using hst
  subst hl
  simp only [execTrainingSetsDetected, hmay, hfree, Nat.not_lt.2 hmany, hin, horder, Bool.not_true, Bool.or_self, decide_false, Bool.false_eq_true, if_false, if_true, next]

theorem execTrainingSetsDetected_of_disorder (hst : s.portState q = stDown ∨ s.portState q = stDetect) (horder : laneOrder l = none) :
    execTrainingSetsDetected q sets s = .next ((s.setReg 0x5008 (q.val + 1) 9).trainingFailed q) := by
  have hin : (decide (s.portState q = stDown) || decide (s.portState q = stDetect)) = true := by simpa using hst
  subst hl
  simp only [execTrainingSetsDetected, hmay, hfree, Nat.not_lt.2 hmany, hin, horder, Bool.not_true, Bool.or_self, decide_false, Bool.false_eq_true, if_false, if_true, next]

/-- A partner at the fallback rate takes a training at the full rate down to it (R322). -/
theorem execTrainingSetsDetected_of_slow (hst : s.portState q = stEqualise ∨ s.portState q = stAlign) (hslow : ∃ x ∈ l, bits x.2 182 181 = 2) (hfull : s.fallback q = false) :
    execTrainingSetsDetected q sets s = .next (s.toFallback q) := by
  have hany : (l.any fun x => decide (bits x.2 182 181 = 2)) = true := by simpa using hslow
  have hbegun : (decide (s.portState q = stDown) || decide (s.portState q = stDetect)) = false := by
    obtain h | h := hst <;> rw [h] <;> decide
  have hin : (decide (s.portState q = stEqualise) || decide (s.portState q = stAlign)) = true := by simpa using hst
  subst hl
  simp only [execTrainingSetsDetected, hmay, hfree, Nat.not_lt.2 hmany, hbegun, hany, hin, hfull, Bool.not_true, Bool.not_false, Bool.or_self, Bool.and_self, decide_false,
    Bool.false_eq_true, if_false, if_true, next]

end

/-! ### EQUALISE and ALIGN -/

section
variable {s : State} {q : PortId} (hfree : (s.port q).failed = false)
include hfree

theorem execEqualiseComplete_of_equalise (hst : s.portState q = stEqualise) (rx tx : Option (Fin 17)) :
    execEqualiseComplete q rx tx s = .next ((s.assignLanes q (rx.map (·.val)) (tx.map (·.val))).setPortState q stAlign) := by
  simp only [execEqualiseComplete, hst, hfree, decide_true, Bool.not_false, Bool.and_self, if_true, next]

theorem execEqualiseTimeout_of_equalise (hst : s.portState q = stEqualise) : execEqualiseTimeout q s = .next (s.trainFail q) := by
  simp only [execEqualiseTimeout, hst, hfree, decide_true, Bool.not_false, Bool.and_self, if_true, next]

theorem execAlignTimeout_of_align (hst : s.portState q = stAlign) : execAlignTimeout q s = .next (s.trainFail q) := by
  simp only [execAlignTimeout, hst, hfree, decide_true, Bool.not_false, Bool.and_self, if_true, next]

/-- With the wire measured, ALIGN ends in AUTH, which begins with HELLO (R324, R325). -/
theorem execAlignComplete_of_measured (hst : s.portState q = stAlign) {w : Nat} (hwire : (s.port q).wire = some w) : execAlignComplete q s = .next (
    let u := s.setReg 0x5003 (q.val + 1) ((w + Config.portPipe) / 64 % 65536)
    let v := (u.modPort q fun x => { x.say 1 (u.helloBody q) with
      auth := ⟨u.helloBody q, false, none, none, false, false⟩, failures := 0, timeQ := [], timeIn := [] }).setPortState q stAuth
    { v with draws := v.draws + 1 }) := by
  simp only [execAlignComplete, hst, hfree, hwire, ne_eq, not_true_eq_false, decide_false, Bool.or_self, Bool.false_eq_true, if_false, next]

end

/-! ### After a failed training -/

section
variable {s u : State} {q : PortId} (hfailed : (s.port q).failed = true) (hu : u = s.modPort q fun x => { x with failed := false }) (rxFail txFail : Nat)
include hfailed hu

theorem execTrainingRetry_of_few (hfew : (s.port q).failures < 3) :
    execTrainingRetry q rxFail txFail s = .next (u.setPortState q (if u.mayTrain q then stDetect else stDown)) := by
  subst hu
  simp only [execTrainingRetry, hfailed, State.port_modPort_same, hfew, Bool.not_true, Bool.false_eq_true, if_false, if_true, next]

/-- The third failure in a row holds the port, or retires it where a direction has fewer spares than lanes that fail (R322). -/
theorem execTrainingRetry_of_third (hmany : 3 ≤ (s.port q).failures) {v : State} (hv : v = u.modPort q fun x => { x with failures := 0 }) :
    execTrainingRetry q rxFail txFail s = .next (
      if b2n (bit (v.reg 0x8040 (q.val + 1)) 1) < rxFail ∨ b2n (bit (v.reg 0x8040 (q.val + 1)) 0) < txFail then (v.saveReg 0x8041 (q.val + 1) 1).setPortState q stRetired
      else v.setPortState q stHeld) := by
  subst hu
  simp only [execTrainingRetry, hfailed, State.port_modPort_same, Nat.not_lt.2 hmany, ← hv, Bool.not_true, Bool.false_eq_true, if_false, Bool.or_eq_true, decide_eq_true_eq, next,
    apply_ite Host.Outcome.next]

end

/-! ### Coefficient requests -/

/-- The set that answers a request for a lane's transmitter tap, with its status (Table 11-9). -/
def State.answerSet (s : State) (q : PortId) (l : Fin 17) (tap csts : Nat) : State :=
  { s.emit (.training q l (s.ownSet q l.val tap csts)) with draws := s.draws + 1 }

/-- A transmitter tap of a lane takes a value. -/
def State.putTap (s : State) (q : PortId) (l : Fin 17) (tap : Nat) (v : Int) : State := s.modPort q fun x => { x with taps := sput 0 x.taps (l.val * 8 + tap) v }

section
variable {s : State} {q : PortId} {set : BitVec 256} {v : Nat} (l : Fin 17) (hset : goodSet set = some v) (hst : s.portState q = stEqualise)
include hset hst

theorem execCoefficientRequest_of_hold (h : bits v 163 162 = 0 ∨ 4 < bits v 167 164) :
    execCoefficientRequest q l set s = .next (s.answerSet q l (bits v 167 164) 0) := by
  have hhold : (decide (bits v 163 162 = 0) || decide (4 < bits v 167 164)) = true := by simpa using h
  simp only [execCoefficientRequest, hset, hst, hhold, ne_eq, not_true_eq_false, if_false, if_true, next]
  rfl

variable (htap : bits v 167 164 ≤ 4)
include htap

theorem execCoefficientRequest_of_start (h : bits v 163 162 = 3) :
    execCoefficientRequest q l set s = .next ((s.putTap q l (bits v 167 164) 0).answerSet q l (bits v 167 164) 1) := by
  simp only [execCoefficientRequest, hset, hst, h, Nat.not_lt.2 htap, ne_eq, not_true_eq_false, if_false, if_true, OfNat.ofNat_ne_zero, decide_false, Bool.or_self,
    Bool.false_eq_true, next]
  rfl

/-- A step of a tap is made, unless its limit is met. -/
theorem execCoefficientRequest_of_step (h : bits v 163 162 = 1 ∨ bits v 163 162 = 2) : execCoefficientRequest q l set s = .next (
    if (Config.freeWord s.draws).getLsbD 63 then s.answerSet q l (bits v 167 164) 2
    else (s.putTap q l (bits v 167 164) (if bits v 163 162 = 1 then sget 0 (s.port q).taps (l.val * 8 + bits v 167 164) + 1
      else sget 0 (s.port q).taps (l.val * 8 + bits v 167 164) - 1)).answerSet q l (bits v 167 164) 1) := by
  have hstep : bits v 163 162 ≠ 0 ∧ bits v 163 162 ≠ 3 := by omega
  simp only [execCoefficientRequest, hset, hst, hstep.1, hstep.2, Nat.not_lt.2 htap, ne_eq, not_true_eq_false, if_false, decide_false, Bool.or_self, Bool.false_eq_true, next,
    apply_ite Host.Outcome.next]
  rfl

end

/-- Settles O29: training sets by the order of their lanes and their rate (`execTrainingSetsDetected_of_order`, `execTrainingSetsDetected_of_slow`), EQUALISE and ALIGN by what ends
them, a failed training by its count (`execTrainingRetry_of_few`, `execTrainingRetry_of_third`), a coefficient request by what it asks for. -/
theorem portTraining : Obligations.PortTraining := by
  unfold Obligations.PortTraining
  refine ⟨fun s q sets l hl hmay hfree hmany => ⟨fun hst => ⟨fun rev horder => ?_, fun horder => ?_⟩, fun hst hslow hfull => ?_⟩, fun s q rx tx hst hfree => ?_,
    fun s q hst hfree => ?_, fun s u v q m n hfailed hu hv => ⟨fun hfew => ?_, fun hmany => ?_⟩,
    fun s q l set v tap req ans put hset hst htap hreq hans hput => ?_⟩
  · exact (exec_trainingSetsDetected q sets s).trans (execTrainingSetsDetected_of_order hl hmay hfree hmany hst horder)
  · exact (exec_trainingSetsDetected q sets s).trans (execTrainingSetsDetected_of_disorder hl hmay hfree hmany hst horder)
  · exact (exec_trainingSetsDetected q sets s).trans (execTrainingSetsDetected_of_slow hl hmay hfree hmany hst hslow hfull)
  · exact ⟨(exec_equaliseComplete q rx tx s).trans (execEqualiseComplete_of_equalise hfree hst rx tx),
      (exec_equaliseTimeout q s).trans (execEqualiseTimeout_of_equalise hfree hst)⟩
  · exact ⟨(exec_alignTimeout q s).trans (execAlignTimeout_of_align hfree hst), fun w hwire => (exec_alignComplete q s).trans (execAlignComplete_of_measured hfree hst hwire)⟩
  · exact (exec_trainingRetry q m n s).trans (execTrainingRetry_of_few hfailed hu m n hfew)
  · exact (exec_trainingRetry q m n s).trans (execTrainingRetry_of_third hfailed hu m n hmany hv)
  · subst htap hreq hans hput
    rw [exec_coefficientRequest]
    exact ⟨execCoefficientRequest_of_hold l hset hst, fun h htap => execCoefficientRequest_of_start l hset hst htap h,
      fun h htap => execCoefficientRequest_of_step l hset hst htap h⟩

end Sys2Proof.Machine
end

section
/-!
SUPPORT. Authentication of a port, and its link control messages until they are acknowledged or given up (R325 to R327).
-/
namespace Sys2Proof.Machine

/-! ### The messages of AUTH -/

section
variable {s u : State} {q : PortId} {ids : MsgIds} (hst : s.portState q = stAuth) (hu : u = s.heard q ids)
include hst hu

theorem execHello_of_auth (h : HelloBody) : execHello q ids h s = .next (if u.portState q ≠ stAuth ∨ (u.port q).auth.hello.isSome then u
    else u.modPort q fun x => { x.say 2 u.chain with auth := { x.auth with hello := some h } }) := by
  simp only [execHello, hst, ← hu, ne_eq, not_true_eq_false, if_false, Bool.or_eq_true, decide_eq_true_eq, next, apply_ite Host.Outcome.next]

theorem execChain_of_hello {h : HelloBody} (hhello : (s.port q).auth.hello = some h) (ok : Bool) :
    execChain q ids ok s = .next (if u.portState q ≠ stAuth ∨ (u.port q).auth.chainOk.isSome then u
      else u.modPort q fun x => { x.say 3 (u.signed (shaBytes (x.auth.own ++ helloBytes h ++ shaBytes u.chain))) with auth := { x.auth with chainOk := some ok } }) := by
  simp only [execChain, hst, hhello, ← hu, ne_eq, not_true_eq_false, if_false, Bool.or_eq_true, decide_eq_true_eq, next, apply_ite Host.Outcome.next]

theorem execProof_of_chain {h : HelloBody} {c : Bool} (hhello : (s.port q).auth.hello = some h) (hchain : (s.port q).auth.chainOk = some c) (ok : Bool) :
    execProof q ids ok s = .next (if u.portState q ≠ stAuth ∨ (u.port q).auth.sent then u else u.verdict q (authCode u q h c ok)) := by
  simp only [execProof, hst, hhello, hchain, ← hu, ne_eq, not_true_eq_false, if_false, Bool.or_eq_true, decide_eq_true_eq, next, apply_ite Host.Outcome.next]

theorem execVerdict_of_auth (code : Byte) : execVerdict q ids code s = .next (if u.portState q ≠ stAuth then u
    else if code = 1 then (u.modPort q fun x => { x with auth := { x.auth with got := true } }).enterUp q
    else (u.ackNow q).refuse q code.toNat) := by
  simp only [execVerdict, hst, ← hu, ne_eq, not_true_eq_false, if_false, next, apply_ite Host.Outcome.next]

end

/-! ### The verdict -/

/-- A HELLO that passes the checks leaves the verdict to the chain, and then to the proof (R327). -/
theorem authCode_of_hello {s : State} {q : PortId} {h : HelloBody} (hversion : h.version = 1) (hother : h.device.toNat ≠ s.reg 0x1020 0)
    (hlow : bits (s.reg 0x2120 (q.val + 1)) 31 16 ≤ h.device.toNat) (hhigh : h.device.toNat ≤ bits (s.reg 0x2120 (q.val + 1)) 47 32) (chain proof : Bool) :
    authCode s q h chain proof = if chain = false then 3 else if proof = false then 4 else 1 := by
  simp only [authCode, hversion, hother, Nat.not_lt.2 hlow, Nat.not_lt.2 hhigh, ne_eq, not_true_eq_false, decide_false, Bool.or_self, Bool.false_eq_true, if_false, Bool.not_eq_true']

/-- Both ends have admitted, and the verdict of this one has been sent: the port is UP (R327). -/
theorem State.enterUp_of_admitted {s : State} {q : PortId} {h : HelloBody} (hst : s.portState q = stAuth) (hhello : (s.port q).auth.hello = some h)
    (hsent : (s.port q).auth.sent = true) (hadmitted : (s.port q).auth.refused = false) (hgot : (s.port q).auth.got = true)
    (hmsgs : ∀ m ∈ (s.port q).msgs, m.msg = 4 → 0 < m.sends) :
    s.enterUp q = (((s.modPort q fun x => { x.clear with msgs := x.msgs, ackDue := x.ackDue, refusals := 0, failures := 0 }).setPortState q stUp).setReg 0x5002 (q.val + 1)
      (h.device.toNat + h.port.toNat * 2 ^ 16)) := by
  have hall : ((s.port q).msgs.all fun m => decide (m.msg ≠ 4) || decide (0 < m.sends)) = true := by
    simpa only [List.all_eq_true, Bool.or_eq_true, decide_eq_true_eq, ne_eq, ← imp_iff_not_or] using hmsgs
  simp only [State.enterUp, hst, hhello, hsent, hadmitted, hgot, hall, decide_true, Bool.not_false, Bool.and_self, if_true]

theorem execAuthTimeout_of_auth {s : State} {q : PortId} (hst : s.portState q = stAuth) :
    execAuthTimeout q s = .next (if (s.port q).auth.refused then s.refuseEnd q else s.verdict q 8) := by
  simp only [execAuthTimeout, hst, ne_eq, not_true_eq_false, if_false, next, apply_ite Host.Outcome.next]

/-! ### Messages that wait for their acknowledgement -/

section
variable {s : State} {q : PortId} {m : LinkMsg} (hmsg : (s.port q).msgs.find? (fun m => !m.due) = some m)
include hmsg

theorem execLinkControlRepeat_of_few (hfew : m.sends < 64) : execLinkControlRepeat q s =
    .next (s.modPort q fun x => { x with msgs := x.msgs.map fun y => if y.mid = m.mid then { y with due := true } else y }) := by
  simp only [execLinkControlRepeat, hmsg, hfew, if_true, next]

theorem execLinkControlRepeat_of_given_up (hmany : 64 ≤ m.sends) : execLinkControlRepeat q s =
    .next (State.msgEnd (s.modPort q fun x => { x with msgs := x.msgs.filter fun y => y.mid ≠ m.mid }) q m true) := by
  simp only [execLinkControlRepeat, hmsg, Nat.not_lt.2 hmany, if_false, next]

end

section
variable {s : State} {q : PortId} {m : LinkMsg}

/-- HELLO, CHAIN or PROOF without an answer is a refusal. -/
theorem State.msgEnd_given_up_of_auth (hmsg : m.msg = 1 ∨ m.msg = 2 ∨ m.msg = 3) : s.msgEnd q m true = s.refuse q 8 := by
  obtain h | h | h := hmsg <;> simp only [State.msgEnd, h, if_true]

theorem State.msgEnd_of_refusal (hmsg : m.msg = 4) (hbody : m.body ≠ [1]) (given : Bool) : s.msgEnd q m given = s.refuseEnd q := by
  simp only [State.msgEnd, hmsg, hbody, ne_eq, not_false_eq_true, if_true]

theorem State.msgEnd_given_up_of_admission (hmsg : m.msg = 4) (hbody : m.body = [1]) :
    s.msgEnd q m true = if s.portUp q then s.loseTo q stDown else s.portDown q := by
  simp only [State.msgEnd, hmsg, hbody, ne_eq, not_true_eq_false, Bool.not_true, Bool.false_eq_true, if_false]

theorem State.msgEnd_given_up_of_swap (hmsg : m.msg = 0x10) : s.msgEnd q m true = s.loseTo q stDetect := by
  simp only [State.msgEnd, hmsg, if_true]

theorem State.msgEnd_of_retrain (hmsg : m.msg = 0x20) (given : Bool) : s.msgEnd q m given = s.retrain q := by
  simp only [State.msgEnd, hmsg]

theorem State.msgEnd_of_goodbye (hmsg : m.msg = 0x21) (given : Bool) : s.msgEnd q m given = s.loseTo q stDown := by
  simp only [State.msgEnd, hmsg]

/-- An acknowledgement that covers the one message of a port that waits ends it. -/
theorem State.cover_of_single {a : Byte} (hmsgs : (s.port q).msgs = [m]) (hsent : 0 < m.sends) (hcovers : (a.toNat + 256 - m.mid) % 256 < 128) :
    s.cover q a = State.msgEnd (s.modPort q fun x => { x with msgs := [] }) q m false := by
  have hgone : (s.modPort q fun x => { x with msgs := x.msgs.filter fun y => y.mid ≠ m.mid }) = s.modPort q fun x => { x with msgs := [] } :=
    State.modPort_congr (by simp [hmsgs])
  simp only [State.cover, hmsgs, hsent, hcovers, List.filter_cons, List.filter_nil, decide_true, Bool.and_self, if_true, List.foldl_cons, List.foldl_nil, List.any_cons, Bool.true_or, hgone]

end

/-- Settles O30: each message by its answer (`execHello_of_auth` to `execVerdict_of_auth`), UP by `State.enterUp_of_admitted`, a message without an acknowledgement by its sends and
what giving it up means (`execLinkControlRepeat_of_given_up`, `State.msgEnd_given_up_of_auth` and its companions). -/
theorem portAuthentication : Obligations.PortAuthentication := by
  unfold Obligations.PortAuthentication
  refine ⟨fun s u q ids h hst hu => ?_, fun s u q ids ok h hst hhello hu => ?_, fun s u q ids ok c h hst hhello hchain hu => ?_,
    fun s q h hversion hother hlow hhigh => ?_, fun s u q ids code hst hu => ?_,
    fun s q h hst hhello hsent hadmitted hgot hmsgs => State.enterUp_of_admitted hst hhello hsent hadmitted hgot hmsgs, fun s q hst => ?_,
    fun s q m hmsg => ⟨fun hfew => ?_, fun hmany => ?_, fun u => ?_⟩, fun s q a => ?_, fun s q a m hmsgs hsent hcovers => State.cover_of_single hmsgs hsent hcovers⟩
  · exact (exec_hello q ids h s).trans (execHello_of_auth hst hu h)
  · exact (exec_chain q ids ok s).trans (execChain_of_hello hst hu hhello ok)
  · exact (exec_proof q ids ok s).trans (execProof_of_chain hst hu hhello hchain ok)
  · simp only [authCode_of_hello hversion hother hlow hhigh, Bool.true_eq_false, if_true, if_false, and_self]
  · exact (exec_verdict q ids code s).trans (execVerdict_of_auth hst hu code)
  · exact (exec_authTimeout q s).trans (execAuthTimeout_of_auth hst)
  · exact (exec_linkControlRepeat q s).trans (execLinkControlRepeat_of_few hmsg hfew)
  · exact (exec_linkControlRepeat q s).trans (execLinkControlRepeat_of_given_up hmsg hmany)
  · exact ⟨State.msgEnd_given_up_of_auth, fun h hbody => State.msgEnd_of_refusal h hbody true, State.msgEnd_given_up_of_admission, State.msgEnd_given_up_of_swap,
      fun h => State.msgEnd_of_retrain h true, fun h => State.msgEnd_of_goodbye h true⟩
  · exact exec_linkControlAck q a s

end Sys2Proof.Machine
end

section
/-!
SUPPORT. What a port puts into a block slot, how it takes a block that arrives, and lanes that fail (R307 to R317, R329 to R333, R350).
-/
namespace Sys2Proof.Machine

/-- Blocks go both ways in ALIGN, AUTH and UP alone. -/
theorem carriesBlocks {v : Nat} (h : v = stAlign ∨ v = stAuth ∨ v = stUp) : (!(v = stAlign || v = stAuth || v = stUp)) = false := by
  obtain rfl | rfl | rfl := h <;> decide

theorem notAlign_of_later {v : Nat} (h : v = stAuth ∨ v = stUp) : v ≠ stAlign := by
  obtain rfl | rfl := h <;> decide

/-! ### A block slot -/

@[simp] theorem State.frameNo_modPort (s : State) (q : PortId) (f : Port → Port) : (s.modPort q f).frameNo = s.frameNo := rfl

/-- Which sequenced block may go out does not turn on the slots that have been used. -/
theorem Port.seqReady_slot (x : Port) (n now : Nat) (link : Bool) : Port.seqReady { x with slot := n } now link = x.seqReady now link := rfl
theorem Port.unsent_slot (x : Port) (n : Nat) : Port.unsent { x with slot := n } = x.unsent := rfl

section
variable {s u : State} {q : PortId} {k : Fin 752} (e : BufferEcc) (hslot : (s.port q).slot ≤ k.val) (hrate : s.fallback q = true → k.val % 2 = 0)
  (hu : u = s.modPort q fun x => { x with slot := k.val + 1 })
include hslot hrate

/-- The slot may be used, in a state in which blocks are sent. -/
theorem blockSlot_open (hst : s.portState q = stAlign ∨ s.portState q = stAuth ∨ s.portState q = stUp) :
    (!(s.portState q = stAlign || s.portState q = stAuth || s.portState q = stUp) || k.val < (s.port q).slot || (s.fallback q && k.val % 2 = 1)) = false := by
  have hodd : (s.fallback q && decide (k.val % 2 = 1)) = false := by
    cases hfallback : s.fallback q with
    | false => rfl
    | true => simp [hrate hfallback]
  simp only [carriesBlocks hst, hodd, Nat.not_lt.2 hslot, decide_false, Bool.or_self]

include hu

section
variable (hst : s.portState q = stAlign)
include hst

theorem execBlockSlot_of_align_time {b : List Byte} {r : List (List Byte)} (htime : (s.port q).timeQ = b :: r) : execBlockSlot q k e s = .next (u.sendTime q b) := by
  subst hu
  simp only [execBlockSlot, blockSlot_open hslot hrate (.inl hst), if_pos hst, State.port_modPort_same, htime, Bool.false_eq_true, if_false, next]

/-- Until the wire is measured, ALIGN sends time blocks of its own (R324). -/
theorem execBlockSlot_of_align_free (htime : (s.port q).timeQ = []) :
    execBlockSlot q k e s = .next (if (s.port q).wire.isNone then u.sendTime q (u.timePayload q 0 0 0) else u.sendIdle q) := by
  subst hu
  simp only [execBlockSlot, blockSlot_open hslot hrate (.inl hst), if_pos hst, State.port_modPort_same, htime, Bool.false_eq_true, if_false, next, apply_ite Host.Outcome.next]

end

theorem execBlockSlot_of_message (hst : s.portState q = stAuth ∨ s.portState q = stUp) {m : LinkMsg} (hmsg : (s.port q).msgs.find? (·.due) = some m) :
    execBlockSlot q k e s = .next ((u.sendMsg q m).enterUp q) := by
  have halign : s.portState q ≠ stAlign := notAlign_of_later hst
  subst hu
  simp only [execBlockSlot, blockSlot_open hslot hrate (.inr hst), if_neg halign, State.port_modPort_same, hmsg, Bool.false_eq_true, if_false, next]

variable (hmsg : (s.port q).msgs.find? (·.due) = none)
include hmsg

theorem execBlockSlot_of_ack (hst : s.portState q = stAuth ∨ s.portState q = stUp) (hack : (s.port q).ackDue = true) : execBlockSlot q k e s = .next (u.ackNow q) := by
  have halign : s.portState q ≠ stAlign := notAlign_of_later hst
  subst hu
  simp only [execBlockSlot, blockSlot_open hslot hrate (.inr hst), if_neg halign, State.port_modPort_same, hmsg, hack, Bool.false_eq_true, if_false, if_true, next]

variable (hack : (s.port q).ackDue = false)
include hack

theorem execBlockSlot_of_auth_free (hst : s.portState q = stAuth) : execBlockSlot q k e s = .next (u.sendIdle q) := by
  have halign : s.portState q ≠ stAlign := notAlign_of_later (.inl hst)
  subst hu
  simp only [execBlockSlot, blockSlot_open hslot hrate (.inr (.inl hst)), if_neg halign, if_pos hst, State.port_modPort_same, hmsg, hack, Bool.false_eq_true, if_false, next]

variable (hst : s.portState q = stUp)
include hst

theorem execBlockSlot_of_up_time {b : List Byte} {r : List (List Byte)} (hlink : 704 ≤ k.val) (htime : (s.port q).timeQ = b :: r) :
    execBlockSlot q k e s = .next (u.sendTime q b) := by
  have halign : s.portState q ≠ stAlign := notAlign_of_later (.inr hst)
  have hauth : s.portState q ≠ stAuth := by rw [hst]; decide
  subst hu
  simp only [execBlockSlot, blockSlot_open hslot hrate (.inr (.inr hst)), if_neg halign, if_neg hauth, State.port_modPort_same, hmsg, hack, hlink, htime, decide_true, Bool.false_eq_true,
    if_false, if_true, next]

/-- Without a time block for it, the slot takes the sequenced block that is ready; else R350's order fills a slot that no unsent block waits for. -/
theorem execBlockSlot_of_up_free (htime : k.val < 704 ∨ (s.port q).timeQ = []) :
    (∀ b, (s.port q).seqReady (slotTime s.frameNo k.val) (decide (704 ≤ k.val)) = some b → execBlockSlot q k e s = .next (u.sendSeq q b e)) ∧
    ((s.port q).seqReady (slotTime s.frameNo k.val) (decide (704 ≤ k.val)) = none →
      execBlockSlot q k e s = .next (if k.val < 704 ∨ (s.port q).unsent ≠ [] then u.sendIdle q else u.linkSlot q e)) := by
  have halign : s.portState q ≠ stAlign := notAlign_of_later (.inr hst)
  have hauth : s.portState q ≠ stAuth := by rw [hst]; decide
  have hnone : (if 704 ≤ k.val then (s.port q).timeQ else []) = [] := by
    obtain h | h := htime
    · simp [Nat.not_le.2 h]
    · simp [h]
  have hquiet : ¬ (s.port q).ackDue = true := Bool.eq_false_iff.1 hack
  subst hu
  constructor
  · intro b hseq
    simp only [execBlockSlot, blockSlot_open hslot hrate (.inr (.inr hst)), if_neg halign, if_neg hauth, State.port_modPort_same, hmsg, if_neg hquiet, hnone, Port.seqReady_slot,
      State.frameNo_modPort, hseq, decide_eq_true_eq, Bool.false_eq_true, if_false, next]
  · intro hseq
    simp only [execBlockSlot, blockSlot_open hslot hrate (.inr (.inr hst)), if_neg halign, if_neg hauth, State.port_modPort_same, hmsg, if_neg hquiet, hnone, Port.seqReady_slot,
      Port.unsent_slot, State.frameNo_modPort, hseq, Bool.false_eq_true, if_false, next, Bool.or_eq_true, Bool.not_eq_true', decide_eq_true_eq, decide_eq_false_iff_not, Nat.not_le,
      apply_ite Host.Outcome.next]

end

/-! ### A block that arrives -/

section
variable {s : State} {q : PortId} {b : BitVec 2048} (hst : s.portState q = stAlign ∨ s.portState q = stAuth ∨ s.portState q = stUp)
include hst

theorem execBlockArrival_of_bad (hcrc : leNat ((arrivedBytes b).drop 252) ≠ crc32c ((arrivedBytes b).take 252)) :
    execBlockArrival q b s = .next ((s.modPort q fun x => x.discard s.frameNo s.slotNow).count 0x9072 (q.val + 1)) := by
  simp only [execBlockArrival, carriesBlocks hst, hcrc, ne_eq, not_false_eq_true, Bool.false_eq_true, if_false, if_true, next]

variable (hcrc : leNat ((arrivedBytes b).drop 252) = crc32c ((arrivedBytes b).take 252)) {h : Nat} (hh : h = leNat ((arrivedBytes b).take 12)) {pay : List Byte}
  (hpay : pay = ((arrivedBytes b).drop 12).take 240) {u : State} (hu : u = s.modPort q fun x => { x with gap := false })
include hcrc hh hpay hu

/-- Before UP no block is sequenced (R309). -/
theorem execBlockArrival_of_early (hearly : s.portState q ≠ stUp) :
    execBlockArrival q b s = .next (u.unsequenced q (if bits h 2 0 = 0 then 1 else bits h 2 0) (bits h 26 15) pay) := by
  simp only [execBlockArrival, ← hh, ← hpay, ← hu, carriesBlocks hst, if_neg (not_not.2 hcrc), if_pos hearly, Bool.false_eq_true, if_false, next]

/-- In UP the HOLD and ACK fields come first, and a data block is taken if its SEQ is the one expected (R314, R315). -/
theorem execBlockArrival_of_up (hup : s.portState q = stUp) {v : State} (hv : v = (u.onHold q (bit h 40) (bits h 43 41)).onAck q (bits h 38 27) (bit h 39)) :
    execBlockArrival q b s = .next (if bits h 2 0 ≠ 0 then v.unsequenced q (bits h 2 0) (bits h 26 15) pay
      else if bits h 26 15 = (v.port q).e then v.inOrder q h pay else v.modPort q fun x => x.discard v.frameNo v.slotNow) := by
  simp only [execBlockArrival, ← hh, ← hpay, ← hu, carriesBlocks hst, if_neg (not_not.2 hcrc), if_neg (not_not.2 hup), ← hv, Bool.false_eq_true, if_false, next, apply_ite Host.Outcome.next]

end

/-! ### Replay and silence -/

/-- A replay starts at the oldest block; the eighth timeout in a row asks for retraining (R315, R317). -/
theorem execAckTimeout_of_unacknowledged {s u : State} {q : PortId} (hup : s.portUp q = true) (hwaits : (s.port q).oldest ≠ (s.port q).snd)
    (hu : u = ((s.modPort q fun x => { x with snd := x.oldest, tmo := x.tmo + 1, hold := true, replayAt := some (x.oldest, s.time) }).count 0x9073 (q.val + 1)).count 0x9074 (q.val + 1)) :
    execAckTimeout q s = .next (if 7 ≤ (s.port q).tmo then u.askRetrain q else u) := by
  have htmo : (u.port q).tmo = (s.port q).tmo + 1 := by
    subst hu
    exact congrArg Port.tmo (s.port_modPort_same q _)
  have heighth : 8 ≤ (u.port q).tmo ↔ 7 ≤ (s.port q).tmo := by omega
  simp only [execAckTimeout, hup, hwaits, ← hu, heighth, Bool.not_true, decide_false, Bool.or_self, Bool.false_eq_true, if_false, next, apply_ite Host.Outcome.next]

theorem execReceiveSilence_of_up {s : State} {q : PortId} (hup : s.portUp q = true) (hlanes : (s.port q).los = []) : execReceiveSilence q s = .next (s.askRetrain q) := by
  simp only [execReceiveSilence, hup, hlanes, decide_true, Bool.and_self, if_true, next]

/-! ### Lanes -/

section
variable {s u : State} {q : PortId} {l : LaneLoss} (hup : s.portUp q = true) (hnew : (s.port q).los.contains l.lane.val = false)
  (hu : u = if l.lock then s else s.modPort q fun x => { x with los := setAdd x.los l.lane.val })
include hup hnew hu

theorem execLossOfSignal_of_swap {w : RxSwap} (hswap : (u.port q).rxSwap = some w) : execLossOfSignal q l s = .next (
    if w.lane = l.lane.val then u.modPort q fun x => { x with rxSwap := some { w with degraded := false } } else u.loseTo q stDetect) := by
  simp only [execLossOfSignal, hup, hnew, ← hu, hswap, Bool.not_true, Bool.or_self, Bool.false_eq_true, if_false, next, apply_ite Host.Outcome.next]

theorem execLossOfSignal_of_first (hswap : (u.port q).rxSwap = none) : execLossOfSignal q l s = .next (
    if u.rxSpare q then u.askSwap q l.lane.val false else if l.lock then u.loseTo q stDetect else u) := by
  simp only [execLossOfSignal, hup, hnew, ← hu, hswap, Bool.not_true, Bool.or_self, Bool.false_eq_true, if_false, next, apply_ite Host.Outcome.next]

end

/-- Loss of signal that the spare cannot cover loses the port (R333). -/
theorem execLossPersists_of_uncovered {s : State} {q : PortId} (hup : s.portUp q = true)
    (hlanes : 1 < (s.port q).los.length ∨ (s.port q).los ≠ [] ∧ (s.port q).rxSwap = none) : execLossPersists q s = .next (s.loseTo q stDetect) := by
  have hlost : (decide (1 < (s.port q).los.length) || (decide ((s.port q).los ≠ []) && (s.port q).rxSwap.isNone)) = true := by simpa using hlanes
  simp only [execLossPersists, hup, hlost, Bool.and_self, if_true, next]

section
variable {s u : State} {q : PortId} {l : Fin 16} {w : LaneWindow} (hup : w.full = true → s.portUp q = true)
  (hu : u = (s.count 0x9070 (q.val + 1) w.corrected).count 0x9071 (q.val + 1) w.dead)
include hup hu

theorem execLaneDegradeWindow_of_good (hgood : w.full = false ∨ w.symbols ≤ u.reg 0x5006 0) : execLaneDegradeWindow q l w s = .next u := by
  have hcounts : (w.full && !s.portUp q) = false := by simpa using hup
  have hfew : (!w.full || decide (w.symbols ≤ u.reg 0x5006 0)) = true := by simpa using hgood
  simp only [execLaneDegradeWindow, hcounts, ← hu, hfew, Bool.false_eq_true, if_false, if_true, next]

variable (hfull : w.full = true) (hmany : u.reg 0x5006 0 < w.symbols)
include hfull hmany

theorem execLaneDegradeWindow_of_swap {x : RxSwap} (hswap : (u.port q).rxSwap = some x) :
    execLaneDegradeWindow q l w s = .next (if x.lane = l.val then u else u.askRetrain q) := by
  simp only [execLaneDegradeWindow, hfull, hup hfull, ← hu, Nat.not_le.2 hmany, hswap, Bool.not_true, Bool.and_false, decide_false, Bool.or_self, Bool.false_eq_true, if_false, next,
    apply_ite Host.Outcome.next]

theorem execLaneDegradeWindow_of_bad (hswap : (u.port q).rxSwap = none) :
    execLaneDegradeWindow q l w s = .next (if u.rxSpare q then u.askSwap q l.val true else u.askRetrain q) := by
  simp only [execLaneDegradeWindow, hfull, hup hfull, ← hu, Nat.not_le.2 hmany, hswap, Bool.not_true, Bool.and_false, decide_false, Bool.or_self, Bool.false_eq_true, if_false, next,
    apply_ite Host.Outcome.next]

end

/-- Settles O31: a slot by what R313 puts first (`execBlockSlot_of_align_time` to `execBlockSlot_of_up_free`), a block by its CRC and SEQ (`execBlockArrival_of_bad`,
`execBlockArrival_of_up`), the rest by what fails: an acknowledgement, the partner, a lane. -/
theorem blocksOnAPort : Obligations.BlocksOnAPort := by
  unfold Obligations.BlocksOnAPort
  refine ⟨fun s u q k e hslot hrate hu => ?_, fun s q b hst => ?_, fun s u q hup hwaits hu => ?_, fun s q hup hlanes => ?_, fun s u q l hup hnew hu => ?_,
    fun s q hup hlanes => ?_, fun s u q l w hup hu => ?_⟩
  · rw [exec_blockSlot]
    refine ⟨fun hst => ⟨fun b r => execBlockSlot_of_align_time e hslot hrate hu hst, execBlockSlot_of_align_free e hslot hrate hu hst⟩,
      fun hst => ⟨fun m => execBlockSlot_of_message e hslot hrate hu hst, fun hmsg => execBlockSlot_of_ack e hslot hrate hu hmsg hst⟩,
      fun hst hmsg hack => execBlockSlot_of_auth_free e hslot hrate hu hmsg hack hst,
      fun hst hmsg hack => ⟨fun b r => execBlockSlot_of_up_time e hslot hrate hu hmsg hack hst, execBlockSlot_of_up_free e hslot hrate hu hmsg hack hst⟩⟩
  · rw [exec_blockArrival]
    exact ⟨execBlockArrival_of_bad hst, fun hcrc h pay u v hh hpay hu hv =>
      ⟨execBlockArrival_of_early hst hcrc hh hpay hu, fun hup => execBlockArrival_of_up hst hcrc hh hpay hu hup hv⟩⟩
  · exact (exec_ackTimeout q s).trans (execAckTimeout_of_unacknowledged hup hwaits hu)
  · exact (exec_receiveSilence q s).trans (execReceiveSilence_of_up hup hlanes)
  · rw [exec_lossOfSignal]
    exact ⟨fun w => execLossOfSignal_of_swap hup hnew hu, execLossOfSignal_of_first hup hnew hu⟩
  · exact (exec_lossPersists q s).trans (execLossPersists_of_uncovered hup hlanes)
  · rw [exec_laneDegradeWindow]
    exact ⟨execLaneDegradeWindow_of_good hup hu, fun hfull hmany =>
      ⟨fun x => execLaneDegradeWindow_of_swap hup hu hfull hmany, execLaneDegradeWindow_of_bad hup hu hfull hmany⟩⟩

end Sys2Proof.Machine
end

section
/-!
SUPPORT. Spare lanes and the messages that end a port's UP (R325, R328 to R335).
-/
namespace Sys2Proof.Machine

/-! ### The receiver's side of a spare -/

theorem execSpareLockLoss_of_unused {s : State} {q : PortId} (hup : s.portUp q = true) (hspare : s.rxSpare q = true) (hfree : (s.port q).rxSwap = none) :
    execSpareLockLoss q s = .next ((s.modPort q fun x => x.say 0x12 []).useRxSpare q) := by
  simp only [execSpareLockLoss, hup, hspare, hfree, Option.isNone_none, Bool.and_self, if_true, next]

section
variable {s : State} {q : PortId} {l : Fin 16} {w : RxSwap} (hup : s.portUp q = true) (hswap : (s.port q).rxSwap = some w) (hlane : w.lane = l.val)
include hup hswap hlane

theorem execSpareCodewordDecode_of_few (hdegraded : w.degraded = true) (hfew : w.good < 63) :
    execSpareCodewordDecode q l s = .next (s.modPort q fun x => { x with rxSwap := some { w with good := w.good + 1 } }) := by
  have h64 : w.good + 1 < 64 := by omega
  simp only [execSpareCodewordDecode, hswap, hup, hlane, hdegraded, h64, ne_eq, not_true_eq_false, Bool.not_true, decide_false, decide_true, Bool.or_self, Bool.and_self,
    Bool.false_eq_true, if_false, if_true, next]

/-- The first codeword after a hard failure, or the 64th in a row after a degradation, takes the lane over (R330). -/
theorem execSpareCodewordDecode_of_enough (henough : w.degraded = false ∨ 63 ≤ w.good) : execSpareCodewordDecode q l s = .next (((s.modPort q fun x =>
    { x.say 0x11 [BitVec.ofNat 8 l.val] with rxSwap := none, los := setDel x.los l.val }).useRxSpare q).mapRx q l.val) := by
  have hdone : (w.degraded && decide (w.good + 1 < 64)) = false := by
    obtain h | h := henough
    · simp [h]
    · simp; omega
  simp only [execSpareCodewordDecode, hswap, hup, hlane, hdone, ne_eq, not_true_eq_false, Bool.not_true, decide_false, Bool.or_self, Bool.false_eq_true, if_false, next]

end

/-! ### Messages of the partner in UP -/

section
variable {s u : State} {q : PortId} {ids : MsgIds} (hup : s.portUp q = true) (hu : u = s.heard q ids)
include hup hu

/-- A message that leaves the port in UP has its effect; one whose acknowledgement ends UP has none. -/
theorem whenUp_of_up (f : State → State) : whenUp q ids f s = .next (if u.portUp q then f u else u) := by
  simp only [whenUp, hup, ← hu, Bool.not_true, Bool.false_eq_true, if_false, next, apply_ite Host.Outcome.next]

variable (l : Fin 16)

/-- A SWAP that has been taken before asks for nothing. -/
theorem execSwap_of_taken (hstay : u.portUp q = true) (hold : ((s.port q).amid + 256 - ids.mid.toNat) % 256 < 128 ∨ (u.port q).txSwap = some l.val) :
    execSwap q ids l s = .next u := by
  have hnothing : (decide (((s.port q).amid + 256 - ids.mid.toNat) % 256 < 128) || decide ((u.port q).txSwap = some l.val)) = true := by simpa using hold
  simp only [execSwap, whenUp_of_up hup hu, hstay, hnothing, if_true]

theorem execSwap_of_new (hstay : u.portUp q = true) (hnew : 128 ≤ ((s.port q).amid + 256 - ids.mid.toNat) % 256) (hother : (u.port q).txSwap ≠ some l.val) :
    execSwap q ids l s = .next (if u.txSpare q = true ∧ (u.port q).txSwap = none then u.modPort q fun x => { x with txSwap := some l.val }
      else if (Config.freeWord u.draws).getLsbD 0 then { u with draws := u.draws + 1 }.loseTo q stDetect else { u with draws := u.draws + 1 }.askRetrain q) := by
  simp only [execSwap, whenUp_of_up hup hu, hstay, Nat.not_lt.2 hnew, hother, decide_false, Bool.or_self, Bool.false_eq_true, if_false, if_true, Bool.and_eq_true,
    Option.isNone_iff_eq_none]

theorem execSwapDone_of_up (hstay : u.portUp q = true) :
    execSwapDone q ids l s = .next (if (u.port q).txSwap = some l.val then ((u.modPort q fun x => { x with txSwap := none }).useTxSpare q).mapTx q l.val else u) := by
  simp only [execSwapDone, whenUp_of_up hup hu, hstay, if_true]

end

/-- Settles O32: the receiver's spare by `execSpareLockLoss_of_unused` and `execSpareCodewordDecode_of_enough`; every message of the partner in UP by `whenUp_of_up`, SWAP by whether
it has been taken before. -/
theorem sparesAndStops : Obligations.SparesAndStops := by
  unfold Obligations.SparesAndStops
  refine ⟨fun s q hup hspare hfree => ?_, fun s q l w hup hswap hlane => ?_, fun s u q ids l hup hu => ?_⟩
  · exact (exec_spareLockLoss q s).trans (execSpareLockLoss_of_unused hup hspare hfree)
  · rw [exec_spareCodewordDecode]
    exact ⟨execSpareCodewordDecode_of_few hup hswap hlane, execSpareCodewordDecode_of_enough hup hswap hlane⟩
  · rw [exec_swap, exec_swapDone, exec_spareBad, exec_retrain, exec_goodbye, execSpareBad, execRetrain, execGoodbye]
    simp only [whenUp_of_up hup hu]
    refine ⟨fun hstay => ⟨execSwap_of_taken hup hu l hstay, execSwap_of_new hup hu l hstay, execSwapDone_of_up hup hu l hstay, ?_, ?_, ?_⟩, fun hend => ?_⟩
    · rw [if_pos hstay]
    · rw [if_pos hstay]
    · rw [if_pos hstay]
    · simp only [execSwap, execSwapDone, whenUp_of_up hup hu, hend, Bool.false_eq_true, if_false, and_self]

end Sys2Proof.Machine
end

section
/-!
SUPPORT. Blocks in transit, multicast branches and fences, credits, and what a port takes from the device (R316, R323, R347 to R353, R364 to R366).
-/
namespace Sys2Proof.Machine

/-! ### Transit -/

theorem State.schedPart_of_loaded {s : State} {q : PortId} {p : Part} (howner : s.portOwner q = some p) (hloaded : s.loaded p = true) : s.schedPart q = .ok p := by
  rw [State.schedPart, howner]
  exact if_pos hloaded

section
variable {s s' : State} {q : PortId} {p : Part} {b : Block} {e : Nat} {l : List Block} (hhead : (s.port q).inSched = b :: l)
  (hs' : s' = s.modPort q fun x => { x with inSched := l }) (hkind : bits b.net 47 44 ≤ 5) (howner : s.portOwner q = some p) (hloaded : s.loaded p = true)
  (hentry : s.arrivalEntry p q b (decide (bits b.net 47 44 = 5)) = some e) (hrole : bits e 126 125 = 1)
include hhead hs' hkind howner hloaded hentry hrole

/-- The slot of departure decides what becomes of a transit block (R347 to R349). -/
theorem execScheduledBlockTransit_of_slot {sl fr : Nat} (hslot : transitSlot b.slot b.frame (bits e 86 77) (bits e 76 69) = some (sl, fr)) (hport : bits e 115 111 < 28) :
    execScheduledBlockTransit q s = .next (s'.schedule p (fin (bits e 115 111)) { b with slot := sl, frame := fr }) := by
  have hpart : s'.schedPart q = .ok p := State.schedPart_of_loaded (hs' ▸ howner) (hs' ▸ hloaded)
  have hentry' : s'.arrivalEntry p q b (decide (bits b.net 47 44 = 5)) = some e := hs' ▸ hentry
  simp only [execScheduledBlockTransit, hhead, ← hs', Nat.not_lt.2 hkind, hpart, hentry', hrole, hslot, hport, ne_eq, not_true_eq_false, if_false, if_true, next]

theorem execScheduledBlockTransit_of_no_slot (hslot : transitSlot b.slot b.frame (bits e 86 77) (bits e 76 69) = none) :
    execScheduledBlockTransit q s = .next (s'.faultPort p q) := by
  have hpart : s'.schedPart q = .ok p := State.schedPart_of_loaded (hs' ▸ howner) (hs' ▸ hloaded)
  have hentry' : s'.arrivalEntry p q b (decide (bits b.net 47 44 = 5)) = some e := hs' ▸ hentry
  simp only [execScheduledBlockTransit, hhead, ← hs', Nat.not_lt.2 hkind, hpart, hentry', hrole, hslot, ne_eq, not_true_eq_false, if_false, next]

end

/-! ### Multicast blocks and fences -/

section
variable {s s' : State} {q : PortId} {tt : Nat} {b : Block} (hhead : s.takeSched q tt = some (b, s')) (p : Part)
include hhead

theorem State.takeSched_branch (tree : Nat) (o : Option PortId) : s'.branch p tree o = s.branch p tree o := by
  obtain ⟨l, rfl⟩ := State.takeSched_state hhead
  rfl

theorem State.takeSched_treeEntry (tree : Nat) : s'.treeEntry p tree = s.treeEntry p tree := by
  obtain ⟨l, rfl⟩ := State.takeSched_state hhead
  rfl

theorem State.takeSched_morRange : s'.morRange p = s.morRange p := by
  obtain ⟨l, rfl⟩ := State.takeSched_state hhead
  rfl

end

section
variable {s s' : State} {q : PortId} {p : Part} {b : Block}

section
variable (hhead : s.takeSched q 6 = some (b, s')) (howner : s.portOwner q = some p) (hloaded : s.loaded p = true)
include hhead howner hloaded

/-- A block of a tree whose upstream is fenced is discarded (R366). -/
theorem execMulticastWrite_of_fenced (ecc : MemEcc) {c : BranchBuf} (hfenced : s.branch p (bits b.net 43 33) none = some c) : execMulticastWrite q ecc s = .next s' := by
  have hpart := State.takeSched_schedPart hhead howner
  simp only [execMulticastWrite, hhead, hpart, hloaded, State.takeSched_branch hhead, hfenced, Option.isSome_some, if_true, next]

/-- A block of a valid tree entry leaves on every output port, and is delivered where the entry says so (R347, R364). -/
theorem execMulticastWrite_of_entry (ecc : MemEcc) {t sl fr : Nat} (ht : t = s.treeEntry p (bits b.net 43 33)) (hopen : s.branch p (bits b.net 43 33) none = none)
    (hfree : bit t 125 = true → s'.blockWaits q b = false) (hvalid : bit t 127 = true) (hroot : bit t 126 = false) (hport : bits t 124 120 = q.val)
    (hslot : treeSlot t b.slot b.frame = some (sl, fr)) : execMulticastWrite q ecc s =
      .next (((treePorts t).foldl (fun s o => s.branchOut p (bits b.net 43 33) o { b with slot := sl, frame := fr }) s').treeDeliver ecc p q t b none) := by
  have hpart := State.takeSched_schedPart hhead howner
  have hwaits : (bit t 125 && s'.blockWaits q b) = false := by simpa using hfree
  simp only [execMulticastWrite, hhead, hpart, hloaded, State.takeSched_branch hhead, hopen, State.takeSched_treeEntry hhead, ← ht, hwaits, hvalid, hroot, hport, hslot, Option.isSome_none, ne_eq, not_true_eq_false, decide_false, Bool.not_true,
    Bool.or_self, Bool.false_eq_true, if_false, if_true, next]

end

/-- A place reads as what was written there, where that is no default, whatever the map's form. -/
theorem sget_sput_of_ne {α : Type} [DecidableEq α] (d : α) {a : Nat} {x : α} (hx : x ≠ d) : ∀ m : Sparse α, sget d (sput d m a x) a = x
  | [] => by simp [sput, sget, hx]
  | (k, v) :: m => by
    by_cases hk : a < k
    · simp [sput, sget, hk, hx]
    · by_cases he : a = k
      · simp [sput, sget, he, hx]
      · simp only [sput, hk, he, if_false, sget, sget_sput_of_ne d hx m]

/-- A mordant that is marked failed reads so. -/
theorem State.failed_setMor (s : State) (m : Nat) (x : Mordant) (hx : x.failed = true) : ((s.setMor m x).mor m).failed = true := by
  have hmarked : x ≠ mordant0 := fun h => by simp [h, mordant0] at hx
  have hread : (s.setMor m x).mor m = x := sget_sput_of_ne mordant0 hmarked s.mordants
  rw [hread, hx]

/-- The branch of a tree, or the one that is made where there is none. -/
def State.branchOr (s : State) (p : Part) (tree : Nat) (o : Option PortId) : BranchBuf := (s.branch p tree o).getD ⟨p, tree, o, [], false⟩

theorem State.branchOr_names (s : State) (p : Part) (tree : Nat) (o : Option PortId) :
    (s.branchOr p tree o).part = p ∧ (s.branchOr p tree o).tree = tree ∧ (s.branchOr p tree o).port = o := by
  rw [State.branchOr]
  cases h : s.branch p tree o with
  | none => exact ⟨rfl, rfl, rfl⟩
  | some c => simpa [and_assoc] using List.find?_some h

/-- A fenced branch is found as fenced. -/
theorem State.branch_fenced (s : State) (p : Part) (tree : Nat) (o : Option PortId) :
    (s.modBranch p tree o fun c => { c with fenced := true }).branch p tree o = some { s.branchOr p tree o with fenced := true } := by
  obtain ⟨hpart, htree, hport⟩ := s.branchOr_names p tree o
  have hrest : (s.fab.branches.filter fun b => !(b.part = p && b.tree = tree && b.port = o)).find? (fun b => b.part = p && b.tree = tree && b.port = o) = none :=
    List.find?_eq_none.2 fun c hc => Bool.eq_false_iff.1 ((Bool.not_eq_true' _).mp (List.mem_filter.1 hc).2)
  simp only [State.branch, State.modBranch, List.find?_append, hrest, Option.none_or]
  exact List.find?_cons_of_pos (by simpa using ⟨⟨hpart, htree⟩, hport⟩)

/-- The mordant FMOR of a fenced tree is marked failed where its entry delivers and FMOR lies in the partition's range (R366). -/
def State.failFmor (s : State) (p : Part) (t : Nat) : State :=
  match s.morRange p with
  | some (a, z) => if bit t 125 && bits t 43 28 ≠ 0xFFFF && bits t 43 28 ≤ z - a then s.setMor (a + bits t 43 28) { s.mor (a + bits t 43 28) with failed := true } else s
  | none => s

theorem State.failFmor_only (s : State) (p : Part) (t : Nat) : s.failFmor p t = { s with mordants := (s.failFmor p t).mordants } := by
  unfold State.failFmor
  split
  · split <;> rfl
  · rfl

theorem State.failFmor_failed {s : State} {p : Part} {t a z : Nat} (hrange : s.morRange p = some (a, z)) (hdeliver : bit t 125 = true) (hsome : bits t 43 28 ≠ 0xFFFF)
    (hin : bits t 43 28 ≤ z - a) : ((s.failFmor p t).mor (a + bits t 43 28)).failed = true := by
  simp only [State.failFmor, hrange, hdeliver, hsome, hin, ne_eq, not_false_eq_true, decide_true, Bool.and_self, if_true]
  exact s.failed_setMor _ _ rfl

/-- A fence goes on to every output port of a tree entry (R366). -/
def State.passFence (s : State) (t tree : Nat) : State := (treePorts t).foldl (fun s o => s.modPort o fun x => { x with fences := x.fences ++ [fenceBlock tree] }) s

theorem State.passFence_only (s : State) (t tree : Nat) : s.passFence t tree = { s with ports := (s.passFence t tree).ports } :=
  List.foldlRecOn (motive := fun u : State => u = { s with ports := u.ports }) (treePorts t) (fun s o => s.modPort o fun x => { x with fences := x.fences ++ [fenceBlock tree] })
    rfl fun _ hu o _ => (congrArg (fun u : State => u.modPort o fun x => { x with fences := x.fences ++ [fenceBlock tree] }) hu :)

theorem treePorts_nodup (t : Nat) : (treePorts t).Nodup := (List.nodup_finRange 28).filter _

theorem State.passFence_fences {t : Nat} {o : PortId} (ho : o ∈ treePorts t) (s : State) (tree : Nat) :
    ((s.passFence t tree).port o).fences = (s.port o).fences ++ [fenceBlock tree] := by
  have hsame (u : State) (i : PortId) : ((u.modPort i fun x => { x with fences := x.fences ++ [fenceBlock tree] }).port i).fences = (u.port i).fences ++ [fenceBlock tree] :=
    congrArg Port.fences (u.port_modPort_same i _)
  have hother (u : State) (i j : PortId) (h : j ≠ i) : (u.modPort i fun x => { x with fences := x.fences ++ [fenceBlock tree] }).port j = u.port j := vget_vmod_other _ _ _ _ h
  exact foldl_each (k := fun (u : State) j => (u.port j).fences ++ [fenceBlock tree]) (k' := fun u j => (u.port j).fences) hsame
    (fun u i j h => by rw [hother u i j h]) (fun u i j h => by rw [hother u i j h]) (treePorts_nodup t) ho s

/-- The state before a fence's record: FMOR marked, the tree's upstream fenced, the fence at the output ports. -/
def State.fenced (s : State) (p : Part) (tree t : Nat) : State := ((s.failFmor p t).modBranch p tree none fun c => { c with fenced := true }).passFence t tree

theorem execFence_of_loaded (hhead : s.takeSched q 7 = some (b, s')) (howner : s.portOwner q = some p) (hloaded : s.loaded p = true) {t : Nat}
    (ht : t = s.treeEntry p (bits b.net 43 33)) : execFence q s = .next ((s'.fenced p (bits b.net 43 33) t).raise (some p) 8 0x0801 (sitePort q)) := by
  have hpart := State.takeSched_schedPart hhead howner
  simp only [execFence, hhead, hpart, hloaded, State.takeSched_treeEntry hhead, ← ht, if_true, next]
  rfl

/-- Fencing a tree changes ports, fabric services and mordants, and no more. -/
theorem State.fenced_only (s : State) (p : Part) (tree t : Nat) :
    s.fenced p tree t = { s with mordants := (s.failFmor p t).mordants, fab := (s.fenced p tree t).fab, ports := (s.fenced p tree t).ports } := by
  unfold State.fenced
  rw [State.passFence_only, State.failFmor_only]
  rfl

theorem State.fenced_branch (s : State) (p : Part) (tree t : Nat) : ∃ c, (s.fenced p tree t).branch p tree none = some c ∧ c.fenced = true := by
  refine ⟨{ (s.failFmor p t).branchOr p tree none with fenced := true }, ?_, rfl⟩
  rw [State.fenced, State.passFence_only]
  exact State.branch_fenced _ p tree none

/-- The record of the fence stands, though the block was taken and the fence passed on before it. -/
theorem State.fenced_records (h : s.takeSched q 7 = some (b, s')) (tree t : Nat) :
    Records s ((s'.fenced p tree t).raise (some p) 8 0x0801 (sitePort q)) (some p) 8 0x0801 (sitePort q) := by
  obtain ⟨l, rfl⟩ := State.takeSched_state h
  rw [State.fenced_only]
  exact (State.raise_records _ _ _ _ _).of_before rfl rfl rfl rfl

end

/-! ### Credits -/

theorem execCredit_of_head {s s' : State} {q : PortId} {b : Block} (hhead : s.takeSched q 0xD = some (b, s')) : execCredit q s = .next
    (s'.modPort q fun x => { x with credits := Vector.ofFn fun i => min 16 (vget x.credits i + bits b.net (43 - 11 * i.val) (33 - 11 * i.val)) }) := by
  simp only [execCredit, hhead, next]

/-! ### What a port takes from the device -/

/-- Two updates of a port are one. -/
theorem State.modPort_modPort (s : State) (q : PortId) (f g : Port → Port) : (s.modPort q f).modPort q g = s.modPort q fun x => g (f x) := by
  simp [State.modPort, vmod, vget, vset]

/-- A port that is not UP lets an open transfer without a way out go on. -/
theorem execPortAcceptsBlock_of_down {s : State} {q : PortId} {k : Nat} {y : Xfer} (ecc : MemEcc) (hdown : s.portUp q = false) (hk : s.xfers.findIdx? s.noWayOut = some k)
    (hy : s.xfers[k]? = some y) : execPortAcceptsBlock q ecc s = .next (s.emitXfer ecc q k y) := by
  simp only [execPortAcceptsBlock, hdown, hk, hy, Bool.not_false, if_true, next]

section
variable {s : State} {q : PortId} (ecc : MemEcc) (hup : s.portUp q = true)
include hup

section
variable (hopen : s.restricted q = false)
include hopen

/-- The oldest scheduled block comes first, if the retry buffer has room (R316). -/
theorem execPortAcceptsBlock_of_scheduled {b : Block} {l : List Block} (hsched : (s.port q).outSched = b :: l) : execPortAcceptsBlock q ecc s = .next (
    if (s.port q).buf.length < 4095 then s.modPort q fun x => { x with outSched := l, buf := x.buf ++ [b] } else s.askRetrain q) := by
  have haccept : (s.modPort q fun x => { x with outSched := l }).acceptBlock q b = s.modPort q fun x => { x with outSched := l, buf := x.buf ++ [b] } :=
    s.modPort_modPort q _ _
  by_cases hroom : (s.port q).buf.length < 4095
  · simp [execPortAcceptsBlock, hup, hopen, hsched, hroom, Nat.not_le.2 hroom, haccept, next]
  · simp [execPortAcceptsBlock, hup, hopen, hsched, hroom, Nat.not_lt.1 hroom, next]

/-- Then comes a block kept for one of the port's branches (R365). -/
theorem execPortAcceptsBlock_of_kept {c : BranchBuf} (hsched : (s.port q).outSched = []) (hquick : s.behindOn q < 704) (hkept : s.keptFor q = some c) :
    execPortAcceptsBlock q ecc s = .next (if (s.port q).buf.length < 4095
      then (s.modBranch c.part c.tree c.port fun c => { c with blocks := c.blocks.drop 1 }).acceptBlock q (c.blocks.headD (fenceBlock 0)) else s.askRetrain q) := by
  by_cases hroom : (s.port q).buf.length < 4095
  · simp [execPortAcceptsBlock, hup, hopen, hsched, hquick, hkept, hroom, Nat.not_le.2 hroom, next]
  · simp [execPortAcceptsBlock, hup, hopen, hsched, hquick, hkept, hroom, Nat.not_lt.1 hroom, next]

end

/-- With nothing scheduled and nothing kept for the port, a transfer gives its next block, which the port takes if it is scheduled there. -/
theorem execPortAcceptsBlock_of_transfer {s' : State} {k : Nat} {y : Xfer}
    (hnone : s.restricted q = true ∨ (s.port q).outSched = [] ∧ (704 ≤ s.behindOn q ∨ s.keptFor q = none))
    (hk : s.xfers.findIdx? (fun y => s.leavesBy q y && (!s.restricted q || (y.route = openRoute && y.kind ≠ .multicast))) = some k) (hy : s.xfers[k]? = some y)
    (hs' : s' = s.emitXfer ecc q k y) :
    ((s'.port q).outSched = [] → execPortAcceptsBlock q ecc s = .next s') ∧
    ∀ b l, (s'.port q).outSched = b :: l → execPortAcceptsBlock q ecc s = .next (
      if !s.restricted q && (s'.port q).buf.length < 4095 then (s'.modPort q fun x => { x with outSched := l }).acceptBlock q b else s') := by
  have hsched : (if (!s.restricted q) = true then (s.port q).outSched else []) = [] := by
    obtain h | ⟨h, -⟩ := hnone <;> simp [h]
  have hwaits : (!s.restricted q && decide ((s.port q).outSched ≠ [])) = false := by
    obtain h | ⟨h, -⟩ := hnone <;> simp [h]
  have hkept : (if (!s.restricted q && decide (s.behindOn q < 704)) = true then s.keptFor q else none) = none := by
    obtain h | ⟨-, h | h⟩ := hnone
    · simp [h]
    · simp [Nat.not_lt.2 h]
    · simp [h]
  constructor
  · intro hempty
    simp only [execPortAcceptsBlock, hup, hsched, hwaits, hkept, hk, hy, ← hs', hempty, Bool.not_true, Option.isSome_none, Bool.or_self, Bool.false_and, Bool.false_eq_true, if_false, next]
  · intro b l hhead
    simp only [execPortAcceptsBlock, hup, hsched, hwaits, hkept, hk, hy, ← hs', hhead, Bool.not_true, Option.isSome_none, Bool.or_self, Bool.false_and, Bool.false_eq_true, if_false, next,
      apply_ite Host.Outcome.next]

end

/-- Settles O34: transit by the slot of departure, a multicast block by its tree (`execMulticastWrite_of_entry`, `execMulticastWrite_of_fenced`), a fence by what it leaves
(`execFence_of_loaded`, `State.fenced_only`), and a port's turn by what waits for it (`execPortAcceptsBlock_of_scheduled` and its companions). -/
theorem blocksInTransit : Obligations.BlocksInTransit := by
  unfold Obligations.BlocksInTransit
  refine ⟨fun s s' q p b e l hhead hs' hkind howner hloaded hentry hrole => ?_,
    fun s s' q p b tree sl fr ecc hhead howner hloaded htree hopen hfree hvalid hroot hport hslot => ?_, fun s s' q p b c ecc hhead howner hloaded hfenced => ?_,
    fun s s' q p b hhead howner hloaded => ?_, fun s s' q b hhead => ?_, fun s q ecc hup hopen => ?_, fun s s' q k y ecc hup hnone hk hy hs' => ?_,
    fun s q k y ecc hdown hk hy => ?_⟩
  · rw [exec_scheduledBlockTransit]
    exact ⟨fun sl fr => execScheduledBlockTransit_of_slot hhead hs' hkind howner hloaded hentry hrole,
      execScheduledBlockTransit_of_no_slot hhead hs' hkind howner hloaded hentry hrole⟩
  · subst htree
    exact (exec_multicastWrite q ecc s).trans (execMulticastWrite_of_entry hhead howner hloaded ecc rfl hopen hfree hvalid hroot hport hslot)
  · exact (exec_multicastWrite q ecc s).trans (execMulticastWrite_of_fenced hhead howner hloaded ecc hfenced)
  · refine ⟨_, (exec_fence q s).trans (execFence_of_loaded hhead howner hloaded rfl), ?_, State.fenced_records hhead _ _, fun o ho => ?_, fun a z f hrange hdeliver hf hsome hin => ?_⟩
    · simp only [State.branch, State.raise_fab]
      exact State.fenced_branch s' p _ _
    · simp only [State.port, State.raise_ports]
      exact ⟨_, State.passFence_fences ho _ _⟩
    · subst hf
      simp only [State.mor, State.raise_mordants]
      rw [State.fenced_only]
      exact State.failFmor_failed ((State.takeSched_morRange hhead p).trans hrange) hdeliver hsome hin
  · exact (exec_credit q s).trans (execCredit_of_head hhead)
  · rw [exec_portAcceptsBlock]
    exact ⟨fun b l => execPortAcceptsBlock_of_scheduled ecc hup hopen, fun c => execPortAcceptsBlock_of_kept ecc hup hopen⟩
  · obtain ⟨hempty, hhead⟩ := execPortAcceptsBlock_of_transfer ecc hup hnone hk hy hs'
    rw [exec_portAcceptsBlock]
    split
    · next b l h => exact hhead b l h
    · next h => exact hempty h
  · exact (exec_portAcceptsBlock q ecc s).trans (execPortAcceptsBlock_of_down ecc hdown hk hy)

end Sys2Proof.Machine
end

section
/-!
SUPPORT. The commands of a port and its enable (R321, R332, R333, R335), and the fragments of tunnel messages (R480, R510).
-/
namespace Sys2Proof.Machine

/-! ### Commands of a port -/

/-- A command of OD 5005h that is accepted is done, or is refused and shows 01h (Table 16-9). -/
theorem portCommand_of_accepts {s : State} {via : Via} {q : PortId} {v : Byte} (h : s.accepts via 0x5005 (q.val + 1) [v] = true) (ok : State → Bool) (act : State → State) :
    portCommand via q v ok act s = .next (if ok s then act ((s.answered via 0x5005 (q.val + 1) [v] 0).setReg 0x5005 (q.val + 1) 0)
      else (s.answered via 0x5005 (q.val + 1) [v] 5).setReg 0x5005 (q.val + 1) 1) := by
  rw [portCommand, command_of_accepts h]
  cases ok s <;> rfl

section
variable {s : State} {via : Via} {q : PortId}

theorem execPortCommandRetrain_of_up (h : s.accepts via 0x5005 (q.val + 1) [1] = true) (hup : s.portUp q = true) : execPortCommandRetrain via q s =
    .next ((((s.answered via 0x5005 (q.val + 1) [1] 0).setReg 0x5005 (q.val + 1) 0).askRetrain q).setReg 0x5005 (q.val + 1) 2) := by
  rw [execPortCommandRetrain, portCommand_of_accepts h, if_pos hup]

theorem execPortCommandRetrain_of_down (h : s.accepts via 0x5005 (q.val + 1) [1] = true) (hdown : s.portUp q = false) : execPortCommandRetrain via q s =
    .next ((s.answered via 0x5005 (q.val + 1) [1] 5).setReg 0x5005 (q.val + 1) 1) := by
  rw [execPortCommandRetrain, portCommand_of_accepts h, if_neg (Bool.eq_false_iff.1 hdown)]

theorem execPortCommandOrderlyDown_of_free (h : s.accepts via 0x5005 (q.val + 1) [2] = true) (hheld : s.portState q ≠ stHeld) (hretired : s.portState q ≠ stRetired) {u : State}
    (hu : u = (s.answered via 0x5005 (q.val + 1) [2] 0).setReg 0x5005 (q.val + 1) 0) :
    execPortCommandOrderlyDown via q s = .next (if u.portUp q then (u.askGoodbye q).setReg 0x5005 (q.val + 1) 2 else u.goodbye q) := by
  have hok : (decide (s.portState q ≠ stHeld) && decide (s.portState q ≠ stRetired)) = true := by simp [hheld, hretired]
  rw [execPortCommandOrderlyDown, portCommand_of_accepts h, if_pos hok, hu]

theorem execPortCommandReleaseHeld_of_held (h : s.accepts via 0x5005 (q.val + 1) [3] = true) (hheld : s.portState q = stHeld) : execPortCommandReleaseHeld via q s =
    .next (((s.answered via 0x5005 (q.val + 1) [3] 0).setReg 0x5005 (q.val + 1) 0).setPortState q stDown) := by
  rw [execPortCommandReleaseHeld, portCommand_of_accepts h, if_pos (decide_eq_true hheld)]

/-- The enable takes 00h and 01h, and 00h stops the port (R321, R333). -/
theorem execPortEnableWrite_of_valid {v : Byte} (h : s.accepts via 0x5000 (q.val + 1) [v] = true) (hv : v.toNat ≤ 1) {u : State}
    (hu : u = (s.answered via 0x5000 (q.val + 1) [v] 0).setReg 0x5000 (q.val + 1) v.toNat) : execPortEnableWrite via q v s = .next (if v = 0 then u.stopPort q else u) := by
  rw [execPortEnableWrite, command_of_accepts h, if_neg (Nat.not_lt.2 hv), hu]

theorem execPortEnableWrite_of_invalid {v : Byte} (h : s.accepts via 0x5000 (q.val + 1) [v] = true) (hv : 1 < v.toNat) :
    execPortEnableWrite via q v s = .next (s.answered via 0x5000 (q.val + 1) [v] 3) := by
  rw [execPortEnableWrite, command_of_accepts h, if_pos hv]
  rfl

end

/-! ### Tunnel messages -/

theorem execManagementTunnel_of_head {s s' : State} {q : PortId} {b : Block} (a : Option W16) (hon : s.stewardUp = true)
    (hhead : (s.takeOpen q fun b => bits b.net 47 44 = 0xE && blkDev b = s.reg 0x1020 0) = some (b, s')) :
    execManagementTunnel q a s = .next (if b.poison ∨ (fragOf b.data).ok = false then s' else s'.reassemble (fragOf b.data) a) := by
  simp only [execManagementTunnel, hon, hhead, Bool.not_true, Bool.false_eq_true, if_false, Bool.or_eq_true, Bool.not_eq_true', next, apply_ite Host.Outcome.next]

theorem execTunnelReassemblyTimeout_of_late {s : State} {src msg : W16} (hlate : ∃ r ∈ s.stw.inbox, r.src = src ∧ r.id = msg ∧ s.passed r.since 100000000 = true) :
    execTunnelReassemblyTimeout src msg s = .next (s.modStw fun x => { x with inbox := x.inbox.filter fun r => !(r.src = src && r.id = msg) }) := by
  have hany : (s.stw.inbox.any fun r => decide (r.src = src) && decide (r.id = msg) && s.passed r.since 100000000) = true := by simpa [and_assoc] using hlate
  simp only [execTunnelReassemblyTimeout, hany, if_true, next]

section
variable {s : State} {k : Nat} {m : TunnelMsg} (hm : s.stw.outbox[k]? = some m) (hon : s.stewardUp = true) (hdue : s.passed m.at_ 200000000 = true)
include hm hon hdue

theorem execTunnelResend_of_few (hfew : m.sends < 16) : execTunnelResend k s =
    .next ((s.modStw fun x => { x with outbox := lset x.outbox k { m with sends := m.sends + 1, at_ := s.time } }).sendFragment m.dest m.id) := by
  simp only [execTunnelResend, hm, hon, hdue, hfew, Bool.not_true, Bool.or_self, Bool.false_eq_true, if_false, if_true, next]

variable (hmany : 16 ≤ m.sends) {u : State} (hu : u = s.modStw fun x => { x with outbox := ldel x.outbox k })
include hmany hu

/-- A reservation that is given up loses its partner tier, if the partition still names that holder (R510). -/
theorem execTunnelResend_of_reservation {p : Part} (hbody : m.body = .reserve p) :
    execTunnelResend k s = .next (if bits (u.reg 0x6176 (p.val + 1)) 47 32 = m.dest.toNat then u.losePartner p else u) := by
  simp only [execTunnelResend, hm, hon, hdue, Nat.not_lt.2 hmany, hbody, ← hu, Bool.not_true, Bool.or_self, Bool.false_eq_true, if_false, next]

theorem execTunnelResend_of_other (hbody : ∀ p, m.body ≠ .reserve p) : execTunnelResend k s = .next u := by
  simp only [execTunnelResend, hm, hon, hdue, Nat.not_lt.2 hmany, ← hu, Bool.not_true, Bool.or_self, Bool.false_eq_true, if_false, next]

end

/-- Settles O36: a command of a port by its answer (`portCommand_of_accepts`), the enable by its value, tunnel messages by what becomes of a fragment and of a message without an
answer. -/
theorem portCommandsAndTunnel : Obligations.PortCommandsAndTunnel := by
  unfold Obligations.PortCommandsAndTunnel
  refine ⟨fun s via q h hup => ?_, fun s via q h hdown => ?_, fun s u via q h hheld hretired hu => ?_, fun s via q h hheld => ?_, fun s via q h => ?_, fun s via q h => ?_,
    fun s via q v h hv => ?_, fun s s' q a b hon hhead => ?_, fun s src msg hlate => ?_, fun s k m hm hon hdue => ⟨fun hfew => ?_, fun hmany u hu => ?_⟩⟩
  · exact (exec_portCommandRetrain via q s).trans (execPortCommandRetrain_of_up h hup)
  · exact (exec_portCommandRetrain via q s).trans (execPortCommandRetrain_of_down h hdown)
  · exact (exec_portCommandOrderlyDown via q s).trans (execPortCommandOrderlyDown_of_free h hheld hretired hu)
  · exact (exec_portCommandReleaseHeld via q s).trans (execPortCommandReleaseHeld_of_held h hheld)
  · exact (exec_portEnableWrite via q 0 s).trans (execPortEnableWrite_of_valid h (by decide) rfl)
  · exact (exec_portEnableWrite via q 1 s).trans (execPortEnableWrite_of_valid h (by decide) rfl)
  · exact (exec_portEnableWrite via q v s).trans (execPortEnableWrite_of_invalid h hv)
  · exact (exec_managementTunnel q a s).trans (execManagementTunnel_of_head a hon hhead)
  · exact (exec_tunnelReassemblyTimeout src msg s).trans (execTunnelReassemblyTimeout_of_late hlate)
  · exact (exec_tunnelResend k s).trans (execTunnelResend_of_few hm hon hdue hfew)
  · rw [exec_tunnelResend]
    split
    · next p hbody => exact execTunnelResend_of_reservation hm hon hdue hmany hu hbody
    · next hbody => exact execTunnelResend_of_other hm hon hdue hmany hu hbody

end Sys2Proof.Machine
end

section
/-!
SUPPORT. O1 and O52: a step takes the front of the queue, and every change of a step keeps the order and the sizes of the fault log (R413, R415, R456).
-/
namespace Sys2Proof.Machine

/-- Settles O1: a step is defined so on a queue that is not empty. -/
theorem stepRunsFrontCommand : Obligations.StepRunsFrontCommand := by
  unfold Obligations.StepRunsFrontCommand
  exact fun _ _ _ => rfl

/-! ### Records numbered in a row -/

theorem numbered_append {l : List FaultRec} {r : FaultRec} : ∀ {n : W16}, numbered n l = true → r.seq = n + BitVec.ofNat 16 l.length → numbered n (l ++ [r]) = true := by
  induction l with
  | nil => intro n _ hr; simpa [numbered] using hr
  | cons q l ih =>
    intro n hl hr
    simp only [numbered, Bool.and_eq_true, decide_eq_true_eq] at hl
    have hrest : numbered (n + 1) (l ++ [r]) = true := ih hl.2 (by rw [hr, List.length_cons, ← BitVec.ofNat_add_ofNat]; ac_rfl)
    simp only [List.cons_append, numbered, hl.1, hrest, decide_true, Bool.and_self]

theorem numbered_tail {l : List FaultRec} {n : W16} (h : numbered n l = true) : numbered (n + 1) (l.drop 1) = true := by
  cases l with
  | nil => rfl
  | cons q l =>
    simp only [numbered, Bool.and_eq_true] at h
    exact h.2

/-! ### What the changes keep -/

theorem State.logWf_iff (s : State) : s.logWf = true ↔ s.faults.length ≤ 4096 ∧ numbered (s.seqNext - BitVec.ofNat 16 s.faults.length) s.faults = true ∧
    s.acked ≤ s.faults.length ∧ s.faultHold.length ≤ 1024 := by
  simp only [State.logWf, Bool.and_eq_true, decide_eq_true_eq, and_assoc]

theorem State.logWf_of_kept {s t : State} (h : s.logWf = true) (hk : t.kept = s.kept) : t.logWf = true := by
  simp only [State.kept, Prod.mk.injEq] at hk
  obtain ⟨-, -, -, hfaults, hhold, hacked, hseq⟩ := hk
  unfold State.logWf
  rw [hfaults, hhold, hacked, hseq]
  exact h

/-- A record that takes the next SEQ follows the newest; a full log drops its oldest (R413, R415). -/
theorem State.logWf_of_log {s : State} {r : FaultRec} (h : s.logWf = true) (hr : r.seq = s.seqNext) : State.logWf { s with
    faults := (if decide (4096 ≤ s.faults.length) then s.faults.drop 1 else s.faults) ++ [r]
    acked := if decide (4096 ≤ s.faults.length) then s.acked - 1 else s.acked
    seqNext := s.seqNext + 1 } = true := by
  obtain ⟨hlen, hnum, hack, hhold⟩ := s.logWf_iff.1 h
  refine (State.logWf_iff _).2 ?_
  by_cases hfull : 4096 ≤ s.faults.length
  · have h4096 : s.faults.length = 4096 := by omega
    have hdrop : (s.faults.drop 1).length = 4095 := by rw [List.length_drop, h4096]
    simp only [decide_eq_true_eq, if_pos hfull, List.length_append, hdrop, List.length_singleton]
    refine ⟨le_refl _, numbered_append ?_ ?_, by omega, hhold⟩
    · have hfirst : s.seqNext + 1 - BitVec.ofNat 16 (4095 + 1) = s.seqNext - BitVec.ofNat 16 s.faults.length + 1 := by
        rw [h4096]
        bv_omega
      rw [hfirst]
      exact numbered_tail hnum
    · rw [hr, hdrop]
      bv_omega
  · simp only [hfull, decide_false, Bool.false_eq_true, if_false, List.length_append, List.length_singleton]
    have hfirst : s.seqNext + 1 - BitVec.ofNat 16 (s.faults.length + 1) = s.seqNext - BitVec.ofNat 16 s.faults.length := by
      rw [← BitVec.ofNat_add_ofNat]
      bv_omega
    rw [hfirst]
    exact ⟨by omega, numbered_append hnum (by rw [hr, BitVec.sub_add_cancel]), by omega, hhold⟩

theorem Edit.logWf {may : Bool} {s t : State} (he : Edit may s t) (h : s.logWf = true) : t.logWf = true := by
  cases he with
  | other hk => exact State.logWf_of_kept h hk
  | log _ hr => exact State.logWf_of_log h hr
  | hold _ r =>
    obtain ⟨hlen, hnum, hack, hhold⟩ := s.logWf_iff.1 h
    refine (State.logWf_iff _).2 ⟨hlen, hnum, hack, ?_⟩
    show ((if s.faultHold.length < 1024 then s.faultHold else s.faultHold.drop 1) ++ [r]).length ≤ 1024
    split <;> simp only [List.length_append, List.length_drop, List.length_singleton] <;> omega
  | dropHeld _ =>
    obtain ⟨hlen, hnum, hack, -⟩ := s.logWf_iff.1 h
    exact (State.logWf_iff _).2 ⟨hlen, hnum, hack, Nat.zero_le _⟩
  | ack hk =>
    obtain ⟨hlen, hnum, hack, hhold⟩ := s.logWf_iff.1 h
    exact (State.logWf_iff _).2 ⟨hlen, hnum, Nat.max_le.2 ⟨hack, hk⟩, hhold⟩
  | putReg | dropRegs | putMor | dropMors | putByte | putSector | poisonWord | dropBytes => exact h

theorem Edits.logWf {may : Bool} {s t : State} (he : Edits may s t) (h : s.logWf = true) : t.logWf = true := by
  induction he with
  | refl => exact h
  | tail _ hedit ih => exact hedit.logWf ih

/-- Settles O52: every change that a step makes keeps the log in order (`Edit.logWf`), and a step is a sequence of such changes. -/
theorem logStaysInOrder : Obligations.LogStaysInOrder := by
  unfold Obligations.LogStaysInOrder
  intro s t h hstep
  unfold step at hstep
  split at hstep
  · next c rest _ => exact (exec_edits { s with pending := rest } c t hstep).logWf h
  · cases hstep
    exact (Edits.tick .refl).logWf h

end Sys2Proof.Machine
end

section
/-!
SUPPORT. O58: the first fault of a beat ends its job by the class that its record holds (R18, R484). A record holds eight bits of a class (R413).
-/
namespace Sys2Proof.Machine

/-- The record of an event ends no job, so that the partitions stay as they are (R18). -/
theorem State.writeRec_parts_of_event {s : State} {r : FaultRec} (h : r.cls = 0x0D) : (s.writeRec r).parts = s.parts := by
  rw [State.writeRec, if_neg (by simp [h])]
  exact (s.record_only r).parts

theorem State.beatEnd_parts_of_event {s : State} {r : FaultRec} (hbeat : s.beat = [r]) (h : r.cls = 0x0D) : s.beatEnd.parts = s.parts := by
  rw [State.beatEnd, hbeat]
  exact State.writeRec_parts_of_event (s := { s with beat := [] }) h

/-- A device on which the job of partition 0 runs. -/
def runningJob : State := State.reset.modPart 0 fun x => { x with jobState := 3 }

theorem runningJob_state : runningJob.odValue 0x6000 1 = 3 :=
  congrArg (fun x : Partition => x.jobState.toNat) (State.reset.prt_modPart_same 0 fun x => { x with jobState := 3 })

/-- Refutes O58: a class of 10Dh is not 0Dh, but its record is that of an event, 0Dh, which ends no job: at the end of the beat OD 6000h of partition 0 still reads 03h. -/
theorem not_jobEnds : ¬ Obligations.JobEnds := by
  unfold Obligations.JobEnds
  rintro ⟨-, h⟩
  have hlive : jobLive (runningJob.prt 0) = true := congrArg jobLive (State.reset.prt_modPart_same 0 fun x => { x with jobState := 3 })
  obtain ⟨hbeat, hlater, -, hended, -, -⟩ := h runningJob _ _ 0 0x10D 0 (siteSteward noLoc2) hlive (by decide) rfl rfl rfl
  have hparts := State.beatEnd_parts_of_event hbeat rfl
  have hstate : (State.beatEnd (runningJob.raise (some 0) 0x10D 0 (siteSteward noLoc2))).odValue 0x6000 1 = 3 :=
    (congrArg (fun v => (vget v (0 : Part)).jobState.toNat) hparts).trans (hlater.trans runningJob_state)
  exact absurd (hended.symm.trans hstate) (by decide)

end Sys2Proof.Machine
end

section
/-!
SUPPORT. Restarts of the steward (R405, R450, R455 to R457, R462, R479).
-/
namespace Sys2Proof.Machine

/-! ### Registers that stay listed once -/

/-- Every change of a step keeps the registers listed once. -/
theorem Edits.regsWf {may : Bool} {s t : State} (he : Edits may s t) (h : s.regsWf = true) : t.regsWf = true := by
  induction he with
  | refl => exact h
  | tail _ hedit ih =>
    cases hedit with
    | other hk =>
      simp only [State.kept, Prod.mk.injEq] at hk
      obtain ⟨-, -, hdict, -⟩ := hk
      unfold State.regsWf
      exact hdict ▸ ih
    | putReg _ d k v => exact risingFrom_sput d _ 0 k v (Nat.zero_le k) ih
    | dropRegs _ f => exact risingFrom_filter f ih
    | putMor | dropMors | log | hold | dropHeld | ack | putByte | putSector | poisonWord | dropBytes => exact ih

theorem State.reg_alertFrom (old s : State) (i b : Nat) : (State.alertFrom old s).reg i b = s.reg i b := by
  unfold State.alertFrom
  split <;> rfl

theorem State.alertFrom_stw (old s : State) : (State.alertFrom old s).stw = s.stw := by
  unfold State.alertFrom
  split <;> rfl

/-- OD 1030h reads 00h as the steward is taken to its boot ROM. -/
theorem State.reg_setSteward_zero {s : State} (h : s.regsWf = true) : (s.setSteward 0).reg 0x1030 0 = 0 :=
  (State.reg_alertFrom _ _ _ _).trans (s.reg_setReg_same 0x1030 0 0 (by decide) h)

theorem State.setSteward_zero_stw (s : State) : (s.setSteward 0).stw = s.stw := State.alertFrom_stw _ _

/-- The device as its management cores go down: requests are answered and ports that are not UP are held (R457, R479). -/
def State.restarting (s : State) : State := (List.finRange 28).foldl State.holdPort ((List.finRange 5).foldl State.answerRestart s)

theorem State.restarting_regsWf {s : State} (h : s.regsWf = true) : s.restarting.regsWf = true := by
  have hdown : Edits false s s.restarting := (Edits.refl.foldl fun _ _ h => h.answerRestart).foldl fun _ _ h => h.holdPort
  exact hdown.regsWf h

/-- What a restart makes of the steward: it runs its boot ROM without session, staging copy or key (R455, R456). -/
def State.rebooted (s : State) (x : Steward) : Steward :=
  { x with
    romHold := false, downAt := if s.stewardUp then s.time else x.downAt, sessions := Vector.replicate 8 none, staging := Vector.replicate 5 [], inbox := [], spdm := []
    secretLocked := false, devKey := none, bootKey := none, runKey := none }

theorem State.restartSteward_eq (s : State) : s.restartSteward = (s.restarting.modStw s.restarting.rebooted).setSteward 0 := by
  unfold State.restartSteward State.rebooted State.restarting
  rfl

theorem State.restartSteward_reg {s : State} (h : s.regsWf = true) : s.restartSteward.reg 0x1030 0 = 0 := by
  rw [State.restartSteward_eq]
  have hwf := State.restarting_regsWf h
  generalize s.restarting = u at hwf ⊢
  exact State.reg_setSteward_zero (s := u.modStw u.rebooted) hwf

theorem State.restartSteward_stw (s : State) : s.restartSteward.stw = s.restarting.rebooted s.restarting.stw := by
  rw [State.restartSteward_eq, State.setSteward_zero_stw]
  rfl

theorem RestartOnly.mem {s t : State} (h : RestartOnly s t) : t.mem = s.mem := (congrArg State.mem h :)
theorem RestartOnly.poison {s t : State} (h : RestartOnly s t) : t.poison = s.poison := (congrArg State.poison h :)
theorem RestartOnly.parts {s t : State} (h : RestartOnly s t) : t.parts = s.parts := (congrArg State.parts h :)
theorem RestartOnly.faults {s t : State} (h : RestartOnly s t) : t.faults = s.faults := (congrArg State.faults h :)
theorem RestartOnly.time {s t : State} (h : RestartOnly s t) : t.time = s.time := (congrArg State.time h :)

/-! ### A record outside every job -/

/-- A fault that belongs to no job is recorded at once (R17, R18). -/
theorem State.raise_none (s : State) (cls detail : Nat) (x : Site) :
    s.raise none cls detail x = (s.noteFault none cls detail x false).record (s.faultRec none cls detail x) := rfl

/-- A fault of the steward itself makes no station suspect and breaks the clean hour (R408, R409). -/
theorem State.noteFault_steward (s : State) (detail loc2 : Nat) : s.noteFault none 3 detail (siteSteward loc2) false = s.breakHour := rfl

/-- While the steward restarts, a record waits (R456). -/
theorem State.record_of_down {s : State} (r : FaultRec) (h : s.stewardUp = false) : (s.record r).faultHold.getLast? = some r ∧ (s.record r).faults = s.faults := by
  rw [State.record, if_neg (Bool.eq_false_iff.1 h)]
  split <;> exact ⟨List.getLast?_concat .., rfl⟩

/-- A fault of the steward while it restarts leaves a record that waits, and no other trace in jobs and log (R405, R456). -/
theorem State.raise_steward_of_down {s : State} (detail loc2 : Nat) (h : s.stewardUp = false) :
    (s.raise none 3 detail (siteSteward loc2)).faultHold.getLast? = some (s.faultRec none 3 detail (siteSteward loc2)) ∧
    (s.raise none 3 detail (siteSteward loc2)).faults = s.faults ∧ (s.raise none 3 detail (siteSteward loc2)).parts = s.parts := by
  obtain ⟨hlast, hfaults⟩ := State.record_of_down (s := s.breakHour) (s.faultRec none 3 detail (siteSteward loc2)) (s.breakHour_stewardUp.trans h)
  rw [State.raise_none, State.noteFault_steward]
  exact ⟨hlast, hfaults, (State.record_only _ _).parts⟩

/-- A lockstep mismatch restarts the steward, and begins every rotation pass afresh (R405). -/
theorem execStewardLockstepMismatch_of_on {s u : State} (hon : s.stewardOn = true) (hu : u = s.restartSteward.raise none 3 0x0302 (siteSteward noLoc2)) :
    execStewardLockstepMismatch s = .next { u with
      health := u.health.map fun h => { h with passed := [], passFrom := u.time }, parts := u.parts.map fun x => { x with passFrom := u.time } } := by
  rw [execStewardLockstepMismatch, hon, hu]
  rfl

theorem execStewardLockstepMismatch_records {s : State} (hon : s.stewardOn = true) (hwf : s.regsWf = true) : ∃ t r, execStewardLockstepMismatch s = .next t ∧
    t.faultHold.getLast? = some r ∧ r.cls = 3 ∧ r.detail = 0x0302 ∧ r.nojob = true ∧ t.faults = s.faults ∧ (∀ st, (t.hlt st).passed = []) ∧
    ∀ p, (t.prt p).jobState = (s.prt p).jobState := by
  have hdown : s.restartSteward.stewardUp = false := by
    rw [State.stewardUp, State.restartSteward_reg hwf]
    rfl
  have hrestart := s.restartSteward_restart
  obtain ⟨u, hu⟩ : ∃ u, u = s.restartSteward.raise none 3 0x0302 (siteSteward noLoc2) := ⟨_, rfl⟩
  obtain ⟨hlast, hfaults, hparts⟩ := State.raise_steward_of_down 0x0302 noLoc2 hdown
  rw [← hu] at hlast hfaults hparts
  refine ⟨_, _, execStewardLockstepMismatch_of_on hon hu, hlast, rfl, rfl, rfl, hfaults.trans hrestart.faults, fun st => ?_, fun p => ?_⟩
  · simp [State.hlt, vget]
  · simp [State.prt, vget, hparts, hrestart.parts]

/-! ### The runtime does not start -/

theorem execRuntimeStartTimeout_of_late {s u : State} {j : Fin 4} {sig : Bool} (hboot : s.reg 0x1030 0 = 1) (hon : s.stewardOn = true)
    (hlate : s.passed s.stw.runAt 2000000000 = true) (hj : j = s.inactiveSlot .runtime) (hsig : sig = (vget s.stw.sigs j).getD (bit (Config.freeWord s.draws).toNat 0))
    (hu : u = State.setSlot { s with draws := s.draws + 1 } (s.activeSlot .runtime) 4) :
    execRuntimeStartTimeout s = .next (if u.slotState j = 0 ∨ u.slotState j = 4 then u.recover else if u.acceptable .runtime j sig = false then (u.setSlot j 4).recover
      else ((u.setSlot j 3).showRunning.modStw fun x => { x with runAt := s.time })) := by
  subst hj
  simp only [execRuntimeStartTimeout, hboot, hon, hlate, ← hsig, ← hu, ne_eq, not_true_eq_false, decide_false, Bool.not_true, Bool.or_self, Bool.false_eq_true, if_false,
    Bool.or_eq_true, decide_eq_true_eq, Bool.not_eq_true', next, apply_ite Host.Outcome.next]
  rw [hu]
  rfl

/-- Settles O39: what a restart forgets is `State.restartSteward_stw`, what it leaves `State.restartSteward_restart`; the record of a mismatch waits
(`execStewardLockstepMismatch_records`); a slot that does not start gives way by `execRuntimeStartTimeout_of_late`. -/
theorem stewardRestarts : Obligations.StewardRestarts := by
  unfold Obligations.StewardRestarts
  refine ⟨fun s via h => ?_, fun s hon => ?_, fun s hon hwf => ?_, fun s => ?_, fun s u j sig hboot hon hlate hj hsig hu => ?_⟩
  · rw [exec_stewardRestart, execStewardRestart, command_of_accepts h]
  · exact (exec_watchdogExpiry s).trans (if_pos hon)
  · rw [exec_stewardLockstepMismatch]
    exact execStewardLockstepMismatch_records hon hwf
  · have hrestart := s.restartSteward_restart
    refine ⟨State.restartSteward_reg, fun n => ?_, fun f => ?_, hrestart.mem, hrestart.poison, hrestart.mordants, hrestart.stations, hrestart.parts, hrestart.faults,
      hrestart.time⟩ <;> rw [State.restartSteward_stw]
    · exact vget_replicate none n
    · exact vget_replicate [] f
  · exact (exec_runtimeStartTimeout s).trans (execRuntimeStartTimeout_of_late hboot hon hlate hj hsig hu)

end Sys2Proof.Machine
end

section
/-!
SUPPORT. Requests of the dictionary that no other row serves (R470, R475 to R478, R550): reads, writes of numeric entries, and DOMAIN values in segments.
-/
namespace Sys2Proof.Machine

section
variable {s : State} {via : Via} {r : DictReq} {data : List Byte}

/-! ### Requests that are served -/

/-- A request that is served is answered with the status and the value of its row, whose effect follows the response (R477). -/
theorem serve_of_serves (h : s.serves via r data = true) (act : State → Role → Nat × List Byte × (State → State)) :
    serve via r data act s = .next ((act s (s.roleOf via)).2.2 (s.reply via r (act s (s.roleOf via)).1 (act s (s.roleOf via)).2.1)) := by
  simp only [State.serves, Bool.and_eq_true, Option.isNone_iff_eq_none, Bool.not_eq_true'] at h
  obtain ⟨⟨⟨hanswers, hasks⟩, hkept⟩, hmode⟩ := h
  simp only [serve, hanswers, hasks, hkept, hmode, Bool.not_true, Bool.or_self, Bool.false_eq_true, if_false, next]

theorem acceptsReq_iff : s.acceptsReq via r data = true ↔ s.serves via r data = true ∧ s.writeStatus (s.roleOf via) r = 0 := by
  rw [State.acceptsReq, Bool.and_eq_true, decide_eq_true_eq]

/-- A session that repeats a SEQ hears the response that was kept for it (R478). -/
theorem serve_of_repeat {b : List Byte} (hanswers : s.answers via = true) (hasks : s.asks via r data = true) (hkept : s.keptReply via = some b)
    (act : State → Role → Nat × List Byte × (State → State)) : serve via r data act s = .next (s.emit (.response via b)) := by
  simp only [serve, hanswers, hasks, hkept, Bool.not_true, Bool.or_self, Bool.false_eq_true, if_false, next]

/-! ### Reads -/

/-- A read request that is served is answered as its header or its entry says (R470, R477). -/
theorem execDictionaryRead_of_serves (h : s.serves via r [] = true) (hwrite : r.kind ≠ 2) (hspdm : r.kind = 3 → r.ver ≠ 1) :
    execDictionaryRead via r s = .next (if readHeader r ≠ 0 then s.reply via r (readHeader r) [] else
      s.reply via r (s.odRead (s.roleOf via) r.index.toNat r.sub.toNat r.off.toNat r.len.toNat).1
        (s.odRead (s.roleOf via) r.index.toNat r.sub.toNat r.off.toNat r.len.toNat).2) := by
  have hmine : (decide (r.kind = 2) || decide (r.kind = 3) && decide (r.ver = 1)) = false := by
    simp only [Bool.or_eq_false_iff, Bool.and_eq_false_iff, decide_eq_false_iff_not]
    exact ⟨hwrite, or_iff_not_imp_left.2 fun hkind => hspdm (not_not.1 hkind)⟩
  rw [execDictionaryRead, hmine, if_neg (by decide), serve_of_serves h]
  dsimp only
  split <;> rfl

/-- A KIND that is neither read nor write has no meaning here (R477). -/
theorem readHeader_of_kind (hkind : r.kind ≠ 1) : readHeader r = 0x0B := by
  rw [readHeader, decide_eq_true hkind, Bool.or_true, if_pos rfl]

/-- An entry that the dictionary does not hold (R475). -/
theorem State.odRead_of_none {role : Role} {idx sub off len : Nat} (hsub : sub ≠ 0) (hrow : odRow idx sub = none) : s.odRead role idx sub off len = (1, []) := by
  simp [State.odRead, hsub, hrow]

/-! ### Writes of numeric entries -/

/-- A value that may stand in its entry is stored with status 00h; another is answered with its status (R550). -/
theorem execDictionaryWrite_of_accepts (hplain : plainWrite r data = true) (h : s.acceptsReq via r data = true) (hver : r.ver = 1) (hoff : r.off = 0)
    (hlen : r.len.toNat = data.length) (hsize : data.length = entryBytes r.index.toNat r.sub.toNat) (hrows : hasRows r.index.toNat = false) {v : Nat} (hv : v = leNat data) :
    execDictionaryWrite via r data s = .next (if s.valueStatus r.index.toNat r.sub.toNat v = 0 then (s.reply via r 0 []).writeEntry r.index.toNat r.sub.toNat v
      else s.reply via r (s.valueStatus r.index.toNat r.sub.toNat v) []) := by
  obtain ⟨hserves, hstatus⟩ := acceptsReq_iff.1 h
  rw [execDictionaryWrite, hplain, if_neg (by decide), serve_of_serves hserves]
  simp only [hver, hoff, hlen, ← hsize, hrows, hstatus, ← hv, ne_eq, not_true_eq_false, decide_false, Bool.or_self, Bool.false_eq_true, if_false]
  split
  · next hzero => rw [hzero]
  · rfl

/-- A write that the entry's access code or the role forbids is answered 02h (R15, R470). -/
theorem State.writeStatus_of_forbidden {role : Role} {e : OdRow} (hrow : odRow r.index.toNat r.sub.toNat = some e)
    (hno : e.acc = .ro ∨ s.mayWrite role r.index.toNat r.sub.toNat = false) : s.writeStatus role r = 2 := by
  simp only [State.writeStatus, hrow]
  obtain hro | hrole := hno
  · simp [hro]
  · simp [hrole]

theorem execDictionaryWrite_of_forbidden {e : OdRow} (hplain : plainWrite r data = true) (h : s.serves via r data = true) (hver : r.ver = 1)
    (hrow : odRow r.index.toNat r.sub.toNat = some e) (hno : e.acc = .ro ∨ s.mayWrite (s.roleOf via) r.index.toNat r.sub.toNat = false) :
    execDictionaryWrite via r data s = .next (s.reply via r 2 []) := by
  rw [execDictionaryWrite, hplain, if_neg (by decide), serve_of_serves h]
  simp only [hver, State.writeStatus_of_forbidden hrow hno]
  rfl

end

/-- The device follows a change of its role in the time tree, of a hold group and of a reserve alone (R377, R381, R431). -/
theorem State.writeEntry_of_plain {s : State} {idx sub v : Nat} (h : s.reg idx sub = v ∨ idx ≠ 0x5400 ∧ idx ≠ 0x5500 ∧ idx ≠ 0x6177) : s.writeEntry idx sub v = s.setReg idx sub v := by
  unfold State.writeEntry
  dsimp only
  split
  · rfl
  · next hchanged =>
    obtain ⟨hrole, hgroup, hreserve⟩ := h.resolve_left hchanged
    split
    · exact absurd rfl hrole
    · exact absurd rfl hgroup
    · exact absurd rfl hreserve
    · rfl

/-! ### DOMAIN values -/

section
variable {s : State} {via : Via} {r : DictReq} {data : List Byte}

/-- A segment whose header agrees with its bytes, and that lies in its entry, passes (R477, R550). -/
theorem State.segmentStatus_of_fits {role : Role} {size : Nat} (hstatus : s.writeStatus role r = 0) (hver : r.ver = 1) (hmax : data.length ≤ 1024)
    (hlen : r.len.toNat = data.length) (hfit : r.off.toNat + data.length ≤ size) : s.segmentStatus role r data size = 0 := by
  simp [State.segmentStatus, hver, hstatus, hlen, Nat.not_lt.2 hmax, Nat.not_lt.2 hfit]

variable (h : s.acceptsReq via r data = true) (hver : r.ver = 1) (hmax : data.length ≤ 1024) (hlen : r.len.toNat = data.length)
include h hver hmax hlen

theorem execDomainWriteSegment_of_accepts (hseg : domainWrite r data false = true) (hfit : r.off.toNat + data.length ≤ domLen r.index.toNat r.sub.toNat) :
    execDomainWriteSegment via r data s = .next ((s.reply via r 0 []).stage via r.index.toNat r.sub.toNat
      (overlay ((s.reply via r 0 []).staged via r.index.toNat r.sub.toNat (domLen r.index.toNat r.sub.toNat)) r.off.toNat data)) := by
  obtain ⟨hserves, hstatus⟩ := acceptsReq_iff.1 h
  rw [execDomainWriteSegment, hseg, if_neg (by decide), serve_of_serves hserves]
  simp only [State.segmentStatus_of_fits hstatus hver hmax hlen hfit, if_true]

/-- COMMIT checks the whole value and applies it; the staging copy is gone in either case (R477). -/
theorem execDomainWriteCommit_of_accepts (hseg : domainWrite r data true = true) (hfit : r.off.toNat + data.length ≤ domLen r.index.toNat r.sub.toNat)
    (iso : List RestartFinding) (e : MemEcc) {v : List Byte} (hv : v = overlay (s.staged via r.index.toNat r.sub.toNat (domLen r.index.toNat r.sub.toNat)) r.off.toNat data)
    {u : State} (hu : u = (s.reply via r (s.wholeStatus r.index.toNat r.sub.toNat v) []).unstage via r.index.toNat r.sub.toNat) :
    execDomainWriteCommit via r data iso e s =
      .next (if s.wholeStatus r.index.toNat r.sub.toNat v = 0 then u.applyDomain r.index.toNat r.sub.toNat v iso e else u) := by
  obtain ⟨hserves, hstatus⟩ := acceptsReq_iff.1 h
  rw [execDomainWriteCommit, hseg, if_neg (by decide), serve_of_serves hserves]
  simp only [State.segmentStatus_of_fits hstatus hver hmax hlen hfit, ← hv, ← hu, ne_eq, not_true_eq_false, if_false]

end

/-- Settles O42: a request that is served is answered as its row says (`serve_of_serves`), a read by `execDictionaryRead_of_serves`, a write of a numeric entry by
`execDictionaryWrite_of_accepts` or `execDictionaryWrite_of_forbidden`, a DOMAIN value by its segments. -/
theorem dictionaryRequests : Obligations.DictionaryRequests := by
  unfold Obligations.DictionaryRequests
  refine ⟨fun s via r v h hkind hheader hread => ?_, fun s via r h hread hwrite hspdm => ?_, fun s via r h hkind hheader hsub hrow => ?_,
    fun s via r data hplain h hver hoff hlen hsize hrows => ?_, fun s u idx sub v hu => ⟨fun h => ?_, fun h => ?_, fun h => ?_, fun h => ?_⟩,
    fun s via r data e hplain h hver hrow hno => ?_, fun s via r data hseg h hver hmax hlen hfit => ?_, fun s u via r data v iso e hseg h hver hmax hlen hfit hv hu => ?_,
    fun s n q r b hkind hanswers hasks hkept => ?_⟩
  · rw [exec_dictionaryRead, execDictionaryRead_of_serves h (by simp [hkind]) (by simp [hkind]), if_neg (not_not.2 hheader), hread]
  · rw [exec_dictionaryRead, execDictionaryRead_of_serves h hwrite hspdm, readHeader_of_kind hread, if_pos (by decide)]
  · have hsubNat : r.sub.toNat ≠ 0 := fun hzero => hsub (BitVec.eq_of_toNat_eq hzero)
    rw [exec_dictionaryRead, execDictionaryRead_of_serves h (by simp [hkind]) (by simp [hkind]), if_neg (not_not.2 hheader), State.odRead_of_none hsubNat hrow]
  · exact (exec_dictionaryWrite via r data s).trans (execDictionaryWrite_of_accepts hplain h hver hoff hlen hsize hrows rfl)
  · rw [hu]
    exact State.writeEntry_of_plain h
  · exact if_neg h
  · exact if_neg h
  · exact if_neg h
  · exact (exec_dictionaryWrite via r data s).trans (execDictionaryWrite_of_forbidden hplain h hver hrow hno)
  · exact (exec_domainWriteSegment via r data s).trans (execDomainWriteSegment_of_accepts h hver hmax hlen hseg hfit)
  · exact (exec_domainWriteCommit via r data iso e s).trans (execDomainWriteCommit_of_accepts h hver hmax hlen hseg hfit iso e hv hu)
  · have hmine : (decide (r.kind = 2) || decide (r.kind = 3) && decide (r.ver = 1)) = false := by simp [hkind]
    rw [exec_dictionaryRead, execDictionaryRead, hmine, if_neg (by decide), serve_of_repeat hanswers hasks hkept]

end Sys2Proof.Machine
end

section
/-!
SUPPORT. Firmware slots and their commands (R459 to R463).
-/
namespace Sys2Proof.Machine

/-- A segment of an image is staged, or with COMMIT fills the inactive slot of its kind with what is staged (R461). -/
theorem execImageStagingWrite_of_accepts {s u : State} {via : Via} {k : FwKind} {off : Nat} {data : List Byte} {c : Bool} {r : DictReq}
    (hr : r = { writeReq 0x1F01 (kindCode k) data with commit := c, off := BitVec.ofNat 32 off }) (hmax : data.length ≤ 1024) (hoff : off < 2 ^ 32)
    (h : s.acceptsReq via r data = true) (hfit : off + data.length ≤ slotSize k) (hu : u = s.reply via r 0 []) :
    execImageStagingWrite via k off data c s = .next (
      if c then ((u.unstage via 0x1F01 (kindCode k)).modStw fun x => { x with
        fw := vset x.fw (u.inactiveSlot k) (lsPutBytes [] 0 (overlay (s.staged via 0x1F01 (kindCode k) 0) off data)), sigs := vset x.sigs (u.inactiveSlot k) none }).setSlot
          (u.inactiveSlot k) 1
      else u.stage via 0x1F01 (kindCode k) (overlay (s.staged via 0x1F01 (kindCode k) 0) off data)) := by
  obtain ⟨hserves, hstatus⟩ := acceptsReq_iff.1 h
  have hlen : r.len.toNat = data.length := by
    rw [hr]
    exact Nat.mod_eq_of_lt (by omega)
  have hplace : r.off.toNat = off := by
    rw [hr]
    exact Nat.mod_eq_of_lt hoff
  have hcheck : s.segmentStatus (s.roleOf via) r data (slotSize k) = 0 := State.segmentStatus_of_fits hstatus (hr ▸ rfl) hmax hlen (hplace ▸ hfit)
  rw [execImageStagingWrite, decide_eq_false (Nat.not_lt.2 hmax), decide_eq_false (Nat.not_le.2 hoff), if_neg (by decide)]
  dsimp only
  rw [← hr, serve_of_serves hserves]
  simp only [hcheck, ne_eq, not_true_eq_false, if_false, ← hu, Bool.not_eq_true']
  cases c <;> rfl

/-- What the signature check of an image of each kind finds. -/
def sigOf (a b : Bool) : FwKind → Bool
  | .bootcode => a
  | .runtime => b

theorem sigOf_eq (a b : Bool) (k : FwKind) : sigOf a b k = if k = .bootcode then a else b := by cases k <;> rfl

/-- What a verification leaves of the slots that have been written (R461). -/
def State.verified (s : State) (l : List FwKind) (ok sig : FwKind → Bool) : State :=
  (l.foldl (fun s k => (s.setSlot (s.inactiveSlot k) (if ok k then 2 else 4)).modStw fun x => { x with sigs := vset x.sigs (s.inactiveSlot k) (some (sig k)) }) s).setReg
    0x1F02 0 (if l.all ok then 0 else 3)

theorem execFirmwareVerify_eq (s : State) (via : Via) (a b : Bool) : execFirmwareVerify via a b s = command via 0x1F02 0 [1] (fun s =>
    if kinds.filter (fun k => s.slotState (s.inactiveSlot k) = 1) = [] then refused 0x1F02 0
    else (0, fun t => t.verified (kinds.filter fun k => s.slotState (s.inactiveSlot k) = 1) (fun k => s.acceptable k (s.inactiveSlot k) (sigOf a b k)) (sigOf a b))) s := rfl

/-- Every inactive slot that has been written is verified (R461). -/
theorem execFirmwareVerify_of_accepts {s : State} {via : Via} {a b : Bool} {l : List FwKind} {ok : FwKind → Bool} (h : s.accepts via 0x1F02 0 [1] = true)
    (hl : l = kinds.filter fun k => s.slotState (s.inactiveSlot k) = 1) (hok : ∀ k, ok k = s.acceptable k (s.inactiveSlot k) (if k = .bootcode then a else b)) :
    execFirmwareVerify via a b s = .next (if l = [] then (s.answered via 0x1F02 0 [1] 5).setReg 0x1F02 0 1
      else (s.answered via 0x1F02 0 [1] 0).verified l ok fun k => if k = .bootcode then a else b) := by
  rw [execFirmwareVerify_eq, command_of_accepts h]
  simp only [← hl, funext (sigOf_eq a b), ← hok]
  split <;> rfl

/-- A command that is refused without an image for it, and during a restore (R462). -/
theorem command_of_images {s : State} {via : Via} {d : List Byte} (h : s.accepts via 0x1F02 0 d = true) (l : State → List FwKind) (f : State → List FwKind → State) :
    command via 0x1F02 0 d (fun s => if l s = [] || s.restoring then refused 0x1F02 0 else (0, fun t => f t (l s))) s =
      .next (if l s = [] ∨ s.restoring = true then (s.answered via 0x1F02 0 d 5).setReg 0x1F02 0 1 else f (s.answered via 0x1F02 0 d 0) (l s)) := by
  rw [command_of_accepts h]
  simp only [Bool.or_eq_true, decide_eq_true_eq]
  split <;> rfl

theorem execFirmwareActivate_of_accepts {s : State} {via : Via} {l : List FwKind} (h : s.accepts via 0x1F02 0 [2] = true)
    (hl : l = kinds.filter fun k => s.slotState (s.inactiveSlot k) = 2) : execFirmwareActivate via s =
      .next (if l = [] ∨ s.restoring = true then (s.answered via 0x1F02 0 [2] 5).setReg 0x1F02 0 1
        else ((l.foldl (fun s k => State.activate k (s.inactiveSlot k) s) (s.answered via 0x1F02 0 [2] 0)).setReg 0x1F02 0 0).restartSteward) := by
  rw [hl]
  exact command_of_images h (fun s => kinds.filter fun k => s.slotState (s.inactiveSlot k) = 2)
    fun t l => ((l.foldl (fun s k => State.activate k (s.inactiveSlot k) s) t).setReg 0x1F02 0 0).restartSteward

/-- A kind goes back to the slot that it ran before, if there is one (R462). -/
def State.goBack (s : State) (k : FwKind) : State := match s.prevSlot k with
  | some i => State.activate k i s
  | none => s

theorem execFirmwareRevert_of_accepts {s : State} {via : Via} {l : List FwKind} (h : s.accepts via 0x1F02 0 [5] = true) (hl : l = kinds.filter fun k => (s.prevSlot k).isSome) :
    execFirmwareRevert via s = .next (if l = [] ∨ s.restoring = true then (s.answered via 0x1F02 0 [5] 5).setReg 0x1F02 0 1
      else ((l.foldl State.goBack (s.answered via 0x1F02 0 [5] 0)).setReg 0x1F02 0 0).restartSteward) := by
  rw [hl]
  exact command_of_images h (fun s => kinds.filter fun k => (s.prevSlot k).isSome) fun t l => ((l.foldl State.goBack t).setReg 0x1F02 0 0).restartSteward

theorem execRaiseRollbackFloor_of_accepts {s : State} {via : Via} {v : Nat} (h : s.accepts via 0x1F02 0 [4] = true)
    (hv : v = min (s.imageSvn (s.activeSlot .bootcode)) (s.imageSvn (s.activeSlot .runtime))) : execRaiseRollbackFloor via s =
      .next (if s.reg 0x1F03 0 < v then ((s.answered via 0x1F02 0 [4] 0).setReg 0x1F02 0 0).setReg 0x1F03 0 v
        else (s.answered via 0x1F02 0 [4] 5).setReg 0x1F02 0 1) := by
  rw [execRaiseRollbackFloor, command_of_accepts h]
  simp only [← hv]
  split
  · next hle => rw [if_neg (Nat.not_lt.2 hle)]; rfl
  · next hnot => rw [if_pos (Nat.not_le.1 hnot)]

/-- Settles O40: each command of OD 1F02h by its answer (`execFirmwareVerify_of_accepts` and its companions), a segment by `execImageStagingWrite_of_accepts`. -/
theorem firmwareCommands : Obligations.FirmwareCommands := by
  unfold Obligations.FirmwareCommands
  refine ⟨fun s via k off data c r hr hmax hoff h hfit => ?_, fun s via a b l ok h hl hok => ?_, fun s via l h hl => ?_, fun s via v h hv => ?_, fun s via l h hl => ?_⟩
  · exact (exec_imageStagingWrite via k off data c s).trans (execImageStagingWrite_of_accepts hr hmax hoff h hfit rfl)
  · rw [exec_firmwareVerify, execFirmwareVerify_of_accepts h hl hok]
    exact ⟨fun hsome => congrArg _ (if_neg hsome), fun hnone => congrArg _ (if_pos hnone)⟩
  · rw [exec_firmwareActivate, execFirmwareActivate_of_accepts h hl]
    exact ⟨fun hsome hfree => congrArg _ (if_neg (by simp [hsome, hfree])), fun hno => congrArg _ (if_pos hno)⟩
  · exact (exec_raiseRollbackFloor via s).trans (execRaiseRollbackFloor_of_accepts h hv)
  · rw [exec_firmwareRevert, execFirmwareRevert_of_accepts h hl]
    exact ⟨fun hsome hfree => congrArg _ (if_neg (by simp [hsome, hfree])), fun hno => congrArg _ (if_pos hno)⟩

end Sys2Proof.Machine
end

section
/-!
SUPPORT. SPDM (R464 to R467): the answer of a request on an open path, and the secured session that a path holds.
-/
namespace Sys2Proof.Machine

/-- A request on an open path has its effect and is answered (R466). -/
theorem spdmAnswer_of_path {s : State} {via : SpdmVia} (h : s.spdmPath via = true) (act : State → Byte × List Byte × (State → State)) :
    spdmAnswer via act s = .next (((act s).2.2 (s.heardOn via)).emit (.spdm via (act s).1 (act s).2.1)) := by
  unfold spdmAnswer
  rw [h, if_neg (by decide)]
  cases via <;> rfl

/-- An answer without an effect. -/
theorem spdmAnswer_plain {s : State} {via : SpdmVia} (h : s.spdmPath via = true) (c : State → Byte) (d : State → List Byte) :
    spdmAnswer via (fun s => (c s, d s, id)) s = .next ((s.heardOn via).emit (.spdm via (c s) (d s))) := spdmAnswer_of_path h _

/-- An answer that depends on a condition, with an effect where it is met. -/
theorem spdmAnswer_if {s : State} {via : SpdmVia} (h : s.spdmPath via = true) (ok : State → Bool) (c : Byte) (f : State → State) :
    spdmAnswer via (fun s => if !ok s then (spdmError, [], id) else (c, [], f)) s =
      .next (if ok s then (f (s.heardOn via)).emit (.spdm via c []) else (s.heardOn via).emit (.spdm via spdmError [])) := by
  rw [spdmAnswer_of_path h]
  cases ok s <;> rfl

section
variable {s : State} {via : SpdmVia}

theorem State.heardOn_spdm (s : State) (via : SpdmVia) : (s.heardOn via).stw.spdm = s.stw.spdm := by cases via <;> rfl

theorem State.heardOn_out (s : State) (via : SpdmVia) : (s.heardOn via).out = s.out := by cases via <;> rfl

/-! ### The secured session of a path -/

/-- A change of every secured session of a path. -/
def State.modSecured (s : State) (via : SpdmVia) (f : SpdmSession → SpdmSession) : State :=
  s.modStw fun x => { x with spdm := x.spdm.map fun y => if y.via = via then f y else y }

/-- The secured sessions of a path are gone. -/
def State.dropSecured (s : State) (via : SpdmVia) : State := s.modStw fun x => { x with spdm := x.spdm.filter fun y => y.via ≠ via }

theorem secured_of_drop (b : Bool) : (s.dropSecured via).secured? via b = false := by
  simp only [State.secured?, State.dropSecured, State.modStw, List.any_eq_false, List.mem_filter, decide_eq_true_eq]
  rintro y ⟨-, hne⟩
  simp [hne]

/-- A key exchange leaves one session, which is not open yet (R466). -/
theorem secured_of_exchange (b : Bool) :
    (s.modStw fun x => { x with spdm := (x.spdm.filter fun y => y.via ≠ via) ++ [⟨via, false, 0⟩] }).secured? via b = !b := by
  have hold : ((s.stw.spdm.filter fun y => y.via ≠ via).any fun y => decide (y.via = via) && decide (y.open_ = b)) = false := secured_of_drop b
  simp only [State.secured?, State.modStw, List.any_append, hold]
  cases b <;> simp

/-- A session of the path is open after a change that leaves or makes it so. -/
theorem secured_of_mod {f : SpdmSession → SpdmSession} {b : Bool} (h : s.secured? via b = true) (hf : ∀ y, y.via = via → y.open_ = b → (f y).via = via ∧ (f y).open_ = true) :
    (s.modSecured via f).secured? via true = true := by
  simp only [State.secured?, List.any_eq_true, Bool.and_eq_true, decide_eq_true_eq] at h ⊢
  obtain ⟨y, hy, hvia, hopen⟩ := h
  exact ⟨f y, List.mem_map.2 ⟨y, hy, if_pos hvia⟩, hf y hvia hopen⟩

theorem secured_of_heard {b : Bool} (h : s.secured? via b = true) : (s.heardOn via).secured? via b = true := by
  rw [State.secured?, State.heardOn_spdm]
  exact h

/-! ### The requests -/

variable (h : s.spdmPath via = true)
include h

theorem execGetCertificate_of_path (slot : Byte) (off len : Nat) : execGetCertificate via slot off len s = .next ((s.heardOn via).emit
    (if slot ≠ 0 ∨ s.chain.length < off then .spdm via spdmError [] else .spdm via spdmCertificate ((s.chain.drop off).take len))) := by
  rw [execGetCertificate, spdmAnswer_of_path h]
  simp only [Bool.or_eq_true, decide_eq_true_eq]
  split <;> rfl

/-- Measurement blocks by index; index 0 asks for their number, FFh for all (Table 15-9). -/
theorem execGetMeasurements_of_path {i : Byte} {body : List Byte}
    (hbody : body = if i = 0 then [7] else if i = 0xFF then (List.range 7).flatMap fun j => s.measurement (j + 1) else s.measurement i.toNat) (sg : Bool) (n : BitVec 256) :
    execGetMeasurements via i sg n s = .next ((s.heardOn via).emit (if 7 < i.toNat ∧ i ≠ 0xFF then .spdm via spdmError []
      else .spdm via spdmMeasurements (body ++ (if sg then s.signed (leBytes 32 n.toNat ++ body) else [])))) := by
  rw [execGetMeasurements, spdmAnswer_of_path h]
  simp only [Bool.and_eq_true, decide_eq_true_eq, ← hbody]
  split <;> rfl

theorem execKeyExchange_of_path : ∃ t, execKeyExchange via s = .next t ∧ t.secured? via false = true ∧ t.secured? via true = false :=
  ⟨_, spdmAnswer_of_path h _, secured_of_exchange false, secured_of_exchange true⟩

/-- A FINISH that verifies opens the session, another ends it; without one it is an error (R466). -/
theorem execFinish_of_path (ok : Bool) : execFinish via ok s = .next (if s.secured? via false then
      (if ok then ((s.heardOn via).modSecured via fun y => { y with open_ := true }).emit (.spdm via spdmFinishRsp [])
        else ((s.heardOn via).dropSecured via).emit (.spdm via spdmError []))
    else (s.heardOn via).emit (.spdm via spdmError [])) := by
  rw [execFinish, spdmAnswer_of_path h]
  cases s.secured? via false <;> cases ok <;> rfl

theorem execHeartbeat_of_path : execHeartbeat via s =
    .next ((s.heardOn via).emit (if s.secured? via true then .spdm via spdmHeartbeatAck [] else .spdm via spdmError [])) := by
  rw [execHeartbeat, spdmAnswer_of_path h]
  split <;> rfl

theorem execKeyUpdate_of_path : execKeyUpdate via s = .next (if s.secured? via true then
    ((s.heardOn via).modSecured via fun y => { y with keys := y.keys + 1 }).emit (.spdm via spdmKeyUpdateAck []) else (s.heardOn via).emit (.spdm via spdmError [])) :=
  spdmAnswer_if h (fun s => s.secured? via true) spdmKeyUpdateAck fun s => s.modSecured via fun y => { y with keys := y.keys + 1 }

theorem execEndSession_of_path : execEndSession via s = .next (if s.secured? via true then
    ((s.heardOn via).dropSecured via).emit (.spdm via spdmEndSessionAck []) else (s.heardOn via).emit (.spdm via spdmError [])) :=
  spdmAnswer_if h (fun s => s.secured? via true) spdmEndSessionAck fun s => s.dropSecured via

end

/-- Settles O41: each request on an open path is answered (`spdmAnswer_of_path`); a key exchange, a FINISH and what follows them by the secured session of the path
(`secured_of_exchange`, `secured_of_mod`, `secured_of_drop`). -/
theorem spdmMessages : Obligations.SpdmMessages := by
  unfold Obligations.SpdmMessages
  refine ⟨fun s via h => ⟨?_, ?_, ?_, ?_⟩, fun s via off len h hoff => ?_, fun s via slot off len h hno => ?_, fun s via n h => ?_, fun s via i sg n body h hbody => ?_,
    fun s via h => ?_, fun s via h hbegun => ⟨?_, ?_⟩, fun s via ok h hnone => ?_, fun s via h hopen => ⟨?_, ?_, ?_⟩, fun s via h hnone => ⟨?_, ?_, ?_⟩⟩
  · exact (exec_getVersion via s).trans (spdmAnswer_plain h _ _)
  · exact (exec_getCapabilities via s).trans (spdmAnswer_plain h _ _)
  · exact (exec_negotiateAlgorithms via s).trans (spdmAnswer_plain h _ _)
  · exact (exec_getDigests via s).trans (spdmAnswer_plain h _ _)
  · rw [exec_getCertificate, execGetCertificate_of_path h, if_neg (by simp [hoff])]
  · rw [exec_getCertificate, execGetCertificate_of_path h, if_pos hno]
  · exact (exec_challenge via n s).trans (spdmAnswer_plain h _ _)
  · exact (exec_getMeasurements via i sg n s).trans (execGetMeasurements_of_path h hbody sg n)
  · rw [exec_keyExchange]
    exact execKeyExchange_of_path h
  · rw [exec_finish, execFinish_of_path h, if_pos hbegun]
    exact ⟨_, rfl, secured_of_mod (secured_of_heard hbegun) fun y hvia _ => ⟨hvia, rfl⟩⟩
  · rw [exec_finish, execFinish_of_path h, if_pos hbegun]
    exact ⟨_, rfl, secured_of_drop true, secured_of_drop false⟩
  · rw [exec_finish, execFinish_of_path h, hnone, if_neg (by decide)]
  · rw [exec_heartbeat, execHeartbeat_of_path h, if_pos hopen]
  · rw [exec_keyUpdate, execKeyUpdate_of_path h, if_pos hopen]
    exact ⟨_, rfl, secured_of_mod (secured_of_heard hopen) fun y hvia hy => ⟨hvia, hy⟩, congrArg (· ++ _) (s.heardOn_out via)⟩
  · rw [exec_endSession, execEndSession_of_path h, if_pos hopen]
    exact ⟨_, rfl, secured_of_drop true, congrArg (· ++ _) (s.heardOn_out via)⟩
  · rw [exec_heartbeat, execHeartbeat_of_path h, hnone, if_neg (by decide)]
  · rw [exec_keyUpdate, execKeyUpdate_of_path h, hnone, if_neg (by decide)]
  · rw [exec_endSession, execEndSession_of_path h, hnone, if_neg (by decide)]

end Sys2Proof.Machine
end

section
/-!
SUPPORT. Saved and factory values (R473, R474, R482), and management sessions and links (R468, R469, R523).
-/
namespace Sys2Proof.Machine

section
variable {s : State}

/-! ### Factory values -/

/-- Restoring factory values leaves no user calibration (R473). -/
theorem execRestoreFactory_of_accepts {via : Via} (h : s.accepts via 0x3F00 0 [1] = true) :
    ∃ t, execRestoreFactory via s = .next t ∧ (∀ e ∈ t.dict, isKept .u e.1 = false) ∧ ∀ e ∈ t.doms, isKept .u e.1 = false := by
  rw [execRestoreFactory, command_of_accepts h]
  refine ⟨_, rfl, fun e he => ?_, fun e he => ?_⟩
  · simpa using (List.mem_filter.1 he).2
  · simpa using (List.mem_filter.1 he).2

/-! ### Sessions -/

/-- A handshake with a bound certificate takes the first free session (R468, R469). -/
theorem execManagementSessionHandshake_of_bound {t : SessTransport} {c : ClientCert} {r : Role} {n : Fin 8} (hcarries : s.carries t = true) (hrole : s.certRole c = some r)
    (hfree : (List.finRange 8).find? (fun n => (vget s.stw.sessions n).isNone) = some n) :
    execManagementSessionHandshake t c s = .next (s.modStw fun x => { x with sessions := vset x.sessions n (some ⟨t, r, s.time, [], []⟩) }) := by
  simp only [execManagementSessionHandshake, hcarries, hrole, hfree, Bool.not_true, Bool.false_eq_true, if_false, next]

theorem execManagementSessionClose_of_open {n : Fin 8} {x : Session} (hopen : vget s.stw.sessions n = some x) : execManagementSessionClose n s = .next (s.closeSession n) := by
  rw [execManagementSessionClose, hopen]
  rfl

theorem execSessionIdleTimeout_of_idle {n : Fin 8} {x : Session} (hopen : vget s.stw.sessions n = some x) (hidle : s.passed x.seen 60000000000 = true) :
    execSessionIdleTimeout n s = .next (s.closeSession n) := by
  simp only [execSessionIdleTimeout, hopen, hidle, if_true, next]

/-! ### Management links -/

/-- A mode of 00h or 01h is stored, and a change of it restarts the link and ends the sessions of its port; another is refused (R523). -/
theorem execManagementModeWrite_of_accepts {via : Via} {m : Fin 2} {v : Byte} (h : s.accepts via 0x1130 (m.val + 1) [v] = true) {u : State}
    (hu : u = s.answered via 0x1130 (m.val + 1) [v] 0) : execManagementModeWrite via m v s = .next (if 1 < v.toNat then s.answered via 0x1130 (m.val + 1) [v] 3
      else if u.reg 0x1130 (m.val + 1) = v.toNat then u
      else ((u.setReg 0x1130 (m.val + 1) v.toNat).setReg 0x1132 (m.val + 1) 0).closeSessions fun t => t = .mgmt m) := by
  rw [execManagementModeWrite, command_of_accepts h, hu]
  split <;> rfl

/-- An answer leaves every register as it is. -/
theorem State.reg_answered (via : Via) (idx sub : Nat) (data : List Byte) (status i b : Nat) : (s.answered via idx sub data status).reg i b = s.reg i b := by
  unfold State.answered State.reply State.answer State.vector
  cases via with
  | pf f =>
    dsimp only
    split
    · rfl
    · split <;> rfl
  | session n q => rfl

/-- A link comes up at the rate of its mode (R523). -/
theorem execManagementLinkUp_of_rate {m : Fin 2} {tenG : Bool} (hoff : s.pwr.off = false) (hheld : s.pwr.stwHeld = false) (hrate : tenG = decide (s.reg 0x1130 (m.val + 1) = 0)) :
    execManagementLinkUp m tenG s = .next (s.setReg 0x1132 (m.val + 1) (1 + (if tenG then 2 else 0))) := by
  rw [execManagementLinkUp, hoff, hheld, if_neg (by simp [hrate])]
  rfl

end

/-- Settles O43: commands of the dictionary by `command_of_accepts` and `command_of_refusable`; sessions and links by what makes them begin and end. -/
theorem savedValuesAndSessions : Obligations.SavedValuesAndSessions := by
  unfold Obligations.SavedValuesAndSessions
  refine ⟨fun s via h => ?_, fun s via h => ?_, fun s => ⟨rfl, rfl⟩, fun s via h => ?_, fun s via h hfree => ?_, fun s via h hloaded => ?_,
    fun s t c r n hcarries hrole hfree => ?_, fun s n x hopen => ⟨?_, fun hidle => ?_⟩, fun s via m v h hv => ?_, fun s via m v h hv => ?_,
    fun s m hoff hheld => ⟨fun hten => ?_, fun hone => ?_⟩, fun s m hoff => ?_⟩
  · rw [exec_saveConfiguration, execSaveConfiguration, command_of_accepts h]
  · rw [exec_discardUnsaved, execDiscardUnsaved, command_of_accepts h]
  · rw [exec_restoreFactory]
    exact execRestoreFactory_of_accepts h
  · rw [exec_restoreFactoryRepairMaps, execRestoreFactoryRepairMaps, command_of_refusable h (fun s => s.anyLoaded), if_neg (Bool.eq_false_iff.1 hfree)]
  · rw [exec_restoreFactoryRepairMaps, execRestoreFactoryRepairMaps, command_of_refusable h (fun s => s.anyLoaded), if_pos hloaded]
  · exact (exec_managementSessionHandshake t c s).trans (execManagementSessionHandshake_of_bound hcarries hrole hfree)
  · exact (exec_managementSessionClose n s).trans (execManagementSessionClose_of_open hopen)
  · exact (exec_sessionIdleTimeout n s).trans (execSessionIdleTimeout_of_idle hopen hidle)
  · rw [exec_managementModeWrite, execManagementModeWrite_of_accepts h rfl, if_neg (Nat.not_lt.2 hv), State.reg_answered]
    exact ⟨fun hsame => congrArg _ (if_pos hsame), fun hchanged => congrArg _ (if_neg hchanged)⟩
  · rw [exec_managementModeWrite, execManagementModeWrite_of_accepts h rfl, if_pos hv]
  · exact (exec_managementLinkUp m true s).trans (execManagementLinkUp_of_rate hoff hheld (decide_eq_true hten).symm)
  · exact (exec_managementLinkUp m false s).trans (execManagementLinkUp_of_rate hoff hheld (decide_eq_false hone).symm)
  · exact (exec_managementLinkDown m s).trans (if_neg (Bool.eq_false_iff.1 hoff))

end Sys2Proof.Machine
end

section
/-!
SUPPORT. Power requests and the steps of a park (R491 to R497, R539, R542).
-/
namespace Sys2Proof.Machine

/-! ### A register that does not read its default -/

theorem find_sput_of_ne {α : Type} [DecidableEq α] {d x : α} (hx : x ≠ d) (k : Nat) : ∀ m : Sparse α, (sput d m k x).find? (fun e => e.1 = k) = some (k, x)
  | [] => by simp [sput, hx]
  | (a, v) :: m => by
    simp only [sput, if_neg hx]
    split
    · simp
    · split
      · simp
      · next hne => rw [List.find?_cons_of_neg (by simpa using Ne.symm hne), find_sput_of_ne hx k m]

/-- A register reads a value other than its default once it is written, whatever the list of registers holds. -/
theorem State.reg_setReg_of_ne {s : State} {i b v : Nat} (hv : v < 2 ^ 64) (hne : v ≠ odDflt i b) : (s.setReg i b v).reg i b = v := by
  have hword : BitVec.ofNat 64 v ≠ BitVec.ofNat 64 (odDflt i b) := fun h => hne (by
    have hnat := congrArg BitVec.toNat h
    rwa [BitVec.toNat_ofNat, BitVec.toNat_ofNat, Nat.mod_eq_of_lt hv, Nat.mod_eq_of_lt (odDflt_lt i b)] at hnat)
  simp only [State.reg, State.setReg, dictPut, find_sput_of_ne hword, BitVec.toNat_ofNat, Nat.mod_eq_of_lt hv]

section
variable {s : State}

/-! ### Requests -/

theorem elim_ite {α β : Type} {c : Prop} [Decidable c] (o o' : Option α) (b : β) (f : α → β) :
    (if c then o else o').elim b f = if c then o.elim b f else o'.elim b f := apply_ite (fun o : Option α => o.elim b f) c o o'

/-- A request of OD 4021h that is accepted: what it starts, if it starts anything (R491). -/
theorem powerRequest_of_accepts {via : Via} {target : Nat} {force : Bool} {d : List Byte} (hd : d = [BitVec.ofNat 8 (target + b2n force * 128)])
    (h : s.accepts via 0x4021 0 d = true) (start : State → Option (State → State)) : powerRequest via target force start s =
      .next (if s.inTransition || s.comingUp || s.pwr.removal.isSome then (s.answered via 0x4021 0 d 5).setReg 0x4021 0 1
        else if s.powerState = target then (s.answered via 0x4021 0 d 0).setReg 0x4021 0 0
        else (start s).elim ((s.answered via 0x4021 0 d 5).setReg 0x4021 0 1) fun f => f (s.answered via 0x4021 0 d 0)) := by
  subst hd
  rw [powerRequest, command_of_accepts h]
  split
  · rfl
  · split
    · rfl
    · cases start s <;> rfl

/-- What keeps a half from being parked (R492). -/
theorem halfPark_refused_iff (h : Half) (force : Bool) :
    (decide (s.powerState ≠ 0) || s.holdsHalf h || (decide ((List.finRange 4).filter (s.bindsHalf h) ≠ []) && !force)) = true ↔
      s.powerState ≠ 0 ∨ s.holdsHalf h = true ∨ ((∃ p, s.bindsHalf h p = true) ∧ force = false) := by
  simp [or_assoc]

theorem execPowerRequestHalfPark_of_accepts {via : Via} {h : Half} {force : Bool} {d : List Byte} (hd : d = [BitVec.ofNat 8 (((halfNo h).val + 1) + b2n force * 128)])
    (hok : s.accepts via 0x4021 0 d = true) : execPowerRequestHalfPark via h force s =
      .next (if s.inTransition || s.comingUp || s.pwr.removal.isSome then (s.answered via 0x4021 0 d 5).setReg 0x4021 0 1
        else if s.powerState = ((halfNo h).val + 1) then (s.answered via 0x4021 0 d 0).setReg 0x4021 0 0
        else if s.powerState ≠ 0 ∨ s.holdsHalf h = true ∨ ((∃ p, s.bindsHalf h p = true) ∧ force = false) then (s.answered via 0x4021 0 d 5).setReg 0x4021 0 1
        else (s.answered via 0x4021 0 d 0).startPark ((halfNo h).val + 1) [h] ((List.finRange 4).filter (s.bindsHalf h))) := by
  rw [execPowerRequestHalfPark, powerRequest_of_accepts hd hok]
  simp only [halfPark_refused_iff]
  refine congrArg _ (congrArg _ (congrArg _ ?_))
  simp only [elim_ite, Option.elim_none, Option.elim_some]

theorem execPowerRequestRun_of_accepts {via : Via} {force : Bool} {d : List Byte} (hd : d = [BitVec.ofNat 8 (0 + b2n force * 128)]) (h : s.accepts via 0x4021 0 d = true)
    {u : State} (hu : u = s.answered via 0x4021 0 d 0) : execPowerRequestRun via force s =
      .next (if s.inTransition || s.comingUp || s.pwr.removal.isSome then (s.answered via 0x4021 0 d 5).setReg 0x4021 0 1
        else if s.powerState = 0 then (s.answered via 0x4021 0 d 0).setReg 0x4021 0 0
        else if bit (s.reg 0x4201 0) 3 then (s.answered via 0x4021 0 d 5).setReg 0x4021 0 1
        else (u.beginTrans 0 u.parkedHalves .raising).raiseRails (if u.powerState = 4 then allRails else dieRails)) := by
  rw [execPowerRequestRun, powerRequest_of_accepts hd h, hu]
  refine congrArg _ (congrArg _ (congrArg _ ?_))
  simp only [elim_ite, Option.elim_none, Option.elim_some]

theorem execPowerRequestDeepPark_of_accepts {via : Via} {force : Bool} {d : List Byte} (hd : d = [BitVec.ofNat 8 (3 + b2n force * 128)]) (h : s.accepts via 0x4021 0 d = true) :
    execPowerRequestDeepPark via force s = .next (if s.inTransition || s.comingUp || s.pwr.removal.isSome then (s.answered via 0x4021 0 d 5).setReg 0x4021 0 1
      else if s.powerState = 3 then (s.answered via 0x4021 0 d 0).setReg 0x4021 0 0
      else if s.powerState = 4 then ((s.answered via 0x4021 0 d 0).beginTrans 3 bothHalves .raising).raiseRails allRails
      else if s.anyLoaded && !force then (s.answered via 0x4021 0 d 5).setReg 0x4021 0 1
      else (s.answered via 0x4021 0 d 0).parkAll 3) := by
  rw [execPowerRequestDeepPark, powerRequest_of_accepts hd h]
  refine congrArg _ (congrArg _ (congrArg _ ?_))
  simp only [elim_ite, Option.elim_none, Option.elim_some]

theorem execPowerRequestStewardOnly_of_accepts {via : Via} {force : Bool} {d : List Byte} (hd : d = [BitVec.ofNat 8 (4 + b2n force * 128)]) (h : s.accepts via 0x4021 0 d = true) :
    execPowerRequestStewardOnly via force s = .next (if s.inTransition || s.comingUp || s.pwr.removal.isSome then (s.answered via 0x4021 0 d 5).setReg 0x4021 0 1
      else if s.powerState = 4 then (s.answered via 0x4021 0 d 0).setReg 0x4021 0 0
      else if s.powerState = 3 then (s.answered via 0x4021 0 d 0).leaveDeep
      else if s.powerState ≠ 0 || (s.anyLoaded && !force) then (s.answered via 0x4021 0 d 5).setReg 0x4021 0 1
      else (s.answered via 0x4021 0 d 0).parkAll 4) := by
  rw [execPowerRequestStewardOnly, powerRequest_of_accepts hd h]
  refine congrArg _ (congrArg _ (congrArg _ ?_))
  simp only [elim_ite, Option.elim_none, Option.elim_some]

/-! ### The steps of a park -/

section
variable (hup : s.stewardUp = true)
include hup

theorem execParkTowersIdle_of_idle (hphase : s.phase = some .towers) (hidle : s.towersBusy s.transHalves = false) {u : State}
    (hu : u = (List.finRange 28).foldl (fun u q => if s.transHalves.contains (portHalf q) then u.goodbye q else u) s) :
    execParkTowersIdle s = .next ((if u.transTarget < 3 then u.parkRings else u).setPhase .seam) := by
  simp only [execParkTowersIdle, hphase, hidle, hup, ← hu, ne_eq, not_true_eq_false, decide_false, Bool.not_true, Bool.or_self, Bool.false_eq_true, if_false, next]

theorem execParkTowerTimeout_of_busy (hphase : s.phase = some .towers) (hbusy : s.towersBusy s.transHalves = true) (hlate : s.phaseFor 60000000000 = true) :
    execParkTowerTimeout s = .next s.abandonTrans := by
  simp only [execParkTowerTimeout, hphase, hbusy, hlate, hup, ne_eq, not_true_eq_false, decide_false, Bool.not_true, Bool.or_self, Bool.false_eq_true, if_false, next]

theorem execSeamDrainTimeout_of_late (hphase : s.phase = some .seam) (hlate : s.phaseFor 100000 = true) : execSeamDrainTimeout s = .next s.abandonTrans := by
  simp only [execSeamDrainTimeout, hphase, hlate, hup, ne_eq, not_true_eq_false, decide_false, Bool.not_true, Bool.or_self, Bool.false_eq_true, if_false, next]

theorem execSeamDrained_of_empty (hphase : s.phase = some .seam) (hempty : ∀ c ∈ seamCrossings, s.crossingOwners c = []) {u : State}
    (hu : u = s.resetCrossings ((parkCrossings s.transHalves).filter fun c => !seamCrossings.contains c)) :
    execSeamDrained s = .next (State.beginLowering { u with clk := { u.clk with
      fenced := (u.clk.fenced.filter fun f => !(parkCrossings s.transHalves).contains (f.a, f.b)) ++ seamCrossings.map fun c => ⟨c.1, c.2, [], false⟩
      recal := u.clk.recal.filter fun c => !(parkCrossings s.transHalves).contains c } } s.transTarget s.transHalves).admitItems := by
  have hnone : seamCrossings.any (fun c => decide (s.crossingOwners c ≠ [])) = false := by simpa using hempty
  simp only [execSeamDrained, hphase, hup, hnone, ne_eq, not_true_eq_false, decide_false, Bool.not_true, Bool.or_self, Bool.false_eq_true, if_false, next]
  rw [hu]
  rfl

theorem execRailDecayed_of_decay {r : Rail} (hdecay : s.pwr.decay = some r) {u : State} (hu : u = s.modPwr fun x => { x with decay := none }) :
    execRailDecayed r s = .next (if s.pwr.down = [] then u else if u.lowerNext.pwr.down = [] then u.lowerNext.loweringDone else u.lowerNext) := by
  simp only [execRailDecayed, hdecay, hup, ← hu, ne_eq, not_true_eq_false, decide_false, Bool.not_true, Bool.or_self, Bool.false_eq_true, if_false, next, apply_ite Host.Outcome.next]
  rw [hu]
  rfl

end

theorem State.afterTrans_of_none (h : s.pwr.removal = none) : s.afterTrans = s := by
  unfold State.afterTrans
  rw [h]

/-- A transition that is abandoned with no removal behind it is over, and OD 4021h reads 03h (R492). -/
theorem State.abandonTrans_ends (htrans : s.pwr.trans ≠ none) (hremoval : s.pwr.removal = none) : s.abandonTrans.pwr.trans = none ∧ s.abandonTrans.reg 0x4021 0 = 3 := by
  obtain ⟨t, ht⟩ := Option.ne_none_iff_exists'.1 htrans
  obtain ⟨u, hu⟩ : ∃ u, u = (s.setParking t.halves false).modPwr fun x => { x with trans := none } := ⟨_, rfl⟩
  have hend : s.abandonTrans = ((u.showPower u.powerState false).setReg 0x4021 0 3).admitItems := by
    unfold State.abandonTrans
    rw [ht, hu]
    exact State.afterTrans_of_none hremoval
  rw [hend]
  exact ⟨congrArg (fun x : State => x.pwr.trans) hu, State.reg_setReg_of_ne (s := u.showPower u.powerState false) (by decide) (by decide)⟩

end

/-- Settles O44: a request by its answer (`powerRequest_of_accepts` and its companions), the steps of a park by their phase, an abandoned one by `State.abandonTrans_ends`. -/
theorem powerTransitions : Obligations.PowerTransitions := by
  unfold Obligations.PowerTransitions
  refine ⟨fun s via h force d hd hok => ?_, fun s via force d hd hok => ?_, fun s via force d hd hok => ?_, fun s via force d hd hok => ?_,
    fun s u hphase hidle hup hu => ?_, fun s hphase hbusy hlate hup => ?_, fun s hphase hlate hup => ?_, fun s => State.abandonTrans_ends,
    fun s u hphase hup hempty hu => ?_, fun s u r hdecay hup hu => ?_⟩
  · exact (exec_powerRequestHalfPark via h force s).trans (execPowerRequestHalfPark_of_accepts hd hok)
  · exact (exec_powerRequestRun via force s).trans (execPowerRequestRun_of_accepts hd hok rfl)
  · exact (exec_powerRequestDeepPark via force s).trans (execPowerRequestDeepPark_of_accepts hd hok)
  · exact (exec_powerRequestStewardOnly via force s).trans (execPowerRequestStewardOnly_of_accepts hd hok)
  · exact (exec_parkTowersIdle s).trans (execParkTowersIdle_of_idle hup hphase hidle hu)
  · exact (exec_parkTowerTimeout s).trans (execParkTowerTimeout_of_busy hup hphase hbusy hlate)
  · exact (exec_seamDrainTimeout s).trans (execSeamDrainTimeout_of_late hup hphase hlate)
  · exact (exec_seamDrained s).trans (execSeamDrained_of_empty hup hphase hempty hu)
  · exact (exec_railDecayed r s).trans (execRailDecayed_of_decay hup hdecay hu)

end Sys2Proof.Machine
end

section
/-!
SUPPORT. Power-good inputs, the runtime's start, the compute die as it comes up, admission and removal (R449, R455, R489, R504, R505, R507, R538, R543).
-/
namespace Sys2Proof.Machine

section
variable {s u : State}

/-! ### Power-good inputs -/

/-- An input that asserts is noted, and the last one of a stage goes on to the next, if the steward runs (R489, R538). -/
theorem execPgAssert_of_enabled {r : Rail} (hon : s.pwr.off = false) (hen : s.isEn r = true) (hlow : vget s.pwr.pg r = false)
    (hu : u = s.modPwr fun x => { x with pg := vset x.pg r true, await := x.await.filter (· ≠ r) }) :
    execPgAssert r s = .next (if s.pwr.await.contains r && u.pwr.await = [] && s.stewardUp then u.continueRaise else u) := by
  simp only [execPgAssert, hon, hen, hlow, ← hu, Bool.not_true, Bool.or_self, Bool.false_eq_true, if_false, next, apply_ite Host.Outcome.next]
  rw [hu]
  rfl

/-- One that a stage waits for and that does not come drops the rails (R504). -/
theorem execPgTimeout_of_awaited {r : Rail} (hwait : s.pwr.await.contains r = true) (hup : s.stewardUp = true) :
    execPgTimeout r s = .next ((((s.emergencyRecords 0x0C01 noLoc2).raise none 0x0C 0x0C01 (siteSteward noLoc2)).setInsertion 9).fallToSteward
      (if s.pwr.trans = none then dieRails ++ [4, 3] else dieRails)) := by
  simp only [execPgTimeout, hwait, hup, Bool.not_true, Bool.or_self, Bool.false_eq_true, if_false, next, Option.isNone_iff_eq_none]

theorem execPgDeassert_of_enabled {r : Rail} (hon : s.pwr.off = false) (hrail : 3 ≤ r.val) (hen : s.isEn r = true) (hgood : vget s.pwr.pg r = true) :
    execPgDeassert r s = .next (s.powerEmergency r) := by
  simp only [execPgDeassert, hon, Nat.not_lt.2 hrail, hen, hgood, decide_false, Bool.not_true, Bool.or_self, Bool.false_eq_true, if_false, next]

/-! ### The steward starts -/

/-- The runtime starts from its ROM; boot steps that have not run come first (R449, R455). -/
theorem execRuntimeReady_of_rom {b : BootResult} (hon : s.stewardOn = true) (hrom : s.stw.romHold = false) (hstate : s.reg 0x1030 0 < 2)
    (hu : u = if s.reg 0x1030 0 = 0 then s.bootSteps b else s) :
    execRuntimeReady b s = .next (if u.reg 0x1030 0 = 1 then ((List.finRange 4).foldl State.reportDone (u.setSteward 2).resumeTimeouts.writeHeldRecords).sendHeld.resume else u) := by
  simp only [execRuntimeReady, hon, hrom, Nat.not_le.2 hstate, ← hu, decide_false, Bool.not_true, Bool.or_self, Bool.false_eq_true, if_false, next, ite_not, ne_eq,
    apply_ite Host.Outcome.next]

theorem execStwResetNRelease_of_held {b : BootResult} (hon : s.pwr.off = false) (hheld : s.pwr.stwHeld = true) :
    execStwResetNRelease b s = .next (State.bootSteps b (s.modPwr fun x => { x with stwHeld := false })) := by
  simp only [execStwResetNRelease, hon, hheld, Bool.not_true, Bool.or_self, Bool.false_eq_true, if_false, next]

/-! ### The compute die comes up -/

/-- With every rail up the die is ready: crossings that fail are taken out, and the sub-rings form (R282, R449, R504). -/
theorem execComputeDieReady_of_up {failed : List Crossing} {v : State} (hdown : s.pwr.dieUp = false) (hrails : s.railsUp = true) (htest : s.pwr.testEn = false)
    (hup : s.stewardUp = true) (hwait : s.reg 0x4030 0 = 2 ∨ s.phase = some .bringUp)
    (hu : u = (s.modPwr fun x => { x with dieUp := true, parking := Vector.replicate 2 false, stopped := Vector.replicate 2 false }).setReg 0x4110 0 1)
    (hv : v = ((List.finRange 4).foldl State.formRing
      ((failed.filter fun x => allCrossings.contains (x.a.val, x.b.val)).foldl (fun s x => s.crossingFailed x.a.val x.b.val) u)).showReady.showTargets) :
    execComputeDieReady failed s = .next (if v.reg 0x1030 0 = 3 then v else v.setSteward 3).afterUp := by
  have hdue : (decide (s.reg 0x4030 0 = 2) || decide (s.phase = some .bringUp)) = true := by simpa using hwait
  rw [List.foldl_filter, hu] at hv
  simp only [execComputeDieReady, hdown, hrails, htest, hup, hdue, ← hv, Bool.not_true, Bool.or_self, Bool.false_eq_true, if_false, next]

/-! ### Admission and removal -/

theorem State.reg_insertion_of_admission (via : Via) (d : List Byte) (c v : Nat) : ((s.answered via 0x4031 0 d c).setReg 0x4031 0 v).reg 0x4030 0 = (s.answered via 0x4031 0 d c).reg 0x4030 0 :=
  State.reg_setReg_other _ 0x4031 0 0x4030 0 v (by decide)

/-- Admission takes a unit from 03h to 04h and back (R505). -/
theorem execFabricAdmission_of_accepts {via : Via} {v : Byte} (h : s.accepts via 0x4031 0 [v] = true) (hu : u = s.answered via 0x4031 0 [v] (if 1 < v.toNat then 3 else 0)) :
    execFabricAdmission via v s = .next (if 1 < v.toNat then u
      else if v = 1 ∧ u.reg 0x4030 0 = 3 then (u.setReg 0x4031 0 1).setInsertion 4
      else if v = 0 ∧ u.reg 0x4030 0 = 4 then (u.setReg 0x4031 0 0).setInsertion 3
      else u.setReg 0x4031 0 v.toNat) := by
  rw [execFabricAdmission, command_of_accepts h, hu]
  by_cases hbig : 1 < v.toNat
  · simp only [if_pos hbig, id]
  · simp only [if_neg hbig, State.reg_insertion_of_admission, Bool.and_eq_true, decide_eq_true_eq]
    refine congrArg _ ?_
    split
    · next hone => rw [hone.1]; rfl
    · split
      · next hzero => rw [hzero.1]; rfl
      · rfl

/-- A removal is refused during a start or another removal; during a transition it waits (R489, R507). -/
theorem execOrderlyRemoval_of_accepts {via : Via} {force : Bool} {d : List Byte} (hd : d = [BitVec.ofNat 8 (1 + b2n force * 128)]) (h : s.accepts via 0x4032 0 d = true)
    (hu : u = (s.answered via 0x4032 0 d 0).setReg 0x4032 0 2) :
    execOrderlyRemoval via force s = .next (if s.pwr.removal.isSome || s.comingUp then (s.answered via 0x4032 0 d 5).setReg 0x4032 0 1
      else if u.inTransition then u.modPwr fun x => { x with removal := some force, removalWaits := true }
      else u.startRemoval force) := by
  subst hd
  rw [execOrderlyRemoval, command_of_refusable h (fun s => s.pwr.removal.isSome || s.comingUp), hu]

/-- With no job, transition or epoch left the ports close for good, and the device goes down (R507). -/
theorem execRemovalDrainComplete_of_idle {v : State} (hrem : s.removing = true) (hcode : s.reg 0x4030 0 = 5 ∨ (s.reg 0x4030 0 = 7 ∧ s.powerState = 3)) (hup : s.stewardUp = true)
    (hfree : s.anyLoaded = false) (hstill : s.inTransition = false) (hclosed : ∀ p, s.epochOpen p = false)
    (hv : v = ((List.finRange 28).foldl (fun u q => (State.closePort u q).saveReg 0x5000 (q.val + 1) 0) (s.setInsertion 6)).setInsertion 7) :
    execRemovalDrainComplete s = .next (if v.powerState = 4 then v.removalReady else if v.powerState = 3 then v.leaveDeep else v.parkAll 4) := by
  have hdue : (decide (s.reg 0x4030 0 = 5) || decide (s.reg 0x4030 0 = 7) && decide (s.powerState = 3)) = true := by simpa using hcode
  have hnone : (List.finRange 4).any s.epochOpen = false := by simpa using hclosed
  simp only [execRemovalDrainComplete, hrem, hdue, hup, hfree, hstill, hnone, ← hv, Bool.not_true, Bool.or_self, Bool.false_eq_true, if_false, next, apply_ite Host.Outcome.next]

end

/-- Settles O45: power-good inputs by `execPgAssert_of_enabled`, `execPgTimeout_of_awaited` and `execPgDeassert_of_enabled`; the start, the die, admission and removal by the
lemma of each command. -/
theorem powerUpAndRemoval : Obligations.PowerUpAndRemoval := by
  unfold Obligations.PowerUpAndRemoval
  refine ⟨fun s u r hon hen hlow hu => ?_, fun s r hwait hup => ?_, fun s r hon hrail hen hgood => ?_, fun s u b hon hrom hstate hu => ?_, fun s b hon hheld => ?_,
    fun s u v failed hdown hrails htest hup hwait hu hv => ?_, fun s u via v h hu => ?_, fun s u via force d hd h hu => ?_,
    fun s v hrem hcode hup hfree hstill hclosed hv => ?_⟩
  · exact (exec_pgAssert r s).trans (execPgAssert_of_enabled hon hen hlow hu)
  · exact (exec_pgTimeout r s).trans (execPgTimeout_of_awaited hwait hup)
  · exact (exec_pgDeassert r s).trans (execPgDeassert_of_enabled hon hrail hen hgood)
  · exact (exec_runtimeReady b s).trans (execRuntimeReady_of_rom hon hrom hstate hu)
  · exact (exec_stwResetNRelease b s).trans (execStwResetNRelease_of_held hon hheld)
  · exact (exec_computeDieReady failed s).trans (execComputeDieReady_of_up hdown hrails htest hup hwait hu hv)
  · exact (exec_fabricAdmission via v s).trans (execFabricAdmission_of_accepts h hu)
  · exact (exec_orderlyRemoval via force s).trans (execOrderlyRemoval_of_accepts hd h hu)
  · exact (exec_removalDrainComplete s).trans (execRemovalDrainComplete_of_idle hrem hcode hup hfree hstill hclosed hv)

end Sys2Proof.Machine
end

section
/-!
SUPPORT. Package power (R533), core rails (R534 to R536), temperature (R540 to R542) and rails out of range (R543).
-/
namespace Sys2Proof.Machine

/-! ### A fault leaves the steward's state -/

theorem State.record_stewardUp (s : State) (r : FaultRec) : (s.record r).stewardUp = s.stewardUp := by
  unfold State.record
  split
  · have hdict : (s.logRec r).reg 0x1030 0 = (s.saveReg 0x7001 0 (min (s.reg 0x7001 0 + 1) 0xFFFFFFFF)).reg 0x1030 0 := by
      simp only [State.logRec, State.reg, State.notify_dict]
      rfl
    exact (State.stewardUp_of_reg hdict).trans (s.saveReg_stewardUp _ _ _ (by decide))
  · split <;> rfl

theorem State.raise_stewardUp (s : State) (p : Option Part) (cls detail : Nat) (x : Site) : (s.raise p cls detail x).stewardUp = s.stewardUp := by
  unfold State.raise
  dsimp only
  split
  · rfl
  · split
    · exact s.noteFault_stewardUp _ _ _ _ _
    · exact (State.record_stewardUp _ _).trans (s.noteFault_stewardUp _ _ _ _ _)

section
variable {s u v w : State} {h : Half}

/-! ### The package power limit -/

/-- Power above the limit lowers the caps, power below 95 % of it raises them (R533). -/
theorem execPowerLimitCheck_of_up {watts : W16} (hup : s.stewardUp = true) (hu : u = s.setReg 0x4231 0 watts.toNat)
    (hv : v = if u.reg 0x4230 0 < watts.toNat then (List.finRange 4).foldl (fun v p => v.setLim p (lowerCap (v.ownMhz p) 25 (vget v.pwr.lim p))) u
      else if watts.toNat * 100 < u.reg 0x4230 0 * 95 then (List.finRange 4).foldl (fun v p => v.setLim p (raiseCap (v.ownMhz p) (vget v.pwr.lim p))) u else u) :
    execPowerLimitCheck watts s = .next (v.setThermal 2 (decide (u.reg 0x4230 0 < watts.toNat) || v.pwr.lim.toList.any Option.isSome)) := by
  simp only [execPowerLimitCheck, hup, ← hu, ← hv, decide_eq_true_eq, Bool.not_true, Bool.false_eq_true, if_false, next]

theorem lowerCap_within (own n : Nat) (c : Option Nat) : ∃ v, lowerCap own n c = some v ∧ 400 ≤ v ∧ v ≤ max 400 (c.getD own) :=
  ⟨_, rfl, le_max_left _ _, max_le_max_left _ (Nat.sub_le _ _)⟩

/-! ### Core rails -/

/-- A core rail moves toward its target by at most 10 mV, 1 ms after its last command (R534). -/
theorem execCoreRailVoutCommand_of_due {mv : Nat} (hup : s.stewardUp = true) (hgood : vget s.pwr.pg (coreRail h) = true) (hdue : s.passed (s.core h).at_ 1000000 = true)
    (hoff : (s.core h).mv ≠ s.railTarget h)
    (hmv : mv = if (s.core h).mv < s.railTarget h then min (s.railTarget h) ((s.core h).mv + 10) else max (s.railTarget h) ((s.core h).mv - 10)) :
    execCoreRailVoutCommand h s = .next (((s.modCore h fun c => { c with mv := mv, at_ := s.time, fails := 0 }).emit (.vout h mv)).raisesDue) := by
  simp only [execCoreRailVoutCommand, hup, hgood, hdue, hoff, ← hmv, decide_false, Bool.not_true, Bool.or_self, Bool.false_eq_true, if_false, next]

/-- The third failed command in a row is a power emergency (R543). -/
theorem execPmbusCommandFailure_of_enabled (hup : s.stewardUp = true) (hen : s.isEn (coreRail h) = true) (hu : u = s.modCore h fun c => { c with fails := (s.core h).fails + 1 }) :
    execPmbusCommandFailure h s = .next (if (s.core h).fails < 2 then u else u.powerEmergency (coreRail h)) := by
  simp only [execPmbusCommandFailure, hup, hen, ← hu, Bool.not_true, Bool.or_self, Bool.false_eq_true, if_false, next, apply_ite Host.Outcome.next, Nat.succ_lt_succ_iff]

theorem execCoreRailStepDecay_of_due (hup : s.stewardUp = true) (hstep : s.reg 0x4221 ((halfNo h).val + 1) ≠ 0) (hdue : s.passed (s.core h).warnAt 86400000000000 = true) :
    execCoreRailStepDecay h s =
      .next (((s.saveReg 0x4221 ((halfNo h).val + 1) (s.reg 0x4221 ((halfNo h).val + 1) - 1)).modCore h fun c => { c with warnAt := s.time }).showTargets) := by
  simp only [execCoreRailStepDecay, hup, hstep, dayNs, hdue, decide_false, Bool.not_true, Bool.or_self, Bool.false_eq_true, if_false, next]

/-! ### Throttling -/

theorem execThrottleStep_of_hot (hup : s.stewardUp = true) (hthr : s.throttled h = true) (hheats : s.heats h = true) (hdue : s.passed (s.throttle h).stepAt 1000000 = true) :
    execThrottleStep h s = .next (s.stepDown h) := by
  simp only [execThrottleStep, hup, hthr, hheats, hdue, Bool.not_true, Bool.or_self, Bool.false_eq_true, if_false, next]

/-- Every cap of a half rises; without one left the throttle ends, and its hour is not clean (R409, R541). -/
theorem execThrottleRecoveryStep_of_cool {t : W64} (hup : s.stewardUp = true) (hthr : s.throttled h = true) (hcool : s.cool h = true) (hsince : (s.throttle h).cool = some t)
    (hlong : s.passed t 100000000 = true) (hdue : s.passed (s.throttle h).stepAt 100000000 = true)
    (hu : u = (List.finRange 4).foldl (fun v p => State.setCap v h p (raiseCap (v.ownMhz p) (vget (v.throttle h).caps p))) (s.modThr h fun x => { x with stepAt := s.time })) :
    execThrottleRecoveryStep h s = .next (if (u.throttle h).caps.toList.any Option.isSome then u else (u.setThermal (halfNo h).val false).breakHour) := by
  simp only [execThrottleRecoveryStep, hup, hthr, hcool, hsince, hlong, hdue, ← hu, Bool.not_true, Bool.or_self, Bool.false_eq_true, if_false, next, apply_ite Host.Outcome.next]

/-! ### Rails and sensors out of range -/

/-- A rail out of range is shown, is a power emergency, and voids the guarantee of every job that was loaded (R387, R543). -/
theorem execRailOutOfRange_of_bad {r : Rail} {mv a : W16} (hon : s.pwr.off = false) (hrail : 3 ≤ r.val) (hen : s.isEn r = true) (hgood : vget s.pwr.pg r = true)
    (hbad : s.railBad r mv.toNat a.toNat = true) : execRailOutOfRange r mv a s =
      .next (((List.finRange 4).filter s.loaded).foldl (fun u p => u.raise (some p) 0x0D 0x0D01 (siteSteward noLoc2))
        ((s.setReg 0x4220 (r.val + 1) (mv.toNat * 65536 + a.toNat)).powerEmergency r)) := by
  simp only [execRailOutOfRange, hon, Nat.not_lt.2 hrail, hen, hgood, hbad, decide_false, Bool.not_true, Bool.or_self, Bool.false_eq_true, if_false, next]

/-- A partition that comes to lie beyond the operating range has its event 0Dh (R387); the steward's state stays. -/
theorem beyond_stewardUp (u : State) : ((List.finRange 4).foldl (fun x p => if x.loaded p && x.beyondFor p && !s.beyondFor p then
    x.raise (some p) 0x0D 0x0D01 (siteSteward noLoc2) else x) u).stewardUp = u.stewardUp := by
  refine foldl_keeps State.stewardUp (fun x p => ?_) _ u
  split
  · exact x.raise_stewardUp _ _ _ _
  · rfl

/-- A die sensor at 125 °C trips the device; else a running steward throttles, ends a latch and takes the sensor that brings a thermal emergency (R540 to R542). -/
theorem execSensorSample_of_on {l : List W16} (hon : s.pwr.off = false) (hheld : s.pwr.stwHeld = false) (hlen : l.length = 64) (hu : u = s.readSensors l)
    (hv : v = (List.finRange 4).foldl (fun x p => if x.loaded p && x.beyondFor p && !s.beyondFor p then x.raise (some p) 0x0D 0x0D01 (siteSteward noLoc2) else x) u)
    (hw : w = (bothHalves.foldl (fun x h => (x.noteHeat h).startThrottle h) v).unlatch) :
    execSensorSample l s = .next (match (List.range 64).find? fun i => !isDram i && decide (deg 125 ≤ u.sensor i) with
      | some i => u.tripOff i
      | none => if u.stewardUp then (match w.emergencySensor with
          | some i => w.thermalEmergency i
          | none => w) else v) := by
  have hup : v.stewardUp = u.stewardUp := hv ▸ beyond_stewardUp u
  simp only [execSensorSample, hon, hheld, hlen, ← hu, ← hv, ← hw, hup, ne_eq, not_true_eq_false, decide_false, Bool.or_self, Bool.false_eq_true, if_false, next]
  cases (List.range 64).find? fun i => !isDram i && decide (deg 125 ≤ u.sensor i) with
  | some i => rfl
  | none =>
    cases u.stewardUp with
    | false => rfl
    | true => cases w.emergencySensor <;> rfl

end

/-- Settles O47: the power limit, core rails, throttling and what lies out of range each by the lemma of its command; a fault leaves the steward's state
(`State.raise_stewardUp`). -/
theorem powerLimitThrottleAndRails : Obligations.PowerLimitThrottleAndRails := by
  unfold Obligations.PowerLimitThrottleAndRails
  refine ⟨fun s u v w hup hu hv => ?_, lowerCap_within, fun s h mv hup hgood hdue hoff hmv => ?_, fun s u h hup hen hu => ?_, fun s h hup hstep hdue => ?_,
    fun s h hup hthr hheats hdue => ?_, fun s h t hup hthr hcool hsince hlong hdue => ?_, fun s r mv a hon hrail hen hgood hbad => ?_,
    fun s u v w l hon hheld hlen hu hv hw => ?_⟩
  · exact (exec_powerLimitCheck w s).trans (execPowerLimitCheck_of_up hup hu hv)
  · exact (exec_coreRailVoutCommand h s).trans (execCoreRailVoutCommand_of_due hup hgood hdue hoff hmv)
  · exact (exec_pmbusCommandFailure h s).trans (execPmbusCommandFailure_of_enabled hup hen hu)
  · exact (exec_coreRailStepDecay h s).trans (execCoreRailStepDecay_of_due hup hstep hdue)
  · exact (exec_throttleStep h s).trans (execThrottleStep_of_hot hup hthr hheats hdue)
  · exact (exec_throttleRecoveryStep h s).trans (execThrottleRecoveryStep_of_cool hup hthr hcool hsince hlong hdue rfl)
  · exact (exec_railOutOfRange r mv a s).trans (execRailOutOfRange_of_bad hon hrail hen hgood hbad)
  · exact (exec_sensorSample l s).trans (execSensorSample_of_on hon hheld hlen hu hv hw)

end Sys2Proof.Machine
end

section
/-!
SUPPORT. The host port (R479, R512, R520 to R522): mailboxes, the link and its resets, function resets, power states, and PTM.
-/
namespace Sys2Proof.Machine

/-! ### Mailboxes -/

theorem State.modFn_modFn (s : State) (f : Pf) (g k : HostFn → HostFn) : (s.modFn f g).modFn f k = s.modFn f fun x => k (g x) :=
  congrArg (fun v => { s with host := v }) (vmod_vmod s.host f g k)

section
variable {s u : State} {f : Pf}

/-- A doorbell submits the request, or sets LOST while one is busy; while the steward restarts the request is answered at once (R479). -/
theorem execMailboxDoorbell_of_on {b : List Byte} {c : Byte} (hon : s.fnOn f = true) (hlen : b.length ≤ 1040)
    (hu : u = s.modFn f fun x => { x.clearStatus c with req := fit 0 1040 b, busy := true }) :
    execMailboxDoorbell f b c s = .next (if (s.fn f).busy then s.modFn f fun x => { x.clearStatus c with lost := true }
      else if s.reg 0x1030 0 < 2 then u.answerRestart f else u) := by
  simp only [execMailboxDoorbell, hon, Nat.not_lt.2 hlen, decide_false, Bool.not_true, Bool.or_self, Bool.false_eq_true, if_false, next, State.modFn_modFn, ← hu,
    apply_ite Host.Outcome.next]
  rw [hu]
  rfl

/-! ### The link -/

/-- A link that trains shows its rate and width, and the functions take their configuration (R512). -/
theorem execPcieLinkUp_of_trained {r : BitVec 4} {w : BitVec 5} (c : Vector PciCfg 5) (hperst : s.perst = false) (hdown : s.linkUp = false) (hgood : vget s.pwr.pg 3 = true)
    (hslow : 1 ≤ r.toNat) (hfast : r.toNat ≤ 6) (hwidth : w.toNat ∈ [1, 2, 4, 8, 16]) : execPcieLinkUp r w c s =
      .next ((List.finRange 5).foldl (fun u f => u.modFn f fun x => { x with cfg := vget c f }) (s.setReg 0x1200 0 (r.toNat * 256 + w.toNat))) := by
  have hrate : ¬ r = 0 := fun hzero => by
    rw [hzero] at hslow
    exact absurd hslow (by decide)
  simp only [execPcieLinkUp, hperst, hdown, hgood, hrate, Nat.not_lt.2 hfast, List.contains_iff_mem.2 hwidth, decide_false, Bool.not_true, Bool.or_self, Bool.false_eq_true,
    if_false, next]

/-- A function-level reset clears its function, and a partition's image aperture (R520). -/
theorem execFunctionLevelReset_of_up {c : PciCfg} (hup : s.linkUp = true) (hu : u = s.modFn f fun x => { x.clear with cfg := c }) :
    execFunctionLevelReset f c s = .next (match pfPart f with
      | some p => u.resetAperture p
      | none => u) := by
  simp only [execFunctionLevelReset, hup, ← hu, Bool.not_true, Bool.false_eq_true, if_false, next]
  cases pfPart f <;> rfl

/-- A PTM sample stores the host's time and the device's (R521). -/
theorem execPtmRequest_of_enabled {v : W64} (hup : s.linkUp = true) (hptm : (s.fn f).cfg.ptm = true) :
    execPtmRequest v s = .next (s.setDom 0x4420 0 (leBytes 8 v.toNat ++ leBytes 8 s.time.toNat)) := by
  have hany : (s.host.toList.any fun x => x.cfg.ptm) = true := List.any_eq_true.2 ⟨s.fn f, by simp [State.fn, vget], hptm⟩
  rw [execPtmRequest, hup, hany]
  rfl

end

/-! ### A reset of the host port without epoch and restore -/

/-- No partition has an epoch in progress or a restore. -/
def State.quiet (s : State) : Prop := ∀ p, (s.sec p).epoch = none ∧ (s.sec p).restore = none

/-- `t` is quiet, and differs from `s` at most in the securing state of partitions and in counters of aborted epochs. -/
def ApertureOnly (s t : State) : Prop := t.quiet ∧ t = { s with parts := t.parts, dict := t.dict } ∧ t.reg 0x1200 0 = s.reg 0x1200 0

theorem State.quiet_modSec {s : State} {p : Part} {f : Secure → Secure} (h : s.quiet) (hf : ∀ x, (f x).epoch = x.epoch ∧ (f x).restore = x.restore) : (s.modSec p f).quiet := by
  intro q
  by_cases hq : q = p
  · subst hq
    rw [State.sec, State.modSec, State.prt_modPart_same, (hf _).1, (hf _).2]
    exact h q
  · rw [State.sec, State.modSec, State.prt_modPart_other _ _ _ _ hq]
    exact h q

/-- With no epoch and no restore, the reset of an image aperture drops the closed epochs that wait for the host, and counts them (R437, R520). -/
theorem State.resetAperture_of_quiet {s : State} (p : Part) (h : s.quiet) : ApertureOnly s (s.resetAperture p) := by
  obtain ⟨t, ht⟩ : ∃ t, t = if ((s.sec p).late.filter fun l => decide (l.img.tier = 2)).length = 0 then s
      else (s.modSec p fun x => { x with late := x.late.filter fun l => !decide (l.img.tier = 2) }).count 0x9092 (p.val + 1)
        ((s.sec p).late.filter fun l => decide (l.img.tier = 2)).length := ⟨_, rfl⟩
  have hkeep : ApertureOnly s t := by
    rw [ht]
    split
    · exact ⟨h, rfl, rfl⟩
    · have hdrop := State.quiet_modSec (p := p) (f := fun x => { x with late := x.late.filter fun l => !decide (l.img.tier = 2) })
        h fun _ => ⟨rfl, rfl⟩
      exact ⟨hdrop, rfl, State.reg_setReg_other _ _ _ _ _ _ (by unfold odKey; omega)⟩
  have habort : s.abortWhere p (fun i => decide (i.tier = 2)) = t := by
    simp only [State.abortWhere, ← ht, (hkeep.1 p).1]
  have hreset : s.resetAperture p = t := by
    simp only [State.resetAperture, habort, (hkeep.1 p).2]
  exact hreset ▸ hkeep

theorem ApertureOnly.trans {s t u : State} (h : ApertureOnly s t) (k : ApertureOnly t u) : ApertureOnly s u := by
  obtain ⟨-, hs, hreg⟩ := h
  obtain ⟨hquiet, ht, hreg'⟩ := k
  refine ⟨hquiet, ?_, hreg'.trans hreg⟩
  rw [hs] at ht
  exact ht

theorem State.resetApertures_of_quiet {s : State} (h : s.quiet) : ApertureOnly s ((List.finRange 4).foldl State.resetAperture s) :=
  List.foldlRecOn (motive := ApertureOnly s) _ _ ⟨h, rfl, rfl⟩ fun _ ht p _ => ht.trans (State.resetAperture_of_quiet p ht.1)

/-- The state in which the PCIe controller and its crossings have been reset, before the image apertures are. -/
def State.pcieCleared (s : State) : State :=
  (State.resetCrossings { s with host := s.host.map HostFn.clear, hostHeld := [] } hostCrossings).setReg 0x1200 0 0

theorem ApertureOnly.kept {s t : State} (h : ApertureOnly s t) : t.mem = s.mem ∧ t.mordants = s.mordants ∧ t.stations = s.stations ∧ t.faults = s.faults := by
  obtain ⟨-, ht, -⟩ := h
  rw [ht]
  exact ⟨rfl, rfl, rfl, rfl⟩

/-- A reset of the host port with no epoch and no restore shows 0000h in OD 1200h, and leaves memory, mordants, stations and the fault log alone (R520). -/
theorem State.pcieReset_of_quiet {s : State} (h : s.quiet) : (s.regsWf = true → s.pcieReset.reg 0x1200 0 = 0) ∧ s.pcieReset.mem = s.mem ∧ s.pcieReset.mordants = s.mordants ∧
    s.pcieReset.stations = s.stations ∧ s.pcieReset.faults = s.faults := by
  have hreset : ApertureOnly s.pcieCleared s.pcieReset := State.resetApertures_of_quiet h
  obtain ⟨hmem, hmordants, hstations, hfaults⟩ := hreset.kept
  obtain ⟨-, -, hreg⟩ := hreset
  refine ⟨fun hwf => hreg.trans (State.reg_setReg_same _ 0x1200 0 0 (by decide) hwf), hmem, hmordants, hstations, hfaults⟩

/-- Settles O48: a doorbell by `execMailboxDoorbell_of_on`, the link and its functions each by the lemma of its command, and what a reset of the host port leaves by
`State.pcieReset_of_quiet`. -/
theorem hostPortAndMailbox : Obligations.HostPortAndMailbox := by
  unfold Obligations.HostPortAndMailbox
  refine ⟨fun s u f b c hon hlen hu => ?_, fun c x => rfl, fun s f v c hon => ?_, fun s hperst => ?_, fun s => exec_perstNDeassert s, fun s hup => ⟨?_, ?_⟩,
    fun s hquiet => State.pcieReset_of_quiet hquiet, fun s r w c hperst hdown hgood hslow hfast hwidth => ?_, fun s u f c hup hu => ?_, fun s f hup => ⟨?_, ?_⟩,
    fun s v f hup hptm => ?_⟩
  · exact (exec_mailboxDoorbell f b c s).trans (execMailboxDoorbell_of_on hon hlen hu)
  · exact (exec_notificationRingTailWrite f v c s).trans (if_neg (by simp [hon]))
  · exact (exec_perstNAssert s).trans (if_neg (by simp [hperst]))
  · exact (exec_hotReset s).trans (if_pos hup)
  · exact (exec_pcieLinkDown s).trans (if_pos hup)
  · exact (exec_pcieLinkUp r w c s).trans (execPcieLinkUp_of_trained c hperst hdown hgood hslow hfast hwidth)
  · exact (exec_functionLevelReset f c s).trans (execFunctionLevelReset_of_up hup hu)
  · exact (exec_d3hotEntry f s).trans (if_pos hup)
  · exact (exec_d0Entry f s).trans (if_pos hup)
  · exact (exec_ptmRequest v s).trans (execPtmRequest_of_enabled hup hptm)

end Sys2Proof.Machine
end

section
/-!
SUPPORT. O50: the sideband, 1PPS and the test port (R524, R530, R531).
-/
namespace Sys2Proof.Machine

variable {s : State}

/-- A read of the sideband returns its bytes once the steward runs (R524). -/
theorem smbusRead_of_up (b : State → List Byte) (hon : s.pwr.off = false) (hup : s.stewardUp = true) : smbusRead b s = .next (s.emit (.smbus (some (b s)))) := by
  rw [smbusRead, if_neg (Bool.eq_false_iff.1 hon), if_pos hup]
  rfl

/-- It is NACKed before. -/
theorem smbusRead_of_down (b : State → List Byte) (hon : s.pwr.off = false) (hdown : s.stewardUp = false) : smbusRead b s = .next (s.emit (.smbus none)) := by
  rw [smbusRead, if_neg (Bool.eq_false_iff.1 hon), if_neg (Bool.eq_false_iff.1 hdown)]
  rfl

/-- An instruction that the test port accepts, but for IDCODE, shifts out nothing of the device's (R531). -/
theorem jtag_of_ok {i : JtagInstr} {ok : Bool} (hon : s.pwr.off = false) (hok : ok = true) (hi : i ≠ .idcode) :
    jtag i ok s = .next ((s.modPwr fun x => { x with jtag := i }).emit (.scan none)) := by
  have hnot : (s.pwr.off || !ok) = false := by rw [hon, hok]; rfl
  rw [jtag, if_neg (Bool.eq_false_iff.1 hnot)]
  exact if_neg hi

/-- IDCODE shifts out OD 1202h. -/
theorem jtag_idcode (hon : s.pwr.off = false) :
    jtag .idcode true s = .next ((s.modPwr fun x => { x with jtag := .idcode }).emit (.scan (some (BitVec.ofNat 32 (s.reg 0x1202 0))))) := by
  have hnot : (s.pwr.off || !true) = false := by rw [hon]; rfl
  rw [jtag, if_neg (Bool.eq_false_iff.1 hnot)]
  rfl

/-- An instruction that the test port does not accept does nothing. -/
theorem jtag_of_not_ok (i : JtagInstr) {ok : Bool} (hok : ok = false) : jtag i ok s = .next s :=
  if_pos (by rw [hok]; exact Bool.or_true _)

/-- A cold reset leaves TEST_EN, an input pin, as it is. -/
theorem State.coldStart_testEn (s : State) (cause : Nat) (held : Bool) : (s.coldStart cause held).pwr.testEn = s.pwr.testEn := by
  have hend : s.beatEnd.pwr = s.pwr := (congrArg State.pwr s.beatEnd_only :)
  unfold State.coldStart
  dsimp only
  refine (congrArg (fun u => u.pwr.testEn) (State.showRetired_only _)).trans ?_
  show s.beatEnd.pwr.testEn = s.pwr.testEn
  rw [hend]

/-- Settles O50: every clause is the branch of its command that the premises choose; TEST_EN after its fall is `State.coldStart_testEn`. -/
theorem sidebandPulsesAndTestPort : Obligations.SidebandPulsesAndTestPort := by
  unfold Obligations.SidebandPulsesAndTestPort
  refine ⟨fun s hon hup => ?reads, fun s i hon hdown hi => ?nacks, fun s hon => ?writes, fun s hon hup => ?alert, fun s hon hen hsec hpps => ?pps, fun s hon hlow => ?rise,
    fun s hon hhigh => ?fall, fun s hon => ?always, fun s hon hhigh => ?high, fun s i hlow hi => ?low⟩
  case reads =>
    exact ⟨(exec_smbusReadInsertionState s).trans (smbusRead_of_up _ hon hup),
      (exec_smbusReadPowerState s).trans (smbusRead_of_up _ hon hup),
      (exec_smbusReadStatus s).trans (smbusRead_of_up _ hon hup),
      (exec_smbusReadDieSensor s).trans (smbusRead_of_up _ hon hup),
      (exec_smbusReadDramSensor s).trans (smbusRead_of_up _ hon hup),
      (exec_smbusReadPackagePower s).trans (smbusRead_of_up _ hon hup),
      (exec_smbusReadDeviceId s).trans (smbusRead_of_up _ hon hup),
      (exec_smbusReadSerial s).trans (smbusRead_of_up _ hon hup)⟩
  case nacks =>
    simp only [List.mem_cons, List.not_mem_nil, or_false] at hi
    obtain rfl | rfl | rfl | rfl | rfl | rfl | rfl | rfl := hi
    · exact (exec_smbusReadInsertionState s).trans (smbusRead_of_down _ hon hdown)
    · exact (exec_smbusReadPowerState s).trans (smbusRead_of_down _ hon hdown)
    · exact (exec_smbusReadStatus s).trans (smbusRead_of_down _ hon hdown)
    · exact (exec_smbusReadDieSensor s).trans (smbusRead_of_down _ hon hdown)
    · exact (exec_smbusReadDramSensor s).trans (smbusRead_of_down _ hon hdown)
    · exact (exec_smbusReadPackagePower s).trans (smbusRead_of_down _ hon hdown)
    · exact (exec_smbusReadDeviceId s).trans (smbusRead_of_down _ hon hdown)
    · exact (exec_smbusReadSerial s).trans (smbusRead_of_down _ hon hdown)
  case writes => exact ⟨if_neg (Bool.eq_false_iff.1 hon), if_neg (Bool.eq_false_iff.1 hon)⟩
  case alert =>
    rw [exec_alertResponseAddressRead, execAlertResponseAddressRead, if_neg (by simp [hon, hup])]
    rfl
  case pps =>
    rw [exec_ppsOutPulse, execPpsOutPulse, if_neg (by simp [hon, hen, hsec, hpps])]
    rfl
  case rise =>
    rw [exec_testEnRise, execTestEnRise, if_neg (by simp [hon, hlow])]
    rfl
  case fall =>
    rw [exec_testEnFall, execTestEnFall, if_neg (by simp [hon, hhigh])]
    exact ⟨_, _, rfl, rfl, Nat.mod_lt _ (by decide), State.coldStart_testEn _ _ _⟩
  case always => exact ⟨jtag_of_ok hon rfl (by decide), jtag_idcode hon, jtag_of_ok hon rfl (by decide)⟩
  case high =>
    exact ⟨jtag_of_ok hon hhigh (by decide), jtag_of_ok hon hhigh (by decide), jtag_of_ok hon hhigh (by decide),
      fun hdebug => jtag_of_ok hon (by rw [hhigh, hdebug]; rfl) (by decide)⟩
  case low =>
    simp only [List.mem_cons, List.not_mem_nil, or_false] at hi
    obtain rfl | rfl | rfl | rfl := hi
    · exact jtag_of_not_ok _ hlow
    · exact jtag_of_not_ok _ hlow
    · exact jtag_of_not_ok _ hlow
    · exact jtag_of_not_ok _ (by rw [hlow]; rfl)

end Sys2Proof.Machine
end

section
/-!
SUPPORT. O37: the securing mordant, completions and their timeouts, the NAND work, the shared store and the partner memory (R424 to R437, R508).
-/
namespace Sys2Proof.Machine

variable {s u : State} {p : Part}

/-! ### The securing mordant (R424, R425) -/

theorem State.securingDue_of_above {a z : Nat} {c : W64} (hrange : s.morRange p = some (a, z)) (hrun : (s.prt p).jobState = 3) (hset : s.reg 0x6171 (p.val + 1) ≠ 0xFFFF)
    (hin : s.reg 0x6171 (p.val + 1) ≤ z - a) (hc : (s.mor (a + s.reg 0x6171 (p.val + 1))).count = c) (hpos : c ≠ 0) (hhigh : (s.sec p).high < c) : s.securingDue p = some c := by
  simp only [State.securingDue, hrange, hc]
  exact if_neg (by simpa [hrun, hset] using ⟨⟨hin, hpos⟩, hhigh⟩)

theorem State.secureStep_of_no_multiple {step : Nat} (h : step % s.interval p ≠ 0) (e : MemEcc) : s.secureStep p step e = s := if_pos h

/-- With no tier in service, a step that is due is recorded and no epoch opens. -/
theorem State.secureStep_of_no_tier {step : Nat} (hdue : step % s.interval p = 0) (hfree : s.epochOpen p = false) (hnone : s.tiersUp p = []) (e : MemEcc) :
    s.secureStep p step e = s.raise (some p) 0x0D 0x0D04 (siteSteward noLoc2) := by
  rw [State.secureStep, if_neg (not_not.2 hdue), if_neg (Bool.eq_false_iff.1 hfree), if_pos hnone]

/-- With a tier in service and no tower beyond the step, the epoch counts and opens on the tier whose turn it is. -/
theorem State.secureStep_of_tier {step : Nat} (hdue : step % s.interval p = 0) (hfree : s.epochOpen p = false) (htier : s.tiersUp p ≠ []) (hsettled : s.stepBeyond p step = none)
    (hu : u = s.modSec p fun x => { x with j := x.j + 1 }) (e : MemEcc) :
    s.secureStep p step e = match u.chooseTier p (u.sec p).j with
      | none => u
      | some tier => State.openEpoch u p (BitVec.ofNat 64 step) tier e := by
  subst hu
  rw [State.secureStep, if_neg (not_not.2 hdue), if_neg (Bool.eq_false_iff.1 hfree), if_neg htier, hsettled] <;> rfl

/-! ### Completions and their timeouts (R432, R437) -/

theorem execPartnerCompletion_of_late {k : Nat} (hup : s.stewardUp = true) (hlate : (s.sec p).late.findIdx? (fun l => decide (l.img.tier = 0) && l.commit) = some k) :
    execPartnerCompletion p s = .next (s.completeLate p k) := by
  rw [execPartnerCompletion, if_neg (by simp [hup]), hlate]
  rfl

theorem execPartnerCompletion_of_open {i : Image} (hup : s.stewardUp = true) (hlate : (s.sec p).late.findIdx? (fun l => decide (l.img.tier = 0) && l.commit) = none)
    (hopen : (s.sec p).epoch = some i) (htier : i.tier = 0) (hcommit : (s.sec p).commit = true) : execPartnerCompletion p s = .next (s.completeImage p) := by
  rw [execPartnerCompletion, if_neg (by simp [hup]), hlate, hopen]
  exact if_pos (by simp [htier, hcommit])

theorem execCommitTimeout_of_late {k : Nat} (hup : s.stewardUp = true)
    (hlate : (s.sec p).late.findIdx? (fun l => decide (l.img.tier = 0) && l.commit && s.passed l.commitAt 100000000) = some k) :
    execCommitTimeout p s = .next ((s.modSec p fun x => { x with late := ldel x.late k }).count 0x9092 (p.val + 1)) := by
  rw [execCommitTimeout, if_neg (by simp [hup]), hlate]
  rfl

theorem execCommitTimeout_of_open {i : Image} (hup : s.stewardUp = true)
    (hlate : (s.sec p).late.findIdx? (fun l => decide (l.img.tier = 0) && l.commit && s.passed l.commitAt 100000000) = none)
    (hopen : (s.sec p).epoch = some i) (htier : i.tier = 0) (hcommit : (s.sec p).commit = true) (hlong : s.passed (s.sec p).commitAt 100000000 = true) :
    execCommitTimeout p s = .next (s.abortEpoch p) := by
  rw [execCommitTimeout, if_neg (by simp [hup]), hlate, hopen]
  exact if_pos (by simp [htier, hcommit, hlong])

/-! ### NAND (R433 to R435, R528) -/

/-- The unit that is next has been programmed: what follows is its outcome's. -/
theorem execNandProgramComplete_of_turn {k : Option Nat} {ready pos : Nat} (hwork : s.nandWork p = some (k, ready, pos)) (hnext : s.nandNext = some p) (hup : s.stewardUp = true)
    (hsepia : s.sepiaUp = true) (hu : u = ((s.yieldSepia p).flashOp p pos .pageProgram).modStw fun x => { x with nandTurn := p }) (ok : Bool) :
    execNandProgramComplete p ok s = if !ok then .next u else match k with
      | none => .next (if pos + 1 = u.unitsAll p then u.completeImage p else u.modSec p fun x => { x with nandPos := pos + 1 })
      | some j => if pos + 1 = u.unitsAll p then .next (u.completeLate p j)
        else .next (u.modSec p fun x => { x with late := x.late.mapIdx fun m l => if m = j then { l with nandPos := pos + 1 } else l }) := by
  subst hu
  simp only [execNandProgramComplete, hwork]
  refine (if_neg (by simp [hup, hsepia, hnext])).trans ?_
  cases ok with
  | false => rfl
  | true => cases k <;> rfl

theorem execNandEraseComplete_of_share {ok : Bool} {v : State} {mean : Nat} (hsepia : s.sepiaUp = true) (hup : s.stewardUp = true) (hshare : s.reg 0x6178 (p.val + 1) ≠ 0)
    (hu : u = (s.flashOp p s.stw.nandErases .blockErase).modStw fun x => if ok then { x with nandErases := x.nandErases + 1 } else { x with nandSpare := x.nandSpare - 1 })
    (hmean : mean = min (u.stw.nandErases / max 1 u.stw.nandBlocks) (2 ^ 24 - 1)) (hv : v = u.saveReg 0x617C 0 mean) :
    execNandEraseComplete p ok s = .next (if v.reg 0x617D 0 ≤ mean ∨ (ok = false ∧ v.stw.nandSpare = 0) then v.retireSepia else v) := by
  subst hv hmean hu
  rw [execNandEraseComplete, if_neg (by simp [hsepia, hup, hshare])]
  refine congrArg Host.Outcome.next (if_congr ?_ rfl rfl)
  simp only [Bool.or_eq_true, Bool.and_eq_true, decide_eq_true_eq, Bool.not_eq_true']

theorem execNandReadComplete_of_pending {k : Nat} {r : Restore} (hrestore : (s.sec p).restore = some r) (htier : r.img.tier = 1) (hup : s.stewardUp = true)
    (hnew : ∀ e ∈ r.read, e.1 ≠ k) (hk : k < (s.securedBlocks p).length) (ok : Bool) :
    execNandReadComplete p k ok s = .next (((List.range 4).foldl (fun s i => s.flashOp p (1 + 4 * k + i) .read) s).modSec p fun x =>
      { x with restore := some { r with read := r.read ++ [(k, ok)] } }) := by
  simp only [execNandReadComplete, hrestore]
  have hread : (r.read.any fun e => decide (e.1 = k)) = false := by simpa only [List.any_eq_false, decide_eq_true_eq] using hnew
  exact if_neg (by simp [htier, hup, hread, hk])

/-! ### The shared store (R436) -/

theorem execSharedStoreCommit_of_late {via : Via} {step : W64} {k : Nat} (h : s.accepts via 0x617F (p.val + 1) (leBytes 8 step.toNat) = true)
    (hlate : (s.sec p).late.findIdx? (fun l => decide (l.img.tier = 2) && decide (l.img.step = step)) = some k) : execSharedStoreCommit via p step s =
      .next (((s.answered via 0x617F (p.val + 1) (leBytes 8 step.toNat) 0).setReg 0x617F (p.val + 1) 0).completeLate p k) := by
  rw [execSharedStoreCommit, command_of_accepts h, hlate]

theorem execSharedStoreCommit_of_open {via : Via} {step : W64} {i : Image} (h : s.accepts via 0x617F (p.val + 1) (leBytes 8 step.toNat) = true)
    (hlate : (s.sec p).late.findIdx? (fun l => decide (l.img.tier = 2) && decide (l.img.step = step)) = none) (hopen : (s.sec p).epoch = some i)
    (hdrained : i.tier = 2 ∧ i.step = step ∧ s.undrained p = 0) : execSharedStoreCommit via p step s =
      .next (((s.answered via 0x617F (p.val + 1) (leBytes 8 step.toNat) 0).setReg 0x617F (p.val + 1) 0).completeImage p) := by
  obtain ⟨htier, hstep, hall⟩ := hdrained
  rw [execSharedStoreCommit, command_of_accepts h]
  simp only [hlate, hopen, htier, hstep, hall, decide_true, Bool.and_self, if_true]

theorem execSharedStoreCommit_of_other {via : Via} {step : W64} (h : s.accepts via 0x617F (p.val + 1) (leBytes 8 step.toNat) = true)
    (hlate : (s.sec p).late.findIdx? (fun l => decide (l.img.tier = 2) && decide (l.img.step = step)) = none)
    (hnot : ∀ i, (s.sec p).epoch = some i → ¬ (i.tier = 2 ∧ i.step = step ∧ s.undrained p = 0)) : execSharedStoreCommit via p step s =
      .next ((s.answered via 0x617F (p.val + 1) (leBytes 8 step.toNat) 5).setReg 0x617F (p.val + 1) 1) := by
  rw [execSharedStoreCommit, command_of_accepts h]
  cases hopen : (s.sec p).epoch with
  | none => simp only [hlate, refused]
  | some i =>
    have hother : (decide (i.tier = 2) && decide (i.step = step) && decide (s.undrained p = 0)) = false :=
      Bool.eq_false_iff.2 fun hall => hnot i hopen (by simpa [and_assoc] using hall)
    simp only [hlate, hother, refused, Bool.false_eq_true, if_false]

/-! ### Partner memory (R431, R432) -/

theorem execPartnerTargetWrite_of_accepts {via : Via} {v : W64} {dev : W16} (h : s.accepts via 0x6176 (p.val + 1) (leBytes 8 v.toNat) = true) (hres : bits v.toNat 63 58 = 0)
    (hlow : bits v.toNat 31 0 = 0) (hdev : dev = BitVec.ofNat 16 (bits v.toNat 47 32)) (hother : dev.toNat ≠ s.reg 0x1020 0) (hfree : s.loaded p = false)
    (hu : u = (((s.answered via 0x6176 (p.val + 1) (leBytes 8 v.toNat) 0).setReg 0x6176 (p.val + 1) v.toNat).modSec p fun x =>
      { x with reserve := none, slotTurn := 0 }).tunnelSend dev (.reserve p)) (a : Option (List (List W64))) :
    execPartnerTargetWrite via p v a s = .next (match a with
      | none => u
      | some l => (u.modStw fun x => { x with outbox := x.outbox.dropLast }).modSec p fun x => { x with reserve := some l }) := by
  subst hu hdev
  have hzero : firstOf (bits v.toNat 63 58 ≠ 0 || bits v.toNat 31 0 ≠ 0) ((BitVec.ofNat 16 (bits v.toNat 47 32)).toNat = s.reg 0x1020 0) (s.loaded p) = 0 := by
    simp only [firstOf, hres, hlow, hother, hfree, ne_eq, not_true_eq_false, decide_false, Bool.or_self, Bool.false_eq_true, if_false]
  rw [execPartnerTargetWrite, command_of_accepts h, checked_of_zero hzero] <;> rfl

theorem execCommitRecordArrival_of_holder {q : PortId} {step : W64} {n : Nat} (hport : s.portUp q = true) (howner : s.portOwner q = some p) (hloaded : s.loaded p = true)
    (hholds : bit (s.reg 0x6177 (p.val + 1)) 63 = true) (hn : n = if bit (s.reg 0x6177 (p.val + 1)) 62 then 2 else 1) (hup : s.stewardUp = true) :
    execCommitRecordArrival q p step s = .next ((s.modSec p fun x =>
      { x with mirror := (fit none n x.mirror).set (x.mirrorNext % n) (some step), mirrorNext := (x.mirrorNext + 1) % n }).tunnelSend
        (BitVec.ofNat 16 (bits (s.reg 0x6177 (p.val + 1)) 47 32)) (.completion p step)) := by
  subst hn
  simp only [execCommitRecordArrival]
  exact if_neg (by simp [hport, howner, hloaded, hholds, hup])

/-- Settles O37: every clause is the branch of its command that the premises choose. -/
theorem securingEpochs : Obligations.SecuringEpochs := by
  unfold Obligations.SecuringEpochs
  refine ⟨fun s p a z e hrange hrun hset hin hpos hhigh => ?due, fun s p step e hmult => State.secureStep_of_no_multiple hmult e, fun s u p step e hdue hfree hu => ⟨fun hnone => ?none,
      fun htier hsettled => State.secureStep_of_tier hdue hfree htier hsettled hu e⟩,
    fun s p hup => ⟨fun k hlate => execPartnerCompletion_of_late hup hlate, fun k hlate => execCommitTimeout_of_late hup hlate, fun i hopen htier hcommit =>
      ⟨fun hlate => execPartnerCompletion_of_open hup hlate hopen htier hcommit, fun hlate hlong => execCommitTimeout_of_open hup hlate hopen htier hcommit hlong⟩⟩,
    fun s u p k ready pos hwork hnext hup hsepia hu => ⟨execNandProgramComplete_of_turn hwork hnext hup hsepia hu false, fun hk => ?openUnit, fun j hk => ?lateUnit⟩,
    fun s u v p ok mean hsepia hup hshare hu hmean hv => execNandEraseComplete_of_share hsepia hup hshare hu hmean hv,
    fun s p k ok r hrestore htier hup hnew hk => execNandReadComplete_of_pending hrestore htier hup hnew hk ok,
    fun s via p step h => ⟨fun k hlate => execSharedStoreCommit_of_late h hlate, fun hlate i hopen htier hstep hall => execSharedStoreCommit_of_open h hlate hopen ⟨htier, hstep, hall⟩,
      fun hlate hnot => execSharedStoreCommit_of_other h hlate hnot⟩,
    fun s u via p v dev a h hres hlow hdev hother hfree hu => execPartnerTargetWrite_of_accepts h hres hlow hdev hother hfree hu a,
    fun s q p step n hport howner hloaded hholds hn hup => execCommitRecordArrival_of_holder hport howner hloaded hholds hn hup,
    fun s dev hup => ?notice⟩
  case due => rw [exec_securingMordantChange, execSecuringMordantChange, State.securingDue_of_above hrange hrun hset hin rfl hpos hhigh]; rfl
  case none =>
    rw [State.secureStep_of_no_tier hdue hfree hnone]
    exact State.raise_records _ _ _ _ _
  case openUnit =>
    subst hk
    exact execNandProgramComplete_of_turn hwork hnext hup hsepia hu true
  case lateUnit =>
    subst hk
    refine (execNandProgramComplete_of_turn hwork hnext hup hsepia hu true).trans ?_
    exact (apply_ite Host.Outcome.next _ _ _).symm
  case notice => exact if_neg (by simp [hup])

end Sys2Proof.Machine
end

section
/-!
SUPPORT. O54: the protection set-up under every command. `Sealed s₀ s` says that `s` has the set-up of `s₀` and that only class S entries are saved; `Sealed.f` says that the function
`f` of the model keeps it so, by the functions that `f` itself calls, up to the commands themselves. It goes function by function as `Edits.f` does,
but tells the entries apart: a register below OD 2000h or from OD 3000h on, the status entry 2FFEh, or a class S entry that is saved (R451, R453, R454, R482).
-/
namespace Sys2Proof.Machine

/-! ### Entries of the set-up -/

/-- The key of an entry of the set-up: OD 2000h to 2FFFh, but for the status entry 2FFEh. -/
def SetupKey (k : Nat) : Prop := 0x2000 ≤ k / 256 ∧ k / 256 ≤ 0x2FFF ∧ k / 256 ≠ 0x2FFE

theorem setupKey_odKey {idx sub : Nat} (hlo : 0x2000 ≤ idx) (hhi : idx ≤ 0x2FFF) (hne : idx ≠ 0x2FFE) (hsub : sub < 256) : SetupKey (odKey idx sub) := by
  unfold SetupKey odKey
  omega

theorem not_setupKey_odKey {idx sub : Nat} (h : idx * 256 + sub < 0x200000 ∨ 0x3000 ≤ idx ∨ idx = 0x2FFE ∧ sub = 0) : ¬ SetupKey (odKey idx sub) := by
  unfold SetupKey odKey
  omega

/-- No row of the set-up is of class S or U, and every one is read-only or written by the boot code alone (Tables 15-14 and 16-4). -/
theorem odRows_setup : (odRows.all fun r => decide (r.idx < 0x2000) || decide (0x2FFF < r.idx) ||
    (decide (r.keeps ≠ .s) && decide (r.keeps ≠ .u) && (decide (r.acc = .ro) || decide (r.acc = .rwb)))) = true := by decide

theorem setupRow {k sub : Nat} {r : OdRow} (hr : odRow k sub = some r) (hlo : 0x2000 ≤ k) (hhi : k ≤ 0x2FFF) : r.keeps ≠ .s ∧ r.keeps ≠ .u ∧ (r.acc = .ro ∨ r.acc = .rwb) := by
  have hidx := List.find?_some hr
  simp only [Bool.and_eq_true, decide_eq_true_eq] at hidx
  obtain ⟨⟨rfl, -⟩, -⟩ := hidx
  have hrow := List.all_eq_true.1 odRows_setup r (List.mem_of_find?_eq_some hr)
  simp only [Bool.or_eq_true, Bool.and_eq_true, decide_eq_true_eq, and_assoc] at hrow
  exact (hrow.resolve_left (by omega))

theorem isKept_setup {k : Nat} {x : Keeps} (hk : SetupKey k) (hx : x = .s ∨ x = .u) : isKept x k = false := by
  obtain ⟨hlo, hhi, -⟩ := hk
  refine decide_eq_false fun hrow => ?_
  obtain ⟨r, hr, rfl⟩ := Option.map_eq_some_iff.1 hrow
  obtain ⟨hs, hu, -⟩ := setupRow hr hlo hhi
  exact hx.elim hs hu

theorem not_setupKey_of_saved {k : Nat} (hk : isKept .s k = true) : ¬ SetupKey k :=
  fun h => Bool.false_ne_true ((isKept_setup h (.inl rfl)).symm.trans hk)

/-! ### Maps under another key -/

theorem mem_sput {α : Type} [DecidableEq α] {d : α} {k : Nat} {x : α} : ∀ {m : Sparse α} {e : Nat × α}, e ∈ sput d m k x → e ∈ m ∨ e.1 = k
  | [], e, h => by
    unfold sput at h
    split at h
    · exact .inl h
    · exact .inr (by rw [List.mem_singleton.1 h])
  | f :: m, e, h => by
    unfold sput at h
    split at h
    · split at h
      · exact .inl h
      · exact (List.mem_cons.1 h).elim (fun he => .inr (by rw [he])) .inl
    · split at h
      · split at h
        · exact .inl (List.mem_cons_of_mem _ h)
        · exact (List.mem_cons.1 h).elim (fun he => .inr (by rw [he])) fun he => .inl (List.mem_cons_of_mem _ he)
      · exact (List.mem_cons.1 h).elim (fun he => .inl (he ▸ List.mem_cons_self)) fun he => (mem_sput he).imp_left (List.mem_cons_of_mem _)

theorem domGet_domPut_other {a b : Nat} {x : List Byte} (h : b ≠ a) : ∀ m : List (Nat × List Byte), domGet (domPut m a x) b = domGet m b
  | [] => by
    unfold domPut
    split
    · rfl
    · simp only [domGet, if_neg h]
  | (k, v) :: m => by
    unfold domPut
    split
    · split
      · rfl
      · simp only [domGet, if_neg h]
    · split
      · next hk =>
        subst hk
        split <;> simp only [domGet, if_neg h]
      · simp only [domGet, domGet_domPut_other h m]

theorem domGet_filter {f : Nat → Bool} {b : Nat} (hb : f b = true) : ∀ m : List (Nat × List Byte), domGet (m.filter fun e => f e.1) b = domGet m b
  | [] => rfl
  | (k, v) :: m => by
    by_cases hk : b = k
    · subst hk
      simp only [List.filter_cons, hb, if_true, domGet]
    · rw [List.filter_cons]
      split <;> simp only [domGet, if_neg hk, domGet_filter hb m]

theorem find_filter {f : Nat → Bool} {b : Nat} (hb : f b = true) (m : Sparse W64) : (m.filter fun e => f e.1).find? (fun e => e.1 = b) = m.find? fun e => e.1 = b := by
  rw [List.find?_filter]
  refine congrArg (fun q => List.find? q m) (funext fun e => ?_)
  by_cases he : e.1 = b
  · simp [he, hb]
  · simp [he]

/-! ### The relation -/

/-- `s` has the set-up of `s₀`, and only class S entries are saved. -/
structure Sealed (s₀ s : State) : Prop where
  saved : s.savedOk
  same : SameSetup s₀ s

namespace Sealed

/-- Every next state that a command answers is so. -/
def Answers (s : State) (o : Host.Outcome State Fault Refusal) : Prop := ∀ t, o = .next t → Sealed s t

/-- So for the state in which the checks of an instruction let it issue. -/
def Checks (s : State) (c : Chk) : Prop := ∀ t n, c = .ok t n → Sealed s t

/-- So for the state, found by `f`, that a piece of an engine's work leaves, and for the one in which it faults. -/
def Runs {α : Type} (s : State) (f : α → State) (r : Except Halt α) : Prop :=
  (∀ a, r = .ok a → Sealed s (f a)) ∧ ∀ t c d x, r = .error (.fault t c d x) → Sealed s t

/-- What a request of the dictionary does, beside its status, keeps it so. -/
def Acts {α : Type} (s : State) (x : α × (State → State)) : Prop := ∀ t, Sealed s t → Sealed s (x.2 t)

/-- So beside a status and data. -/
def Replies {α β : Type} (s : State) (x : α × β × (State → State)) : Prop := ∀ t, Sealed s t → Sealed s (x.2.2 t)

end Sealed

section
variable {s₀ s t : State}

namespace Sealed

theorem refl (h : s.savedOk) : Sealed s s := ⟨h, fun _ _ _ _ _ _ => ⟨rfl, rfl⟩⟩

/-- An update of any part of the state but the entries and what is saved of them. -/
theorem frame {time : W64} {stations : Vector Station 18} {parts : Vector Partition 4} {mordants : Sparse Mordant} {mem poison : Sparse Byte} {stashPoison : List Nat}
    {fetches : List Fetch} {writes : List MemWrite}
    {morOps : List MorOp} {descs : List DescFlight} {xfers : List Xfer} {towers : Vector Tower 8} {route : Vector RouteEngine 4} {clk : Clocks}
    {pwr : Power} {stw : Steward} {host : Vector HostFn 5} {hostHeld : List HostItem} {perst : Bool} {ports : Vector Port 28} {fab : Fabric}
    {health : Vector Health 18} {beat faults faultHold : List FaultRec} {faultLost : Bool} {acked : Nat} {seqNext : W16} {draws : Nat} {out : List Output} {pending : List Instr}
    (hs : Sealed s₀ s) :
    Sealed s₀ ⟨time, stations, parts, mordants, mem, poison, stashPoison, fetches, writes, morOps, descs, xfers, towers, route, clk, pwr,
      stw, host, hostHeld, perst, ports, fab, health, s.dict, s.saved, s.doms, s.savedDoms, beat, faults, faultHold, faultLost, acked, seqNext,
      draws, out, pending⟩ :=
  ⟨hs.saved, hs.same⟩

/-- Two states that read alike in the set-up. -/
theorem of_reads (hs : Sealed s₀ s) (hsaved : t.savedOk) (hfind : ∀ k, SetupKey k → t.dict.find? (fun e => e.1 = k) = s.dict.find? fun e => e.1 = k)
    (hget : ∀ k, SetupKey k → domGet t.doms k = domGet s.doms k) : Sealed s₀ t := by
  refine ⟨hsaved, fun idx sub hlo hhi hne hsub => ?_⟩
  obtain ⟨hreg, hdom⟩ := hs.same idx sub hlo hhi hne hsub
  have hkey := setupKey_odKey hlo hhi hne hsub
  exact ⟨by rw [← hreg, State.reg, State.reg, hfind _ hkey], by rw [← hdom, State.dom, State.dom, hget _ hkey]⟩

theorem putReg {d : W64} {k : Nat} {v : W64} (hs : Sealed s₀ s) (hk : ¬ SetupKey k) : Sealed s₀ { s with dict := dictPut d s.dict k v } := by
  refine hs.of_reads hs.saved (fun j hj => find_sput_other _ _ _ _ _ ?_) fun _ _ => rfl
  rintro rfl
  exact hk hj

theorem putDom {k : Nat} {v : List Byte} (hs : Sealed s₀ s) (hk : ¬ SetupKey k) : Sealed s₀ { s with doms := domPut s.doms k v } := by
  refine hs.of_reads hs.saved (fun _ _ => rfl) fun j hj => domGet_domPut_other ?_ _
  rintro rfl
  exact hk hj

/-- Entries of the set-up stay when others are dropped. -/
theorem dropRegs {f : Nat → Bool} (hs : Sealed s₀ s) (hf : ∀ k, SetupKey k → f k = true) : Sealed s₀ { s with dict := s.dict.filter fun e => f e.1 } :=
  hs.of_reads hs.saved (fun k hk => find_filter (hf k hk) _) fun _ _ => rfl

theorem dropDoms {f : Nat → Bool} (hs : Sealed s₀ s) (hf : ∀ k, SetupKey k → f k = true) : Sealed s₀ { s with doms := s.doms.filter fun e => f e.1 } :=
  hs.of_reads hs.saved (fun _ _ => rfl) fun k hk => domGet_filter (hf k hk) _

theorem ite {c : Prop} [Decidable c] (hs : Sealed s₀ s) (ht : Sealed s₀ t) : Sealed s₀ (if c then s else t) := by
  split <;> assumption

/-- A fold over a value that carries the state. -/
theorem foldlOf {α β : Type} (f : β → State) {g : β → α → β} {l : List α} {b : β} (hb : Sealed s₀ (f b))
    (h : ∀ b a, Sealed s₀ (f b) → Sealed s₀ (f (g b a))) :
    Sealed s₀ (f (l.foldl g b)) :=
  List.foldlRecOn (motive := fun b => Sealed s₀ (f b)) l g hb fun b hb a _ => h b a hb

theorem foldl {α : Type} {g : State → α → State} {l : List α} (hs : Sealed s₀ s) (h : ∀ t a, Sealed s₀ t → Sealed s₀ (g t a)) :
    Sealed s₀ (l.foldl g s) :=
  foldlOf id hs h

namespace Answers

theorem next (hs : Sealed s₀ s) : Answers s₀ (Host.Outcome.next s) := by
  rintro _ ⟨⟩
  exact hs

theorem ite {c : Prop} [Decidable c] {o o' : Host.Outcome State Fault Refusal} (h : Answers s₀ o) (h' : Answers s₀ o') : Answers s₀ (if c then o else o') := by
  split <;> assumption

end Answers

namespace Checks

theorem fault {l : Nat} : Checks s₀ (Chk.fault l) := fun _ _ h => nomatch h

theorem wait : Checks s₀ Chk.wait := fun _ _ h => nomatch h

theorem ok {n : Nat} (hs : Sealed s₀ s) : Checks s₀ (Chk.ok s n) := by
  rintro _ _ ⟨⟩
  exact hs

theorem ite {c : Prop} [Decidable c] {x y : Chk} (h : Checks s₀ x) (h' : Checks s₀ y) : Checks s₀ (if c then x else y) := by
  split <;> assumption

end Checks

namespace Runs
variable {α β : Type} {f : α → State} {g : β → State}

theorem ok {a : α} (h : Sealed s₀ (f a)) : Runs s₀ f (.ok a) := by
  refine ⟨?_, fun _ _ _ _ h => nomatch h⟩
  rintro _ ⟨⟩
  exact h

theorem fault {c d : Nat} {x : Site} (hs : Sealed s₀ s) : Runs s₀ f (.error (.fault s c d x)) := by
  refine ⟨fun _ h => (nomatch h), ?_⟩
  rintro _ _ _ _ ⟨⟩
  exact hs

theorem wait {x : Option (Nat × Nat)} : Runs s₀ f (.error (.wait x)) := ⟨fun _ h => (nomatch h), fun _ _ _ _ h => (nomatch h)⟩

theorem ite {c : Prop} [Decidable c] {r r' : Except Halt α} (h : Runs s₀ f r) (h' : Runs s₀ f r') : Runs s₀ f (if c then r else r') := by
  split <;> assumption

theorem bind {r : Except Halt α} {k : α → Except Halt β} (h : Runs s₀ f r) (hk : ∀ a, Sealed s₀ (f a) → Runs s₀ g (k a)) : Runs s₀ g (r >>= k) := by
  cases r with
  | ok a => exact hk a (h.1 a rfl)
  | error e =>
    show Runs s₀ g (.error e)
    exact ⟨fun _ h => (nomatch h), fun t c d x he => h.2 t c d x (by cases he; rfl)⟩

/-- A step taken in one of two ways, with the same rest. -/
theorem iteBind {c : Prop} [Decidable c] {r r' : Except Halt α} {k : α → Except Halt β} (h : Runs s₀ f r) (h' : Runs s₀ f r')
    (hk : ∀ a, Sealed s₀ (f a) → Runs s₀ g (k a)) : Runs s₀ g (if c then r >>= k else r' >>= k) :=
  .ite (h.bind hk) (h'.bind hk)

theorem foldlM {l : List β} {k : α → β → Except Halt α} (hk : ∀ a b, Sealed s₀ (f a) → Runs s₀ f (k a b)) : ∀ {a : α}, Sealed s₀ (f a) → Runs s₀ f (l.foldlM k a) := by
  induction l with
  | nil => exact fun h => .ok h
  | cons b l ih => exact fun h => (hk _ b h).bind fun _ => ih

end Runs

namespace Acts

theorem mk {α : Type} {x : α} {f : State → State} (h : ∀ t, Sealed s₀ t → Sealed s₀ (f t)) : Acts s₀ (x, f) := h

theorem ite {α : Type} {c : Prop} [Decidable c] {x y : α × (State → State)} (h : Acts s₀ x) (h' : Acts s₀ y) : Acts s₀ (if c then x else y) := by
  split <;> assumption

/-- A refusal that an entry from OD 3000h on shows. -/
theorem refused {idx sub status : Nat} : Acts s₀ (Machine.refused (idx + 0x3000) sub status) := fun _ h => h.putReg (not_setupKey_odKey (.inr (.inl (Nat.le_add_left _ _))))

theorem refusedAt {idx sub status : Nat} (hfree : idx * 256 + sub < 0x200000 ∨ 0x3000 ≤ idx ∨ idx = 0x2FFE ∧ sub = 0) : Acts s₀ (Machine.refused idx sub status) :=
  fun _ h => h.putReg (not_setupKey_odKey hfree)

theorem checked {status : Nat} {f : State → State} (h : ∀ t, Sealed s₀ t → Sealed s₀ (f t)) : Acts s₀ (Machine.checked status f) := by
  intro t ht
  unfold Machine.checked
  dsimp only
  split
  · exact h t ht
  · exact ht

end Acts

namespace Replies
variable {α β : Type} {x : α} {y : β} {f : State → State}

theorem mk (h : ∀ t, Sealed s₀ t → Sealed s₀ (f t)) : Replies s₀ (x, y, f) := h

/-- A request that is carried out with status 0 alone. -/
theorem guarded {c : Prop} [Decidable c] (h : c → ∀ t, Sealed s₀ t → Sealed s₀ (f t)) : Replies s₀ (x, y, if c then f else id) := by
  split
  · next hc => exact h hc
  · exact fun _ ht => ht

theorem ite {c : Prop} [Decidable c] {x y : α × β × (State → State)} (h : Replies s₀ x) (h' : Replies s₀ y) : Replies s₀ (if c then x else y) := by
  split <;> assumption

end Replies

end Sealed

/-! ### Entries that the device saves as it changes them -/

theorem isKept_recordCount : isKept .s (odKey 0x7001 0) = true := by decide
theorem isKept_cleanHours : isKept .s (odKey 0x7015 0) = true := by decide
theorem isKept_sepiaWear : isKept .s (odKey 0x617C 0) = true := by decide
theorem isKept_observed : ∀ x : St, isKept .s (odKey 0x7010 (x.val + 1)) = true := by decide
theorem isKept_stationState : ∀ x : St, isKept .s (odKey 0x8000 (x.val + 1)) = true := by decide
theorem isKept_rowMap : ∀ x : St, isKept .s (odKey 0x8010 (x.val + 1)) = true := by decide
theorem isKept_towerState : ∀ x : Twr, isKept .s (odKey 0x8030 (x.val + 1)) = true := by decide
theorem isKept_bankSpares : ∀ x : Twr, isKept .s (odKey 0x8031 (x.val + 1)) = true := by decide
theorem isKept_laneSpares : ∀ x : PortId, isKept .s (odKey 0x8040 (x.val + 1)) = true := by decide
theorem isKept_portRetired : ∀ x : PortId, isKept .s (odKey 0x8041 (x.val + 1)) = true := by decide
theorem isKept_portEnable : ∀ x : PortId, isKept .s (odKey 0x5000 (x.val + 1)) = true := by decide
theorem isKept_railStep : ∀ x : Fin 2, isKept .s (odKey 0x4221 (x.val + 1)) = true := by decide

/-! ### Shared operations: registers, mordants, memory, records -/

theorem Sealed.modSt {st : St} {f : Station → Station} (hs : Sealed s₀ s) : Sealed s₀ (s.modSt st f) := hs.frame

theorem Sealed.modPart {p : Part} {f : Partition → Partition} (hs : Sealed s₀ s) : Sealed s₀ (s.modPart p f) := hs.frame

theorem Sealed.modTwr {t : Twr} {f : Tower → Tower} (hs : Sealed s₀ s) : Sealed s₀ (s.modTwr t f) := hs.frame

theorem Sealed.emit {o : Output} (hs : Sealed s₀ s) : Sealed s₀ (s.emit o) := hs.frame

theorem Sealed.setRegAt {idx sub v : Nat} (hs : Sealed s₀ s) (hfree : idx * 256 + sub < 0x200000 ∨ 0x3000 ≤ idx ∨ idx = 0x2FFE ∧ sub = 0) :
    Sealed s₀ (s.setReg idx sub v) := hs.putReg (not_setupKey_odKey hfree)

/-- An entry below OD 2000h. -/
theorem Sealed.setLow {idx sub v : Nat} (hs : Sealed s₀ s) (hlow : idx * 256 + sub < 0x200000) : Sealed s₀ (s.setReg idx sub v) := hs.setRegAt (.inl hlow)

/-- An entry from OD 3000h on. -/
theorem Sealed.setReg {idx sub v : Nat} (hs : Sealed s₀ s) : Sealed s₀ (s.setReg (idx + 0x3000) sub v) := hs.setRegAt (.inr (.inl (Nat.le_add_left _ _)))

theorem Sealed.count {idx sub n : Nat} (hs : Sealed s₀ s) : Sealed s₀ (s.count (idx + 0x3000) sub n) := hs.setReg

theorem Sealed.saveReg {idx sub v : Nat} (hs : Sealed s₀ s) (hkept : isKept .s (odKey idx sub) = true) : Sealed s₀ (s.saveReg idx sub v) := by
  obtain ⟨⟨hsaved, hdoms⟩, hsame⟩ := hs.putReg (d := BitVec.ofNat 64 (odDflt idx sub)) (v := BitVec.ofNat 64 v) (not_setupKey_of_saved hkept)
  exact ⟨⟨fun e he => (mem_sput he).elim (hsaved e) fun hkey => hkey ▸ hkept, hdoms⟩, hsame⟩

theorem Sealed.saveRecordCount {v : Nat} (hs : Sealed s₀ s) : Sealed s₀ (s.saveReg 0x7001 0 v) := hs.saveReg isKept_recordCount

theorem Sealed.saveCleanHours {v : Nat} (hs : Sealed s₀ s) : Sealed s₀ (s.saveReg 0x7015 0 v) := hs.saveReg isKept_cleanHours

theorem Sealed.saveSepiaWear {v : Nat} (hs : Sealed s₀ s) : Sealed s₀ (s.saveReg 0x617C 0 v) := hs.saveReg isKept_sepiaWear

theorem Sealed.saveObserved {x : St} {v : Nat} (hs : Sealed s₀ s) : Sealed s₀ (s.saveReg 0x7010 (x.val + 1) v) := hs.saveReg (isKept_observed x)

theorem Sealed.saveStationState {x : St} {v : Nat} (hs : Sealed s₀ s) : Sealed s₀ (s.saveReg 0x8000 (x.val + 1) v) := hs.saveReg (isKept_stationState x)

theorem Sealed.saveRowMap {x : St} {v : Nat} (hs : Sealed s₀ s) : Sealed s₀ (s.saveReg 0x8010 (x.val + 1) v) := hs.saveReg (isKept_rowMap x)

theorem Sealed.saveTowerState {x : Twr} {v : Nat} (hs : Sealed s₀ s) : Sealed s₀ (s.saveReg 0x8030 (x.val + 1) v) := hs.saveReg (isKept_towerState x)

theorem Sealed.saveBankSpares {x : Twr} {v : Nat} (hs : Sealed s₀ s) : Sealed s₀ (s.saveReg 0x8031 (x.val + 1) v) := hs.saveReg (isKept_bankSpares x)

theorem Sealed.saveLaneSpares {x : PortId} {v : Nat} (hs : Sealed s₀ s) : Sealed s₀ (s.saveReg 0x8040 (x.val + 1) v) := hs.saveReg (isKept_laneSpares x)

theorem Sealed.savePortRetired {x : PortId} {v : Nat} (hs : Sealed s₀ s) : Sealed s₀ (s.saveReg 0x8041 (x.val + 1) v) := hs.saveReg (isKept_portRetired x)

theorem Sealed.savePortEnable {x : PortId} {v : Nat} (hs : Sealed s₀ s) : Sealed s₀ (s.saveReg 0x5000 (x.val + 1) v) := hs.saveReg (isKept_portEnable x)

theorem Sealed.saveRailStep {x : Fin 2} {v : Nat} (hs : Sealed s₀ s) : Sealed s₀ (s.saveReg 0x4221 (x.val + 1) v) := hs.saveReg (isKept_railStep x)

theorem Sealed.setDomAt {idx sub : Nat} {v : List Byte} (hs : Sealed s₀ s) (hfree : idx * 256 + sub < 0x200000 ∨ 0x3000 ≤ idx ∨ idx = 0x2FFE ∧ sub = 0) :
    Sealed s₀ (s.setDom idx sub v) := hs.putDom (not_setupKey_odKey hfree)

/-- An entry from OD 3000h on. -/
theorem Sealed.setDom {idx sub : Nat} {v : List Byte} (hs : Sealed s₀ s) : Sealed s₀ (s.setDom (idx + 0x3000) sub v) := hs.setDomAt (.inr (.inl (Nat.le_add_left _ _)))

theorem Sealed.setMor {m : Nat} {x : Mordant} (hs : Sealed s₀ s) : Sealed s₀ (s.setMor m x) := hs.frame

theorem Sealed.morAdd {p : Part} {m v : Nat} (hs : Sealed s₀ s) : Sealed s₀ (s.morAdd p m v) := .ite hs.setMor hs.setMor.count

theorem Sealed.putBytes {l : List Byte} : ∀ {s : State} {a : Nat}, Sealed s₀ s → Sealed s₀ (s.putBytes a l) := by
  induction l with
  | nil => exact fun h => h
  | cons b l ih => exact fun h => ih h.frame

theorem Sealed.setSector {sec : Nat} {k : Byte} (hs : Sealed s₀ s) : Sealed s₀ (s.setSector sec k) := hs.frame

theorem Sealed.towerWrite {a : Nat} {l : List PByte} (hs : Sealed s₀ s) : Sealed s₀ (s.towerWrite a l) :=
  (hs.foldl fun _ _ h => .ite (.ite h.setSector h) (.ite h.setSector h)).putBytes

theorem Sealed.stashWrite {a : Nat} {l : List PByte} (hs : Sealed s₀ s) : Sealed s₀ (s.stashWrite a l) :=
  (hs.foldl fun _ _ h => .ite h.frame (.ite h.frame h)).putBytes

theorem Sealed.memWrite {a : Nat} {l : List PByte} (hs : Sealed s₀ s) : Sealed s₀ (s.memWrite a l) := by
  unfold State.memWrite
  split
  · exact hs.towerWrite
  · exact hs.stashWrite
  · exact hs

theorem Sealed.modFn {f : Pf} {g : HostFn → HostFn} (hs : Sealed s₀ s) : Sealed s₀ (s.modFn f g) := hs.frame

theorem Sealed.modStw {g : Steward → Steward} (hs : Sealed s₀ s) : Sealed s₀ (s.modStw g) := hs.frame

theorem Sealed.modPwr {g : Power → Power} (hs : Sealed s₀ s) : Sealed s₀ (s.modPwr g) := hs.frame

theorem Sealed.modSess {n : Fin 8} {g : Session → Session} (hs : Sealed s₀ s) : Sealed s₀ (s.modSess n g) := hs.modStw

theorem Sealed.vector {f : Pf} {vec : Nat} (hs : Sealed s₀ s) : Sealed s₀ (s.vector f vec) := .ite hs.emit hs

theorem Sealed.notifyFn {idx sub : Nat} {v : List Byte} {f : Pf} (hs : Sealed s₀ s) : Sealed s₀ (s.notifyFn idx sub v f) :=
  .ite hs (.ite hs.modFn hs.modFn.vector)

theorem Sealed.notify {idx sub : Nat} {v : List Byte} (hs : Sealed s₀ s) : Sealed s₀ (s.notify idx sub v) :=
  .ite hs.modStw (.ite (hs.foldl fun _ _ h => h.notifyFn).emit (hs.foldl fun _ _ h => h.notifyFn))

theorem Sealed.logRec {r : FaultRec} (hs : Sealed s₀ s) : Sealed s₀ (s.logRec r) := hs.frame.saveRecordCount.emit.notify

theorem Sealed.record {r : FaultRec} (hs : Sealed s₀ s) : Sealed s₀ (s.record r) := .ite hs.logRec (.ite hs.frame hs.frame)

theorem Sealed.dropFetches {sts : List St} (hs : Sealed s₀ s) : Sealed s₀ (s.dropFetches sts) := (hs.foldl fun _ _ h => h.count).frame

theorem Sealed.abandonEngines {p : Part} (hs : Sealed s₀ s) : Sealed s₀ (s.abandonEngines p) := hs.frame

theorem Sealed.setJobState {p : Part} {v : Byte} (hs : Sealed s₀ s) : Sealed s₀ (s.setJobState p v) := hs.modPart.notify

theorem Sealed.clearWatches {p : Part} (hs : Sealed s₀ s) : Sealed s₀ (s.clearWatches p) := hs.modFn

theorem Sealed.endJob {p : Part} {v : Byte} (hs : Sealed s₀ s) : Sealed s₀ (s.endJob p v) :=
  (hs.foldl fun _ _ h => h.modSt).dropFetches.clearWatches.modPart.setJobState

theorem Sealed.modHealth {st : St} {f : Health → Health} (hs : Sealed s₀ s) : Sealed s₀ (s.modHealth st f) := hs.frame

theorem Sealed.breakHour (hs : Sealed s₀ s) : Sealed s₀ s.breakHour := hs.modStw.saveCleanHours

theorem Sealed.suspect {st : St} (hs : Sealed s₀ s) : Sealed s₀ (s.suspect st) := .breakHour (.modHealth (.ite hs.saveObserved hs))

theorem Sealed.maskedMismatch {st : St} (hs : Sealed s₀ s) : Sealed s₀ (s.maskedMismatch st) :=
  .ite hs.count.modHealth.suspect hs.count.modHealth

theorem Sealed.noteFault {p : Option Part} {cls detail : Nat} {site : Site} {ends : Bool} (hs : Sealed s₀ s) :
    Sealed s₀ (s.noteFault p cls detail site ends) :=
  .ite (.modHealth (.suspect (.ite (.count (.ite (.modPart (.ite hs.modPart hs)) (.ite hs.modPart hs)))
    (.ite (.modPart (.ite hs.modPart hs)) (.ite hs.modPart hs)))))
    (.ite (.breakHour (.ite (.count (.ite (.modPart (.ite hs.modPart hs)) (.ite hs.modPart hs)))
    (.ite (.modPart (.ite hs.modPart hs)) (.ite hs.modPart hs)))) (.ite (.count (.ite (.modPart (.ite hs.modPart hs)) (.ite hs.modPart hs)))
    (.ite (.modPart (.ite hs.modPart hs)) (.ite hs.modPart hs))))

theorem Sealed.raise {p : Option Part} {cls detail : Nat} {site : Site} (hs : Sealed s₀ s) : Sealed s₀ (s.raise p cls detail site) :=
  .ite hs (.ite hs.noteFault.frame hs.noteFault.record)

theorem Sealed.writeRec {r : FaultRec} (hs : Sealed s₀ s) : Sealed s₀ (s.writeRec r) :=
  .ite hs.modPart.record.endJob.abandonEngines.count hs.record

theorem Sealed.beatEnd (hs : Sealed s₀ s) : Sealed s₀ s.beatEnd := hs.frame.foldl fun _ _ h => h.writeRec

theorem Sealed.faultAt {st : St} {cls detail loc2 pc : Nat} (hs : Sealed s₀ s) : Sealed s₀ (s.faultAt st cls detail loc2 pc) := hs.raise

theorem Sealed.faultIssue {st : St} {loc2 pc : Nat} (hs : Sealed s₀ s) : Sealed s₀ (s.faultIssue st loc2 pc) := hs.faultAt

theorem Sealed.faultFire {st : St} {loc2 pc : Nat} (hs : Sealed s₀ s) : Sealed s₀ (s.faultFire st loc2 pc) := hs.faultAt

theorem Sealed.faultPoison {st : St} {loc2 pc : Nat} (hs : Sealed s₀ s) : Sealed s₀ (s.faultPoison st loc2 pc) := hs.faultAt

theorem Sealed.orStatus {st : St} {ovf nv : Bool} (hs : Sealed s₀ s) : Sealed s₀ (s.orStatus st ovf nv) := hs.modSt

/-! ### Sequencer and issue -/

theorem Sealed.faultWord {st : St} (hs : Sealed s₀ s) : Sealed s₀ (s.faultWord st) := hs.faultPoison.modSt

/-- An instruction that issues, or whose checks fault: the state of the checks, with what the sequencer notes. -/
theorem Sealed.issue {op : Nat} {body : State → Part → St → Entry → Chk} {st : St} (hs : Sealed s₀ s)
    (hbody : ∀ t, Sealed s₀ t → ∀ p st e, Checks s₀ (body t p st e)) : Answers s₀ (issue op body s st) := by
  unfold Machine.issue
  dsimp only
  split
  · exact .next hs
  · next p _ =>
    have hissue := hbody s hs p st ⟨(s.stn st).sq.nextSeq, (s.stn st).sq.pc, ((s.stn st).instrAt (s.prt p).prog (s.stn st).sq.pc).1, (s.stn st).sq.k,
      beatOf (s.stn st).sq ((s.stn st).instrAt (s.prt p).prog (s.stn st).sq.pc).1, false, 0⟩
    refine .ite (.next hs.faultIssue)
      (.ite (.next hs.faultWord) (.ite (.next hs) (.ite (.next hs) (.ite (.next hs.faultIssue) (.ite (.next hs.faultPoison)
      (.ite (.next hs.faultIssue) ?_))))))
    split
    · exact .next hs.faultIssue
    · exact .next hs
    · next heq => exact .next (hissue _ _ heq).modSt

theorem Sealed.enqueue {st : St} {e : Entry} (hs : Sealed s₀ s) : Checks s₀ (enqueue s st e) := .ok hs.modSt

/-! ### Routes of the mesh -/

theorem Sealed.remoteRead {p : Part} {e : Entry} {f : Fetch} (hs : Sealed s₀ s) : Sealed s₀ (s.remoteRead p e f) := hs.frame

/-! ### Vats -/

theorem Sealed.execVatOpen {st : St} (hs : Sealed s₀ s) : Answers s₀ (execVatOpen st s) :=
  hs.issue fun _ h _ _ _ => .ite .fault (.ite .fault h.modSt.enqueue)

theorem Sealed.execVatOpenFire {st : St} {v : VatNo} (hs : Sealed s₀ s) : Answers s₀ (execVatOpenFire st v s) := by
  unfold Machine.execVatOpenFire
  dsimp only
  split
  · exact .next hs
  · exact .ite (.next hs) (.next hs.modSt)

theorem Sealed.execVatClose {st : St} (hs : Sealed s₀ s) : Answers s₀ (execVatClose st s) :=
  hs.issue fun _ h _ _ _ => .ite .fault h.modSt.enqueue

theorem Sealed.execVatCloseFire {st : St} {v : VatNo} (hs : Sealed s₀ s) : Answers s₀ (execVatCloseFire st v s) := by
  unfold Machine.execVatCloseFire
  dsimp only
  split
  · exact .ite (.next hs) (.ite (.next hs.faultFire) (.ite (.next hs.modSt) (.next hs)))
  · exact .next hs

theorem Sealed.execVatCancel {st : St} (hs : Sealed s₀ s) : Answers s₀ (execVatCancel st s) := hs.issue fun _ h _ _ _ => by
    dsimp only
    split
    · exact .fault
    · exact .ite .fault h.modSt.enqueue

theorem Sealed.execVatCancelFire {st : St} {v : VatNo} (hs : Sealed s₀ s) : Answers s₀ (execVatCancelFire st v s) := by
  unfold Machine.execVatCancelFire
  dsimp only
  split
  · exact .ite (.next hs) (.next (.modSt (.ite hs.frame hs.frame.count)))
  · exact .next hs

theorem Sealed.execDroppedFetchEnd {st : St} {v : VatNo} {slot : Nat} (hs : Sealed s₀ s) : Answers s₀ (execDroppedFetchEnd st v slot s) :=
  .ite (.next hs.frame.modSt) (.next hs)

theorem Sealed.execVatFetch {st : St} (hs : Sealed s₀ s) : Answers s₀ (execVatFetch st s) := hs.issue fun _ h _ _ _ => by
    dsimp only
    split
    · exact .fault
    · refine .ite .fault ?_
      split
      · exact .fault
      · exact .ite .fault (.ite .fault (.ite .fault (.ite .fault (.ite .fault h.modSt.enqueue))))

theorem Sealed.execVatFetchFire {st : St} {v : VatNo} (hs : Sealed s₀ s) : Answers s₀ (execVatFetchFire st v s) := by
  unfold Machine.execVatFetchFire
  dsimp only
  split
  · exact .ite (.next hs) (.ite (.next hs.faultFire) (.ite (.next hs.modSt.frame) (.ite (.next hs.modSt.remoteRead) (.next hs.modSt.frame))))
  · exact .next hs

theorem Sealed.execVatSlotFull {st : St} {v : VatNo} {slot : Nat} (hs : Sealed s₀ s) : Answers s₀ (execVatSlotFull st v slot s) := by
  unfold Machine.execVatSlotFull
  dsimp only
  split
  · exact .next hs.frame.modSt
  · exact .next hs

theorem Sealed.execVatPut {st : St} (hs : Sealed s₀ s) : Answers s₀ (execVatPut st s) := hs.issue fun _ h _ _ _ => by
    dsimp only
    split
    · exact .fault
    · refine .ite .fault ?_
      split
      · exact .fault
      · exact .ite .fault (.ite .fault (.ite .fault (.ite .fault h.modSt.enqueue)))

theorem Sealed.execVatPutFire {st : St} {v : VatNo} (hs : Sealed s₀ s) : Answers s₀ (execVatPutFire st v s) := by
  unfold Machine.execVatPutFire
  dsimp only
  split
  · exact .ite (.next hs) (.next hs.modSt.frame)
  · exact .next hs

theorem Sealed.execPutWriteComplete {k : Nat} (hs : Sealed s₀ s) : Answers s₀ (execPutWriteComplete k s) := by
  unfold Machine.execPutWriteComplete
  dsimp only
  split
  · refine .ite (.next hs) ?_
    split
    · exact .next hs.frame.frame
    · exact .next hs.frame
  · exact .next hs

theorem Sealed.execSlotRelease {st : St} {v : VatNo} {slot : Nat} (hs : Sealed s₀ s) : Answers s₀ (execSlotRelease st v slot s) := by
  unfold Machine.execSlotRelease
  dsimp only
  split
  · exact .ite (.next hs.modSt) (.next hs)
  · exact .next hs

/-! ### Mesh -/

theorem Sealed.admitItems (hs : Sealed s₀ s) : Sealed s₀ s.admitItems := hs.frame

theorem Sealed.resetCrossings {l : List (Nat × Nat)} (hs : Sealed s₀ s) : Sealed s₀ (s.resetCrossings l) := hs.frame

/-! ### Array -/

theorem Sealed.execArrShape {st : St} (hs : Sealed s₀ s) : Answers s₀ (execArrShape st s) := hs.issue fun _ h _ _ _ => h.modSt.enqueue

theorem Sealed.execArrShapeFire {st : St} (hs : Sealed s₀ s) : Answers s₀ (execArrShapeFire st s) := by
  unfold Machine.execArrShapeFire
  dsimp only
  split
  · exact .next hs
  · exact .ite (.next hs) (.next hs.modSt)

theorem Sealed.execArrLoad {st : St} (hs : Sealed s₀ s) : Answers s₀ (execArrLoad st s) := hs.issue fun _ h _ _ _ => by
    dsimp only
    split
    · refine .ite .fault ?_
      split
      · exact .fault
      · exact .ite .fault h.modSt.enqueue
    · exact .fault

theorem Sealed.execArrLoadFire {st : St} (hs : Sealed s₀ s) : Answers s₀ (execArrLoadFire st s) := by
  unfold Machine.execArrLoadFire
  dsimp only
  split
  · exact .next hs
  · split
    · exact .next hs
    · exact .ite (.next hs) (.ite (.next hs.faultFire) (.next hs.modSt))

theorem Sealed.execArrLoadComplete {st : St} (hs : Sealed s₀ s) : Answers s₀ (execArrLoadComplete st s) := by
  unfold Machine.execArrLoadComplete
  split
  · exact .next hs
  · exact .next hs.modSt

theorem Sealed.execShadowRegistersFree {st : St} (hs : Sealed s₀ s) : Answers s₀ (execShadowRegistersFree st s) :=
  .ite (.next hs.modSt) (.next hs)

theorem Sealed.execArrMma {st : St} (hs : Sealed s₀ s) : Answers s₀ (execArrMma st s) := hs.issue fun _ h _ _ _ => by
    dsimp only
    split
    · split
      · exact .fault
      · refine .ite .fault (.ite .fault (.ite .fault (.ite .fault ?_)))
        split
        · exact .fault
        · split
          · exact .fault
          · exact h.modSt.enqueue
    · exact .fault

theorem Sealed.feedRow {st : St} {p : Part} {x : Station} {m : MmaRec} {wt : Weights} (hs : Sealed s₀ s) :
    Answers s₀ (feedRow s st p x m wt) := by
  unfold Machine.feedRow
  dsimp only
  split
  · exact .next hs
  · exact .next hs.faultFire
  · split
    · exact .ite (.next hs.faultFire) (.ite (.next hs.faultPoison) (.next hs.modSt))
    · exact .next hs.faultFire

theorem Sealed.startMma {st : St} {p : Part} (hs : Sealed s₀ s) : Answers s₀ (startMma s st p) := by
  unfold Machine.startMma
  dsimp only
  split
  · exact .next hs
  · split
    · refine .ite (.next hs) ?_
      split
      · exact .next hs
      · exact .ite (.next hs.faultPoison) hs.feedRow
    · exact .next hs

theorem Sealed.execArrMmaFire {st : St} (hs : Sealed s₀ s) : Answers s₀ (execArrMmaFire st s) := by
  unfold Machine.execArrMmaFire
  dsimp only
  split
  · exact .next hs.modSt
  · split
    · exact .ite hs.feedRow hs.startMma
    · exact hs.startMma
  · exact .next hs

theorem Sealed.execProductRowLeavesTree {st : St} {err : Option ArrayError} (hs : Sealed s₀ s) :
    Answers s₀ (execProductRowLeavesTree st err s) := by
  unfold Machine.execProductRowLeavesTree
  dsimp only
  split
  · exact .next hs
  · split
    · exact .next hs
    · refine .ite (.next hs.modSt) ?_
      split
      · exact .ite (.next hs) (.next hs.modSt)
      · split
        · exact .next hs
        · exact .ite (.next hs.modSt) (.ite (.next hs) (.ite (.next hs.faultPoison) (.next hs.modSt)))

theorem Sealed.execKPassEnd {st : St} (hs : Sealed s₀ s) : Answers s₀ (execKPassEnd st s) := by
  unfold Machine.execKPassEnd
  dsimp only
  split
  · exact .next hs
  · split
    · exact .next hs
    · exact .next hs.modSt

theorem Sealed.execMergeComplete {st : St} {tile : Fin 64} (hs : Sealed s₀ s) : Answers s₀ (execMergeComplete st tile s) := by
  unfold Machine.execMergeComplete
  dsimp only
  split
  · exact .next hs
  · split
    · exact .ite (.next hs) (.ite (.next hs.faultPoison) (.ite (.next hs.faultPoison) (.next hs.modSt)))
    · exact .next hs

theorem Sealed.execWitnessVerdict {st : St} (hs : Sealed s₀ s) : Answers s₀ (execWitnessVerdict st s) := by
  unfold Machine.execWitnessVerdict
  dsimp only
  split
  · refine .ite (.next hs) ?_
    split
    · refine .ite ?_ (.ite (.next hs.faultAt) (.next hs.modSt))
      split
      · exact .next hs
      · exact .ite (.next hs.faultPoison) (.next (.modSt (.ite (.maskedMismatch (.ite hs.count hs)) (.ite hs.count hs))))
    · exact .next hs.modSt
  · exact .next hs

/-! ### Accumulators -/

theorem Sealed.execAccOpen {st : St} (hs : Sealed s₀ s) : Answers s₀ (execAccOpen st s) :=
  hs.issue fun _ h _ _ _ => .ite .fault (.ite .fault h.modSt.enqueue)

theorem Sealed.execAccOpenFire {st : St} (hs : Sealed s₀ s) : Answers s₀ (execAccOpenFire st s) := by
  unfold Machine.execAccOpenFire
  split
  · exact .next hs
  · split
    · exact .next hs
    · exact .next hs.modSt

theorem Sealed.execAccDrain {st : St} (hs : Sealed s₀ s) : Answers s₀ (execAccDrain st s) := hs.issue fun _ h _ _ _ => by
    dsimp only
    split
    · refine .ite .fault (.ite .fault (.ite .fault ?_))
      split
      · exact .fault
      · exact h.modSt.enqueue
    · exact .fault
    · exact .fault

theorem Sealed.drainRow {st : St} {p : Part} {x : Station} {e : Entry} {r : Nat} (hs : Sealed s₀ s) : Answers s₀ (drainRow s st p x e r) := by
  unfold Machine.drainRow
  dsimp only
  split
  · split
    · exact .next hs
    · refine .ite (.next hs) ?_
      split
      · exact .next hs
      · exact .next hs.faultFire
      · refine .ite (.next hs.faultFire) (.ite (.next hs.faultPoison) ?_)
        split
        · exact .next hs
        · exact .next hs.faultFire
        · exact .next hs.modSt
  · exact .next hs

theorem Sealed.execAccDrainFire {st : St} (hs : Sealed s₀ s) : Answers s₀ (execAccDrainFire st s) := by
  unfold Machine.execAccDrainFire
  dsimp only
  split
  · exact .next hs
  · split
    · split
      · exact .ite hs.drainRow (.next hs)
      · exact .next hs
    · split
      · exact .next hs
      · exact .ite hs.drainRow (.next hs)

theorem Sealed.execDrainComplete {st : St} (hs : Sealed s₀ s) : Answers s₀ (execDrainComplete st s) := by
  unfold Machine.execDrainComplete
  dsimp only
  split
  · exact .next hs
  · split
    · exact .next hs
    · exact .ite (.next hs) (.next hs.modSt)

/-! ### Rings -/

theorem Sealed.laneStep {st : St} {l : Lane} (hs : Sealed s₀ s) (h : s.laneStep st l = some t) : Sealed s₀ t := by
  unfold State.laneStep at h
  dsimp only at h
  split at h
  · cases h
  · split at h
    · cases h
    · obtain ⟨-, h⟩ := Option.ite_none_left_eq_some.1 h
      split at h
      · split at h
        · cases h
          exact hs.modSt.modSt
        · split at h <;> cases h <;> exact hs.modSt.modSt
      · split at h <;> cases h <;> exact hs.modSt.modSt

theorem Sealed.pump {st : St} {l : Lane} : ∀ {n : Nat} {s : State}, Sealed s₀ s → Sealed s₀ (s.pump n st l)
  | 0, _, hs => hs
  | n + 1, s, hs => by
    unfold State.pump
    split
    · next heq => exact (hs.laneStep heq).pump
    · exact hs

theorem Sealed.flow {st : St} {l : Lane} (hs : Sealed s₀ s) : Sealed s₀ (s.flow st l) := hs.pump

theorem Sealed.execRingFlitArrival {st : St} {l : Lane} {e : FlitEcc} (hs : Sealed s₀ s) : Answers s₀ (execRingFlitArrival st l e s) := by
  unfold Machine.execRingFlitArrival
  dsimp only
  refine .ite (.next hs) ?_
  split
  · exact .next hs
  · exact .ite (.next hs.modSt.faultAt) (.next hs.modSt)

theorem Sealed.execRingCreditReturn {st : St} {l : Lane} (hs : Sealed s₀ s) : Answers s₀ (execRingCreditReturn st l s) := by
  unfold Machine.execRingCreditReturn
  dsimp only
  split
  · exact .next hs
  · split
    · exact .next hs
    · exact .ite (.next hs) (.next hs.modSt.modSt.flow)

theorem Sealed.execRingHeadStall {st : St} {l : Lane} (hs : Sealed s₀ s) : Answers s₀ (execRingHeadStall st l s) :=
  .ite (.next hs) (.next hs.faultAt)

theorem Sealed.execRingFeed {st : St} (hs : Sealed s₀ s) : Answers s₀ (execRingFeed st s) := hs.issue fun _ h _ _ _ => by
    dsimp only
    refine .ite .fault ?_
    split
    · exact .fault
    · refine .ite .fault ?_
      split
      · exact .fault
      · exact h.modSt.enqueue

theorem Sealed.execRingFeedFire {st : St} {l : Lane} (hs : Sealed s₀ s) : Answers s₀ (execRingFeedFire st l s) := by
  unfold Machine.execRingFeedFire
  dsimp only
  split
  · exact .next hs
  · split
    · split
      · exact .next hs
      · exact .next hs.faultFire
      · exact .next hs.faultPoison
      · exact .next hs.modSt.flow.flow
    · split
      · split
        · exact .next hs
        · exact .next hs.faultFire
        · exact .next hs.faultPoison
        · exact .next hs.modSt.flow.flow
      · exact .next hs

theorem Sealed.execRingTake {st : St} (hs : Sealed s₀ s) : Answers s₀ (execRingTake st s) := hs.issue fun _ h _ _ _ => by
    dsimp only
    split
    · exact .fault
    · refine .ite .fault ?_
      split
      · exact .fault
      · exact h.modSt.enqueue

theorem Sealed.openOp {st : St} {l : Lane} {op : Nat} (hs : Sealed s₀ s) : Answers s₀ (openOp s st l op) := by
  unfold Machine.openOp
  dsimp only
  split
  · exact .ite (.next hs.modSt) (.next hs)
  · exact .next hs

theorem Sealed.execRingTakeFire {st : St} {l : Lane} (hs : Sealed s₀ s) : Answers s₀ (execRingTakeFire st l s) := by
  unfold Machine.execRingTakeFire
  dsimp only
  split
  · split
    · exact hs.openOp
    · split
      · exact .next hs
      · exact .next hs.faultFire
      · exact .next hs
      · exact .next hs.modSt.flow
  · exact hs.openOp
  · exact .next hs

theorem Sealed.execRingAdd {st : St} (hs : Sealed s₀ s) : Answers s₀ (execRingAdd st s) := hs.issue fun _ h _ _ _ => by
    dsimp only
    refine .ite .fault (.ite .fault (.ite h.enqueue ?_))
    split
    · exact .fault
    · exact .ite .fault h.modSt.enqueue

theorem Sealed.addOut {st : St} {l : Lane} {e : Entry} {x : AddRes} {o : Host.Outcome State Fault Refusal} (hs : Sealed s₀ s)
    (h : addOut s st l e x = some o) :
    Answers s₀ o := by
  cases x with
  | wait => cases h
  | fault => cases h; exact .next hs.faultFire
  | poison l2 => cases h; exact .next hs.faultPoison
  | ok x op => cases h; exact .next hs.modSt.flow

theorem Sealed.execRingAddFire {st : St} {l : Lane} (hs : Sealed s₀ s) : Answers s₀ (execRingAddFire st l s) := by
  unfold Machine.execRingAddFire
  dsimp only
  refine .ite (.next hs) ?_
  split
  · next heq =>
    obtain ⟨_, -, h⟩ := List.exists_of_findSome?_eq_some heq
    exact hs.addOut h
  · split
    · next heq =>
      obtain ⟨_, -, h⟩ := Option.bind_eq_some_iff.1 heq
      exact hs.addOut h
    · exact hs.openOp

/-! ### Vector unit -/

theorem Sealed.execVecSplit {st : St} (hs : Sealed s₀ s) : Answers s₀ (execVecSplit st s) := hs.issue fun _ h _ _ _ => .ite .fault h.enqueue

theorem Sealed.execVecSplitFire {st : St} (hs : Sealed s₀ s) : Answers s₀ (execVecSplitFire st s) := by
  unfold Machine.execVecSplitFire
  split
  · exact .next hs
  · exact .ite (.next hs) (.next hs.modSt)

theorem Sealed.execVecPro {st : St} (hs : Sealed s₀ s) : Answers s₀ (execVecPro st s) := hs.issue fun _ h _ _ _ => .ite .fault h.enqueue

theorem Sealed.execVecProFire {st : St} (hs : Sealed s₀ s) : Answers s₀ (execVecProFire st s) := by
  unfold Machine.execVecProFire
  split
  · exact .next hs
  · refine .ite (.next hs) ?_
    split
    · exact .next hs.faultFire
    · exact .ite (.next hs.faultFire) (.next hs.modSt)

theorem Sealed.execVecEpi {st : St} (hs : Sealed s₀ s) : Answers s₀ (execVecEpi st s) := hs.issue fun _ h _ _ _ => by
    dsimp only
    refine .ite .fault (.ite h.modSt.enqueue ?_)
    split
    · exact .fault
    · refine .ite .fault ?_
      split
      · exact .fault
      · exact h.modSt.enqueue

theorem Sealed.execVecEpiFire {st : St} (hs : Sealed s₀ s) : Answers s₀ (execVecEpiFire st s) := by
  unfold Machine.execVecEpiFire
  split
  · exact .next hs
  · refine .ite (.next hs) ?_
    split
    · exact .next hs.faultFire
    · exact .ite (.next hs.faultFire) (.next hs.modSt)

theorem Sealed.execVecOp {st : St} (hs : Sealed s₀ s) : Answers s₀ (execVecOp st s) := hs.issue fun _ h _ _ _ => by
    dsimp only
    refine .ite .fault ?_
    split
    · exact .fault
    · split
      · exact .fault
      · split
        · exact .fault
        · exact h.modSt.enqueue

theorem Sealed.vopGo {st : St} {p : Part} {x : Station} {m : VecRec} (hs : Sealed s₀ s) : Answers s₀ (vopGo s st p x m) := by
  unfold Machine.vopGo
  dsimp only
  split
  · exact .next hs.faultFire
  · split
    · exact .next hs
    · exact .next hs.faultFire
    · refine .ite (.next hs.faultFire) (.ite (.next hs.faultPoison) (.ite (.next hs.modSt) ?_))
      split
      · exact .next hs
      · split
        · exact .next hs
        · exact .next hs.faultFire
        · exact .next hs.modSt
  · exact .next hs

theorem Sealed.execVecOpFire {st : St} (hs : Sealed s₀ s) : Answers s₀ (execVecOpFire st s) := by
  unfold Machine.execVecOpFire
  dsimp only
  split
  · exact .ite hs.vopGo (.next hs)
  · split
    · exact .next hs
    · refine .ite (.next hs) ?_
      split
      · exact .next hs.faultFire
      · exact .ite (.next hs.faultFire) hs.vopGo
  · exact .next hs

theorem Sealed.execVecOpComplete {st : St} (hs : Sealed s₀ s) : Answers s₀ (execVecOpComplete st s) := by
  unfold Machine.execVecOpComplete
  split
  · exact .ite (.next hs) (.next hs.modSt)
  · exact .next hs

theorem Sealed.execVecNcomb {st : St} (hs : Sealed s₀ s) : Answers s₀ (execVecNcomb st s) := hs.issue fun _ h _ _ _ => .ite .fault h.enqueue

theorem Sealed.execVecNcombFire {st : St} (hs : Sealed s₀ s) : Answers s₀ (execVecNcombFire st s) := by
  unfold Machine.execVecNcombFire
  dsimp only
  split
  · exact .next hs
  · exact .ite (.next hs.faultPoison) (.next hs.modSt)

theorem Sealed.execVecSminit {st : St} (hs : Sealed s₀ s) : Answers s₀ (execVecSminit st s) := hs.issue fun _ h _ _ _ => .ite .fault h.enqueue

theorem Sealed.execVecSminitFire {st : St} (hs : Sealed s₀ s) : Answers s₀ (execVecSminitFire st s) := by
  unfold Machine.execVecSminitFire
  split
  · exact .next hs
  · exact .next hs.modSt

theorem Sealed.execVecRopeLoad {st : St} (hs : Sealed s₀ s) : Answers s₀ (execVecRopeLoad st s) :=
  hs.issue fun _ h _ _ _ => .ite .fault h.enqueue

theorem Sealed.execVecRopeLoadFire {st : St} (hs : Sealed s₀ s) : Answers s₀ (execVecRopeLoadFire st s) := by
  unfold Machine.execVecRopeLoadFire
  dsimp only
  split
  · exact .next hs
  · exact .ite (.next hs.faultFire) (.next hs.modSt)

/-! ### Commands of the engines, the fabric and the mordants -/

theorem Sealed.engIssue {op : Nat} {st : St} (hs : Sealed s₀ s) : Answers s₀ (engIssue op st s) := hs.issue fun _ h _ _ _ => h.enqueue

theorem Sealed.execEngRoute {st : St} (hs : Sealed s₀ s) : Answers s₀ (execEngRoute st s) := hs.engIssue

theorem Sealed.execEngXpose {st : St} (hs : Sealed s₀ s) : Answers s₀ (execEngXpose st s) := hs.engIssue

theorem Sealed.execEngMadder {st : St} (hs : Sealed s₀ s) : Answers s₀ (execEngMadder st s) := hs.engIssue

theorem Sealed.engFire {op len : Nat} {st : St} (hs : Sealed s₀ s) : Answers s₀ (engFire op len st s) := by
  unfold Machine.engFire
  dsimp only
  split
  · refine .ite (.next hs) ?_
    split
    · exact .next hs.faultFire
    · exact .ite (.next hs.faultFire) (.ite (.next hs) (.next hs.modSt.frame))
  · exact .next hs

theorem Sealed.execEngRouteFire {st : St} (hs : Sealed s₀ s) : Answers s₀ (execEngRouteFire st s) := hs.engFire

theorem Sealed.execEngXposeFire {st : St} (hs : Sealed s₀ s) : Answers s₀ (execEngXposeFire st s) := hs.engFire

theorem Sealed.execEngMadderFire {st : St} (hs : Sealed s₀ s) : Answers s₀ (execEngMadderFire st s) := hs.engFire

theorem Sealed.execNetSend {st : St} (hs : Sealed s₀ s) : Answers s₀ (execNetSend st s) := hs.issue fun _ h _ _ _ => by
    dsimp only
    split
    · exact .fault
    · refine .ite .fault ?_
      split
      · exact .fault
      · exact .ite .fault h.modSt.enqueue

theorem Sealed.execNetSendFire {st : St} (hs : Sealed s₀ s) : Answers s₀ (execNetSendFire st s) := by
  unfold Machine.execNetSendFire
  dsimp only
  split
  · split
    · exact .next hs
    · exact .ite (.next hs) (.ite (.next hs.faultFire) (.ite (.next hs.modSt.modSt.frame) (.next hs.modSt.frame)))
  · exact .next hs

theorem Sealed.execMorWait {st : St} (hs : Sealed s₀ s) : Answers s₀ (execMorWait st s) := hs.issue fun _ h _ _ _ => .ite .fault h.enqueue

theorem Sealed.failedWait {p : Part} {m pc : Nat} (hs : Sealed s₀ s) : Sealed s₀ (s.failedWait p m pc) := hs.raise

theorem Sealed.execMorWaitFire {st : St} (hs : Sealed s₀ s) : Answers s₀ (execMorWaitFire st s) := by
  unfold Machine.execMorWaitFire
  dsimp only
  split
  · exact .ite (.next hs.failedWait) (.ite (.next hs.modSt) (.next hs))
  · exact .next hs

theorem Sealed.morIssue {op : Nat} {st : St} (hs : Sealed s₀ s) : Answers s₀ (morIssue op st s) :=
  hs.issue fun _ h _ _ _ => .ite .fault (.ite .fault (.ite .fault h.enqueue))

theorem Sealed.execMorAdd {st : St} (hs : Sealed s₀ s) : Answers s₀ (execMorAdd st s) := hs.morIssue

theorem Sealed.execMorSet {st : St} (hs : Sealed s₀ s) : Answers s₀ (execMorSet st s) := hs.morIssue

theorem Sealed.morFire {op : Nat} {st : St} (hs : Sealed s₀ s) : Answers s₀ (morFire op st s) := by
  unfold Machine.morFire
  dsimp only
  split
  · refine .ite (.next hs) (.ite (.next hs.modSt.frame) (.ite ?_ (.next hs.modSt.frame)))
    split
    · exact .ite (.next hs.faultFire) (.next hs.modSt.frame)
    · exact .next hs.faultFire
  · exact .next hs

theorem Sealed.execMorAddFire {st : St} (hs : Sealed s₀ s) : Answers s₀ (execMorAddFire st s) := hs.morFire

theorem Sealed.execMorSetFire {st : St} (hs : Sealed s₀ s) : Answers s₀ (execMorSetFire st s) := hs.morFire

theorem Sealed.execMorRead {st : St} (hs : Sealed s₀ s) : Answers s₀ (execMorRead st s) := hs.issue fun _ h _ _ _ => .ite .fault h.enqueue

theorem Sealed.execMorReadFire {st : St} (hs : Sealed s₀ s) : Answers s₀ (execMorReadFire st s) := by
  unfold Machine.execMorReadFire
  dsimp only
  split
  · exact .next hs
  · exact .next hs.modSt

theorem Sealed.execMorReadRegisterWritten {st : St} (hs : Sealed s₀ s) : Answers s₀ (execMorReadRegisterWritten st s) := by
  unfold Machine.execMorReadRegisterWritten
  split
  · exact .next hs.modSt
  · exact .next hs

theorem Sealed.applyMor {m : MorOp} (hs : Sealed s₀ s) : Sealed s₀ (s.applyMor m) := .ite hs.raise (.ite hs.setMor hs.morAdd)

theorem Sealed.execMordantOperationArrival {k : Nat} (hs : Sealed s₀ s) : Answers s₀ (execMordantOperationArrival k s) := by
  unfold Machine.execMordantOperationArrival
  dsimp only
  split
  · exact .next hs
  · exact .ite (.next hs) (.ite (.next hs.frame.applyMor) (.next hs.frame))

theorem Sealed.execMordantTimeout {st : St} {u : UnitQ} (hs : Sealed s₀ s) : Answers s₀ (execMordantTimeout st u s) := by
  unfold Machine.execMordantTimeout
  split
  · exact .ite (.next hs.failedWait) (.ite (.next hs) (.next hs.faultAt))
  · exact .next hs

/-! ### Towers and stashes -/

theorem Sealed.noteEpoch {old : State} {p : Part} (hs : Sealed s₀ s) : Sealed s₀ (State.noteEpoch old p s) := .ite hs hs.notify

theorem Sealed.startCopy {t : Twr} {key : Nat} (hs : Sealed s₀ s) : Sealed s₀ (s.startCopy t key) := .ite hs.modTwr (.ite hs.saveTowerState hs)

theorem Sealed.retireBank {t : Twr} {key : Nat} (hs : Sealed s₀ s) : Sealed s₀ (s.retireBank t key) := by
  unfold State.retireBank
  dsimp only
  split
  · exact hs.startCopy
  · exact .ite hs hs.modTwr

theorem Sealed.corrected {t : Twr} {sec : Nat} (hs : Sealed s₀ s) : Sealed s₀ (s.corrected t sec) :=
  .ite hs.count.modTwr.retireBank hs.count.modTwr

theorem Sealed.uncorrectable {t : Twr} {sec : Nat} (hs : Sealed s₀ s) : Sealed s₀ (s.uncorrectable t sec) :=
  .ite hs.count.setSector.modTwr.retireBank hs.count.setSector.modTwr

theorem Sealed.sectorCheck {t : Twr} {corrected dead : List Nat} (hs : Sealed s₀ s) : Sealed s₀ (s.sectorCheck t corrected dead) :=
  (hs.foldl fun _ _ h => .ite h.corrected h).foldl fun _ _ h => .ite h.uncorrectable h

theorem Sealed.sectorsRead {t : Twr} {e : MemEcc} {a n : Nat} (hs : Sealed s₀ s) : Sealed s₀ (s.sectorsRead t e a n) := hs.sectorCheck

theorem Sealed.wordsRead {east : Bool} {e : MemEcc} {a n : Nat} (hs : Sealed s₀ s) : Sealed s₀ (s.wordsRead east e a n) :=
  hs.count.foldl fun _ _ h => .ite h h.frame.count

theorem Sealed.findings {e : MemEcc} {a n : Nat} (hs : Sealed s₀ s) : Sealed s₀ (s.findings e a n) := .ite hs (hs.foldl fun _ _ h => by
    split
    · exact h.sectorsRead
    · exact h.wordsRead
    · exact h)

theorem Sealed.mergeFindings {e : MemEcc} {a n : Nat} (hs : Sealed s₀ s) : Sealed s₀ (s.mergeFindings e a n) := by
  unfold State.mergeFindings
  split
  · exact hs.sectorCheck
  · exact hs

theorem Sealed.extentFindings {e : MemEcc} {a n : Nat} (hs : Sealed s₀ s) : Sealed s₀ (s.extentFindings e a n) := by
  unfold State.extentFindings
  split
  · exact hs.sectorsRead
  · exact hs

theorem Sealed.partRead {e : MemEcc} {a n : Nat} (hs : Sealed s₀ s) : Sealed s₀ (s.partRead e a n).2 := by
  unfold State.partRead
  split
  · split
    · exact hs.findings
    · exact hs.frame
  · exact hs.findings

theorem Sealed.devRead {e : MemEcc} {a n : Nat} (hs : Sealed s₀ s) : Sealed s₀ (s.devRead e a n).2 :=
  hs.foldlOf Prod.snd fun _ _ h => h.partRead

theorem Sealed.partWrite {e : MemEcc} {a : Nat} {l : List PByte} (hs : Sealed s₀ s) : Sealed s₀ (s.partWrite e a l) := by
  unfold State.partWrite
  split
  · exact .ite hs.mergeFindings.towerWrite hs
  · exact hs.memWrite

theorem Sealed.devWrite {e : MemEcc} {a : Nat} {l : List PByte} (hs : Sealed s₀ s) (h : s.devWrite e a l = some t) : Sealed s₀ t := by
  unfold State.devWrite at h
  split at h
  · cases h
  · cases h
    exact hs.foldl fun _ _ h => h.partWrite

theorem Sealed.devWriteD {e : MemEcc} {a : Nat} {l : List PByte} (hs : Sealed s₀ s) : Sealed s₀ ((s.devWrite e a l).getD s) := by
  cases h : s.devWrite e a l with
  | none => exact hs
  | some t => exact hs.devWrite h

theorem Sealed.serveFetch {k i : Nat} {f : Fetch} {x : ReqPart} {e : MemEcc} (hs : Sealed s₀ s) : Answers s₀ (s.serveFetch k i f x e) :=
  .ite (.next hs) (.next hs.findings.frame)

theorem Sealed.execTowerRead {k i : Nat} {e : MemEcc} (hs : Sealed s₀ s) : Answers s₀ (execTowerRead k i e s) := by
  unfold Machine.execTowerRead
  split
  · split
    · exact .ite (.next hs) hs.serveFetch
    · exact .next hs
  · exact .next hs

theorem Sealed.serveWrite {acc : Bool} {k i : Nat} {f : State → MemWrite → Nat × Nat → State} (hs : Sealed s₀ s)
    (hf : ∀ t, Sealed s₀ t → ∀ w x, Sealed s₀ (f t w x)) : Answers s₀ (s.serveWrite acc k i f) := by
  unfold State.serveWrite
  split
  · split
    · exact .ite (.next hs) (.ite (.next (hs.frame).raise) (.next ((hf _ hs _ _).frame)))
    · exact .next hs
  · exact .next hs

theorem Sealed.execTowerWrite {k i : Nat} {e : MemEcc} (hs : Sealed s₀ s) : Answers s₀ (execTowerWrite k i e s) :=
  hs.serveWrite fun _ h _ _ => h.mergeFindings.towerWrite

theorem Sealed.accWord {a : Nat} {l : List PByte} (hs : Sealed s₀ s) : Sealed s₀ (s.accWord a l).1 := by
  unfold State.accWord
  dsimp only
  split
  · exact .ite hs.setSector hs
  · exact Sealed.putBytes (.ite hs.setSector hs)

theorem Sealed.execAccumulatingWrite {k i : Nat} {e : MemEcc} (hs : Sealed s₀ s) : Answers s₀ (execAccumulatingWrite k i e s) :=
  hs.serveWrite fun _ h _ _ => Sealed.orStatus (.foldlOf Prod.fst h.extentFindings fun _ _ h => h.accWord)

theorem Sealed.scrubNext {t : Twr} {c : Fin 16} {e : MemEcc} (hs : Sealed s₀ s) : Sealed s₀ (s.scrubNext t c e) :=
  .ite hs hs.sectorsRead.modTwr

theorem Sealed.copyNext {t : Twr} {c : Fin 16} {cp : BankCopy} {e : MemEcc} (hs : Sealed s₀ s) : Sealed s₀ (s.copyNext t c cp e) :=
  hs.sectorsRead.modTwr

theorem Sealed.execMaintenanceWindow {t : Twr} {c : Fin 16} {e : MemEcc} (hs : Sealed s₀ s) : Answers s₀ (execMaintenanceWindow t c e s) := by
  unfold Machine.execMaintenanceWindow
  dsimp only
  refine .ite (.next hs) ?_
  split
  · exact .next (.ite hs.modTwr hs.modTwr.copyNext)
  · exact .next hs.modTwr.scrubNext

theorem Sealed.execBankCopyComplete {t : Twr} {c : Fin 16} (hs : Sealed s₀ s) : Answers s₀ (execBankCopyComplete t c s) := by
  unfold Machine.execBankCopyComplete
  dsimp only
  split
  · exact .next hs
  · refine .ite (.next hs) ?_
    split
    · exact .next hs.modTwr.saveBankSpares.modTwr.startCopy
    · exact .next hs.modTwr.saveBankSpares

theorem Sealed.dropDesc {dst : DescTo} {t : Twr} {unit : Nat} (hs : Sealed s₀ s) : Answers s₀ (s.dropDesc dst t unit) := by
  unfold State.dropDesc
  split
  · exact .ite (.next hs) (.next hs.frame.raise)
  · exact .next hs

theorem Sealed.execRetiredTowerAccess {a : TowerAccess} (hs : Sealed s₀ s) : Answers s₀ (execRetiredTowerAccess a s) := by
  unfold Machine.execRetiredTowerAccess
  dsimp only
  split
  · split
    · exact .ite (.next hs) (.next hs.frame)
    · exact .next hs
  · split
    · exact .ite (.next hs) (.ite (.next hs.frame) (.next hs.frame))
    · exact .next hs
  · exact hs.dropDesc
  · exact hs.dropDesc

theorem Sealed.execStashRead {k i : Nat} {e : MemEcc} (hs : Sealed s₀ s) : Answers s₀ (execStashRead k i e s) := by
  unfold Machine.execStashRead
  split
  · split
    · exact hs.serveFetch
    · exact .next hs
  · exact .next hs

theorem Sealed.execStashWrite {k i : Nat} (hs : Sealed s₀ s) : Answers s₀ (execStashWrite k i s) := by
  unfold Machine.execStashWrite
  dsimp only
  split
  · split
    · exact .ite (.next hs) (.next hs.stashWrite.frame)
    · exact .next hs
  · exact .next hs

theorem Sealed.modEpoch {t : Twr} {p : Part} {f : TowerEpoch → TowerEpoch} (hs : Sealed s₀ s) : Sealed s₀ (s.modEpoch t p f) := hs.modTwr

theorem Sealed.modBlock {t : Twr} {p : Part} {i : Nat} {f : SecBlock → SecBlock} (hs : Sealed s₀ s) : Sealed s₀ (s.modBlock t p i f) :=
  hs.modEpoch

theorem Sealed.madderStore {e : MemEcc} {a : Nat} {l : List Byte} (hs : Sealed s₀ s) : Sealed s₀ (s.madderStore e a l) :=
  hs.mergeFindings.towerWrite

theorem Sealed.copyGranule {src dst : Nat} (hs : Sealed s₀ s) : Sealed s₀ (s.copyGranule src dst) :=
  (hs.foldl fun _ _ h => h.setSector).putBytes

theorem Sealed.madderWrite {e : MemEcc} {a : Nat} {l : List Byte} (hs : Sealed s₀ s) (h : s.madderWrite e a l = some t) : Sealed s₀ t := by
  unfold State.madderWrite at h
  dsimp only at h
  split at h
  · cases h
    exact hs.madderStore
  · split at h
    · obtain ⟨_, -, rfl⟩ := Option.map_eq_some_iff.1 h
      exact Sealed.madderStore (Sealed.modBlock (.ite hs hs.sectorsRead.copyGranule))
    · cases h
      exact Sealed.madderStore (Sealed.modBlock (.ite hs hs.sectorsRead.copyGranule))
    · cases h
      exact .ite hs.madderStore hs.madderStore
    · cases h
      exact hs.madderStore

theorem Sealed.closeEpoch {t : Twr} {p : Part} (hs : Sealed s₀ s) : Sealed s₀ (s.closeEpoch t p) := by
  unfold State.closeEpoch
  split
  · exact .ite hs.modTwr hs
  · exact hs

theorem Sealed.dropHold {t : Twr} {p : Part} {ok : DescRec → Bool} (hs : Sealed s₀ s) : Sealed s₀ (s.dropHold t p ok) := hs.modTwr

/-! ### Route, Transpose and Madder engines -/

theorem Sealed.engRead {ecc : MemEcc} {w : EngAt} {p : Part} {a n : Nat} (hs : Sealed s₀ s) : Runs s₀ Prod.snd (engRead ecc w p a n s) :=
  .ite (.fault hs) (.ite .wait (.ok hs.devRead))

theorem Sealed.engValue {ecc : MemEcc} {w : EngAt} {p : Part} {a n : Nat} (hs : Sealed s₀ s) : Runs s₀ Prod.snd (engValue ecc w p a n s) := by
  have hread : Runs s₀ Prod.snd (Machine.engRead ecc w p a n s) := hs.engRead
  unfold Machine.engValue
  split
  · next heq => exact .ite (.fault (hread.1 _ heq)) (.ok (hread.1 _ heq))
  · next heq => exact ⟨fun _ h => (nomatch h), fun t c d x h => hread.2 t c d x (by cases h; exact heq)⟩

theorem Sealed.engWrite {ecc : MemEcc} {w : EngAt} {p : Part} {a : Nat} {l : List PByte} (hs : Sealed s₀ s) :
    Runs s₀ id (engWrite ecc w p a l s) := by
  refine .ite (.fault hs) (.ite .wait ?_)
  split
  · next heq => exact .ok (hs.devWrite heq)
  · exact .fault hs

theorem Sealed.takeDesc {dst : DescTo} {x : DescFlight × State} (hs : Sealed s₀ s) (h : s.takeDesc dst = some x) : Sealed s₀ x.2 := by
  obtain ⟨_, -, rfl⟩ := Option.map_eq_some_iff.1 h
  exact hs.frame

theorem Sealed.engineAdd {p : Part} {mor : Nat} (hs : Sealed s₀ s) : Sealed s₀ (s.engineAdd p mor) := hs.frame

theorem Sealed.setRouteQ {g : Eng} {p : Part} {q : List DescRec} (hs : Sealed s₀ s) : Sealed s₀ (s.setRouteQ g p q) := hs.frame

theorem Sealed.setRouteHead {g : Eng} {p : Part} {d : DescRec} (hs : Sealed s₀ s) : Sealed s₀ (s.setRouteHead g p d) := hs.setRouteQ

theorem Sealed.execRouteDescriptorArrival {g : Eng} (hs : Sealed s₀ s) : Answers s₀ (execRouteDescriptorArrival g s) := by
  unfold Machine.execRouteDescriptorArrival
  split
  · exact .next hs
  · next heq => exact .ite (.next (hs.takeDesc heq).setRouteQ) (.next (hs.takeDesc heq))

theorem Sealed.routeStart {ecc : MemEcc} {g : Eng} {p : Part} {d : DescRec} (hs : Sealed s₀ s) : Runs s₀ id (routeStart ecc g p d s) := by
  have hread : Runs s₀ Prod.snd (Machine.engValue ecc (routeEng g d) p (rtAssign d) (8 * rtTokens d * rtK d) s) := hs.engValue
  refine .ite (.fault hs) (.ite (.fault hs) ?_)
  split
  · next heq => exact .ite (.ok (hread.1 _ heq)) (.fault (hread.1 _ heq))
  · next heq => exact ⟨fun _ h => (nomatch h), fun t c d x h => hread.2 t c d x (by cases h; exact heq)⟩

theorem Sealed.gatherSlot {ecc : MemEcc} {g : Eng} {p : Part} {i : Nat} {d : DescRec} (hs : Sealed s₀ s) :
    Runs s₀ (·.2.2) (gatherSlot ecc g p i d s) :=
  hs.engValue.bind fun _ h => .ite (.ok h) (.ite (.ok h) (.ok h.count))

theorem Sealed.gatherBlock {ecc : MemEcc} {g : Eng} {p : Part} {d : DescRec} (hs : Sealed s₀ s) :
    Runs s₀ Prod.snd (gatherBlock ecc g p d s) := by
  refine Runs.iteBind (f := fun x : Option Nat × DescRec × State => x.2.2) hs.gatherSlot (.ok hs) fun x h => ?_
  obtain ⟨_ | k, d, s⟩ := x
  · exact h.engWrite.bind fun _ h => .ok h
  · exact h.engRead.bind fun _ h => h.engWrite.bind fun _ h => .iteBind (f := id) h.engWrite (.ok h) fun _ h => .ok h

theorem Sealed.gatherEnd {ecc : MemEcc} {g : Eng} {p : Part} {d : DescRec} (hs : Sealed s₀ s) : Runs s₀ id (gatherEnd ecc g p d s) :=
  hs.engWrite

theorem Sealed.gatherNext {ecc : MemEcc} {g : Eng} {p : Part} {d : DescRec} (hs : Sealed s₀ s) : Runs s₀ Prod.snd (gatherNext ecc g p d s) :=
  hs.gatherBlock.bind fun _ h => .ite (h.gatherEnd.bind fun _ h => .ok h) (.ok h)

theorem Sealed.combineChoice {ecc : MemEcc} {g : Eng} {p : Part} {d : DescRec} {o : List (Option Val) × Fl × State} {r : Nat}
    (hs : Sealed s₀ o.2.2) :
    Runs s₀ (·.2.2) (combineChoice ecc g p d o r) :=
  hs.engValue.bind fun _ h => .ite (.ok h) (h.engValue.bind fun _ h => h.engValue.bind fun _ h => .ok h)

theorem Sealed.combineNext {ecc : MemEcc} {g : Eng} {p : Part} {d : DescRec} (hs : Sealed s₀ s) :
    Runs s₀ Prod.snd (combineNext ecc g p d s) :=
  (Runs.foldlM (f := fun o : List (Option Val) × Fl × State => o.2.2) (fun _ _ h => h.combineChoice) hs).bind fun _ h => h.engWrite.bind fun _ h =>
    .ok h.orStatus

theorem Sealed.routeTry {blk : DescRec → State → Except Halt (DescRec × State)} {ecc : MemEcc} {g : Eng} {p : Part} {d : DescRec}
    (hs : Sealed s₀ s)
    (hblk : ∀ d t, Sealed s₀ t → Runs s₀ Prod.snd (blk d t)) : Runs s₀ Prod.snd (routeTry blk ecc g p d s) :=
  .iteBind (f := id) (.ok hs) hs.routeStart fun _ h => hblk _ _ h

theorem Sealed.routeRun {op : Nat} {g : Eng} {p : Part} {blk : DescRec → State → Except Halt (DescRec × State)} {ecc : MemEcc} (hs : Sealed s₀ s)
    (hblk : ∀ d t, Sealed s₀ t → Runs s₀ Prod.snd (blk d t)) : Answers s₀ (routeRun op g p blk ecc s) := by
  unfold Machine.routeRun
  split
  · exact .next hs
  · next d rest _ =>
    have hrun : Runs s₀ Prod.snd (Machine.routeTry blk ecc g p d s) := hs.routeTry hblk
    refine .ite (.next hs) ?_
    split
    · next heq => exact .next (hrun.1 _ heq).setRouteHead
    · exact .next hs
    · next heq => exact .next (hrun.2 _ _ _ _ heq).setRouteQ.raise

theorem Sealed.execRouteGather {g : Eng} {p : Part} {e : MemEcc} (hs : Sealed s₀ s) : Answers s₀ (execRouteGather g p e s) :=
  hs.routeRun fun _ _ h => h.gatherNext

theorem Sealed.execRouteCombine {g : Eng} {p : Part} {e : MemEcc} (hs : Sealed s₀ s) : Answers s₀ (execRouteCombine g p e s) :=
  hs.routeRun fun _ _ h => h.combineNext

theorem Sealed.execRouteDescriptorComplete {g : Eng} {p : Part} (hs : Sealed s₀ s) : Answers s₀ (execRouteDescriptorComplete g p s) := by
  unfold Machine.execRouteDescriptorComplete
  split
  · exact .ite (.next hs.setRouteQ.engineAdd) (.next hs)
  · exact .next hs

theorem Sealed.setXq {t : Twr} {p : Part} {q : List DescRec} (hs : Sealed s₀ s) : Sealed s₀ (s.setXq t p q) := hs.modTwr

theorem Sealed.setMq {t : Twr} {p : Part} {q : List DescRec} (hs : Sealed s₀ s) : Sealed s₀ (s.setMq t p q) := hs.modTwr

theorem Sealed.execTransposeDescriptorArrival {t : Twr} (hs : Sealed s₀ s) : Answers s₀ (execTransposeDescriptorArrival t s) := by
  unfold Machine.execTransposeDescriptorArrival
  split
  · exact .next hs
  · next heq => exact .ite (.next hs) (.ite (.next (hs.takeDesc heq).setXq) (.next (hs.takeDesc heq)))

theorem Sealed.carryPoison {a : Nat} {l : List PByte} (hs : Sealed s₀ s) : Sealed s₀ (s.carryPoison a l) := by
  unfold State.carryPoison
  split
  · exact .ite (hs.foldl fun _ _ h => h.setSector) hs
  · exact hs

theorem Sealed.xposeElem {ecc : MemEcc} {p : Part} {site : EngAt} {d : DescRec} {i : Nat} (hs : Sealed s₀ s) :
    Runs s₀ id (xposeElem ecc p site d s i) :=
  hs.engRead.bind fun _ h => h.engWrite.bind fun _ h => .ok h.carryPoison

theorem Sealed.execTransposeRun {t : Twr} {p : Part} {e : MemEcc} (hs : Sealed s₀ s) : Answers s₀ (execTransposeRun t p e s) := by
  unfold Machine.execTransposeRun
  dsimp only
  split
  · exact .next hs
  · next d rest _ =>
    have hrun : Runs s₀ id ((List.range (xpNext d)).foldlM (fun s i => Machine.xposeElem e p (xposeEng t d) d s (d.done + i)) s) :=
      Runs.foldlM (f := id) (fun _ _ h => Sealed.xposeElem h) hs
    refine .ite (.next hs) (.ite (.next hs.setXq.raise) (.ite (.next hs.setXq.raise) (.ite (.next hs) ?_)))
    split
    · next heq => exact .next (hrun.1 _ heq).setXq
    · exact .next hs
    · next heq => exact .next (hrun.2 _ _ _ _ heq).setXq.raise

theorem Sealed.execTransposeComplete {t : Twr} {p : Part} (hs : Sealed s₀ s) : Answers s₀ (execTransposeComplete t p s) := by
  unfold Machine.execTransposeComplete
  split
  · exact .ite (.next hs.setXq.engineAdd) (.next hs)
  · exact .next hs

theorem Sealed.execMadderDescriptorArrival {t : Twr} (hs : Sealed s₀ s) : Answers s₀ (execMadderDescriptorArrival t s) := by
  unfold Machine.execMadderDescriptorArrival
  split
  · exact .next hs
  · next heq => exact .ite (.next hs) (.ite (.next (hs.takeDesc heq).setMq) (.next (hs.takeDesc heq)))

theorem Sealed.madderRead {ecc : MemEcc} {site : Site} {a n : Nat} (hs : Sealed s₀ s) : Runs s₀ Prod.snd (madderRead ecc site a n s) := by
  unfold Machine.madderRead
  dsimp only
  split
  · exact .fault hs.findings
  · exact .ok hs.findings

theorem Sealed.madderFlow {ecc : MemEcc} {l : List (Nat × List Byte)} : ∀ {s : State}, Sealed s₀ s → Sealed s₀ (madderFlow ecc l s).2 := by
  induction l with
  | nil => exact fun hs => hs
  | cons w l ih =>
    intro s hs
    unfold Machine.madderFlow
    split
    · exact hs
    · exact ih hs.madderStore

theorem Sealed.groupElems {ecc : MemEcc} {site : Site} {d : DescRec} {n : Nat} (hs : Sealed s₀ s) :
    Runs s₀ Prod.snd (groupElems ecc site d n s) :=
  hs.madderRead.bind fun _ h => .ite (.ok h) (h.madderRead.bind fun _ h => .iteBind (f := Prod.snd) (.ok h) h.madderRead fun _ h =>
    .iteBind (f := Prod.snd) (.ok h) h.madderRead fun _ h => .ok h)

theorem Sealed.madderStart {ecc : MemEcc} {t : Twr} {p : Part} {d : DescRec} (hs : Sealed s₀ s) :
    Runs s₀ Prod.snd (madderStart ecc t p d s) :=
  .ite (.fault hs) (.ite (.fault hs) (hs.madderRead.bind fun _ h => .ok (.ite h.modTwr.modPart.orStatus.count h.modTwr.modPart)))

theorem Sealed.madderMove {ecc : MemEcc} {site : Site} {d : DescRec} {n : Nat} (hs : Sealed s₀ s) :
    Runs s₀ Prod.snd (madderMove ecc site d n s) :=
  hs.groupElems.bind fun _ h => .ok (Sealed.orStatus (Sealed.madderFlow h))

theorem Sealed.madderTry {ecc : MemEcc} {t : Twr} {p : Part} {d : DescRec} {n : Nat} (hs : Sealed s₀ s) :
    Runs s₀ Prod.snd (madderTry ecc t p d n s) :=
  .iteBind (f := Prod.snd) (.ok hs) hs.madderStart fun _ h => h.madderMove

theorem Sealed.madderRun {mode : Nat} {t : Twr} {p : Part} {ecc : MemEcc} (hs : Sealed s₀ s) : Answers s₀ (madderRun mode t p ecc s) := by
  rw [madderRun_eq]
  split
  · exact .next hs
  · next d rest _ =>
    have hrun : Runs s₀ Prod.snd (Machine.madderTry ecc t p d (min 1024 (mdCount d - d.done)) s) := hs.madderTry
    refine .ite (.next hs) (.ite (.ite (.next hs) (.next hs.setMq.count)) (.ite (.next hs) ?_))
    split
    · next heq => exact .next (hrun.1 _ heq).setMq
    · exact .next hs
    · next heq => exact .next (hrun.2 _ _ _ _ heq).setMq.raise

theorem Sealed.execMadderAdaptiveUpdate {t : Twr} {p : Part} {e : MemEcc} (hs : Sealed s₀ s) :
    Answers s₀ (execMadderAdaptiveUpdate t p e s) :=
  hs.madderRun

theorem Sealed.execMadderMomentumUpdate {t : Twr} {p : Part} {e : MemEcc} (hs : Sealed s₀ s) :
    Answers s₀ (execMadderMomentumUpdate t p e s) :=
  hs.madderRun

theorem Sealed.execMadderComplete {t : Twr} {p : Part} (hs : Sealed s₀ s) : Answers s₀ (execMadderComplete t p s) := by
  unfold Machine.execMadderComplete
  dsimp only
  split
  · exact .ite (.next hs.modTwr.engineAdd) (.next hs)
  · exact .next hs

theorem Sealed.execSecuredBlockWrite {t : Twr} {p : Part} {e : MemEcc} (hs : Sealed s₀ s) : Answers s₀ (execSecuredBlockWrite t p e s) := by
  unfold Machine.execSecuredBlockWrite
  dsimp only
  split
  · split
    · refine .ite (.next hs) ?_
      split
      · next heq => exact .next (hs.madderWrite heq).madderFlow.setMq
      · exact .next hs.setMq
    · exact .next hs
  · exact .next hs

theorem Sealed.execCopyBackGranule {t : Twr} {p : Part} {blk : Nat} {g : Fin 16} {e : MemEcc} (hs : Sealed s₀ s) :
    Answers s₀ (execCopyBackGranule t p blk g e s) := by
  unfold Machine.execCopyBackGranule
  dsimp only
  split
  · exact .next hs
  · split
    · exact .ite (.next hs) (.next hs.sectorsRead.copyGranule.modBlock.closeEpoch.dropHold.noteEpoch)
    · exact .next hs

/-! ### Known-answer tests -/

theorem Sealed.cleanImages {p : Part} (hs : Sealed s₀ s) : Sealed s₀ (s.cleanImages p) := by
  unfold State.cleanImages
  dsimp only
  split
  · exact hs
  · exact hs.modPart

theorem Sealed.stationPass {st : St} (hs : Sealed s₀ s) : Sealed s₀ (s.stationPass st) := by
  unfold State.stationPass
  dsimp only
  split
  · exact .ite hs.modHealth.setReg.modPart.cleanImages hs.modHealth
  · exact hs.modHealth

theorem Sealed.kernelPassed {st : St} {k : Nat} (hs : Sealed s₀ s) : Sealed s₀ (s.kernelPassed st k) :=
  .ite hs.modHealth.stationPass hs.modHealth

theorem Sealed.kernelFailed {st : St} {k : Nat} (hs : Sealed s₀ s) : Sealed s₀ (s.kernelFailed st k) :=
  .modHealth (.ite hs.suspect.saveObserved hs.suspect)

theorem Sealed.execChkKat {st : St} (hs : Sealed s₀ s) : Answers s₀ (execChkKat st s) := hs.issue fun _ h _ _ _ => .ite .fault h.enqueue

theorem Sealed.startSlice {st : St} {pc : Nat} {direct : Bool} (hs : Sealed s₀ s) : Sealed s₀ (s.startSlice st pc direct) := hs.modHealth.modSt

theorem Sealed.execChkKatFire {st : St} (hs : Sealed s₀ s) : Answers s₀ (execChkKatFire st s) := by
  unfold Machine.execChkKatFire
  split
  · exact .ite (.next hs) (.next hs.modSt.startSlice)
  · exact .next hs

theorem Sealed.endSlice {st : St} {b : SliceBits} (hs : Sealed s₀ s) : Sealed s₀ (s.endSlice st b) := hs.frame.count.modSt

theorem Sealed.sliceClock {st : St} (hs : Sealed s₀ s) : Sealed s₀ (s.sliceClock st) := .ite hs.setReg hs

theorem Sealed.directFails {st : St} {k : Nat} (hs : Sealed s₀ s) : Sealed s₀ (s.directFails st k) := hs.kernelFailed.modHealth

theorem Sealed.execTestSliceEnd {st : St} {b : SliceBits} (hs : Sealed s₀ s) : Answers s₀ (execTestSliceEnd st b s) := by
  unfold Machine.execTestSliceEnd
  dsimp only
  split
  · exact .next hs
  · exact .ite (.next (.kernelPassed (.ite hs.endSlice.modHealth.sliceClock hs.endSlice.modHealth)))
      (.next (.ite (.directFails (.ite hs.endSlice.modHealth.sliceClock hs.endSlice.modHealth))
      (.kernelFailed (.faultAt (.ite hs.endSlice.modHealth.sliceClock hs.endSlice.modHealth)))))

theorem Sealed.execDirectTestSlice {st : St} (hs : Sealed s₀ s) : Answers s₀ (execDirectTestSlice st s) :=
  .ite (.next hs) (.next hs.startSlice.setReg)

theorem Sealed.execKatQueueFill {st : St} {count : Nat} (hs : Sealed s₀ s) : Answers s₀ (execKatQueueFill st count s) :=
  .ite (.next hs) (.next hs.modHealth)

theorem Sealed.slicesRun {st : St} {k : Nat} (hs : Sealed s₀ s) : Sealed s₀ (s.slicesRun st k) := hs.frame.count.modSt

theorem Sealed.isolationRun {st : St} (hs : Sealed s₀ s) : Sealed s₀ (s.isolationRun st) := hs.frame.count.modSt

theorem Sealed.execIdleStationRotation {st : St} {fail : Option (Nat × SliceBits)} (hs : Sealed s₀ s) :
    Answers s₀ (execIdleStationRotation st fail s) := by
  unfold Machine.execIdleStationRotation
  dsimp only
  refine .ite (.next hs) ?_
  split
  · exact .next hs.slicesRun.modHealth
  · exact .ite (.next hs) (.next (.directFails (.endSlice (.ite hs hs.slicesRun))))

theorem Sealed.execSequencerCompareMismatch {st : St} (hs : Sealed s₀ s) : Answers s₀ (execSequencerCompareMismatch st s) :=
  .next hs.modSt.faultAt

theorem Sealed.execObservationExpiry {st : St} (hs : Sealed s₀ s) : Answers s₀ (execObservationExpiry st s) :=
  .ite (.next hs.saveObserved.breakHour) (.next hs)

/-! ### Epochs -/

theorem Sealed.modSec {p : Part} {f : Secure → Secure} (hs : Sealed s₀ s) : Sealed s₀ (s.modSec p f) := hs.modPart

theorem Sealed.dropStepHolds {p : Part} (hs : Sealed s₀ s) : Sealed s₀ (s.dropStepHolds p) := hs.foldl fun _ _ h => h.dropHold

theorem Sealed.openEpoch {p : Part} {step : W64} {tier : Nat} {e : MemEcc} (hs : Sealed s₀ s) : Sealed s₀ (s.openEpoch p step tier e) :=
  (hs.devRead.foldl fun _ _ h => .ite h h.modTwr).setReg.modSec.noteEpoch

theorem Sealed.dropEpoch {p : Part} (hs : Sealed s₀ s) : Sealed s₀ (s.dropEpoch p) := by
  unfold State.dropEpoch
  exact Sealed.modSec (hs.foldl fun _ _ h => h.modEpoch.closeEpoch.dropHold)

theorem Sealed.abortEpoch {p : Part} (hs : Sealed s₀ s) : Sealed s₀ (s.abortEpoch p) := .ite hs hs.dropEpoch.count.noteEpoch

theorem Sealed.towerGone {t : Twr} {p : Part} (hs : Sealed s₀ s) : Sealed s₀ (s.towerGone t p) := by
  unfold State.towerGone
  exact Sealed.noteEpoch (.modTwr (.ite (.setReg (.ite hs.dropEpoch hs)) hs))

theorem Sealed.strike {p : Part} {cls detail : Nat} {l : List (St × Nat × Nat)} (hs : Sealed s₀ s) : Sealed s₀ (s.strike p cls detail l) :=
  hs.foldl fun _ _ h => h.raise

theorem Sealed.execTowerLoss {t : Twr} (hs : Sealed s₀ s) : Answers s₀ (execTowerLoss t s) :=
  .ite (.next hs) (.next (hs.modTwr.foldl fun _ _ h => .ite h (.ite h.strike.towerGone.raise h.strike.towerGone)).saveTowerState.resetCrossings)

theorem Sealed.retireTower {p : Part} {t : Twr} (hs : Sealed s₀ s) : Sealed s₀ (s.retireTower p t) :=
  .ite hs.towerGone.modTwr.saveTowerState.resetCrossings hs.towerGone.modTwr

theorem Sealed.abortWhere {p : Part} {ok : Image → Bool} (hs : Sealed s₀ s) : Sealed s₀ (s.abortWhere p ok) := by
  unfold State.abortWhere
  dsimp only
  split
  · exact .ite (.abortEpoch (.ite hs hs.modSec.count)) (.ite hs hs.modSec.count)
  · exact .ite hs hs.modSec.count

theorem Sealed.abortTier {ok : Part → Image → Bool} (hs : Sealed s₀ s) : Sealed s₀ (s.abortTier ok) := hs.foldl fun _ _ h => h.abortWhere

theorem Sealed.abortPort {q : PortId} (hs : Sealed s₀ s) : Sealed s₀ (s.abortPort q) := hs.abortTier

theorem Sealed.holdImage {p : Part} {i : Image} (hs : Sealed s₀ s) : Sealed s₀ (s.holdImage p i) := hs.modSec.dropStepHolds

theorem Sealed.completeImage {p : Part} (hs : Sealed s₀ s) : Sealed s₀ (s.completeImage p) := by
  unfold State.completeImage
  split
  · exact hs
  · exact hs.modSec.holdImage

theorem Sealed.completeLate {p : Part} {k : Nat} (hs : Sealed s₀ s) : Sealed s₀ (s.completeLate p k) := by
  unfold State.completeLate
  split
  · exact hs
  · exact hs.modSec.holdImage

theorem Sealed.retireSepia (hs : Sealed s₀ s) : Sealed s₀ s.retireSepia := hs.saveSepiaWear.abortTier

/-! ### Calendar -/

theorem Sealed.modPort {p : PortId} {f : Port → Port} (hs : Sealed s₀ s) : Sealed s₀ (s.modPort p f) := hs.frame

theorem Sealed.setTimeStatus {depth : Nat} {lastResort aligned : Bool} {off : Nat} (hs : Sealed s₀ s) :
    Sealed s₀ (s.setTimeStatus depth lastResort aligned off) :=
  hs.setReg

theorem Sealed.timeEvent (hs : Sealed s₀ s) : Sealed s₀ s.timeEvent := hs.foldl fun _ _ h => .ite h.raise h

theorem Sealed.unalign (hs : Sealed s₀ s) : Sealed s₀ s.unalign := .ite hs.setReg.timeEvent hs

theorem Sealed.timeLost {q : PortId} (hs : Sealed s₀ s) : Sealed s₀ (s.timeLost q) := .ite (.unalign (.ite hs.frame hs)) (.ite hs.frame hs)

theorem Sealed.checkParent (hs : Sealed s₀ s) : Sealed s₀ s.checkParent := .ite hs.unalign hs

theorem Sealed.roleChanged (hs : Sealed s₀ s) : Sealed s₀ s.roleChanged := .ite hs.frame.setReg hs.frame.checkParent

theorem Sealed.pruneRaises {p : Part} {st : St} (hs : Sealed s₀ s) : Sealed s₀ (s.pruneRaises p st) := hs.modSt

theorem Sealed.ageWaits {st : St} (hs : Sealed s₀ s) : Sealed s₀ (s.ageWaits st) := hs.modSt

theorem Sealed.stationFrame {p : Part} {f : W64} {fresh : Bool} {st : St} (hs : Sealed s₀ s) : Sealed s₀ (s.stationFrame p f fresh st) :=
  .modSt (.ite (.ite hs.ageWaits hs) (.count (.ite hs.ageWaits hs)))

theorem Sealed.partFrame {p : Part} (hs : Sealed s₀ s) : Sealed s₀ (s.partFrame p) := .ite hs (hs.modPart.foldl fun _ _ h => h.stationFrame)

theorem Sealed.portFrame {q : PortId} (hs : Sealed s₀ s) : Sealed s₀ (s.portFrame q) := hs.modPort

theorem Sealed.marginFrame {st : St} (hs : Sealed s₀ s) : Sealed s₀ (s.marginFrame st) := .ite hs.modHealth.suspect.modHealth hs.modHealth

theorem Sealed.countSc {p : Part} (hs : Sealed s₀ s) : Sealed s₀ (s.countSc p) := .ite hs (hs.foldl fun _ _ h => h.modHealth)

theorem Sealed.execFrameMark (hs : Sealed s₀ s) : Answers s₀ (execFrameMark s) :=
  .ite (.next hs) (.next ((((hs.foldl fun _ _ h => h.marginFrame).foldl fun _ _ h => h.countSc).frame.foldl fun _ _ h => h.portFrame).frame.foldl
    fun _ _ h => h.partFrame))

theorem Sealed.checkLink {p : Part} {w : Nat} {q : PortId} (hs : Sealed s₀ s) : Sealed s₀ (s.checkLink p w q) :=
  .ite hs (.ite hs.modPort hs.raise)

theorem Sealed.partWindow {w : Nat} {p : Part} (hs : Sealed s₀ s) : Sealed s₀ (s.partWindow w p) :=
  .ite hs.modPart (.modPart (.foldl (.ite (.count (.ite (hs.foldl fun _ _ h => h.checkLink) hs)) (.ite (hs.foldl fun _ _ h => h.checkLink) hs))
    (fun _ _ h => h.pruneRaises)))

theorem Sealed.execWindowMark (hs : Sealed s₀ s) : Answers s₀ (execWindowMark s) :=
  .ite (.next hs) (.next (hs.frame.foldl fun _ _ h => h.partWindow).frame)

theorem Sealed.execHoldSightGap {port : PortId} (hs : Sealed s₀ s) : Answers s₀ (execHoldSightGap port s) :=
  .ite (.next hs) (.next hs.modPort.count)

theorem Sealed.execSightGapDeferredCheck {port : PortId} (hs : Sealed s₀ s) : Answers s₀ (execSightGapDeferredCheck port s) := by
  unfold Machine.execSightGapDeferredCheck
  dsimp only
  split
  · exact .ite (.next hs) (.ite (.next hs.modPort) (.next hs.modPort.raise))
  · exact .next hs

theorem Sealed.execHoldStallLimit {p : Part} (hs : Sealed s₀ s) : Answers s₀ (execHoldStallLimit p s) :=
  .ite (.next hs) (.next ((hs.foldl fun _ _ h => h.pruneRaises).foldl fun _ _ h => h.raise))

theorem Sealed.execTransferStart {st : St} {u : UnitQ} (hs : Sealed s₀ s) : Answers s₀ (execTransferStart st u s) := by
  unfold Machine.execTransferStart
  dsimp only
  split
  · exact .ite (.next hs.failedWait) (.ite (.next hs) (.next hs.modSt))
  · exact .next hs

theorem Sealed.shareOf {p : Part} {st : St} (hs : Sealed s₀ s) : Sealed s₀ (s.shareOf p st) := .ite hs.setReg.modHealth.raise hs.setReg.modHealth

theorem Sealed.execTestShareSpanEnd {p : Part} (hs : Sealed s₀ s) : Answers s₀ (execTestShareSpanEnd p s) :=
  .ite (.next hs) (.next (hs.modPart.foldl fun _ _ h => h.shareOf))

theorem Sealed.execFlitArrivalAtRouter {node : Fin 192} {inp : Dir} {f : MeshFlit} (hs : Sealed s₀ s) :
    Answers s₀ (execFlitArrivalAtRouter node inp f s) := by
  unfold Machine.execFlitArrivalAtRouter
  dsimp only
  refine .ite (.next hs) (.ite (.next hs.raise) ?_)
  split
  · exact .next (.ite hs.frame.count hs.frame)
  · exact .next (.ite (.raise (.ite hs.frame.count hs.frame)) (.raise (.raise (.ite hs.frame.count hs.frame))))

/-! ### Links -/

theorem Sealed.sendBlock {q : PortId} {b : List Byte} (hs : Sealed s₀ s) : Sealed s₀ (s.sendBlock q b) := hs.emit

theorem Sealed.showPort {q : PortId} {v : Nat} {fallback reversed : Bool} (hs : Sealed s₀ s) : Sealed s₀ (s.showPort q v fallback reversed) :=
  hs.setReg

theorem Sealed.setPortState {q : PortId} {v : Nat} (hs : Sealed s₀ s) : Sealed s₀ (s.setPortState q v) :=
  .ite hs.showPort (.ite hs.showPort.setReg.setReg hs.showPort.setReg)

theorem Sealed.setPortFlags {q : PortId} {fallback reversed : Bool} (hs : Sealed s₀ s) : Sealed s₀ (s.setPortFlags q fallback reversed) :=
  hs.showPort

theorem Sealed.lossNotice {q : PortId} (hs : Sealed s₀ s) : Sealed s₀ (s.lossNotice q) :=
  (hs.foldl fun _ _ h => h.modSt).frame.foldl fun _ _ h => h.faultAt

theorem Sealed.dropXfers {q : PortId} (hs : Sealed s₀ s) : Sealed s₀ (s.dropXfers q) := hs.frame.foldl fun _ _ h => h.faultAt

theorem Sealed.portLoss {q : PortId} (hs : Sealed s₀ s) : Sealed s₀ (s.portLoss q) := by
  unfold State.portLoss
  dsimp only
  split
  · exact Sealed.count (Sealed.abortPort (Sealed.dropXfers (Sealed.lossNotice (.ite hs.modPort.raise hs.modPort))))
  · exact hs.modPort.lossNotice.dropXfers.abortPort.count

theorem Sealed.sendControl {q : PortId} {msg mid part parts : Nat} {body : List Byte} (hs : Sealed s₀ s) :
    Sealed s₀ (s.sendControl q msg mid part parts body) :=
  hs.sendBlock.modPort

theorem Sealed.tellNow {q : PortId} {msg : Nat} {body : List Byte} (hs : Sealed s₀ s) : Sealed s₀ (s.tellNow q msg body) :=
  hs.sendControl.modPort

theorem Sealed.ackNow {q : PortId} (hs : Sealed s₀ s) : Sealed s₀ (s.ackNow q) := hs.sendControl

theorem Sealed.startTraining {q : PortId} (hs : Sealed s₀ s) : Sealed s₀ (s.startTraining q) := hs.modPort

theorem Sealed.retrain {q : PortId} (hs : Sealed s₀ s) : Sealed s₀ (s.retrain q) :=
  .ite hs.portLoss.modPort.startTraining.setPortState.timeLost hs.portLoss.setPortState.timeLost

theorem Sealed.askRetrain {q : PortId} (hs : Sealed s₀ s) : Sealed s₀ (s.askRetrain q) := .ite hs hs.modPort

theorem Sealed.loseTo {q : PortId} {v : Nat} (hs : Sealed s₀ s) : Sealed s₀ (s.loseTo q v) := hs.portLoss.setPortState.timeLost

theorem Sealed.portDown {q : PortId} (hs : Sealed s₀ s) : Sealed s₀ (s.portDown q) := hs.modPort.setPortState

theorem Sealed.goodbye {q : PortId} (hs : Sealed s₀ s) : Sealed s₀ (s.goodbye q) := .ite hs.tellNow.loseTo (.ite hs hs.portDown)

theorem Sealed.closePort {q : PortId} (hs : Sealed s₀ s) : Sealed s₀ (s.closePort q) := .ite hs.tellNow.portDown hs.goodbye

theorem Sealed.askGoodbye {q : PortId} (hs : Sealed s₀ s) : Sealed s₀ (s.askGoodbye q) := .ite hs.goodbye (.ite hs hs.modPort)

theorem Sealed.stopPort {q : PortId} (hs : Sealed s₀ s) : Sealed s₀ (s.stopPort q) :=
  .ite hs.loseTo (.ite hs.tellNow.portDown (.ite hs hs.portDown))

theorem Sealed.trainingFailed {q : PortId} (hs : Sealed s₀ s) : Sealed s₀ (s.trainingFailed q) := .modPort (.ite hs.modPort.loseTo hs)

theorem Sealed.toFallback {q : PortId} (hs : Sealed s₀ s) : Sealed s₀ (s.toFallback q) := hs.setPortFlags.modPort.setPortState

theorem Sealed.trainFail {q : PortId} (hs : Sealed s₀ s) : Sealed s₀ (s.trainFail q) := .ite hs.trainingFailed hs.toFallback

theorem Sealed.execTrainingSetsDetected {port : PortId} {sets : List (Fin 17 × BitVec 256)} (hs : Sealed s₀ s) :
    Answers s₀ (execTrainingSetsDetected port sets s) := by
  unfold Machine.execTrainingSetsDetected
  dsimp only
  refine .ite (.next hs) (.ite ?_ (.ite (.next hs.toFallback) (.next hs)))
  split
  · exact .next hs.setReg.trainingFailed
  · exact .next hs.setPortFlags.modPort.startTraining.setPortState

theorem Sealed.assignLanes {q : PortId} {rx tx : Option Nat} (hs : Sealed s₀ s) : Sealed s₀ (s.assignLanes q rx tx) :=
  .ite hs.modPort.setReg hs.modPort.setReg.saveLaneSpares

theorem Sealed.execEqualiseComplete {port : PortId} {rxOut txOut : Option (Fin 17)} (hs : Sealed s₀ s) :
    Answers s₀ (execEqualiseComplete port rxOut txOut s) :=
  .ite (.next hs.assignLanes.setPortState) (.next hs)

theorem Sealed.execEqualiseTimeout {port : PortId} (hs : Sealed s₀ s) : Answers s₀ (execEqualiseTimeout port s) :=
  .ite (.next hs.trainFail) (.next hs)

theorem Sealed.execAlignTimeout {port : PortId} (hs : Sealed s₀ s) : Answers s₀ (execAlignTimeout port s) :=
  .ite (.next hs.trainFail) (.next hs)

theorem Sealed.execAlignComplete {port : PortId} (hs : Sealed s₀ s) : Answers s₀ (execAlignComplete port s) := by
  unfold Machine.execAlignComplete
  dsimp only
  split
  · exact .next hs
  · exact .ite (.next hs) (.next hs.setReg.modPort.setPortState.frame)

theorem Sealed.execTrainingRetry {port : PortId} {rxFail txFail : Nat} (hs : Sealed s₀ s) :
    Answers s₀ (execTrainingRetry port rxFail txFail s) :=
  .ite (.next hs) (.ite (.next hs.modPort.setPortState)
    (.ite (.next hs.modPort.modPort.savePortRetired.setPortState) (.next hs.modPort.modPort.setPortState)))

theorem Sealed.refuseEnd {q : PortId} (hs : Sealed s₀ s) : Sealed s₀ (s.refuseEnd q) :=
  .ite hs.modPort.modPort.setPortState hs.modPort.setPortState

theorem Sealed.recordRefusal {q : PortId} {code : Nat} (hs : Sealed s₀ s) : Sealed s₀ (s.recordRefusal q code) := hs.setReg.modPort

theorem Sealed.refuse {q : PortId} {code : Nat} (hs : Sealed s₀ s) : Sealed s₀ (s.refuse q code) := hs.recordRefusal.refuseEnd

theorem Sealed.verdict {q : PortId} {code : Nat} (hs : Sealed s₀ s) : Sealed s₀ (s.verdict q code) := .modPort (.ite hs hs.recordRefusal)

theorem Sealed.msgEnd {q : PortId} {m : LinkMsg} {given : Bool} (hs : Sealed s₀ s) : Sealed s₀ (s.msgEnd q m given) := by
  unfold State.msgEnd
  split
  · exact .ite hs.refuse hs
  · exact .ite hs.refuse hs
  · exact .ite hs.refuse hs
  · exact .ite hs.refuseEnd (.ite hs (.ite hs.loseTo hs.portDown))
  · exact .ite hs.loseTo hs
  · exact hs.retrain
  · exact hs.loseTo
  · exact hs

theorem Sealed.cover {q : PortId} {amid : Byte} (hs : Sealed s₀ s) : Sealed s₀ (s.cover q amid) := hs.foldl fun _ _ h => .ite h.modPort.msgEnd h

theorem Sealed.heard {q : PortId} {ids : MsgIds} (hs : Sealed s₀ s) : Sealed s₀ (s.heard q ids) := hs.modPort.cover

theorem Sealed.enterUp {q : PortId} (hs : Sealed s₀ s) : Sealed s₀ (s.enterUp q) := by
  unfold State.enterUp
  dsimp only
  split
  · exact .ite hs.modPort.setPortState.setReg hs
  · exact hs

theorem Sealed.execHello {port : PortId} {ids : MsgIds} {h : HelloBody} (hs : Sealed s₀ s) : Answers s₀ (execHello port ids h s) :=
  .ite (.next hs) (.ite (.next hs.heard) (.next hs.heard.modPort))

theorem Sealed.execChain {port : PortId} {ids : MsgIds} {ok : Bool} (hs : Sealed s₀ s) : Answers s₀ (execChain port ids ok s) := by
  unfold Machine.execChain
  dsimp only
  refine .ite (.next hs) ?_
  split
  · exact .next hs
  · exact .ite (.next hs.heard) (.next hs.heard.modPort)

theorem Sealed.execProof {port : PortId} {ids : MsgIds} {ok : Bool} (hs : Sealed s₀ s) : Answers s₀ (execProof port ids ok s) := by
  unfold Machine.execProof
  dsimp only
  split
  · exact .ite (.next hs) (.ite (.next hs.heard) (.next hs.heard.verdict))
  · exact .next hs

theorem Sealed.execVerdict {port : PortId} {ids : MsgIds} {code : Byte} (hs : Sealed s₀ s) : Answers s₀ (execVerdict port ids code s) :=
  .ite (.next hs) (.ite (.next hs.heard) (.ite (.next hs.heard.modPort.enterUp) (.next hs.heard.ackNow.refuse)))

theorem Sealed.execAuthTimeout {port : PortId} (hs : Sealed s₀ s) : Answers s₀ (execAuthTimeout port s) :=
  .ite (.next hs) (.ite (.next hs.refuseEnd) (.next hs.verdict))

theorem Sealed.execLinkControlRepeat {port : PortId} (hs : Sealed s₀ s) : Answers s₀ (execLinkControlRepeat port s) := by
  unfold Machine.execLinkControlRepeat
  split
  · exact .next hs
  · exact .ite (.next hs.modPort) (.next hs.modPort.msgEnd)

theorem Sealed.execLinkControlAck {port : PortId} {amid : Byte} (hs : Sealed s₀ s) : Answers s₀ (execLinkControlAck port amid s) :=
  .next hs.cover

theorem Sealed.sendIdle {q : PortId} (hs : Sealed s₀ s) : Sealed s₀ (s.sendIdle q) := hs.sendBlock

theorem Sealed.sendSeq {q : PortId} {b : Block} {e : BufferEcc} (hs : Sealed s₀ s) : Sealed s₀ (s.sendSeq q b e) :=
  .modPort (.ite hs.sendBlock.count hs.sendBlock)

theorem Sealed.sendMsg {q : PortId} {m : LinkMsg} (hs : Sealed s₀ s) : Sealed s₀ (s.sendMsg q m) := hs.sendControl.modPort

theorem Sealed.sendTime {q : PortId} {b : List Byte} (hs : Sealed s₀ s) : Sealed s₀ (s.sendTime q b) := hs.sendBlock.modPort.frame

theorem Sealed.linkSlot {q : PortId} {e : BufferEcc} (hs : Sealed s₀ s) : Sealed s₀ (s.linkSlot q e) := by
  unfold State.linkSlot
  split
  · exact hs.sendIdle
  · exact .ite hs.askRetrain.sendIdle hs.frame.sendSeq

theorem Sealed.execBlockSlot {port : PortId} {slot : Fin 752} {e : BufferEcc} (hs : Sealed s₀ s) :
    Answers s₀ (execBlockSlot port slot e s) := by
  unfold Machine.execBlockSlot
  dsimp only
  refine .ite (.next hs) (.ite ?_ ?_)
  · split
    · exact .next hs.modPort.sendTime
    · exact .ite (.next hs.modPort.sendTime) (.next hs.modPort.sendIdle)
  · split
    · exact .next hs.modPort.sendMsg.enterUp
    · refine .ite (.next hs.modPort.ackNow) (.ite (.next hs.modPort.sendIdle) ?_)
      split
      · exact .next hs.modPort.sendTime
      · split
        · exact .next hs.modPort.sendSeq
        · exact .ite (.next hs.modPort.sendIdle) (.next hs.modPort.linkSlot)

theorem Sealed.onAck {q : PortId} {a : Nat} {nak : Bool} (hs : Sealed s₀ s) : Sealed s₀ (s.onAck q a nak) :=
  .ite hs (.ite hs.frame.modPort.count hs.frame)

theorem Sealed.seeHold {q : PortId} {w : Nat} (hs : Sealed s₀ s) : Sealed s₀ (s.seeHold q w) := by
  unfold State.seeHold
  dsimp only
  split
  · exact .ite hs.modPort.modPart hs.modPort
  · exact hs.modPort

theorem Sealed.onHold {q : PortId} {hold : Bool} {hwin : Nat} (hs : Sealed s₀ s) : Sealed s₀ (s.onHold q hold hwin) := by
  unfold State.onHold
  dsimp only
  refine .ite hs ?_
  split
  · exact hs.seeHold
  · exact hs.seeHold
  · split
    · exact .ite hs.raise hs.modPort
    · exact hs
  · exact hs

theorem Sealed.deliver {q : PortId} {b : Block} (hs : Sealed s₀ s) : Sealed s₀ (s.deliver q b) := .ite hs.count (.ite hs.modPort hs.modPort)

theorem Sealed.timeArrives {q : PortId} {l : List Byte} (hs : Sealed s₀ s) : Sealed s₀ (s.timeArrives q l) := .ite hs hs.modPort.frame

theorem Sealed.unsequenced {q : PortId} {type seq : Nat} {payload : List Byte} (hs : Sealed s₀ s) :
    Sealed s₀ (s.unsequenced q type seq payload) :=
  .ite (.timeArrives (.modPort (.ite hs.count hs))) (.modPort (.ite hs.count hs))

theorem Sealed.inOrder {q : PortId} {h : Nat} {payload : List Byte} (hs : Sealed s₀ s) : Sealed s₀ (s.inOrder q h payload) := hs.modPort.deliver

theorem Sealed.execBlockArrival {port : PortId} {b : BitVec 2048} (hs : Sealed s₀ s) : Answers s₀ (execBlockArrival port b s) :=
  .ite (.next hs) (.ite (.next hs.modPort.count)
    (.ite (.next hs.modPort.unsequenced)
    (.ite (.next hs.modPort.onHold.onAck.unsequenced) (.ite (.next hs.modPort.onHold.onAck.inOrder) (.next hs.modPort.onHold.onAck.modPort)))))

theorem Sealed.execAckTimeout {port : PortId} (hs : Sealed s₀ s) : Answers s₀ (execAckTimeout port s) :=
  .ite (.next hs) (.ite (.next hs.modPort.count.count.askRetrain) (.next hs.modPort.count.count))

theorem Sealed.execReceiveSilence {port : PortId} (hs : Sealed s₀ s) : Answers s₀ (execReceiveSilence port s) :=
  .ite (.next hs.askRetrain) (.next hs)

theorem Sealed.useRxSpare {q : PortId} (hs : Sealed s₀ s) : Sealed s₀ (s.useRxSpare q) := hs.saveLaneSpares

theorem Sealed.useTxSpare {q : PortId} (hs : Sealed s₀ s) : Sealed s₀ (s.useTxSpare q) := hs.saveLaneSpares

theorem Sealed.mapRx {q : PortId} {lane : Nat} (hs : Sealed s₀ s) : Sealed s₀ (s.mapRx q lane) := hs.setReg.modPort

theorem Sealed.mapTx {q : PortId} {lane : Nat} (hs : Sealed s₀ s) : Sealed s₀ (s.mapTx q lane) := hs.setReg.modPort

theorem Sealed.askSwap {q : PortId} {lane : Nat} {degraded : Bool} (hs : Sealed s₀ s) : Sealed s₀ (s.askSwap q lane degraded) := hs.modPort

theorem Sealed.execLossOfSignal {port : PortId} {lane : LaneLoss} (hs : Sealed s₀ s) : Answers s₀ (execLossOfSignal port lane s) := by
  unfold Machine.execLossOfSignal
  dsimp only
  refine .ite (.next hs) ?_
  split
  · exact .ite (.next (.modPort (.ite hs hs.modPort))) (.next (.loseTo (.ite hs hs.modPort)))
  · exact .ite (.next (.askSwap (.ite hs hs.modPort))) (.ite (.next (.loseTo (.ite hs hs.modPort))) (.next (.ite hs hs.modPort)))

theorem Sealed.execLossPersists {port : PortId} (hs : Sealed s₀ s) : Answers s₀ (execLossPersists port s) := .ite (.next hs.loseTo) (.next hs)

theorem Sealed.execLaneDegradeWindow {port : PortId} {lane : Fin 16} {w : LaneWindow} (hs : Sealed s₀ s) :
    Answers s₀ (execLaneDegradeWindow port lane w s) := by
  unfold Machine.execLaneDegradeWindow
  dsimp only
  refine .ite (.next hs) (.ite (.next hs.count.count) ?_)
  split
  · exact .ite (.next hs.count.count) (.next hs.count.count.askRetrain)
  · exact .ite (.next hs.count.count.askSwap) (.next hs.count.count.askRetrain)

theorem Sealed.execSpareLockLoss {port : PortId} (hs : Sealed s₀ s) : Answers s₀ (execSpareLockLoss port s) :=
  .ite (.next hs.modPort.useRxSpare) (.next hs)

theorem Sealed.execSpareCodewordDecode {port : PortId} {lane : Fin 16} (hs : Sealed s₀ s) :
    Answers s₀ (execSpareCodewordDecode port lane s) := by
  unfold Machine.execSpareCodewordDecode
  dsimp only
  split
  · exact .next hs
  · exact .ite (.next hs) (.ite (.next hs.modPort) (.next hs.modPort.useRxSpare.mapRx))

theorem Sealed.whenUp {port : PortId} {ids : MsgIds} {f : State → State} (hs : Sealed s₀ s) (hf : ∀ t, Sealed s₀ t → Sealed s₀ (f t)) :
    Answers s₀ (whenUp port ids f s) :=
  .ite (.next hs) (.ite (.next (hf _ hs.heard)) (.next hs.heard))

theorem Sealed.execSwap {port : PortId} {ids : MsgIds} {lane : Fin 16} (hs : Sealed s₀ s) : Answers s₀ (execSwap port ids lane s) :=
  hs.whenUp fun _ h => .ite h (.ite h.modPort (.ite h.frame.loseTo h.frame.askRetrain))

theorem Sealed.execSwapDone {port : PortId} {ids : MsgIds} {lane : Fin 16} (hs : Sealed s₀ s) : Answers s₀ (execSwapDone port ids lane s) :=
  hs.whenUp fun _ h => .ite h.modPort.useTxSpare.mapTx h

theorem Sealed.execSpareBad {port : PortId} {ids : MsgIds} (hs : Sealed s₀ s) : Answers s₀ (execSpareBad port ids s) :=
  hs.whenUp fun _ h => h.useTxSpare

theorem Sealed.execRetrain {port : PortId} {ids : MsgIds} (hs : Sealed s₀ s) : Answers s₀ (execRetrain port ids s) :=
  hs.whenUp fun _ h => h.tellNow.retrain

theorem Sealed.execGoodbye {port : PortId} {ids : MsgIds} (hs : Sealed s₀ s) : Answers s₀ (execGoodbye port ids s) :=
  hs.whenUp fun _ h => h.ackNow.loseTo

theorem Sealed.execCoefficientRequest {port : PortId} {lane : Fin 17} {set : BitVec 256} (hs : Sealed s₀ s) :
    Answers s₀ (execCoefficientRequest port lane set s) := by
  unfold Machine.execCoefficientRequest
  dsimp only
  split
  · exact .next hs
  · exact .ite (.next hs) (.ite (.next hs.emit.frame) (.ite (.next hs.modPort.emit.frame) (.ite (.next hs.emit.frame) (.next hs.modPort.emit.frame))))

/-! ### Fabric -/

theorem Sealed.schedule {p : Part} {q : PortId} {b : Block} (hs : Sealed s₀ s) : Sealed s₀ (s.schedule p q b) := .ite hs.modPort.raise hs.modPort

theorem Sealed.acceptBlock {q : PortId} {b : Block} (hs : Sealed s₀ s) : Sealed s₀ (s.acceptBlock q b) := hs.modPort

theorem Sealed.xferDone {x : Xfer} (hs : Sealed s₀ s) : Sealed s₀ (s.xferDone x) := .ite hs.modSt hs

theorem Sealed.xferStep {k : Nat} {x : Xfer} (hs : Sealed s₀ s) : Sealed s₀ (s.xferStep k x) := .ite hs.frame hs.frame.xferDone

theorem Sealed.modBranch {p : Part} {tree : Nat} {q : Option PortId} {f : BranchBuf → BranchBuf} (hs : Sealed s₀ s) :
    Sealed s₀ (s.modBranch p tree q f) :=
  hs.frame

theorem Sealed.branchOut {p : Part} {tree : Nat} {q : PortId} {b : Block} (hs : Sealed s₀ s) : Sealed s₀ (s.branchOut p tree q b) :=
  .ite hs (.ite hs.schedule (.ite hs.modBranch hs.modBranch.modPort.raise))

theorem Sealed.faultPort {p : Part} {q : PortId} (hs : Sealed s₀ s) : Sealed s₀ (s.faultPort p q) := hs.raise

theorem Sealed.mirrorTouch {p : Part} {a : Nat} (hs : Sealed s₀ s) : Sealed s₀ (s.mirrorTouch p a) := by
  unfold State.mirrorTouch
  split
  · exact hs.modSec
  · exact hs

theorem Sealed.blockWrite {e : MemEcc} {p : Part} {q : PortId} {b : Block} {a : Nat} {short : Bool} (hs : Sealed s₀ s) :
    Sealed s₀ (s.blockWrite e p q b a short).1 := by
  unfold State.blockWrite
  split
  · exact hs.faultPort
  · split
    · exact hs.faultPort
    · split
      · next heq => exact (hs.devWrite heq).mirrorTouch
      · exact hs.faultPort

theorem Sealed.addOffset {p : Part} {off : Nat} (hs : Sealed s₀ s) : Sealed s₀ (s.addOffset p off) := by
  unfold State.addOffset
  refine .ite hs ?_
  split
  · exact .ite hs hs.frame
  · exact hs

theorem Sealed.treeDeliver {e : MemEcc} {p : Part} {q : PortId} {t : Nat} {b : Block} {ends : Option Bool} (hs : Sealed s₀ s) :
    Sealed s₀ (s.treeDeliver e p q t b ends) :=
  .ite hs (.ite (.addOffset (.blockWrite (.ite hs hs.frame))) (.blockWrite (.ite hs hs.frame)))

theorem Sealed.takeSched {q : PortId} {tt : Nat} {b : Block} (hs : Sealed s₀ s) (h : s.takeSched q tt = some (b, t)) : Sealed s₀ t := by
  unfold State.takeSched at h
  split at h
  · split at h
    · cases h
      exact hs.modPort
    · cases h
  · cases h

theorem Sealed.schedPart {q : PortId} (hs : Sealed s₀ s) (h : s.schedPart q = .error t) : Sealed s₀ t := by
  unfold State.schedPart at h
  split at h
  · split at h
    · cases h
    · cases h
      exact hs.count
  · cases h
    exact hs.count

theorem Sealed.execScheduledBlockTransit {port : PortId} (hs : Sealed s₀ s) : Answers s₀ (execScheduledBlockTransit port s) := by
  unfold Machine.execScheduledBlockTransit
  dsimp only
  split
  · exact .next hs
  · refine .ite (.next hs) ?_
    split
    · next heq => exact .next (hs.modPort.schedPart heq)
    · split
      · exact .next hs.modPort.faultPort
      · refine .ite (.next hs) ?_
        split
        · exact .next hs.modPort.faultPort
        · exact .ite (.next hs.modPort.schedule) (.next hs.modPort.faultPort)

theorem Sealed.atDest {tt : Nat} {port : PortId} {f : State → Part → Block → Nat → State} (hs : Sealed s₀ s)
    (hf : ∀ t, Sealed s₀ t → ∀ p b e, Sealed s₀ (f t p b e)) : Answers s₀ (atDest tt port s f) := by
  unfold Machine.atDest
  split
  · exact .next hs
  · next htake =>
    have hs' := hs.takeSched htake
    split
    · next heq => exact .next (hs'.schedPart heq)
    · split
      · exact .next hs'.faultPort
      · exact .ite (.next hs) (.ite (.next hs'.faultPort) (.next (hf _ hs' _ _ _)))

theorem Sealed.execWrite {port : PortId} {ecc : MemEcc} (hs : Sealed s₀ s) : Answers s₀ (execWrite port ecc s) :=
  hs.atDest fun _ h _ _ _ => h.blockWrite

theorem Sealed.readSource {e : MemEcc} {r : ReadReq} (hs : Sealed s₀ s) : Sealed s₀ (s.readSource e r).2 := by
  unfold State.readSource
  dsimp only
  split
  · exact hs.devRead.devRead
  · exact hs.devRead

theorem Sealed.respond {ecc : MemEcc} {p : Part} {q : PortId} {b : Block} {route : Nat} (hs : Sealed s₀ s) :
    Sealed s₀ (s.respond ecc p q b route) :=
  .ite hs.faultPort hs.readSource.frame

theorem Sealed.execReadRequest {port : PortId} {ecc : MemEcc} (hs : Sealed s₀ s) : Answers s₀ (execReadRequest port ecc s) :=
  hs.atDest fun _ h _ _ _ => h.respond

theorem Sealed.fetchBlock {p : Part} {q : PortId} {st ftag blk : Nat} {b : Block} (hs : Sealed s₀ s) :
    Sealed s₀ (s.fetchBlock p q st ftag blk b) := by
  unfold State.fetchBlock
  dsimp only
  split
  · exact hs
  · split
    · exact hs
    · exact hs.frame

theorem Sealed.execReadResponse {port : PortId} (hs : Sealed s₀ s) : Answers s₀ (execReadResponse port s) :=
  hs.atDest fun _ h _ _ _ => h.fetchBlock

theorem Sealed.remoteMor {p : Part} {q : PortId} {b : Block} {off : Nat} {set : Bool} (hs : Sealed s₀ s) :
    Sealed s₀ (s.remoteMor p q b off set) := by
  unfold State.remoteMor
  split
  · exact .ite hs.faultPort hs.frame
  · exact hs.faultPort

theorem Sealed.execMordantAdd {port : PortId} (hs : Sealed s₀ s) : Answers s₀ (execMordantAdd port s) := hs.atDest fun _ h _ _ _ => h.remoteMor

theorem Sealed.execMordantSet {port : PortId} (hs : Sealed s₀ s) : Answers s₀ (execMordantSet port s) := hs.atDest fun _ h _ _ _ => h.remoteMor

theorem Sealed.execMulticastWrite {port : PortId} {ecc : MemEcc} (hs : Sealed s₀ s) : Answers s₀ (execMulticastWrite port ecc s) := by
  unfold Machine.execMulticastWrite
  dsimp only
  split
  · exact .next hs
  · next heq =>
      split
      · next heq' => exact .next ((hs.takeSched heq).schedPart heq')
      · refine .ite (.next (hs.takeSched heq)) (.ite (.next hs) (.ite (.next (hs.takeSched heq).faultPort) ?_))
        split
        · exact .next (hs.takeSched heq).faultPort
        · exact .next ((hs.takeSched heq).foldl fun _ _ h => h.branchOut).treeDeliver

theorem Sealed.execFence {port : PortId} (hs : Sealed s₀ s) : Answers s₀ (execFence port s) := by
  unfold Machine.execFence
  dsimp only
  split
  · exact .next hs
  · next htake =>
    have hs' := hs.takeSched htake
    split
    · next heq => exact .next (hs'.schedPart heq)
    · split
      · exact .next (Sealed.raise (Sealed.foldl (Sealed.modBranch (.ite hs'.setMor hs')) fun _ _ h => h.modPort))
      · exact .next (hs'.modBranch.foldl fun _ _ h => h.modPort).raise

theorem Sealed.execCredit {port : PortId} (hs : Sealed s₀ s) : Answers s₀ (execCredit port s) := by
  unfold Machine.execCredit
  dsimp only
  split
  · exact .next hs
  · next heq => exact .next (hs.takeSched heq).modPort

theorem Sealed.takeOpen {q : PortId} {ok : Block → Bool} {b : Block} (hs : Sealed s₀ s) (h : s.takeOpen q ok = some (b, t)) : Sealed s₀ t := by
  unfold State.takeOpen at h
  split at h
  · split at h
    · cases h
      exact hs.modPort
    · cases h
  · cases h

theorem Sealed.atOpen {tt : Nat} {port : PortId} {f : State → Part → Block → State} (hs : Sealed s₀ s)
    (hf : ∀ t, Sealed s₀ t → ∀ p b, Sealed s₀ (f t p b)) :
    Answers s₀ (atOpen tt port s f) := by
  unfold Machine.atOpen
  split
  · exact .next hs
  · next htake =>
    have hs' := hs.takeOpen htake
    exact .ite (.next hs'.count) (.ite (.next hs) (.next (hf _ hs' _ _)))

theorem Sealed.openWrite {ecc : MemEcc} {p : Part} {q : PortId} {b : Block} (hs : Sealed s₀ s) : Sealed s₀ (s.openWrite ecc p q b) :=
  .ite hs.faultPort hs.blockWrite

theorem Sealed.openRead {ecc : MemEcc} {p : Part} {q : PortId} {b : Block} (hs : Sealed s₀ s) : Sealed s₀ (s.openRead ecc p q b) := hs.respond

theorem Sealed.openResponse {p : Part} {q : PortId} {b : Block} (hs : Sealed s₀ s) : Sealed s₀ (s.openResponse p q b) := hs.fetchBlock

theorem Sealed.openMor {p : Part} {q : PortId} {b : Block} {set : Bool} (hs : Sealed s₀ s) : Sealed s₀ (s.openMor p q b set) := hs.remoteMor

theorem Sealed.execOpenWrite {port : PortId} {ecc : MemEcc} (hs : Sealed s₀ s) : Answers s₀ (execOpenWrite port ecc s) :=
  hs.atOpen fun _ h _ _ => h.openWrite

theorem Sealed.execOpenReadRequest {port : PortId} {ecc : MemEcc} (hs : Sealed s₀ s) : Answers s₀ (execOpenReadRequest port ecc s) :=
  hs.atOpen fun _ h _ _ => h.openRead

theorem Sealed.execOpenReadResponse {port : PortId} (hs : Sealed s₀ s) : Answers s₀ (execOpenReadResponse port s) :=
  hs.atOpen fun _ h _ _ => h.openResponse

theorem Sealed.execOpenMordantAdd {port : PortId} (hs : Sealed s₀ s) : Answers s₀ (execOpenMordantAdd port s) :=
  hs.atOpen fun _ h _ _ => h.openMor

theorem Sealed.execOpenMordantSet {port : PortId} (hs : Sealed s₀ s) : Answers s₀ (execOpenMordantSet port s) :=
  hs.atOpen fun _ h _ _ => h.openMor

theorem Sealed.ownOpen {ecc : MemEcc} {q : PortId} {b : Block} (hs : Sealed s₀ s) : Sealed s₀ (s.ownOpen ecc q b) := by
  unfold State.ownOpen
  dsimp only
  refine .ite hs.count ?_
  split
  · exact hs.openWrite
  · exact hs.openRead
  · exact hs.openResponse
  · exact hs.openMor
  · exact hs.openMor

theorem Sealed.execOpenBlockForward {port : PortId} (hs : Sealed s₀ s) : Answers s₀ (execOpenBlockForward port s) := by
  unfold Machine.execOpenBlockForward
  dsimp only
  split
  · exact .next hs
  · next heq => exact .ite (.next (hs.takeOpen heq).count) (.ite (.next (hs.takeOpen heq).count) (.next (hs.takeOpen heq).modPort))

theorem Sealed.emitXfer {ecc : MemEcc} {q : PortId} {k : Nat} {x : Xfer} (hs : Sealed s₀ s) : Sealed s₀ (s.emitXfer ecc q k x) := by
  unfold State.emitXfer
  dsimp only
  split
  · exact (hs.foldl fun _ _ h => h.branchOut).treeDeliver.xferStep
  · refine .ite (.ite hs.xferStep.ownOpen ?_) hs.schedule.xferStep
    split
    · exact .ite hs.xferStep.modPort hs.xferStep.count
    · exact hs.xferStep.count

theorem Sealed.execPortAcceptsBlock {port : PortId} {ecc : MemEcc} (hs : Sealed s₀ s) : Answers s₀ (execPortAcceptsBlock port ecc s) := by
  unfold Machine.execPortAcceptsBlock
  dsimp only
  refine .ite ?_ (.ite (.next hs.askRetrain) ?_)
  · split
    · exact .next hs
    · split
      · exact .next hs
      · exact .next hs.emitXfer
  · split
    · exact .next hs.modPort.acceptBlock
    · split
      · exact .next hs.modBranch.acceptBlock
      · split
        · exact .next hs
        · split
          · exact .next hs
          · split
            · exact .ite (.next hs.emitXfer.modPort.acceptBlock) (.next hs.emitXfer)
            · exact .next hs.emitXfer

theorem Sealed.setGroup {r : RedGroup} (hs : Sealed s₀ s) : Sealed s₀ (s.setGroup r) := hs.frame

theorem Sealed.setNorm {p : Part} {e : Eng} {i : Nat} {d : DD} (hs : Sealed s₀ s) : Sealed s₀ (s.setNorm p e i d) := hs.frame

theorem Sealed.orReduce {p : Part} {fl : Fl} (hs : Sealed s₀ s) : Sealed s₀ (s.orReduce p fl) := hs.setReg

theorem Sealed.push {x : Xfer} (hs : Sealed s₀ s) : Sealed s₀ (s.push x) := hs.frame

theorem Sealed.reduceOut {ecc : MemEcc} {p : Part} {g blk start : Nat} {data : List Byte} {fl : Fl} (hs : Sealed s₀ s) :
    Sealed s₀ (s.reduceOut ecc p g blk start data fl) := by
  unfold State.reduceOut
  dsimp only
  split
  · refine .ite hs.raise ?_
    split
    · next heq => exact (hs.devWrite heq).orReduce
    · exact hs.raise
  · exact hs.push
  · exact hs.push.orReduce

theorem Sealed.reduceNorm {p : Part} {g : Nat} {vs : List Val} (hs : Sealed s₀ s) : Sealed s₀ (s.reduceNorm p g vs) := .ite hs hs.setNorm

theorem Sealed.roundEnd {p : Part} {gi g : Nat} (hs : Sealed s₀ s) : Sealed s₀ (s.roundEnd p gi g) :=
  .addOffset (.ite hs.setGroup.push.setNorm hs.setGroup)

theorem Sealed.combineBlock {ecc : MemEcc} {p : Part} {gi g blk : Nat} {bs : List Block} (hs : Sealed s₀ s) :
    Sealed s₀ (s.combineBlock ecc p gi g blk bs) :=
  .ite hs.raise (.ite (.roundEnd (.ite hs.setGroup.push hs.setGroup.reduceNorm.reduceOut)) (.ite hs.setGroup.push hs.setGroup.reduceNorm.reduceOut))

theorem Sealed.reduceBlock {ecc : MemEcc} {p : Part} {gi : Nat} {b : Block} (hs : Sealed s₀ s) : Sealed s₀ (s.reduceBlock ecc p gi b) :=
  .ite hs.raise (.ite hs.setGroup.combineBlock (.ite hs.raise hs.setGroup))

theorem Sealed.reduceAt {ecc : MemEcc} {q : PortId} {p : Part} {b : Block} {gi : Nat} (hs : Sealed s₀ s) :
    Sealed s₀ (s.reduceAt ecc q p b gi) :=
  .ite hs.reduceBlock hs.faultPort

theorem Sealed.execReduce {src : ReduceSrc} {ecc : MemEcc} (hs : Sealed s₀ s) : Answers s₀ (execReduce src ecc s) := by
  unfold Machine.execReduce
  dsimp only
  split
  · exact hs.atDest fun _ h _ _ _ => h.reduceAt
  · split
    · exact .next hs
    · exact .ite (.next hs) (.next hs.xferStep.reduceBlock)

/-! ### Ranges -/

theorem Sealed.formRow {p : Part} {row : List St} (hs : Sealed s₀ s) : Sealed s₀ (s.formRow p row) := .ite hs.modPart (.ite hs hs.modPart)

theorem Sealed.formRing {p : Part} (hs : Sealed s₀ s) : Sealed s₀ (s.formRing p) := hs.formRow

theorem Sealed.reformRing {p : Part} (hs : Sealed s₀ s) : Sealed s₀ (s.reformRing p) := hs.formRow

/-! ### Object dictionary -/

theorem Sealed.answer {via : Via} {b : List Byte} (hs : Sealed s₀ s) : Sealed s₀ (s.answer via b) := by
  unfold State.answer
  split
  · exact .ite hs.modFn hs.emit.modFn.vector
  · exact hs.emit.modSess

theorem Sealed.reply {via : Via} {r : DictReq} {status : Nat} {data : List Byte} (hs : Sealed s₀ s) : Sealed s₀ (s.reply via r status data) :=
  hs.answer

theorem Sealed.setStaging {via : Via} {l : List (Nat × List Byte)} (hs : Sealed s₀ s) : Sealed s₀ (s.setStaging via l) := by
  unfold State.setStaging
  split
  · exact hs.modStw
  · exact hs.modSess

theorem Sealed.unstage {via : Via} {idx sub : Nat} (hs : Sealed s₀ s) : Sealed s₀ (s.unstage via idx sub) := hs.setStaging

theorem Sealed.stage {via : Via} {idx sub : Nat} {v : List Byte} (hs : Sealed s₀ s) : Sealed s₀ (s.stage via idx sub v) := hs.setStaging

theorem Sealed.serve {via : Via} {r : DictReq} {data : List Byte} {act : State → Role → Nat × List Byte × (State → State)} (hs : Sealed s₀ s)
    (hact : ∀ t, Sealed s₀ t → ∀ role, Replies s₀ (act t role)) : Answers s₀ (serve via r data act s) := by
  refine .ite (.next hs) ?_
  split
  · exact .next hs.emit
  · exact .ite (.next hs.reply) (.next (hact _ hs _ _ hs.reply))

theorem Sealed.command {via : Via} {idx sub : Nat} {data : List Byte} {act : State → Nat × (State → State)} (hs : Sealed s₀ s)
    (hact : ∀ t, Sealed s₀ t → Acts s₀ (act t)) : Answers s₀ (command via idx sub data act s) := by
  unfold Machine.command
  exact hs.serve fun t ht _ => .ite (fun _ h => h) fun u h => hact t ht u h

/-! ### Protection -/

theorem Sealed.verifySeal (hs : Sealed s₀ s) : Sealed s₀ s.verifySeal := .ite hs (hs.setRegAt (.inr (.inr ⟨rfl, rfl⟩)))

theorem Sealed.planDiffers (hs : Sealed s₀ s) : Sealed s₀ s.planDiffers := hs.setRegAt (.inr (.inr ⟨rfl, rfl⟩))

/-! ### Clocks and time -/

theorem Sealed.showTargets (hs : Sealed s₀ s) : Sealed s₀ s.showTargets := hs.setReg.setReg

theorem Sealed.schedule4100 {p : Part} {f : Nat} (hs : Sealed s₀ s) : Sealed s₀ (s.schedule4100 p f) := hs.frame

theorem Sealed.retarget {p : Part} (hs : Sealed s₀ s) : Sealed s₀ (s.retarget p) :=
  .ite hs.showTargets (.ite hs.schedule4100.showTargets (.ite hs.frame.showTargets.schedule4100 hs.frame.showTargets))

theorem Sealed.execStationClockSettingWrite {via : Via} {p : Part} {mhz : W16} (hs : Sealed s₀ s) :
    Answers s₀ (execStationClockSettingWrite via p mhz s) :=
  hs.command fun _ _ => .ite (.mk (fun _ h => h)) (.mk (fun _ h => h.setReg.retarget))

theorem Sealed.setClocks {p : Part} {f : Nat} (hs : Sealed s₀ s) : Sealed s₀ (s.setClocks p f) := (hs.foldl fun _ _ h => h.setReg).showTargets

theorem Sealed.execClockSettingChange {p : Part} (hs : Sealed s₀ s) : Answers s₀ (execClockSettingChange p s) := by
  unfold Machine.execClockSettingChange
  dsimp only
  split
  · exact .next hs
  · exact .ite (.next hs) (.next hs.frame.setClocks)

theorem Sealed.railStep {h : Half} (hs : Sealed s₀ s) : Sealed s₀ (s.railStep h) := .ite hs.modPwr hs.modPwr.modPwr.saveRailStep.showTargets

theorem Sealed.stretchOne {i : Nat} (hs : Sealed s₀ s) : Sealed s₀ (s.stretchOne i) := by
  unfold State.stretchOne
  dsimp only
  refine .ite ?_ hs.frame.count
  split
  · exact hs.frame.count.count.railStep
  · exact hs.frame.count.count

theorem Sealed.execReplicaTrigger {i : Island} (hs : Sealed s₀ s) : Answers s₀ (execReplicaTrigger i s) := by
  unfold Machine.execReplicaTrigger
  dsimp only
  refine .ite (.next hs) ?_
  split
  · exact .next ((hs.foldl fun _ _ h => h.stretchOne).foldl fun _ _ h => .ite h.raise h)
  · exact .next (hs.foldl fun _ _ h => h.stretchOne)

theorem Sealed.execReplicaWarningLevel {i : Island} (hs : Sealed s₀ s) : Answers s₀ (execReplicaWarningLevel i s) := .ite (.next hs) (.next hs)

theorem Sealed.execHangDetected {x : Crossing} (hs : Sealed s₀ s) : Answers s₀ (execHangDetected x s) :=
  .ite (.next hs) (.next (.foldl (.frame (.ite hs.count hs)) (fun _ _ h => h.strike.raise)))

theorem Sealed.forgetHangs {p : Part} (hs : Sealed s₀ s) : Sealed s₀ (s.forgetHangs p) := hs.frame

theorem Sealed.dropTower {t : Twr} (hs : Sealed s₀ s) : Sealed s₀ (s.dropTower t) :=
  (hs.foldl fun _ _ h => h.towerGone.modTwr).saveTowerState.resetCrossings

/-- What fails on one side of a crossing. -/
theorem Sealed.crossingFailed {a b : Nat} (hs : Sealed s₀ s) : Sealed s₀ (s.crossingFailed a b) := by
  have hretire {t : State} {i : Nat} (ht : Sealed s₀ t) : Sealed s₀ (match islandKind i with
      | .station st => if 1 < t.reg 0x8000 (st.val + 1) then t else (t.saveReg 0x8000 (st.val + 1) 3).modHealth st fun h =>
        { h with vacant := h.vacant || decide (t.reg 0x8000 (st.val + 1) = 0) }
      | .port q => if (t.saveReg 0x8041 (q.val + 1) 1).portUp q then (t.saveReg 0x8041 (q.val + 1) 1).loseTo q stRetired else
        ((t.saveReg 0x8041 (q.val + 1) 1).modPort q Port.clear).setPortState q stRetired
      | .tower t' => if 2 ≤ t.reg 0x8030 (t'.val + 1) then t else t.dropTower t'
      | .stash e => { t with clk := { t.clk with stashBad := vset t.clk.stashBad (if e then 1 else 0) true } }
      | _ => t) := by
    split
    · exact .ite ht ht.saveStationState.modHealth
    · exact .ite ht.savePortRetired.loseTo ht.savePortRetired.modPort.setPortState
    · exact .ite ht ht.dropTower
    · exact ht.frame
    · exact ht
  exact Sealed.setReg (.ite (hs.frame) (.ite (hretire hs) (hretire (hretire hs))))

theorem Sealed.execCrossingRecalibrated {x : Crossing} {pass : Bool} (hs : Sealed s₀ s) : Answers s₀ (execCrossingRecalibrated x pass s) :=
  .ite (.next hs) (.ite (.next hs.frame.crossingFailed) (.ite (.next hs.frame.admitItems.setReg) (.next hs.frame.admitItems)))

theorem Sealed.execTimeSet {via : Via} {value : W64} (hs : Sealed s₀ s) : Answers s₀ (execTimeSet via value s) :=
  hs.command fun _ _ => .ite .refused (.mk (fun _ h => h.frame))

theorem Sealed.execTimeSetApplied (hs : Sealed s₀ s) : Answers s₀ (execTimeSetApplied s) := by
  unfold Machine.execTimeSetApplied
  dsimp only
  split
  · exact .next hs
  · exact .ite (.next hs) (.ite (.next hs.frame.setReg) (.next hs.frame.setReg))

theorem Sealed.lastResort (hs : Sealed s₀ s) : Sealed s₀ s.lastResort := hs.setReg.timeEvent

theorem Sealed.execReferenceLoss (hs : Sealed s₀ s) : Answers s₀ (execReferenceLoss s) :=
  .ite (.next hs) (.ite (.next hs.frame.count) (.ite (.next hs.frame.count.lastResort) (.next hs.frame.count.setReg)))

theorem Sealed.execReferenceLock (hs : Sealed s₀ s) : Answers s₀ (execReferenceLock s) := .ite (.next hs) (.next hs.frame.setReg)

theorem Sealed.execHoldoverCrossCheck {ok : Bool} (hs : Sealed s₀ s) : Answers s₀ (execHoldoverCrossCheck ok s) :=
  .ite (.next hs) (.ite (.ite (.next hs) (.ite (.next hs.frame) (.ite (.next hs.frame.setReg.setReg) (.next hs.frame.setReg))))
    (.ite (.next hs.frame.setReg.lastResort) (.next hs.frame.setReg)))

theorem Sealed.clearMordants {p : Part} (hs : Sealed s₀ s) : Sealed s₀ (s.clearMordants p) := hs.frame

theorem Sealed.clearSettled {p : Part} (hs : Sealed s₀ s) : Sealed s₀ (s.clearSettled p) := hs.frame

theorem Sealed.clearNorms {p : Part} (hs : Sealed s₀ s) : Sealed s₀ (s.clearNorms p) := hs.frame

theorem Sealed.groupWritten {p : Part} (hs : Sealed s₀ s) : Sealed s₀ (s.groupWritten p) := hs.foldl fun _ _ h => h.count

theorem Sealed.startJob {p : Part} (hs : Sealed s₀ s) : Sealed s₀ (s.startJob p) :=
  .ite (hs.clearMordants.clearNorms.clearSettled.foldl fun _ _ h => h.modSt.modHealth).modPart.setReg.setJobState.raise
    (hs.clearMordants.clearNorms.clearSettled.foldl fun _ _ h => h.modSt.modHealth).modPart.setReg.setJobState

theorem Sealed.startWaiting (hs : Sealed s₀ s) : Sealed s₀ s.startWaiting := hs.foldl fun _ _ h => .ite h.startJob h

theorem Sealed.seePartner {q : PortId} {tb : TimeBlock} (hs : Sealed s₀ s) : Sealed s₀ (s.seePartner q tb) := by
  unfold State.seePartner
  dsimp only
  split
  · split
    · exact .ite hs.modPort.count hs.modPort
    · exact hs.modPort
  · exact hs.modPort

theorem Sealed.leaveLastResort (hs : Sealed s₀ s) : Sealed s₀ s.leaveLastResort := by
  unfold State.leaveLastResort
  dsimp only
  split
  · exact .ite hs.frame hs
  · exact hs

theorem Sealed.takeTime {q : PortId} {kind : Nat} {x : TimeBlock × State} (hs : Sealed s₀ s) (h : s.takeTime q kind = some x) :
    Sealed s₀ x.2 := by
  unfold State.takeTime at h
  split at h
  · dsimp only at h
    split at h
    · cases h
      exact hs.modPort
    · cases h
  · cases h

theorem Sealed.execTimeSync {port : PortId} (hs : Sealed s₀ s) : Answers s₀ (execTimeSync port s) := by
  unfold Machine.execTimeSync
  dsimp only
  split
  · exact .next hs
  · next heq =>
    have hs' := hs.takeTime heq
    exact .ite (.next hs'.modPort) (.ite (.next hs') (.ite (.next hs'.seePartner.leaveLastResort) (.next hs'.seePartner.leaveLastResort.modPort)))

theorem Sealed.exchange {off : ℤ} (hs : Sealed s₀ s) : Sealed s₀ (s.exchange off) :=
  .ite hs.frame.setReg.startWaiting (.ite hs.frame.unalign hs.frame)

theorem Sealed.execTimeReply {port : PortId} (hs : Sealed s₀ s) : Answers s₀ (execTimeReply port s) := by
  unfold Machine.execTimeReply
  dsimp only
  split
  · exact .next hs
  · next heq =>
    have hs' := hs.takeTime heq
    exact .ite (.next hs'.modPort) (.ite (.next hs')
      (.ite (.next hs'.seePartner.leaveLastResort) (.ite (.next hs'.seePartner.leaveLastResort.setTimeStatus.frame.exchange.frame)
      (.next hs'.seePartner.leaveLastResort.setTimeStatus.frame.exchange))))

/-! ### Tunnel and port commands -/

theorem Sealed.sendFragment {dest id : W16} (hs : Sealed s₀ s) : Sealed s₀ (s.sendFragment dest id) :=
  .ite hs.frame.emit.count hs.frame.emit.modPort

theorem Sealed.tunnelSend {dest : W16} {body : TunnelBody} (hs : Sealed s₀ s) : Sealed s₀ (s.tunnelSend dest body) := hs.modStw.sendFragment

theorem Sealed.reassemble {f : Frag} {answers : Option W16} (hs : Sealed s₀ s) : Sealed s₀ (s.reassemble f answers) := .ite hs.modStw hs.modStw

theorem Sealed.execManagementTunnel {port : PortId} {answers : Option W16} (hs : Sealed s₀ s) :
    Answers s₀ (execManagementTunnel port answers s) := by
  unfold Machine.execManagementTunnel
  dsimp only
  refine .ite (.next hs) ?_
  split
  · exact .next hs
  · next heq => exact .ite (.next (hs.takeOpen heq)) (.next (hs.takeOpen heq).reassemble)

theorem Sealed.execTunnelReassemblyTimeout {src msg : W16} (hs : Sealed s₀ s) : Answers s₀ (execTunnelReassemblyTimeout src msg s) :=
  .ite (.next hs.modStw) (.next hs)

theorem Sealed.losePartner {p : Part} (hs : Sealed s₀ s) : Sealed s₀ (s.losePartner p) := hs.abortWhere.modSec

theorem Sealed.reserveChanged {p : Part} {v : Nat} (hs : Sealed s₀ s) : Sealed s₀ (s.reserveChanged p v) := .ite hs.modSec.tunnelSend hs.modSec

theorem Sealed.execTunnelResend {k : Nat} (hs : Sealed s₀ s) : Answers s₀ (execTunnelResend k s) := by
  unfold Machine.execTunnelResend
  dsimp only
  split
  · exact .next hs
  · refine .ite (.next hs) (.ite (.next hs.modStw.sendFragment) ?_)
    split
    · exact .next (.ite hs.modStw.losePartner hs.modStw)
    · exact .next hs.modStw

theorem Sealed.portCommand {via : Via} {q : PortId} {v : Byte} {ok : State → Bool} {act : State → State} (hs : Sealed s₀ s)
    (hact : ∀ t, Sealed s₀ t → Sealed s₀ (act t)) : Answers s₀ (portCommand via q v ok act s) :=
  hs.command fun _ _ => .ite (fun _ h => hact _ h.setReg) .refused

theorem Sealed.execPortCommandRetrain {via : Via} {port : PortId} (hs : Sealed s₀ s) : Answers s₀ (execPortCommandRetrain via port s) :=
  hs.portCommand fun _ h => h.askRetrain.setReg

theorem Sealed.execPortCommandOrderlyDown {via : Via} {port : PortId} (hs : Sealed s₀ s) : Answers s₀ (execPortCommandOrderlyDown via port s) :=
  hs.portCommand fun _ h => .ite h.askGoodbye.setReg h.goodbye

theorem Sealed.execPortCommandReleaseHeld {via : Via} {port : PortId} (hs : Sealed s₀ s) : Answers s₀ (execPortCommandReleaseHeld via port s) :=
  hs.portCommand fun _ h => h.setPortState

theorem Sealed.execPortEnableWrite {via : Via} {port : PortId} {v : Byte} (hs : Sealed s₀ s) : Answers s₀ (execPortEnableWrite via port v s) :=
  hs.command fun _ _ => .ite (.mk (fun _ h => h)) (.mk (fun _ h => .ite h.setReg.stopPort h.setReg))

/-! ### Securing and restores -/

theorem Sealed.sendCommit {p : Part} (hs : Sealed s₀ s) : Sealed s₀ (s.sendCommit p) := by
  unfold State.sendCommit
  dsimp only
  split
  · exact .ite hs.push.frame.modSec hs
  · exact hs

theorem Sealed.secureStep {p : Part} {step : Nat} {e : MemEcc} (hs : Sealed s₀ s) : Sealed s₀ (s.secureStep p step e) := by
  unfold State.secureStep
  dsimp only
  refine .ite hs (.ite hs.count (.ite hs.raise ?_))
  split
  · exact hs.raise
  · split
    · exact hs.modSec
    · exact hs.modSec.openEpoch

theorem Sealed.execSecuringMordantChange {p : Part} {e : MemEcc} (hs : Sealed s₀ s) : Answers s₀ (execSecuringMordantChange p e s) := by
  unfold Machine.execSecuringMordantChange
  split
  · exact .next hs
  · exact .next hs.modSec.secureStep.sendCommit

theorem Sealed.sendPartner {p : Part} {t : Twr} {blk : Nat} {data : List PByte} (hs : Sealed s₀ s) : Sealed s₀ (s.sendPartner p t blk data) := by
  unfold State.sendPartner
  dsimp only
  split
  · exact hs
  · split
    · exact hs
    · exact hs.push

theorem Sealed.execDrainRead {t : Twr} {p : Part} {blk : Nat} {ecc : MemEcc} (hs : Sealed s₀ s) :
    Answers s₀ (execDrainRead t p blk ecc s) := by
  unfold Machine.execDrainRead
  dsimp only
  split
  · split
    · exact .next hs
    · exact .ite (.next hs) (.next (.ite hs.sectorsRead.modBlock.modSec.sendPartner hs.sectorsRead.modBlock.modSec))
  · exact .next hs

theorem Sealed.execBlockDrainComplete {t : Twr} {p : Part} {blk : Nat} (hs : Sealed s₀ s) : Answers s₀ (execBlockDrainComplete t p blk s) := by
  unfold Machine.execBlockDrainComplete
  dsimp only
  split
  · exact .next hs
  · refine .ite (.next hs) ?_
    split
    · exact .next hs.modBlock.closeEpoch.dropHold.sendCommit.noteEpoch
    · exact .next hs.modBlock.sendCommit.noteEpoch
    · exact .next hs

theorem Sealed.execPartnerTargetWrite {via : Via} {p : Part} {v : W64} {answer : Option (List (List W64))} (hs : Sealed s₀ s) :
    Answers s₀ (execPartnerTargetWrite via p v answer s) := by
  unfold Machine.execPartnerTargetWrite
  refine hs.command fun _ _ => .checked fun _ h => ?_
  cases answer with
  | none => exact h.setReg.modSec.tunnelSend
  | some _ => exact h.setReg.modSec.tunnelSend.modStw.modSec

theorem Sealed.execCommitRecordArrival {port : PortId} {p : Part} {step : W64} (hs : Sealed s₀ s) :
    Answers s₀ (execCommitRecordArrival port p step s) :=
  .ite (.next hs) (.next hs.modSec.tunnelSend)

theorem Sealed.execPartnerCompletion {p : Part} (hs : Sealed s₀ s) : Answers s₀ (execPartnerCompletion p s) := by
  unfold Machine.execPartnerCompletion
  refine .ite (.next hs) ?_
  split
  · exact .next hs.completeLate
  · split
    · exact .ite (.next hs.completeImage) (.next hs)
    · exact .next hs

theorem Sealed.execCommitTimeout {p : Part} (hs : Sealed s₀ s) : Answers s₀ (execCommitTimeout p s) := by
  unfold Machine.execCommitTimeout
  refine .ite (.next hs) ?_
  split
  · exact .next hs.modSec.count
  · split
    · exact .ite (.next hs.abortEpoch) (.next hs)
    · exact .next hs

theorem Sealed.execRemovalNotice {dev : W16} (hs : Sealed s₀ s) : Answers s₀ (execRemovalNotice dev s) :=
  .ite (.next hs) (.next (hs.foldl fun _ _ h => h.losePartner))

theorem Sealed.yieldSepia {p : Part} (hs : Sealed s₀ s) : Sealed s₀ (s.yieldSepia p) := .ite hs (hs.foldl fun _ _ h => .ite h.modSec.raise h)

theorem Sealed.flashOp {p : Part} {u : Nat} {c : FlashCmd} (hs : Sealed s₀ s) : Sealed s₀ (s.flashOp p u c) :=
  .ite (.emit (.emit (.emit (.ite hs.emit hs)))) (.emit (.emit (.ite hs.emit hs)))

theorem Sealed.execNandProgramComplete {p : Part} {ok : Bool} (hs : Sealed s₀ s) : Answers s₀ (execNandProgramComplete p ok s) := by
  unfold Machine.execNandProgramComplete
  dsimp only
  split
  · exact .next hs
  · refine .ite (.next hs) (.ite (.next hs.yieldSepia.flashOp.modStw) ?_)
    split
    · exact .next (.ite hs.yieldSepia.flashOp.modStw.completeImage hs.yieldSepia.flashOp.modStw.modSec)
    · exact .ite (.next hs.yieldSepia.flashOp.modStw.completeLate) (.next hs.yieldSepia.flashOp.modStw.modSec)

theorem Sealed.execNandEraseComplete {p : Part} {ok : Bool} (hs : Sealed s₀ s) : Answers s₀ (execNandEraseComplete p ok s) :=
  .ite (.next hs) (.next (.ite hs.flashOp.modStw.saveSepiaWear.retireSepia hs.flashOp.modStw.saveSepiaWear))

theorem Sealed.execNandReadComplete {p : Part} {blk : Nat} {ok : Bool} (hs : Sealed s₀ s) : Answers s₀ (execNandReadComplete p blk ok s) := by
  unfold Machine.execNandReadComplete
  dsimp only
  split
  · exact .ite (.next hs) (.next (hs.foldl fun _ _ h => h.flashOp).modSec)
  · exact .next hs

theorem Sealed.execSharedStoreCommit {via : Via} {p : Part} {step : W64} (hs : Sealed s₀ s) : Answers s₀ (execSharedStoreCommit via p step s) :=
  hs.command fun _ _ => by
    split
    · exact fun _ h => h.setReg.completeLate
    · split
      · exact .ite (fun _ h => h.setReg.completeImage) .refused
      · exact .refused

theorem Sealed.commandWhole {via : Via} {idx sub : Nat} {data : List Byte} {act : State → Nat × (State → State)} (hs : Sealed s₀ s)
    (hact : ∀ t, Sealed s₀ t → Acts s₀ (act t)) : Answers s₀ (commandWhole via idx sub data act s) := by
  unfold Machine.commandWhole
  exact hs.serve fun t ht _ => .ite (fun _ h => h) fun u h => hact t ht _ h.unstage

theorem Sealed.armRestore {p : Part} {v : Nat} (hs : Sealed s₀ s) : Sealed s₀ (s.armRestore p v) := hs.modSec

theorem Sealed.execRestoreArm {via : Via} {p : Part} {req : BitVec 256} (hs : Sealed s₀ s) : Answers s₀ (execRestoreArm via p req s) :=
  hs.commandWhole fun _ _ => .checked fun _ h => h.armRestore

/-! ### Restarts -/

theorem Sealed.retireStation {st : St} (hs : Sealed s₀ s) : Sealed s₀ (s.retireStation st) := hs.saveStationState.resetCrossings

theorem Sealed.repairRow {st : St} {g : Fin 8} {r : Fin 65} {calOk : Bool} (hs : Sealed s₀ s) : Sealed s₀ (s.repairRow st g r calOk) :=
  .ite (.ite hs.retireStation hs.setReg) (.ite hs.retireStation hs.saveRowMap)

theorem Sealed.applyFinding {st : St} {f : RestartFinding} (hs : Sealed s₀ s) : Sealed s₀ (s.applyFinding st f) := by
  unfold State.applyFinding
  refine .ite hs ?_
  split
  · exact .ite hs.repairRow hs
  · exact .ite hs.retireStation hs
  · exact hs

theorem Sealed.isolate {iso : List RestartFinding} {st : St} (hs : Sealed s₀ s) : Sealed s₀ (s.isolate iso st) :=
  .ite hs (.ite (.saveObserved (.ite hs.count.isolationRun.modHealth.retireStation (hs.count.isolationRun.modHealth.foldl fun _ _ h => h.applyFinding)))
    (.ite hs.count.isolationRun.modHealth.retireStation (hs.count.isolationRun.modHealth.foldl fun _ _ h => h.applyFinding)))

theorem Sealed.compareTest {iso : List RestartFinding} {st : St} (hs : Sealed s₀ s) : Sealed s₀ (s.compareTest iso st) :=
  .ite hs.retireStation hs

theorem Sealed.rotate {st : St} (hs : Sealed s₀ s) : Sealed s₀ (s.rotate st) := hs.slicesRun.modHealth

theorem Sealed.duePass {iso : List RestartFinding} {st : St} (hs : Sealed s₀ s) : Sealed s₀ (s.duePass iso st) :=
  .ite hs (.ite hs.suspect.retireStation hs.rotate)

theorem Sealed.switchIn {p : Part} {iso : List RestartFinding} : ∀ {n : Nat} {s : State}, Sealed s₀ s → Sealed s₀ (State.switchIn p iso n s)
  | 0, _, hs => hs
  | n + 1, s, hs => by
    unfold State.switchIn
    dsimp only
    split
    · exact hs
    · exact .ite hs.suspect.retireStation.switchIn (.ite (Sealed.switchIn (Sealed.retireStation (.ite hs.rotate hs)))
        (Sealed.resetCrossings (Sealed.saveStationState (.ite hs.rotate hs))))

theorem Sealed.replace {p : Part} {iso : List RestartFinding} : ∀ {n : Nat} {s : State}, Sealed s₀ s → Sealed s₀ (State.replace p iso n s)
  | 0, _, hs => hs
  | _ + 1, _, hs => hs.switchIn.replace

theorem Sealed.restartWork {p : Part} {iso : List RestartFinding} (hs : Sealed s₀ s) : Sealed s₀ (s.restartWork p iso) :=
  (((((hs.foldl fun _ _ h => .ite h.retireTower h).foldl fun _ _ h => h.compareTest).foldl fun _ _ h => h.isolate).foldl fun _ _ h =>
    h.duePass).replace.foldl fun _ _ h => h.modHealth.resetCrossings).formRing

/-! ### Jobs -/

theorem Sealed.loaderRead {p : Part} {e : MemEcc} {a n : Nat} (hs : Sealed s₀ s) : Sealed s₀ (s.loaderRead p e a n).2 :=
  hs.foldlOf Prod.snd fun _ _ h => by
    split
    · exact h.findings
    · exact h.frame

theorem Sealed.readBinary {p : Part} {e : MemEcc} {base len : Nat} (hs : Sealed s₀ s) : Sealed s₀ (s.readBinary p e base len).2 := by
  have hpart {t : State} (c : Bool) (a n : Nat) (ht : Sealed s₀ t) : Sealed s₀ (if c then t.loaderRead p e a n else ([], t)).2 := by
    split
    · exact ht.loaderRead
    · exact ht
  unfold State.readBinary
  dsimp only
  split
  · exact hs.loaderRead
  · exact hpart _ _ _ (hpart _ _ _ hs.loaderRead)

theorem Sealed.readImages {p : Part} {ecc : MemEcc} {b : Binary} {e : Nat} (hs : Sealed s₀ s) : Sealed s₀ (s.readImages p ecc b e).2 :=
  hs.foldlOf Prod.snd fun _ _ h => h.loaderRead

theorem Sealed.loadCheck {p : Part} {ecc : MemEcc} {a n : Nat} (hs : Sealed s₀ s) : Sealed s₀ (s.loadCheck p ecc a n).2 := by
  unfold State.loadCheck
  dsimp only
  split
  · exact hs
  · split
    · exact hs
    · split
      · exact hs.readBinary
      · split
        · exact hs.readBinary
        · split
          · exact hs.readBinary
          · split
            · exact hs.readBinary.readImages
            · split
              · exact hs.readBinary.readImages
              · split <;> exact hs.readBinary.readImages

theorem Sealed.zeroExtent {a n : Nat} (hs : Sealed s₀ s) : Sealed s₀ (s.zeroExtent a n) := hs.frame

theorem Sealed.zeroStash {p : Part} (hs : Sealed s₀ s) : Sealed s₀ (s.zeroStash p) := hs.foldl fun _ _ h => by
    split
    · exact h.zeroExtent
    · exact h

theorem Sealed.clearFabric {p : Part} (hs : Sealed s₀ s) : Sealed s₀ (s.clearFabric p) := hs.frame

theorem Sealed.bindJob {p : Part} {b : Binary} {images : List (List PByte)} (hs : Sealed s₀ s) : Sealed s₀ (s.bindJob p b images) :=
  .ite (hs.modPart.foldl fun _ _ h => h.modSt).zeroStash.clearFabric.setClocks.setReg.setReg.reserveChanged (hs.modPart.foldl fun _ _ h =>
    h.modSt).zeroStash.clearFabric.setClocks.setReg.setReg

theorem Sealed.startBound {p : Part} (hs : Sealed s₀ s) : Sealed s₀ (s.startBound p) := .ite hs.startJob hs

theorem Sealed.restoreFail {p : Part} (hs : Sealed s₀ s) : Sealed s₀ (s.restoreFail p) := hs.modSec.raise

theorem Sealed.refuseImage {p : Part} {i : Image} (hs : Sealed s₀ s) : Sealed s₀ (s.refuseImage p i) := .ite hs.restoreFail.raise hs.restoreFail

theorem Sealed.beginRestore {p : Part} {v : Nat} (hs : Sealed s₀ s) : Sealed s₀ (s.beginRestore p v) := by
  unfold State.beginRestore
  dsimp only
  refine .ite hs.modSec.setJobState.modSec ?_
  split
  · exact hs.modSec.setJobState.restoreFail
  · exact .ite hs.modSec.setJobState.modSec hs.modSec.setJobState.refuseImage

theorem Sealed.restoreForbidden {p : Part} {t : Twr} (hs : Sealed s₀ s) : Sealed s₀ (s.restoreForbidden p t) := hs.raise

theorem Sealed.landBlock {p : Part} {blk : Nat} {ok : Bool} {data : List Byte} (hs : Sealed s₀ s) : Sealed s₀ (s.landBlock p blk ok data) := by
  unfold State.landBlock
  dsimp only
  split
  · exact .ite hs.restoreFail (.ite hs.restoreForbidden (.modSec (.ite hs.towerWrite hs)))
  · exact hs

theorem Sealed.execRestoreBlockLands {p : Part} {blk : Nat} {data : List Byte} (hs : Sealed s₀ s) :
    Answers s₀ (execRestoreBlockLands p blk data s) := by
  unfold Machine.execRestoreBlockLands
  dsimp only
  split
  · exact .next hs
  · exact .ite (.next hs) (.next hs.landBlock)

theorem Sealed.execRestoreComplete {p : Part} (hs : Sealed s₀ s) : Answers s₀ (execRestoreComplete p s) := by
  unfold Machine.execRestoreComplete
  dsimp only
  split
  · exact .next hs
  · exact .ite (.next hs) (.next hs.modSec.startBound)

theorem Sealed.runLoader {p : Part} {e : MemEcc} {a n : Nat} (hs : Sealed s₀ s) : Sealed s₀ (s.runLoader p e a n) := by
  unfold State.runLoader
  dsimp only
  split
  · exact hs.loadCheck.setReg.setJobState
  · exact .ite hs.loadCheck.bindJob.beginRestore hs.loadCheck.bindJob.startBound

theorem Sealed.jobLoad {p : Part} {v : Nat} {iso : List RestartFinding} {e : MemEcc} (hs : Sealed s₀ s) : Sealed s₀ (s.jobLoad p v iso e) :=
  hs.modPart.setJobState.restartWork.runLoader

theorem Sealed.execJobLoad {via : Via} {p : Part} {req : W128} {iso : List RestartFinding} {e : MemEcc} (hs : Sealed s₀ s) :
    Answers s₀ (execJobLoad via p req iso e s) :=
  hs.commandWhole fun _ _ => .checked fun _ h => h.jobLoad

theorem Sealed.endByCommand {p : Part} (hs : Sealed s₀ s) : Sealed s₀ (s.endByCommand p) := .ite hs.beatEnd.modPart.endJob hs.beatEnd

theorem Sealed.execJobEnd {via : Via} {p : Part} (hs : Sealed s₀ s) : Answers s₀ (execJobEnd via p s) :=
  hs.command fun _ _ => .ite (.mk (fun _ h => h.setReg.endByCommand)) .refused

theorem Sealed.jobDefaults {p : Part} (hs : Sealed s₀ s) : Sealed s₀ (s.jobDefaults p) :=
  (hs.setClocks.foldl fun _ _ h => h.modSt.setReg).frame.setReg.setReg.forgetHangs.modPart

theorem Sealed.unload {p : Part} (hs : Sealed s₀ s) : Sealed s₀ (s.unload p) := hs.beatEnd.jobDefaults.clearFabric.setJobState

theorem Sealed.execJobUnload {via : Via} {p : Part} (hs : Sealed s₀ s) : Answers s₀ (execJobUnload via p s) :=
  hs.command fun _ _ => .ite (.mk (fun _ h => h.setReg.unload)) .refused

/-! ### Monitor and the log -/

theorem Sealed.noteEntry {e : Nat × Nat} (hs : Sealed s₀ s) : Sealed s₀ (s.noteEntry e) := by
  unfold State.noteEntry
  exact hs.modStw

theorem Sealed.noteAll (hs : Sealed s₀ s) : Sealed s₀ s.noteAll := by
  unfold State.noteAll
  exact (hs.foldl fun _ _ h => h.noteEntry).modStw

theorem Sealed.execRiskEstimateUpdate (hs : Sealed s₀ s) : Answers s₀ (execRiskEstimateUpdate s) :=
  .ite (.next hs) (.next (hs.noteAll.foldl fun _ _ h => h.setReg))

theorem Sealed.execCleanHourTick (hs : Sealed s₀ s) : Answers s₀ (execCleanHourTick s) := .ite (.next hs) (.next hs.modStw.saveCleanHours)

theorem Sealed.execLogAcknowledge {via : Via} {seq : W16} (hs : Sealed s₀ s) : Answers s₀ (execLogAcknowledge via seq s) := by
  unfold Machine.execLogAcknowledge Machine.command Machine.serve
  refine .ite (.next hs) ?_
  split
  · exact .next hs.emit
  · refine .ite (.next hs.reply) (.next ?_)
    dsimp only
    split
    · exact hs.reply
    · split
      · exact hs.reply.setReg.frame
      · exact hs.reply

/-! ### Management and SPDM -/

theorem Sealed.execDictionaryRead {via : Via} {r : DictReq} (hs : Sealed s₀ s) : Answers s₀ (execDictionaryRead via r s) :=
  .ite (.next hs) (hs.serve fun _ _ _ => .ite (.mk (fun _ h => h)) (.mk (fun _ h => h)))

/-- A write that the checks before the value let pass is of an entry outside the set-up, whose entries are of access RO or RWB (R453, R550). -/
theorem writeStatus_outside {role : Role} {r : DictReq} (h : s.writeStatus role r = 0) :
    r.index.toNat * 256 + r.sub.toNat < 0x200000 ∨ 0x3000 ≤ r.index.toNat ∨ r.index.toNat = 0x2FFE ∧ r.sub.toNat = 0 := by
  by_contra hin
  obtain ⟨hlo, hhi⟩ : 0x2000 ≤ r.index.toNat ∧ r.index.toNat ≤ 0x2FFF := by omega
  unfold State.writeStatus at h
  dsimp only at h
  split at h
  · split at h <;> omega
  · next e hrow =>
    obtain ⟨-, -, hacc⟩ := setupRow hrow hlo hhi
    rw [if_pos (by rcases hacc with hacc | hacc <;> simp [hacc])] at h
    omega

theorem Sealed.writeEntry {idx sub v : Nat} (hs : Sealed s₀ s) (hfree : idx * 256 + sub < 0x200000 ∨ 0x3000 ≤ idx ∨ idx = 0x2FFE ∧ sub = 0) :
    Sealed s₀ (s.writeEntry idx sub v) := by
  have hset := hs.setRegAt (v := v) hfree
  unfold State.writeEntry
  dsimp only
  refine .ite hset ?_
  split
  · exact hset.roleChanged
  · exact hset.groupWritten
  · exact hset.reserveChanged
  · exact hset

theorem Sealed.execDictionaryWrite {via : Via} {r : DictReq} {data : List Byte} (hs : Sealed s₀ s) :
    Answers s₀ (execDictionaryWrite via r data s) := by
  refine .ite (.next hs) (hs.serve fun u _ role => .guarded fun hzero _ h => h.writeEntry (writeStatus_outside (s := u) (role := role) ?_))
  by_contra hstatus
  split at hzero <;> simp_all

theorem Sealed.execDomainWriteSegment {via : Via} {r : DictReq} {data : List Byte} (hs : Sealed s₀ s) :
    Answers s₀ (execDomainWriteSegment via r data s) :=
  .ite (.next hs) (hs.serve fun _ _ _ => .guarded fun _ _ h => h.stage)

theorem Sealed.applyDomain {idx sub : Nat} {v : List Byte} {iso : List RestartFinding} {e : MemEcc} (hs : Sealed s₀ s)
    (hfree : idx * 256 + sub < 0x200000 ∨ 0x3000 ≤ idx ∨ idx = 0x2FFE ∧ sub = 0) : Sealed s₀ (s.applyDomain idx sub v iso e) := by
  unfold State.applyDomain
  split
  · exact hs.jobLoad
  · exact hs.armRestore
  · exact (hs.setDomAt hfree).planDiffers
  · exact hs.setDomAt hfree

theorem Sealed.execDomainWriteCommit {via : Via} {r : DictReq} {data : List Byte} {iso : List RestartFinding} {e : MemEcc} (hs : Sealed s₀ s) :
    Answers s₀ (execDomainWriteCommit via r data iso e s) := by
  refine .ite (.next hs) (hs.serve fun u _ role => ?_)
  dsimp only
  split
  · exact .mk fun _ h => h
  · next hzero =>
    have hstatus : u.writeStatus role r = 0 := by
      by_contra hstatus
      refine hzero ?_
      unfold State.segmentStatus
      dsimp only
      split <;> simp_all
    exact .mk fun _ h => .ite (h.unstage.applyDomain (writeStatus_outside hstatus)) h.unstage

theorem Sealed.saveAll (hs : Sealed s₀ s) : Sealed s₀ s.saveAll :=
  ⟨⟨fun _ he => (List.mem_filter.1 he).2, fun _ he => (List.mem_filter.1 he).2⟩, hs.same⟩

theorem Sealed.execSaveConfiguration {via : Via} (hs : Sealed s₀ s) : Answers s₀ (execSaveConfiguration via s) :=
  hs.command fun _ _ => .mk fun _ h => (h.setLow (by decide)).saveAll

theorem Sealed.putAll {src : Sparse W64} : ∀ {s : State}, Sealed s₀ s → (∀ e ∈ src, isKept .s e.1 = true) → Sealed s₀ { s with dict := putAll s.dict src } := by
  induction src with
  | nil => exact fun hs _ => hs
  | cons e src ih =>
    exact fun hs hsrc => ih (hs.putReg (d := BitVec.ofNat 64 (odDflt (e.1 / 256) (e.1 % 256))) (not_setupKey_of_saved (hsrc e List.mem_cons_self)))
      fun x hx => hsrc x (List.mem_cons_of_mem _ hx)

theorem Sealed.putDoms {src : List (Nat × List Byte)} : ∀ {s : State}, Sealed s₀ s → (∀ e ∈ src, isKept .s e.1 = true) →
    Sealed s₀ { s with doms := putDoms s.doms src } := by
  induction src with
  | nil => exact fun hs _ => hs
  | cons e src ih =>
    exact fun hs hsrc => ih (hs.putDom (not_setupKey_of_saved (hsrc e List.mem_cons_self))) fun x hx => hsrc x (List.mem_cons_of_mem _ hx)

/-- The saved values return: none of them is of the set-up. -/
theorem Sealed.loadSaved (hs : Sealed s₀ s) : Sealed s₀ s.loadSaved := by
  have hout : ∀ k, SetupKey k → (!isKept .s k) = true := fun k hk => by rw [isKept_setup hk (.inl rfl)]; rfl
  exact (((hs.dropRegs (f := fun k => !isKept .s k) hout).dropDoms (f := fun k => !isKept .s k) hout).putAll hs.saved.1).putDoms hs.saved.2

theorem Sealed.closeSessions {ok : SessTransport → Bool} (hs : Sealed s₀ s) : Sealed s₀ (s.closeSessions ok) := hs.modStw

theorem Sealed.followSaved {old : State} (hs : Sealed s₀ s) : Sealed s₀ (State.followSaved old s) := by
  have hclock := hs.foldl (g := fun s p => if s.reg 0x4100 (p.val + 1) = old.reg 0x4100 (p.val + 1) then s else s.retarget p) (l := List.finRange 4)
    fun _ _ h => .ite h h.retarget
  have hports := hclock.foldl (g := fun s q => if s.reg 0x5000 (q.val + 1) = 0 && old.reg 0x5000 (q.val + 1) ≠ 0 then s.stopPort q else s)
    (l := List.finRange 28)
    fun _ _ h => .ite h.stopPort h
  exact (Sealed.foldl (.ite hports hports.roleChanged) fun _ _ h => .ite h h.reserveChanged).foldl fun _ _ h => .ite h (h.setLow (by omega)).closeSessions

theorem Sealed.execDiscardUnsaved {via : Via} (hs : Sealed s₀ s) : Answers s₀ (execDiscardUnsaved via s) := by
  unfold Machine.execDiscardUnsaved
  refine hs.command fun _ _ => .mk fun _ h => ?_
  exact (h.setLow (by decide)).loadSaved.planDiffers.followSaved

theorem Sealed.execRestoreFactory {via : Via} (hs : Sealed s₀ s) : Answers s₀ (execRestoreFactory via s) :=
  hs.command fun _ _ _ h => by
    have hout : ∀ k, SetupKey k → (!isKept .u k) = true := fun k hk => by rw [isKept_setup hk (.inr rfl)]; rfl
    exact (h.setReg.dropRegs (f := fun k => !isKept .u k) hout).dropDoms (f := fun k => !isKept .u k) hout

theorem Sealed.factoryStation {st : St} (hs : Sealed s₀ s) : Sealed s₀ (s.factoryStation st) := .saveRowMap (.ite hs.saveStationState.modHealth hs)

theorem Sealed.execRestoreFactoryRepairMaps {via : Via} (hs : Sealed s₀ s) : Answers s₀ (execRestoreFactoryRepairMaps via s) :=
  hs.command fun _ _ => .ite .refused (.mk (fun _ h => h.setReg.foldl fun _ _ h => h.factoryStation))

theorem Sealed.execManagementSessionHandshake {t : SessTransport} {c : ClientCert} (hs : Sealed s₀ s) :
    Answers s₀ (execManagementSessionHandshake t c s) := by
  unfold Machine.execManagementSessionHandshake
  refine .ite (.next hs) ?_
  split
  · exact .next hs.modStw
  · exact .next hs

theorem Sealed.closeSession {n : Fin 8} (hs : Sealed s₀ s) : Sealed s₀ (s.closeSession n) := hs.modStw

theorem Sealed.execSessionIdleTimeout {n : Fin 8} (hs : Sealed s₀ s) : Answers s₀ (execSessionIdleTimeout n s) := by
  unfold Machine.execSessionIdleTimeout
  split
  · exact .ite (.next hs.closeSession) (.next hs)
  · exact .next hs

theorem Sealed.execManagementSessionClose {n : Fin 8} (hs : Sealed s₀ s) : Answers s₀ (execManagementSessionClose n s) :=
  .ite (.next hs.closeSession) (.next hs)

theorem Sealed.execManagementModeWrite {via : Via} {m : Fin 2} {v : Byte} (hs : Sealed s₀ s) : Answers s₀ (execManagementModeWrite via m v s) :=
  hs.command fun _ _ => .ite (.mk (fun _ h => h)) (.mk (fun _ h => .ite h ((h.setLow (by omega)).setLow (by omega)).closeSessions))

theorem Sealed.execManagementLinkUp {m : Fin 2} {tenG : Bool} (hs : Sealed s₀ s) : Answers s₀ (execManagementLinkUp m tenG s) :=
  .ite (.next hs) (.next (hs.setLow (by omega)))

theorem Sealed.execManagementLinkDown {m : Fin 2} (hs : Sealed s₀ s) : Answers s₀ (execManagementLinkDown m s) :=
  .ite (.next hs) (.next (hs.setLow (by omega)))

theorem Sealed.spdmAnswer {via : SpdmVia} {act : State → Byte × List Byte × (State → State)} (hs : Sealed s₀ s)
    (hact : ∀ t, Sealed s₀ t → Replies s₀ (act t)) :
    Answers s₀ (spdmAnswer via act s) := by
  refine .ite (.next hs) ?_
  dsimp only
  cases via with
  | session n => exact .next (hact _ hs _ hs.modSess).emit
  | doe _ => exact .next (hact _ hs _ hs).emit

theorem Sealed.execGetVersion {via : SpdmVia} (hs : Sealed s₀ s) : Answers s₀ (execGetVersion via s) :=
  hs.spdmAnswer fun _ _ => .mk fun _ h => h

theorem Sealed.execGetCapabilities {via : SpdmVia} (hs : Sealed s₀ s) : Answers s₀ (execGetCapabilities via s) :=
  hs.spdmAnswer fun _ _ => .mk fun _ h => h

theorem Sealed.execNegotiateAlgorithms {via : SpdmVia} (hs : Sealed s₀ s) : Answers s₀ (execNegotiateAlgorithms via s) :=
  hs.spdmAnswer fun _ _ => .mk fun _ h => h

theorem Sealed.execGetDigests {via : SpdmVia} (hs : Sealed s₀ s) : Answers s₀ (execGetDigests via s) :=
  hs.spdmAnswer fun _ _ => .mk fun _ h => h

theorem Sealed.execGetCertificate {via : SpdmVia} {slot : Byte} {off len : Nat} (hs : Sealed s₀ s) :
    Answers s₀ (execGetCertificate via slot off len s) :=
  hs.spdmAnswer fun _ _ => .ite (.mk (fun _ h => h)) (.mk (fun _ h => h))

theorem Sealed.execChallenge {via : SpdmVia} {nonce : BitVec 256} (hs : Sealed s₀ s) : Answers s₀ (execChallenge via nonce s) :=
  hs.spdmAnswer fun _ _ => .mk fun _ h => h

theorem Sealed.execGetMeasurements {via : SpdmVia} {index : Byte} {signed : Bool} {nonce : BitVec 256} (hs : Sealed s₀ s) :
    Answers s₀ (execGetMeasurements via index signed nonce s) :=
  hs.spdmAnswer fun _ _ => .ite (.mk (fun _ h => h)) (.mk (fun _ h => h))

theorem Sealed.execKeyExchange {via : SpdmVia} (hs : Sealed s₀ s) : Answers s₀ (execKeyExchange via s) :=
  hs.spdmAnswer fun _ _ => .mk fun _ h => h.modStw

theorem Sealed.execFinish {via : SpdmVia} {ok : Bool} (hs : Sealed s₀ s) : Answers s₀ (execFinish via ok s) :=
  hs.spdmAnswer fun _ _ => .ite (.mk (fun _ h => h)) (.ite (.mk (fun _ h => h.modStw)) (.mk (fun _ h => h.modStw)))

theorem Sealed.execHeartbeat {via : SpdmVia} (hs : Sealed s₀ s) : Answers s₀ (execHeartbeat via s) :=
  hs.spdmAnswer fun _ _ => .ite (.mk (fun _ h => h)) (.mk (fun _ h => h))

theorem Sealed.execKeyUpdate {via : SpdmVia} (hs : Sealed s₀ s) : Answers s₀ (execKeyUpdate via s) :=
  hs.spdmAnswer fun _ _ => .ite (.mk (fun _ h => h)) (.mk (fun _ h => h.modStw))

theorem Sealed.execEndSession {via : SpdmVia} (hs : Sealed s₀ s) : Answers s₀ (execEndSession via s) :=
  hs.spdmAnswer fun _ _ => .ite (.mk (fun _ h => h)) (.mk (fun _ h => h.modStw))

/-! ### Rails -/

theorem Sealed.alertFrom {old : State} (hs : Sealed s₀ s) : Sealed s₀ (State.alertFrom old s) := .ite hs hs.modPwr

theorem Sealed.setInsertion {v : Nat} (hs : Sealed s₀ s) : Sealed s₀ (s.setInsertion v) := hs.setReg.alertFrom

theorem Sealed.setSteward {v : Nat} (hs : Sealed s₀ s) : Sealed s₀ (s.setSteward v) := by
  have hset := (hs.setLow (idx := 0x1030) (sub := 0) (v := v) (by decide)).alertFrom (old := s)
  exact .ite hset.notify hset

theorem Sealed.setThermal {i : Nat} {on : Bool} (hs : Sealed s₀ s) : Sealed s₀ (s.setThermal i on) := hs.setReg.alertFrom

theorem Sealed.showPower {v : Nat} {running : Bool} (hs : Sealed s₀ s) : Sealed s₀ (s.showPower v running) := hs.setReg

theorem Sealed.resetAperture {p : Part} (hs : Sealed s₀ s) : Sealed s₀ (s.resetAperture p) := by
  unfold State.resetAperture
  dsimp only
  split
  · exact .ite hs.abortWhere.restoreFail hs.abortWhere
  · exact hs.abortWhere

theorem Sealed.pcieReset (hs : Sealed s₀ s) : Sealed s₀ s.pcieReset := (hs.frame.resetCrossings.setLow (by decide)).foldl fun _ _ h => h.resetAperture

theorem Sealed.raiseRail {r : Fin 14} (hs : Sealed s₀ s) : Sealed s₀ (s.raiseRail r) := by
  unfold State.raiseRail
  dsimp only
  split
  · exact hs.modPwr.modPwr.emit
  · exact hs.modPwr

theorem Sealed.raiseNext (hs : Sealed s₀ s) : Sealed s₀ s.raiseNext := by
  unfold State.raiseNext
  split
  · exact hs
  · exact hs.modPwr.foldl fun _ _ h => h.raiseRail

theorem Sealed.startRaise {rails : List (Fin 14)} (hs : Sealed s₀ s) : Sealed s₀ (s.startRaise rails) := hs.modPwr.raiseNext

theorem Sealed.dropRail {r : Fin 14} (hs : Sealed s₀ s) : Sealed s₀ (s.dropRail r) := .ite hs.modPwr.pcieReset hs.modPwr

theorem Sealed.lowerNext (hs : Sealed s₀ s) : Sealed s₀ s.lowerNext := by
  unfold State.lowerNext
  split
  · exact hs
  · exact hs.modPwr.dropRail

theorem Sealed.startLower {rails : List (Fin 14)} (hs : Sealed s₀ s) : Sealed s₀ (s.startLower rails) := hs.modPwr.lowerNext

theorem Sealed.zeroTowers (hs : Sealed s₀ s) : Sealed s₀ s.zeroTowers := hs.frame

theorem Sealed.zeroStashes (hs : Sealed s₀ s) : Sealed s₀ s.zeroStashes := hs.frame

theorem Sealed.portsDown (hs : Sealed s₀ s) : Sealed s₀ s.portsDown := (hs.foldl fun _ _ h => .ite h.modPort h.modPort.setPortState).checkParent

theorem Sealed.resetDie (hs : Sealed s₀ s) : Sealed s₀ s.resetDie :=
  (hs.portsDown.frame.foldl fun _ _ h => h.setReg).zeroStashes

theorem Sealed.dropStatistics (hs : Sealed s₀ s) : Sealed s₀ s.dropStatistics :=
  hs.dropRegs (f := fun k => k / 256 < 0x9000 || k / 256 = 0x9063 || k / 256 = 0x90A0 || k / 256 = 0x90A1) fun k hk => by
    have hlow : k / 256 < 0x9000 := Nat.lt_of_le_of_lt hk.2.1 (by decide)
    simp only [hlow, decide_true, Bool.true_or]

theorem Sealed.forgetEpochs (hs : Sealed s₀ s) : Sealed s₀ s.forgetEpochs := hs.foldl fun _ _ h => h.modSec.noteEpoch

theorem Sealed.enterStewardOnly {rails : List (Fin 14)} (hs : Sealed s₀ s) : Sealed s₀ (s.enterStewardOnly rails) :=
  (hs.beatEnd.modPwr.foldl fun _ _ h => h.dropRail).resetDie.zeroTowers.forgetEpochs.dropStatistics.showPower

/-! ### Boot and firmware -/

theorem Sealed.setSlot {i : Fin 4} {v : Byte} (hs : Sealed s₀ s) : Sealed s₀ (s.setSlot i v) := hs.modStw

theorem Sealed.pickSlot {k : FwKind} {sigs : Vector Bool 4} {l : List (Fin 4)} : ∀ {s : State}, Sealed s₀ s → State.pickSlot k sigs l s = some t →
    Sealed s₀ t := by
  induction l with
  | nil => exact fun _ h => nomatch h
  | cons i l ih =>
    intro s hs h
    unfold State.pickSlot at h
    split at h
    · cases h
      exact hs.setSlot
    · exact ih hs.setSlot h

theorem Sealed.deriveDevice (hs : Sealed s₀ s) : Sealed s₀ s.deriveDevice := .ite hs hs.modStw

theorem Sealed.deriveAliases (hs : Sealed s₀ s) : Sealed s₀ s.deriveAliases := by
  unfold State.deriveAliases
  exact hs.modStw

theorem Sealed.showRunning (hs : Sealed s₀ s) : Sealed s₀ s.showRunning := ((hs.deriveAliases.setDomAt (.inl (by decide))).setDomAt (.inl (by decide))).setLow (by decide)

theorem Sealed.endAllJobs (hs : Sealed s₀ s) : Sealed s₀ s.endAllJobs :=
  hs.foldl fun _ _ h => .ite (.unload (.ite h.endByCommand h)) (.ite h.endByCommand h)

theorem Sealed.holdDie (hs : Sealed s₀ s) : Sealed s₀ s.holdDie := by
  unfold State.holdDie
  exact hs.endAllJobs.forgetEpochs.resetDie.modStw.modPwr

theorem Sealed.recover (hs : Sealed s₀ s) : Sealed s₀ s.recover := hs.holdDie.setSteward

theorem Sealed.probeNand (hs : Sealed s₀ s) : Sealed s₀ s.probeNand := hs.foldl fun _ _ h => h.foldl fun _ _ h => h.emit

theorem Sealed.findNand {b : BootResult} (hs : Sealed s₀ s) : Sealed s₀ (s.findNand b) := by
  have hshown {g : Steward → Steward} {n v r : Nat} : Sealed s₀ ((((s.probeNand.modStw g).setReg 0x1211 0 n).saveReg 0x617C 0 v).setReg 0x617E 0 r) :=
    (hs.probeNand.modStw.setLow (by decide)).saveSepiaWear.setReg
  exact .ite (.modStw (.ite hshown hshown.abortTier)) (.foldl (.modStw (.ite hshown hshown.abortTier)) fun _ _ h => .ite h.modSec h)

theorem Sealed.firmwareBreach {old : State} (hs : Sealed s₀ s) : Sealed s₀ (State.firmwareBreach old s) :=
  .ite (hs.foldl fun _ _ h => .ite h.raise h) hs

theorem State.deriveDevice_fresh (s : State) : s.deriveDevice.stw.fresh = s.stw.fresh := by
  unfold State.deriveDevice
  split <;> rfl

theorem State.pickSlot_fresh {k : FwKind} {sigs : Vector Bool 4} {l : List (Fin 4)} : ∀ {s t : State}, State.pickSlot k sigs l s = some t → t.stw.fresh = s.stw.fresh := by
  induction l with
  | nil => exact fun h => nomatch h
  | cons i l ih =>
    intro s t h
    unfold State.pickSlot at h
    split at h
    · cases h
      rfl
    · exact (ih h).trans rfl

theorem Sealed.sealOrVerify (hs : Sealed s₀ s) (hfresh : s.stw.fresh = false) : Sealed s₀ (if s.stw.fresh then s.sealFresh else s.verifySeal) := by
  rw [if_neg (Bool.eq_false_iff.1 hfresh)]
  exact hs.verifySeal

/-- A boot that finds the set-up sealed verifies it and writes nothing of it (R454). -/
theorem Sealed.bootSteps {b : BootResult} (hs : Sealed s₀ s) (hfresh : s.stw.fresh = false) : Sealed s₀ (s.bootSteps b) := by
  unfold State.bootSteps
  dsimp only
  refine .ite hs.holdDie.modStw.setSteward ?_
  split
  · exact hs.modStw.deriveDevice.recover
  · next s₁ hboot =>
    have hs₁ := hs.modStw.deriveDevice.pickSlot hboot
    refine .ite hs₁.recover ?_
    split
    · exact hs₁.recover
    · next s₂ hrun =>
      have hs₂ := (hs₁.pickSlot hrun).modStw (g := fun x => { x with poisoned := b.bad, badRecs := b.badRecs.map fun e => (e.1.val, fit 0 32 e.2) })
      have hsealed : s₂.stw.fresh = false := (State.pickSlot_fresh hrun).trans ((State.pickSlot_fresh hboot).trans ((State.deriveDevice_fresh _).trans hfresh))
      exact .setSteward (.modStw (.firmwareBreach (.showRunning (.findNand (hs₂.sealOrVerify hsealed)))))

theorem Sealed.answerRestart {f : Pf} (hs : Sealed s₀ s) : Sealed s₀ (s.answerRestart f) := .ite hs.modFn hs.modFn.emit.modFn.vector

theorem Sealed.holdPort {q : PortId} (hs : Sealed s₀ s) : Sealed s₀ (s.holdPort q) := .ite hs hs.portDown

theorem Sealed.restartSteward (hs : Sealed s₀ s) : Sealed s₀ s.restartSteward := by
  unfold State.restartSteward
  exact ((hs.foldl fun _ _ h => h.answerRestart).foldl fun _ _ h => h.holdPort).modStw.setSteward

theorem Sealed.execStewardRestart {via : Via} (hs : Sealed s₀ s) : Answers s₀ (execStewardRestart via s) :=
  hs.command fun _ _ => .mk fun _ h => (h.setLow (by decide)).restartSteward

theorem Sealed.execWatchdogExpiry (hs : Sealed s₀ s) : Answers s₀ (execWatchdogExpiry s) := .ite (.next hs.restartSteward) (.next hs)

theorem Sealed.execStewardLockstepMismatch (hs : Sealed s₀ s) : Answers s₀ (execStewardLockstepMismatch s) :=
  .ite (.next hs) (.next hs.restartSteward.raise.frame)

theorem Sealed.execImageStagingWrite {via : Via} {kind : FwKind} {off : Nat} {data : List Byte} {commit : Bool} (hs : Sealed s₀ s) :
    Answers s₀ (execImageStagingWrite via kind off data commit s) :=
  .ite (.next hs) (hs.serve fun _ _ _ t h => by
    dsimp only
    split
    · exact h
    · exact .ite h.stage h.unstage.modStw.setSlot)

theorem Sealed.execFirmwareVerify {via : Via} {bootSig runSig : Bool} (hs : Sealed s₀ s) :
    Answers s₀ (execFirmwareVerify via bootSig runSig s) :=
  hs.command fun _ _ => .ite (.refusedAt (.inl (by decide))) (.mk (fun _ h => (h.foldl fun _ _ h => h.setSlot.modStw).setLow (by decide)))

theorem Sealed.activate {k : FwKind} {i : Fin 4} (hs : Sealed s₀ s) : Sealed s₀ (s.activate k i) := by
  unfold State.activate
  exact hs.setSlot.setSlot.modStw

theorem Sealed.execFirmwareActivate {via : Via} (hs : Sealed s₀ s) : Answers s₀ (execFirmwareActivate via s) :=
  hs.command fun _ _ => .ite (.refusedAt (.inl (by decide))) (.mk (fun _ h => ((h.foldl fun _ _ h => h.activate).setLow (by decide)).restartSteward))

theorem Sealed.execRaiseRollbackFloor {via : Via} (hs : Sealed s₀ s) : Answers s₀ (execRaiseRollbackFloor via s) :=
  hs.command fun _ _ => .ite (.refusedAt (.inl (by decide))) (.mk (fun _ h => (h.setLow (by decide)).setLow (by decide)))

theorem Sealed.execFirmwareRevert {via : Via} (hs : Sealed s₀ s) : Answers s₀ (execFirmwareRevert via s) :=
  hs.command fun _ _ => .ite (.refusedAt (.inl (by decide))) (.mk (fun _ h => ((h.foldl fun _ _ h => by
    split
    · exact h.activate
    · exact h).setLow (by decide)).restartSteward))

theorem Sealed.execRuntimeStartTimeout (hs : Sealed s₀ s) : Answers s₀ (execRuntimeStartTimeout s) :=
  .ite (.next hs) (.ite (.next hs.frame.setSlot.recover)
    (.ite (.next hs.frame.setSlot.setSlot.recover) (.next hs.frame.setSlot.setSlot.showRunning.modStw)))

/-! ### Control -/

theorem Sealed.ctlStep {st : St} {npc : Nat} {f : Seqr → Seqr} (hs : Sealed s₀ s) : Checks s₀ (ctlStep s st npc f) := .ok hs.modSt

theorem Sealed.execCtlNop {st : St} {bad : SramWord} (hs : Sealed s₀ s) : Answers s₀ (execCtlNop st bad s) :=
  hs.modSt.issue fun _ h _ _ _ => h.ctlStep

theorem Sealed.execCtlLi {st : St} (hs : Sealed s₀ s) : Answers s₀ (execCtlLi st s) := hs.issue fun _ h _ _ _ => h.ctlStep

theorem Sealed.execCtlAdd {st : St} (hs : Sealed s₀ s) : Answers s₀ (execCtlAdd st s) := hs.issue fun _ h _ _ _ => h.ctlStep

theorem Sealed.execCtlBr {st : St} (hs : Sealed s₀ s) : Answers s₀ (execCtlBr st s) :=
  hs.issue fun _ h _ _ _ => .ite .fault (.ite .fault h.ctlStep)

theorem Sealed.execCtlBase {st : St} (hs : Sealed s₀ s) : Answers s₀ (execCtlBase st s) := hs.issue fun _ h _ _ _ => h.ctlStep

theorem Sealed.execCtlEnd {st : St} (hs : Sealed s₀ s) : Answers s₀ (execCtlEnd st s) := hs.issue fun _ h _ _ _ => h.ctlStep

theorem Sealed.reportDone {p : Part} (hs : Sealed s₀ s) : Sealed s₀ (s.reportDone p) := .ite hs.modPart.setJobState hs

theorem Sealed.execCtlEndFire {st : St} (hs : Sealed s₀ s) : Answers s₀ (execCtlEndFire st s) := by
  unfold Machine.execCtlEndFire
  dsimp only
  split
  · exact .ite (.next hs) (.ite (.next hs.faultFire) (.next hs.modSt.emit.reportDone))
  · exact .next hs

theorem Sealed.execUnlistedOpcode {st : St} (hs : Sealed s₀ s) : Answers s₀ (execUnlistedOpcode st s) := by
  unfold Machine.execUnlistedOpcode
  dsimp only
  split
  · exact .next hs
  · exact .ite (.next hs.faultIssue) (.ite (.next hs.faultWord) (.ite (.next hs) (.next hs.faultIssue)))

/-! ### Resets -/

theorem Sealed.showRetired (hs : Sealed s₀ s) : Sealed s₀ s.showRetired := hs.foldl fun _ _ h => .ite h h.setPortState

theorem Sealed.execSeamReset {via : Via} (hs : Sealed s₀ s) : Answers s₀ (execSeamReset via s) :=
  hs.command fun _ _ => .ite .refused (.mk (fun _ h => h.setReg.resetCrossings))

theorem Sealed.clearJob {p : Part} (hs : Sealed s₀ s) : Sealed s₀ (s.clearJob p) :=
  .ite (.unload (.ite hs.endByCommand hs)) (.jobDefaults (.ite hs.endByCommand hs))

theorem Sealed.resetPort {q : PortId} (hs : Sealed s₀ s) : Sealed s₀ (s.resetPort q) := hs.goodbye.modPort.resetCrossings

theorem Sealed.clearQueues {p : Part} (hs : Sealed s₀ s) : Sealed s₀ (s.clearQueues p) := hs.frame

theorem Sealed.execPartitionReset {via : Via} {p : Part} (hs : Sealed s₀ s) : Answers s₀ (execPartitionReset via p s) :=
  hs.command fun _ _ => .mk fun _ h => (h.setReg.clearJob.clearQueues.foldl fun _ _ h => h.modSt).clearMordants.zeroStash.foldl fun _ _ h =>
    h.resetPort

theorem Sealed.execJobReset {via : Via} {p : Part} (hs : Sealed s₀ s) : Answers s₀ (execJobReset via p s) :=
  hs.command fun _ _ => .mk fun _ h => h.setReg.clearJob.zeroStash

theorem Sealed.execPortReset {via : Via} {port : PortId} (hs : Sealed s₀ s) : Answers s₀ (execPortReset via port s) :=
  hs.command fun _ _ => .mk fun _ h => h.setReg.resetPort

/-! ### Power states -/

theorem Sealed.setParking {l : List Half} {b : Bool} (hs : Sealed s₀ s) : Sealed s₀ (s.setParking l b) := hs.modPwr

theorem Sealed.setStopped {l : List Half} {b : Bool} (hs : Sealed s₀ s) : Sealed s₀ (s.setStopped l b) := hs.modPwr

theorem Sealed.stopClocks {l : List Half} (hs : Sealed s₀ s) : Sealed s₀ (s.stopClocks l) := hs.setStopped.foldl fun _ _ h => .ite h.setReg h

theorem Sealed.setPhase {f : Phase} (hs : Sealed s₀ s) : Sealed s₀ (s.setPhase f) := hs.modPwr

theorem Sealed.beginTrans {target : Nat} {halves : List Half} {f : Phase} (hs : Sealed s₀ s) : Sealed s₀ (s.beginTrans target halves f) :=
  hs.showPower.setReg.modPwr

theorem Sealed.startRemoval {force : Bool} (hs : Sealed s₀ s) : Sealed s₀ (s.startRemoval force) :=
  .foldl (.foldl (.ite hs.modPwr.setInsertion.endAllJobs hs.modPwr.setInsertion) (fun _ _ h => .ite h.stopPort h)) fun _ _ h => h.tunnelSend

theorem Sealed.afterTrans (hs : Sealed s₀ s) : Sealed s₀ s.afterTrans := by
  unfold State.afterTrans
  split
  · exact .ite hs.startRemoval hs
  · exact hs

theorem Sealed.removalReady (hs : Sealed s₀ s) : Sealed s₀ s.removalReady := (hs.foldl fun _ _ h => h.dropRail).setReg.setInsertion

theorem Sealed.doneTrans {v : Nat} (hs : Sealed s₀ s) : Sealed s₀ (s.doneTrans v) :=
  .ite (.removalReady (.ite hs.showPower.modPwr.setReg hs.showPower.modPwr)) (.afterTrans (.ite hs.showPower.modPwr.setReg hs.showPower.modPwr))

theorem Sealed.abandonTrans (hs : Sealed s₀ s) : Sealed s₀ s.abandonTrans := by
  unfold State.abandonTrans
  dsimp only
  split
  · exact hs.setParking.modPwr.showPower.setReg.admitItems.afterTrans
  · exact hs

theorem Sealed.loweringDone (hs : Sealed s₀ s) : Sealed s₀ s.loweringDone := by
  unfold State.loweringDone
  split
  · exact .ite hs.enterStewardOnly.doneTrans hs.doneTrans
  · exact hs

theorem Sealed.beginLowering {target : Nat} {halves : List Half} (hs : Sealed s₀ s) : Sealed s₀ (s.beginLowering target halves) :=
  .ite hs.setParking.stopClocks.setPhase.startLower.loweringDone hs.setParking.stopClocks.setPhase.startLower

theorem Sealed.execRailDecayed {r : Rail} (hs : Sealed s₀ s) : Answers s₀ (execRailDecayed r s) :=
  .ite (.next hs) (.ite (.next hs.modPwr) (.ite (.next hs.modPwr.lowerNext.loweringDone) (.next hs.modPwr.lowerNext)))

theorem Sealed.unparkRings (hs : Sealed s₀ s) : Sealed s₀ s.unparkRings := hs.foldl fun _ _ h => .ite h h.reformRing

theorem Sealed.parkRings (hs : Sealed s₀ s) : Sealed s₀ s.parkRings := hs.foldl fun _ _ h => .ite h.reformRing h

theorem Sealed.unpark {halves : List Half} (hs : Sealed s₀ s) : Sealed s₀ (s.unpark halves) := by
  unfold State.unpark
  exact ((hs.resetCrossings.setParking.setStopped.unparkRings.foldl fun _ _ h => .ite h.modSt.modHealth h).foldl fun _ _ h => h.zeroExtent).doneTrans

theorem Sealed.raiseDone (hs : Sealed s₀ s) : Sealed s₀ s.raiseDone := by
  unfold State.raiseDone
  split
  · exact .ite hs (.ite hs.unpark hs.setPhase)
  · exact .ite hs.setInsertion hs

theorem Sealed.continueRaise (hs : Sealed s₀ s) : Sealed s₀ s.continueRaise := .ite hs.raiseDone hs.raiseNext

theorem Sealed.raiseRails {rails : List (Fin 14)} (hs : Sealed s₀ s) : Sealed s₀ (s.raiseRails rails) :=
  .ite hs.startRaise.raiseDone hs.startRaise

theorem Sealed.execPgAssert {r : Rail} (hs : Sealed s₀ s) : Answers s₀ (execPgAssert r s) :=
  .ite (.next hs) (.ite (.next hs.modPwr.continueRaise) (.next hs.modPwr))

theorem Sealed.emergencyRecords {detail loc2 : Nat} (hs : Sealed s₀ s) : Sealed s₀ (s.emergencyRecords detail loc2) :=
  hs.foldl fun _ _ h => .ite h.raise h

theorem Sealed.fallToSteward {rails : List (Fin 14)} (hs : Sealed s₀ s) : Sealed s₀ (s.fallToSteward rails) :=
  .ite (.removalReady (.ite hs.enterStewardOnly.setReg hs.enterStewardOnly)) (.afterTrans (.ite hs.enterStewardOnly.setReg hs.enterStewardOnly))

theorem Sealed.execPgTimeout {r : Rail} (hs : Sealed s₀ s) : Answers s₀ (execPgTimeout r s) :=
  .ite (.next hs) (.next hs.emergencyRecords.raise.setInsertion.fallToSteward)

theorem Sealed.powerEmergency {r : Rail} (hs : Sealed s₀ s) : Sealed s₀ (s.powerEmergency r) := hs.emergencyRecords.fallToSteward.setThermal

theorem Sealed.execPgDeassert {r : Rail} (hs : Sealed s₀ s) : Answers s₀ (execPgDeassert r s) := .ite (.next hs) (.next hs.powerEmergency)

theorem Sealed.startPark {target : Nat} {halves : List Half} {ends : List Part} (hs : Sealed s₀ s) :
    Sealed s₀ (s.startPark target halves ends) :=
  hs.beginTrans.setParking.foldl fun _ _ h => .ite h.endByCommand h

theorem Sealed.execParkTowersIdle (hs : Sealed s₀ s) : Answers s₀ (execParkTowersIdle s) :=
  .ite (.next hs) (.next (.setPhase (.ite (hs.foldl fun _ _ h => .ite h.goodbye h).parkRings (hs.foldl fun _ _ h => .ite h.goodbye h))))

theorem Sealed.execParkTowerTimeout (hs : Sealed s₀ s) : Answers s₀ (execParkTowerTimeout s) := .ite (.next hs) (.next hs.abandonTrans)

theorem Sealed.execSeamDrained (hs : Sealed s₀ s) : Answers s₀ (execSeamDrained s) :=
  .ite (.next hs) (.next hs.resetCrossings.frame.beginLowering.admitItems)

theorem Sealed.execSeamDrainTimeout (hs : Sealed s₀ s) : Answers s₀ (execSeamDrainTimeout s) := .ite (.next hs) (.next hs.abandonTrans)

/-- The start of a power transition keeps every state following from `s₀`, where it may start. -/
def Sealed.Starts (s₀ : State) (o : Option (State → State)) : Prop := ∀ f, o = some f → ∀ t, Sealed s₀ t → Sealed s₀ (f t)

namespace Sealed.Starts

theorem none : Starts s₀ none := fun _ h => nomatch h

theorem some {f : State → State} (h : ∀ t, Sealed s₀ t → Sealed s₀ (f t)) : Starts s₀ (some f) := by
  rintro _ ⟨⟩
  exact h

theorem ite {c : Prop} [Decidable c] {o o' : Option (State → State)} (h : Starts s₀ o) (h' : Starts s₀ o') :
    Starts s₀ (if c then o else o') := by
  split <;> assumption

end Sealed.Starts

theorem Sealed.powerRequest {via : Via} {target : Nat} {force : Bool} {start : State → Option (State → State)} (hs : Sealed s₀ s)
    (hstart : ∀ t, Starts s₀ (start t)) : Answers s₀ (powerRequest via target force start s) :=
  hs.command fun t _ => .ite .refused (.ite (.mk fun _ h => h.setReg) (by
    split
    · next heq => exact hstart t _ heq
    · exact .refused))

theorem Sealed.execPowerRequestHalfPark {via : Via} {h : Half} {force : Bool} (hs : Sealed s₀ s) :
    Answers s₀ (execPowerRequestHalfPark via h force s) :=
  hs.powerRequest fun _ => .ite .none (.some fun _ h => h.startPark)

theorem Sealed.parkAll {target : Nat} (hs : Sealed s₀ s) : Sealed s₀ (s.parkAll target) := hs.startPark

theorem Sealed.execPowerRequestDeepPark {via : Via} {force : Bool} (hs : Sealed s₀ s) : Answers s₀ (execPowerRequestDeepPark via force s) :=
  hs.powerRequest fun _ => .ite (.some fun _ h => h.beginTrans.raiseRails) (.ite .none (.some fun _ h => h.parkAll))

theorem Sealed.leaveDeep (hs : Sealed s₀ s) : Sealed s₀ s.leaveDeep := hs.beginTrans.beginLowering

theorem Sealed.execPowerRequestStewardOnly {via : Via} {force : Bool} (hs : Sealed s₀ s) :
    Answers s₀ (execPowerRequestStewardOnly via force s) :=
  hs.powerRequest fun _ => .ite (.some fun _ h => h.leaveDeep) (.ite .none (.some fun _ h => h.parkAll))

theorem Sealed.execPowerRequestRun {via : Via} {force : Bool} (hs : Sealed s₀ s) : Answers s₀ (execPowerRequestRun via force s) :=
  hs.powerRequest fun _ => .ite .none (.some fun _ h => h.beginTrans.raiseRails)

theorem Sealed.showReady (hs : Sealed s₀ s) : Sealed s₀ s.showReady := .ite hs.setInsertion hs

theorem Sealed.afterUp (hs : Sealed s₀ s) : Sealed s₀ s.afterUp := by
  unfold State.afterUp
  split
  · exact .ite hs.doneTrans hs.beginLowering
  · exact .ite hs.beginTrans.beginLowering hs

theorem Sealed.execComputeDieReady {failed : List Crossing} (hs : Sealed s₀ s) : Answers s₀ (execComputeDieReady failed s) :=
  .ite (.next hs) (.next (.afterUp
    (.ite ((hs.modPwr.setReg.foldl fun _ _ h => .ite h.crossingFailed h).foldl fun _ _ h => h.formRing).showReady.showTargets
    ((hs.modPwr.setReg.foldl fun _ _ h => .ite h.crossingFailed h).foldl fun _ _ h => h.formRing).showReady.showTargets.setSteward)))

theorem Sealed.bringUp (hs : Sealed s₀ s) : Sealed s₀ s.bringUp := hs.modStw.setInsertion.raiseRails

theorem Sealed.writeHeldRecords (hs : Sealed s₀ s) : Sealed s₀ s.writeHeldRecords := (hs.frame).foldl fun _ _ h => h.logRec

theorem Sealed.sendHeld (hs : Sealed s₀ s) : Sealed s₀ s.sendHeld := hs.modStw.foldl fun _ _ h => h.notify

theorem Sealed.resumeTimeouts (hs : Sealed s₀ s) : Sealed s₀ s.resumeTimeouts := .ite hs hs.frame

theorem Sealed.resume (hs : Sealed s₀ s) : Sealed s₀ s.resume :=
  .ite hs.bringUp (.ite (.ite hs.continueRaise hs) (.setSteward (.ite hs.continueRaise hs)))

theorem Sealed.execRuntimeReady {boot : BootResult} (hs : Sealed s₀ s) (hfresh : s.stw.fresh = false) : Answers s₀ (execRuntimeReady boot s) := by
  have hboot : Sealed s₀ (if s.reg 0x1030 0 = 0 then s.bootSteps boot else s) := .ite (hs.bootSteps hfresh) hs
  exact .ite (.next hs) (.ite (.next hboot) (.next (hboot.setSteward.resumeTimeouts.writeHeldRecords.foldl fun _ _ h => h.reportDone).sendHeld.resume))

theorem Sealed.execStwResetNRelease {boot : BootResult} (hs : Sealed s₀ s) (hfresh : s.stw.fresh = false) : Answers s₀ (execStwResetNRelease boot s) :=
  .ite (.next hs) (.next (hs.modPwr.bootSteps hfresh))

theorem Sealed.execFabricAdmission {via : Via} {v : Byte} (hs : Sealed s₀ s) : Answers s₀ (execFabricAdmission via v s) :=
  hs.command fun _ _ => .ite (.mk (fun _ h => h)) (.mk (fun _ h => .ite h.setReg.setInsertion (.ite h.setReg.setInsertion h.setReg)))

theorem Sealed.execOrderlyRemoval {via : Via} {force : Bool} (hs : Sealed s₀ s) : Answers s₀ (execOrderlyRemoval via force s) :=
  hs.command fun _ _ => .ite .refused (.mk (fun _ h => .ite h.setReg.modPwr h.setReg.startRemoval))

theorem Sealed.execRemovalDrainComplete (hs : Sealed s₀ s) : Answers s₀ (execRemovalDrainComplete s) :=
  .ite (.next hs) (.ite (.next (hs.setInsertion.foldl fun _ _ h => h.closePort.savePortEnable).setInsertion.removalReady)
    (.ite (.next (hs.setInsertion.foldl fun _ _ h => h.closePort.savePortEnable).setInsertion.leaveDeep)
    (.next (hs.setInsertion.foldl fun _ _ h => h.closePort.savePortEnable).setInsertion.parkAll)))

/-! ### Thermal -/

theorem Sealed.setLim {p : Part} {v : Option Nat} (hs : Sealed s₀ s) : Sealed s₀ (s.setLim p v) := hs.modPwr.retarget

theorem Sealed.execPowerLimitCheck {watts : W16} (hs : Sealed s₀ s) : Answers s₀ (execPowerLimitCheck watts s) :=
  .ite (.next hs) (.next (.setThermal (.ite (hs.setReg.foldl fun _ _ h => h.setLim) (.ite (hs.setReg.foldl fun _ _ h => h.setLim) hs.setReg))))

theorem Sealed.modCore {h : Half} {f : CoreRail → CoreRail} (hs : Sealed s₀ s) : Sealed s₀ (s.modCore h f) := hs.modPwr

theorem Sealed.raisesDue (hs : Sealed s₀ s) : Sealed s₀ s.raisesDue := .ite hs (hs.foldl fun _ _ h => by
    split
    · exact h.schedule4100
    · exact h)

theorem Sealed.execCoreRailVoutCommand {h : Half} (hs : Sealed s₀ s) : Answers s₀ (execCoreRailVoutCommand h s) :=
  .ite (.next hs) (.next hs.modCore.emit.raisesDue)

theorem Sealed.execPmbusCommandFailure {h : Half} (hs : Sealed s₀ s) : Answers s₀ (execPmbusCommandFailure h s) :=
  .ite (.next hs) (.ite (.next hs.modCore) (.next hs.modCore.powerEmergency))

theorem Sealed.execCoreRailStepDecay {h : Half} (hs : Sealed s₀ s) : Answers s₀ (execCoreRailStepDecay h s) :=
  .ite (.next hs) (.next hs.saveRailStep.modCore.showTargets)

theorem Sealed.execRailOutOfRange {r : Rail} {mv amps : W16} (hs : Sealed s₀ s) : Answers s₀ (execRailOutOfRange r mv amps s) :=
  .ite (.next hs) (.next (hs.setReg.powerEmergency.foldl fun _ _ h => h.raise))

theorem Sealed.readSensors {l : List W16} (hs : Sealed s₀ s) : Sealed s₀ (s.readSensors l) := hs.foldl fun _ _ h => h.setReg

theorem Sealed.modThr {h : Half} {f : Throttle → Throttle} (hs : Sealed s₀ s) : Sealed s₀ (s.modThr h f) := hs.modPwr

theorem Sealed.setCap {h : Half} {p : Part} {v : Option Nat} (hs : Sealed s₀ s) : Sealed s₀ (s.setCap h p v) := hs.modThr.retarget

theorem Sealed.stepDown {h : Half} (hs : Sealed s₀ s) : Sealed s₀ (s.stepDown h) := hs.modThr.foldl fun _ _ h => h.setCap

theorem Sealed.startThrottle {h : Half} (hs : Sealed s₀ s) : Sealed s₀ (s.startThrottle h) := .ite hs hs.setThermal.count.stepDown.breakHour

theorem Sealed.execThrottleStep {h : Half} (hs : Sealed s₀ s) : Answers s₀ (execThrottleStep h s) := .ite (.next hs) (.next hs.stepDown)

theorem Sealed.execThrottleRecoveryStep {h : Half} (hs : Sealed s₀ s) : Answers s₀ (execThrottleRecoveryStep h s) :=
  .ite (.next hs) (.ite (.next (hs.modThr.foldl fun _ _ h => h.setCap)) (.next (hs.modThr.foldl fun _ _ h => h.setCap).setThermal.breakHour))

theorem Sealed.noteHeat {h : Half} (hs : Sealed s₀ s) : Sealed s₀ (s.noteHeat h) := hs.modThr

theorem Sealed.parkForced (hs : Sealed s₀ s) : Sealed s₀ s.parkForced := hs.parkAll.setReg

theorem Sealed.stopRails (hs : Sealed s₀ s) : Sealed s₀ s.stopRails := hs.modPwr

theorem Sealed.retargetTrans {v : Nat} (hs : Sealed s₀ s) : Sealed s₀ (s.retargetTrans v) := hs.modPwr

theorem Sealed.forceDeep (hs : Sealed s₀ s) : Sealed s₀ s.forceDeep := by
  unfold State.forceDeep
  dsimp only
  split
  · exact .ite hs.parkForced hs
  · split
    · exact hs.setReg.abandonTrans.parkForced
    · exact hs.setReg.abandonTrans.parkForced
    · exact .ite hs.setReg.stopRails.doneTrans.parkForced (.ite hs.setReg.retargetTrans.beginLowering hs.setReg)
    · exact .ite hs.setReg.retargetTrans (.ite hs.setReg.stopRails.retargetTrans.beginLowering hs.setReg.stopRails.doneTrans.parkForced)
    · exact hs.setReg.retargetTrans

theorem Sealed.thermalEmergency {i : Nat} (hs : Sealed s₀ s) : Sealed s₀ (s.thermalEmergency i) :=
  .ite hs hs.emergencyRecords.setThermal.modPwr.forceDeep

theorem Sealed.tripOff {i : Nat} (hs : Sealed s₀ s) : Sealed s₀ (s.tripOff i) := .ite hs hs.emergencyRecords.modPwr.setThermal.fallToSteward

theorem Sealed.unlatch (hs : Sealed s₀ s) : Sealed s₀ s.unlatch := by
  unfold State.unlatch
  dsimp only
  split
  · exact .ite hs.modPwr.setThermal hs.modPwr
  · exact hs.modPwr

theorem Sealed.execSensorSample {reading : List W16} (hs : Sealed s₀ s) : Answers s₀ (execSensorSample reading s) := by
  unfold Machine.execSensorSample
  dsimp only
  refine .ite (.next hs) ?_
  split
  · exact .next hs.readSensors.tripOff
  · refine .ite (.next (hs.readSensors.foldl fun _ _ h => .ite h.raise h)) ?_
    split
    · exact .next ((hs.readSensors.foldl fun _ _ h => .ite h.raise h).foldl fun _ _ h => h.noteHeat.startThrottle).unlatch.thermalEmergency
    · exact .next ((hs.readSensors.foldl fun _ _ h => .ite h.raise h).foldl fun _ _ h => h.noteHeat.startThrottle).unlatch

/-! ### Host port -/

theorem Sealed.execMailboxDoorbell {pf : Pf} {req : List Byte} {w1c : Byte} (hs : Sealed s₀ s) :
    Answers s₀ (execMailboxDoorbell pf req w1c s) :=
  .ite (.next hs) (.ite (.next hs.modFn) (.ite (.next hs.modFn.modFn.answerRestart) (.next hs.modFn.modFn)))

theorem Sealed.execNotificationRingTailWrite {pf : Pf} {v : W32} {w1c : Byte} (hs : Sealed s₀ s) :
    Answers s₀ (execNotificationRingTailWrite pf v w1c s) :=
  .ite (.next hs) (.next hs.modFn)

theorem Sealed.complete {f : Pf} {c : Completion} {parts : List (List Byte × Bool)} (hs : Sealed s₀ s) : Sealed s₀ (s.complete f c parts) :=
  hs.emit

theorem Sealed.logRefused {f : Pf} (hs : Sealed s₀ s) : Sealed s₀ (s.logRefused f) := hs.modFn.count

theorem Sealed.abort {f : Pf} {posted : Bool} (hs : Sealed s₀ s) : Sealed s₀ (s.abort f posted) := .ite hs.logRefused hs.logRefused.complete

theorem Sealed.unsupported {f : Pf} {posted : Bool} (hs : Sealed s₀ s) : Sealed s₀ (s.unsupported f posted) := .ite hs hs.complete

theorem Sealed.enterMesh {f : Pf} {posted : Bool} {way : List (Nat × Nat)} {towers : Bool} {req : HostReq} {act : State → State} (hs : Sealed s₀ s)
    (hact : ∀ t, Sealed s₀ t → Sealed s₀ (act t)) : Sealed s₀ (s.enterMesh f posted way towers req act) :=
  .ite hs.abort (.ite (hs.frame) (hact _ hs))

theorem Sealed.hostRequest {f : Pf} {posted : Bool} {act : Part → State → State} (hs : Sealed s₀ s)
    (hact : ∀ p t, Sealed s₀ t → Sealed s₀ (act p t)) :
    Answers s₀ (hostRequest f posted act s) := by
  refine .ite (.next hs) ?_
  split
  · exact .next (hact _ _ hs)
  · exact .next hs.unsupported
  · exact .next hs.abort

theorem Sealed.onAperture {f : Pf} {p : Part} {off n : Nat} {posted : Bool} {req : HostReq} {act : List (Nat × Nat) → State → State}
    (hs : Sealed s₀ s)
    (hact : ∀ l t, Sealed s₀ t → Sealed s₀ (act l t)) : Sealed s₀ (s.onAperture f p off n posted req act) := by
  unfold State.onAperture
  split
  · exact hs.unsupported
  · exact .ite hs.abort (hs.enterMesh (hact _))

theorem Sealed.readRuns {e : MemEcc} {runs : List (Nat × Nat)} (hs : Sealed s₀ s) : Sealed s₀ (s.readRuns e runs).2 :=
  hs.foldlOf Prod.snd fun _ _ h => h.devRead

theorem Sealed.execBar2MemoryRead {pf : Pf} {off len : Nat} {e : MemEcc} (hs : Sealed s₀ s) :
    Answers s₀ (execBar2MemoryRead pf off len e s) :=
  .ite (.next hs) (hs.hostRequest fun _ _ h => h.onAperture fun _ _ h => h.readRuns.complete)

theorem Sealed.writeRuns {e : MemEcc} {runs : List (Nat × Nat)} : ∀ {s : State} {l : List PByte}, Sealed s₀ s → Sealed
    s₀ (State.writeRuns e s runs l) := by
  induction runs with
  | nil => exact fun hs => hs
  | cons r runs ih => exact fun hs => ih hs.devWriteD

theorem Sealed.execBar2MemoryWrite {pf : Pf} {off : Nat} {data : List Byte} {ep : Bool} {e : MemEcc} (hs : Sealed s₀ s) :
    Answers s₀ (execBar2MemoryWrite pf off data ep e s) :=
  .ite (.next hs) (hs.hostRequest fun _ _ h => h.onAperture fun _ _ h => .ite h.logRefused h.writeRuns)

theorem Sealed.atomicOp {f : Pf} {off : Nat} {wide : Bool} {e : MemEcc} {req : HostReq} {g : Nat → Nat} (hs : Sealed s₀ s) :
    Answers s₀ (atomicOp f off wide e req g s) :=
  .ite (.next hs) (hs.hostRequest fun _ _ h =>
    .ite h.unsupported (h.onAperture fun _ _ h => .ite h.abort (.ite h.readRuns.complete h.readRuns.complete.writeRuns)))

theorem Sealed.execAtomicopFetchadd {pf : Pf} {off : Nat} {wide : Bool} {v : W64} {e : MemEcc} (hs : Sealed s₀ s) :
    Answers s₀ (execAtomicopFetchadd pf off wide v e s) :=
  hs.atomicOp

theorem Sealed.execAtomicopSwap {pf : Pf} {off : Nat} {wide : Bool} {v : W64} {e : MemEcc} (hs : Sealed s₀ s) :
    Answers s₀ (execAtomicopSwap pf off wide v e s) :=
  hs.atomicOp

theorem Sealed.execAtomicopCas {pf : Pf} {off : Nat} {wide : Bool} {cmp v : W64} {e : MemEcc} (hs : Sealed s₀ s) :
    Answers s₀ (execAtomicopCas pf off wide cmp v e s) := by
  unfold Machine.execAtomicopCas
  exact hs.atomicOp

theorem Sealed.readBlockPart {p : Part} {ecc : MemEcc} {i o n : Nat} (hs : Sealed s₀ s) : Sealed s₀ (s.readBlockPart p ecc i o n).2 := by
  unfold State.readBlockPart
  dsimp only
  split
  · exact hs
  · split
    · exact hs.sectorsRead
    · split
      · exact hs.sectorsRead
      · dsimp only
        exact hs.sectorsRead.modBlock.modSec

theorem Sealed.readImagePiece {p : Part} {ecc : MemEcc} {i : Image} {o n : Nat} {x : List PByte × State} (hs : Sealed s₀ s)
    (h : s.readImagePiece p ecc i o n = some x) : Sealed s₀ x.2 := by
  unfold State.readImagePiece at h
  dsimp only at h
  split at h
  · cases h
    exact hs
  · obtain ⟨-, h⟩ := Option.ite_none_right_eq_some.1 h
    cases h
    exact hs.readBlockPart
  · obtain ⟨-, h⟩ := Option.ite_none_left_eq_some.1 h
    cases h
    exact hs
  · cases h

theorem Sealed.readImage {p : Part} {ecc : MemEcc} {x : List PByte × State} {l : List (Nat × Nat)} :
    ∀ {r : List PByte × State}, Sealed s₀ r.2 → State.readImage p ecc l r = some x → Sealed s₀ x.2 := by
  induction l with
  | nil =>
    intro r hr h
    cases h
    exact hr
  | cons y l ih =>
    intro r hr h
    unfold State.readImage at h
    split at h
    · cases h
    · split at h
      · cases h
      · next z heq =>
        have hz := hr.readImagePiece heq
        exact ih (r := (r.1 ++ z.1, z.2)) hz h

theorem Sealed.execImageApertureRead {pf : Pf} {off len : Nat} {e : MemEcc} (hs : Sealed s₀ s) :
    Answers s₀ (execImageApertureRead pf off len e s) :=
  .ite (.next hs) (hs.hostRequest fun _ _ h => by
    dsimp only
    split
    · exact h.unsupported
    · refine .ite h.unsupported (h.enterMesh fun _ h => ?_)
      split
      · exact h.abort
      · next heq => exact (Sealed.readImage (r := ([], _)) h heq).complete)

theorem Sealed.headerThere {p : Part} {r : Restore} (hs : Sealed s₀ s) : Sealed s₀ (s.headerThere p r) := by
  unfold State.headerThere
  dsimp only
  split
  · exact hs.restoreFail
  · exact .ite hs.restoreFail (.ite hs.modSec hs.refuseImage)

theorem Sealed.writeImagePiece {p : Part} {ecc : MemEcc} {o : Nat} {l : List Byte} (hs : Sealed s₀ s) :
    Sealed s₀ (s.writeImagePiece p ecc o l) := by
  unfold State.writeImagePiece
  dsimp only
  split
  · exact hs
  · split
    · exact .ite hs (.ite hs.modSec.headerThere hs.modSec)
    · exact hs.modSec
    · refine .ite hs.restoreFail ?_
      split
      · exact hs
      · exact .ite hs (.ite hs.restoreForbidden (.ite hs.devWriteD.modSec.landBlock hs.devWriteD.modSec))
    · exact hs

theorem Sealed.writeImage {p : Part} {ecc : MemEcc} {l : List (Nat × Nat)} : ∀ {s : State} {d : List Byte}, Sealed s₀ s → Sealed
    s₀ (State.writeImage p ecc l d s) := by
  induction l with
  | nil => exact fun hs => hs
  | cons x l ih => exact fun hs => ih hs.writeImagePiece

theorem Sealed.execImageApertureWrite {pf : Pf} {off : Nat} {data : List Byte} {e : MemEcc} (hs : Sealed s₀ s) :
    Answers s₀ (execImageApertureWrite pf off data e s) :=
  .ite (.next hs) (hs.hostRequest fun _ _ h => by
    dsimp only
    split
    · exact h.unsupported
    · exact .ite h.unsupported (h.enterMesh fun _ h => h.writeImage))

theorem Sealed.execMordantDoorbellWrite {pf : Pf} {off size : Nat} {v : W64} (hs : Sealed s₀ s) :
    Answers s₀ (execMordantDoorbellWrite pf off size v s) :=
  hs.hostRequest fun _ _ h => by
    split
    · exact h.unsupported
    · exact .ite (h.enterMesh fun _ h => h.morAdd) h

theorem Sealed.execMordantDoorbellRead {pf : Pf} {off size : Nat} (hs : Sealed s₀ s) : Answers s₀ (execMordantDoorbellRead pf off size s) :=
  hs.hostRequest fun _ _ h => by
    split
    · exact h.unsupported
    · exact .ite (h.enterMesh fun _ h => h.complete) h.complete

theorem Sealed.setWatch {f : Pf} {i : Nat} {w : Watch} (hs : Sealed s₀ s) : Sealed s₀ (s.setWatch f i w) := hs.modFn

theorem Sealed.fireWatch {f : Pf} {i : Nat} (hs : Sealed s₀ s) : Sealed s₀ (s.fireWatch f i) := hs.setWatch.vector

theorem Sealed.execWatchArm {pf : Pf} {i : Fin 432} {thr : W64} {mor : W16} {w1c : Bool} (hs : Sealed s₀ s) :
    Answers s₀ (execWatchArm pf i thr mor w1c s) := by
  unfold Machine.execWatchArm
  dsimp only
  split
  · exact .next hs
  · exact .ite (.next hs) (.ite (.next hs.setWatch.fireWatch) (.next hs.setWatch))

theorem Sealed.execWatchFire {pf : Pf} {i : Fin 432} (hs : Sealed s₀ s) : Answers s₀ (execWatchFire pf i s) := by
  unfold Machine.execWatchFire
  split
  · exact .next hs
  · exact .ite (.next hs.fireWatch) (.next hs)

theorem Sealed.execPerstNAssert (hs : Sealed s₀ s) : Answers s₀ (execPerstNAssert s) := .ite (.next hs) (.next hs.frame.pcieReset)

theorem Sealed.execPerstNDeassert (hs : Sealed s₀ s) : Answers s₀ (execPerstNDeassert s) := .next hs.frame

theorem Sealed.execHotReset (hs : Sealed s₀ s) : Answers s₀ (execHotReset s) := .ite (.next hs.pcieReset) (.next hs)

theorem Sealed.execPcieLinkDown (hs : Sealed s₀ s) : Answers s₀ (execPcieLinkDown s) := .ite (.next hs.pcieReset) (.next hs)

theorem Sealed.execPcieLinkUp {rate : BitVec 4} {width : BitVec 5} {cfg : Vector PciCfg 5} (hs : Sealed s₀ s) :
    Answers s₀ (execPcieLinkUp rate width cfg s) :=
  .ite (.next hs) (.next ((hs.setLow (by decide)).foldl fun _ _ h => h.modFn))

theorem Sealed.execFunctionLevelReset {pf : Pf} {cfg : PciCfg} (hs : Sealed s₀ s) : Answers s₀ (execFunctionLevelReset pf cfg s) := by
  unfold Machine.execFunctionLevelReset
  dsimp only
  refine .ite (.next hs) ?_
  split
  · exact .next hs.modFn.resetAperture
  · exact .next hs.modFn

theorem Sealed.execD3hotEntry {pf : Pf} (hs : Sealed s₀ s) : Answers s₀ (execD3hotEntry pf s) := .ite (.next hs.modFn) (.next hs)

theorem Sealed.execD0Entry {pf : Pf} (hs : Sealed s₀ s) : Answers s₀ (execD0Entry pf s) := .ite (.next hs.modFn) (.next hs)

theorem Sealed.execPtmRequest {hostTime : W64} (hs : Sealed s₀ s) : Answers s₀ (execPtmRequest hostTime s) := .ite (.next hs.setDom) (.next hs)

/-! ### Sideband -/

theorem Sealed.smbusRead {b : State → List Byte} (hs : Sealed s₀ s) : Answers s₀ (smbusRead b s) := .ite (.next hs) (.next hs.emit)

theorem Sealed.execSmbusReadInsertionState (hs : Sealed s₀ s) : Answers s₀ (execSmbusReadInsertionState s) := hs.smbusRead

theorem Sealed.execSmbusReadPowerState (hs : Sealed s₀ s) : Answers s₀ (execSmbusReadPowerState s) := hs.smbusRead

theorem Sealed.execSmbusReadStatus (hs : Sealed s₀ s) : Answers s₀ (execSmbusReadStatus s) := hs.smbusRead

theorem Sealed.execSmbusReadDieSensor (hs : Sealed s₀ s) : Answers s₀ (execSmbusReadDieSensor s) := hs.smbusRead

theorem Sealed.execSmbusReadDramSensor (hs : Sealed s₀ s) : Answers s₀ (execSmbusReadDramSensor s) := hs.smbusRead

theorem Sealed.execSmbusReadPackagePower (hs : Sealed s₀ s) : Answers s₀ (execSmbusReadPackagePower s) := hs.smbusRead

theorem Sealed.execSmbusReadDeviceId (hs : Sealed s₀ s) : Answers s₀ (execSmbusReadDeviceId s) := hs.smbusRead

theorem Sealed.execSmbusReadSerial (hs : Sealed s₀ s) : Answers s₀ (execSmbusReadSerial s) := hs.smbusRead

theorem Sealed.execAlertResponseAddressRead (hs : Sealed s₀ s) : Answers s₀ (execAlertResponseAddressRead s) :=
  .ite (.next hs) (.next hs.modPwr)

theorem Sealed.execSmbusWrite (hs : Sealed s₀ s) : Answers s₀ (execSmbusWrite s) := .ite (.next hs) (.next hs.emit)

theorem Sealed.execPpsOutPulse (hs : Sealed s₀ s) : Answers s₀ (execPpsOutPulse s) := .ite (.next hs) (.next hs.modPwr)

theorem Sealed.execPpsInEdge (hs : Sealed s₀ s) : Answers s₀ (execPpsInEdge s) := .ite (.next hs) (.next hs.setReg)

theorem Sealed.execTestEnRise (hs : Sealed s₀ s) : Answers s₀ (execTestEnRise s) := .ite (.next hs) (.next hs.holdDie.showPower.modPwr)

theorem Sealed.jtag {i : JtagInstr} {ok : Bool} (hs : Sealed s₀ s) : Answers s₀ (jtag i ok s) :=
  .ite (.next hs) (.ite (.next hs.modPwr.emit) (.next hs.modPwr.emit))

theorem Sealed.execBypass (hs : Sealed s₀ s) : Answers s₀ (execBypass s) := hs.jtag

theorem Sealed.execIdcode (hs : Sealed s₀ s) : Answers s₀ (execIdcode s) := hs.jtag

theorem Sealed.execSamplePreload (hs : Sealed s₀ s) : Answers s₀ (execSamplePreload s) := hs.jtag

theorem Sealed.execExtest (hs : Sealed s₀ s) : Answers s₀ (execExtest s) := hs.jtag

theorem Sealed.execClamp (hs : Sealed s₀ s) : Answers s₀ (execClamp s) := hs.jtag

theorem Sealed.execHighz (hs : Sealed s₀ s) : Answers s₀ (execHighz s) := hs.jtag

theorem Sealed.execPrivateInstruction (hs : Sealed s₀ s) : Answers s₀ (execPrivateInstruction s) := hs.jtag

end
end Sys2Proof.Machine
end

section
/-!
SUPPORT. O54: the commands that reset the compute die, and the set-up after every command (R451, R453, R454, R482).
-/
namespace Sys2Proof.Machine

/-- Only class S entries are saved, and either the compute die is in warm reset, in which its next boot seals the set-up anew, or the set-up is that of `s`. -/
def Secured (s t : State) : Prop := t.savedOk ∧ (t.stw.fresh = true ∨ SameSetup s t)

/-- Every next state that a command answers is so. -/
def Secures (s : State) (o : Host.Outcome State Fault Refusal) : Prop := ∀ t, o = .next t → Secured s t

section
variable {s t : State}

theorem Sealed.secured (h : Sealed s t) : Secured s t := ⟨h.saved, .inr h.same⟩

theorem Sealed.Answers.secures {o : Host.Outcome State Fault Refusal} (h : Sealed.Answers s o) : Secures s o := fun t ht => (h t ht).secured

theorem Secures.next (h : Secured s t) : Secures s (Host.Outcome.next t) := by
  rintro _ ⟨⟩
  exact h

theorem Secures.ite {c : Prop} [Decidable c] {o o' : Host.Outcome State Fault Refusal} (h : Secures s o) (h' : Secures s o') : Secures s (if c then o else o') := by
  split <;> assumption

/-- A command whose effect leaves it so. -/
theorem Secures.command {via : Via} {idx sub : Nat} {data : List Byte} {act : State → Nat × (State → State)} (h : s.savedOk)
    (hact : ∀ t, Sealed s t → Secured s ((act s).2 t)) : Secures s (command via idx sub data act s) := by
  have hs : Sealed s s := .refl h
  unfold Machine.command Machine.serve
  refine .ite (.next hs.secured) ?_
  split
  · exact .next hs.emit.secured
  · refine .ite (.next hs.reply.secured) (.next ?_)
    dsimp only
    split
    · exact hs.reply.secured
    · exact hact _ hs.reply

/-! ### Cold resets -/

/-- A cold reset keeps the saved entries, and leaves the compute die in warm reset. -/
theorem State.coldStart_secured {cause : Nat} {held : Bool} (h : t.savedOk) : (t.coldStart cause held).savedOk ∧ (t.coldStart cause held).stw.fresh = true := by
  have hend : t.beatEnd.savedOk := (Sealed.refl h).beatEnd.saved
  unfold State.coldStart
  dsimp only
  rw [State.showRetired_only]
  exact ⟨hend, rfl⟩

theorem Sealed.coldStart_secured {cause : Nat} {held : Bool} (h : Sealed s t) : Secured s (t.coldStart cause held) := by
  obtain ⟨hsaved, hfresh⟩ := State.coldStart_secured (cause := cause) (held := held) h.saved
  exact ⟨hsaved, .inl hfresh⟩

theorem execPowerOn_secures (h : s.savedOk) : Secures s (execPowerOn s) := .ite (.next (Sealed.refl h).coldStart_secured) (.next (Sealed.refl h).secured)

theorem execColdResetInput_secures (h : s.savedOk) : Secures s (execColdResetInput s) := .ite (.next (Sealed.refl h).coldStart_secured) (.next (Sealed.refl h).secured)

theorem execColdReset_secures {via : Via} (h : s.savedOk) : Secures s (execColdReset via s) := by
  unfold Machine.execColdReset
  refine Secures.command h fun t ht => ?_
  dsimp only
  exact ht.coldStart_secured

theorem execTestEnFall_secures (h : s.savedOk) : Secures s (execTestEnFall s) := by
  have hlow : Sealed s { (s.modPwr fun x => { x with testEn := false }) with draws := s.draws + 1 } := (Sealed.refl h).modPwr.frame
  exact .ite (.next (Sealed.refl h).secured) (.next hlow.coldStart_secured)

theorem execStewardRailFailure_secures (h : s.savedOk) : Secures s (execStewardRailFailure s) := by
  have hbeat : Sealed s { s with beat := [] } := (Sealed.refl h).frame
  obtain ⟨hsaved, hfresh⟩ := State.coldStart_secured (cause := 1) (held := true) hbeat.saved
  unfold Machine.execStewardRailFailure
  refine .ite (.next (Sealed.refl h).secured) (.next ?_)
  generalize State.coldStart _ _ _ = t at hsaved hfresh
  exact ⟨hsaved, .inl hfresh⟩

/-! ### Warm resets -/

theorem State.answerRestart_fresh (s : State) (f : Pf) : (s.answerRestart f).stw.fresh = s.stw.fresh := by
  unfold State.answerRestart State.vector
  dsimp only
  split
  · rfl
  · split <;> rfl

theorem State.holdPort_fresh (s : State) (q : PortId) : (s.holdPort q).stw.fresh = s.stw.fresh := by
  unfold State.holdPort
  dsimp only
  split
  · rfl
  · exact congrArg (fun u => u.stw.fresh) (State.setPortState_only (s.modPort q Port.clear) q stDown)

theorem State.rebooted_fresh (s : State) (x : Steward) : (s.rebooted x).fresh = x.fresh := rfl

/-- A restart of the management cores leaves the compute die in or out of warm reset. -/
theorem State.restartSteward_fresh (s : State) : s.restartSteward.stw.fresh = s.stw.fresh := by
  have hdown (u : State) : ((List.finRange 28).foldl State.holdPort u).stw.fresh = u.stw.fresh := foldl_keeps (fun u => u.stw.fresh) State.holdPort_fresh _ u
  have hanswered (u : State) : ((List.finRange 5).foldl State.answerRestart u).stw.fresh = u.stw.fresh := foldl_keeps (fun u => u.stw.fresh) State.answerRestart_fresh _ u
  rw [State.restartSteward_stw, State.rebooted_fresh, State.restarting, hdown, hanswered]

/-- A warm reset keeps the saved entries, and leaves the compute die in warm reset. -/
theorem Sealed.warmStart_secured (h : Sealed s t) : Secured s t.warmStart := by
  unfold State.warmStart
  extract_lets silent idle dark die zeroed kept fresh clk cleared shown latched
  have hdie : Sealed s die := (h.foldl fun _ _ h => .ite h.goodbye h).endAllJobs.forgetEpochs.resetDie
  clear_value die
  have hzeroed : zeroed.savedOk := (Sealed.ite hdie.zeroTowers hdie).saved
  clear_value zeroed
  have hcleared : cleared.savedOk := hzeroed
  clear_value cleared
  obtain ⟨hshown, hfresh⟩ : Sealed shown shown ∧ shown.stw.fresh = true := by
    refine ⟨.refl (Sealed.refl hcleared).modStw.showRetired.saved, ?_⟩
    exact congrArg (fun u => u.stw.fresh) (State.showRetired_only _)
  clear_value shown
  have hlatched : latched.stw.fresh = true := by
    unfold latched
    split <;> exact hfresh
  have hend : Sealed shown (State.alertFrom t latched.restartSteward) := .alertFrom (.restartSteward (.ite hshown.setReg hshown))
  exact ⟨hend.saved, .inl (by rw [State.alertFrom_stw, State.restartSteward_fresh, hlatched])⟩

theorem execWarmReset_secures {via : Via} (h : s.savedOk) : Secures s (execWarmReset via s) := by
  refine Secures.command h fun t ht => ?_
  split
  · exact (ht.setReg).secured
  · exact ht.warmStart_secured

/-! ### Every command -/

theorem exec_secures (h : s.savedOk) (hfresh : s.stw.fresh = false) (c : Instr) : Secures s (exec c s) := by
  have hs : Sealed s s := .refl h
  exact match c with
    | .ctlNop .. => (Sealed.execCtlNop hs).secures
    | .ctlLi .. => (Sealed.execCtlLi hs).secures
    | .ctlAdd .. => (Sealed.execCtlAdd hs).secures
    | .ctlBr .. => (Sealed.execCtlBr hs).secures
    | .ctlBase .. => (Sealed.execCtlBase hs).secures
    | .ctlEnd .. => (Sealed.execCtlEnd hs).secures
    | .ctlEndFire .. => (Sealed.execCtlEndFire hs).secures
    | .unlistedOpcode .. => (Sealed.execUnlistedOpcode hs).secures
    | .vatOpen .. => (Sealed.execVatOpen hs).secures
    | .vatOpenFire .. => (Sealed.execVatOpenFire hs).secures
    | .vatFetch .. => (Sealed.execVatFetch hs).secures
    | .vatFetchFire .. => (Sealed.execVatFetchFire hs).secures
    | .vatSlotFull .. => (Sealed.execVatSlotFull hs).secures
    | .vatPut .. => (Sealed.execVatPut hs).secures
    | .vatPutFire .. => (Sealed.execVatPutFire hs).secures
    | .putWriteComplete .. => (Sealed.execPutWriteComplete hs).secures
    | .slotRelease .. => (Sealed.execSlotRelease hs).secures
    | .vatCancel .. => (Sealed.execVatCancel hs).secures
    | .vatCancelFire .. => (Sealed.execVatCancelFire hs).secures
    | .droppedFetchEnd .. => (Sealed.execDroppedFetchEnd hs).secures
    | .vatClose .. => (Sealed.execVatClose hs).secures
    | .vatCloseFire .. => (Sealed.execVatCloseFire hs).secures
    | .ringFeed .. => (Sealed.execRingFeed hs).secures
    | .ringFeedFire .. => (Sealed.execRingFeedFire hs).secures
    | .ringTake .. => (Sealed.execRingTake hs).secures
    | .ringTakeFire .. => (Sealed.execRingTakeFire hs).secures
    | .ringAdd .. => (Sealed.execRingAdd hs).secures
    | .ringAddFire .. => (Sealed.execRingAddFire hs).secures
    | .ringFlitArrival .. => (Sealed.execRingFlitArrival hs).secures
    | .ringCreditReturn .. => (Sealed.execRingCreditReturn hs).secures
    | .ringHeadStall .. => (Sealed.execRingHeadStall hs).secures
    | .arrShape .. => (Sealed.execArrShape hs).secures
    | .arrShapeFire .. => (Sealed.execArrShapeFire hs).secures
    | .arrLoad .. => (Sealed.execArrLoad hs).secures
    | .arrLoadFire .. => (Sealed.execArrLoadFire hs).secures
    | .arrLoadComplete .. => (Sealed.execArrLoadComplete hs).secures
    | .arrMma .. => (Sealed.execArrMma hs).secures
    | .arrMmaFire .. => (Sealed.execArrMmaFire hs).secures
    | .shadowRegistersFree .. => (Sealed.execShadowRegistersFree hs).secures
    | .productRowLeavesTree .. => (Sealed.execProductRowLeavesTree hs).secures
    | .witnessVerdict .. => (Sealed.execWitnessVerdict hs).secures
    | .kPassEnd .. => (Sealed.execKPassEnd hs).secures
    | .mergeComplete .. => (Sealed.execMergeComplete hs).secures
    | .accOpen .. => (Sealed.execAccOpen hs).secures
    | .accOpenFire .. => (Sealed.execAccOpenFire hs).secures
    | .accDrain .. => (Sealed.execAccDrain hs).secures
    | .accDrainFire .. => (Sealed.execAccDrainFire hs).secures
    | .drainComplete .. => (Sealed.execDrainComplete hs).secures
    | .vecSplit .. => (Sealed.execVecSplit hs).secures
    | .vecSplitFire .. => (Sealed.execVecSplitFire hs).secures
    | .vecPro .. => (Sealed.execVecPro hs).secures
    | .vecProFire .. => (Sealed.execVecProFire hs).secures
    | .vecEpi .. => (Sealed.execVecEpi hs).secures
    | .vecEpiFire .. => (Sealed.execVecEpiFire hs).secures
    | .vecOp .. => (Sealed.execVecOp hs).secures
    | .vecOpFire .. => (Sealed.execVecOpFire hs).secures
    | .vecNcomb .. => (Sealed.execVecNcomb hs).secures
    | .vecNcombFire .. => (Sealed.execVecNcombFire hs).secures
    | .vecSminit .. => (Sealed.execVecSminit hs).secures
    | .vecSminitFire .. => (Sealed.execVecSminitFire hs).secures
    | .vecRopeLoad .. => (Sealed.execVecRopeLoad hs).secures
    | .vecRopeLoadFire .. => (Sealed.execVecRopeLoadFire hs).secures
    | .engRoute .. => (Sealed.execEngRoute hs).secures
    | .engRouteFire .. => (Sealed.execEngRouteFire hs).secures
    | .engXpose .. => (Sealed.execEngXpose hs).secures
    | .engXposeFire .. => (Sealed.execEngXposeFire hs).secures
    | .engMadder .. => (Sealed.execEngMadder hs).secures
    | .engMadderFire .. => (Sealed.execEngMadderFire hs).secures
    | .netSend .. => (Sealed.execNetSend hs).secures
    | .netSendFire .. => (Sealed.execNetSendFire hs).secures
    | .morWait .. => (Sealed.execMorWait hs).secures
    | .morWaitFire .. => (Sealed.execMorWaitFire hs).secures
    | .morAdd .. => (Sealed.execMorAdd hs).secures
    | .morAddFire .. => (Sealed.execMorAddFire hs).secures
    | .morSet .. => (Sealed.execMorSet hs).secures
    | .morSetFire .. => (Sealed.execMorSetFire hs).secures
    | .morRead .. => (Sealed.execMorRead hs).secures
    | .morReadFire .. => (Sealed.execMorReadFire hs).secures
    | .mordantOperationArrival .. => (Sealed.execMordantOperationArrival hs).secures
    | .mordantTimeout .. => (Sealed.execMordantTimeout hs).secures
    | .chkKat .. => (Sealed.execChkKat hs).secures
    | .chkKatFire .. => (Sealed.execChkKatFire hs).secures
    | .testSliceEnd .. => (Sealed.execTestSliceEnd hs).secures
    | .directTestSlice .. => (Sealed.execDirectTestSlice hs).secures
    | .katQueueFill .. => (Sealed.execKatQueueFill hs).secures
    | .idleStationRotation .. => (Sealed.execIdleStationRotation hs).secures
    | .routeDescriptorArrival .. => (Sealed.execRouteDescriptorArrival hs).secures
    | .routeGather .. => (Sealed.execRouteGather hs).secures
    | .routeCombine .. => (Sealed.execRouteCombine hs).secures
    | .routeDescriptorComplete .. => (Sealed.execRouteDescriptorComplete hs).secures
    | .transposeDescriptorArrival .. => (Sealed.execTransposeDescriptorArrival hs).secures
    | .transposeRun .. => (Sealed.execTransposeRun hs).secures
    | .transposeComplete .. => (Sealed.execTransposeComplete hs).secures
    | .madderDescriptorArrival .. => (Sealed.execMadderDescriptorArrival hs).secures
    | .madderAdaptiveUpdate .. => (Sealed.execMadderAdaptiveUpdate hs).secures
    | .madderMomentumUpdate .. => (Sealed.execMadderMomentumUpdate hs).secures
    | .madderComplete .. => (Sealed.execMadderComplete hs).secures
    | .towerRead .. => (Sealed.execTowerRead hs).secures
    | .towerWrite .. => (Sealed.execTowerWrite hs).secures
    | .accumulatingWrite .. => (Sealed.execAccumulatingWrite hs).secures
    | .maintenanceWindow .. => (Sealed.execMaintenanceWindow hs).secures
    | .bankCopyComplete .. => (Sealed.execBankCopyComplete hs).secures
    | .towerLoss .. => (Sealed.execTowerLoss hs).secures
    | .retiredTowerAccess .. => (Sealed.execRetiredTowerAccess hs).secures
    | .stashRead .. => (Sealed.execStashRead hs).secures
    | .stashWrite .. => (Sealed.execStashWrite hs).secures
    | .securedBlockWrite .. => (Sealed.execSecuredBlockWrite hs).secures
    | .drainRead .. => (Sealed.execDrainRead hs).secures
    | .blockDrainComplete .. => (Sealed.execBlockDrainComplete hs).secures
    | .copyBackGranule .. => (Sealed.execCopyBackGranule hs).secures
    | .flitArrivalAtRouter .. => (Sealed.execFlitArrivalAtRouter hs).secures
    | .frameMark => (Sealed.execFrameMark hs).secures
    | .transferStart .. => (Sealed.execTransferStart hs).secures
    | .windowMark => (Sealed.execWindowMark hs).secures
    | .sightGapDeferredCheck .. => (Sealed.execSightGapDeferredCheck hs).secures
    | .holdStallLimit .. => (Sealed.execHoldStallLimit hs).secures
    | .testShareSpanEnd .. => (Sealed.execTestShareSpanEnd hs).secures
    | .stationClockSettingWrite .. => (Sealed.execStationClockSettingWrite hs).secures
    | .clockSettingChange .. => (Sealed.execClockSettingChange hs).secures
    | .replicaTrigger .. => (Sealed.execReplicaTrigger hs).secures
    | .hangDetected .. => (Sealed.execHangDetected hs).secures
    | .crossingRecalibrated .. => (Sealed.execCrossingRecalibrated hs).secures
    | .timeSet .. => (Sealed.execTimeSet hs).secures
    | .timeSetApplied => (Sealed.execTimeSetApplied hs).secures
    | .referenceLoss => (Sealed.execReferenceLoss hs).secures
    | .referenceLock => (Sealed.execReferenceLock hs).secures
    | .holdoverCrossCheck .. => (Sealed.execHoldoverCrossCheck hs).secures
    | .blockSlot .. => (Sealed.execBlockSlot hs).secures
    | .blockArrival .. => (Sealed.execBlockArrival hs).secures
    | .portAcceptsBlock .. => (Sealed.execPortAcceptsBlock hs).secures
    | .ackTimeout .. => (Sealed.execAckTimeout hs).secures
    | .receiveSilence .. => (Sealed.execReceiveSilence hs).secures
    | .holdSightGap .. => (Sealed.execHoldSightGap hs).secures
    | .lossOfSignal .. => (Sealed.execLossOfSignal hs).secures
    | .lossPersists .. => (Sealed.execLossPersists hs).secures
    | .laneDegradeWindow .. => (Sealed.execLaneDegradeWindow hs).secures
    | .spareLockLoss .. => (Sealed.execSpareLockLoss hs).secures
    | .spareCodewordDecode .. => (Sealed.execSpareCodewordDecode hs).secures
    | .trainingSetsDetected .. => (Sealed.execTrainingSetsDetected hs).secures
    | .equaliseComplete .. => (Sealed.execEqualiseComplete hs).secures
    | .equaliseTimeout .. => (Sealed.execEqualiseTimeout hs).secures
    | .alignComplete .. => (Sealed.execAlignComplete hs).secures
    | .alignTimeout .. => (Sealed.execAlignTimeout hs).secures
    | .authTimeout .. => (Sealed.execAuthTimeout hs).secures
    | .trainingRetry .. => (Sealed.execTrainingRetry hs).secures
    | .linkControlRepeat .. => (Sealed.execLinkControlRepeat hs).secures
    | .linkControlAck .. => (Sealed.execLinkControlAck hs).secures
    | .hello .. => (Sealed.execHello hs).secures
    | .chain .. => (Sealed.execChain hs).secures
    | .proof .. => (Sealed.execProof hs).secures
    | .verdict .. => (Sealed.execVerdict hs).secures
    | .swap .. => (Sealed.execSwap hs).secures
    | .swapDone .. => (Sealed.execSwapDone hs).secures
    | .spareBad .. => (Sealed.execSpareBad hs).secures
    | .retrain .. => (Sealed.execRetrain hs).secures
    | .goodbye .. => (Sealed.execGoodbye hs).secures
    | .portCommandRetrain .. => (Sealed.execPortCommandRetrain hs).secures
    | .portCommandOrderlyDown .. => (Sealed.execPortCommandOrderlyDown hs).secures
    | .portCommandReleaseHeld .. => (Sealed.execPortCommandReleaseHeld hs).secures
    | .portEnableWrite .. => (Sealed.execPortEnableWrite hs).secures
    | .timeSync .. => (Sealed.execTimeSync hs).secures
    | .timeReply .. => (Sealed.execTimeReply hs).secures
    | .write .. => (Sealed.execWrite hs).secures
    | .readRequest .. => (Sealed.execReadRequest hs).secures
    | .readResponse .. => (Sealed.execReadResponse hs).secures
    | .mordantAdd .. => (Sealed.execMordantAdd hs).secures
    | .mordantSet .. => (Sealed.execMordantSet hs).secures
    | .reduce .. => (Sealed.execReduce hs).secures
    | .multicastWrite .. => (Sealed.execMulticastWrite hs).secures
    | .fence .. => (Sealed.execFence hs).secures
    | .openWrite .. => (Sealed.execOpenWrite hs).secures
    | .openReadRequest .. => (Sealed.execOpenReadRequest hs).secures
    | .openReadResponse .. => (Sealed.execOpenReadResponse hs).secures
    | .openMordantAdd .. => (Sealed.execOpenMordantAdd hs).secures
    | .openMordantSet .. => (Sealed.execOpenMordantSet hs).secures
    | .credit .. => (Sealed.execCredit hs).secures
    | .managementTunnel .. => (Sealed.execManagementTunnel hs).secures
    | .scheduledBlockTransit .. => (Sealed.execScheduledBlockTransit hs).secures
    | .openBlockForward .. => (Sealed.execOpenBlockForward hs).secures
    | .commitRecordArrival .. => (Sealed.execCommitRecordArrival hs).secures
    | .partnerCompletion .. => (Sealed.execPartnerCompletion hs).secures
    | .commitTimeout .. => (Sealed.execCommitTimeout hs).secures
    | .securingMordantChange .. => (Sealed.execSecuringMordantChange hs).secures
    | .nandProgramComplete .. => (Sealed.execNandProgramComplete hs).secures
    | .nandEraseComplete .. => (Sealed.execNandEraseComplete hs).secures
    | .nandReadComplete .. => (Sealed.execNandReadComplete hs).secures
    | .sharedStoreCommit .. => (Sealed.execSharedStoreCommit hs).secures
    | .restoreArm .. => (Sealed.execRestoreArm hs).secures
    | .restoreBlockLands .. => (Sealed.execRestoreBlockLands hs).secures
    | .restoreComplete .. => (Sealed.execRestoreComplete hs).secures
    | .partnerTargetWrite .. => (Sealed.execPartnerTargetWrite hs).secures
    | .sequencerCompareMismatch .. => (Sealed.execSequencerCompareMismatch hs).secures
    | .stewardLockstepMismatch => (Sealed.execStewardLockstepMismatch hs).secures
    | .observationExpiry .. => (Sealed.execObservationExpiry hs).secures
    | .riskEstimateUpdate => (Sealed.execRiskEstimateUpdate hs).secures
    | .cleanHourTick => (Sealed.execCleanHourTick hs).secures
    | .logAcknowledge .. => (Sealed.execLogAcknowledge hs).secures
    | .jobLoad .. => (Sealed.execJobLoad hs).secures
    | .jobEnd .. => (Sealed.execJobEnd hs).secures
    | .jobUnload .. => (Sealed.execJobUnload hs).secures
    | .stewardRestart .. => (Sealed.execStewardRestart hs).secures
    | .watchdogExpiry => (Sealed.execWatchdogExpiry hs).secures
    | .runtimeReady .. => (Sealed.execRuntimeReady hs hfresh).secures
    | .runtimeStartTimeout => (Sealed.execRuntimeStartTimeout hs).secures
    | .imageStagingWrite .. => (Sealed.execImageStagingWrite hs).secures
    | .firmwareVerify .. => (Sealed.execFirmwareVerify hs).secures
    | .firmwareActivate .. => (Sealed.execFirmwareActivate hs).secures
    | .raiseRollbackFloor .. => (Sealed.execRaiseRollbackFloor hs).secures
    | .firmwareRevert .. => (Sealed.execFirmwareRevert hs).secures
    | .managementSessionHandshake .. => (Sealed.execManagementSessionHandshake hs).secures
    | .sessionIdleTimeout .. => (Sealed.execSessionIdleTimeout hs).secures
    | .dictionaryRead .. => (Sealed.execDictionaryRead hs).secures
    | .dictionaryWrite .. => (Sealed.execDictionaryWrite hs).secures
    | .domainWriteSegment .. => (Sealed.execDomainWriteSegment hs).secures
    | .domainWriteCommit .. => (Sealed.execDomainWriteCommit hs).secures
    | .getVersion .. => (Sealed.execGetVersion hs).secures
    | .getCapabilities .. => (Sealed.execGetCapabilities hs).secures
    | .negotiateAlgorithms .. => (Sealed.execNegotiateAlgorithms hs).secures
    | .getDigests .. => (Sealed.execGetDigests hs).secures
    | .getCertificate .. => (Sealed.execGetCertificate hs).secures
    | .challenge .. => (Sealed.execChallenge hs).secures
    | .getMeasurements .. => (Sealed.execGetMeasurements hs).secures
    | .keyExchange .. => (Sealed.execKeyExchange hs).secures
    | .finish .. => (Sealed.execFinish hs).secures
    | .heartbeat .. => (Sealed.execHeartbeat hs).secures
    | .keyUpdate .. => (Sealed.execKeyUpdate hs).secures
    | .endSession .. => (Sealed.execEndSession hs).secures
    | .mailboxDoorbell .. => (Sealed.execMailboxDoorbell hs).secures
    | .tunnelReassemblyTimeout .. => (Sealed.execTunnelReassemblyTimeout hs).secures
    | .tunnelResend .. => (Sealed.execTunnelResend hs).secures
    | .saveConfiguration .. => (Sealed.execSaveConfiguration hs).secures
    | .discardUnsaved .. => (Sealed.execDiscardUnsaved hs).secures
    | .restoreFactory .. => (Sealed.execRestoreFactory hs).secures
    | .restoreFactoryRepairMaps .. => (Sealed.execRestoreFactoryRepairMaps hs).secures
    | .powerOn => execPowerOn_secures h
    | .coldResetInput => execColdResetInput_secures h
    | .coldReset .. => execColdReset_secures h
    | .warmReset .. => execWarmReset_secures h
    | .seamReset .. => (Sealed.execSeamReset hs).secures
    | .partitionReset .. => (Sealed.execPartitionReset hs).secures
    | .jobReset .. => (Sealed.execJobReset hs).secures
    | .portReset .. => (Sealed.execPortReset hs).secures
    | .powerRequestHalfPark .. => (Sealed.execPowerRequestHalfPark hs).secures
    | .parkTowersIdle => (Sealed.execParkTowersIdle hs).secures
    | .parkTowerTimeout => (Sealed.execParkTowerTimeout hs).secures
    | .seamDrained => (Sealed.execSeamDrained hs).secures
    | .seamDrainTimeout => (Sealed.execSeamDrainTimeout hs).secures
    | .powerRequestRun .. => (Sealed.execPowerRequestRun hs).secures
    | .powerRequestDeepPark .. => (Sealed.execPowerRequestDeepPark hs).secures
    | .powerRequestStewardOnly .. => (Sealed.execPowerRequestStewardOnly hs).secures
    | .pgAssert .. => (Sealed.execPgAssert hs).secures
    | .pgTimeout .. => (Sealed.execPgTimeout hs).secures
    | .railDecayed .. => (Sealed.execRailDecayed hs).secures
    | .fabricAdmission .. => (Sealed.execFabricAdmission hs).secures
    | .orderlyRemoval .. => (Sealed.execOrderlyRemoval hs).secures
    | .removalDrainComplete => (Sealed.execRemovalDrainComplete hs).secures
    | .removalNotice .. => (Sealed.execRemovalNotice hs).secures
    | .bar2MemoryRead .. => (Sealed.execBar2MemoryRead hs).secures
    | .bar2MemoryWrite .. => (Sealed.execBar2MemoryWrite hs).secures
    | .atomicopFetchadd .. => (Sealed.execAtomicopFetchadd hs).secures
    | .atomicopSwap .. => (Sealed.execAtomicopSwap hs).secures
    | .atomicopCas .. => (Sealed.execAtomicopCas hs).secures
    | .imageApertureRead .. => (Sealed.execImageApertureRead hs).secures
    | .imageApertureWrite .. => (Sealed.execImageApertureWrite hs).secures
    | .mordantDoorbellWrite .. => (Sealed.execMordantDoorbellWrite hs).secures
    | .mordantDoorbellRead .. => (Sealed.execMordantDoorbellRead hs).secures
    | .watchArm .. => (Sealed.execWatchArm hs).secures
    | .watchFire .. => (Sealed.execWatchFire hs).secures
    | .perstNAssert => (Sealed.execPerstNAssert hs).secures
    | .hotReset => (Sealed.execHotReset hs).secures
    | .pcieLinkDown => (Sealed.execPcieLinkDown hs).secures
    | .functionLevelReset .. => (Sealed.execFunctionLevelReset hs).secures
    | .d3hotEntry .. => (Sealed.execD3hotEntry hs).secures
    | .ptmRequest .. => (Sealed.execPtmRequest hs).secures
    | .managementModeWrite .. => (Sealed.execManagementModeWrite hs).secures
    | .smbusReadInsertionState => (Sealed.execSmbusReadInsertionState hs).secures
    | .smbusReadPowerState => (Sealed.execSmbusReadPowerState hs).secures
    | .smbusReadStatus => (Sealed.execSmbusReadStatus hs).secures
    | .smbusReadDieSensor => (Sealed.execSmbusReadDieSensor hs).secures
    | .smbusReadDramSensor => (Sealed.execSmbusReadDramSensor hs).secures
    | .smbusReadPackagePower => (Sealed.execSmbusReadPackagePower hs).secures
    | .smbusReadDeviceId => (Sealed.execSmbusReadDeviceId hs).secures
    | .smbusReadSerial => (Sealed.execSmbusReadSerial hs).secures
    | .alertResponseAddressRead => (Sealed.execAlertResponseAddressRead hs).secures
    | .smbusWrite => (Sealed.execSmbusWrite hs).secures
    | .ppsOutPulse => (Sealed.execPpsOutPulse hs).secures
    | .ppsInEdge => (Sealed.execPpsInEdge hs).secures
    | .testEnRise => (Sealed.execTestEnRise hs).secures
    | .testEnFall => execTestEnFall_secures h
    | .bypass => (Sealed.execBypass hs).secures
    | .idcode => (Sealed.execIdcode hs).secures
    | .samplePreload => (Sealed.execSamplePreload hs).secures
    | .extest => (Sealed.execExtest hs).secures
    | .clamp => (Sealed.execClamp hs).secures
    | .highz => (Sealed.execHighz hs).secures
    | .privateInstruction => (Sealed.execPrivateInstruction hs).secures
    | .powerLimitCheck .. => (Sealed.execPowerLimitCheck hs).secures
    | .coreRailStepDecay .. => (Sealed.execCoreRailStepDecay hs).secures
    | .sensorSample .. => (Sealed.execSensorSample hs).secures
    | .throttleStep .. => (Sealed.execThrottleStep hs).secures
    | .throttleRecoveryStep .. => (Sealed.execThrottleRecoveryStep hs).secures
    | .railOutOfRange .. => (Sealed.execRailOutOfRange hs).secures
    | .pgDeassert .. => (Sealed.execPgDeassert hs).secures
    | .pmbusCommandFailure .. => (Sealed.execPmbusCommandFailure hs).secures
    | .stewardRailFailure => execStewardRailFailure_secures h
    | .stwResetNRelease .. => (Sealed.execStwResetNRelease hs hfresh).secures
    | .perstNDeassert => (Sealed.execPerstNDeassert hs).secures
    | .d0Entry .. => (Sealed.execD0Entry hs).secures
    | .pcieLinkUp .. => (Sealed.execPcieLinkUp hs).secures
    | .managementLinkUp .. => (Sealed.execManagementLinkUp hs).secures
    | .managementLinkDown .. => (Sealed.execManagementLinkDown hs).secures
    | .managementSessionClose .. => (Sealed.execManagementSessionClose hs).secures
    | .notificationRingTailWrite .. => (Sealed.execNotificationRingTailWrite hs).secures
    | .computeDieReady .. => (Sealed.execComputeDieReady hs).secures
    | .replicaWarningLevel .. => (Sealed.execReplicaWarningLevel hs).secures
    | .coreRailVoutCommand .. => (Sealed.execCoreRailVoutCommand hs).secures
    | .morReadRegisterWritten .. => (Sealed.execMorReadRegisterWritten hs).secures
    | .vecOpComplete .. => (Sealed.execVecOpComplete hs).secures
    | .coefficientRequest .. => (Sealed.execCoefficientRequest hs).secures

/-- Settles O54: no command but a reset of the compute die writes an entry of the set-up (`exec_secures`); a write of the dictionary is refused by its access
(`writeStatus_outside`), and a boot of a sealed device verifies the set-up and writes nothing of it (`Sealed.bootSteps`). -/
theorem sealedSetupStays : Obligations.SealedSetupStays := by
  unfold Obligations.SealedSetupStays
  exact fun c s t hsaved _ hfresh hexec => exec_secures hsaved hfresh c t hexec

end
end Sys2Proof.Machine
end
